-- ==== Sys2Proof/Word.lean ====
section
/-!
DEFINITION. The word types of the model and their plainest arithmetic.
-/
namespace Sys2Proof

/-- A 32-bit register of the management map. -/
abbrev Word := BitVec 32

/-- One byte. -/
abbrev Byte := BitVec 8

/-- One wide row of the tile store, 1,024 B (R106), byte k in bits [8k+7:8k] (R14). -/
abbrev Row := BitVec 8192

/-- The field of `w` bits from bit `lo` of a word, as a number. -/
def Word.field (x : Word) (lo w : Nat) : Nat := x.toNat / 2 ^ lo % 2 ^ w

/-- The word with the field of `w` bits from bit `lo` replaced by the low bits of `v`. -/
def Word.setField (x : Word) (lo w v : Nat) : Word :=
  BitVec.ofNat 32 (x.toNat % 2 ^ lo + (v % 2 ^ w) * 2 ^ lo + x.toNat / 2 ^ (lo + w) * 2 ^ (lo + w))

/-- One bit of a word. -/
def Word.bit (x : Word) (i : Nat) : Bool := x.getLsbD i

/-- The word with one bit replaced. -/
def Word.setBit (x : Word) (i : Nat) (b : Bool) : Word := Word.setField x i 1 b.toNat

/-- Byte `i` of a number held little-endian (R14). -/
def byteOf (v i : Nat) : Byte := BitVec.ofNat 8 (v / 256 ^ i)

/-- The number that a list of bytes holds, the first byte lowest (R14). -/
def ofBytes : List Byte → Nat
  | [] => 0
  | b :: r => b.toNat + 256 * ofBytes r

/-- The low `n` bytes of a number, the lowest first (R14). -/
def toBytes (v : Nat) : Nat → List Byte
  | 0 => []
  | n + 1 => BitVec.ofNat 8 v :: toBytes (v / 256) n

/-- Whether stored milestone number `n` is ahead of the current number `c`, both 48 bits wide (R31). -/
def msAhead (n c : Nat) : Bool :=
  let d := (n + 2 ^ 48 - c % 2 ^ 48) % 2 ^ 48
  decide (1 ≤ d) && decide (d ≤ 2 ^ 47 - 1)

end Sys2Proof
end

