-- ==== Sys2Proof/Syntax.lean ====
section
/-!
DEFINITION. The commands of the part: one constructor of `Instr` for each row of the opcode table, with the row's
operands and what the step meets from outside. Tiles, functions, partitions, ports and so on are numbers; encoded fields
are bit vectors.
-/
namespace Sys2Proof

/-- What one tile showed at a milestone: the handshake it had reached at its sample and its slack (R37). -/
structure TileReport where
  tile : Nat
  hs : Nat
  slack : Nat
  deriving DecidableEq, Repr

/-- What a milestone meets: the reports of the tiles that it samples, and the findings of the program patrol
(tile, memory, word index, kind: 0 one data bit, 1 one check bit, 2 uncorrectable; R135). -/
structure MsEnv where
  reports : List TileReport
  patrol : List (Nat × Nat × Nat × Nat)
  deriving DecidableEq, Repr

/-- An upset that a read meets (R112): the word of the store (row × 128 + word of the row), the kind (0 one data bit,
1 one check bit, 2 uncorrectable, 3 bank-row tag) and, for an uncorrectable word, which bits are flipped. -/
structure SoftErr where
  word : Nat
  kind : Nat
  flip : BitVec 64
  deriving DecidableEq, Repr

/-- The operand fields of an MMA entry (R62). -/
structure MmaFields where
  aRow : BitVec 13
  bRow : BitVec 13
  sa : BitVec 18
  sb : BitVec 18
  cRow : BitVec 13
  kLen : BitVec 8
  fmtA : BitVec 3
  fmtB : BitVec 3
  scale : BitVec 2
  passes : BitVec 2
  outFmt : BitVec 3
  accInit : Bool
  drain : Bool
  accSet : Bool
  sat : Bool
  oblk : Bool
  deriving DecidableEq, Repr

/-- The operand fields of a DRAIN entry (R62). -/
structure DrainFields where
  cRow : BitVec 13
  outFmt : BitVec 3
  accSet : Bool
  sat : Bool
  oblk : Bool
  deriving DecidableEq, Repr

/-- The operand fields of an MVM entry (R72). -/
structure MvmFields where
  wRow : BitVec 13
  ws : BitVec 18
  rows : BitVec 13
  kr : BitVec 10
  shape : BitVec 2
  wFmt : BitVec 3
  vFmt : BitVec 3
  vOff : BitVec 9
  accBase : BitVec 10
  batch : BitVec 2
  scale : BitVec 2
  accInit : Bool
  deriving DecidableEq, Repr

/-- The operand fields that a VLOAD entry uses (R72). -/
structure VloadFields where
  wRow : BitVec 13
  ws : BitVec 18
  rows : BitVec 13
  vOff : BitVec 9
  scale : BitVec 2
  deriving DecidableEq, Repr

/-- The operand fields that an MDRAIN entry uses (R72). -/
structure MdrainFields where
  rows : BitVec 13
  accBase : BitVec 10
  cRow : BitVec 13
  bf16 : Bool
  deriving DecidableEq, Repr

/-- The operand fields of a VEU entry (R74). -/
structure VeuFields where
  vd : BitVec 4
  va : BitVec 4
  vb : BitVec 4
  vc : BitVec 4
  row : BitVec 13
  fmt : BitVec 3
  imm : BitVec 32
  mode : BitVec 4
  deriving DecidableEq, Repr

/-- The operand fields of an SWIN entry (R118). -/
structure SwinFields where
  countM1 : BitVec 13
  stride : BitVec 6
  dir : Bool
  mask : BitVec 8
  deriving DecidableEq, Repr

/-- One parallel move field of a TC instruction (R141). -/
structure Move where
  en : Bool
  st : Bool
  p : BitVec 2
  mode : BitVec 2
  size : BitVec 2
  sx : Bool
  reg : BitVec 5
  deriving DecidableEq, Repr

/-- The X and Y moves of a TC instruction. -/
structure Moves where
  x : Move
  y : Move
  deriving DecidableEq, Repr

/-- Format T of R140. -/
structure TcT where
  d : BitVec 5
  a : BitVec 5
  b : BitVec 5
  s : Bool
  deriving DecidableEq, Repr

/-- Format I of R140. -/
structure TcI where
  d : BitVec 5
  a : BitVec 5
  imm : BitVec 14
  deriving DecidableEq, Repr

/-- Format L of R140. -/
structure TcL where
  d : BitVec 5
  imm : BitVec 16
  deriving DecidableEq, Repr

/-- Format A of R140, for MAC and MSU. -/
structure TcA where
  acc : BitVec 2
  a : BitVec 5
  b : BitVec 5
  sel : BitVec 2
  frac : Bool
  s : Bool
  deriving DecidableEq, Repr

/-- Format P of R140. -/
structure TcP where
  y : Bool
  p : BitVec 2
  r : BitVec 5
  deriving DecidableEq, Repr

/-- A packet of the tile network: the header fields of R174, its argument and its payload row. -/
structure Pkt where
  dst : BitVec 7
  dkind : Bool
  src : BitVec 7
  skind : Bool
  part : BitVec 4
  gen : BitVec 8
  prio : BitVec 2
  type : BitVec 4
  bt : BitVec 2
  age : BitVec 16
  len : BitVec 5
  ctx : BitVec 3
  arg : BitVec 64
  payload : Row
  deriving DecidableEq, Repr

/-- What every mailbox request carries (R302): the function it came from, the host's tag, the target byte and the
flags byte. -/
structure Req where
  fn : Nat
  tag : BitVec 16
  target : BitVec 8
  flags : BitVec 8
  deriving DecidableEq, Repr

/-- The resource table of PART_CREATE (R312). -/
structure ResTable where
  partition : BitVec 8
  columns : BitVec 8
  gpio : BitVec 8
  share : BitVec 8
  dramBase : BitVec 32
  dramLimit : BitVec 32
  lanes : BitVec 96
  firstChan : BitVec 16
  chanCount : BitVec 16
  dumpRow : BitVec 16
  deriving DecidableEq, Repr

/-- One record of LOAD_TILE_PROGRAM (R311). -/
structure LoadRec where
  type : BitVec 16
  tile : BitVec 8
  first : BitVec 32
  data : List Byte
  crc : Word
  deriving DecidableEq, Repr

/-- What an edge port samples at one rising edge of `EP_CLK` (R200). -/
structure EpClk where
  valid : Bool
  sob : Bool
  dest : BitVec 6
  data : BitVec 512
  deriving DecidableEq, Repr

/-- The reference of a PLL (R197): a clock-capable pin of a GPIO bank, or the time unit's 10 MHz. -/
inductive PllRef where
  | pin (bank pin : Nat)
  | time
  deriving DecidableEq, Repr

/-- Where an image comes from: a flash slot at boot (R214), or FABRIC_LOAD for a partition (R225). -/
inductive ImgSrc where
  | slot (kind : BitVec 8)
  | load (partition : Nat)
  deriving DecidableEq, Repr

/-- What the check symbols of a DRAM burst show (R290): the burst of the request, whether it is uncorrectable, whether
the symbol in error is a check symbol, and the index of the symbol. -/
structure DramFind where
  burst : Nat
  uncorrectable : Bool
  check : Bool
  symbol : BitVec 8
  deriving DecidableEq, Repr

/-- What a lane receives between two commas: the levels of its symbols as they arrive, 0 for −3, 1 for −1, 2 for +1 and 3 for
+3, with the stuff symbols (R239 to R241). NRZ uses 0 and 3. -/
structure RxFrame where
  symbols : List (BitVec 2)
  deriving DecidableEq, Repr

/-- The header of a flit (R249) but for its type. -/
structure FlitHdr where
  vc : BitVec 4
  seq : BitVec 12
  ack : BitVec 12
  epoch : BitVec 16
  crvc : BitVec 4
  crn : BitVec 12
  deriving DecidableEq, Repr

/-- The body of a channel flit (R258). -/
structure ChanBody where
  chan : BitVec 8
  marker : Bool
  len : BitVec 7
  route : BitVec 16
  data : BitVec 896
  deriving DecidableEq, Repr

/-- The body of a TIME flit (R325). -/
structure TimeMsg where
  hops : BitVec 8
  flags : BitVec 8
  seq : BitVec 8
  ta : BitVec 64
  taFrac : BitVec 16
  tb : BitVec 64
  tbFrac : BitVec 16
  corr : BitVec 64
  reqCorr : BitVec 64
  dist : BitVec 8
  hops0 : BitVec 8
  dstEp : BitVec 16
  srcEp : BitVec 16
  deriving DecidableEq, Repr

/-- What one loop of the governor measures (R345, R346): the power of the fixed rails in 0.125 W, the highest junction
temperature of quarters 0 to 3, of the fabric and of the hub in 1/8 degree, and by AVSBus rail the voltage in mV and the current
in 0.1 A. -/
structure GovEnv where
  watts : Nat
  tj : List Int
  railV : List Nat
  railI : List Nat
  deriving DecidableEq, Repr

/-- The organisation of a channel as the SPD or the board data gives it (R272, R273), in the units of R272: the channel, the data
rate in MT/s, whether it has check bits, the device width, the density in Gb, the ranks, the capacity in GiB, whether its devices are stacked
(3DS) or its module is an LRDIMM, whether they refresh a single bank (REFsb); and at B6 whether its training fails and the
values that it finds. -/
structure ChanEnv where
  ch : Nat
  rate : Nat
  check : Bool
  width : Nat
  density : Nat
  ranks : Nat
  capacity : Nat
  stacked : Bool
  refsb : Bool
  fails : Bool
  values : Nat
  deriving DecidableEq, Repr

/-- What a boot step found (R351 to R356): whether it passed, or the error code; at B0 the bytes of the flash directory and of its copy;
the positions (column, position) that fail BIST at B4; at B5 the rows repaired by tile block; and at B6 the channels that hold
memory. -/
structure BootEnv where
  pass : Bool
  code : BitVec 16
  dir : List Byte
  copy : List Byte
  dead : List (Nat × Nat)
  org : List ChanEnv
  repair : List (Nat × Nat)
  deriving DecidableEq, Repr

/-- An access through the test port (R213, R218). -/
inductive TestOp where
  | firmware
  /-- The TAP shifts out `CFG_IDCODE` (R377). -/
  | idcode
  | fuseKey (key : BitVec 256)
  | bbramKey (key : BitVec 256)
  | fuse (index : Nat)
  deriving DecidableEq, Repr

/-- The commands, in the order of the opcode table. -/
inductive Instr where
  /-- MBX_REQ_TAIL: host write of the request doorbell (R304). -/
  | mbxReqTail (fn : Nat) (value : BitVec 16)
  /-- MBX_CPL_HEAD: host write of the completion doorbell (R301). -/
  | mbxCplHead (fn : Nat) (value : BitVec 16)
  /-- MBX_NTC_HEAD: host write of the notice doorbell (R301). -/
  | mbxNtcHead (fn : Nat) (value : BitVec 16)
  /-- MBX_ENABLE: host write of MBX_CTRL (R300). -/
  | mbxEnable (fn : Nat) (value : Word)
  /-- MBX_REQUEST_TAKE: the command engine takes the next request of a function, whose opcode and tag fields read so (R303, R308). -/
  | mbxRequestTake (fn : Nat) (opcode tag : BitVec 16)
  /-- NOTICE_WRITE: the oldest waiting notice is written (R305). -/
  | noticeWrite
  /-- HELLO: mailbox command 0x0001 (R308). -/
  | hello (r : Req) (version : BitVec 16)
  /-- GET_INFO: mailbox command 0x0002 (R308). -/
  | getInfo (r : Req)
  /-- PART_CREATE: mailbox command 0x0010 without amend (R312). -/
  | partCreate (r : Req) (t : ResTable)
  /-- PART_CREATE_AMEND: mailbox command 0x0010 with amend (R313). -/
  | partCreateAmend (r : Req) (t : ResTable)
  /-- PART_DESTROY: mailbox command 0x0011 (R314). -/
  | partDestroy (r : Req) (wipe : Bool)
  /-- PART_RESET: mailbox command 0x0012 (R365). -/
  | partReset (r : Req) (resume : Bool)
  /-- PART_QUERY: mailbox command 0x0013 (R308). -/
  | partQuery (r : Req)
  /-- LOAD_TILE_PROGRAM: mailbox command 0x0020 with the records its host buffer holds; dma says whether the host DMA ended without error (R310, R311). -/
  | loadTileProgram (r : Req) (records : List LoadRec) (dma : Bool)
  /-- LOAD_WEIGHTS: mailbox command 0x0021 with the rows its host buffer holds (R311). -/
  | loadWeights (r : Req) (tile : Nat) (firstRow : BitVec 13) (rows : List Row) (dma : Bool)
  /-- FABRIC_LOAD: mailbox command 0x0022: the checks before the stream (R225); stall says whether the reverse release stalled (R210). -/
  | fabricLoad (r : Req) (stall : Bool)
  /-- FABRIC_READBACK: mailbox command 0x0023 with the captured state (R211). -/
  | fabricReadback (r : Req) (addr : BitVec 64) (len : BitVec 32) (bram live : Bool)
  /-- START: mailbox command 0x0030. -/
  | start (r : Req) (ms step : BitVec 48)
  /-- STOP: mailbox command 0x0031 (R34, R318). -/
  | stop (r : Req) (ms : BitVec 48) (next : Bool)
  /-- SET_PERIOD: mailbox command 0x0032 (R32, R53). -/
  | setPeriod (r : Req) (period : BitVec 16) (ms : BitVec 48)
  /-- LINK_CONFIG: mailbox command 0x0040 (R308, R256). -/
  | linkConfig (r : Req) (object index : BitVec 8) (reopen : Bool) (img0 img1 img2 : Word)
  /-- LINK_STATUS: mailbox command 0x0041 (R308). -/
  | linkStatus (r : Req) (object index : BitVec 8)
  /-- ROUTE_EPOCH: mailbox command 0x0042 without rejoin (R265). -/
  | routeEpoch (r : Req) (epoch : BitVec 16) (ms : BitVec 48)
  /-- ROUTE_EPOCH_REJOIN: mailbox command 0x0042 with rejoin (R268). -/
  | routeEpochRejoin (r : Req) (epoch : BitVec 16) (ms : BitVec 48)
  /-- ROUTE_NOTICE: mailbox command 0x0043 (R373). -/
  | routeNotice (r : Req) (kind : BitVec 8) (firstChan chanCount endpoint : BitVec 16) (ms : BitVec 48) (opq : BitVec 256)
  /-- POWER_STATE: mailbox command 0x0050, partition scope (R334, R338, R339). -/
  | powerState (r : Req) (rung : BitVec 8) (lanes : BitVec 96) (link hold : BitVec 8)
  /-- POWER_STATE_DEVICE: mailbox command 0x0050, device scope (R334, R337). -/
  | powerStateDevice (r : Req) (rung : BitVec 8) (lanes : BitVec 96) (link hold : BitVec 8)
  /-- POWER_LIMIT: mailbox command 0x0051 (R308). -/
  | powerLimit (r : Req) (watts : BitVec 16)
  /-- TIME_CONFIG: mailbox command 0x0060 (R308, R320). -/
  | timeConfig (r : Req) (role ref pins port : BitVec 8) (endpoint : BitVec 16) (epEn : Bool)
  /-- TIME_READ: mailbox command 0x0061 (R308, R330). -/
  | timeRead (r : Req)
  /-- LOG_READ: mailbox command 0x0070 (R394). -/
  | logRead (r : Req) (addr : BitVec 64) (max start : BitVec 16) (minSev : BitVec 8)
  /-- DUMP_READ: mailbox command 0x0071 (R368, R395). -/
  | dumpRead (r : Req) (addr : BitVec 64) (slot : BitVec 8) (release : Bool) (offset len : BitVec 32)
  /-- BOOT_RECORD_READ: mailbox command 0x0072 (R357). -/
  | bootRecordRead (r : Req) (addr : BitVec 64) (len : BitVec 32)
  /-- BOOT_RECORD_CLEAR: mailbox command 0x0073 (R357). -/
  | bootRecordClear (r : Req)
  /-- DRAM_MAP: mailbox command 0x0080 (R275). -/
  | dramMap (r : Req) (mode : BitVec 8)
  /-- QOS_SET: mailbox command 0x0081 (R280). -/
  | qosSet (r : Req) (mask port : BitVec 8) (target : BitVec 16)
  /-- FW_UPDATE: mailbox command 0x00F0 with the bytes its host buffer holds (R215). -/
  | fwUpdate (r : Req) (offset : BitVec 32) (slotKind : BitVec 8) (last : Bool) (image : List Byte)
  /-- FW_ACTIVATE: mailbox command 0x00F1 (R318). -/
  | fwActivate (r : Req) (now : Bool)
  /-- FW_HEARTBEAT_TICK: firmware increments the heartbeat (R307). -/
  | fwHeartbeatTick
  /-- FW_HEARTBEAT_LOST: the heartbeat watchdog fires (R307). -/
  | fwHeartbeatLost
  /-- BAR2_READ: host read through a BAR2 window (R298). -/
  | bar2Read (fn : Nat) (offset : BitVec 40) (len : Nat)
  /-- BAR2_WRITE: host write through a BAR2 window (R298, R291). -/
  | bar2Write (fn : Nat) (offset : BitVec 40) (data : List Byte)
  /-- BAR4_ACCESS: host access to the management map in owner debug mode (R299). -/
  | bar4Access (offset : BitVec 32) (write : Bool) (value : Word)
  /-- FUNCTION_LEVEL_RESET: a function level reset (R317). -/
  | functionLevelReset (fn : Nat)
  /-- PCIE_LINK_RESET: PERST_N, a hot reset or a link down (R296, R317). -/
  | pcieLinkReset
  /-- PTM_EXCHANGE: the PTM request leaves and Route time is captured (R330). -/
  | ptmExchange
  /-- PTM_RESPONSE: the PTM response arrives (R330). -/
  | ptmResponse (hostTime : BitVec 64) (rtt : Nat)
  /-- MILESTONE: a milestone, with what the tiles measured. -/
  | milestone (e : MsEnv)
  /-- BEAT_START: the opening of a partition's beat, at the end of the turnaround (R36). -/
  | beatStart (partition : Nat)
  /-- MMA: array entry, opcode 0x01 (R62). -/
  | mma (tile : Nat) (arr : BitVec 1) (rep : BitVec 10) (f : MmaFields)
  /-- DRAIN: array entry, opcode 0x02 (R62). -/
  | drain (tile : Nat) (arr : BitVec 1) (f : DrainFields)
  /-- CLEAR: array entry, opcode 0x03 (R62). -/
  | clear (tile : Nat) (arr : BitVec 1) (accSet : Bool)
  /-- MMA_COMPLETE: accumulation of the oldest MMA of an array completes (R66). -/
  | mmaComplete (tile : Nat) (arr : BitVec 1)
  /-- DRAIN_CAPTURE: the earliest drain of an array captures its set at D (R67). -/
  | drainCapture (tile : Nat) (arr : BitVec 1)
  /-- MVM: MVU entry, opcode 0x01 (R72), with the upsets its reads meet (R112). -/
  | mvm (tile : Nat) (f : MvmFields) (soft : List SoftErr)
  /-- VLOAD: MVU entry, opcode 0x02 (R72). -/
  | vload (tile : Nat) (f : VloadFields)
  /-- MDRAIN: MVU entry, opcode 0x03 (R72). -/
  | mdrain (tile : Nat) (f : MdrainFields)
  /-- VLD: VEU entry, opcode 0x01 (R74), with the upsets its read meets (R112). -/
  | vld (tile : Nat) (rep : BitVec 10) (f : VeuFields) (soft : List SoftErr)
  /-- VST: VEU entry, opcode 0x02 (R74). -/
  | vst (tile : Nat) (rep : BitVec 10) (f : VeuFields)
  /-- VADD: VEU entry, opcode 0x03 (R74). -/
  | vadd (tile : Nat) (rep : BitVec 10) (f : VeuFields)
  /-- VMUL: VEU entry, opcode 0x04 (R74). -/
  | vmul (tile : Nat) (rep : BitVec 10) (f : VeuFields)
  /-- VFMA: VEU entry, opcode 0x05 (R74). -/
  | vfma (tile : Nat) (rep : BitVec 10) (f : VeuFields)
  /-- VCMP: VEU entry, opcode 0x06 (R74). -/
  | vcmp (tile : Nat) (rep : BitVec 10) (f : VeuFields)
  /-- VSEL: VEU entry, opcode 0x07 (R74). -/
  | vsel (tile : Nat) (rep : BitVec 10) (f : VeuFields)
  /-- VMAX: VEU entry, opcode 0x08 (R74). -/
  | vmax (tile : Nat) (rep : BitVec 10) (f : VeuFields)
  /-- VMIN: VEU entry, opcode 0x09 (R74). -/
  | vmin (tile : Nat) (rep : BitVec 10) (f : VeuFields)
  /-- VEXP2: VEU entry, opcode 0x0A (R74). -/
  | vexp2 (tile : Nat) (rep : BitVec 10) (f : VeuFields)
  /-- VLOG2: VEU entry, opcode 0x0B (R74). -/
  | vlog2 (tile : Nat) (rep : BitVec 10) (f : VeuFields)
  /-- VRCP: VEU entry, opcode 0x0C (R74). -/
  | vrcp (tile : Nat) (rep : BitVec 10) (f : VeuFields)
  /-- VRSQ: VEU entry, opcode 0x0D (R74). -/
  | vrsq (tile : Nat) (rep : BitVec 10) (f : VeuFields)
  /-- VEXPS: VEU entry, opcode 0x0E (R74). -/
  | vexps (tile : Nat) (rep : BitVec 10) (f : VeuFields)
  /-- VRMAXI: VEU entry, opcode 0x0F (R74). -/
  | vrmaxi (tile : Nat) (rep : BitVec 10) (f : VeuFields)
  /-- VRMINI: VEU entry, opcode 0x10 (R74). -/
  | vrmini (tile : Nat) (rep : BitVec 10) (f : VeuFields)
  /-- VRSUM: VEU entry, opcode 0x11 (R74). -/
  | vrsum (tile : Nat) (rep : BitVec 10) (f : VeuFields)
  /-- VRSSQ: VEU entry, opcode 0x12 (R74). -/
  | vrssq (tile : Nat) (rep : BitVec 10) (f : VeuFields)
  /-- VCVT: VEU entry, opcode 0x13 (R74). -/
  | vcvt (tile : Nat) (rep : BitVec 10) (f : VeuFields)
  /-- VQNT: VEU entry, opcode 0x14 (R74). -/
  | vqnt (tile : Nat) (rep : BitVec 10) (f : VeuFields)
  /-- VDQNT: VEU entry, opcode 0x15 (R74). -/
  | vdqnt (tile : Nat) (rep : BitVec 10) (f : VeuFields)
  /-- VBCAST: VEU entry, opcode 0x16 (R74). -/
  | vbcast (tile : Nat) (rep : BitVec 10) (f : VeuFields)
  /-- SWIN: stream entry, opcode 0x01 (R118). -/
  | swin (tile : Nat) (f : SwinFields)
  /-- SCTX_PAUSE: stream entry, opcode 0x02, action 0 (R118). -/
  | sctxPause (tile : Nat) (mask : BitVec 8)
  /-- SCTX_RESUME: stream entry, opcode 0x02, action 1 (R118). -/
  | sctxResume (tile : Nat) (mask : BitVec 8)
  /-- SCTX_CLOSE: stream entry, opcode 0x02, action 2 (R118). -/
  | sctxClose (tile : Nat) (mask : BitVec 8)
  /-- SREL: stream entry, opcode 0x03 (R118). -/
  | srel (tile : Nat) (ctx : BitVec 3) (rows : BitVec 13)
  /-- SPUSH: stream entry, opcode 0x04 (R118). -/
  | spush (tile : Nat) (ctx : BitVec 3) (rows : BitVec 13)
  /-- TCGO: entry of engine 0x5, opcode 0x01 (R128). -/
  | tcgo (tile : Nat) (pc : BitVec 13)
  /-- TCEV: entry of engine 0x5, opcode 0x02 (R128). -/
  | tcev (tile : Nat) (event : BitVec 4)
  /-- SIGNAL: entry of engine 0x6, opcode 0x01, remote 0 (R128). -/
  | signal (tile : Nat) (sem : BitVec 6) (count : BitVec 12)
  /-- SIGNAL_REMOTE: the same with remote 1 (R128). -/
  | signalRemote (tile : Nat) (sem : BitVec 6) (count : BitVec 12) (target : BitVec 7)
  /-- TAKE: entry of engine 0x6, opcode 0x02 (R128). -/
  | take (tile : Nat) (sem : BitVec 6) (count : BitVec 12)
  /-- GATE: entry of engine 0x7, opcode 0x01 (R128). -/
  | gate (tile : Nat) (sem : BitVec 6) (count : BitVec 12)
  /-- END: entry of engine 0xE, opcode 0x00 (R128). -/
  | endEntry (tile : Nat)
  /-- NOP: entry of engine 0xF, opcode 0x00 (R128). -/
  | nop (tile : Nat) (rep : BitVec 10)
  /-- APPADV: entry of engine 0xF, opcode 0x01 (R128). -/
  | appadv (tile : Nat) (rep : BitVec 10) (region : BitVec 7)
  /-- ITIN_OVERRUN: the entry after the variant's last one falls due (R134). -/
  | itinOverrun (tile : Nat)
  /-- TILE_PARK: the tile parks at a GATE, or at END once done (R37, R130). -/
  | tilePark (tile : Nat)
  /-- TILE_DONE: the last of the three handshakes of R133. -/
  | tileDone (tile : Nat)
  /-- WAITER_WAKE: the wake wire of a semaphore fires and its waiters take (R158). -/
  | waiterWake (tile : Nat) (sem : BitVec 6)
  /-- TC_NOP: TC instruction, moves only (R143). -/
  | tcNop (tile : Nat) (mv : Moves)
  /-- ADD: TC instruction ADD (R143). -/
  | tcAdd (tile : Nat) (mv : Moves) (o : TcT)
  /-- SUB: TC instruction SUB (R143). -/
  | tcSub (tile : Nat) (mv : Moves) (o : TcT)
  /-- NEG: TC instruction NEG (R143). -/
  | tcNeg (tile : Nat) (mv : Moves) (o : TcT)
  /-- ABS: TC instruction ABS (R143). -/
  | tcAbs (tile : Nat) (mv : Moves) (o : TcT)
  /-- MIN: TC instruction MIN (R143). -/
  | tcMin (tile : Nat) (mv : Moves) (o : TcT)
  /-- MAX: TC instruction MAX (R143). -/
  | tcMax (tile : Nat) (mv : Moves) (o : TcT)
  /-- MINU: TC instruction MINU (R143). -/
  | tcMinu (tile : Nat) (mv : Moves) (o : TcT)
  /-- MAXU: TC instruction MAXU (R143). -/
  | tcMaxu (tile : Nat) (mv : Moves) (o : TcT)
  /-- AND: TC instruction AND (R143). -/
  | tcAnd (tile : Nat) (mv : Moves) (o : TcT)
  /-- OR: TC instruction OR (R143). -/
  | tcOr (tile : Nat) (mv : Moves) (o : TcT)
  /-- XOR: TC instruction XOR (R143). -/
  | tcXor (tile : Nat) (mv : Moves) (o : TcT)
  /-- NOT: TC instruction NOT (R143). -/
  | tcNot (tile : Nat) (mv : Moves) (o : TcT)
  /-- MOV: TC instruction MOV (R143). -/
  | tcMov (tile : Nat) (mv : Moves) (o : TcT)
  /-- CMP: TC instruction CMP (R143). -/
  | tcCmp (tile : Nat) (mv : Moves) (o : TcT)
  /-- SHL: TC instruction SHL (R143). -/
  | tcShl (tile : Nat) (mv : Moves) (o : TcT)
  /-- SHR: TC instruction SHR (R143). -/
  | tcShr (tile : Nat) (mv : Moves) (o : TcT)
  /-- SAR: TC instruction SAR (R143). -/
  | tcSar (tile : Nat) (mv : Moves) (o : TcT)
  /-- ROL: TC instruction ROL (R143). -/
  | tcRol (tile : Nat) (mv : Moves) (o : TcT)
  /-- ROR: TC instruction ROR (R143). -/
  | tcRor (tile : Nat) (mv : Moves) (o : TcT)
  /-- MUL: TC instruction MUL (R143). -/
  | tcMul (tile : Nat) (mv : Moves) (o : TcT)
  /-- MULH: TC instruction MULH (R143). -/
  | tcMulh (tile : Nat) (mv : Moves) (o : TcT)
  /-- MULHU: TC instruction MULHU (R143). -/
  | tcMulhu (tile : Nat) (mv : Moves) (o : TcT)
  /-- DIVS: TC instruction DIVS (R143). -/
  | tcDivs (tile : Nat) (mv : Moves) (o : TcT)
  /-- DIVU: TC instruction DIVU (R143). -/
  | tcDivu (tile : Nat) (mv : Moves) (o : TcT)
  /-- ADDI: TC instruction ADDI (R143). -/
  | tcAddi (tile : Nat) (mv : Moves) (o : TcI)
  /-- ANDI: TC instruction ANDI (R143). -/
  | tcAndi (tile : Nat) (mv : Moves) (o : TcI)
  /-- ORI: TC instruction ORI (R143). -/
  | tcOri (tile : Nat) (mv : Moves) (o : TcI)
  /-- XORI: TC instruction XORI (R143). -/
  | tcXori (tile : Nat) (mv : Moves) (o : TcI)
  /-- SHLI: TC instruction SHLI (R143). -/
  | tcShli (tile : Nat) (mv : Moves) (o : TcI)
  /-- SHRI: TC instruction SHRI (R143). -/
  | tcShri (tile : Nat) (mv : Moves) (o : TcI)
  /-- SARI: TC instruction SARI (R143). -/
  | tcSari (tile : Nat) (mv : Moves) (o : TcI)
  /-- CMPI: TC instruction CMPI (R143). -/
  | tcCmpi (tile : Nat) (mv : Moves) (o : TcI)
  /-- MOVI: TC instruction MOVI (R143). -/
  | tcMovi (tile : Nat) (mv : Moves) (o : TcL)
  /-- MOVHI: TC instruction MOVHI (R143). -/
  | tcMovhi (tile : Nat) (mv : Moves) (o : TcL)
  /-- MAC: TC instruction MAC (R146). -/
  | tcMac (tile : Nat) (mv : Moves) (o : TcA)
  /-- MSU: TC instruction MSU (R146). -/
  | tcMsu (tile : Nat) (mv : Moves) (o : TcA)
  /-- ACLR: TC instruction ACLR (R146). -/
  | tcAclr (tile : Nat) (mv : Moves) (acc : BitVec 2)
  /-- ACLD: TC instruction ACLD (R146). -/
  | tcAcld (tile : Nat) (mv : Moves) (acc : BitVec 2) (a sh : BitVec 5) (s : Bool)
  /-- ACCX: TC instruction ACCX (R146). -/
  | tcAccx (tile : Nat) (mv : Moves) (acc : BitVec 2) (d sh : BitVec 5) (w s : Bool)
  /-- MAXI: TC instruction MAXI (R143). -/
  | tcMaxi (tile : Nat) (mv : Moves) (o : TcT)
  /-- MINI: TC instruction MINI (R143). -/
  | tcMini (tile : Nat) (mv : Moves) (o : TcT)
  /-- FMAXI: TC instruction FMAXI (R143). -/
  | tcFmaxi (tile : Nat) (mv : Moves) (o : TcT)
  /-- FMINI: TC instruction FMINI (R143). -/
  | tcFmini (tile : Nat) (mv : Moves) (o : TcT)
  /-- FADD: TC instruction FADD (R143). -/
  | tcFadd (tile : Nat) (mv : Moves) (o : TcT)
  /-- FSUB: TC instruction FSUB (R143). -/
  | tcFsub (tile : Nat) (mv : Moves) (o : TcT)
  /-- FMUL: TC instruction FMUL (R143). -/
  | tcFmul (tile : Nat) (mv : Moves) (o : TcT)
  /-- FFMA: TC instruction FFMA (R143). -/
  | tcFfma (tile : Nat) (mv : Moves) (o : TcT)
  /-- FDIV: TC instruction FDIV (R143). -/
  | tcFdiv (tile : Nat) (mv : Moves) (o : TcT)
  /-- FSQRT: TC instruction FSQRT (R143). -/
  | tcFsqrt (tile : Nat) (mv : Moves) (o : TcT)
  /-- FMIN: TC instruction FMIN (R143). -/
  | tcFmin (tile : Nat) (mv : Moves) (o : TcT)
  /-- FMAX: TC instruction FMAX (R143). -/
  | tcFmax (tile : Nat) (mv : Moves) (o : TcT)
  /-- FCMP: TC instruction FCMP (R143). -/
  | tcFcmp (tile : Nat) (mv : Moves) (o : TcT)
  /-- FABS: TC instruction FABS (R143). -/
  | tcFabs (tile : Nat) (mv : Moves) (o : TcT)
  /-- FNEG: TC instruction FNEG (R143). -/
  | tcFneg (tile : Nat) (mv : Moves) (o : TcT)
  /-- FCVTF: TC instruction FCVTF (R143). -/
  | tcFcvtf (tile : Nat) (mv : Moves) (o : TcT)
  /-- FCVTI: TC instruction FCVTI (R148). -/
  | tcFcvti (tile : Nat) (mv : Moves) (o : TcT) (rm : Bool)
  /-- PSET: TC instruction PSET (R143). -/
  | tcPset (tile : Nat) (mv : Moves) (o : TcP)
  /-- PGET: TC instruction PGET (R143). -/
  | tcPget (tile : Nat) (mv : Moves) (o : TcP)
  /-- MSET: TC instruction MSET (R143). -/
  | tcMset (tile : Nat) (mv : Moves) (o : TcP)
  /-- PSTEP: TC instruction PSTEP (R142). -/
  | tcPstep (tile : Nat) (mv : Moves) (y : Bool) (p : BitVec 2)
  /-- IN: TC instruction IN (R149). -/
  | tcIn (tile : Nat) (mv : Moves) (d : BitVec 5) (port : BitVec 8)
  /-- OUT_RELEASE: TC instruction OUT to ports 0x00 to 0x07 (R149). -/
  | tcOutRelease (tile : Nat) (mv : Moves) (a : BitVec 5) (ctx : BitVec 3)
  /-- OUT_PUSH: TC instruction OUT to ports 0x08 to 0x0F (R149). -/
  | tcOutPush (tile : Nat) (mv : Moves) (a : BitVec 5) (ctx : BitVec 3)
  /-- OUT_SET_PENDING: TC instruction OUT to port 0x10 (R149). -/
  | tcOutSetPending (tile : Nat) (mv : Moves) (a : BitVec 5)
  /-- OUT_PWRMODE: TC instruction OUT to port 0x11 (R149). -/
  | tcOutPwrmode (tile : Nat) (mv : Moves) (a : BitVec 5)
  /-- FGET: TC instruction FGET (R143). -/
  | tcFget (tile : Nat) (mv : Moves) (d : BitVec 5)
  /-- FSET: TC instruction FSET (R143). -/
  | tcFset (tile : Nat) (mv : Moves) (a : BitVec 5)
  /-- B: TC instruction B (R143). -/
  | tcB (tile : Nat) (mv : Moves) (cond : BitVec 3) (target : BitVec 13)
  /-- BL: TC instruction BL (R143). -/
  | tcBl (tile : Nat) (mv : Moves) (cond : BitVec 3) (target : BitVec 13)
  /-- BR: TC instruction BR (R143). -/
  | tcBr (tile : Nat) (mv : Moves) (cond : BitVec 3) (a : BitVec 5)
  /-- LOOP: TC instruction LOOP; with src 1 the register number is cnt [9:5] (R140). -/
  | tcLoop (tile : Nat) (mv : Moves) (src : Bool) (cnt : BitVec 10) (last : BitVec 13)
  /-- WAIT: TC instruction WAIT (R143). -/
  | tcWait (tile : Nat) (mv : Moves) (sem : BitVec 6) (count : BitVec 12)
  /-- SIG: TC instruction SIG (R143). -/
  | tcSig (tile : Nat) (mv : Moves) (sem : BitVec 6) (count : BitVec 12)
  /-- SIGR: TC instruction SIGR (R143). -/
  | tcSigr (tile : Nat) (mv : Moves) (sem : BitVec 6) (a : BitVec 5)
  /-- WAITE: TC instruction WAITE (R143). -/
  | tcWaite (tile : Nat) (mv : Moves) (event : BitVec 4)
  /-- HALT: TC instruction HALT (R143). -/
  | tcHalt (tile : Nat) (mv : Moves)
  /-- WAITP: TC instruction WAITP (R151). -/
  | tcWaitp (tile : Nat) (mv : Moves)
  /-- SE_DRAM_READ_ISSUE: the SE issues its next DRAM read (R120, R122, R123). -/
  | seDramReadIssue (tile : Nat)
  /-- SE_RESERVE_SEND: the SE takes credits and sends a RESERVE (R120 step 1). -/
  | seReserveSend (tile : Nat) (ctx : BitVec 3)
  /-- SE_GRANT_ISSUE: the consumer SE grants the earliest grantable RESERVE (R120 step 2). -/
  | seGrantIssue (tile : Nat)
  /-- SE_WRITE_SLOT: the next write slot of the SE (R120 step 4, R123). -/
  | seWriteSlot (tile : Nat)
  /-- SE_READ_SLOT: the next read slot of the SE (R120 step 3, R123). -/
  | seReadSlot (tile : Nat) (soft : List SoftErr)
  /-- ROUTER_FLIT: one handshake of a router: every output port forwards at most one flit (R185). -/
  | routerFlit (router : Nat)
  /-- RESERVE: a RESERVE arrives at its destination (R175, R120). -/
  | reserve (p : Pkt)
  /-- GRANT: a GRANT arrives at a producer tile (R175, R120). -/
  | grant (p : Pkt)
  /-- PUSH: a PUSH row arrives at a landing row or a staging buffer (R120, R207). -/
  | push (p : Pkt)
  /-- SIGNAL_PACKET: a SIGNAL arrives at its tile (R155, R162). -/
  | signalPacket (p : Pkt)
  /-- SIGACK: a SIGACK arrives at the signalling tile (R163). -/
  | sigack (p : Pkt)
  /-- DRD: a DRAM read request arrives at an edge port's hub (R181, R274). -/
  | drd (p : Pkt)
  /-- DRDR: a DRAM read reply arrives at its tile (R120). -/
  | drdr (p : Pkt)
  /-- DWR: a DRAM write row arrives at an edge port's hub (R274). -/
  | dwr (p : Pkt)
  /-- DWRA: a DRAM write acknowledgement arrives at its tile (R117). -/
  | dwra (p : Pkt)
  /-- CREDIT: a CREDIT arrives at an edge port (R180, R202). -/
  | credit (p : Pkt)
  /-- MREQ: a management request arrives at a tile's SE (R115). -/
  | mreq (p : Pkt) (soft : List SoftErr)
  /-- MRSP: a management reply arrives at the system hub (R115). -/
  | mrsp (p : Pkt)
  /-- RESERVE_TIMEOUT: a RESERVE has waited RTR_RSV_TIMEOUT microseconds (R183). -/
  | reserveTimeout (tile : Nat) (ctx : BitVec 3)
  /-- STORE_SCRUB_VISIT: the patrol scrubber visits the next word of a half (R114). -/
  | storeScrubVisit (tile : Nat) (y : Bool) (soft : List SoftErr)
  /-- STORE_CORRECTION_WRITEBACK: the scrubber rewrites the oldest queued word (R112). -/
  | storeCorrectionWriteback (tile : Nat)
  /-- EDGE_IN_PAIR: clocks of an edge port's fabric side (R201 to R203). -/
  | edgeInPair (edge : Nat) (clocks : List EpClk)
  /-- EDGE_PAIR_TIMEOUT: clock e + T + 1 of an open pair (R203). -/
  | edgePairTimeout (edge : Nat)
  /-- EDGE_REPUSH: the port pushes its retained rows again (R205). -/
  | edgeRepush (edge : Nat)
  /-- EDGE_OUT_PAIR: the oldest released row leaves to the fabric (R207). -/
  | edgeOutPair (edge : Nat) (ready : List Bool)
  /-- FAB_DRAM_REQUEST: a DRAM request of a fabric sector (R208). -/
  | fabDramRequest (sector : Nat) (addr : BitVec 40) (wide write : Bool) (stream : BitVec 4) (data : Row)
  /-- FABRIC_RELEASE_STAGE: the next stage of a staged release (R209). -/
  | fabricReleaseStage (partition : Nat)
  /-- FAB_RELEASE_STALL: the counting spine has made no edge for 100 µs (R210). -/
  | fabReleaseStall (partition : Nat)
  /-- IMAGE_HEADER: the header of an image reaches the controller (R216 to R218). -/
  | imageHeader (src : ImgSrc) (hdr : List Byte)
  /-- SYNC: the word in the place of the first stream command, 0x01 (R219). -/
  | sync (word : Word)
  /-- WRITE_FRAME: stream command 0x02 (R219). -/
  | writeFrame (n : BitVec 24) (addr : BitVec 32) (frames : List (BitVec 4096))
  /-- WRITE_REPEAT: stream command 0x03 (R219). -/
  | writeRepeat (n : BitVec 24) (frame : BitVec 4096) (addrs : List (BitVec 32))
  /-- ZERO_FILL: stream command 0x04 (R219). -/
  | zeroFill (n : BitVec 24) (addr : BitVec 32)
  /-- KEY_ROLL: stream command 0x05 (R219). -/
  | keyRoll (arg : BitVec 24) (key : BitVec 256) (iv : BitVec 96)
  /-- AUTH_TAG: stream command 0x06, with the cipher text of the segment it closes (R221). -/
  | authTag (next : BitVec 24) (tag : BitVec 128) (cipher : List Byte)
  /-- IMAGE_END: stream command 0x07, with the bytes of the body and of the map (R222, R226). -/
  | imageEnd (arg : BitVec 24) (body map : List Byte)
  /-- CFG_SCRUB_FRAME: the configuration scrubber reads its next frame, in which these data and check bits are upset (R227, R228). -/
  | cfgScrubFrame (flips : BitVec 4384)
  /-- DRAM_COMMAND_SLOT: one command slot of a channel: the requests whose bank timing permits and the bank indices that may be refreshed (R281, R283). -/
  | dramCommandSlot (ch : Nat) (permits : List Nat) (idle : List Nat)
  /-- DRAM_REQUEST_COMPLETE: data returns or a write is acknowledged (R278, R290). -/
  | dramRequestComplete (ch : Nat) (id : Nat) (finds : List DramFind)
  /-- REFRESH_INTERVAL: tREFI2 passes (R283). -/
  | refreshInterval (ch : Nat)
  /-- SELF_REFRESH_ENTRY: a channel enters self-refresh (R285). -/
  | selfRefreshEntry (ch : Nat)
  /-- SELF_REFRESH_EXIT: a channel leaves self-refresh (R285). -/
  | selfRefreshExit (ch : Nat)
  /-- RETRAIN_PAUSE: a retraining pause falls due; the narrowest eye and the centre that it finds (R288, R289). -/
  | retrainPause (ch : Nat) (rank sub lane : Nat) (margin : BitVec 8) (eye : Bool) (centre : BitVec 16)
  /-- DRAM_PATROL_READ: the patrol scrubber requests its next burst (R292). -/
  | dramPatrolRead (ch : Nat)
  /-- DRAM_CE_WRITEBACK: the oldest queued correction is written back (R290). -/
  | dramCeWriteback (ch : Nat)
  /-- PAGE_IDLE_CLOSE: an open row has had no access for idle_close (R282). -/
  | pageIdleClose (ch : Nat) (bank : Nat)
  /-- CHANNEL_RESET: a DRAM channel reset starts (R293). -/
  | channelReset (ch : Nat)
  /-- FRAME_TRANSMIT: a lane sends its next frame (R235 to R241). -/
  | frameTransmit (lane : Nat)
  /-- TRAIN_FRAME: a TRAIN frame arrives (R244 to R247). -/
  | trainFrame (lane : Nat) (f : RxFrame)
  /-- DATA_FRAME: a DATA frame arrives (R237, R242, R249). -/
  | dataFrame (lane : Nat) (f : RxFrame)
  /-- COMMA_LOCK: a lane's receiver locks to a comma (R243). -/
  | commaLock (lane : Nat)
  /-- TRAIN_FAIL: 50 ms have passed since lock without step 5 (R247). -/
  | trainFail (lane : Nat)
  /-- PORT_UP: all lanes of a port are UP and deskewed (R247 step 6). -/
  | portUp (port : Nat)
  /-- PORT_DOWN: a port goes down (R254). -/
  | portDown (port : Nat) (cause : BitVec 3)
  /-- HEARTBEAT_SEND: a port sends a heartbeat (R254). -/
  | heartbeatSend (port : Nat)
  /-- IDLE_FLIT: an IDLE flit arrives (R250). -/
  | idleFlit (port : Nat) (h : FlitHdr) (crc : Bool)
  /-- LCTL_HEARTBEAT: an LCTL HEARTBEAT arrives (R250). -/
  | lctlHeartbeat (port : Nat) (h : FlitHdr) (crc : Bool)
  /-- LCTL_NAK: an LCTL NAK arrives (R252). -/
  | lctlNak (port : Nat) (h : FlitHdr) (crc : Bool) (want : BitVec 12)
  /-- LCTL_ADAPT: an LCTL ADAPT arrives (R248). -/
  | lctlAdapt (port lane : Nat) (h : FlitHdr) (crc : Bool) (tos : BitVec 64)
  /-- NAK_REPEAT: 1 µs has passed since the last NAK without the wanted flit (R252). -/
  | nakRepeat (port : Nat)
  /-- REPLAY_LIMIT: 8 NAKs for one seq, or 10 µs without ack progress (R253). -/
  | replayLimit (port : Nat)
  /-- DATA_FLIT: a DATA flit of row data arrives (R258). -/
  | dataFlit (port : Nat) (h : FlitHdr) (crc : Bool) (b : ChanBody)
  /-- HDATA_FLIT: an HDATA flit arrives (R263). -/
  | hdataFlit (port : Nat) (h : FlitHdr) (crc : Bool) (b : ChanBody)
  /-- EDATA_FLIT: an EDATA flit arrives (R262). -/
  | edataFlit (port : Nat) (h : FlitHdr) (crc : Bool) (b : ChanBody)
  /-- COMMIT_MARKER: a COMMIT marker closes an item at an inbound channel (R259). -/
  | commitMarker (chan : Nat) (tag : BitVec 48) (rows : BitVec 13)
  /-- GAP_MARKER: a GAP marker closes an item at an inbound channel (R259). -/
  | gapMarker (chan : Nat) (tag : BitVec 48) (rows : BitVec 13)
  /-- CREDIT_RECORD: a CREDIT record arrives at an outbound channel (R260). -/
  | creditRecord (chan : Nat) (rows : BitVec 13)
  /-- CHANNEL_ITEM_CONSUME: an inbound channel resolves and consumes its head item (R46). -/
  | channelItemConsume (chan : Nat)
  /-- UPSTREAM_FENCE_TIMEOUT: every upstream port has been down for TPL_FENCE_TIMEOUT (R267). -/
  | upstreamFenceTimeout
  /-- ACCEPT_WINDOW_CLOSE: Route time reaches M + 2 × P (R266). -/
  | acceptWindowClose (port : Nat)
  /-- DELAY_REQ: a time request arrives, at this Route time in 2^-16 ns (R326, R327). -/
  | delayReq (port : Nat) (h : FlitHdr) (crc : Bool) (m : TimeMsg) (now : Nat)
  /-- DELAY_RESP: a time response arrives (R326). -/
  | delayResp (port : Nat) (h : FlitHdr) (crc : Bool) (m : TimeMsg) (now : Nat) (replayed : Bool)
  /-- TIME_EXCHANGE_SEND: a follower sends a time request (R326). -/
  | timeExchangeSend
  /-- EXCHANGE_LOST: 4 µs have passed without the response (R326). -/
  | exchangeLost
  /-- REF_LOST: a head's reference or PPS_IN is lost (R322). -/
  | refLost (pps : Bool)
  /-- REF_RETURN: the lost reference returns (R322). -/
  | refReturn (pps : Bool)
  /-- PPS_IN_EDGE: a rising edge of PPS_IN, this many ps after a multiple of 10^9 ns (R322). -/
  | ppsInEdge (phase : Int)
  /-- GOVERNOR_LOOP: the 100 µs loop of the pace governor, with what it measures (R51, R345, R346). -/
  | governorLoop (m : GovEnv)
  /-- AVS_ACK: a regulator acknowledges a voltage (R341). -/
  | avsAck (rail : Nat) (mv : BitVec 12)
  /-- AVS_TIMEOUT: 50 µs pass without an acknowledgement (R341). -/
  | avsTimeout (rail : Nat)
  /-- THERMAL_TRIP: Tj reaches 115 °C (R346). -/
  | thermalTrip
  /-- RUNG_EXIT_COMPLETE: a rung exit completes: partition, or 16 for the device (R332, R336). -/
  | rungExitComplete (scope : Nat)
  /-- RAMP_COMPLETE: a domain's ramp completes: physical tile column × 9 + position, or 144 + sector (R343). -/
  | rampComplete (domain : Nat)
  /-- RAMP_SHORT: a domain's ramp is aborted (R343, R344). -/
  | rampShort (domain : Nat) (stage : BitVec 2) (trip : Bool)
  /-- ID: SMBus command 0x01 (R349). -/
  | smbId
  /-- STATUS: SMBus command 0x02 (R349). -/
  | smbStatus
  /-- TEMP_MAX: SMBus command 0x10 (R349). -/
  | smbTempMax
  /-- TEMP_QUARTER: SMBus command 0x11 (R349). -/
  | smbTempQuarter
  /-- POWER: SMBus command 0x20 (R349). -/
  | smbPower
  /-- RAILS: SMBus command 0x21 (R349). -/
  | smbRails
  /-- LIMIT: SMBus command 0x22 (R349). -/
  | smbLimit
  /-- ALERT_MASK_READ: SMBus command 0x40, read (R349). -/
  | smbAlertMaskRead
  /-- ALERT_MASK_WRITE: SMBus command 0x40, write; pec says whether its PEC passes (R348). -/
  | smbAlertMaskWrite (value : Byte) (pec : Bool)
  /-- ALERT_STATUS_READ: SMBus command 0x41, read (R349). -/
  | smbAlertStatusRead
  /-- ALERT_STATUS_CLEAR: SMBus command 0x41, write 1 to clear (R349). -/
  | smbAlertStatusClear (value : Byte) (pec : Bool)
  /-- ALERT_RESPONSE: the SMBus Alert Response Address is read (R348). -/
  | smbAlertResponse
  /-- LOG_COUNT: SMBus command 0x50 (R349). -/
  | smbLogCount
  /-- LOG_LAST: SMBus command 0x51 (R349). -/
  | smbLogLast
  /-- POR_ASSERT: POR_N is driven low (R358). -/
  | porAssert
  /-- POR_RELEASE: POR_N is released, with CFG_MODE sampled (R213, R351); refclk: the octets whose reference clock runs (R21). -/
  | porRelease (mode : BitVec 3) (refclk : BitVec 12)
  /-- SYS_RST_ASSERT: SYS_RST_N is driven low (R359). -/
  | sysRstAssert
  /-- SYS_RST_RELEASE: SYS_RST_N is released (R359). -/
  | sysRstRelease
  /-- PERST_DEASSERT: PERST_N deasserts (R352). -/
  | perstDeassert
  /-- BOOT_STEP_COMPLETE: a boot step ends, with what it found (R351). -/
  | bootStepComplete (e : BootEnv)
  /-- BOOT_STEP_TIMEOUT: a boot step's watchdog expires (R353). -/
  | bootStepTimeout
  /-- RECOVERY_STEP_COMPLETE: a recovery step ends; dead names the positions (column, position) declared dead (R361). -/
  | recoveryStepComplete (partition : Nat) (dead : List (Nat × Nat))
  /-- GENERATION_RETIRE_WAIT: the wait of R364 ends. -/
  | generationRetireWait (partition : Nat)
  /-- LINK_WAIT_EXPIRY: link_wait passes with a port still down (R361). -/
  | linkWaitExpiry (partition : Nat)
  /-- RECOVERY_FAILED: a recovery step exceeds 50 ms, or a tile reset does not complete (R361). -/
  | recoveryFailed (partition : Nat) (cause : BitVec 8)
  /-- TILE_STALL: a tile's handshake count has not moved for stall_us (R360). -/
  | tileStall (tile : Nat)
  /-- HANG_DETECTED: an engine watchdog fires (R360, R367). -/
  | hangDetected (unit : BitVec 16)
  /-- TRIAL_END: the trial of the current suspect ends (R367). -/
  | trialEnd (guilty : Bool)
  /-- TILE_RESET: tile_reset of a tile, and whether it completes (R58, R393). -/
  | tileReset (tile : Nat) (done : Bool)
  /-- SEQ_IMEM_DATA3_WRITE: a write of SEQ_IMEM_DATA3 (R136). -/
  | seqImemData3Write (tile : Nat) (value : Word)
  /-- SEQ_IMEM_DATA3_READ: a read of SEQ_IMEM_DATA3 (R136). -/
  | seqImemData3Read (tile : Nat)
  /-- TC_PMEM_DATA_HI_WRITE: a write of TC_PMEM_DATA_HI (R136). -/
  | tcPmemDataHiWrite (tile : Nat) (value : Word)
  /-- TC_PMEM_DATA_HI_READ: a read of TC_PMEM_DATA_HI (R136). -/
  | tcPmemDataHiRead (tile : Nat)
  /-- TIME_NOW_LO_READ: a read of TIME_NOW_LO, which latches the next two (R319). -/
  | timeNowLoRead
  /-- PRB_COUNT_HI_WRITE: a write of PRB_k_COUNT_HI (R192). -/
  | prbCountHiWrite (tile : Nat) (k : BitVec 2) (value : Word)
  /-- TRACE_ENABLE: a write of PRB_TRq_CTRL (R193). -/
  | traceEnable (q : BitVec 2) (value : Word)
  /-- PERIOD_CHANGE_ARM: a write of TIME_MS_CHANGE_HI (R32). -/
  | periodChangeArm (value : Word)
  /-- START_ARM: a write of PART_START_AT_HI (R35). -/
  | startArm (partition : BitVec 4) (value : Word)
  /-- STOP_ARM: a write of PART_STOP_AT_HI (R35). -/
  | stopArm (partition : BitVec 4) (value : Word)
  /-- EPOCH_ARM: a write of TPL_EPOCH_NEXT (R265). -/
  | epochArm (value : Word)
  /-- MIN_SLACK_REARM: a write of SEQ_BEAT_MIN_SLACK (R38). -/
  | minSlackRearm (tile : Nat) (value : Word)
  /-- REGISTER_WRITE: a firmware write of a register through the management map (R15, R16). -/
  | registerWrite (addr : BitVec 40) (value : Word)
  /-- HOST_DMA_COMPLETION: a host DMA of a function's command ends (R310). -/
  | hostDmaCompletion (fn : Nat) (ok : Bool)
  /-- POWER_STATE_TIMEOUT: 10 ms pass before every requested state is reached (R339). -/
  | powerStateTimeout (fn : Nat)
  /-- RUNG_ENTRY_COMPLETE: a rung entry completes: partition, or 16 for the device (R332). -/
  | rungEntryComplete (scope : Nat)
  /-- THERM_N_ASSERT: Tj reaches therm_c (R346). -/
  | thermNAssert
  /-- THERM_N_RELEASE: Tj falls below release_c (R346). -/
  | thermNRelease
  /-- PLL_LOCK: a PLL locks, or loses lock: the PLL (0 to 15 those of the columns, 16 + 2b and 17 + 2b those of GPIO bank b), its
  reference, and the frequencies of its four outputs in MHz (R197). -/
  | pllLock (pll : Nat) (locked : Bool) (ref : PllRef) (outs : List Nat)
  /-- REFIN_FREQUENCY_LOCK: the head's frequency is locked to TIME_REFIN (R321). -/
  | refinFrequencyLock
  /-- PPS_OUT_PULSE: Route time reaches a multiple of 10^9 ns (R329). -/
  | ppsOutPulse
  /-- VBAT_LOSS: VBAT is lost (R218, R381). -/
  | vbatLoss
  /-- RAIL_OUT_OF_TOLERANCE: a rail leaves its tolerance (R381). -/
  | railOutOfTolerance (rail : Nat)
  /-- TEST_PORT_ACCESS: an access through the test port (R213, R218). -/
  | testPortAccess (op : TestOp)
  /-- RETRAIN_PAUSE_END: a retraining pause ends (R288). -/
  | retrainPauseEnd (ch : Nat)
  /-- CHANNEL_RESET_DONE: a DRAM channel reset ends (R293). -/
  | channelResetDone (ch : Nat)
  deriving DecidableEq, Repr

end Sys2Proof
end

