-- ==== Sys2Proof/Decode.lean ====
section
/-!
DEFINITION. The decoders: of command words, of which the opcode table gives none; of the 128-bit itinerary entries (R62, R72, R74,
R118, R127, R128); and of the 64-bit instructions of the tile core (R140, R141, R143, R149). Beside each of the last two stands the
encoder, written from the same tables. What the spec reserves decodes to nothing.
-/
namespace Sys2Proof

/-- The command that a word spells by the table's bits: none, since no row of the table has any. -/
def decodeTableWord (_nbits _w : Nat) : Option Instr := none

/-! Itinerary entries. -/

/-- A one-bit field as a truth value. -/
def flagAt {n : Nat} (w : BitVec n) (i : Nat) : Bool := w.getLsbD i

/-- The operand fields of an MMA entry (R62). -/
def decodeMma (w : BitVec 128) : MmaFields where
  aRow := w.extractLsb' 93 13
  bRow := w.extractLsb' 80 13
  sa := w.extractLsb' 62 18
  sb := w.extractLsb' 44 18
  cRow := w.extractLsb' 31 13
  kLen := w.extractLsb' 23 8
  fmtA := w.extractLsb' 20 3
  fmtB := w.extractLsb' 17 3
  scale := w.extractLsb' 15 2
  passes := w.extractLsb' 13 2
  outFmt := w.extractLsb' 10 3
  accInit := flagAt w 9
  drain := flagAt w 8
  accSet := flagAt w 7
  sat := flagAt w 6
  oblk := flagAt w 5

/-- The operand fields of a DRAIN entry (R62). -/
def decodeDrain (w : BitVec 128) : DrainFields where
  cRow := w.extractLsb' 31 13
  outFmt := w.extractLsb' 10 3
  accSet := flagAt w 7
  sat := flagAt w 6
  oblk := flagAt w 5

/-- The operand fields of an MVM entry (R72). -/
def decodeMvm (w : BitVec 128) : MvmFields where
  wRow := w.extractLsb' 93 13
  ws := w.extractLsb' 75 18
  rows := w.extractLsb' 62 13
  kr := w.extractLsb' 52 10
  shape := w.extractLsb' 50 2
  wFmt := w.extractLsb' 47 3
  vFmt := w.extractLsb' 44 3
  vOff := w.extractLsb' 35 9
  accBase := w.extractLsb' 25 10
  batch := w.extractLsb' 23 2
  scale := w.extractLsb' 21 2
  accInit := flagAt w 20

/-- The operand fields of a VLOAD entry (R72). -/
def decodeVload (w : BitVec 128) : VloadFields where
  wRow := w.extractLsb' 93 13
  ws := w.extractLsb' 75 18
  rows := w.extractLsb' 62 13
  vOff := w.extractLsb' 35 9
  scale := w.extractLsb' 21 2

/-- The operand fields of an MDRAIN entry (R72). -/
def decodeMdrain (w : BitVec 128) : MdrainFields where
  rows := w.extractLsb' 62 13
  accBase := w.extractLsb' 25 10
  cRow := w.extractLsb' 7 13
  bf16 := flagAt w 6

/-- The operand fields of a VEU entry (R74). -/
def decodeVeu (w : BitVec 128) : VeuFields where
  vd := w.extractLsb' 102 4
  va := w.extractLsb' 98 4
  vb := w.extractLsb' 94 4
  vc := w.extractLsb' 90 4
  row := w.extractLsb' 77 13
  fmt := w.extractLsb' 74 3
  imm := w.extractLsb' 42 32
  mode := w.extractLsb' 38 4

/-- The command if the low bits that the entry reserves are zero (R127). -/
def reserved (w : BitVec 128) (n : Nat) (i : Instr) : Option Instr :=
  if w.extractLsb' 0 n = 0 then some i else none

/-- An array entry (R62); the unit is 0 for M0 and 1 for M1. -/
def decodeArray (tile : Nat) (w : BitVec 128) (arr : BitVec 1) : Option Instr :=
  match (w.extractLsb' 116 8).toNat with
  | 0x01 => reserved w 5 (.mma tile arr (w.extractLsb' 106 10) (decodeMma w))
  | 0x02 => reserved w 5 (.drain tile arr (decodeDrain w))
  | 0x03 => reserved w 5 (.clear tile arr (flagAt w 7))
  | _ => none

/-- An entry of the matrix-vector unit (R72). -/
def decodeMvu (tile : Nat) (w : BitVec 128) : Option Instr :=
  match (w.extractLsb' 116 8).toNat with
  | 0x01 => reserved w 20 (.mvm tile (decodeMvm w) [])
  | 0x02 => reserved w 20 (.vload tile (decodeVload w))
  | 0x03 => reserved w 6 (.mdrain tile (decodeMdrain w))
  | _ => none

/-- An entry of the vector unit (R74). -/
def decodeVector (tile : Nat) (w : BitVec 128) : Option Instr :=
  let rep : BitVec 10 := w.extractLsb' 106 10
  let f := decodeVeu w
  match (w.extractLsb' 116 8).toNat with
  | 0x01 => reserved w 38 (.vld tile rep f [])
  | 0x02 => reserved w 38 (.vst tile rep f)
  | 0x03 => reserved w 38 (.vadd tile rep f)
  | 0x04 => reserved w 38 (.vmul tile rep f)
  | 0x05 => reserved w 38 (.vfma tile rep f)
  | 0x06 => reserved w 38 (.vcmp tile rep f)
  | 0x07 => reserved w 38 (.vsel tile rep f)
  | 0x08 => reserved w 38 (.vmax tile rep f)
  | 0x09 => reserved w 38 (.vmin tile rep f)
  | 0x0A => reserved w 38 (.vexp2 tile rep f)
  | 0x0B => reserved w 38 (.vlog2 tile rep f)
  | 0x0C => reserved w 38 (.vrcp tile rep f)
  | 0x0D => reserved w 38 (.vrsq tile rep f)
  | 0x0E => reserved w 38 (.vexps tile rep f)
  | 0x0F => reserved w 38 (.vrmaxi tile rep f)
  | 0x10 => reserved w 38 (.vrmini tile rep f)
  | 0x11 => reserved w 38 (.vrsum tile rep f)
  | 0x12 => reserved w 38 (.vrssq tile rep f)
  | 0x13 => reserved w 38 (.vcvt tile rep f)
  | 0x14 => reserved w 38 (.vqnt tile rep f)
  | 0x15 => reserved w 38 (.vdqnt tile rep f)
  | 0x16 => reserved w 38 (.vbcast tile rep f)
  | _ => none

/-- An entry of the stream engine (R118). -/
def decodeStream (tile : Nat) (w : BitVec 128) : Option Instr :=
  match (w.extractLsb' 116 8).toNat with
  | 0x01 => reserved w 78 (.swin tile
      { countM1 := w.extractLsb' 93 13, stride := w.extractLsb' 87 6, dir := flagAt w 86, mask := w.extractLsb' 78 8 })
  | 0x02 =>
    match (w.extractLsb' 96 2).toNat with
    | 0 => reserved w 96 (.sctxPause tile (w.extractLsb' 98 8))
    | 1 => reserved w 96 (.sctxResume tile (w.extractLsb' 98 8))
    | 2 => reserved w 96 (.sctxClose tile (w.extractLsb' 98 8))
    | _ => none
  | 0x03 => reserved w 90 (.srel tile (w.extractLsb' 103 3) (w.extractLsb' 90 13))
  | 0x04 => reserved w 90 (.spush tile (w.extractLsb' 103 3) (w.extractLsb' 90 13))
  | _ => none

/-- An entry of engines 0x5 to 0x7, 0xE and 0xF (R128). -/
def decodeControl (tile engine : Nat) (w : BitVec 128) : Option Instr :=
  let sem : BitVec 6 := w.extractLsb' 100 6
  let count : BitVec 12 := w.extractLsb' 88 12
  let rep : BitVec 10 := w.extractLsb' 106 10
  match engine, (w.extractLsb' 116 8).toNat with
  | 0x5, 0x01 => reserved w 93 (.tcgo tile (w.extractLsb' 93 13))
  | 0x5, 0x02 => reserved w 102 (.tcev tile (w.extractLsb' 102 4))
  | 0x6, 0x01 =>
    if flagAt w 87 then reserved w 80 (.signalRemote tile sem count (w.extractLsb' 80 7))
    else reserved w 80 (.signal tile sem count)
  | 0x6, 0x02 => reserved w 88 (.take tile sem count)
  | 0x7, 0x01 => reserved w 88 (.gate tile sem count)
  | 0xE, 0x00 => reserved w 106 (.endEntry tile)
  | 0xF, 0x00 => reserved w 106 (.nop tile rep)
  | 0xF, 0x01 => reserved w 99 (.appadv tile rep (w.extractLsb' 99 7))
  | _, _ => none

/-- The command that an itinerary entry of a tile is (R127). -/
def decodeEntry (tile : Nat) (w : BitVec 128) : Option Instr :=
  match (w.extractLsb' 124 4).toNat with
  | 0x0 => decodeArray tile w 0
  | 0x1 => decodeArray tile w 1
  | 0x2 => decodeMvu tile w
  | 0x3 => decodeVector tile w
  | 0x4 => decodeStream tile w
  | e => decodeControl tile e w

/-- An entry from its engine, opcode, repeat count and operand bits (R127). -/
def entryWord (engine : BitVec 4) (opcode : BitVec 8) (rep : BitVec 10) (operands : BitVec 106) : BitVec 128 :=
  engine ++ opcode ++ rep ++ operands

/-- The operand bits of an MMA entry (R62). -/
def encodeMma (f : MmaFields) : BitVec 106 :=
  f.aRow ++ f.bRow ++ f.sa ++ f.sb ++ f.cRow ++ f.kLen ++ f.fmtA ++ f.fmtB ++ f.scale ++ f.passes ++ f.outFmt ++
  BitVec.ofBool f.accInit ++ BitVec.ofBool f.drain ++ BitVec.ofBool f.accSet ++ BitVec.ofBool f.sat ++
  BitVec.ofBool f.oblk ++ 0#5

/-- The operand bits of a DRAIN entry (R62). -/
def encodeDrain (f : DrainFields) : BitVec 106 :=
  0#62 ++ f.cRow ++ 0#18 ++ f.outFmt ++ 0#2 ++ BitVec.ofBool f.accSet ++ BitVec.ofBool f.sat ++ BitVec.ofBool f.oblk ++ 0#5

/-- The operand bits of an MVM entry (R72). -/
def encodeMvm (f : MvmFields) : BitVec 106 :=
  f.wRow ++ f.ws ++ f.rows ++ f.kr ++ f.shape ++ f.wFmt ++ f.vFmt ++ f.vOff ++ f.accBase ++ f.batch ++ f.scale ++
  BitVec.ofBool f.accInit ++ 0#20

/-- The operand bits of a VLOAD entry (R72). -/
def encodeVload (f : VloadFields) : BitVec 106 :=
  f.wRow ++ f.ws ++ f.rows ++ 0#18 ++ f.vOff ++ 0#12 ++ f.scale ++ 0#21

/-- The operand bits of an MDRAIN entry (R72). -/
def encodeMdrain (f : MdrainFields) : BitVec 106 :=
  0#31 ++ f.rows ++ 0#27 ++ f.accBase ++ 0#5 ++ f.cRow ++ BitVec.ofBool f.bf16 ++ 0#6

/-- The operand bits of a VEU entry (R74). -/
def encodeVeu (f : VeuFields) : BitVec 106 :=
  f.vd ++ f.va ++ f.vb ++ f.vc ++ f.row ++ f.fmt ++ f.imm ++ f.mode ++ 0#38

/-- The itinerary entry that a command is, where it is one (R127). The upsets that its reads meet are no part of it. -/
def encodeEntry (i : Instr) : Option (BitVec 128) :=
  match i with
  | .mma _ arr rep f => some (entryWord (arr.setWidth 4) 0x01 rep (encodeMma f))
  | .drain _ arr f => some (entryWord (arr.setWidth 4) 0x02 0 (encodeDrain f))
  | .clear _ arr accSet => some (entryWord (arr.setWidth 4) 0x03 0 (0#98 ++ BitVec.ofBool accSet ++ 0#7))
  | .mvm _ f _ => some (entryWord 0x2 0x01 0 (encodeMvm f))
  | .vload _ f => some (entryWord 0x2 0x02 0 (encodeVload f))
  | .mdrain _ f => some (entryWord 0x2 0x03 0 (encodeMdrain f))
  | .vld _ rep f _ => some (entryWord 0x3 0x01 rep (encodeVeu f))
  | .vst _ rep f => some (entryWord 0x3 0x02 rep (encodeVeu f))
  | .vadd _ rep f => some (entryWord 0x3 0x03 rep (encodeVeu f))
  | .vmul _ rep f => some (entryWord 0x3 0x04 rep (encodeVeu f))
  | .vfma _ rep f => some (entryWord 0x3 0x05 rep (encodeVeu f))
  | .vcmp _ rep f => some (entryWord 0x3 0x06 rep (encodeVeu f))
  | .vsel _ rep f => some (entryWord 0x3 0x07 rep (encodeVeu f))
  | .vmax _ rep f => some (entryWord 0x3 0x08 rep (encodeVeu f))
  | .vmin _ rep f => some (entryWord 0x3 0x09 rep (encodeVeu f))
  | .vexp2 _ rep f => some (entryWord 0x3 0x0A rep (encodeVeu f))
  | .vlog2 _ rep f => some (entryWord 0x3 0x0B rep (encodeVeu f))
  | .vrcp _ rep f => some (entryWord 0x3 0x0C rep (encodeVeu f))
  | .vrsq _ rep f => some (entryWord 0x3 0x0D rep (encodeVeu f))
  | .vexps _ rep f => some (entryWord 0x3 0x0E rep (encodeVeu f))
  | .vrmaxi _ rep f => some (entryWord 0x3 0x0F rep (encodeVeu f))
  | .vrmini _ rep f => some (entryWord 0x3 0x10 rep (encodeVeu f))
  | .vrsum _ rep f => some (entryWord 0x3 0x11 rep (encodeVeu f))
  | .vrssq _ rep f => some (entryWord 0x3 0x12 rep (encodeVeu f))
  | .vcvt _ rep f => some (entryWord 0x3 0x13 rep (encodeVeu f))
  | .vqnt _ rep f => some (entryWord 0x3 0x14 rep (encodeVeu f))
  | .vdqnt _ rep f => some (entryWord 0x3 0x15 rep (encodeVeu f))
  | .vbcast _ rep f => some (entryWord 0x3 0x16 rep (encodeVeu f))
  | .swin _ f => some (entryWord 0x4 0x01 0 (f.countM1 ++ f.stride ++ BitVec.ofBool f.dir ++ f.mask ++ 0#78))
  | .sctxPause _ mask => some (entryWord 0x4 0x02 0 (mask ++ 0#2 ++ 0#96))
  | .sctxResume _ mask => some (entryWord 0x4 0x02 0 (mask ++ 1#2 ++ 0#96))
  | .sctxClose _ mask => some (entryWord 0x4 0x02 0 (mask ++ 2#2 ++ 0#96))
  | .srel _ ctx rows => some (entryWord 0x4 0x03 0 (ctx ++ rows ++ 0#90))
  | .spush _ ctx rows => some (entryWord 0x4 0x04 0 (ctx ++ rows ++ 0#90))
  | .tcgo _ pc => some (entryWord 0x5 0x01 0 (pc ++ 0#93))
  | .tcev _ event => some (entryWord 0x5 0x02 0 (event ++ 0#102))
  | .signal _ sem count => some (entryWord 0x6 0x01 0 (sem ++ count ++ 0#88))
  | .signalRemote _ sem count target => some (entryWord 0x6 0x01 0 (sem ++ count ++ 1#1 ++ target ++ 0#80))
  | .take _ sem count => some (entryWord 0x6 0x02 0 (sem ++ count ++ 0#88))
  | .gate _ sem count => some (entryWord 0x7 0x01 0 (sem ++ count ++ 0#88))
  | .endEntry _ => some (entryWord 0xE 0x00 0 0)
  | .nop _ rep => some (entryWord 0xF 0x00 rep 0)
  | .appadv _ rep region => some (entryWord 0xF 0x01 rep (region ++ 0#99))
  | _ => none

/-! Instructions of the tile core. -/

/-- A parallel move field (R141), its reserved bits left aside. -/
def decodeMove (w : BitVec 16) : Move where
  en := flagAt w 15
  st := flagAt w 14
  p := w.extractLsb' 12 2
  mode := w.extractLsb' 10 2
  size := w.extractLsb' 8 2
  sx := flagAt w 7
  reg := w.extractLsb' 2 5

/-- The two move fields of an instruction. -/
def decodeMoves (w : BitVec 64) : Moves := ⟨decodeMove (w.extractLsb' 16 16), decodeMove (w.extractLsb' 0 16)⟩

/-- Format T (R140). -/
def decodeT (o : BitVec 32) : TcT :=
  { d := o.extractLsb' 19 5, a := o.extractLsb' 14 5, b := o.extractLsb' 9 5, s := flagAt o 8 }

/-- Format I (R140). -/
def decodeI (o : BitVec 32) : TcI := { d := o.extractLsb' 19 5, a := o.extractLsb' 14 5, imm := o.extractLsb' 0 14 }

/-- Format L (R140). -/
def decodeL (o : BitVec 32) : TcL := { d := o.extractLsb' 19 5, imm := o.extractLsb' 0 16 }

/-- Format A of MAC and MSU (R140). -/
def decodeA (o : BitVec 32) : TcA where
  acc := o.extractLsb' 22 2
  a := o.extractLsb' 17 5
  b := o.extractLsb' 12 5
  sel := o.extractLsb' 10 2
  frac := flagAt o 9
  s := flagAt o 8

/-- Format P (R140). -/
def decodeP (o : BitVec 32) : TcP := { y := flagAt o 23, p := o.extractLsb' 21 2, r := o.extractLsb' 16 5 }

/-- The instruction if `n` bits of its operation from bit `lo`, which its format reserves, are zero (R140). -/
def reservedOp (o : BitVec 32) (lo n : Nat) (i : Instr) : Option Instr := if o.extractLsb' lo n = 0 then some i else none

/-- The instruction that an operation word and moves are (R143, R149). OUT to a port that R149 does not list has no effect, as NOP. -/
def decodeOp (tile : Nat) (mv : Moves) (o : BitVec 32) : Option Instr :=
  match (o.extractLsb' 24 8).toNat with
  | 0x00 => reservedOp o 0 24 (.tcNop tile mv)
  | 0x01 => reservedOp o 0 8 (.tcAdd tile mv (decodeT o))
  | 0x02 => reservedOp o 0 8 (.tcSub tile mv (decodeT o))
  | 0x03 => reservedOp o 0 8 (.tcNeg tile mv (decodeT o))
  | 0x04 => reservedOp o 0 8 (.tcAbs tile mv (decodeT o))
  | 0x05 => reservedOp o 0 8 (.tcMin tile mv (decodeT o))
  | 0x06 => reservedOp o 0 8 (.tcMax tile mv (decodeT o))
  | 0x07 => reservedOp o 0 8 (.tcMinu tile mv (decodeT o))
  | 0x08 => reservedOp o 0 8 (.tcMaxu tile mv (decodeT o))
  | 0x09 => reservedOp o 0 8 (.tcAnd tile mv (decodeT o))
  | 0x0A => reservedOp o 0 8 (.tcOr tile mv (decodeT o))
  | 0x0B => reservedOp o 0 8 (.tcXor tile mv (decodeT o))
  | 0x0C => reservedOp o 0 8 (.tcNot tile mv (decodeT o))
  | 0x0D => reservedOp o 0 8 (.tcMov tile mv (decodeT o))
  | 0x0E => reservedOp o 0 8 (.tcCmp tile mv (decodeT o))
  | 0x10 => reservedOp o 0 8 (.tcShl tile mv (decodeT o))
  | 0x11 => reservedOp o 0 8 (.tcShr tile mv (decodeT o))
  | 0x12 => reservedOp o 0 8 (.tcSar tile mv (decodeT o))
  | 0x13 => reservedOp o 0 8 (.tcRol tile mv (decodeT o))
  | 0x14 => reservedOp o 0 8 (.tcRor tile mv (decodeT o))
  | 0x18 => reservedOp o 0 8 (.tcMul tile mv (decodeT o))
  | 0x19 => reservedOp o 0 8 (.tcMulh tile mv (decodeT o))
  | 0x1A => reservedOp o 0 8 (.tcMulhu tile mv (decodeT o))
  | 0x1B => reservedOp o 0 8 (.tcDivs tile mv (decodeT o))
  | 0x1C => reservedOp o 0 8 (.tcDivu tile mv (decodeT o))
  | 0x38 => reservedOp o 0 8 (.tcMaxi tile mv (decodeT o))
  | 0x39 => reservedOp o 0 8 (.tcMini tile mv (decodeT o))
  | 0x3A => reservedOp o 0 8 (.tcFmaxi tile mv (decodeT o))
  | 0x3B => reservedOp o 0 8 (.tcFmini tile mv (decodeT o))
  | 0x40 => reservedOp o 0 8 (.tcFadd tile mv (decodeT o))
  | 0x41 => reservedOp o 0 8 (.tcFsub tile mv (decodeT o))
  | 0x42 => reservedOp o 0 8 (.tcFmul tile mv (decodeT o))
  | 0x43 => reservedOp o 0 8 (.tcFfma tile mv (decodeT o))
  | 0x44 => reservedOp o 0 8 (.tcFdiv tile mv (decodeT o))
  | 0x45 => reservedOp o 0 8 (.tcFsqrt tile mv (decodeT o))
  | 0x46 => reservedOp o 0 8 (.tcFmin tile mv (decodeT o))
  | 0x47 => reservedOp o 0 8 (.tcFmax tile mv (decodeT o))
  | 0x48 => reservedOp o 0 8 (.tcFcmp tile mv (decodeT o))
  | 0x49 => reservedOp o 0 8 (.tcFabs tile mv (decodeT o))
  | 0x4A => reservedOp o 0 8 (.tcFneg tile mv (decodeT o))
  | 0x4B => reservedOp o 0 8 (.tcFcvtf tile mv (decodeT o))
  | 0x4C => reservedOp o 0 7 (.tcFcvti tile mv (decodeT o) (flagAt o 7))
  | 0x20 => some (.tcAddi tile mv (decodeI o))
  | 0x21 => some (.tcAndi tile mv (decodeI o))
  | 0x22 => some (.tcOri tile mv (decodeI o))
  | 0x23 => some (.tcXori tile mv (decodeI o))
  | 0x24 => some (.tcShli tile mv (decodeI o))
  | 0x25 => some (.tcShri tile mv (decodeI o))
  | 0x26 => some (.tcSari tile mv (decodeI o))
  | 0x27 => some (.tcCmpi tile mv (decodeI o))
  | 0x28 => reservedOp o 16 3 (.tcMovi tile mv (decodeL o))
  | 0x29 => reservedOp o 16 3 (.tcMovhi tile mv (decodeL o))
  | 0x30 => reservedOp o 0 8 (.tcMac tile mv (decodeA o))
  | 0x31 => reservedOp o 0 8 (.tcMsu tile mv (decodeA o))
  | 0x32 => reservedOp o 0 8 (.tcAclr tile mv (o.extractLsb' 22 2))
  | 0x33 => reservedOp o 0 8 (.tcAcld tile mv (o.extractLsb' 22 2) (o.extractLsb' 17 5) (o.extractLsb' 12 5) (flagAt o 8))
  | 0x34 => reservedOp o 0 8
      (.tcAccx tile mv (o.extractLsb' 22 2) (o.extractLsb' 17 5) (o.extractLsb' 12 5) (flagAt o 11) (flagAt o 8))
  | 0x50 => reservedOp o 0 16 (.tcPset tile mv (decodeP o))
  | 0x51 => reservedOp o 0 16 (.tcPget tile mv (decodeP o))
  | 0x52 => reservedOp o 0 16 (.tcMset tile mv (decodeP o))
  | 0x53 => reservedOp o 0 16 (.tcPstep tile mv (flagAt o 23) (o.extractLsb' 21 2))
  | 0x58 => some (.tcIn tile mv (o.extractLsb' 19 5) (o.extractLsb' 0 8))
  | 0x59 =>
    let port := (o.extractLsb' 0 8).toNat
    if port < 8 then some (.tcOutRelease tile mv (o.extractLsb' 13 5) (o.extractLsb' 0 3))
    else if port < 16 then some (.tcOutPush tile mv (o.extractLsb' 13 5) (o.extractLsb' 0 3))
    else if port = 16 then some (.tcOutSetPending tile mv (o.extractLsb' 13 5))
    else if port = 17 then some (.tcOutPwrmode tile mv (o.extractLsb' 13 5))
    else some (.tcNop tile mv)
  | 0x5A => some (.tcFget tile mv (o.extractLsb' 19 5))
  | 0x5B => some (.tcFset tile mv (o.extractLsb' 13 5))
  | 0x60 => reservedOp o 13 3 (.tcB tile mv (o.extractLsb' 21 3) (o.extractLsb' 0 13))
  | 0x61 => reservedOp o 13 3 (.tcBl tile mv (o.extractLsb' 21 3) (o.extractLsb' 0 13))
  | 0x62 => reservedOp o 13 3 (.tcBr tile mv (o.extractLsb' 21 3) (o.extractLsb' 16 5))
  | 0x63 => some (.tcLoop tile mv (flagAt o 23) (o.extractLsb' 13 10) (o.extractLsb' 0 13))
  | 0x68 => some (.tcWait tile mv (o.extractLsb' 18 6) (o.extractLsb' 6 12))
  | 0x69 => some (.tcSig tile mv (o.extractLsb' 18 6) (o.extractLsb' 6 12))
  | 0x6A => some (.tcSigr tile mv (o.extractLsb' 18 6) (o.extractLsb' 13 5))
  | 0x6B => some (.tcWaite tile mv (o.extractLsb' 20 4))
  | 0x6C => some (.tcHalt tile mv)
  | 0x6D => some (.tcWaitp tile mv)
  | _ => none

/-- The instruction that a word of the program store is (R140, R141). -/
def decodeTc (tile : Nat) (w : BitVec 64) : Option Instr :=
  if w.extractLsb' 16 2 = 0 ∧ w.extractLsb' 0 2 = 0 then decodeOp tile (decodeMoves w) (w.extractLsb' 32 32) else none

/-- A parallel move field (R141). -/
def encodeMove (m : Move) : BitVec 16 :=
  BitVec.ofBool m.en ++ BitVec.ofBool m.st ++ m.p ++ m.mode ++ m.size ++ BitVec.ofBool m.sx ++ m.reg ++ 0#2

/-- An instruction from its opcode, the bits of its operation and its moves (R140). -/
def tcWord (opcode : BitVec 8) (bits : BitVec 24) (mv : Moves) : BitVec 64 :=
  opcode ++ bits ++ encodeMove mv.x ++ encodeMove mv.y

/-- Format T (R140); bit 7 is `rm`. -/
def encodeT (o : TcT) (rm : Bool) : BitVec 24 := o.d ++ o.a ++ o.b ++ BitVec.ofBool o.s ++ BitVec.ofBool rm ++ 0#7

/-- Format I (R140). -/
def encodeI (o : TcI) : BitVec 24 := o.d ++ o.a ++ o.imm

/-- Format L (R140). -/
def encodeL (o : TcL) : BitVec 24 := o.d ++ 0#3 ++ o.imm

/-- Format A (R140). -/
def encodeA (o : TcA) : BitVec 24 := o.acc ++ o.a ++ o.b ++ o.sel ++ BitVec.ofBool o.frac ++ BitVec.ofBool o.s ++ 0#8

/-- Format P (R140). -/
def encodeP (o : TcP) : BitVec 24 := BitVec.ofBool o.y ++ o.p ++ o.r ++ 0#16

/-- The word of an instruction of the tile core, where the command is one. -/
def encodeTc (i : Instr) : Option (BitVec 64) :=
  match i with
  | .tcNop _ mv => some (tcWord 0x00 0 mv)
  | .tcAdd _ mv o => some (tcWord 0x01 (encodeT o false) mv)
  | .tcSub _ mv o => some (tcWord 0x02 (encodeT o false) mv)
  | .tcNeg _ mv o => some (tcWord 0x03 (encodeT o false) mv)
  | .tcAbs _ mv o => some (tcWord 0x04 (encodeT o false) mv)
  | .tcMin _ mv o => some (tcWord 0x05 (encodeT o false) mv)
  | .tcMax _ mv o => some (tcWord 0x06 (encodeT o false) mv)
  | .tcMinu _ mv o => some (tcWord 0x07 (encodeT o false) mv)
  | .tcMaxu _ mv o => some (tcWord 0x08 (encodeT o false) mv)
  | .tcAnd _ mv o => some (tcWord 0x09 (encodeT o false) mv)
  | .tcOr _ mv o => some (tcWord 0x0A (encodeT o false) mv)
  | .tcXor _ mv o => some (tcWord 0x0B (encodeT o false) mv)
  | .tcNot _ mv o => some (tcWord 0x0C (encodeT o false) mv)
  | .tcMov _ mv o => some (tcWord 0x0D (encodeT o false) mv)
  | .tcCmp _ mv o => some (tcWord 0x0E (encodeT o false) mv)
  | .tcShl _ mv o => some (tcWord 0x10 (encodeT o false) mv)
  | .tcShr _ mv o => some (tcWord 0x11 (encodeT o false) mv)
  | .tcSar _ mv o => some (tcWord 0x12 (encodeT o false) mv)
  | .tcRol _ mv o => some (tcWord 0x13 (encodeT o false) mv)
  | .tcRor _ mv o => some (tcWord 0x14 (encodeT o false) mv)
  | .tcMul _ mv o => some (tcWord 0x18 (encodeT o false) mv)
  | .tcMulh _ mv o => some (tcWord 0x19 (encodeT o false) mv)
  | .tcMulhu _ mv o => some (tcWord 0x1A (encodeT o false) mv)
  | .tcDivs _ mv o => some (tcWord 0x1B (encodeT o false) mv)
  | .tcDivu _ mv o => some (tcWord 0x1C (encodeT o false) mv)
  | .tcMaxi _ mv o => some (tcWord 0x38 (encodeT o false) mv)
  | .tcMini _ mv o => some (tcWord 0x39 (encodeT o false) mv)
  | .tcFmaxi _ mv o => some (tcWord 0x3A (encodeT o false) mv)
  | .tcFmini _ mv o => some (tcWord 0x3B (encodeT o false) mv)
  | .tcFadd _ mv o => some (tcWord 0x40 (encodeT o false) mv)
  | .tcFsub _ mv o => some (tcWord 0x41 (encodeT o false) mv)
  | .tcFmul _ mv o => some (tcWord 0x42 (encodeT o false) mv)
  | .tcFfma _ mv o => some (tcWord 0x43 (encodeT o false) mv)
  | .tcFdiv _ mv o => some (tcWord 0x44 (encodeT o false) mv)
  | .tcFsqrt _ mv o => some (tcWord 0x45 (encodeT o false) mv)
  | .tcFmin _ mv o => some (tcWord 0x46 (encodeT o false) mv)
  | .tcFmax _ mv o => some (tcWord 0x47 (encodeT o false) mv)
  | .tcFcmp _ mv o => some (tcWord 0x48 (encodeT o false) mv)
  | .tcFabs _ mv o => some (tcWord 0x49 (encodeT o false) mv)
  | .tcFneg _ mv o => some (tcWord 0x4A (encodeT o false) mv)
  | .tcFcvtf _ mv o => some (tcWord 0x4B (encodeT o false) mv)
  | .tcFcvti _ mv o rm => some (tcWord 0x4C (encodeT o rm) mv)
  | .tcAddi _ mv o => some (tcWord 0x20 (encodeI o) mv)
  | .tcAndi _ mv o => some (tcWord 0x21 (encodeI o) mv)
  | .tcOri _ mv o => some (tcWord 0x22 (encodeI o) mv)
  | .tcXori _ mv o => some (tcWord 0x23 (encodeI o) mv)
  | .tcShli _ mv o => some (tcWord 0x24 (encodeI o) mv)
  | .tcShri _ mv o => some (tcWord 0x25 (encodeI o) mv)
  | .tcSari _ mv o => some (tcWord 0x26 (encodeI o) mv)
  | .tcCmpi _ mv o => some (tcWord 0x27 (encodeI o) mv)
  | .tcMovi _ mv o => some (tcWord 0x28 (encodeL o) mv)
  | .tcMovhi _ mv o => some (tcWord 0x29 (encodeL o) mv)
  | .tcMac _ mv o => some (tcWord 0x30 (encodeA o) mv)
  | .tcMsu _ mv o => some (tcWord 0x31 (encodeA o) mv)
  | .tcAclr _ mv acc => some (tcWord 0x32 (acc ++ 0#22) mv)
  | .tcAcld _ mv acc a sh s => some (tcWord 0x33 (acc ++ a ++ sh ++ 0#3 ++ BitVec.ofBool s ++ 0#8) mv)
  | .tcAccx _ mv acc d sh w s => some (tcWord 0x34 (acc ++ d ++ sh ++ BitVec.ofBool w ++ 0#2 ++ BitVec.ofBool s ++ 0#8) mv)
  | .tcPset _ mv o => some (tcWord 0x50 (encodeP o) mv)
  | .tcPget _ mv o => some (tcWord 0x51 (encodeP o) mv)
  | .tcMset _ mv o => some (tcWord 0x52 (encodeP o) mv)
  | .tcPstep _ mv y p => some (tcWord 0x53 (BitVec.ofBool y ++ p ++ 0#21) mv)
  | .tcIn _ mv d port => some (tcWord 0x58 (d ++ 0#11 ++ port) mv)
  | .tcOutRelease _ mv a ctx => some (tcWord 0x59 (0#6 ++ a ++ 0#5 ++ 0#5 ++ ctx) mv)
  | .tcOutPush _ mv a ctx => some (tcWord 0x59 (0#6 ++ a ++ 0#5 ++ 1#5 ++ ctx) mv)
  | .tcOutSetPending _ mv a => some (tcWord 0x59 (0#6 ++ a ++ 0#5 ++ 0x10#8) mv)
  | .tcOutPwrmode _ mv a => some (tcWord 0x59 (0#6 ++ a ++ 0#5 ++ 0x11#8) mv)
  | .tcFget _ mv d => some (tcWord 0x5A (d ++ 0#19) mv)
  | .tcFset _ mv a => some (tcWord 0x5B (0#6 ++ a ++ 0#13) mv)
  | .tcB _ mv cond target => some (tcWord 0x60 (cond ++ 0#8 ++ target) mv)
  | .tcBl _ mv cond target => some (tcWord 0x61 (cond ++ 0#8 ++ target) mv)
  | .tcBr _ mv cond a => some (tcWord 0x62 (cond ++ a ++ 0#16) mv)
  | .tcLoop _ mv src cnt last => some (tcWord 0x63 (BitVec.ofBool src ++ cnt ++ last) mv)
  | .tcWait _ mv sem count => some (tcWord 0x68 (sem ++ count ++ 0#6) mv)
  | .tcSig _ mv sem count => some (tcWord 0x69 (sem ++ count ++ 0#6) mv)
  | .tcSigr _ mv sem a => some (tcWord 0x6A (sem ++ a ++ 0#13) mv)
  | .tcWaite _ mv event => some (tcWord 0x6B (event ++ 0#20) mv)
  | .tcHalt _ mv => some (tcWord 0x6C 0 mv)
  | .tcWaitp _ mv => some (tcWord 0x6D 0 mv)
  | _ => none

end Sys2Proof
end

