-- ==== Sys2Proof/Config.lean ====
section
/-!
DEFINITION. What one part or board fixes, and the free values: what the spec leaves open. A free value is an opaque
constant with no chosen value; every statement about it holds whatever it is. The log entry of each is named beside it.
-/
namespace Sys2Proof

/-- Which contents a read between the bounds of R108 returns for one 64-bit word: true for the new contents
(log entry 10). The argument is the model's free-value counter. -/
opaque Config.storeWindow : Nat → Bool

/-- The bits a table-and-refinement operation of the VEU would give, before the bound of R75 is applied: operation
code, element format, first and second operand bits (log entry 11). The same input gives the same bits (R75). -/
opaque Config.veuTable : Nat → Nat → Nat → Nat → Nat

/-- The result of a VEU operation on an input for which R75 states none (log entry 12). -/
opaque Config.veuUnstated : Nat → Nat → Nat → Nat

/-- SHA-384 of a byte string (log entry 14): the algorithm is outside the spec. -/
opaque Config.sha384 : List Byte → BitVec 384

/-- ECDSA P-384 verification: key, digest and signature (log entry 14). -/
opaque Config.ecdsaP384 : Nat → Nat → Nat → Bool

/-- One block of AES-256-GCM key stream: key, nonce and block index (log entry 14). -/
opaque Config.aesGcmStream : Nat → Nat → Nat → BitVec 128

/-- The GCM tag of a segment: key, nonce, associated data and cipher text (log entry 14). -/
opaque Config.gcmTag : Nat → Nat → List Byte → List Byte → BitVec 128

/-- A value that an operation leaves open, by what it is and the model's free-value counter (log entry 15). -/
opaque Config.freeWord : Nat → Word

/-- A row that an operation leaves open, by the model's free-value counter (log entry 15). -/
opaque Config.freeRow : Nat → BitVec 8192

/-- The raw bytes that an uncorrectable DRAM burst delivers, by burst key and byte (R290; log entry 42). -/
opaque Config.rawBurst : Nat → Nat → Byte

/-- A choice that the spec leaves open, by the model's free-value counter (log entry 15). -/
opaque Config.freeBool : Nat → Bool

/-- A number that an operation leaves open, by the model's free-value counter (log entry 15). -/
opaque Config.freeNat : Nat → Nat

/-- Byte `k` of the detail of a record whose detail the spec does not lay out, by event code and the model's free-value
counter (log entry 17). -/
opaque Config.openDetail : Nat → Nat → Nat → Byte

/-- The store row that a management address of an MREQ names (log entry 18): the map gives stores no addresses. -/
opaque Config.mreqRow : Nat → BitVec 13

/-- The status byte of an MRSP: whether the request was refused, and whether the row holds poisoned words (log entry 18). -/
opaque Config.mrspStatus : Bool → Bool → BitVec 8

/-- What a loaded design feeds the parts of the fabric at a clock edge (log entry 98): the model's free-value counter, the edge, and the
signal. The spec leaves the meaning of the routing bits to Reastost. -/
opaque Config.fabric : Nat → Nat → Nat → Nat

/-- The bit of a configuration frame at which a readback captures the first flip-flop of the cluster of that number (R211; log entry 98). -/
opaque Config.ffPlace : Nat → Nat

/-- Which of the columns of odd weight that are left the SECDED code of a block RAM word gives to a data bit (R196; log entry 98). -/
opaque Config.bramColumn : Nat → Nat

/-- What the routing bits of a sector's frames say of a spine (R197; log entry 98): by frame index, and the spine. -/
opaque Config.spine : (Nat → BitVec 4096) → Nat → Nat

/-- `TIME_MS_TREE_DELAY` of the part, ns, in 10 bits (R30: per device; log entry 4). -/
opaque Config.treeDelay : BitVec 10

/-- The tile calibration of boot step B4 (R52): the handshake rate in kHz of the slowest tile of a quarter, by quarter,
voltage in 5 mV units and junction temperature in 0.125 degree units, in 24 bits (log entry 16). -/
opaque Config.calibRate : Nat → Nat → Int → BitVec 24

/-- What GET_INFO and the SMBus ID report of the part: bin H and range I (log entry 4). -/
opaque Config.binH : Bool
opaque Config.rangeI : Bool

/-- The byte of the SMBus ID that holds bin and range: its layout is open (log entry 25). -/
opaque Config.binRange : Byte

end Sys2Proof
end

