-- ==== Sys2Proof/Machine/Numfmt.lean ====
section
/-!
DEFINITION. Number formats and exact arithmetic: the element codes and block scales of R80 to R86, rounding (R86, R94),
IEEE operations (R75, R148), products and group sums (R88 to R91), block quantisation and expansion (R96 to R100) and
the drain conversions (R99). Finite values are exact dyadics.
-/
namespace Sys2Proof.Machine

/-- A value of a float format: NaN, an infinity, or a finite value of magnitude `m` times 2 to the `e` with a sign
(a zero keeps its sign). -/
inductive Fv where
  | nan
  | inf (neg : Bool)
  | fin (neg : Bool) (m : Nat) (e : Int)
  deriving DecidableEq, Repr

/-- An IEEE-like format: exponent bits and fraction bits. -/
structure Fmt where
  eb : Nat
  mb : Nat
  deriving DecidableEq, Repr

/-- FP32, BF16 and FP16 (R86), and the two 8-bit floats (R81, R82). -/
def Fmt.fp32 : Fmt := ⟨8, 23⟩
def Fmt.bf16 : Fmt := ⟨8, 7⟩
def Fmt.fp16 : Fmt := ⟨5, 10⟩
def Fmt.b8e5 : Fmt := ⟨5, 2⟩
def Fmt.b8e4 : Fmt := ⟨4, 3⟩
def Fmt.b4e2 : Fmt := ⟨2, 1⟩

/-- The exponent bias. -/
def Fmt.bias (f : Fmt) : Nat := 2 ^ (f.eb - 1) - 1

/-- The exponent of the least significant bit of a subnormal. -/
def Fmt.emin (f : Fmt) : Int := 1 - (f.bias : Int) - f.mb

/-- The magnitude code of infinity in an IEEE format. -/
def Fmt.infCode (f : Fmt) : Nat := (2 ^ f.eb - 1) * 2 ^ f.mb

/-- The sign bit's weight. -/
def Fmt.signBit (f : Fmt) : Nat := 2 ^ (f.eb + f.mb)

/-- The canonical quiet NaN (R86). -/
def Fmt.nanCode (f : Fmt) : Nat := f.infCode + 2 ^ (f.mb - 1)

/-- The finite value of exponent field `E` and fraction field `M` (R81 to R83, R86). -/
def Fmt.value (f : Fmt) (neg : Bool) (E M : Nat) : Fv :=
  if E = 0 then .fin neg M f.emin else .fin neg (2 ^ f.mb + M) (f.emin + (E - 1 : Nat))

/-- The value of an IEEE code (R82, R86). -/
def Fmt.decode (f : Fmt) (c : Nat) : Fv :=
  let neg := c / f.signBit % 2 = 1
  let E := c / 2 ^ f.mb % 2 ^ f.eb
  let M := c % 2 ^ f.mb
  if E = 2 ^ f.eb - 1 then (if M = 0 then .inf neg else .nan) else f.value neg E M

/-- The value of a B8e4 code (R81). -/
def decodeB8e4 (c : Nat) : Fv :=
  if c % 128 = 127 then .nan else Fmt.b8e4.value (c / 128 % 2 = 1) (c / 8 % 16) (c % 8)

/-- The value of a B4e2 code (R83). -/
def decodeB4e2 (c : Nat) : Fv := Fmt.b4e2.value (c / 8 % 2 = 1) (c / 2 % 4) (c % 2)

/-- The integer of a two's complement code of `n` bits (R84). -/
def intCode (n c : Nat) : Int := (BitVec.ofNat n c).toInt

/-- The finite value of an integer times a power of two. -/
def Fv.ofInt (i : Int) (e : Int) : Fv := .fin (decide (i < 0)) i.natAbs e

/-- The element value of a code (R80 to R84); a scaled integer carries its implicit power of two (R84). -/
def elemValue (fmt : Nat) (scaled : Bool) (c : Nat) : Fv :=
  match fmt with
  | 0 => decodeB8e4 (c % 256)
  | 1 => Fmt.b8e5.decode (c % 256)
  | 2 => decodeB4e2 (c % 16)
  | 3 => Fv.ofInt (intCode 8 c) (if scaled then -6 else 0)
  | 4 => Fv.ofInt (intCode 4 c) (if scaled then -2 else 0)
  | _ => decodeB8e4 (c % 256)

/-- Whether the feeders mark a code as zero (Zero detection). -/
def elemZero (fmt c : Nat) : Bool :=
  match fmt with
  | 0 | 1 | 5 => c % 128 == 0
  | 2 => c % 8 == 0
  | 3 => c % 256 == 0
  | _ => c % 16 == 0

/-- An exact dyadic number. -/
structure Dy where
  m : Int
  e : Int
  deriving DecidableEq, Repr

/-- Zero. -/
def Dy.zero : Dy := ⟨0, 0⟩

/-- The exact sum. -/
def Dy.add (a b : Dy) : Dy :=
  if a.m = 0 then b else if b.m = 0 then a else
  if a.e ≤ b.e then ⟨a.m + b.m * 2 ^ (b.e - a.e).toNat, a.e⟩
  else ⟨a.m * 2 ^ (a.e - b.e).toNat + b.m, b.e⟩

/-- The exact negation. -/
def Dy.neg (a : Dy) : Dy := ⟨-a.m, a.e⟩

/-- The exact product. -/
def Dy.mul (a b : Dy) : Dy := ⟨a.m * b.m, a.e + b.e⟩

/-- The magnitude. -/
def Dy.abs (a : Dy) : Dy := ⟨a.m.natAbs, a.e⟩

/-- Whether one dyadic is below or equal to another. -/
def Dy.le (a b : Dy) : Bool := decide ((a.add b.neg).m ≤ 0)

/-- The signed dyadic of a finite value; zero for the others. -/
def Fv.dy : Fv → Dy
  | .fin n m e => ⟨if n then -(m : Int) else m, e⟩
  | _ => Dy.zero

/-- The number of bits of a natural number. -/
def bitLen (n : Nat) : Nat := if n = 0 then 0 else Nat.log2 n + 1

/-- What rounding gives: the magnitude in units of 2 to the `e`, and whether anything was lost. -/
structure Rounded where
  m : Nat
  e : Int
  inexact : Bool
  deriving DecidableEq, Repr

/-- Round to nearest, ties to even, a magnitude `m` times 2 to the `e`, plus a sticky remainder below, to `p` bits of
precision with no unit below 2 to the `emin` (R86, R94 step 1). A sticky remainder needs `m` to carry more than `p`
bits, or `e` to lie below `emin`. -/
def roundMag (p : Nat) (emin : Int) (m : Nat) (e : Int) (sticky : Bool) : Rounded :=
  let q := max (e + (bitLen m : Int) - p) emin
  if q ≤ e then ⟨m * 2 ^ (e - q).toNat, q, sticky⟩
  else
    let d := (q - e).toNat
    let hi := m / 2 ^ d
    let rem := m % 2 ^ d
    let half := 2 ^ (d - 1)
    let up := decide (rem > half) || (decide (rem = half) && (sticky || hi % 2 == 1))
    ⟨if up then hi + 1 else hi, q, decide (rem ≠ 0) || sticky⟩

/-- The result of a float operation: its code and what happened. -/
structure FRes where
  code : Nat
  invalid : Bool := false
  divZero : Bool := false
  overflow : Bool := false
  underflow : Bool := false
  inexact : Bool := false
  /-- The result was subnormal, exact or not (`VEU_FLAGS` underflow). -/
  subnormal : Bool := false
  deriving DecidableEq, Repr

/-- The NaN result (R86). -/
def Fmt.nanRes (f : Fmt) (invalid : Bool) : FRes := { code := f.nanCode, invalid := invalid }

/-- A signed code. -/
def Fmt.signed (f : Fmt) (neg : Bool) (mag : Nat) : Nat := if neg then f.signBit + mag else mag

/-- The magnitude code of a rounded magnitude, at most one unit past the format's precision; infinity's code or more
when it is too large. -/
def Fmt.magCode (f : Fmt) (r : Rounded) : Nat :=
  let m' := if r.m < 2 ^ (f.mb + 1) then r.m else r.m / 2
  let e' := if r.m < 2 ^ (f.mb + 1) then r.e else r.e + 1
  if m' < 2 ^ f.mb then m' else (e' - f.emin).toNat * 2 ^ f.mb + m'

/-- Round a finite magnitude into an IEEE format: nearest, ties to even, gradual underflow, infinity on overflow
(R86, R148). -/
def Fmt.round (f : Fmt) (neg : Bool) (m : Nat) (e : Int) (sticky : Bool) : FRes :=
  if m = 0 ∧ !sticky then { code := f.signed neg 0 } else
  let r := roundMag (f.mb + 1) f.emin m e sticky
  let c := f.magCode r
  if f.infCode ≤ c then { code := f.signed neg f.infCode, overflow := true, inexact := true }
  else
    let u := roundMag (f.mb + 1) (e - m - 1) m e sticky
    let tiny := decide (u.e + (bitLen u.m : Int) < f.emin + f.mb + 1)
    { code := f.signed neg c, inexact := r.inexact, underflow := tiny && r.inexact,
      subnormal := decide (c < 2 ^ f.mb) && decide (c ≠ 0) }

/-- Round a signed dyadic; an exact zero takes the sign given. -/
def Fmt.roundDy (f : Fmt) (zeroNeg : Bool) (d : Dy) : FRes :=
  if d.m = 0 then { code := f.signed zeroNeg 0 } else f.round (decide (d.m < 0)) d.m.natAbs d.e false

/-- Whether a value is NaN. -/
def Fv.isNan : Fv → Bool
  | .nan => true
  | _ => false

/-- Whether a value is infinite. -/
def Fv.isInf : Fv → Bool
  | .inf _ => true
  | _ => false

/-- Whether a value is a zero. -/
def Fv.isZero : Fv → Bool
  | .fin _ m _ => m == 0
  | _ => false

/-- The sign of a value. -/
def Fv.neg : Fv → Bool
  | .nan => false
  | .inf n => n
  | .fin n _ _ => n

/-- The value with its sign inverted. -/
def Fv.negate : Fv → Fv
  | .nan => .nan
  | .inf n => .inf (!n)
  | .fin n m e => .fin (!n) m e

/-- IEEE addition of two values, rounded once (R75, R148). -/
def Fmt.addV (f : Fmt) (a b : Fv) : FRes :=
  match a, b with
  | .nan, _ => f.nanRes false
  | _, .nan => f.nanRes false
  | .inf x, .inf y => if x = y then { code := f.signed x f.infCode } else f.nanRes true
  | .inf x, .fin .. => { code := f.signed x f.infCode }
  | .fin .., .inf y => { code := f.signed y f.infCode }
  | .fin n1 m1 e1, .fin n2 m2 e2 =>
    f.roundDy (n1 && n2) ((Fv.fin n1 m1 e1).dy.add (Fv.fin n2 m2 e2).dy)

/-- The exact product of two values (R88): NaN for infinity times zero, marked invalid. -/
def Fv.mul (a b : Fv) : Fv × Bool :=
  match a, b with
  | .nan, _ => (.nan, false)
  | _, .nan => (.nan, false)
  | .inf x, .inf y => (.inf (x != y), false)
  | .inf x, .fin y m _ => if m = 0 then (.nan, true) else (.inf (x != y), false)
  | .fin x m _, .inf y => if m = 0 then (.nan, true) else (.inf (x != y), false)
  | .fin x m1 e1, .fin y m2 e2 => (.fin (x != y) (m1 * m2) (e1 + e2), false)

/-- IEEE multiplication. -/
def Fmt.mulV (f : Fmt) (a b : Fv) : FRes :=
  match Fv.mul a b with
  | (.nan, iv) => f.nanRes iv
  | (.inf n, _) => { code := f.signed n f.infCode }
  | (.fin n m e, _) => if m = 0 then { code := f.signed n 0 } else f.round n m e false

/-- IEEE fused multiply-add, one rounding; infinity times zero is invalid whatever the addend (R148). -/
def Fmt.fmaV (f : Fmt) (a b d : Fv) : FRes :=
  match Fv.mul a b with
  | (.nan, iv) => f.nanRes iv
  | (p, _) => f.addV p d

/-- IEEE division (R148). -/
def Fmt.divV (f : Fmt) (a b : Fv) : FRes :=
  match a, b with
  | .nan, _ => f.nanRes false
  | _, .nan => f.nanRes false
  | .inf _, .inf _ => f.nanRes true
  | .inf x, .fin y _ _ => { code := f.signed (x != y) f.infCode }
  | .fin x _ _, .inf y => { code := f.signed (x != y) 0 }
  | .fin x m1 e1, .fin y m2 e2 =>
    if m2 = 0 then
      (if m1 = 0 then f.nanRes true else { code := f.signed (x != y) f.infCode, divZero := true })
    else if m1 = 0 then { code := f.signed (x != y) 0 }
    else
      let k := f.mb + 3 + bitLen m2
      f.round (x != y) (m1 * 2 ^ k / m2) (e1 - e2 - k) (decide (m1 * 2 ^ k % m2 ≠ 0))

/-- The integer square root, by bits from the highest: `n` bits of the root are still to be found. -/
def isqrtAux (x : Nat) : Nat → Nat → Nat
  | 0, r => r
  | n + 1, r =>
    let t := r + 2 ^ n
    isqrtAux x n (if t * t ≤ x then t else r)

/-- The integer square root. -/
def isqrt (x : Nat) : Nat := isqrtAux x (bitLen x / 2 + 1) 0

/-- IEEE square root (R148). -/
def Fmt.sqrtV (f : Fmt) (a : Fv) : FRes :=
  match a with
  | .nan => f.nanRes false
  | .inf n => if n then f.nanRes true else { code := f.infCode }
  | .fin n m e =>
    if m = 0 then { code := f.signed n 0 }
    else if n then f.nanRes true
    else
      let k := 2 * (f.mb + 4) + (if (e - (2 * (f.mb + 4) : Nat)) % 2 = 0 then 0 else 1)
      let x := m * 2 ^ k
      let r := isqrt x
      f.round false r ((e - k) / 2) (decide (r * r ≠ x))

/-- Whether one finite or infinite value is below another; a NaN is never below or above. -/
def Fv.lt (a b : Fv) : Bool :=
  match a, b with
  | .nan, _ => false
  | _, .nan => false
  | .inf x, .inf y => x && !y
  | .inf x, .fin .. => x
  | .fin .., .inf y => !y
  | a, b => !(Dy.le b.dy a.dy)

/-- Whether two values compare equal (+0 equals −0). -/
def Fv.eq (a b : Fv) : Bool :=
  match a, b with
  | .nan, _ => false
  | _, .nan => false
  | .inf x, .inf y => x == y
  | .inf _, .fin .. => false
  | .fin .., .inf _ => false
  | a, b => (a.dy.add b.dy.neg).m == 0

/-- The order in which −0 lies below +0 (R147, R148). -/
def Fv.below (a b : Fv) : Bool := a.lt b || (a.eq b && a.isZero && b.isZero && a.neg && !b.neg)

/-- Convert a value to an IEEE format, nearest, ties to even; overflow gives infinity, or with `sat` the largest finite
value (R99). -/
def Fmt.ofV (f : Fmt) (sat : Bool) (a : Fv) : FRes :=
  match a with
  | .nan => f.nanRes false
  | .inf n => { code := f.signed n f.infCode }
  | .fin n m e =>
    if m = 0 then { code := f.signed n 0 } else
    let r := f.round n m e false
    if r.overflow && sat then { r with code := f.signed n (f.infCode - 1) } else r

/-! Dot products (R87 to R92). -/

/-- The scale exponent of an X8 byte, none for the NaN byte 0xFF (R85). -/
def x8Exp (s : Nat) : Option Int := if s % 256 = 255 then none else some ((s % 256 : Nat) - 127 : Int)

/-- The exact products of a group (R88). -/
def products (ps : List (Fv × Fv)) : List Fv := ps.map (fun p => (Fv.mul p.1 p.2).1)

/-- The group sum (R89): NaN, an infinity, or the exact real sum, +0 when zero. -/
def groupSum (ps : List Fv) : Fv :=
  let pinf := ps.any (fun p => p == .inf false)
  let ninf := ps.any (fun p => p == .inf true)
  if ps.any Fv.isNan || (pinf && ninf) then .nan
  else if pinf then .inf false
  else if ninf then .inf true
  else
    let d := ps.foldl (fun acc p => acc.add p.dy) Dy.zero
    .fin (decide (d.m < 0)) d.m.natAbs d.e

/-- The scaled group sum, rounded once to FP32 (R90); `sh` is the sum of the two blocks' scale exponents. -/
def scaleGroup (g : Fv) (sh : Int) : Nat :=
  match g with
  | .nan => Fmt.fp32.nanCode
  | .inf n => Fmt.fp32.signed n Fmt.fp32.infCode
  | .fin n m e => if m = 0 then 0 else (Fmt.fp32.round n m (e + sh) false).code

/-- One FP32 addition into an accumulator (R91). -/
def accAdd (acc : Word) (g : Nat) : Word :=
  BitVec.ofNat 32 (Fmt.fp32.addV (Fmt.fp32.decode acc.toNat) (Fmt.fp32.decode g)).code

/-- One group of a float operation added to an accumulator (R85, R88 to R91): the element codes of the group, the two
formats, whether the operation is scaled and the two scale bytes. -/
def groupFloat (fa fb : Nat) (scaled : Bool) (codes : List (Nat × Nat)) (sa sb : Nat) (acc : Word) : Word :=
  if scaled then
    match x8Exp sa, x8Exp sb with
    | some x, some y =>
      accAdd acc (scaleGroup (groupSum (products
        (codes.map (fun c => (elemValue fa true c.1, elemValue fb true c.2))))) (x + y))
    | _, _ => accAdd acc Fmt.fp32.nanCode
  else
    accAdd acc (scaleGroup (groupSum (products
      (codes.map (fun c => (elemValue fa false c.1, elemValue fb false c.2))))) 0)

/-- The integer of a code of I8 or I4 (R84). -/
def intElem (fmt c : Nat) : Int := if fmt = 4 then intCode 4 c else intCode 8 c

/-- One group of an integer operation added to an INT32 accumulator modulo 2^32, and whether the exact result left the
range (R89, R92). -/
def groupInt (fa fb : Nat) (codes : List (Nat × Nat)) (acc : Word) : Word × Bool :=
  let g := codes.foldl (fun s c => s + intElem fa c.1 * intElem fb c.2) (0 : Int)
  let x := acc.toInt + g
  (BitVec.ofInt 32 x, decide (x < -2 ^ 31) || decide (2 ^ 31 - 1 < x))

/-- Whether an operation is an integer operation (R87). -/
def isIntOp (fa fb scale : Nat) : Bool := (fa == 3 || fa == 4) && (fb == 3 || fb == 4) && scale == 0

/-! Narrow codes and blocks (R94 to R98). -/

/-- Round a finite magnitude to a narrow float code (R94, R95): format code 0, 1 or 2. -/
def narrowCode (fmt : Nat) (sat neg : Bool) (m : Nat) (e : Int) : Nat :=
  let f := match fmt with | 0 => Fmt.b8e4 | 1 => Fmt.b8e5 | _ => Fmt.b4e2
  let maxC := match fmt with | 0 => 0x7E | 1 => 0x7B | _ => 0x7
  if m = 0 then f.signed neg 0 else
  let c := f.magCode (roundMag (f.mb + 1) f.emin m e false)
  if c ≤ maxC then f.signed neg c
  else match fmt with
    | 0 => if sat then f.signed neg 0x7E else 0x7F
    | 1 => if sat then f.signed neg 0x7B else f.signed neg 0x7C
    | _ => f.signed neg 0x7

/-- Round a signed dyadic to the nearest integer, ties to even. -/
def roundInt (neg : Bool) (m : Nat) (e : Int) : Int :=
  let k : Nat :=
    if 0 ≤ e then m * 2 ^ e.toNat
    else
      let d := (-e).toNat
      let hi := m / 2 ^ d
      let rem := m % 2 ^ d
      if rem * 2 > 2 ^ d ∨ (rem * 2 = 2 ^ d ∧ hi % 2 = 1) then hi + 1 else hi
  if neg then -(k : Int) else k

/-- Clamp an integer to a range. -/
def clampInt (lo hi x : Int) : Int := if x < lo then lo else if hi < x then hi else x

/-- The exponent of the leading bit of a finite value. -/
def Fv.ilog2 : Fv → Int
  | .fin _ m e => e + (bitLen m : Int) - 1
  | _ => 0

/-- The e_t of R96 step 3. -/
def quantE (fmt : Nat) : Int := match fmt with | 0 => 8 | 1 => 15 | 2 => 2 | _ => 0

/-- The code of one element of a block (R96 steps 5 and 6). -/
def quantElem (fmt : Nat) (sat : Bool) (X : Int) (v : Fv) : Nat :=
  match v with
  | .fin n m e =>
    match fmt with
    | 3 => (BitVec.ofInt 8 (clampInt (-128) 127 (roundInt n m (e - X + 6)))).toNat
    | 4 => (BitVec.ofInt 4 (clampInt (-8) 7 (roundInt n m (e - X + 2)))).toNat
    | f => narrowCode f sat n m (e - X)
  | _ => 0

/-- Quantise one block of FP32 values (R96, R97): the scale byte and the element codes. -/
def quantBlock (fmt : Nat) (sat : Bool) (xs : List Fv) : Nat × List Nat :=
  if xs.any (fun v => v.isNan || v.isInf) then (0xFF, xs.map (fun _ => 0))
  else if xs.all Fv.isZero then (0x7F, xs.map (fun v => quantElem fmt sat 0 v))
  else
    let top := (xs.filter (fun v => !v.isZero)).foldl
      (fun (acc : Option Int) v => match acc with | none => some v.ilog2 | some a => some (max a v.ilog2)) none
    let X := top.getD 0 - quantE fmt
    let s := (clampInt 0 254 (X + 127)).toNat
    (s, xs.map (quantElem fmt sat ((s : Int) - 127)))

/-- Expand one element (R98): the FP32 result, with overflow reported. DESIGN CHOICE (log entry 110): the NaN that a NaN code or a scale
of 0xFF gives raises no invalid flag, as an operand's NaN raises none; the spec does not say. -/
def expandElem (fmt c s : Nat) : FRes :=
  match x8Exp s, elemValue fmt true c with
  | none, _ => Fmt.fp32.nanRes false
  | _, .nan => Fmt.fp32.nanRes false
  | _, .inf n => { code := Fmt.fp32.signed n Fmt.fp32.infCode }
  | some x, .fin n m e => if m = 0 then { code := Fmt.fp32.signed n 0 } else Fmt.fp32.round n m (e + x) false

/-- An INT32 accumulator converted to FP32, nearest, ties to even (R67, R99). -/
def intToFp32 (x : Word) : Nat := (Fmt.fp32.roundDy false ⟨x.toInt, 0⟩).code

/-! Table-and-refinement operations of the VEU (R75): the exact result is bracketed to far below the bound, and the bits
are free within it. -/

/-- The fractions 2^(1/2), 2^(1/4), … in units of 2^-96, `n` of them. -/
def exp2Table : Nat → Nat → List Nat
  | 0, _ => []
  | n + 1, c => let r := isqrt (c * 2 ^ 96); r :: exp2Table n r

/-- The product of the fractions picked by the bits of `frac`, a fraction of 2^-64, from the highest bit. -/
def exp2Frac : List Nat → Nat → Nat → Nat
  | [], _, acc => acc
  | c :: r, frac, acc =>
    let b := frac / 2 ^ 63
    exp2Frac r (frac * 2 % 2 ^ 64) (if b % 2 = 1 then acc * c / 2 ^ 96 else acc)

/-- 2 to a dyadic, for exponents of moderate size. -/
def exp2Dy (d : Dy) : Dy :=
  let fx : Int := if 0 ≤ d.e + 64 then d.m * 2 ^ (d.e + 64).toNat else d.m / 2 ^ (-(d.e + 64)).toNat
  let i := fx / 2 ^ 64
  let fr := (fx % 2 ^ 64).toNat
  ⟨exp2Frac (exp2Table 64 (2 ^ 97)) fr (2 ^ 96), i - 96⟩

/-- The first `n` bits of the binary logarithm of a number in [1, 2), held in units of 2^-192. -/
def log2Bits : Nat → Nat → Nat → Nat
  | 0, _, acc => acc
  | n + 1, x, acc =>
    let y := x * x / 2 ^ 192
    if 2 ^ 193 ≤ y then log2Bits n (y / 2) (acc * 2 + 1) else log2Bits n y (acc * 2)

/-- The binary logarithm of a positive dyadic magnitude, to 64 fraction bits. -/
def log2Dy (m : Nat) (e : Int) : Dy :=
  let b := bitLen m - 1
  let x := m * 2 ^ 192 / 2 ^ b
  ⟨((e + b) * 2 ^ 64 + (log2Bits 64 x 0 : Nat) : Int), -64⟩

/-- The unit in the last place of FP32 at a dyadic. -/
def ulp32 (y : Dy) : Dy :=
  ⟨1, max (y.e + (bitLen y.m.natAbs : Int) - 24) (-149)⟩

/-- Whether an FP32 code lies within a bound of a dyadic, by a margin that covers the bracketing (log entry 11). -/
def within (c : Nat) (y bound : Dy) : Bool :=
  match Fmt.fp32.decode (c % 2 ^ 32) with
  | .fin n m e => Dy.le ((Fv.fin n m e).dy.add y.neg).abs (bound.add ⟨-1, bound.e - 20⟩)
  | _ => false

/-- The free bits where they keep the bound, else the correctly rounded value; a subnormal result is flushed to zero
with its sign, and the flags follow the value (R75). -/
def tableResult (free : Nat) (y bound : Dy) : FRes :=
  let r := Fmt.fp32.roundDy false y
  if r.overflow then r else
  let c := if within free y bound then free % 2 ^ 32 else r.code
  let mag := c % 2 ^ 31
  let inex := match Fmt.fp32.decode c with | .fin n m e => !(Dy.le ((Fv.fin n m e).dy.add y.neg).abs ⟨1, bound.e - 20⟩) | _ => true
  if mag < 2 ^ 23 then
    { code := c - mag, underflow := decide (mag ≠ 0) || decide (y.m ≠ 0), inexact := decide (y.m ≠ 0), subnormal := decide (y.m ≠ 0) }
  else { code := c, inexact := inex }

/-- 2 to the power of an exact argument, FP32, within `n` ulp (R75). -/
def exp2Res (n : Nat) (free : Nat) (a : Fv) : FRes :=
  match a with
  | .nan => Fmt.fp32.nanRes false
  | .inf neg => { code := if neg then 0 else Fmt.fp32.infCode }
  | .fin neg m e =>
    if m = 0 then { code := 0x3F800000 }
    else if 10 < e + (bitLen m : Int) then
      (if neg then { code := 0, underflow := true, inexact := true, subnormal := true }
       else { code := Fmt.fp32.infCode, overflow := true, inexact := true })
    else
      let y := exp2Dy (Fv.fin neg m e).dy
      if !(Dy.le y ⟨2 ^ 24 - 1, 104⟩) then { code := Fmt.fp32.infCode, overflow := true, inexact := true } else
      tableResult free y ⟨n, (ulp32 y).e⟩

/-- The binary logarithm, FP32 (R75). -/
def log2Res (free : Nat) (a : Fv) : FRes :=
  match a with
  | .nan => Fmt.fp32.nanRes false
  | .inf neg => if neg then Fmt.fp32.nanRes true else { code := Fmt.fp32.infCode }
  | .fin neg m e =>
    if m = 0 then { code := Fmt.fp32.signed true Fmt.fp32.infCode, divZero := true }
    else if neg then Fmt.fp32.nanRes true
    else
      let y := log2Dy m e
      let near := Dy.le ⟨1, -1⟩ ⟨m, e⟩ && Dy.le ⟨m, e⟩ ⟨1, 1⟩
      let u := ulp32 y
      if y.m = 0 ∧ !near then { code := 0 } else
      tableResult free y (if near && Dy.le u ⟨1, -22⟩ then ⟨1, -22⟩ else u)

/-- The reciprocal, FP32, within 1 ulp (R75). -/
def rcpRes (free : Nat) (a : Fv) : FRes :=
  match a with
  | .nan => Fmt.fp32.nanRes false
  | .inf neg => { code := Fmt.fp32.signed neg 0 }
  | .fin neg m e =>
    if m = 0 then { code := Fmt.fp32.signed neg Fmt.fp32.infCode, divZero := true }
    else
      let q : Nat := 2 ^ 128 / m
      let y : Dy := ⟨if neg then -(q : Int) else q, -e - 128⟩
      tableResult free y (ulp32 y)

/-- An open 16- or 32-bit result of a VEU operation: a NaN is the canonical one (R86). -/
def Fmt.openCode (F : Fmt) (free : Nat) : Nat :=
  let c := free % 2 ^ (1 + F.eb + F.mb)
  if (F.decode c).isNan then F.nanCode else c

/-- The reciprocal square root, FP32, within 1 ulp; R75 states no result for −0, which is then `unstated`. -/
def rsqRes (free unstated : Nat) (a : Fv) : FRes :=
  match a with
  | .nan => Fmt.fp32.nanRes false
  | .inf neg => if neg then Fmt.fp32.nanRes true else { code := 0 }
  | .fin neg m e =>
    if m = 0 then
      (if neg then { code := Fmt.fp32.openCode unstated } else { code := Fmt.fp32.infCode, divZero := false })
    else if neg then Fmt.fp32.nanRes true
    else
      let k : Nat := 256 + (if (e + 256) % 2 = 0 then 0 else 1)
      let y : Dy := ⟨isqrt (2 ^ k * 2 ^ 128 / m), (-e - (k : Int) - 128) / 2⟩
      let y' : Dy := if (-e - (k : Int) - 128) % 2 = 0 then y else ⟨isqrt (2 ^ (k + 1) * 2 ^ 128 / m), (-e - (k : Int) - 129) / 2⟩
      tableResult free y' (ulp32 y')

end Sys2Proof.Machine
end

