-- ==== Sys2Proof/Machine/Mem.lean ====
section
/-!
DEFINITION. Sparse maps from numbers, and byte memories: a list of (address, byte) pairs with strictly rising addresses
and no pair whose byte is what an unlisted address reads as, which is 0 (R111, R287; log entry 5).
-/
namespace Sys2Proof.Machine

/-- A sparse map from numbers: the pairs that differ from a default, or once did. -/
abbrev SMap (α : Type) := List (Nat × α)

/-- The value at a key, if the map lists one. -/
def SMap.find {α : Type} : SMap α → Nat → Option α
  | [], _ => none
  | (k, v) :: r, i => if k = i then some v else SMap.find r i

/-- The value at a key, or a default. -/
def SMap.get {α : Type} (m : SMap α) (d : α) (i : Nat) : α := (SMap.find m i).getD d

/-- The map with the value at a key replaced, or entered before the first higher key. -/
def SMap.set {α : Type} : SMap α → Nat → α → SMap α
  | [], i, x => [(i, x)]
  | (k, v) :: r, i, x =>
    if k = i then (i, x) :: r
    else if i < k then (i, x) :: (k, v) :: r
    else (k, v) :: SMap.set r i x

/-- The map without a key. -/
def SMap.erase {α : Type} (m : SMap α) (i : Nat) : SMap α := m.filter (fun p => p.1 ≠ i)

/-- A byte memory. -/
abbrev Memory := List Host.Cell

/-- What an address that the list does not hold reads as. -/
def Memory.unlisted : Byte := 0

/-- The byte at an address. -/
def Memory.read : Memory → Nat → Byte
  | [], _ => Memory.unlisted
  | (k, v) :: r, a => if k = a then v else Memory.read r a

/-- The listed cells that hold `n` bytes from an address: the bytes other than 0. -/
def Memory.cells (a : Nat) : List Byte → Memory
  | [] => []
  | b :: r => if b = Memory.unlisted then Memory.cells (a + 1) r else (a, b) :: Memory.cells (a + 1) r

/-- The memory with a run of bytes written from an address. -/
def Memory.write (m : Memory) (a : Nat) (bs : List Byte) : Memory :=
  m.filter (fun c => decide (c.1 < a)) ++ Memory.cells a bs ++ m.filter (fun c => decide (a + bs.length ≤ c.1))

/-- The bytes of a run, the lowest address first. -/
def Memory.readList (m : Memory) (a n : Nat) : List Byte :=
  let part := m.filter (fun c => decide (a ≤ c.1) && decide (c.1 < a + n))
  (List.range n).map (fun i => Memory.read part (a + i))

/-- The number that a run of bytes holds, little-endian (R14). -/
def Memory.readNat (m : Memory) (a n : Nat) : Nat :=
  (m.filter (fun c => decide (a ≤ c.1) && decide (c.1 < a + n))).foldr
    (fun c acc => acc + c.2.toNat * 256 ^ (c.1 - a)) 0

/-- The memory with a number of `n` bytes written little-endian (R14). -/
def Memory.writeNat (m : Memory) (a n v : Nat) : Memory := m.write a (toBytes v n)

/-- The memory with a run of `n` bytes at 0. -/
def Memory.zero (m : Memory) (a n : Nat) : Memory :=
  m.filter (fun c => decide (c.1 < a)) ++ m.filter (fun c => decide (a + n ≤ c.1))

/-- The canonical form: addresses strictly rising from `lo`, and no listed byte equal to the unlisted one. -/
def Memory.wfFrom : Nat → Memory → Bool
  | _, [] => true
  | lo, (k, v) :: r => decide (lo ≤ k) && decide (v ≠ Memory.unlisted) && Memory.wfFrom (k + 1) r

/-- The canonical form of a memory. -/
def Memory.wf (m : Memory) : Bool := Memory.wfFrom 0 m

end Sys2Proof.Machine
end

