-- ==== Sys2Proof/Machine/RegMap.lean ====
section
/-!
DEFINITION. The register map: the address of every register the spec tabulates, the bits a write reaches by access
type (R15, R16), and the value of the Reset column. Addresses are those of the management map; the mailbox registers
of BAR0 (R300) have no management address, so their keys are the model's own (log entry 3). Defined from the register
tables of chapters 02, 03, 05 to 16.
-/
namespace Sys2Proof.Machine

/-- Whose state locks the RWL fields of a block (R15): the owner of a tile, partition p itself, and so on. -/
inductive RegOwner where
  | free | tile | part | edge | lane | port | chan | ddrPart | pwrPart
  deriving DecidableEq, Repr

/-- One register, or a run of `count` registers `stride` bytes apart inside a block. -/
structure RegRow where
  off : Nat
  count : Nat
  stride : Nat
  rw : Word
  rwl : Word
  w1c : Word
  w1s : Word
  ro : Word
  reset : Word
  deriving DecidableEq, Repr

/-- A block of registers: `n` instances `stride` bytes apart. -/
structure RegBlock where
  base : Nat
  n : Nat
  stride : Nat
  owner : RegOwner
  rows : List RegRow
  deriving DecidableEq, Repr

/-! Register addresses, under the names of the spec. -/

/-- Base of the block: tile-block registers: logical tile t is instance t, the carrier-less position of column c instance 128 + c (R58, R76). -/
def Reg.tileBase (t : Nat) : Nat := 0x10000000 + t * 0x10000
/-- `SEQ_BEAT_STATUS`: Done, late, parked, over-budget, variant, outcome (02, R38). -/
def Reg.SEQ_BEAT_STATUS (t : Nat) : Nat := Reg.tileBase t + 0x1100
/-- `SEQ_BEAT_USED`: Handshakes used in the last beat, in [19:0] (02, R38). -/
def Reg.SEQ_BEAT_USED (t : Nat) : Nat := Reg.tileBase t + 0x1104
/-- `SEQ_BEAT_SLACK`: Slack in the last beat, in [19:0] (02, R38). -/
def Reg.SEQ_BEAT_SLACK (t : Nat) : Nat := Reg.tileBase t + 0x1108
/-- `SEQ_BEAT_MIN_SLACK`: Minimum slack since last re-armed, in [19:0]; late seen in [20] (02, R38). -/
def Reg.SEQ_BEAT_MIN_SLACK (t : Nat) : Nat := Reg.tileBase t + 0x110C
/-- `SEQ_BEAT_MS_LO`: Milestone that opened the current beat [31:0] (02, R38). -/
def Reg.SEQ_BEAT_MS_LO (t : Nat) : Nat := Reg.tileBase t + 0x1110
/-- `SEQ_BEAT_MS_HI`: The same, [47:32] in [15:0] (02, R38). -/
def Reg.SEQ_BEAT_MS_HI (t : Nat) : Nat := Reg.tileBase t + 0x1114
/-- `SEQ_STEP_LO`: Step of the current beat [31:0] (02, R38). -/
def Reg.SEQ_STEP_LO (t : Nat) : Nat := Reg.tileBase t + 0x1118
/-- `SEQ_STEP_HI`: The same, [47:32] in [15:0] (02, R38). -/
def Reg.SEQ_STEP_HI (t : Nat) : Nat := Reg.tileBase t + 0x111C
/-- `SEQ_ATTEMPT`: Earlier attempts of this step, in [7:0] (02, R38). -/
def Reg.SEQ_ATTEMPT (t : Nat) : Nat := Reg.tileBase t + 0x1120
/-- `SEQ_APPi_BASE`: First byte of region i, wide-view byte address, in [22:0] (02, R44). -/
def Reg.SEQ_APP_BASE (t i : Nat) : Nat := Reg.tileBase t + 0x1800 + i * 0x10
/-- `SEQ_APPi_LIMIT`: First byte after region i, in [22:0] (02, R44). -/
def Reg.SEQ_APP_LIMIT (t i : Nat) : Nat := Reg.tileBase t + 0x1804 + i * 0x10
/-- `SEQ_APPi_PTR`: Committed pointer, in [22:0]; hardware advances it at commit (02, R44). -/
def Reg.SEQ_APP_PTR (t i : Nat) : Nat := Reg.tileBase t + 0x1808 + i * 0x10
/-- `SEQ_APPi_CTRL`: Step, enable, wrapped, pending (02, R44). -/
def Reg.SEQ_APP_CTRL (t i : Nat) : Nat := Reg.tileBase t + 0x180C + i * 0x10
/-- `TILE_ID`: Logical ID, column, physical position (03, R58). -/
def Reg.TILE_ID (t : Nat) : Nat := Reg.tileBase t
/-- `TILE_PART`: Partition and generation (03, R58). -/
def Reg.TILE_PART (t : Nat) : Nat := Reg.tileBase t + 0x4
/-- `TILE_CTRL`: Tile enable and tile reset (03, R58). -/
def Reg.TILE_CTRL (t : Nat) : Nat := Reg.tileBase t + 0x8
/-- `TILE_STATUS`: Engine busy bits and BIST result (03, R58). -/
def Reg.TILE_STATUS (t : Nat) : Nat := Reg.tileBase t + 0xC
/-- `TILE_FAULT`: Sticky fault summary (03, R58). -/
def Reg.TILE_FAULT (t : Nat) : Nat := Reg.tileBase t + 0x10
/-- `ARRn_CTRL`: Trap enables (03, R70). -/
def Reg.ARR_CTRL (t i : Nat) : Nat := Reg.tileBase t + 0x5000 + i * 0x800
/-- `ARRn_STATUS`: Busy, set state (03, R70). -/
def Reg.ARR_STATUS (t i : Nat) : Nat := Reg.tileBase t + 0x5004 + i * 0x800
/-- `ARRn_SPECIAL`: NaN and Inf seen, first position (03, R70). -/
def Reg.ARR_SPECIAL (t i : Nat) : Nat := Reg.tileBase t + 0x5008 + i * 0x800
/-- `ARRn_INT_OVF`: INT32 accumulator overflow seen (03, R70). -/
def Reg.ARR_INT_OVF (t i : Nat) : Nat := Reg.tileBase t + 0x500C + i * 0x800
/-- `ARRn_OP_COUNT`: MMAs completed, wrapping at 2^32 (03, R70). -/
def Reg.ARR_OP_COUNT (t i : Nat) : Nat := Reg.tileBase t + 0x5010 + i * 0x800
/-- `ARRn_ACTIVE_HS`: Streaming handshakes, wrapping at 2^32 (03, R70). -/
def Reg.ARR_ACTIVE_HS (t i : Nat) : Nat := Reg.tileBase t + 0x5014 + i * 0x800
/-- `ARRn_GATED_LO`: Gated products (R392) [31:0] (03, R70). -/
def Reg.ARR_GATED_LO (t i : Nat) : Nat := Reg.tileBase t + 0x5018 + i * 0x800
/-- `ARRn_GATED_HI`: Gated products [47:32] in [15:0] (03, R70). -/
def Reg.ARR_GATED_HI (t i : Nat) : Nat := Reg.tileBase t + 0x501C + i * 0x800
/-- `MVU_CTRL`: Trap enables, as in ARRn_CTRL (03, R73). -/
def Reg.MVU_CTRL (t : Nat) : Nat := Reg.tileBase t + 0x6000
/-- `MVU_STATUS`: Busy in [0], draining in [1] (03, R73). -/
def Reg.MVU_STATUS (t : Nat) : Nat := Reg.tileBase t + 0x6004
/-- `MVU_SPECIAL`: As ARRn_SPECIAL, with the accumulator index of the first special value in [25:16] (03, R73). -/
def Reg.MVU_SPECIAL (t : Nat) : Nat := Reg.tileBase t + 0x6008
/-- `MVU_INT_OVF`: INT32 accumulator overflow seen, in [0] (03, R73). -/
def Reg.MVU_INT_OVF (t : Nat) : Nat := Reg.tileBase t + 0x600C
/-- `MVU_ROW_COUNT`: Weight rows streamed, wrapping at 2^32 (03, R73). -/
def Reg.MVU_ROW_COUNT (t : Nat) : Nat := Reg.tileBase t + 0x6010
/-- `VEU_CTRL`: Trap enables (03, R75). -/
def Reg.VEU_CTRL (t : Nat) : Nat := Reg.tileBase t + 0x7000
/-- `VEU_STATUS`: Busy in [0] (03, R75). -/
def Reg.VEU_STATUS (t : Nat) : Nat := Reg.tileBase t + 0x7004
/-- `VEU_FLAGS`: Sticky IEEE flags (03, R75). -/
def Reg.VEU_FLAGS (t : Nat) : Nat := Reg.tileBase t + 0x7008
/-- `ST_CTRL`: Scrub enable (05, R115). -/
def Reg.ST_CTRL (t : Nat) : Nat := Reg.tileBase t + 0x8000
/-- `ST_SCRUB_IDLE_NS`: Self-timed scrub interval, ns, in [15:0] (05, R115). -/
def Reg.ST_SCRUB_IDLE_NS (t : Nat) : Nat := Reg.tileBase t + 0x8004
/-- `ST_SCRUB_POS`: Next X word in [18:0]; next Y word in a second read at 0x00C (05, R115). -/
def Reg.ST_SCRUB_POS (t : Nat) : Nat := Reg.tileBase t + 0x8008
/-- `ST_SCRUB_POS_Y`: Next Y word in [18:0] (05, R115). -/
def Reg.ST_SCRUB_POS_Y (t : Nat) : Nat := Reg.tileBase t + 0x800C
/-- `ST_SCRUB_PASSES`: Completed passes of both halves, wrapping at 2^32 (05, R115). -/
def Reg.ST_SCRUB_PASSES (t : Nat) : Nat := Reg.tileBase t + 0x8010
/-- `ST_CE_COUNT`: STORE_CE events, wrapping at 2^32 (05, R115). -/
def Reg.ST_CE_COUNT (t : Nat) : Nat := Reg.tileBase t + 0x8014
/-- `ST_CE_CHECK_COUNT`: STORE_CE_CHECK events, wrapping at 2^32 (05, R115). -/
def Reg.ST_CE_CHECK_COUNT (t : Nat) : Nat := Reg.tileBase t + 0x8018
/-- `ST_UE_COUNT`: STORE_UE events, wrapping at 2^32 (05, R115). -/
def Reg.ST_UE_COUNT (t : Nat) : Nat := Reg.tileBase t + 0x801C
/-- `ST_UE_ADDR`: Location of the first uncorrectable word (05, R115). -/
def Reg.ST_UE_ADDR (t : Nat) : Nat := Reg.tileBase t + 0x8020
/-- `ST_UE_STATUS`: Uncorrectable seen, more (05, R115). -/
def Reg.ST_UE_STATUS (t : Nat) : Nat := Reg.tileBase t + 0x8024
/-- `ST_REPAIR`: Rows repaired at B5, in [7:0] (05, R115). -/
def Reg.ST_REPAIR (t : Nat) : Nat := Reg.tileBase t + 0x8028
/-- `SE_STATUS`: Request-table entries and landing rows in use (05, R116). -/
def Reg.SE_STATUS (t : Nat) : Nat := Reg.tileBase t + 0x4000
/-- `SE_DISCARD`: Replies discarded after cancellation or restart, wrapping at 2^32 (05, R116). -/
def Reg.SE_DISCARD (t : Nat) : Nat := Reg.tileBase t + 0x4004
/-- `SE_ABORT`: Stream abort record (05, R116). -/
def Reg.SE_ABORT (t : Nat) : Nat := Reg.tileBase t + 0x4008
/-- `SE_REL_OVER`: Release or push clamped (R119), one bit per context (05, R116). -/
def Reg.SE_REL_OVER (t : Nat) : Nat := Reg.tileBase t + 0x400C
/-- `SE_CTXc_CTRL`: Enable, direction, kind, held, rate (05, R116). -/
def Reg.SE_CTX_CTRL (t i : Nat) : Nat := Reg.tileBase t + 0x4100 + i * 0x20
/-- `SE_CTXc_RING`: Ring base and size (05, R116). -/
def Reg.SE_CTX_RING (t i : Nat) : Nat := Reg.tileBase t + 0x4104 + i * 0x20
/-- `SE_CTXc_SRC_LO`: Source or destination [31:0] (05, R116). -/
def Reg.SE_CTX_SRC_LO (t i : Nat) : Nat := Reg.tileBase t + 0x4108 + i * 0x20
/-- `SE_CTXc_SRC_HI`: DRAM address [39:32] in [7:0] (05, R116). -/
def Reg.SE_CTX_SRC_HI (t i : Nat) : Nat := Reg.tileBase t + 0x410C + i * 0x20
/-- `SE_CTXc_WALK`: DRAM pass length (05, R116). -/
def Reg.SE_CTX_WALK (t i : Nat) : Nat := Reg.tileBase t + 0x4110 + i * 0x20
/-- `SE_CTXc_SEM`: Local and remote semaphore indices (05, R116). -/
def Reg.SE_CTX_SEM (t i : Nat) : Nat := Reg.tileBase t + 0x4114 + i * 0x20
/-- `SE_CTXc_FILL`: Fill and free rows (05, R116). -/
def Reg.SE_CTX_FILL (t i : Nat) : Nat := Reg.tileBase t + 0x4118 + i * 0x20
/-- `SE_CTXc_STATUS`: State, outstanding requests, rows pushed and unsent (05, R116). -/
def Reg.SE_CTX_STATUS (t i : Nat) : Nat := Reg.tileBase t + 0x411C + i * 0x20
/-- `SEQ_STATUS`: Current entry, running, at gate, ended (06, R134). -/
def Reg.SEQ_STATUS (t : Nat) : Nat := Reg.tileBase t + 0x1000
/-- `SEQ_HS`: Handshake number in the current beat, in [19:0] (06, R134). -/
def Reg.SEQ_HS (t : Nat) : Nat := Reg.tileBase t + 0x1004
/-- `SEQ_IMEM_ADDR`: Entry index for loading, in [11:0] (06, R134). -/
def Reg.SEQ_IMEM_ADDR (t : Nat) : Nat := Reg.tileBase t + 0x1008
/-- `SEQ_IMEM_DATA0`: Entry bits [31:0] (06, R134). -/
def Reg.SEQ_IMEM_DATA0 (t : Nat) : Nat := Reg.tileBase t + 0x1010
/-- `SEQ_IMEM_DATA1`: Entry bits [63:32] (06, R134). -/
def Reg.SEQ_IMEM_DATA1 (t : Nat) : Nat := Reg.tileBase t + 0x1014
/-- `SEQ_IMEM_DATA2`: Entry bits [95:64] (06, R134). -/
def Reg.SEQ_IMEM_DATA2 (t : Nat) : Nat := Reg.tileBase t + 0x1018
/-- `SEQ_IMEM_DATA3`: Entry bits [127:96]; a write stores the whole entry (06, R134). -/
def Reg.SEQ_IMEM_DATA3 (t : Nat) : Nat := Reg.tileBase t + 0x101C
/-- `SEQ_VAR0`–`SEQ_VAR7`: Base and length of variant v (06, R134). -/
def Reg.SEQ_VAR (t i : Nat) : Nat := Reg.tileBase t + 0x1020 + i * 0x4
/-- `SEQ_CLASH`: First clash of the beat (06, R134). -/
def Reg.SEQ_CLASH (t : Nat) : Nat := Reg.tileBase t + 0x1040
/-- `SEQ_CLASH_ENTRY`: Entries of that clash (06, R134). -/
def Reg.SEQ_CLASH_ENTRY (t : Nat) : Nat := Reg.tileBase t + 0x1044
/-- `SEQ_MEM_ECC`: Itinerary memory error counts (06, R134). -/
def Reg.SEQ_MEM_ECC (t : Nat) : Nat := Reg.tileBase t + 0x1048
/-- `TC_CTRL`: Trap enables (06, R137). -/
def Reg.TC_CTRL (t : Nat) : Nat := Reg.tileBase t + 0x2000
/-- `TC_STATUS`: State, loop depth, trapped (06, R137). -/
def Reg.TC_STATUS (t : Nat) : Nat := Reg.tileBase t + 0x2004
/-- `TC_PC`: Program counter, in [12:0] (06, R137). -/
def Reg.TC_PC (t : Nat) : Nat := Reg.tileBase t + 0x2008
/-- `TC_FLAGS`: Condition flags, sticky flags, modes (06, R137). -/
def Reg.TC_FLAGS (t : Nat) : Nat := Reg.tileBase t + 0x200C
/-- `TC_PWRMODE`: Requested rung (06, R137). -/
def Reg.TC_PWRMODE (t : Nat) : Nat := Reg.tileBase t + 0x2010
/-- `TC_EVENT`: Pending events, in [15:0] (06, R137). -/
def Reg.TC_EVENT (t : Nat) : Nat := Reg.tileBase t + 0x2014
/-- `TC_PMEM_ADDR`: Instruction index for loading, in [12:0]; increments after each access to TC_PMEM_DATA_HI (06, R137). -/
def Reg.TC_PMEM_ADDR (t : Nat) : Nat := Reg.tileBase t + 0x2018
/-- `TC_PMEM_DATA_LO`: Instruction bits [31:0] (06, R137). -/
def Reg.TC_PMEM_DATA_LO (t : Nat) : Nat := Reg.tileBase t + 0x201C
/-- `TC_PMEM_DATA_HI`: Instruction bits [63:32]; a write stores the instruction (06, R137). -/
def Reg.TC_PMEM_DATA_HI (t : Nat) : Nat := Reg.tileBase t + 0x2020
/-- `TC_MEM_ECC`: Program store counts, laid out as SEQ_MEM_ECC (06, R137). -/
def Reg.TC_MEM_ECC (t : Nat) : Nat := Reg.tileBase t + 0x2024
/-- `TC_G0`–`TC_G31`: General register gi (06, R137). -/
def Reg.TC_G (t i : Nat) : Nat := Reg.tileBase t + 0x2100 + i * 0x4
/-- `TC_ACC0_LO`–`TC_ACC3_LO`: Accumulator a, bits [31:0] (06, R137). -/
def Reg.TC_ACC_LO (t i : Nat) : Nat := Reg.tileBase t + 0x2180 + i * 0x8
/-- `TC_ACC0_HI`–`TC_ACC3_HI`: Accumulator a, bits [39:32] in [7:0] (06, R137). -/
def Reg.TC_ACC_HI (t i : Nat) : Nat := Reg.tileBase t + 0x2184 + i * 0x8
/-- `TC_XP0`–`TC_XP3`: X pointer p, in [21:0] (06, R137). -/
def Reg.TC_XP (t i : Nat) : Nat := Reg.tileBase t + 0x21A0 + i * 0x4
/-- `TC_YP0`–`TC_YP3`: Y pointer p, in [21:0] (06, R137). -/
def Reg.TC_YP (t i : Nat) : Nat := Reg.tileBase t + 0x21B0 + i * 0x4
/-- `TC_XM0`–`TC_XM3`: X modifier p (06, R137). -/
def Reg.TC_XM (t i : Nat) : Nat := Reg.tileBase t + 0x21C0 + i * 0x4
/-- `TC_YM0`–`TC_YM3`: Y modifier p (06, R137). -/
def Reg.TC_YM (t i : Nat) : Nat := Reg.tileBase t + 0x21D0 + i * 0x4
/-- `SEM_CNTs`: Count, state and waiters (07, R154). -/
def Reg.SEM_CNT (t i : Nat) : Nat := Reg.tileBase t + 0x3000 + i * 0x10
/-- `SEM_CFGs`: Capacity, initial value, scope, residue check (07, R154). -/
def Reg.SEM_CFG (t i : Nat) : Nat := Reg.tileBase t + 0x3004 + i * 0x10
/-- `SEM_PEERs`: Peer kind and identity (07, R154). -/
def Reg.SEM_PEER (t i : Nat) : Nat := Reg.tileBase t + 0x3008 + i * 0x10
/-- `SEM_SNAPs`: Count taken at the opening milestone (07, R154). -/
def Reg.SEM_SNAP (t i : Nat) : Nat := Reg.tileBase t + 0x300C + i * 0x10
/-- `SEM_FAULT`: First semaphore fault of the beat (07, R154). -/
def Reg.SEM_FAULT (t : Nat) : Nat := Reg.tileBase t + 0x3400
/-- `SEM_FAULT_ARG`: Counts of that fault (07, R154). -/
def Reg.SEM_FAULT_ARG (t : Nat) : Nat := Reg.tileBase t + 0x3404
/-- `SEM_BROKEN_LO`: Broken semaphores 0–31, one bit each (07, R154). -/
def Reg.SEM_BROKEN_LO (t : Nat) : Nat := Reg.tileBase t + 0x3408
/-- `SEM_BROKEN_HI`: Broken semaphores 32–63 (07, R154). -/
def Reg.SEM_BROKEN_HI (t : Nat) : Nat := Reg.tileBase t + 0x340C
/-- `SEM_RESID_LO`: Residue found at the last STOP, semaphores 0–31 (07, R154). -/
def Reg.SEM_RESID_LO (t : Nat) : Nat := Reg.tileBase t + 0x3410
/-- `SEM_RESID_HI`: The same, semaphores 32–63 (07, R154). -/
def Reg.SEM_RESID_HI (t : Nat) : Nat := Reg.tileBase t + 0x3414
/-- `SEM_STALE_SIG`: Remote signals dropped under R162, wrapping at 2^32 (07, R154). -/
def Reg.SEM_STALE_SIG (t : Nat) : Nat := Reg.tileBase t + 0x3418
/-- `RTR_PART`: Partition, valid, column span, X wrap (08, R191). -/
def Reg.RTR_PART (t : Nat) : Nat := Reg.tileBase t + 0x9000
/-- `RTR_PRIO`: Priority stamped by class (08, R191). -/
def Reg.RTR_PRIO (t : Nat) : Nat := Reg.tileBase t + 0x9004
/-- `RTR_STATUS`: Reservation queue use, closed ports (08, R191). -/
def Reg.RTR_STATUS (t : Nat) : Nat := Reg.tileBase t + 0x9008
/-- `RTR_RSV_TIMEOUT`: Reservation timeout, µs, in [15:0] (08, R191). -/
def Reg.RTR_RSV_TIMEOUT (t : Nat) : Nat := Reg.tileBase t + 0x900C
/-- `RTR_DROP_PART`: Partition drops, wrapping at 2^32 (08, R191). -/
def Reg.RTR_DROP_PART (t : Nat) : Nat := Reg.tileBase t + 0x9010
/-- `RTR_DROP_GEN`: Generation drops, wrapping at 2^32 (08, R191). -/
def Reg.RTR_DROP_GEN (t : Nat) : Nat := Reg.tileBase t + 0x9014
/-- `RTR_DROP_FENCED`: Closed-port drops, wrapping at 2^32 (08, R191). -/
def Reg.RTR_DROP_FENCED (t : Nat) : Nat := Reg.tileBase t + 0x9018
/-- `PRB_k_CTRL`: Enable, event, port, masks, trace (08, R191). -/
def Reg.PRB_CTRL (t i : Nat) : Nat := Reg.tileBase t + 0x9100 + i * 0x20
/-- `PRB_k_MATCH0`: Partition, source and destination filters (08, R191). -/
def Reg.PRB_MATCH0 (t i : Nat) : Nat := Reg.tileBase t + 0x9104 + i * 0x20
/-- `PRB_k_MATCH1`: Type mask (08, R191). -/
def Reg.PRB_MATCH1 (t i : Nat) : Nat := Reg.tileBase t + 0x9108 + i * 0x20
/-- `PRB_k_COUNT_LO`: Count [31:0] (08, R191). -/
def Reg.PRB_COUNT_LO (t i : Nat) : Nat := Reg.tileBase t + 0x910C + i * 0x20
/-- `PRB_k_COUNT_HI`: Count [47:32] in [15:0] (08, R191). -/
def Reg.PRB_COUNT_HI (t i : Nat) : Nat := Reg.tileBase t + 0x9110 + i * 0x20

/-- Base of the block: `TNOC_DETOUR_c` (R76). -/
def Reg.detourBase (c : Nat) : Nat := 0x2000F000 + c * 4
/-- `TNOC_DETOUR_c`: Detour state of column c (03, R76). -/
def Reg.TNOC_DETOUR (c : Nat) : Nat := Reg.detourBase c

/-- Base of the block: trace-buffer control of quarter q (R193). -/
def Reg.traceBase (q : Nat) : Nat := 0x20001000 + q * 0x100
/-- `PRB_TRq_CTRL`: Enable in [0]; mode in [2:1]: 0 wrap, 1 stop when full (08, R192). -/
def Reg.PRB_TR_CTRL (q : Nat) : Nat := Reg.traceBase q
/-- `PRB_TRq_PTR`: Next record index in [13:0]; wrapped in [16] (08, R192). -/
def Reg.PRB_TR_PTR (q : Nat) : Nat := Reg.traceBase q + 0x4
/-- `PRB_TRq_LOST`: Records lost, wrapping at 2^32 (08, R192). -/
def Reg.PRB_TR_LOST (q : Nat) : Nat := Reg.traceBase q + 0x8

/-- Base of the block: fabric sector s. -/
def Reg.sectorBase (s : Nat) : Nat := 0x30000000 + s * 0x1000
/-- `FAB_SECT_STATUS`: Owner, loaded, spines gated (09, R211). -/
def Reg.FAB_SECT_STATUS (s : Nat) : Nat := Reg.sectorBase s
/-- `FAB_SECT_PLL`: Column PLL lock (09, R211). -/
def Reg.FAB_SECT_PLL (s : Nat) : Nat := Reg.sectorBase s + 0x4

/-- Base of the block: fabric registers of partition p. -/
def Reg.fabPartBase (p : Nat) : Nat := 0x30020000 + p * 0x40
/-- `FAB_PARTp_REL`: Release gaps (09, R211). -/
def Reg.FAB_PART_REL (p : Nat) : Nat := Reg.fabPartBase p
/-- `FAB_PARTp_RELCTL`: Spine and stage (09, R211). -/
def Reg.FAB_PART_RELCTL (p : Nat) : Nat := Reg.fabPartBase p + 0x4

/-- Base of the block: north and south edge port of code e. -/
def Reg.edgeBase (e : Nat) : Nat := 0x30040000 + e * 0x100
/-- `EDGE_CTRL`: Timeout, abort, enable (09, R211). -/
def Reg.EDGE_CTRL (e : Nat) : Nat := Reg.edgeBase e
/-- `EDGE_STATUS`: Buffer use (09, R211). -/
def Reg.EDGE_STATUS (e : Nat) : Nat := Reg.edgeBase e + 0x4
/-- `EDGE_ERR`: Sticky error bits (09, R211). -/
def Reg.EDGE_ERR (e : Nat) : Nat := Reg.edgeBase e + 0x8
/-- `EDGE_MALFORMED_COUNT`: Malformed, stray and not-ready drops, wrapping at 2^32 (09, R211). -/
def Reg.EDGE_MALFORMED_COUNT (e : Nat) : Nat := Reg.edgeBase e + 0xC
/-- `EDGE_TIMEOUT_COUNT`: Timeout drops, wrapping at 2^32 (09, R211). -/
def Reg.EDGE_TIMEOUT_COUNT (e : Nat) : Nat := Reg.edgeBase e + 0x10
/-- `EDGE_NOCREDIT_COUNT`: Pairs without credit, wrapping at 2^32 (09, R211). -/
def Reg.EDGE_NOCREDIT_COUNT (e : Nat) : Nat := Reg.edgeBase e + 0x14
/-- `EDGE_IN_ROWS`: Rows pushed to tiles, wrapping at 2^32 (09, R211). -/
def Reg.EDGE_IN_ROWS (e : Nat) : Nat := Reg.edgeBase e + 0x18
/-- `EDGE_OUT_ROWS`: Rows released to the fabric, wrapping at 2^32 (09, R211). -/
def Reg.EDGE_OUT_ROWS (e : Nat) : Nat := Reg.edgeBase e + 0x1C
/-- `EDGE_REPUSH_ROWS`: Rows pushed again under R205, wrapping at 2^32 (09, R211). -/
def Reg.EDGE_REPUSH_ROWS (e : Nat) : Nat := Reg.edgeBase e + 0x20
/-- `EDGE_DROP_PART`: Packets dropped by the partition check of R188, wrapping at 2^32 (09, R211). -/
def Reg.EDGE_DROP_PART (e : Nat) : Nat := Reg.edgeBase e + 0x24
/-- `EDGE_DROP_GEN`: Packets dropped by the generation check of R189, wrapping at 2^32 (09, R211). -/
def Reg.EDGE_DROP_GEN (e : Nat) : Nat := Reg.edgeBase e + 0x28

/-- Base of the block: configuration controller. -/
def Reg.cfgBase : Nat := 0x30080000
/-- `CFG_STATUS`: Controller state and last result (10, R231). -/
def Reg.CFG_STATUS : Nat := Reg.cfgBase
/-- `CFG_IDCODE`: Device identity, as IEEE 1149.1 IDCODE (10, R231). -/
def Reg.CFG_IDCODE : Nat := Reg.cfgBase + 0x4
/-- `CFG_LOADED`: Bit s: sector s is loaded (10, R231). -/
def Reg.CFG_LOADED : Nat := Reg.cfgBase + 0x8
/-- `CFG_LOAD_ERR`: Reason and segment of the last failure (10, R231). -/
def Reg.CFG_LOAD_ERR : Nat := Reg.cfgBase + 0xC
/-- `CFG_PERMIT`: Sectors the current load may write (10, R231). -/
def Reg.CFG_PERMIT : Nat := Reg.cfgBase + 0x10
/-- `CFG_FUSE_POLICY`: Key sources, encryption required, key hash present (10, R231). -/
def Reg.CFG_FUSE_POLICY : Nat := Reg.cfgBase + 0x14
/-- `CFG_KEY_STATUS`: Key presence (10, R231). -/
def Reg.CFG_KEY_STATUS : Nat := Reg.cfgBase + 0x18
/-- `CFG_SCRUB_CTRL`: Scrubber enable (10, R231). -/
def Reg.CFG_SCRUB_CTRL : Nat := Reg.cfgBase + 0x20
/-- `CFG_SCRUB_POS`: Next frame to scrub (10, R231). -/
def Reg.CFG_SCRUB_POS : Nat := Reg.cfgBase + 0x24
/-- `CFG_SCRUB_PASSES`: Completed passes, wrapping at 2^32 (10, R231). -/
def Reg.CFG_SCRUB_PASSES : Nat := Reg.cfgBase + 0x28
/-- `CFG_SEU_CE_COUNT`: Groups corrected, wrapping at 2^32 (10, R231). -/
def Reg.CFG_SEU_CE_COUNT : Nat := Reg.cfgBase + 0x2C
/-- `CFG_SEU_UE_E_COUNT`: Essential uncorrectable groups, wrapping at 2^32 (10, R231). -/
def Reg.CFG_SEU_UE_E_COUNT : Nat := Reg.cfgBase + 0x30
/-- `CFG_SEU_UE_NE_COUNT`: Non-essential uncorrectable groups, wrapping at 2^32 (10, R231). -/
def Reg.CFG_SEU_UE_NE_COUNT : Nat := Reg.cfgBase + 0x34
/-- `CFG_UE_LIST0`–`CFG_UE_LIST15`: Listed frames (10, R231). -/
def Reg.CFG_UE_LIST (i : Nat) : Nat := Reg.cfgBase + 0x40 + i * 0x4

/-- Base of the block: link lane n. -/
def Reg.laneBase (n : Nat) : Nat := 0x40000000 + n * 0x1000
/-- `TPL_LANE_CTRL`: Enable, rate, polarity (11, R270). -/
def Reg.TPL_LANE_CTRL (n : Nat) : Nat := Reg.laneBase n
/-- `TPL_LANE_STATUS`: State, lock, ready, estimate (11, R270). -/
def Reg.TPL_LANE_STATUS (n : Nat) : Nat := Reg.laneBase n + 0x4
/-- `TPL_LANE_TAPS`: Own transmit taps (11, R270). -/
def Reg.TPL_LANE_TAPS (n : Nat) : Nat := Reg.laneBase n + 0x8
/-- `TPL_LANE_THRESH`: Ready threshold in [15:0] (11, R270). -/
def Reg.TPL_LANE_THRESH (n : Nat) : Nat := Reg.laneBase n + 0xC
/-- `TPL_LANE_FEC_CORR`: Corrected symbols, wrapping at 2^32 (11, R270). -/
def Reg.TPL_LANE_FEC_CORR (n : Nat) : Nat := Reg.laneBase n + 0x10
/-- `TPL_LANE_FEC_UNC`: Uncorrectable codewords, wrapping at 2^32 (11, R270). -/
def Reg.TPL_LANE_FEC_UNC (n : Nat) : Nat := Reg.laneBase n + 0x14

/-- Base of the block: link port p, named by its first lane (R255). -/
def Reg.portBase (p : Nat) : Nat := 0x48000000 + p * 0x100
/-- `TPL_PORT_CTRL`: Enable, width, upstream, through-port (11, R270). -/
def Reg.TPL_PORT_CTRL (p : Nat) : Nat := Reg.portBase p
/-- `TPL_PORT_STATUS`: Up, last down cause (11, R270). -/
def Reg.TPL_PORT_STATUS (p : Nat) : Nat := Reg.portBase p + 0x4
/-- `TPL_PORT_REPLAYS`: Replays, wrapping at 2^32 (11, R270). -/
def Reg.TPL_PORT_REPLAYS (p : Nat) : Nat := Reg.portBase p + 0x8
/-- `TPL_PORT_STALE`: Stale-epoch flits, wrapping at 2^32 (11, R270). -/
def Reg.TPL_PORT_STALE (p : Nat) : Nat := Reg.portBase p + 0xC
/-- `TPL_PORT_DROPS`: Flits dropped under R261 and R263, wrapping at 2^32 (11, R270). -/
def Reg.TPL_PORT_DROPS (p : Nat) : Nat := Reg.portBase p + 0x10
/-- `TPL_PORT_ACCEPT`: Accepted epoch A in [15:0] (11, R270). -/
def Reg.TPL_PORT_ACCEPT (p : Nat) : Nat := Reg.portBase p + 0x14

/-- Base of the block: link channel c. -/
def Reg.chanBase (c : Nat) : Nat := 0x48010000 + c * 0x20
/-- `CHN_CTRL`: Enable, direction, mode, port, VC, owner (11, R270). -/
def Reg.CHN_CTRL (c : Nat) : Nat := Reg.chanBase c
/-- `CHN_REMOTE`: Remote channel, hops, endpoint (11, R270). -/
def Reg.CHN_REMOTE (c : Nat) : Nat := Reg.chanBase c + 0x4
/-- `CHN_LOCAL`: Edge code, tile, context, item size (11, R270). -/
def Reg.CHN_LOCAL (c : Nat) : Nat := Reg.chanBase c + 0x8
/-- `CHN_STATUS`: State, credit, items held (11, R270). -/
def Reg.CHN_STATUS (c : Nat) : Nat := Reg.chanBase c + 0xC
/-- `CHN_ROWS`: Rows passed, wrapping at 2^32 (11, R270). -/
def Reg.CHN_ROWS (c : Nat) : Nat := Reg.chanBase c + 0x10

/-- Base of the block: Route registers. -/
def Reg.routeBase : Nat := 0x48020000
/-- `TPL_EPOCH`: Current epoch E in [15:0] (11, R270). -/
def Reg.TPL_EPOCH : Nat := Reg.routeBase
/-- `TPL_EPOCH_NEXT`: Pending epoch in [15:0]; armed in [31], cleared by hardware at M (11, R270). -/
def Reg.TPL_EPOCH_NEXT : Nat := Reg.routeBase + 0x4
/-- `TPL_EPOCH_AT_LO`: Milestone M [31:0] (11, R270). -/
def Reg.TPL_EPOCH_AT_LO : Nat := Reg.routeBase + 0x8
/-- `TPL_EPOCH_AT_HI`: Milestone M [47:32] in [15:0] (11, R270). -/
def Reg.TPL_EPOCH_AT_HI : Nat := Reg.routeBase + 0xC
/-- `TPL_EP_ID`: Own endpoint ID in [15:0] (11, R270). -/
def Reg.TPL_EP_ID : Nat := Reg.routeBase + 0x10
/-- `TPL_FENCE`: Fenced in [0]; cause in [1]; epoch seen in [31:16] (11, R270). -/
def Reg.TPL_FENCE : Nat := Reg.routeBase + 0x14
/-- `TPL_FENCE_TIMEOUT`: Fence timeout, µs (11, R270). -/
def Reg.TPL_FENCE_TIMEOUT : Nat := Reg.routeBase + 0x18

/-- Base of the block: DRAM channel ch. -/
def Reg.ddrBase (ch : Nat) : Nat := 0x50000000 + ch * 0x10000
/-- `DDR_CTRL`: Enable, channel reset (12, R294). -/
def Reg.DDR_CTRL (ch : Nat) : Nat := Reg.ddrBase ch
/-- `DDR_STATUS`: Channel state (12, R294). -/
def Reg.DDR_STATUS (ch : Nat) : Nat := Reg.ddrBase ch + 0x4
/-- `DDR_ORG`: Organisation found at B6 (12, R294). -/
def Reg.DDR_ORG (ch : Nat) : Nat := Reg.ddrBase ch + 0x8
/-- `DDR_PORT0_QOS`–`DDR_PORT5_QOS`: Latency target (12, R294). -/
def Reg.DDR_PORT_QOS (ch i : Nat) : Nat := Reg.ddrBase ch + 0x10 + i * 0x4
/-- `DDR_PORT0_MISS`–`DDR_PORT5_MISS`: Target misses, wrapping at 2^32 (12, R294). -/
def Reg.DDR_PORT_MISS (ch i : Nat) : Nat := Reg.ddrBase ch + 0x30 + i * 0x4
/-- `DDR_PAGE_CTRL`: Page predictor threshold, idle close (12, R294). -/
def Reg.DDR_PAGE_CTRL (ch : Nat) : Nat := Reg.ddrBase ch + 0x50
/-- `DDR_REF_CTRL`: Postponement limit (12, R294). -/
def Reg.DDR_REF_CTRL (ch : Nat) : Nat := Reg.ddrBase ch + 0x54
/-- `DDR_REF_FORCED`: Forced refreshes, wrapping at 2^32 (12, R294). -/
def Reg.DDR_REF_FORCED (ch : Nat) : Nat := Reg.ddrBase ch + 0x58
/-- `DDR_SR_CTRL`: Self-refresh idle time (12, R294). -/
def Reg.DDR_SR_CTRL (ch : Nat) : Nat := Reg.ddrBase ch + 0x5C
/-- `DDR_TRAIN_CTRL`: Retraining interval, margin (12, R294). -/
def Reg.DDR_TRAIN_CTRL (ch : Nat) : Nat := Reg.ddrBase ch + 0x60
/-- `DDR_TRAIN_STATUS`: Narrowest margin of the last pass (12, R294). -/
def Reg.DDR_TRAIN_STATUS (ch : Nat) : Nat := Reg.ddrBase ch + 0x64
/-- `DDR_SCRUB_CTRL`: Scrub interval, enable (12, R294). -/
def Reg.DDR_SCRUB_CTRL (ch : Nat) : Nat := Reg.ddrBase ch + 0x70
/-- `DDR_SCRUB_POS`: Next burst, in [29:0] (12, R294). -/
def Reg.DDR_SCRUB_POS (ch : Nat) : Nat := Reg.ddrBase ch + 0x74
/-- `DDR_SCRUB_PASSES`: Completed passes, wrapping at 2^32 (12, R294). -/
def Reg.DDR_SCRUB_PASSES (ch : Nat) : Nat := Reg.ddrBase ch + 0x78
/-- `DDR_CE_COUNT`: DRAM_CE events, wrapping at 2^32 (12, R294). -/
def Reg.DDR_CE_COUNT (ch : Nat) : Nat := Reg.ddrBase ch + 0x80
/-- `DDR_CE_CHECK_COUNT`: DRAM_CE_CHECK events, wrapping at 2^32 (12, R294). -/
def Reg.DDR_CE_CHECK_COUNT (ch : Nat) : Nat := Reg.ddrBase ch + 0x84
/-- `DDR_UE_COUNT`: DRAM_UE events, wrapping at 2^32 (12, R294). -/
def Reg.DDR_UE_COUNT (ch : Nat) : Nat := Reg.ddrBase ch + 0x88
/-- `DDR_UE_ADDR_LO`: First uncorrectable address [31:0] (12, R294). -/
def Reg.DDR_UE_ADDR_LO (ch : Nat) : Nat := Reg.ddrBase ch + 0x8C
/-- `DDR_UE_ADDR_HI`: Address [39:32] in [7:0] (12, R294). -/
def Reg.DDR_UE_ADDR_HI (ch : Nat) : Nat := Reg.ddrBase ch + 0x90
/-- `DDR_UE_STATUS`: Uncorrectable seen, more (12, R294). -/
def Reg.DDR_UE_STATUS (ch : Nat) : Nat := Reg.ddrBase ch + 0x94

/-- Base of the block: DRAM map and partition ranges. -/
def Reg.ddrMapBase : Nat := 0x50080000
/-- `DDR_MAP_CTRL`: Map mode in [0], as R275 (12, R294). -/
def Reg.DDR_MAP_CTRL : Nat := Reg.ddrMapBase
/-- `DDR_PART0_RANGE`–`DDR_PART15_RANGE`: Base of partition p, MiB, in [19:0]; valid in [31] (12, R294). -/
def Reg.DDR_PART_RANGE (i : Nat) : Nat := Reg.ddrMapBase + 0x100 + i * 0x8
/-- `DDR_PART0_LIMIT`–`DDR_PART15_LIMIT`: Limit of partition p, MiB, exclusive, in [19:0] (12, R294). -/
def Reg.DDR_PART_LIMIT (i : Nat) : Nat := Reg.ddrMapBase + 0x104 + i * 0x8

/-- Base of the block: time unit. -/
def Reg.timeBase : Nat := 0x70000000
/-- `TIME_MS_PERIOD`: Period in force, in 8 ns units (02, R31). -/
def Reg.TIME_MS_PERIOD : Nat := Reg.timeBase + 0x100
/-- `TIME_MS_PERIOD_NEXT`: Period to apply at the change milestone (02, R31). -/
def Reg.TIME_MS_PERIOD_NEXT : Nat := Reg.timeBase + 0x104
/-- `TIME_MS_CHANGE_LO`: Change milestone [31:0] (02, R31). -/
def Reg.TIME_MS_CHANGE_LO : Nat := Reg.timeBase + 0x108
/-- `TIME_MS_CHANGE_HI`: Change milestone [47:32] and armed bit (02, R31). -/
def Reg.TIME_MS_CHANGE_HI : Nat := Reg.timeBase + 0x10C
/-- `TIME_MS_COUNT_LO`: Current milestone number [31:0] (02, R31). -/
def Reg.TIME_MS_COUNT_LO : Nat := Reg.timeBase + 0x110
/-- `TIME_MS_COUNT_HI`: Current milestone number [47:32] in [15:0] (02, R31). -/
def Reg.TIME_MS_COUNT_HI : Nat := Reg.timeBase + 0x114
/-- `TIME_MS_BASE_N_LO`: Base milestone number [31:0] (02, R31). -/
def Reg.TIME_MS_BASE_N_LO : Nat := Reg.timeBase + 0x118
/-- `TIME_MS_BASE_N_HI`: Base milestone number [47:32] in [15:0] (02, R31). -/
def Reg.TIME_MS_BASE_N_HI : Nat := Reg.timeBase + 0x11C
/-- `TIME_MS_BASE_T_LO`: Base Route time, ns [31:0] (02, R31). -/
def Reg.TIME_MS_BASE_T_LO : Nat := Reg.timeBase + 0x120
/-- `TIME_MS_BASE_T_HI`: Base Route time, ns [63:32] (02, R31). -/
def Reg.TIME_MS_BASE_T_HI : Nat := Reg.timeBase + 0x124
/-- `TIME_MS_CTRL`: Milestone and MS_OUT enables (02, R31). -/
def Reg.TIME_MS_CTRL : Nat := Reg.timeBase + 0x128
/-- `TIME_MS_TREE_DELAY`: Compensated tree delay, ns, in [9:0] (02, R31). -/
def Reg.TIME_MS_TREE_DELAY : Nat := Reg.timeBase + 0x12C
/-- `TIME_CTRL`: Role, reference, pin enables (14, R330). -/
def Reg.TIME_CTRL : Nat := Reg.timeBase
/-- `TIME_STATUS`: State, presence, distance (14, R330). -/
def Reg.TIME_STATUS : Nat := Reg.timeBase + 0x4
/-- `TIME_NOW_LO`: Route time ns [31:0]; a read latches the next two (14, R330). -/
def Reg.TIME_NOW_LO : Nat := Reg.timeBase + 0x8
/-- `TIME_NOW_HI`: Route time ns [63:32], as latched (14, R330). -/
def Reg.TIME_NOW_HI : Nat := Reg.timeBase + 0xC
/-- `TIME_NOW_FRAC`: Fraction in [15:0], as latched (14, R330). -/
def Reg.TIME_NOW_FRAC : Nat := Reg.timeBase + 0x10
/-- `TIME_FREQ`: Frequency trim, signed, 0.001 ppm units, in [23:0] (14, R330). -/
def Reg.TIME_FREQ : Nat := Reg.timeBase + 0x14
/-- `TIME_OFFSET`: Last φ, signed, ps (14, R330). -/
def Reg.TIME_OFFSET : Nat := Reg.timeBase + 0x18
/-- `TIME_DELAY`: Last path delay, ps (14, R330). -/
def Reg.TIME_DELAY : Nat := Reg.timeBase + 0x1C
/-- `TIME_EXCH_CTRL`: Interval, upstream port, hops (14, R330). -/
def Reg.TIME_EXCH_CTRL : Nat := Reg.timeBase + 0x20
/-- `TIME_ASYM`: Path asymmetry a, signed, ps (14, R330). -/
def Reg.TIME_ASYM : Nat := Reg.timeBase + 0x24
/-- `TIME_LIMITS`: Offset limit, slew limit (14, R330). -/
def Reg.TIME_LIMITS : Nat := Reg.timeBase + 0x28
/-- `TIME_PTM_HOST_LO`: Host time of the last PTM pair [31:0] (14, R330). -/
def Reg.TIME_PTM_HOST_LO : Nat := Reg.timeBase + 0x2C
/-- `TIME_PTM_HOST_HI`: Host time [63:32] (14, R330). -/
def Reg.TIME_PTM_HOST_HI : Nat := Reg.timeBase + 0x30
/-- `TIME_PTM_ROUTE_LO`: Route time of the pair [31:0] (14, R330). -/
def Reg.TIME_PTM_ROUTE_LO : Nat := Reg.timeBase + 0x34
/-- `TIME_PTM_ROUTE_HI`: Route time [63:32] (14, R330). -/
def Reg.TIME_PTM_ROUTE_HI : Nat := Reg.timeBase + 0x38
/-- `TIME_PTM_CTRL`: PTM interval, valid (14, R330). -/
def Reg.TIME_PTM_CTRL : Nat := Reg.timeBase + 0x3C
/-- `TIME_EXCH_EP`: Upstream endpoint and endpoint addressing enable (14, R330). -/
def Reg.TIME_EXCH_EP : Nat := Reg.timeBase + 0x40

/-- Base of the block: power manager. -/
def Reg.pwrBase : Nat := 0x71000000
/-- `PWR_GOV_CTRL`: Enable, slack target, band, lowering delay (02, R50). -/
def Reg.PWR_GOV_CTRL : Nat := Reg.pwrBase + 0x100
/-- `PWR_GOV_Q0_VOLT`–`Q3_VOLT`: VDD_Tq in [7:0] and floor in [15:8], in 5 mV units (02, R50). -/
def Reg.PWR_GOV_VOLT (i : Nat) : Nat := Reg.pwrBase + 0x104 + i * 0x4
/-- `PWR_GOV_Q0_SLACK`–`Q3_SLACK`: Minimum slack of the last loop, 0.1 % units, in [9:0]; late seen in [10] (02, R50). -/
def Reg.PWR_GOV_SLACK (i : Nat) : Nat := Reg.pwrBase + 0x114 + i * 0x4
/-- `PWR_STATUS`: Device rung, transitions, trip (15, R347). -/
def Reg.PWR_STATUS : Nat := Reg.pwrBase
/-- `PWR_DEV_RUNG`: Rung for the YMP's wait (15, R347). -/
def Reg.PWR_DEV_RUNG : Nat := Reg.pwrBase + 0x4
/-- `PWR_LIMIT`: Power limit, W (15, R347). -/
def Reg.PWR_LIMIT : Nat := Reg.pwrBase + 0x8
/-- `PWR_MEAS`: Device power, 1 ms average (15, R347). -/
def Reg.PWR_MEAS : Nat := Reg.pwrBase + 0xC
/-- `PWR_TJ`: Highest Tj and where (15, R347). -/
def Reg.PWR_TJ : Nat := Reg.pwrBase + 0x10
/-- `PWR_THERM_CTRL`: Thermal thresholds (15, R347). -/
def Reg.PWR_THERM_CTRL : Nat := Reg.pwrBase + 0x14
/-- `PWR_Q0_CEIL`–`PWR_Q3_CEIL`: Quarter ceiling and cause (15, R347). -/
def Reg.PWR_CEIL (i : Nat) : Nat := Reg.pwrBase + 0x18 + i * 0x4
/-- `PWR_AVS_TIMEOUTS`: AVS_TIMEOUT events, wrapping at 2^32 (15, R347). -/
def Reg.PWR_AVS_TIMEOUTS : Nat := Reg.pwrBase + 0x28
/-- `PWR_RAMP_CTRL`: Ramp monitor (15, R347). -/
def Reg.PWR_RAMP_CTRL : Nat := Reg.pwrBase + 0x30
/-- `PWR_PART0`–`PWR_PART15`: Share, rung, power of partition p (15, R347). -/
def Reg.PWR_PART (i : Nat) : Nat := Reg.pwrBase + 0x200 + i * 0x4
/-- `PWR_RAILr_V`: Rail voltage (15, R347). -/
def Reg.PWR_RAIL_V (i : Nat) : Nat := Reg.pwrBase + 0x300 + i * 0x8
/-- `PWR_RAILr_I`: Rail current (15, R347). -/
def Reg.PWR_RAIL_I (i : Nat) : Nat := Reg.pwrBase + 0x304 + i * 0x8

/-- Base of the block: error log. -/
def Reg.logBase : Nat := 0x72000000
/-- `LOG_STATUS`: Slots used in [12:0]; full in [16] (16, R376). -/
def Reg.LOG_STATUS : Nat := Reg.logBase
/-- `LOG_NEXT`: Slot of the last write, in [11:0]; next sequence number of R394, in [31:16] (16, R376). -/
def Reg.LOG_NEXT : Nat := Reg.logBase + 0x4
/-- `LOG_CORR_COUNTED`: CORRECTED records not kept, wrapping at 2^32 (16, R376). -/
def Reg.LOG_CORR_COUNTED : Nat := Reg.logBase + 0x8
/-- `LOG_LOST`: Records dropped under R372, wrapping at 2^32 (16, R376). -/
def Reg.LOG_LOST : Nat := Reg.logBase + 0xC

/-- Base of the block: crash dump. -/
def Reg.dumpBase : Nat := 0x72001000
/-- `DUMP_BASE_LO`: Region address [31:0] (16, R376). -/
def Reg.DUMP_BASE_LO : Nat := Reg.dumpBase
/-- `DUMP_BASE_HI`: Region address [39:32] in [7:0] (16, R376). -/
def Reg.DUMP_BASE_HI : Nat := Reg.dumpBase + 0x4
/-- `DUMP_STATUS`: Slot states (16, R376). -/
def Reg.DUMP_STATUS : Nat := Reg.dumpBase + 0x8
/-- `DUMP_LOST_COUNT`: DUMP_LOST events, wrapping at 2^32 (16, R376). -/
def Reg.DUMP_LOST_COUNT : Nat := Reg.dumpBase + 0xC
/-- `DUMP_SLOT0`–`DUMP_SLOT3`: Partition and size of slot s (16, R376). -/
def Reg.DUMP_SLOT (i : Nat) : Nat := Reg.dumpBase + 0x10 + i * 0x4

/-- Base of the block: boot and recovery. -/
def Reg.bootBase : Nat := 0x72002000
/-- `BOOT_STATUS`: Step, ready, retries, warm (16, R376). -/
def Reg.BOOT_STATUS : Nat := Reg.bootBase
/-- `BOOT_COUNT`: Boot count of the current boot (16, R376). -/
def Reg.BOOT_COUNT : Nat := Reg.bootBase + 0x4
/-- `BOOT_STATE`: Flags of the current STATE entry, in [7:0] (16, R376). -/
def Reg.BOOT_STATE : Nat := Reg.bootBase + 0x8
/-- `BOOT_REC_CTRL`: Trial length and link wait (16, R376). -/
def Reg.BOOT_REC_CTRL : Nat := Reg.bootBase + 0x10
/-- `BOOT_REC_REPEAT`: repeat_beats in [15:0] (16, R376). -/
def Reg.BOOT_REC_REPEAT : Nat := Reg.bootBase + 0x14
/-- `BOOT_HANG_CTRL`: Stall and engine bounds (16, R376). -/
def Reg.BOOT_HANG_CTRL : Nat := Reg.bootBase + 0x18

/-- Base of the block: beat control block of partition p. -/
def Reg.beatBase (p : Nat) : Nat := 0x73008000 + p * 0x100
/-- `PART_BEAT_CTRL`: Slip limit (02, R35). -/
def Reg.PART_BEAT_CTRL (p : Nat) : Nat := Reg.beatBase p
/-- `PART_BEAT_STATUS`: State, last outcome, consecutive slips, attempt (02, R35). -/
def Reg.PART_BEAT_STATUS (p : Nat) : Nat := Reg.beatBase p + 0x4
/-- `PART_STEP_LO`: Step counter [31:0] (02, R35). -/
def Reg.PART_STEP_LO (p : Nat) : Nat := Reg.beatBase p + 0x8
/-- `PART_STEP_HI`: Step counter [47:32] in [15:0] (02, R35). -/
def Reg.PART_STEP_HI (p : Nat) : Nat := Reg.beatBase p + 0xC
/-- `PART_START_AT_LO`: START milestone [31:0] (02, R35). -/
def Reg.PART_START_AT_LO (p : Nat) : Nat := Reg.beatBase p + 0x10
/-- `PART_START_AT_HI`: START milestone [47:32] in [15:0]; armed in [31] (02, R35). -/
def Reg.PART_START_AT_HI (p : Nat) : Nat := Reg.beatBase p + 0x14
/-- `PART_STOP_AT_LO`: STOP milestone [31:0] (02, R35). -/
def Reg.PART_STOP_AT_LO (p : Nat) : Nat := Reg.beatBase p + 0x18
/-- `PART_STOP_AT_HI`: STOP milestone [47:32] in [15:0]; armed in [31] (02, R35). -/
def Reg.PART_STOP_AT_HI (p : Nat) : Nat := Reg.beatBase p + 0x1C
/-- `PART_COMMIT_COUNT`: Commits, wrapping at 2^32 (02, R35). -/
def Reg.PART_COMMIT_COUNT (p : Nat) : Nat := Reg.beatBase p + 0x20
/-- `PART_SLIP_COUNT`: Slips, wrapping at 2^32 (02, R35). -/
def Reg.PART_SLIP_COUNT (p : Nat) : Nat := Reg.beatBase p + 0x24
/-- `PART_GAP_COUNT`: Gap beats, wrapping at 2^32 (02, R35). -/
def Reg.PART_GAP_COUNT (p : Nat) : Nat := Reg.beatBase p + 0x28
/-- `PART_GAP_ABSORBED`: Stale gap items dropped, wrapping at 2^32 (02, R35). -/
def Reg.PART_GAP_ABSORBED (p : Nat) : Nat := Reg.beatBase p + 0x2C
/-- `PART_VAR_SEQ_LO`: Variant entries 0–9, 3 bits each, entry i at [3i+2:3i] (02, R35). -/
def Reg.PART_VAR_SEQ_LO (p : Nat) : Nat := Reg.beatBase p + 0x30
/-- `PART_VAR_SEQ_HI`: Entries 10–15 at [17:0]; len − 1 at [27:24] (02, R35). -/
def Reg.PART_VAR_SEQ_HI (p : Nat) : Nat := Reg.beatBase p + 0x34
/-- `PART_VAR_BUDGET0`–`7`: Declared handshake budget of variant v, in [19:0] (02, R35). -/
def Reg.PART_VAR_BUDGET (p i : Nat) : Nat := Reg.beatBase p + 0x40 + i * 0x4
/-- `PART_BEAT_IN0`–`7`: Beat-input mask; register i bit b is channel 32i + b (02, R35). -/
def Reg.PART_BEAT_IN (p i : Nat) : Nat := Reg.beatBase p + 0x60 + i * 0x4
/-- `PART_HOLD_DROP`: Items discarded beyond the hold window while FROZEN (02, R35). -/
def Reg.PART_HOLD_DROP (p : Nat) : Nat := Reg.beatBase p + 0x80

/-- Base of the block: BAR0 mailbox registers of function fn; the spec gives them no management address, so the key is the model's own (log entry 3). -/
def Reg.mbxBase (fn : Nat) : Nat := 0x100000000 + fn * 0x4000
/-- `MBX_ID`: Function and partition (13, R300). -/
def Reg.MBX_ID (fn : Nat) : Nat := Reg.mbxBase fn
/-- `MBX_STATUS`: Ready, firmware lost, ring error, fenced (13, R300). -/
def Reg.MBX_STATUS (fn : Nat) : Nat := Reg.mbxBase fn + 0x4
/-- `MBX_HEARTBEAT`: Firmware heartbeat count, wrapping at 2^32 (13, R300). -/
def Reg.MBX_HEARTBEAT (fn : Nat) : Nat := Reg.mbxBase fn + 0x8
/-- `MBX_CTRL`: Ring enable, interrupt enables, debug (13, R300). -/
def Reg.MBX_CTRL (fn : Nat) : Nat := Reg.mbxBase fn + 0xC
/-- `MBX_REQ_BASE_LO`: Request ring address [31:0] (13, R300). -/
def Reg.MBX_REQ_BASE_LO (fn : Nat) : Nat := Reg.mbxBase fn + 0x10
/-- `MBX_REQ_BASE_HI`: Request ring address [63:32] (13, R300). -/
def Reg.MBX_REQ_BASE_HI (fn : Nat) : Nat := Reg.mbxBase fn + 0x14
/-- `MBX_CPL_BASE_LO`: Completion ring address [31:0] (13, R300). -/
def Reg.MBX_CPL_BASE_LO (fn : Nat) : Nat := Reg.mbxBase fn + 0x18
/-- `MBX_CPL_BASE_HI`: Completion ring address [63:32] (13, R300). -/
def Reg.MBX_CPL_BASE_HI (fn : Nat) : Nat := Reg.mbxBase fn + 0x1C
/-- `MBX_NTC_BASE_LO`: Notice ring address [31:0] (13, R300). -/
def Reg.MBX_NTC_BASE_LO (fn : Nat) : Nat := Reg.mbxBase fn + 0x20
/-- `MBX_NTC_BASE_HI`: Notice ring address [63:32] (13, R300). -/
def Reg.MBX_NTC_BASE_HI (fn : Nat) : Nat := Reg.mbxBase fn + 0x24
/-- `MBX_REQ_TAIL`: Doorbell: requests posted, in [15:0] (13, R300). -/
def Reg.MBX_REQ_TAIL (fn : Nat) : Nat := Reg.mbxBase fn + 0x40
/-- `MBX_CPL_HEAD`: Doorbell: completions consumed, in [15:0] (13, R300). -/
def Reg.MBX_CPL_HEAD (fn : Nat) : Nat := Reg.mbxBase fn + 0x44
/-- `MBX_NTC_HEAD`: Doorbell: notices consumed, in [15:0] (13, R300). -/
def Reg.MBX_NTC_HEAD (fn : Nat) : Nat := Reg.mbxBase fn + 0x48
/-- `MBX_COUNTS`: Requests taken in [15:0]; completions written in [31:16] (13, R300). -/
def Reg.MBX_COUNTS (fn : Nat) : Nat := Reg.mbxBase fn + 0x4C
/-- `MBX_NTC_COUNT`: Notices written in [15:0] (13, R300). -/
def Reg.MBX_NTC_COUNT (fn : Nat) : Nat := Reg.mbxBase fn + 0x50
/-- `MBX_NTC_LOST`: Notices discarded, wrapping at 2^32 (13, R300). -/
def Reg.MBX_NTC_LOST (fn : Nat) : Nat := Reg.mbxBase fn + 0x54
/-- Word i of the MSI-X table of a function, 4 words for each of its 3 vectors (13, R297). -/
def Reg.MSIX_TABLE (fn i : Nat) : Nat := Reg.mbxBase fn + 0x1000 + i * 4
/-- The MSI-X pending bits of a function (13, R297). -/
def Reg.MSIX_PBA (fn i : Nat) : Nat := Reg.mbxBase fn + 0x1800 + i * 4
/-- The device ID of a function in [31:16], in its configuration space (13, R296; the key is the model's own, log entry 3). -/
def Reg.PCI_ID (fn : Nat) : Nat := Reg.mbxBase fn + 0x3000
/-- The MSI-X control of a function's configuration space: enable in [31], function mask in [30] (13, R295, R306; log entry 20). -/
def Reg.PCI_MSIX (fn : Nat) : Nat := Reg.mbxBase fn + 0x3004
/-- The power state of a function in [1:0], 0 D0 or 3 D3hot (13, R295; log entry 20). -/
def Reg.PCI_PM (fn : Nat) : Nat := Reg.mbxBase fn + 0x3008
/-- The AER status of a function: uncorrectable (0) and correctable (1) errors (13, R295; log entry 20). -/
def Reg.PCI_AER (fn i : Nat) : Nat := Reg.mbxBase fn + 0x300C + i * 4

/-! The rows of each block: offset, run length, run stride, then the masks RW, RWL, W1C, W1S and of the bits that ignore writes, and the reset value. -/

/-- Rows of the block `tile`. -/
def RegMap.tileRows0 : List RegRow := [
  ⟨0x1100, 1, 0x4, 0x0, 0x0, 0x0, 0x0, 0xFFFFFFFF, 0x0⟩,
  ⟨0x1104, 1, 0x4, 0x0, 0x0, 0x0, 0x0, 0xFFFFFFFF, 0x0⟩,
  ⟨0x1108, 1, 0x4, 0x0, 0x0, 0x0, 0x0, 0xFFFFFFFF, 0x0⟩,
  ⟨0x110C, 1, 0x4, 0x1FFFFF, 0x0, 0x0, 0x0, 0x0, 0xFFFFF⟩,
  ⟨0x1110, 1, 0x4, 0x0, 0x0, 0x0, 0x0, 0xFFFFFFFF, 0x0⟩,
  ⟨0x1114, 1, 0x4, 0x0, 0x0, 0x0, 0x0, 0xFFFFFFFF, 0x0⟩,
  ⟨0x1118, 1, 0x4, 0x0, 0x0, 0x0, 0x0, 0xFFFFFFFF, 0x0⟩,
  ⟨0x111C, 1, 0x4, 0x0, 0x0, 0x0, 0x0, 0xFFFFFFFF, 0x0⟩,
  ⟨0x1120, 1, 0x4, 0x0, 0x0, 0x0, 0x0, 0xFFFFFFFF, 0x0⟩,
  ⟨0x1800, 128, 0x10, 0x0, 0x7FFFFF, 0x0, 0x0, 0x0, 0x0⟩,
  ⟨0x1804, 128, 0x10, 0x0, 0x7FFFFF, 0x0, 0x0, 0x0, 0x0⟩,
  ⟨0x1808, 128, 0x10, 0x0, 0x7FFFFF, 0x0, 0x0, 0x0, 0x0⟩,
  ⟨0x180C, 128, 0x10, 0x0, 0x4000FFFF, 0x20000000, 0x80000000, 0x0, 0x0⟩,
  ⟨0x0, 1, 0x4, 0x0, 0x0, 0x0, 0x0, 0xFFFFFFFF, 0x0⟩,
  ⟨0x4, 1, 0x4, 0x0, 0xFF0F, 0x0, 0x0, 0x0, 0x0⟩,
  ⟨0x8, 1, 0x4, 0x1, 0x0, 0x0, 0x2, 0x0, 0x0⟩,
  ⟨0xC, 1, 0x4, 0x0, 0x0, 0x0, 0x0, 0xFFFFFFFF, 0x0⟩,
  ⟨0x10, 1, 0x4, 0x0, 0x0, 0xFF, 0x0, 0x0, 0x0⟩,
  ⟨0x5000, 2, 0x800, 0x3, 0x0, 0x0, 0x0, 0x0, 0x0⟩,
  ⟨0x5004, 2, 0x800, 0x0, 0x0, 0x0, 0x0, 0xFFFFFFFF, 0x0⟩,
  ⟨0x5008, 2, 0x800, 0x0, 0x0, 0x3, 0x0, 0x11F1F00, 0x0⟩,
  ⟨0x500C, 2, 0x800, 0x0, 0x0, 0x1, 0x0, 0x0, 0x0⟩,
  ⟨0x5010, 2, 0x800, 0x0, 0x0, 0x0, 0x0, 0xFFFFFFFF, 0x0⟩,
  ⟨0x5014, 2, 0x800, 0x0, 0x0, 0x0, 0x0, 0xFFFFFFFF, 0x0⟩
]
/-- Rows of the block `tile`. -/
def RegMap.tileRows1 : List RegRow := [
  ⟨0x5018, 2, 0x800, 0x0, 0x0, 0x0, 0x0, 0xFFFFFFFF, 0x0⟩,
  ⟨0x501C, 2, 0x800, 0x0, 0x0, 0x0, 0x0, 0xFFFFFFFF, 0x0⟩,
  ⟨0x6000, 1, 0x4, 0x3, 0x0, 0x0, 0x0, 0x0, 0x0⟩,
  ⟨0x6004, 1, 0x4, 0x0, 0x0, 0x0, 0x0, 0xFFFFFFFF, 0x0⟩,
  ⟨0x6008, 1, 0x4, 0x0, 0x0, 0x3, 0x0, 0x3FF0000, 0x0⟩,
  ⟨0x600C, 1, 0x4, 0x0, 0x0, 0x1, 0x0, 0x0, 0x0⟩,
  ⟨0x6010, 1, 0x4, 0x0, 0x0, 0x0, 0x0, 0xFFFFFFFF, 0x0⟩,
  ⟨0x7000, 1, 0x4, 0x3, 0x0, 0x0, 0x0, 0x0, 0x0⟩,
  ⟨0x7004, 1, 0x4, 0x0, 0x0, 0x0, 0x0, 0xFFFFFFFF, 0x0⟩,
  ⟨0x7008, 1, 0x4, 0x0, 0x0, 0x1F, 0x0, 0x0, 0x0⟩,
  ⟨0x8000, 1, 0x4, 0x1, 0x0, 0x0, 0x0, 0x0, 0x1⟩,
  ⟨0x8004, 1, 0x4, 0xFFFF, 0x0, 0x0, 0x0, 0x0, 0x3E8⟩,
  ⟨0x8008, 1, 0x4, 0x0, 0x0, 0x0, 0x0, 0xFFFFFFFF, 0x0⟩,
  ⟨0x800C, 1, 0x4, 0x0, 0x0, 0x0, 0x0, 0xFFFFFFFF, 0x0⟩,
  ⟨0x8010, 1, 0x4, 0x0, 0x0, 0x0, 0x0, 0xFFFFFFFF, 0x0⟩,
  ⟨0x8014, 1, 0x4, 0x0, 0x0, 0x0, 0x0, 0xFFFFFFFF, 0x0⟩,
  ⟨0x8018, 1, 0x4, 0x0, 0x0, 0x0, 0x0, 0xFFFFFFFF, 0x0⟩,
  ⟨0x801C, 1, 0x4, 0x0, 0x0, 0x0, 0x0, 0xFFFFFFFF, 0x0⟩,
  ⟨0x8020, 1, 0x4, 0x0, 0x0, 0x0, 0x0, 0xFFFFFFFF, 0x0⟩,
  ⟨0x8024, 1, 0x4, 0x0, 0x0, 0x3, 0x0, 0x0, 0x0⟩,
  ⟨0x8028, 1, 0x4, 0x0, 0x0, 0x0, 0x0, 0xFFFFFFFF, 0x0⟩,
  ⟨0x4000, 1, 0x4, 0x0, 0x0, 0x0, 0x0, 0xFFFFFFFF, 0x0⟩,
  ⟨0x4004, 1, 0x4, 0x0, 0x0, 0x0, 0x0, 0xFFFFFFFF, 0x0⟩,
  ⟨0x4008, 1, 0x4, 0x0, 0x0, 0x1, 0x0, 0xF70, 0x0⟩
]
/-- Rows of the block `tile`. -/
def RegMap.tileRows2 : List RegRow := [
  ⟨0x400C, 1, 0x4, 0x0, 0x0, 0xFF, 0x0, 0x0, 0x0⟩,
  ⟨0x4100, 8, 0x20, 0x0, 0xFFF001F, 0x0, 0x0, 0x0, 0x0⟩,
  ⟨0x4104, 8, 0x20, 0x0, 0x1FFF1FFF, 0x0, 0x0, 0x0, 0x0⟩,
  ⟨0x4108, 8, 0x20, 0x0, 0xFFFFFFFF, 0x0, 0x0, 0x0, 0x0⟩,
  ⟨0x410C, 8, 0x20, 0x0, 0xFF, 0x0, 0x0, 0x0, 0x0⟩,
  ⟨0x4110, 8, 0x20, 0x0, 0x1FFF, 0x0, 0x0, 0x0, 0x0⟩,
  ⟨0x4114, 8, 0x20, 0x0, 0x3F3F, 0x0, 0x0, 0x0, 0x0⟩,
  ⟨0x4118, 8, 0x20, 0x0, 0x0, 0x0, 0x0, 0xFFFFFFFF, 0x0⟩,
  ⟨0x411C, 8, 0x20, 0x0, 0x0, 0x0, 0x0, 0xFFFFFFFF, 0x0⟩,
  ⟨0x1000, 1, 0x4, 0x0, 0x0, 0x0, 0x0, 0xFFFFFFFF, 0x0⟩,
  ⟨0x1004, 1, 0x4, 0x0, 0x0, 0x0, 0x0, 0xFFFFFFFF, 0x0⟩,
  ⟨0x1008, 1, 0x4, 0x0, 0xFFF, 0x0, 0x0, 0x0, 0x0⟩,
  ⟨0x1010, 1, 0x4, 0x0, 0xFFFFFFFF, 0x0, 0x0, 0x0, 0x0⟩,
  ⟨0x1014, 1, 0x4, 0x0, 0xFFFFFFFF, 0x0, 0x0, 0x0, 0x0⟩,
  ⟨0x1018, 1, 0x4, 0x0, 0xFFFFFFFF, 0x0, 0x0, 0x0, 0x0⟩,
  ⟨0x101C, 1, 0x4, 0x0, 0xFFFFFFFF, 0x0, 0x0, 0x0, 0x0⟩,
  ⟨0x1020, 8, 0x4, 0x0, 0xFFF0FFF, 0x0, 0x0, 0x0, 0x0⟩,
  ⟨0x1040, 1, 0x4, 0x0, 0x0, 0x1, 0x0, 0xFFFFF6, 0x0⟩,
  ⟨0x1044, 1, 0x4, 0x0, 0x0, 0x0, 0x0, 0xFFFFFFFF, 0x0⟩,
  ⟨0x1048, 1, 0x4, 0x0, 0x0, 0x0, 0x0, 0xFFFFFFFF, 0x0⟩,
  ⟨0x2000, 1, 0x4, 0x0, 0x3, 0x0, 0x0, 0x0, 0x0⟩,
  ⟨0x2004, 1, 0x4, 0x0, 0x0, 0x0, 0x0, 0xFFFFFFFF, 0x0⟩,
  ⟨0x2008, 1, 0x4, 0x0, 0x0, 0x0, 0x0, 0xFFFFFFFF, 0x0⟩,
  ⟨0x200C, 1, 0x4, 0x0, 0x31F3F, 0x0, 0x0, 0x0, 0x0⟩
]
/-- Rows of the block `tile`. -/
def RegMap.tileRows3 : List RegRow := [
  ⟨0x2010, 1, 0x4, 0x3, 0x0, 0x0, 0x0, 0x0, 0x0⟩,
  ⟨0x2014, 1, 0x4, 0x0, 0x0, 0x0, 0x0, 0xFFFFFFFF, 0x0⟩,
  ⟨0x2018, 1, 0x4, 0x0, 0x1FFF, 0x0, 0x0, 0x0, 0x0⟩,
  ⟨0x201C, 1, 0x4, 0x0, 0xFFFFFFFF, 0x0, 0x0, 0x0, 0x0⟩,
  ⟨0x2020, 1, 0x4, 0x0, 0xFFFFFFFF, 0x0, 0x0, 0x0, 0x0⟩,
  ⟨0x2024, 1, 0x4, 0x0, 0x0, 0x0, 0x0, 0xFFFFFFFF, 0x0⟩,
  ⟨0x2100, 32, 0x4, 0x0, 0xFFFFFFFF, 0x0, 0x0, 0x0, 0x0⟩,
  ⟨0x2180, 4, 0x8, 0x0, 0xFFFFFFFF, 0x0, 0x0, 0x0, 0x0⟩,
  ⟨0x2184, 4, 0x8, 0x0, 0xFF, 0x0, 0x0, 0x0, 0x0⟩,
  ⟨0x21A0, 4, 0x4, 0x0, 0x3FFFFF, 0x0, 0x0, 0x0, 0x0⟩,
  ⟨0x21B0, 4, 0x4, 0x0, 0x3FFFFF, 0x0, 0x0, 0x0, 0x0⟩,
  ⟨0x21C0, 4, 0x4, 0x0, 0xFFFFFFFF, 0x0, 0x0, 0x0, 0x0⟩,
  ⟨0x21D0, 4, 0x4, 0x0, 0xFFFFFFFF, 0x0, 0x0, 0x0, 0x0⟩,
  ⟨0x3000, 64, 0x10, 0x0, 0xFFF, 0x0, 0x0, 0xFFF70000, 0x0⟩,
  ⟨0x3004, 64, 0x10, 0x0, 0x3FFF0FFF, 0x0, 0x0, 0x0, 0x0⟩,
  ⟨0x3008, 64, 0x10, 0x0, 0xFF03, 0x0, 0x0, 0x0, 0x0⟩,
  ⟨0x300C, 64, 0x10, 0x0, 0x0, 0x0, 0x0, 0xFFFFFFFF, 0x0⟩,
  ⟨0x3400, 1, 0x4, 0x0, 0x0, 0x1, 0x0, 0x733F00, 0x0⟩,
  ⟨0x3404, 1, 0x4, 0x0, 0x0, 0x0, 0x0, 0xFFFFFFFF, 0x0⟩,
  ⟨0x3408, 1, 0x4, 0x0, 0x0, 0x0, 0x0, 0xFFFFFFFF, 0x0⟩,
  ⟨0x340C, 1, 0x4, 0x0, 0x0, 0x0, 0x0, 0xFFFFFFFF, 0x0⟩,
  ⟨0x3410, 1, 0x4, 0x0, 0x0, 0x0, 0x0, 0xFFFFFFFF, 0x0⟩,
  ⟨0x3414, 1, 0x4, 0x0, 0x0, 0x0, 0x0, 0xFFFFFFFF, 0x0⟩,
  ⟨0x3418, 1, 0x4, 0x0, 0x0, 0x0, 0x0, 0xFFFFFFFF, 0x0⟩
]
/-- Rows of the block `tile`. -/
def RegMap.tileRows4 : List RegRow := [
  ⟨0x9000, 1, 0x4, 0x0, 0x1FF1F, 0x0, 0x0, 0x0, 0x0⟩,
  ⟨0x9004, 1, 0x4, 0x0, 0x333, 0x0, 0x0, 0x0, 0x212⟩,
  ⟨0x9008, 1, 0x4, 0x0, 0x0, 0x0, 0x0, 0xFFFFFFFF, 0x0⟩,
  ⟨0x900C, 1, 0x4, 0xFFFF, 0x0, 0x0, 0x0, 0x0, 0x64⟩,
  ⟨0x9010, 1, 0x4, 0x0, 0x0, 0x0, 0x0, 0xFFFFFFFF, 0x0⟩,
  ⟨0x9014, 1, 0x4, 0x0, 0x0, 0x0, 0x0, 0xFFFFFFFF, 0x0⟩,
  ⟨0x9018, 1, 0x4, 0x0, 0x0, 0x0, 0x0, 0xFFFFFFFF, 0x0⟩,
  ⟨0x9100, 4, 0x20, 0xF1FFF, 0x0, 0x0, 0x0, 0x0, 0x0⟩,
  ⟨0x9104, 4, 0x20, 0x1FF1FF1F, 0x0, 0x0, 0x0, 0x0, 0x0⟩,
  ⟨0x9108, 4, 0x20, 0xFFFF, 0x0, 0x0, 0x0, 0x0, 0xFFFF⟩,
  ⟨0x910C, 4, 0x20, 0xFFFFFFFF, 0x0, 0x0, 0x0, 0x0, 0x0⟩,
  ⟨0x9110, 4, 0x20, 0xFFFF, 0x0, 0x0, 0x0, 0x0, 0x0⟩
]
/-- The block `tile`. -/
def RegMap.tile : RegBlock := ⟨0x10000000, 144, 0x10000, .tile, RegMap.tileRows0 ++ RegMap.tileRows1 ++ RegMap.tileRows2 ++ RegMap.tileRows3 ++ RegMap.tileRows4⟩

/-- Rows of the block `detour`. -/
def RegMap.detourRows : List RegRow := [
  ⟨0x0, 1, 0x4, 0x0, 0x0, 0x0, 0x0, 0xFFFFFFFF, 0xF⟩
]
/-- The block `detour`. -/
def RegMap.detour : RegBlock := ⟨0x2000F000, 16, 4, .free, RegMap.detourRows⟩

/-- Rows of the block `trace`. -/
def RegMap.traceRows : List RegRow := [
  ⟨0x0, 1, 0x4, 0x7, 0x0, 0x0, 0x0, 0x0, 0x0⟩,
  ⟨0x4, 1, 0x4, 0x0, 0x0, 0x0, 0x0, 0xFFFFFFFF, 0x0⟩,
  ⟨0x8, 1, 0x4, 0x0, 0x0, 0x0, 0x0, 0xFFFFFFFF, 0x0⟩
]
/-- The block `trace`. -/
def RegMap.trace : RegBlock := ⟨0x20001000, 4, 0x100, .free, RegMap.traceRows⟩

/-- Rows of the block `sector`. -/
def RegMap.sectorRows : List RegRow := [
  ⟨0x0, 1, 0x4, 0x0, 0x0, 0x0, 0x0, 0xFFFFFFFF, 0x0⟩,
  ⟨0x4, 1, 0x4, 0x0, 0x0, 0x0, 0x0, 0xFFFFFFFF, 0x0⟩
]
/-- The block `sector`. -/
def RegMap.sector : RegBlock := ⟨0x30000000, 32, 0x1000, .free, RegMap.sectorRows⟩

/-- Rows of the block `fabPart`. -/
def RegMap.fabPartRows : List RegRow := [
  ⟨0x0, 1, 0x4, 0x0, 0xFFFFFFFF, 0x0, 0x0, 0x0, 0x100010⟩,
  ⟨0x4, 1, 0x4, 0x0, 0x1F, 0x0, 0x0, 0x300, 0x0⟩
]
/-- The block `fabPart`. -/
def RegMap.fabPart : RegBlock := ⟨0x30020000, 16, 0x40, .part, RegMap.fabPartRows⟩

/-- Rows of the block `edge`. -/
def RegMap.edgeRows : List RegRow := [
  ⟨0x0, 1, 0x4, 0x0, 0x3FFFF, 0x0, 0x0, 0x0, 0x31000⟩,
  ⟨0x4, 1, 0x4, 0x0, 0x0, 0x0, 0x0, 0xFFFFFFFF, 0x0⟩,
  ⟨0x8, 1, 0x4, 0x0, 0x0, 0x7, 0x0, 0x0, 0x0⟩,
  ⟨0xC, 1, 0x4, 0x0, 0x0, 0x0, 0x0, 0xFFFFFFFF, 0x0⟩,
  ⟨0x10, 1, 0x4, 0x0, 0x0, 0x0, 0x0, 0xFFFFFFFF, 0x0⟩,
  ⟨0x14, 1, 0x4, 0x0, 0x0, 0x0, 0x0, 0xFFFFFFFF, 0x0⟩,
  ⟨0x18, 1, 0x4, 0x0, 0x0, 0x0, 0x0, 0xFFFFFFFF, 0x0⟩,
  ⟨0x1C, 1, 0x4, 0x0, 0x0, 0x0, 0x0, 0xFFFFFFFF, 0x0⟩,
  ⟨0x20, 1, 0x4, 0x0, 0x0, 0x0, 0x0, 0xFFFFFFFF, 0x0⟩,
  ⟨0x24, 1, 0x4, 0x0, 0x0, 0x0, 0x0, 0xFFFFFFFF, 0x0⟩,
  ⟨0x28, 1, 0x4, 0x0, 0x0, 0x0, 0x0, 0xFFFFFFFF, 0x0⟩
]
/-- The block `edge`. -/
def RegMap.edge : RegBlock := ⟨0x30040000, 32, 0x100, .edge, RegMap.edgeRows⟩

/-- Rows of the block `cfg`. -/
def RegMap.cfgRows : List RegRow := [
  ⟨0x0, 1, 0x4, 0x0, 0x0, 0x0, 0x0, 0xFFFFFFFF, 0x0⟩,
  ⟨0x4, 1, 0x4, 0x0, 0x0, 0x0, 0x0, 0xFFFFFFFF, 0x1096056B⟩,
  ⟨0x8, 1, 0x4, 0x0, 0x0, 0x0, 0x0, 0xFFFFFFFF, 0x0⟩,
  ⟨0xC, 1, 0x4, 0x0, 0x0, 0x0, 0x0, 0xFFFFFFFF, 0x0⟩,
  ⟨0x10, 1, 0x4, 0xFFFFFFFF, 0x0, 0x0, 0x0, 0x0, 0x0⟩,
  ⟨0x14, 1, 0x4, 0x0, 0x0, 0x0, 0x0, 0xFFFFFFFF, 0x0⟩,
  ⟨0x18, 1, 0x4, 0x0, 0x0, 0x0, 0x0, 0xFFFFFFFF, 0x0⟩,
  ⟨0x20, 1, 0x4, 0x1, 0x0, 0x0, 0x0, 0x0, 0x1⟩,
  ⟨0x24, 1, 0x4, 0x0, 0x0, 0x0, 0x0, 0xFFFFFFFF, 0x0⟩,
  ⟨0x28, 1, 0x4, 0x0, 0x0, 0x0, 0x0, 0xFFFFFFFF, 0x0⟩,
  ⟨0x2C, 1, 0x4, 0x0, 0x0, 0x0, 0x0, 0xFFFFFFFF, 0x0⟩,
  ⟨0x30, 1, 0x4, 0x0, 0x0, 0x0, 0x0, 0xFFFFFFFF, 0x0⟩,
  ⟨0x34, 1, 0x4, 0x0, 0x0, 0x0, 0x0, 0xFFFFFFFF, 0x0⟩,
  ⟨0x40, 16, 0x4, 0x0, 0x0, 0x0, 0x0, 0xFFFFFFFF, 0x0⟩
]
/-- The block `cfg`. -/
def RegMap.cfg : RegBlock := ⟨0x30080000, 1, 0x1000, .free, RegMap.cfgRows⟩

/-- Rows of the block `lane`. -/
def RegMap.laneRows : List RegRow := [
  ⟨0x0, 1, 0x4, 0x0, 0x1F, 0x0, 0x0, 0x0, 0x0⟩,
  ⟨0x4, 1, 0x4, 0x0, 0x0, 0x0, 0x0, 0xFFFFFFFF, 0x0⟩,
  ⟨0x8, 1, 0x4, 0x0, 0x0, 0x0, 0x0, 0xFFFFFFFF, 0x4370400⟩,
  ⟨0xC, 1, 0x4, 0x0, 0xFFFF, 0x0, 0x0, 0x0, 0x10⟩,
  ⟨0x10, 1, 0x4, 0x0, 0x0, 0x0, 0x0, 0xFFFFFFFF, 0x0⟩,
  ⟨0x14, 1, 0x4, 0x0, 0x0, 0x0, 0x0, 0xFFFFFFFF, 0x0⟩
]
/-- The block `lane`. -/
def RegMap.lane : RegBlock := ⟨0x40000000, 96, 0x1000, .lane, RegMap.laneRows⟩

/-- Rows of the block `port`. -/
def RegMap.portRows : List RegRow := [
  ⟨0x0, 1, 0x4, 0x0, 0xFF0F, 0x0, 0x0, 0x0, 0x0⟩,
  ⟨0x4, 1, 0x4, 0x0, 0x0, 0x0, 0x0, 0xFFFFFFFF, 0x0⟩,
  ⟨0x8, 1, 0x4, 0x0, 0x0, 0x0, 0x0, 0xFFFFFFFF, 0x0⟩,
  ⟨0xC, 1, 0x4, 0x0, 0x0, 0x0, 0x0, 0xFFFFFFFF, 0x0⟩,
  ⟨0x10, 1, 0x4, 0x0, 0x0, 0x0, 0x0, 0xFFFFFFFF, 0x0⟩,
  ⟨0x14, 1, 0x4, 0x0, 0x0, 0x0, 0x0, 0xFFFFFFFF, 0x0⟩
]
/-- The block `port`. -/
def RegMap.port : RegBlock := ⟨0x48000000, 96, 0x100, .port, RegMap.portRows⟩

/-- Rows of the block `chan`. -/
def RegMap.chanRows : List RegRow := [
  ⟨0x0, 1, 0x4, 0x0, 0xF77FF, 0x0, 0x0, 0x0, 0x0⟩,
  ⟨0x4, 1, 0x4, 0x0, 0xFFFFFFFF, 0x0, 0x0, 0x0, 0x0⟩,
  ⟨0x8, 1, 0x4, 0x0, 0xFFF77F7F, 0x0, 0x0, 0x0, 0x0⟩,
  ⟨0xC, 1, 0x4, 0x0, 0x0, 0x0, 0x0, 0xFFFFFFFF, 0x0⟩,
  ⟨0x10, 1, 0x4, 0x0, 0x0, 0x0, 0x0, 0xFFFFFFFF, 0x0⟩
]
/-- The block `chan`. -/
def RegMap.chan : RegBlock := ⟨0x48010000, 256, 0x20, .chan, RegMap.chanRows⟩

/-- Rows of the block `route`. -/
def RegMap.routeRows : List RegRow := [
  ⟨0x0, 1, 0x4, 0x0, 0x0, 0x0, 0x0, 0xFFFFFFFF, 0x0⟩,
  ⟨0x4, 1, 0x4, 0x8000FFFF, 0x0, 0x0, 0x0, 0x0, 0x0⟩,
  ⟨0x8, 1, 0x4, 0xFFFFFFFF, 0x0, 0x0, 0x0, 0x0, 0x0⟩,
  ⟨0xC, 1, 0x4, 0xFFFF, 0x0, 0x0, 0x0, 0x0, 0x0⟩,
  ⟨0x10, 1, 0x4, 0xFFFF, 0x0, 0x0, 0x0, 0x0, 0x0⟩,
  ⟨0x14, 1, 0x4, 0x0, 0x0, 0x0, 0x0, 0xFFFFFFFF, 0x0⟩,
  ⟨0x18, 1, 0x4, 0xFFFFFFFF, 0x0, 0x0, 0x0, 0x0, 0x2710⟩
]
/-- The block `route`. -/
def RegMap.route : RegBlock := ⟨0x48020000, 1, 0x100, .free, RegMap.routeRows⟩

/-- Rows of the block `ddr`. -/
def RegMap.ddrRows : List RegRow := [
  ⟨0x0, 1, 0x4, 0x1, 0x0, 0x0, 0x2, 0x0, 0x0⟩,
  ⟨0x4, 1, 0x4, 0x0, 0x0, 0x0, 0x0, 0xFFFFFFFF, 0x0⟩,
  ⟨0x8, 1, 0x4, 0x0, 0x0, 0x0, 0x0, 0xFFFFFFFF, 0x0⟩,
  ⟨0x10, 6, 0x4, 0x3FFF, 0x0, 0x0, 0x0, 0x0, 0x0⟩,
  ⟨0x30, 6, 0x4, 0x0, 0x0, 0x0, 0x0, 0xFFFFFFFF, 0x0⟩,
  ⟨0x50, 1, 0x4, 0xFF03, 0x0, 0x0, 0x0, 0x0, 0x1002⟩,
  ⟨0x54, 1, 0x4, 0xF, 0x0, 0x0, 0x0, 0x0, 0x8⟩,
  ⟨0x58, 1, 0x4, 0x0, 0x0, 0x0, 0x0, 0xFFFFFFFF, 0x0⟩,
  ⟨0x5C, 1, 0x4, 0x3FFF, 0x0, 0x0, 0x0, 0x0, 0x64⟩,
  ⟨0x60, 1, 0x4, 0xFF007F, 0x0, 0x0, 0x0, 0x0, 0x1E000A⟩,
  ⟨0x64, 1, 0x4, 0x0, 0x0, 0x0, 0x0, 0xFFFFFFFF, 0x0⟩,
  ⟨0x70, 1, 0x4, 0x8000FFFF, 0x0, 0x0, 0x0, 0x0, 0x80000050⟩,
  ⟨0x74, 1, 0x4, 0x0, 0x0, 0x0, 0x0, 0xFFFFFFFF, 0x0⟩,
  ⟨0x78, 1, 0x4, 0x0, 0x0, 0x0, 0x0, 0xFFFFFFFF, 0x0⟩,
  ⟨0x80, 1, 0x4, 0x0, 0x0, 0x0, 0x0, 0xFFFFFFFF, 0x0⟩,
  ⟨0x84, 1, 0x4, 0x0, 0x0, 0x0, 0x0, 0xFFFFFFFF, 0x0⟩,
  ⟨0x88, 1, 0x4, 0x0, 0x0, 0x0, 0x0, 0xFFFFFFFF, 0x0⟩,
  ⟨0x8C, 1, 0x4, 0x0, 0x0, 0x0, 0x0, 0xFFFFFFFF, 0x0⟩,
  ⟨0x90, 1, 0x4, 0x0, 0x0, 0x0, 0x0, 0xFFFFFFFF, 0x0⟩,
  ⟨0x94, 1, 0x4, 0x0, 0x0, 0x3, 0x0, 0x0, 0x0⟩
]
/-- The block `ddr`. -/
def RegMap.ddr : RegBlock := ⟨0x50000000, 8, 0x10000, .free, RegMap.ddrRows⟩

/-- Rows of the block `ddrMap`. -/
def RegMap.ddrMapRows : List RegRow := [
  ⟨0x0, 1, 0x4, 0x1, 0x0, 0x0, 0x0, 0x0, 0x0⟩,
  ⟨0x100, 16, 0x8, 0x0, 0x800FFFFF, 0x0, 0x0, 0x0, 0x0⟩,
  ⟨0x104, 16, 0x8, 0x0, 0xFFFFF, 0x0, 0x0, 0x0, 0x0⟩
]
/-- The block `ddrMap`. -/
def RegMap.ddrMap : RegBlock := ⟨0x50080000, 1, 0x1000, .ddrPart, RegMap.ddrMapRows⟩

/-- Rows of the block `time`. -/
def RegMap.timeRows0 : List RegRow := [
  ⟨0x100, 1, 0x4, 0x0, 0x0, 0x0, 0x0, 0xFFFFFFFF, 0xFA⟩,
  ⟨0x104, 1, 0x4, 0x1FFF, 0x0, 0x0, 0x0, 0x0, 0xFA⟩,
  ⟨0x108, 1, 0x4, 0xFFFFFFFF, 0x0, 0x0, 0x0, 0x0, 0x0⟩,
  ⟨0x10C, 1, 0x4, 0xFFFF, 0x0, 0x0, 0x80000000, 0x0, 0x0⟩,
  ⟨0x110, 1, 0x4, 0x0, 0x0, 0x0, 0x0, 0xFFFFFFFF, 0x0⟩,
  ⟨0x114, 1, 0x4, 0x0, 0x0, 0x0, 0x0, 0xFFFFFFFF, 0x0⟩,
  ⟨0x118, 1, 0x4, 0x0, 0x0, 0x0, 0x0, 0xFFFFFFFF, 0x0⟩,
  ⟨0x11C, 1, 0x4, 0x0, 0x0, 0x0, 0x0, 0xFFFFFFFF, 0x0⟩,
  ⟨0x120, 1, 0x4, 0x0, 0x0, 0x0, 0x0, 0xFFFFFFFF, 0x0⟩,
  ⟨0x124, 1, 0x4, 0x0, 0x0, 0x0, 0x0, 0xFFFFFFFF, 0x0⟩,
  ⟨0x128, 1, 0x4, 0x3, 0x0, 0x0, 0x0, 0x0, 0x0⟩,
  ⟨0x12C, 1, 0x4, 0x0, 0x0, 0x0, 0x0, 0xFFFFFFFF, 0x0⟩,
  ⟨0x0, 1, 0x4, 0x3F, 0x0, 0x0, 0x0, 0x0, 0x0⟩,
  ⟨0x4, 1, 0x4, 0x0, 0x0, 0x0, 0x0, 0xFFFFFFFF, 0x0⟩,
  ⟨0x8, 1, 0x4, 0x0, 0x0, 0x0, 0x0, 0xFFFFFFFF, 0x0⟩,
  ⟨0xC, 1, 0x4, 0x0, 0x0, 0x0, 0x0, 0xFFFFFFFF, 0x0⟩,
  ⟨0x10, 1, 0x4, 0x0, 0x0, 0x0, 0x0, 0xFFFFFFFF, 0x0⟩,
  ⟨0x14, 1, 0x4, 0x0, 0x0, 0x0, 0x0, 0xFFFFFFFF, 0x0⟩,
  ⟨0x18, 1, 0x4, 0x0, 0x0, 0x0, 0x0, 0xFFFFFFFF, 0x0⟩,
  ⟨0x1C, 1, 0x4, 0x0, 0x0, 0x0, 0x0, 0xFFFFFFFF, 0x0⟩,
  ⟨0x20, 1, 0x4, 0xFF7F07FF, 0x0, 0x0, 0x0, 0x0, 0x40⟩,
  ⟨0x24, 1, 0x4, 0xFFFFFFFF, 0x0, 0x0, 0x0, 0x0, 0x0⟩,
  ⟨0x28, 1, 0x4, 0xFFFFFF, 0x0, 0x0, 0x0, 0x0, 0x140032⟩,
  ⟨0x2C, 1, 0x4, 0x0, 0x0, 0x0, 0x0, 0xFFFFFFFF, 0x0⟩
]
/-- Rows of the block `time`. -/
def RegMap.timeRows1 : List RegRow := [
  ⟨0x30, 1, 0x4, 0x0, 0x0, 0x0, 0x0, 0xFFFFFFFF, 0x0⟩,
  ⟨0x34, 1, 0x4, 0x0, 0x0, 0x0, 0x0, 0xFFFFFFFF, 0x0⟩,
  ⟨0x38, 1, 0x4, 0x0, 0x0, 0x0, 0x0, 0xFFFFFFFF, 0x0⟩,
  ⟨0x3C, 1, 0x4, 0xFF, 0x0, 0x0, 0x0, 0x80000000, 0xA⟩,
  ⟨0x40, 1, 0x4, 0x1FFFF, 0x0, 0x0, 0x0, 0x0, 0x0⟩
]
/-- The block `time`. -/
def RegMap.time : RegBlock := ⟨0x70000000, 1, 0x1000, .free, RegMap.timeRows0 ++ RegMap.timeRows1⟩

/-- Rows of the block `pwr`. -/
def RegMap.pwrRows : List RegRow := [
  ⟨0x100, 1, 0x4, 0xF0F0F01, 0x0, 0x0, 0x0, 0x0, 0x4020501⟩,
  ⟨0x104, 4, 0x4, 0x0, 0x0, 0x0, 0x0, 0xFFFFFFFF, 0x7896⟩,
  ⟨0x114, 4, 0x4, 0x0, 0x0, 0x0, 0x0, 0xFFFFFFFF, 0x0⟩,
  ⟨0x0, 1, 0x4, 0x0, 0x0, 0x0, 0x0, 0xFFFFFFFF, 0x0⟩,
  ⟨0x4, 1, 0x4, 0x7, 0x0, 0x0, 0x0, 0x0, 0x0⟩,
  ⟨0x8, 1, 0x4, 0xFF, 0x0, 0x0, 0x0, 0x0, 0xFA⟩,
  ⟨0xC, 1, 0x4, 0x0, 0x0, 0x0, 0x0, 0xFFFFFFFF, 0x0⟩,
  ⟨0x10, 1, 0x4, 0x0, 0x0, 0x0, 0x0, 0xFFFFFFFF, 0x0⟩,
  ⟨0x14, 1, 0x4, 0xFFFFFF, 0x0, 0x0, 0x0, 0x0, 0x665C5F⟩,
  ⟨0x18, 4, 0x4, 0x0, 0x0, 0x0, 0x0, 0xFFFFFFFF, 0xAA⟩,
  ⟨0x28, 1, 0x4, 0x0, 0x0, 0x0, 0x0, 0xFFFFFFFF, 0x0⟩,
  ⟨0x30, 1, 0x4, 0x7F0FFF, 0x0, 0x0, 0x0, 0x0, 0x5A04E2⟩,
  ⟨0x200, 16, 0x4, 0x0, 0x7F, 0x0, 0x0, 0xFFF0700, 0x0⟩,
  ⟨0x300, 6, 0x8, 0x0, 0x0, 0x0, 0x0, 0xFFFFFFFF, 0x0⟩,
  ⟨0x304, 6, 0x8, 0x0, 0x0, 0x0, 0x0, 0xFFFFFFFF, 0x0⟩
]
/-- The block `pwr`. -/
def RegMap.pwr : RegBlock := ⟨0x71000000, 1, 0x1000, .pwrPart, RegMap.pwrRows⟩

/-- Rows of the block `log`. -/
def RegMap.logRows : List RegRow := [
  ⟨0x0, 1, 0x4, 0x0, 0x0, 0x0, 0x0, 0xFFFFFFFF, 0x0⟩,
  ⟨0x4, 1, 0x4, 0x0, 0x0, 0x0, 0x0, 0xFFFFFFFF, 0x0⟩,
  ⟨0x8, 1, 0x4, 0x0, 0x0, 0x0, 0x0, 0xFFFFFFFF, 0x0⟩,
  ⟨0xC, 1, 0x4, 0x0, 0x0, 0x0, 0x0, 0xFFFFFFFF, 0x0⟩
]
/-- The block `log`. -/
def RegMap.log : RegBlock := ⟨0x72000000, 1, 0x1000, .free, RegMap.logRows⟩

/-- Rows of the block `dump`. -/
def RegMap.dumpRows : List RegRow := [
  ⟨0x0, 1, 0x4, 0x0, 0x0, 0x0, 0x0, 0xFFFFFFFF, 0x0⟩,
  ⟨0x4, 1, 0x4, 0x0, 0x0, 0x0, 0x0, 0xFFFFFFFF, 0x0⟩,
  ⟨0x8, 1, 0x4, 0x0, 0x0, 0x0, 0x0, 0xFFFFFFFF, 0x0⟩,
  ⟨0xC, 1, 0x4, 0x0, 0x0, 0x0, 0x0, 0xFFFFFFFF, 0x0⟩,
  ⟨0x10, 4, 0x4, 0x0, 0x0, 0x0, 0x0, 0xFFFFFFFF, 0x0⟩
]
/-- The block `dump`. -/
def RegMap.dump : RegBlock := ⟨0x72001000, 1, 0x1000, .free, RegMap.dumpRows⟩

/-- Rows of the block `boot`. -/
def RegMap.bootRows : List RegRow := [
  ⟨0x0, 1, 0x4, 0x0, 0x0, 0x0, 0x0, 0xFFFFFFFF, 0x0⟩,
  ⟨0x4, 1, 0x4, 0x0, 0x0, 0x0, 0x0, 0xFFFFFFFF, 0x0⟩,
  ⟨0x8, 1, 0x4, 0x0, 0x0, 0x0, 0x0, 0xFFFFFFFF, 0x0⟩,
  ⟨0x10, 1, 0x4, 0xFF03FF, 0x0, 0x0, 0x0, 0x0, 0x320040⟩,
  ⟨0x14, 1, 0x4, 0xFFFF, 0x0, 0x0, 0x0, 0x0, 0x400⟩,
  ⟨0x18, 1, 0x4, 0xFFFF, 0x0, 0x0, 0x0, 0x0, 0x3232⟩
]
/-- The block `boot`. -/
def RegMap.boot : RegBlock := ⟨0x72002000, 1, 0x1000, .free, RegMap.bootRows⟩

/-- Rows of the block `beat`. -/
def RegMap.beatRows : List RegRow := [
  ⟨0x0, 1, 0x4, 0xFF00, 0x0, 0x0, 0x0, 0x0, 0x400⟩,
  ⟨0x4, 1, 0x4, 0x0, 0x0, 0x0, 0x0, 0xFFFFFFFF, 0x0⟩,
  ⟨0x8, 1, 0x4, 0x0, 0xFFFFFFFF, 0x0, 0x0, 0x0, 0x0⟩,
  ⟨0xC, 1, 0x4, 0x0, 0xFFFF, 0x0, 0x0, 0x0, 0x0⟩,
  ⟨0x10, 1, 0x4, 0x0, 0xFFFFFFFF, 0x0, 0x0, 0x0, 0x0⟩,
  ⟨0x14, 1, 0x4, 0x0, 0x8000FFFF, 0x0, 0x0, 0x0, 0x0⟩,
  ⟨0x18, 1, 0x4, 0xFFFFFFFF, 0x0, 0x0, 0x0, 0x0, 0x0⟩,
  ⟨0x1C, 1, 0x4, 0x8000FFFF, 0x0, 0x0, 0x0, 0x0, 0x0⟩,
  ⟨0x20, 1, 0x4, 0x0, 0x0, 0x0, 0x0, 0xFFFFFFFF, 0x0⟩,
  ⟨0x24, 1, 0x4, 0x0, 0x0, 0x0, 0x0, 0xFFFFFFFF, 0x0⟩,
  ⟨0x28, 1, 0x4, 0x0, 0x0, 0x0, 0x0, 0xFFFFFFFF, 0x0⟩,
  ⟨0x2C, 1, 0x4, 0x0, 0x0, 0x0, 0x0, 0xFFFFFFFF, 0x0⟩,
  ⟨0x30, 1, 0x4, 0x0, 0xFFFFFFFF, 0x0, 0x0, 0x0, 0x0⟩,
  ⟨0x34, 1, 0x4, 0x0, 0xF03FFFF, 0x0, 0x0, 0x0, 0x0⟩,
  ⟨0x40, 8, 0x4, 0x0, 0xFFFFF, 0x0, 0x0, 0x0, 0x0⟩,
  ⟨0x60, 8, 0x4, 0x0, 0xFFFFFFFF, 0x0, 0x0, 0x0, 0x0⟩,
  ⟨0x80, 1, 0x4, 0x0, 0x0, 0x0, 0x0, 0xFFFFFFFF, 0x0⟩
]
/-- The block `beat`. -/
def RegMap.beat : RegBlock := ⟨0x73008000, 16, 0x100, .part, RegMap.beatRows⟩

/-- Rows of the block `mbx`. -/
def RegMap.mbxRows : List RegRow := [
  ⟨0x0, 1, 0x4, 0x0, 0x0, 0x0, 0x0, 0xFFFFFFFF, 0x0⟩,
  ⟨0x4, 1, 0x4, 0x0, 0x0, 0x0, 0x0, 0xFFFFFFFF, 0x0⟩,
  ⟨0x8, 1, 0x4, 0x0, 0x0, 0x0, 0x0, 0xFFFFFFFF, 0x0⟩,
  ⟨0xC, 1, 0x4, 0xF, 0x0, 0x0, 0x0, 0x0, 0x0⟩,
  ⟨0x10, 1, 0x4, 0xFFFFFFFF, 0x0, 0x0, 0x0, 0x0, 0x0⟩,
  ⟨0x14, 1, 0x4, 0xFFFFFFFF, 0x0, 0x0, 0x0, 0x0, 0x0⟩,
  ⟨0x18, 1, 0x4, 0xFFFFFFFF, 0x0, 0x0, 0x0, 0x0, 0x0⟩,
  ⟨0x1C, 1, 0x4, 0xFFFFFFFF, 0x0, 0x0, 0x0, 0x0, 0x0⟩,
  ⟨0x20, 1, 0x4, 0xFFFFFFFF, 0x0, 0x0, 0x0, 0x0, 0x0⟩,
  ⟨0x24, 1, 0x4, 0xFFFFFFFF, 0x0, 0x0, 0x0, 0x0, 0x0⟩,
  ⟨0x40, 1, 0x4, 0x0, 0x0, 0x0, 0x0, 0xFFFF, 0x0⟩,
  ⟨0x44, 1, 0x4, 0x0, 0x0, 0x0, 0x0, 0xFFFF, 0x0⟩,
  ⟨0x48, 1, 0x4, 0x0, 0x0, 0x0, 0x0, 0xFFFF, 0x0⟩,
  ⟨0x4C, 1, 0x4, 0x0, 0x0, 0x0, 0x0, 0xFFFFFFFF, 0x0⟩,
  ⟨0x50, 1, 0x4, 0x0, 0x0, 0x0, 0x0, 0xFFFFFFFF, 0x0⟩,
  ⟨0x54, 1, 0x4, 0x0, 0x0, 0x0, 0x0, 0xFFFFFFFF, 0x0⟩,
  ⟨0x1000, 3, 0x10, 0xFFFFFFFF, 0x0, 0x0, 0x0, 0x0, 0x0⟩,
  ⟨0x1004, 3, 0x10, 0xFFFFFFFF, 0x0, 0x0, 0x0, 0x0, 0x0⟩,
  ⟨0x1008, 3, 0x10, 0xFFFFFFFF, 0x0, 0x0, 0x0, 0x0, 0x0⟩,
  ⟨0x100C, 3, 0x10, 0xFFFFFFFF, 0x0, 0x0, 0x0, 0x0, 0x1⟩,
  ⟨0x1800, 2, 0x4, 0x0, 0x0, 0x0, 0x0, 0xFFFFFFFF, 0x0⟩,
  ⟨0x3000, 1, 0x4, 0x0, 0x0, 0x0, 0x0, 0xFFFFFFFF, 0x0⟩,
  ⟨0x3004, 1, 0x4, 0xC0000000, 0x0, 0x0, 0x0, 0x0, 0x0⟩,
  ⟨0x3008, 1, 0x4, 0x3, 0x0, 0x0, 0x0, 0x0, 0x0⟩,
  ⟨0x300C, 2, 0x4, 0x0, 0x0, 0xFFFFFFFF, 0x0, 0x0, 0x0⟩
]
/-- The block `mbx`. -/
def RegMap.mbx : RegBlock := ⟨0x100000000, 17, 0x4000, .free, RegMap.mbxRows⟩

/-- Every block. -/
def RegMap.blocks : List RegBlock := [RegMap.tile, RegMap.detour, RegMap.trace, RegMap.sector, RegMap.fabPart, RegMap.edge, RegMap.cfg, RegMap.lane, RegMap.port, RegMap.chan, RegMap.route, RegMap.ddr, RegMap.ddrMap, RegMap.time, RegMap.pwr, RegMap.log, RegMap.dump, RegMap.boot, RegMap.beat, RegMap.mbx]

/-- The row of a block that holds offset `o`, if one does. -/
def RegBlock.rowAt (b : RegBlock) (o : Nat) : Option RegRow :=
  b.rows.find? (fun r => r.off ≤ o && (o - r.off) % r.stride == 0 && (o - r.off) / r.stride < r.count)

/-- The block, instance and row at an address; none where the map has no register. -/
def RegMap.find (a : Nat) : Option (RegBlock × Nat × RegRow) :=
  match RegMap.blocks.find? (fun b => b.base ≤ a && a < b.base + b.n * b.stride) with
  | none => none
  | some b =>
    match b.rowAt ((a - b.base) % b.stride) with
    | none => none
    | some r => some (b, (a - b.base) / b.stride, r)

/-- The latency target that `DDR_PORTk_QOS` holds at reset, by port (R280). -/
def RegMap.qosReset (k : Nat) : Word :=
  match k with
  | 4 => 1000 | 5 => 10000 | _ => 2000

/-- The voltage in mV that a rail shows at reset (R340), by rail index. -/
def RegMap.railReset (r : Nat) : Word :=
  if r < 5 then 750 else 550

/-- `TILE_ID` with no dead position: logical ID, column and position, or 0x7F at position 8 for the spare (R18, R76). -/
def RegMap.tileId (t : Nat) : Word :=
  if t < 128 then BitVec.ofNat 32 (t + (t / 8) * 0x100 + (t % 8) * 0x10000)
  else BitVec.ofNat 32 (0x7F + (t - 128) * 0x100 + 8 * 0x10000)

/-- What the PCIe endpoint shows of a function's identity (R296): its device ID in [31:16]. -/
def RegMap.pciId (fn : Nat) : Word := if fn = 0 then 0x09600000 else 0x09610000

/-- `MBX_ID` of a function: its number, the partition it serves, and valid for PF0 (R296, R300). -/
def RegMap.mbxId (fn : Nat) : Word := BitVec.ofNat 32 (if fn = 0 then 0x1000 else fn + (fn - 1) * 256)

/-- The value a register shows after a cold device reset: the Reset column, and for `Per tile`, `Per port`,
`Per function` and `Per rail` entries the value the rules give (log entry 4 for those they do not give). -/
def Reg.resetOf (a : Nat) : Word :=
  match RegMap.find a with
  | none => 0
  | some (b, i, r) =>
    let o := (a - b.base) % b.stride
    if b.base = 0x10000000 ∧ o = 0 then RegMap.tileId i
    else if b.base = 0x50000000 ∧ r.off = 0x10 then RegMap.qosReset ((o - 0x10) / 4)
    else if b.base = 0x71000000 ∧ r.off = 0x300 then RegMap.railReset ((o - 0x300) / 8)
    else if b.base = 0x100000000 ∧ o = 0 then RegMap.mbxId i
    else if b.base = 0x100000000 ∧ o = 0x3000 then RegMap.pciId i
    else if a = Reg.TIME_MS_TREE_DELAY then Config.treeDelay.setWidth 32
    else r.reset

end Sys2Proof.Machine
end

