-- ==== Sys2Proof/Machine/State.lean ====
section
/-!
DEFINITION. The state of the part as plain data, its reset, and why a step can stop. Every register of the management map
and of the mailboxes lives in `State.regs` under its address; the records below hold what the spec gives the units beside
their registers. The state after reset is that of a cold reset before boot step B0 (R358, log entry 1).
-/
namespace Sys2Proof.Machine

/-! The tile: everything a tile holds beside its management registers and its store. -/

/-- A store write on its way (R108): its slot, 7 or 5 handshakes, the byte address in the store memory and the bytes. -/
structure Flight where
  slot : Nat
  lat : Nat
  addr : Nat
  bytes : List Byte
  deriving DecidableEq, Repr

/-- An upset word of a store (R112): the key of the word (byte address div 8), 0 one data bit, 1 one check bit,
2 uncorrectable or poisoned, 3 bank-row tag, and the flipped bits that an uncorrectable word delivers. -/
structure Upset where
  word : Nat
  kind : Nat
  flip : BitVec 64
  deriving DecidableEq, Repr

/-- What a handshake still to come holds for a tile. -/
inductive TileAct where
  /-- A repetition of an MMA entry issues (R63): its fields, and the repetitions after it. -/
  | arrIssue (arr : Nat) (f : MmaFields) (left : Nat)
  /-- Data row `j` of an MMA's A or B panel (R66). -/
  | arrRow (arr op : Nat) (isB : Bool) (j row : Nat)
  /-- A scale row of an MMA, for one pass (R66). -/
  | arrScale (arr op : Nat) (isB : Bool) (pass row : Nat)
  /-- The last product of an MMA reaches its set (R66). -/
  | arrDone (arr op : Nat)
  /-- D of a drain (R67). -/
  | capture (arr op : Nat)
  /-- A row that a drain writes (R67). -/
  | drainRow (arr op j row : Nat)
  /-- A weight row, or a row of a VLOAD (R72). -/
  | mvuRow (op i row : Nat)
  /-- A scale row of an MVM or VLOAD (R72). -/
  | mvuScale (op row : Nat)
  /-- Batch vector `b` meets weight row `i` (R72). -/
  | mvuDot (op i b : Nat)
  /-- Group sums reach the accumulators (R72). -/
  | mvuAcc (op : Nat) (first : Bool) (adds : List (Nat × List Word))
  /-- A loaded row reaches the vector register file (R72). -/
  | vrfRow (op i : Nat)
  /-- The scales of a VLOAD reach the vector register file (R72). -/
  | vrfScale (op : Nat)
  /-- A row that an MDRAIN writes (R72). -/
  | mdrainRow (op j row : Nat)
  /-- A re-issue of a VEU entry (R74). -/
  | veu (opcode : Nat) (f : VeuFields)
  /-- A slot of an SWIN window: direction and context mask (R118). -/
  | seSlot (read : Bool) (mask : BitVec 8)
  /-- A clash falls due: earlier entry, this event's entry being the later (R132). -/
  | clash (first : Nat)
  /-- A local signal: semaphore, amount, source code, issuer (R155). -/
  | semSignal (sem n src issuer : Nat)
  /-- A non-blocking take (R155). -/
  | semTake (sem n issuer : Nat)
  /-- A row of an inbound context is in the store (R117, R120 step 5). -/
  | seFilled (ctx : Nat)
  /-- A numeric trap rises (R103, R150): its code, the bit of `TILE_FAULT` (8: none) and its detail. -/
  | trap (code faultBit : Nat) (detail : List Byte)
  deriving DecidableEq, Repr

/-- A coming event of a tile: its handshake, the order of its entry's issue, its itinerary index, and what it does. -/
structure TileEv where
  slot : Nat
  order : Nat
  entry : Nat
  act : TileAct
  deriving DecidableEq, Repr

/-- An MMA in progress (R66): the rows read so far, data rows by J and scale rows by pass × 8,192 + row, and the streaming
handshakes already counted in `ARRn_ACTIVE_HS` and `ARRn_GATED`. -/
structure MmaOp where
  id : Nat
  f : MmaFields
  entry : Nat
  issue : Nat
  a : SMap Row
  b : SMap Row
  sa : SMap Row
  sb : SMap Row
  active : Nat
  gatedTo : Nat
  deriving DecidableEq, Repr

/-- A drain in progress (R67): D, the set it holds, and the rows it captured. -/
structure DrainOp where
  id : Nat
  f : DrainFields
  entry : Nat
  issue : Nat
  at_ : Nat
  rows : List Row
  deriving DecidableEq, Repr

/-- A matrix array (R59): the accumulators of its two sets, their overflow marks (R92), whether the
last operation into each was an integer operation (R87), the first handshake at which
another MMA may issue, and the operations in progress. An empty accumulator list is 1,024 zeros. -/
structure ArrSt where
  acc0 : List Word
  acc1 : List Word
  ovf0 : Bool
  ovf1 : Bool
  int0 : Bool
  int1 : Bool
  accept : Nat
  mmas : List MmaOp
  drains : List DrainOp
  deriving DecidableEq, Repr

/-- The operation of an MVU entry (R72). -/
inductive MvuKind where
  | mvm (f : MvmFields)
  | vload (f : VloadFields)
  | mdrain (f : MdrainFields)
  deriving DecidableEq, Repr

/-- An MVU operation in progress, with the rows it has read. -/
structure MvuOp where
  id : Nat
  kind : MvuKind
  entry : Nat
  done : Nat
  rows : SMap Row
  scales : SMap Row
  deriving DecidableEq, Repr

/-- The matrix-vector unit (R71): 1,024 accumulators, the overflow mark (R92), a mark for each accumulator whose last operation was
an integer operation (R87), 16,384 activation elements and 1,024 scale bytes. -/
structure MvuSt where
  acc : List Word
  ovf : Bool
  int : BitVec 1024
  vrf : BitVec 131072
  vrfScale : BitVec 8192
  accept : Nat
  ops : List MvuOp
  deriving DecidableEq, Repr

/-- The vector unit: v0 to v15 (R74), the first handshake at which it accepts another operation, and the last entry that it
accepted. -/
structure VeuSt where
  v : SMap Row
  accept : Nat
  entry : Nat
  deriving DecidableEq, Repr

/-- An active hardware loop: first and last instruction of the body, and the iterations left after this one. -/
structure TcLoop where
  first : Nat
  last : Nat
  left : Nat
  deriving DecidableEq, Repr

/-- What the tile core holds beside its registers: the first handshake at which it may issue (R138), when the result
of each register is complete (g0 to g31 at 0 to 31, accumulators 32, xp 36, yp 40, xm 44, ym 48, flags 52, divider 53,
square root 54), the loop stack, what it waits for, whether it may issue in this beat, the TCGO that started it, and
whether it ended with WAITP (R151), and for each half one more than the last handshake in which it accessed it (R114). -/
structure TcSt where
  next : Nat
  ready : SMap Nat
  loops : List TcLoop
  waitSem : Option (Nat × Nat)
  waitEvent : Option Nat
  stopped : Bool
  startEntry : Nat
  power : Bool
  access : Nat × Nat
  deriving DecidableEq, Repr

/-- What the stream engine holds of a context beside its registers (R116, R120 to R124): rows written or sent since it
opened, the position of the DRAM walk, the rows requested or granted and not yet written, releases held for the commit,
rows with a credit taken and not yet sent, rows in RESERVEs not yet granted, rows granted and not yet sent, a close
that waits for the commit, and for CHAN kind the rows in the ring that no item has covered (R46). -/
structure SeCtx where
  k : Nat
  walk : Nat
  requested : Nat
  released : Nat
  credited : Nat
  reserved : Nat
  granted : Nat
  closing : Bool
  early : Nat
  deriving DecidableEq, Repr

/-- The snapshot of a context at the opening milestone (R124): state, fill and free beside the record. -/
structure SeSnap where
  c : SeCtx
  state : Nat
  fill : Nat
  free : Nat
  deriving DecidableEq, Repr

/-- A landing row that holds data (R120): its context, the data, and whether the attempt of the running beat filled it: it asked for the
row, or the row's PUSH bears the beat's bt (R124). -/
structure Landing where
  ctx : Nat
  data : Row
  now : Bool
  deriving DecidableEq, Repr

/-- A row that was fetched for a context before the opening milestone and that a restart keeps (R124): its data, and its place in the
ring once it has been written there. -/
structure KeptRow where
  ctx : Nat
  data : Row
  written : Option Nat
  deriving DecidableEq, Repr

/-- An outstanding DRAM read (R120): the request-table entry, its context and address, whether it is cancelled, and
whether the running attempt issued it. -/
structure SeReq where
  id : Nat
  ctx : Nat
  addr : Nat
  cancelled : Bool
  now : Bool
  deriving DecidableEq, Repr

/-- A RESERVE waiting at a consumer (R181): source, its kind, context at the consumer, rows and the header's bt. -/
structure RsvWait where
  src : Nat
  skind : Bool
  ctx : Nat
  rows : Nat
  bt : Nat
  now : Bool
  deriving DecidableEq, Repr

/-- A RESERVE sent and not yet granted (R181, R183): context, destination code with its kind, rows, and the Route time
at which it left. -/
structure RsvSent where
  ctx : Nat
  dst : Nat
  rows : Nat
  at_ : Nat
  deriving DecidableEq, Repr

/-- The stream engine: contexts, snapshots, landing rows that hold data, request table, waiting RESERVEs, RESERVEs
sent, rows whose send is held for an acknowledgement (DWR rows not yet acknowledged, by context and address, R117),
CHAN items waiting for their last row (context, rows still to come, whether the item is a retired gap; R46, R259) and
those of the opening milestone, the contexts that logged RESERVE_TIMEOUT in
this task (R183), the stream faults of this handshake or park as (context, cause, address) (R126), and of the opening milestone the RESERVEs sent
and waiting, the rows fetched before it and the DWR rows not yet acknowledged (R124); the contexts that a COMMIT closed (R118), and the counts that
stand at 8,192 where `SE_CTXc_FILL` shows 0 (twice the context, and 1 for `free`; R116). -/
structure SeSt where
  ctx : SMap SeCtx
  snap : SMap SeSnap
  landing : List Landing
  reqs : List SeReq
  waiting : List RsvWait
  sent : List RsvSent
  dwr : List (Nat × Nat)
  items : List (Nat × Nat × Bool)
  snapItems : List (Nat × Nat × Bool)
  timedOut : List Nat
  aborts : List (Nat × Nat × Nat)
  snapSent : List RsvSent
  snapWaiting : List RsvWait
  kept : List KeptRow
  shut : List Nat
  full : List Nat
  snapDwr : List (Nat × Nat)
  deriving DecidableEq, Repr

/-- A tile: the sequencer (next issue handshake, stop for the rest of the beat, GATE it waits at, entry index of END,
issue order), the coming events, the last wide claim served, the writes on their way and the handshake by which every
write has completed, remote signals not yet acknowledged (target, semaphore, whether the stream engine sent it; R163), the units, the program store and itinerary memory with
their upset words (R135), the queue of corrections (R112), and what was logged in this beat. -/
structure Tile where
  nextHs : Nat
  nextK : Nat
  stopped : Bool
  overrunAt : Option Nat
  gate : Option (Nat × Nat × Nat)
  endAt : Option Nat
  order : Nat
  evs : List TileEv
  lastWide : Option (Nat × Nat)
  flights : List Flight
  writesDone : Nat
  remoteOut : List (Nat × Nat × Bool)
  arr0 : ArrSt
  arr1 : ArrSt
  mvu : MvuSt
  veu : VeuSt
  tc : TcSt
  se : SeSt
  imem : SMap (BitVec 128)
  pmem : SMap (BitVec 64)
  memUpsets : List (Nat × Nat × Nat)
  patrol : Nat
  ceQueue : List Nat
  clashLogged : Bool
  semLogged : Bool
  trapLogged : Bool
  genLogged : Bool
  partLogged : Bool
  done : Bool
  /-- The handshake at which it became done (R133). -/
  doneHs : Nat
  /-- Bits [1:0] of the opening milestones of abandoned attempts whose packets may still arrive (R184). -/
  abandoned : List Nat
  /-- Passes of the scrubber over the X and the Y half (R114). -/
  passX : Nat
  passY : Nat
  /-- The tile published used and slack since the governor last re-armed its minimum slack (R51). -/
  ran : Bool
  deriving DecidableEq, Repr

/-- An array after reset. -/
def ArrSt.reset : ArrSt := ⟨[], [], false, false, false, false, 0, [], []⟩

/-- The stream engine after reset. -/
def SeSt.reset : SeSt := ⟨[], [], [], [], [], [], [], [], [], [], [], [], [], [], [], [], []⟩

/-- A tile after reset: every engine idle, every accumulator and register zero. -/
def Tile.reset : Tile where
  nextHs := 0
  nextK := 0
  stopped := true
  overrunAt := none
  gate := none
  endAt := none
  order := 0
  evs := []
  lastWide := none
  flights := []
  writesDone := 0
  remoteOut := []
  arr0 := ArrSt.reset
  arr1 := ArrSt.reset
  mvu := ⟨[], false, 0, 0, 0, 0, []⟩
  veu := ⟨[], 0, 0⟩
  tc := ⟨0, [], [], none, none, false, 0, false, (0, 0)⟩
  se := SeSt.reset
  imem := []
  pmem := []
  memUpsets := []
  patrol := 0
  ceQueue := []
  clashLogged := false
  semLogged := false
  trapLogged := false
  genLogged := false
  partLogged := false
  done := false
  doneHs := 0
  abandoned := []
  passX := 0
  passY := 0
  ran := false

/-! The tile network and the edge ports. -/

/-- One flit in a router queue: its packet and its position, 0 the header (R174). -/
structure Flit where
  pkt : Pkt
  i : Nat
  deriving DecidableEq, Repr

/-- A router (R171, R176, R185): its input queues by port × 5 + virtual channel, the packets waiting to enter the local
queue and, at the border, those of its edge ports (5, 6), the packets that are entering (by port × 3 + class, with the next
flit), the input queue that holds each output queue (by output port × 5 + channel), the input queues whose packet is drained
to its tail, the round-robin pointer of each output port, the records made in this beat or recovery, and the last values
written to the probes' low counts (R192). -/
structure Router where
  queues : SMap (List Flit)
  inject : List Pkt
  injectEdge : SMap (List Pkt)
  entering : SMap Flit
  held : SMap Nat
  drain : List Nat
  rr : SMap Nat
  partLogged : Bool
  fencedLogged : Bool
  prbLo : SMap Word
  deriving DecidableEq, Repr

/-- An inbound burst pair that is open (R201): destination, whether its credit was taken, the beats of the current burst,
whether the first burst is complete, the data so far with the clocks since the first burst ended. -/
structure EdgePair where
  dest : Nat
  credited : Bool
  second : Bool
  beats : Nat
  data : Row
  wait : Nat
  deriving DecidableEq, Repr

/-- A staged outbound row (R207): source row and context, the bt of its beat, and the row. -/
structure Staged where
  src : Nat
  ctx : Nat
  bt : Nat
  data : Row
  deriving DecidableEq, Repr

/-- Staging or hub room that a port has granted and no packet has yet filled: source tile, context, rows, bt (R207);
whether it is room for DWR rows bound to the DRAM hub (R206), and the generation of the request. -/
structure EdgeGrant where
  src : Nat
  ctx : Nat
  rows : Nat
  bt : Nat
  dwr : Bool
  gen : Nat
  deriving DecidableEq, Repr

/-- An edge port (R200 to R207): the open pair, whether beats are discarded until the next SOB, the credit counters by
destination, the retention buffer, the rows that have not left the port, oldest first, each with whether it is pushed again (R205), whether the
oldest of them is offered to the router, whether they wait for the turnaround to end, staged and released rows, the beats of the oldest released
row that have left (R207), granted room and waiting RESERVEs, the outcomes of the beats that closed at the last three milestones by opening
milestone (R207), the records made in this beat (bits: malformed, timeout, no credit, partition, generation), the next row number of each
destination (R116), whether `EP_IN_READY` is low (R200), and of the opening milestone the granted room and the waiting RESERVEs, with the RESERVEs of
earlier beats that came since (R124). -/
structure EdgeSt where
  pair : Option EdgePair
  discard : Bool
  stray : Bool
  creditCnt : SMap Nat
  retained : List Pkt
  rows : List (Pkt × Bool)
  offered : Bool
  waits : Bool
  staged : List Staged
  released : List Staged
  outBeat : Nat
  grants : List EdgeGrant
  waiting : List EdgeGrant
  outcomes : List (Nat × Nat)
  logged : List Nat
  rowNo : SMap Nat
  inLow : Bool
  snapGrants : List EdgeGrant
  snapWaiting : List EdgeGrant
  late : List EdgeGrant
  deriving DecidableEq, Repr

/-! The fabric (R194 to R199). -/

/-- A DSP slice (R195): its accumulator, its `pre_ovf` output and its output. -/
structure DspSt where
  acc : BitVec 64
  preOvf : Bool
  out : Int
  deriving DecidableEq, Repr

/-- A block RAM beside its contents, which are the nine block RAM frames that a load writes (R196, R220): what its two ports
show, and whether the last read of each met a double-bit error. -/
structure BramSt where
  outA : BitVec 72
  outB : BitVec 72
  badA : Bool
  badB : Bool
  deriving DecidableEq, Repr

/-- A sector (R194): the contents of the LUTs that the design uses as memories (R209), by logic element; flip-flops by cluster (flip-flop j of logic element i at bit 2i + j), carry bits by cluster, DSP slices, block RAMs,
the spines that are gated (R197), and whether the write enables and the reset spines are released (R209). -/
structure SectSt where
  lut : SMap (BitVec 64)
  ff : SMap (BitVec 32)
  carry : SMap (BitVec 16)
  dsp : SMap DspSt
  bram : SMap BramSt
  gated : BitVec 32
  writes : Bool
  live : Bool
  deriving DecidableEq, Repr

/-- A PLL (R197): whether it is locked, whether a rung turned it off that will lock it again (R333, R337), its reference, and the frequencies of its four outputs in MHz. -/
structure PllSt where
  locked : Bool
  held : Bool
  ref : PllRef
  outs : List Nat
  deriving DecidableEq, Repr

/-- A DSP slice and a block RAM after reset. -/
def DspSt.reset : DspSt := ⟨0, false, 0⟩
def BramSt.reset : BramSt := ⟨0, 0, false, false⟩

/-- A sector after reset: held. -/
def SectSt.reset : SectSt := ⟨[], [], [], [], [], 0, false, false⟩

/-- A PLL after reset. -/
def PllSt.reset : PllSt := ⟨false, false, .time, []⟩

/-- A router after reset. -/
def Router.reset : Router := ⟨[], [], [], [], [], [], [], false, false, []⟩

/-- An edge port after reset. -/
def EdgeSt.reset : EdgeSt := ⟨none, false, false, [], [], [], false, false, [], [], 0, [], [], [], [], [], false, [], [], []⟩

/-! Partitions, the log and the mailboxes. -/

/-- A record of the error log (R370). -/
structure LogRec where
  time : Nat
  ms : Nat
  part : Option Nat
  sev : Nat
  seq : Nat
  slot : Nat
  cls : Nat
  idx : Nat
  code : Nat
  detail : List Byte
  deriving DecidableEq, Repr

/-- A recovery (R361 to R365): the step under way (0 none), the dump's slot, whether it waits for a generation (R364), a port
or its floors, its failure, the findings that decide its outcome (R362), whether step 8 may run, the PART_RESET that it
serves, the resume milestone, the tiles that lost data, positions declared dead and not yet spared (R77), and what the dump
header shows of the freeze (milestone, time, attempt, variant); the code that a resume remembers (R363), and whether a hang search holds it (R367). -/
structure RecSt where
  step : Nat
  slot : Option Nat
  genWait : Bool
  linkWait : Bool
  floorWait : Bool
  failed : Bool
  guilty : Bool
  device : Nat
  trap : Bool
  stop : Bool
  repeats : Bool
  warm : Bool
  resume : Bool
  cmd : Option Req
  resumeAt : Option Nat
  lost : List Nat
  dead : List (Nat × Nat)
  ms : Nat
  time : Nat
  attempt : Nat
  variant : Nat
  /-- The error code of the fault that froze the partition (R363). -/
  code : Option Nat
  /-- A hang froze the partition, which stays frozen until its search begins (R367). -/
  hung : Bool
  deriving DecidableEq, Repr

/-- No recovery. -/
def RecSt.none : RecSt :=
  ⟨0, Option.none, false, false, false, false, false, 0, false, false, false, false, true, Option.none, Option.none, [], [], 0, 0, 0, 0, Option.none, false⟩

/-- The resources that the owner assigned to a partition (R312), and what its beat controller and firmware keep. -/
structure Part where
  firstCol : Nat
  lastCol : Nat
  gpio : BitVec 4
  share : Nat
  dramBase : Nat
  dramLimit : Nat
  lanes : BitVec 96
  chans : BitVec 256
  dumpRow : Nat
  gen : Nat
  /-- The fault line was raised in the running beat (R41), and the first record that raised it. -/
  fault : Bool
  cause : Option LogRec
  /-- A gap aborted the running beat (R46). -/
  gapAbort : Bool
  /-- The running beat has opened (R36 step 6). -/
  beatOpen : Bool
  /-- The opening milestone of the running beat. -/
  openMs : Nat
  recov : RecSt
  /-- What ended the last recovery or reset (R362). -/
  outcome : Nat
  /-- The error code that caused the last resumed recovery, and its resume milestone (R363). -/
  resumed : Option (Nat × Nat)
  /-- A PART_RESET that waits for the beat to close, and its `resume` (R365). -/
  resetReq : Option (Req × Bool)
  /-- The rung that the partition rests in, 0 for none (R332); an entry under way; the Route time of its wake; whether its
  exit is complete, and late (R336). -/
  rung : Nat
  entering : Bool
  wakeAt : Option Nat
  exitDone : Bool
  exitLate : Bool
  /-- A DEVICE_FATAL event stops it (R366): 0 none, 1 the self-fence, 2 any other. -/
  devFatal : Nat
  /-- Variants of the last 16 beats, the newest first (R367). -/
  variants : List Nat
  /-- The suspect variant of a trial of dry beats (R367). -/
  trial : Option Nat
  /-- The retained copy (R311): values by (type × 128 + tile) × 8,192 + index. -/
  copy : SMap Nat
  /-- It was reset since the device fenced itself (R268). -/
  fenceReset : Bool
  /-- A staged release is under way (R209). -/
  releasing : Bool
  /-- The outcome that the edge ports show at a milestone (R200, R335). -/
  shown : Nat
  /-- The functions that were reset while a START or a STOP of the partition was armed: its STATE notice to them is discarded (R317). -/
  hushStart : List Nat
  hushStop : List Nat
  deriving DecidableEq, Repr

/-- A search for the context that hung an engine (R367): the engine's unit, the suspects (partition and variant), the partitions
frozen for it, how many suspects were tried, whether a trial runs, and whether the engine was reset for it. -/
structure HangSearch where
  unit : Nat
  suspects : List (Nat × Nat)
  parts : List Nat
  tried : Nat
  running : Bool
  cleaned : Bool
  deriving DecidableEq, Repr

/-- A notice that waits to be written (R305): the function, the kind, the milestone and the record field. -/
structure Notice where
  fn : Nat
  kind : Nat
  ms : Nat
  body : List Byte
  deriving DecidableEq, Repr

/-- The AVSBus commands that the device uses (R340). -/
inductive AvsCmd where
  | write (mv : Nat)
  | readVoltage
  | readCurrent
  | readStatus
  deriving DecidableEq, Repr

/-- What leaves the device towards the host, the links, the regulators, the fabric and the pins. The model keeps it in
order, oldest first; nothing in the device reads it. -/
inductive Output where
  | irq (fn vector : Nat)
  | hostWrite (fn : Nat) (addr : Nat) (data : List Byte)
  | readReply (fn : Nat) (data : List Byte)
  | readError (fn : Nat)
  | readAbort (fn : Nat)
  | readPoisoned (fn : Nat) (data : List Byte)
  /-- A read of the SMBus target: its data, and the PEC that follows where the host clocks it (R348). -/
  | smbus (data : List Byte) (pec : Byte)
  /-- A command on an AVSBus (R340): the bus, 0 `AVS_A` and 1 `AVS_B`, and the rail select. -/
  | avs (bus sel : Nat) (command : AvsCmd)
  /-- One beat of an outbound burst (R207): whether it is the first of its burst, and the source row and context. -/
  | edgeBeat (edge : Nat) (sob : Bool) (src ctx : Nat) (data : BitVec 512)
  /-- `EP_IN_READY` rises or falls, and `EP_PSTATE` changes (R200). -/
  | edgeInReady (edge : Nat) (high : Bool)
  | edgeState (edge state : Nat)
  /-- A GPIO bank's outputs are enabled, or return to high impedance with their pull-downs (R199, R209). -/
  | gpioBank (bank : Nat) (on : Bool)
  | edgeCredit (edge dest rows : Nat)
  | edgeFlush (edge : Nat)
  | edgeMilestone (edge outcome state : Nat)
  | fabricReply (sector stream : Nat) (error : Bool) (cause : Nat) (data : Row)
  | frame (lane : Nat) (symbols : List (BitVec 2))
  | flit (port type : Nat) (h : FlitHdr) (body : List Byte)
  | msOut (n : Nat)
  | ppsOut (t : Nat)
  | pin (index : Nat) (high : Bool)
  | image (data : List Byte)
  /-- What the TAP shifts out (R377). -/
  | tap (idcode : Word)
  deriving DecidableEq, Repr

/-- What a mailbox command that has begun waits for. -/
inductive CmdWait where
  /-- Taken, and not begun. -/
  | fresh
  /-- Its host DMA, with the results of its completion (R301, R310). -/
  | dma (results : List Byte)
  /-- The host DMA of a DUMP_READ of a slot, with whether it releases the slot (R368). -/
  | dump (slot : Nat) (release : Bool) (results : List Byte)
  /-- The stream of a FABRIC_LOAD, and the staged release that follows it (R223, R209). -/
  | load
  /-- Step 7 of the recovery that a PART_RESET runs (R365). -/
  | reset
  /-- A START before it is armed: milestone, step and the floors (quarter, 5 mV units) whose raises it waits for beside the exit of
  its partition's rung (R53, R334). -/
  | exit (ms step : Nat) (floors : List (Nat × Nat))
  /-- The raises of a SET_PERIOD (R53): the change milestone, the period in 8 ns units and the floors. -/
  | period (ms units : Nat) (floors : List (Nat × Nat))
  /-- The states that a POWER_STATE asks for: scope 0 to 15 or 16 for the device, rung, lanes, link state, DRAM hold mask (R339). -/
  | power (scope rung : Nat) (lanes : BitVec 96) (link hold : Nat)
  deriving DecidableEq, Repr

/-- A request that the command engine has taken (R303): its opcode and tag, the request once its command has begun, what it waits for,
and whether its completion is discarded (R304, R317). -/
structure Taken where
  opcode : BitVec 16
  tag : BitVec 16
  req : Option Req
  wait : CmdWait
  discard : Bool
  deriving DecidableEq, Repr

/-- A function's mailbox (R300 to R305), beside its registers: requests taken, completions and notices written (the
16-bit counts; the phase follows from them), what the host last wrote into its three doorbells, the request being run, the
Route time of the last MBX_OVERRUN record for notices, and whether the rings run. -/
structure MbxFn where
  taken : Nat
  written : Nat
  notices : Nat
  tail : Nat
  cplHead : Nat
  ntcHead : Nat
  running : Option Taken
  lostLogAt : Option Nat
  enabled : Bool
  deriving DecidableEq, Repr

/-- A mailbox after reset. -/
def MbxFn.reset : MbxFn := ⟨0, 0, 0, 0, 0, 0, none, none, false⟩

/-! Links: lanes, ports and channels. -/

/-- A lane (R235 to R248, R255): its frame count, its own request (sequence number, byte, not yet answered), the partner's last
request and the answer to it, the frames in a row that showed the partner ready, the frames sent since `to_data` was set,
corrected symbols of the last 64 frames, whether TRAIN_FAIL was logged, the flits that its next frame carries, the slots
of the frames that it received and the port has not taken, by frame count (none: discarded under R242), the count of the last frame that it
received, the LCTL ADAPT bodies that wait for its next slots, and the Route time of its last ADAPT request. -/
structure Lane where
  fcount : Nat
  reqSeq : Nat
  reqByte : BitVec 8
  asked : Bool
  peerSeq : Option Nat
  resp : BitVec 8
  ackSeq : Nat
  readyRun : Nat
  toData : Option Nat
  hist : List Nat
  failLogged : Bool
  tx : List (List Byte)
  rx : List (Nat × List (Option (List Byte)))
  rxAt : Nat
  adapt : List (List Byte)
  adaptAt : Option Nat
  deriving DecidableEq, Repr

/-- A flit that waits in a port: its type and virtual channel, the epoch under which it was made (R50), its body, and for a
forwarded flit the port whose buffer it occupies (R263), the time at which it came (2^-16 ns), and whether that port has been up since, so that
the buffer's release counts there (R251). -/
structure TxFlit where
  type : Nat
  vc : Nat
  epoch : Nat
  body : List Byte
  src : Option Nat
  at_ : Nat
  owes : Bool
  deriving DecidableEq, Repr

/-- A port (R249 to R255): waiting flits by virtual channel, waiting LCTL bodies, the replay buffer (seq and flit) and the
flits to send again, the next seq to send and the next expected, the ack to report, the seq of the NAK that is out, the NAKs
received for one seq, credits (buffers that the partner has freed, flits sent, own buffers freed, by virtual channel) and the
channel to report next, received flits that no command has processed, the records
made in this beat, the Route time at which the accept window closes (R266) and the Route time since which it is down. -/
structure PortSt where
  waiting : SMap (List TxFlit)
  ctl : List (List Byte)
  replay : List (Nat × List Byte)
  resend : List (List Byte)
  txSeq : Nat
  rxNext : Nat
  ack : Nat
  nakFor : Option Nat
  naks : Nat × Nat
  peerCrn : SMap Nat
  sentVc : SMap Nat
  crn : SMap Nat
  crTurn : Nat
  rx : List (List Byte)
  logged : List Nat
  window : Option Nat
  downSince : Option Nat
  deriving DecidableEq, Repr

/-- An item of an inbound channel (R45, R46): gap or data, its tag, its rows, and whether the running beat consumed it. -/
structure ChanItem where
  gap : Bool
  tag : Nat
  rows : Nat
  consumed : Bool
  deriving DecidableEq, Repr

/-- A channel (R256 to R260). Inbound: the bytes of a row that is not complete, the rows of the item under way and whether
it is discarded (R48), the items held, the rows of held items (0 waiting for room in the ring, 1 pushed in the running beat,
2 pushed before it), rows of room that the consumer granted and no row has used, rows of credit at the producer, the next row
number, and whether the running beat has resolved it (R46). Outbound: the bytes not yet in a flit and the rows of the beat.
Both: record flits that no command has processed, and, of a broken channel, the tiles of its partition that have not been reset since; and the
rows of room that a restart gave back to its producer before their credit returned (R124). -/
structure Chan where
  bytes : List Byte
  rowsIn : Nat
  skip : Bool
  items : List ChanItem
  rows : List (Row × Nat)
  avail : Nat
  credited : Nat
  k : Nat
  resolved : Bool
  tx : List Byte
  rowsOut : Nat
  inbox : List (Nat × Nat × Nat)
  unreset : List Nat
  debt : Nat
  deriving DecidableEq, Repr

/-- A lane after reset. -/
def Lane.reset : Lane := ⟨0, 0, 0, false, none, 0, 0, 0, none, [], false, [], [], 0, [], none⟩

/-- A port when it comes up. -/
def PortSt.reset : PortSt := ⟨[], [], [], [], 0, 0, 0xFFF, none, (0, 0), [], [], [], 1, [], [], none, some 0⟩

/-- A channel after it was bound. -/
def Chan.reset : Chan := ⟨[], 0, false, [], [], 0, 0, 0, false, [], 0, [], [], 0⟩

/-- The time unit beside its registers (R319 to R330): the requests that are out, oldest first (exchange number and t1, 2^-16 ns),
the next exchange number, consecutive lost exchanges, consecutive good seconds or exchanges, the correction still to be slewed
(2^-16 ns), whether the limit of R324 was logged for this excursion, the Route time of the PTM request
(2^-16 ns) with the fraction of the last pair, the own requests sent as (exchange number, seq of their flit), and the frequency trims in force
while LOCKED, the newest first, each with the Route time (ns) from which it held (R321). -/
structure TimeSt where
  sent : List (Nat × Nat)
  seqNo : Nat
  lost : Nat
  good : Nat
  slew : Int
  excursion : Bool
  ptmAt : Option Nat
  ptmFrac : Nat
  flits : List (Nat × Nat)
  trims : List (Nat × Int)
  deriving DecidableEq, Repr

/-! DRAM channels. -/

/-- Who waits for the answer of a request (R278): a tile's packet, a fabric sector, a part of a host read, nobody for a host write, and the
patrol scrubber. -/
inductive DramTo where
  | tile (p : Pkt)
  | fab (num : Nat)
  | read (num piece : Nat)
  | posted
  | patrol
  deriving DecidableEq, Repr

/-- A retraining pause (R288, R289): the rank, the subchannel, the bit lane and margin of the narrowest eye, whether one was found, and
the centre of the strobes. -/
structure Pause where
  rank : Nat
  sub : Nat
  lane : Nat
  margin : BitVec 8
  eye : Bool
  centre : BitVec 16
  deriving DecidableEq, Repr

/-- A request at a controller (R274, R278): its number, port and stream ID, direction, device address, length and write data,
whether its command was issued and whether its row had to be activated, its arrival time (ns) and the time spent in pauses,
the partition it acts for, and who waits for its answer; for a read that a later write of its source overtakes (R208), the bytes that it
delivers and the upset bursts that it meets. -/
structure DramReq where
  id : Nat
  port : Nat
  src : Nat
  write : Bool
  addr : Nat
  len : Nat
  data : Row
  issued : Bool
  opened : Bool
  at_ : Nat
  paused : Nat
  part : Option Nat
  to_ : DramTo
  taken : Option (List Byte × List (Nat × Nat × Nat))
  deriving DecidableEq, Repr

/-- A request of a fabric sector that is not answered (R208): its hub, its sector and stream, its number, and the answer (error, cause and
row) once the controller has given it. -/
structure FabReq where
  hub : Nat
  src : Nat
  num : Nat
  answer : Option (Bool × Nat × Row)
  deriving DecidableEq, Repr

/-- A read of the host through its window (R298): its number and function, the requests that are not answered, the bytes by request, whether
one of them is uncorrectable, whether one was answered with cause CHANNEL, and, where firmware reads for a DUMP_READ, the host address that
its data goes to (R368). -/
structure HostRead where
  num : Nat
  fn : Nat
  left : Nat
  got : SMap (List Byte)
  ue : Bool
  abort : Bool
  dma : Option Nat
  deriving DecidableEq, Repr

/-- A controller (R279 to R293): the next request number, the requests in arrival order, the open row of each bank (rank × 32 +
bank group × 4 + bank), the last four accesses of each bank as bits (1 found its row open), the refresh debts by rank × 4 +
bank index, the bursts queued for write-back, the upset bursts (burst, 0 data symbol, 1 check symbol, 2 uncorrectable,
3 poisoned; symbol), whether POWER_STATE holds it in self-refresh, when the pause began, and which records were made in
this beat. The pauses that are due, the training values that it uses and the strobe centres by rank × 2 + subchannel that pauses have found since
(R287 to R289). -/
structure DramCh where
  nextId : Nat
  queue : List DramReq
  rows : List (Nat × Nat)
  hist : SMap Nat
  debt : SMap Nat
  wb : List Nat
  upsets : List (Nat × Nat × Nat)
  held : Bool
  pauseAt : Nat
  due : List Pause
  train : Nat
  centre : SMap (BitVec 16)
  logged : List Nat
  deriving DecidableEq, Repr

/-- A controller after reset. -/
def DramCh.reset : DramCh := ⟨0, [], [], [], [], [], [], false, 0, [], 0, [], []⟩

/-! Configuration loading, power and boot. -/

/-- The load of an image (R216 to R223): where it comes from, the sectors it may write, its header, whether SYNC has come, the
open segment (its index, key, IV and length), the bytes of the segment or of the plain body so far, the offset in the body,
whether the last segment ends (END has come), what KEY_ROLL gave for the next segment, and the map. -/
structure LoadSt where
  src : ImgSrc
  permit : Nat
  hdr : List Byte
  sync : Bool
  seg : Nat
  key : Nat
  iv : Nat
  segLen : Nat
  bytes : List Byte
  offset : Nat
  rolled : Bool
  nextKey : Nat
  nextIv : Nat
  ended : Bool
  map : List Byte
  deriving DecidableEq, Repr

/-- The configuration controller (R216 to R231): the frames that are not zero, by address of R220, the upset bits of a frame (its
4,096 data bits and then its 288 check bits), the essential-bits words by sector × 3,840 + frame, and the load under way. -/
structure CfgSt where
  frames : SMap (BitVec 4096)
  flips : SMap (BitVec 4384)
  essential : SMap Word
  load : Option LoadSt
  deriving DecidableEq, Repr

/-- Fuses and keys (R217, R218): `pk_hash` (0 while blank), the two keys, `key_src` and `enc_req`. -/
structure FuseSt where
  pkHash : BitVec 384
  efuseKey : Option (BitVec 256)
  bbramKey : Option (BitVec 256)
  keySrc : BitVec 2
  encReq : Bool
  deriving DecidableEq, Repr

/-- A quarter at the governor and the power manager (R51, R345, R346): loops in a row above the band, the power and the thermal
ceiling in 5 mV units, whether each was logged in this excursion, and the last measured junction temperature in 1/8 degree. -/
structure QuarterSt where
  above : Nat
  ceilP : Nat
  ceilT : Nat
  loggedP : Bool
  loggedT : Bool
  tj : Int
  deriving DecidableEq, Repr

/-- The power manager beside its registers (R341, R344 to R346): the quarters, the device power of the last ten loops in 0.125 W,
the loops in a row 2 % below the limit, whether the limit that cannot be met was logged, the target of the request that is out
on each rail (mV), the voltages before L4, the step of a device transition (0 none; 1 entry, domains; 2 entry, rails; 3 entry,
`VDD_RET`; 4 exit, `VDD_RET`; 5 exit, rails; 6 exit, domains), the rung that it leads to, and the domains that an aborted
ramp or the thermal trip left off (column × 9 + position, or 144 + sector, and after the trip those that were off before it with
256 added; R344, R346). -/
structure PwrSt where
  quarters : List QuarterSt
  watts : List Nat
  below : Nat
  unmet : Bool
  want : SMap Nat
  saved : SMap Nat
  phase : Nat
  target : Nat
  off : List Nat
  deriving DecidableEq, Repr

/-- An entry of the boot record (R354): a STATE entry is kind 1. -/
structure BootEntry where
  boot : Nat
  seq : Nat
  kind : Nat
  step : Nat
  phase : Nat
  result : Nat
  code : Nat
  payload : List Byte
  deriving DecidableEq, Repr

/-- The fallback state of a STATE entry (R354): the flags, 2 bits a channel, 2 bits a lane, and 4 bits a column. -/
structure FallSt where
  flags : BitVec 8
  chans : BitVec 16
  lanes : BitVec 192
  cols : BitVec 64
  deriving DecidableEq, Repr

/-- A slot of the flash directory (R214): kind, offset, length and image version. -/
structure FlashSlot where
  kind : Nat
  offset : Nat
  length : Nat
  version : Nat
  deriving DecidableEq, Repr

/-- Boot (R351 to R357, R377): the levels of `POR_N`, `SYS_RST_N` and `PERST_N` (true: asserted), `CFG_MODE`, the steps that are
open, whether the boot has ended under R353, the boot record's two sectors, which of them is written, the next entry number,
the fallback state, the steps that the previous boot never finished, whether the firmware runs, the slot kinds used at B1 and B9, whether the load of B1
or B9 has failed (with its error code) or ended, the `layout` of the fabric image under way, whether the boot is a warm one, the levels of `DEV_OK` and
`CFG_DONE`, whether `CFG_ERR_N` is driven low, the octets whose reference clock runs (R21), and the slots that the directory names (R214). -/
structure BootSt where
  por : Bool
  sysRst : Bool
  perst : Bool
  mode : BitVec 3
  steps : List Nat
  dead : Bool
  secA : List BootEntry
  secB : List BootEntry
  inB : Bool
  seq : Nat
  fall : FallSt
  unfinished : List Nat
  fwUp : Bool
  fwSlot : Nat
  fabSlot : Nat
  loadEnd : Option (Option Nat)
  layout : Option Nat
  warm : Bool
  devOk : Bool
  cfgDone : Bool
  cfgErr : Bool
  refclk : BitVec 12
  slots : List FlashSlot
  /-- The lanes whose training failed in this boot's B8 (R356). -/
  failedLanes : BitVec 96
  deriving DecidableEq, Repr

/-- Nothing fell back: no dead position. -/
def FallSt.none : FallSt := ⟨0, 0, 0, 0xFFFFFFFFFFFFFFFF⟩

/-- A quarter after reset: no ceiling below 0.85 V (R51). -/
def QuarterSt.reset : QuarterSt := ⟨0, 170, 170, false, false, 0⟩

/-- The power manager after reset. -/
def PwrSt.reset : PwrSt :=
  ⟨[QuarterSt.reset, QuarterSt.reset, QuarterSt.reset, QuarterSt.reset], [], 0, false, [], [], 0, 0, []⟩

/-- Boot after a cold reset: `POR_N` is low. -/
def BootSt.reset : BootSt :=
  ⟨true, false, true, 0, [], false, [], [], true, 0, FallSt.none, [], false, 0, 2, Option.none, Option.none, false, false, false, false, 0xFFF, [], 0⟩

/-- Why the part stops: the spec gives no effect. Every constructor is safe: nothing is proved of what follows. -/
inductive Fault where
  /-- A reserved or undefined operand value of an entry or instruction, whose result is unpredictable within the partition
  (R6, R62, R74, R118, R127, R143): raised by the meanings of the tile commands. Safe. -/
  | unpredictableInPartition (rule : Nat)
  /-- A non-zero write to a reserved field, or a use whose result is unpredictable within the device (R6, R16): raised by
  the meanings of the register commands. Safe. -/
  | unpredictableInDevice (rule : Nat)
  deriving DecidableEq, Repr

/-- Why the model has no meaning for a command. -/
inductive Refusal where
  /-- A command that the model does not yet cover, by its mnemonic: raised by the dispatch alone. Safe. -/
  | notModelled (mnemonic : String)
  deriving DecidableEq, Repr

/-- The state of the part. -/
structure State where
  /-- The commands that wait, first in, first out: the model's own field. -/
  pending : List Instr
  /-- Every register that does not read as its reset value, by address. -/
  regs : SMap Word
  /-- The tile stores, by (column × 9 + position) × 2^23 + wide-view byte address (R106). -/
  store : Memory
  /-- Upset words of the tile stores (R112). -/
  upsets : List Upset
  tiles : SMap Tile
  routers : SMap Router
  /-- Packets that the network has brought to their destination and that the destination has not consumed. -/
  delivered : List Pkt
  edges : SMap EdgeSt
  /-- The fabric: sectors; the band-crossing lines by column, as the registers at their north and south ends (R194); the PLLs, those of the columns
  at 0 to 15 and the two of GPIO bank b at 16 + 2b (R197). -/
  sects : SMap SectSt
  bands : SMap (BitVec 256 × BitVec 256)
  plls : SMap PllSt
  /-- The boundary switches between columns c and c + 1 that are open (R198), and the columns that the I/O ring joins to bank b, at bits 16b to
  16b + 15. -/
  boundary : BitVec 15
  ring : BitVec 64
  /-- The GPIO banks whose outputs are enabled, and the levels that the outputs of the 240 pins drive (R199, R209). -/
  gpioOn : BitVec 4
  gpio : BitVec 240
  /-- Trace buffers by quarter, 16,384 records of 16 B each (R193). -/
  traces : SMap Memory
  /-- The 16 ns tick of the last trace record of a quarter and the records accepted in it (R193). -/
  traceTick : SMap (Nat × Nat)
  /-- The DRAM by channel × 2^36 + channel offset (R275), the controllers, and the ports of the hubs that logged a violation in
  this beat (hub × 8 + port; R277). -/
  dram : Memory
  dramCh : SMap DramCh
  hubLogged : List Nat
  /-- Requests of fabric sectors (R208) and reads of the host (R298) that are not answered, in arrival order, and the next number of either. -/
  fabReqs : List FabReq
  hostReads : List HostRead
  reqNum : Nat
  lanes : SMap Lane
  ports : SMap PortSt
  chans : SMap Chan
  parts : SMap Part
  search : List HangSearch
  /-- Retired generations by partition, with the Route time (ns) at which each was retired (R12, R364). -/
  retired : SMap (List (Nat × Nat))
  log : List LogRec
  /-- Records of CONTAINED or higher written, and the latest of them (R349). -/
  logHigh : Nat
  logLast : Option LogRec
  /-- ALERT_STATUS and ALERT_MASK of the SMBus target (R349). -/
  alertStatus : BitVec 8
  alertMask : BitVec 8
  notices : List Notice
  /-- The dump slots in the order in which their dumps were begun, oldest first (R368). -/
  dumpOrder : List Nat
  /-- Functions owed a STATE notice at a milestone although no state changes there (R305): function, whether it is the period
  change (else the epoch), target byte. -/
  owed : List (Nat × Bool × Nat)
  /-- The heartbeat watchdog has fired and no warm reset has followed (R307, R366). -/
  fwLost : Bool
  mbx : SMap MbxFn
  /-- The armed epoch change is a rejoin: the fence clears with it (R268). -/
  rejoin : Bool
  /-- Which functions the next take may serve (R303): the function served last. -/
  lastServed : Nat
  /-- Route time in units of 2^-16 ns (R319). -/
  time : Nat
  timeUnit : TimeSt
  /-- The time unit runs (boot step B3). -/
  timeRuns : Bool
  cfg : CfgSt
  fuses : FuseSt
  pwr : PwrSt
  boot : BootSt
  /-- The images that the device itself wrote into its flash, by slot kind (R215), and the image of FW_UPDATE that is not yet
  final: slot kind and bytes. -/
  flash : SMap (List Byte)
  upload : Nat × List Byte
  /-- The training values that TRAIN_STORE holds, by channel (R287). -/
  trained : SMap Nat
  /-- What left the device, oldest first: the model's own field. -/
  out : List Output
  /-- The free-value counter: the model's own field (log entry 15). -/
  free : Nat
  deriving DecidableEq, Repr

/-- The part right after a cold reset, before boot. -/
def State.reset : State where
  pending := []
  regs := []
  store := []
  upsets := []
  tiles := []
  routers := []
  delivered := []
  edges := []
  sects := []
  bands := []
  plls := []
  boundary := 0
  ring := 0
  gpioOn := 0
  gpio := 0
  traces := []
  traceTick := []
  dram := []
  dramCh := []
  hubLogged := []
  fabReqs := []
  hostReads := []
  reqNum := 0
  lanes := []
  ports := []
  chans := []
  parts := []
  search := []
  retired := []
  log := []
  logHigh := 0
  logLast := none
  alertStatus := 0
  alertMask := 0x3F
  notices := []
  dumpOrder := []
  owed := []
  fwLost := false
  mbx := []
  rejoin := false
  lastServed := 16
  time := 0
  timeUnit := ⟨[], 0, 0, 0, 0, false, none, 0, [], []⟩
  timeRuns := false
  cfg := ⟨[], [], [], none⟩
  fuses := ⟨0, none, none, 0, false⟩
  pwr := PwrSt.reset
  boot := BootSt.reset
  flash := []
  upload := (0, [])
  trained := []
  out := []
  free := 0

end Sys2Proof.Machine
end

