-- ==== Sys2Proof/Machine/Ops.lean ====
section
/-!
DEFINITION. The named operations over registers, partitions, the error log and notices: R14, R15, R34, R41, R305, R370 to
R372 and R394.
-/
namespace Sys2Proof.Machine

/-! Registers. -/

/-- A register of the management map. -/
def State.rd (s : State) (a : Nat) : Word := SMap.get s.regs (Reg.resetOf a) a

/-- The state with a register written by hardware or firmware, whatever its access type. -/
def State.wr (s : State) (a : Nat) (v : Word) : State := { s with regs := SMap.set s.regs a v }

/-- A field of a register. -/
def State.fld (s : State) (a lo w : Nat) : Nat := (s.rd a).field lo w

/-- The state with a field of a register replaced. -/
def State.setFld (s : State) (a lo w v : Nat) : State := s.wr a ((s.rd a).setField lo w v)

/-- One bit of a register. -/
def State.bit (s : State) (a i : Nat) : Bool := (s.rd a).bit i

/-- The state with one bit of a register replaced. -/
def State.setBit (s : State) (a i : Nat) (b : Bool) : State := s.wr a ((s.rd a).setBit i b)

/-- The state with bits of a register set. -/
def State.orReg (s : State) (a : Nat) (v : Word) : State := s.wr a (s.rd a ||| v)

/-- The state with a counter register raised, wrapping at 2^32. -/
def State.addReg (s : State) (a n : Nat) : State := s.wr a (s.rd a + BitVec.ofNat 32 n)

/-- The 48-bit or 64-bit number that two registers hold, low word first. -/
def State.rd2 (s : State) (lo hi : Nat) : Nat := (s.rd lo).toNat + 2 ^ 32 * (s.rd hi).toNat

/-- The state with a number written into two registers, low word first. -/
def State.wr2 (s : State) (lo hi v : Nat) : State :=
  (s.wr lo (BitVec.ofNat 32 v)).wr hi (BitVec.ofNat 32 (v / 2 ^ 32))

/-! Records of the units. -/

/-- A tile's record. -/
def State.tile (s : State) (t : Nat) : Tile := SMap.get s.tiles Tile.reset t

/-- The state with a tile's record replaced. -/
def State.setTile (s : State) (t : Nat) (x : Tile) : State := { s with tiles := SMap.set s.tiles t x }

/-- A router's record. -/
def State.router (s : State) (r : Nat) : Router := SMap.get s.routers Router.reset r

/-- The state with a router's record replaced. -/
def State.setRouter (s : State) (r : Nat) (x : Router) : State := { s with routers := SMap.set s.routers r x }

/-- An edge port's record, by edge code. -/
def State.edge (s : State) (e : Nat) : EdgeSt := SMap.get s.edges EdgeSt.reset e

/-- The state with an edge port's record replaced. -/
def State.setEdge (s : State) (e : Nat) (x : EdgeSt) : State := { s with edges := SMap.set s.edges e x }

/-- A partition's record, if the partition exists. -/
def State.part (s : State) (p : Nat) : Option Part := SMap.find s.parts p

/-- The state with a partition's record replaced. -/
def State.setPart (s : State) (p : Nat) (x : Part) : State := { s with parts := SMap.set s.parts p x }

/-- The state with a partition's record changed, where the partition exists. -/
def State.updPart (s : State) (p : Nat) (f : Part → Part) : State :=
  match s.part p with
  | some x => s.setPart p (f x)
  | none => s

/-- A function's mailbox. -/
def State.fnMbx (s : State) (fn : Nat) : MbxFn := SMap.get s.mbx MbxFn.reset fn

/-- The state with a function's mailbox replaced. -/
def State.setFnMbx (s : State) (fn : Nat) (x : MbxFn) : State := { s with mbx := SMap.set s.mbx fn x }

/-- The state with something sent out of the device. -/
def State.emit (s : State) (o : Output) : State := { s with out := s.out ++ [o] }

/-- Route time in ns (R319). -/
def State.now (s : State) : Nat := s.time / 2 ^ 16

/-- The state at the next free value. -/
def State.stepFree (s : State) : State := { s with free := s.free + 1 }

/-! Time and partitions. -/

/-- The current milestone number (R31). -/
def State.msCount (s : State) : Nat := s.rd2 Reg.TIME_MS_COUNT_LO Reg.TIME_MS_COUNT_HI % 2 ^ 48

/-- The period in force, in ns (R29). -/
def State.periodNs (s : State) : Nat := 8 * s.fld Reg.TIME_MS_PERIOD 0 13

/-- Route time of a milestone, in ns (R29). -/
def State.msTime (s : State) (n : Nat) : Nat :=
  let base := s.rd2 Reg.TIME_MS_BASE_N_LO Reg.TIME_MS_BASE_N_HI % 2 ^ 48
  s.rd2 Reg.TIME_MS_BASE_T_LO Reg.TIME_MS_BASE_T_HI + (n + 2 ^ 48 - base) % 2 ^ 48 * s.periodNs

/-- The state codes of R34. -/
def psStopped : Nat := 0
def psArmed : Nat := 1
def psRunning : Nat := 2
def psFrozen : Nat := 3
def psRecovering : Nat := 4

/-- The state of a partition (R34). -/
def State.pstate (s : State) (p : Nat) : Nat := s.fld (Reg.PART_BEAT_STATUS p) 0 3

/-- The partition that holds a column, lowest number first. -/
def colPartIn : SMap Part → Nat → Option Nat
  | [], _ => none
  | (p, x) :: r, c => if x.firstCol ≤ c ∧ c ≤ x.lastCol then some p else colPartIn r c

/-- The partition that holds a column. -/
def State.colPart (s : State) (c : Nat) : Option Nat := colPartIn s.parts c

/-- Route time goes on to an instant ahead of it (2^-16 ns), modulo its wrap (R319, R387); an instant that has passed leaves it
(log entry 138). -/
def State.timeTo (s : State) (t : Nat) : State :=
  if (t + 2 ^ 80 - s.time % 2 ^ 80) % 2 ^ 80 < 2 ^ 79 then { s with time := t % 2 ^ 80 } else s

/-- The partition that holds a logical tile (R17); a window instance 128 + c stands for column c. -/
def State.tilePart (s : State) (t : Nat) : Option Nat := s.colPart (if t < 128 then t / 8 else t - 128)

/-- The columns of a partition. -/
def Part.cols (x : Part) : List Nat := (List.range 16).filter (fun c => decide (x.firstCol ≤ c ∧ c ≤ x.lastCol))

/-- The logical tiles of a partition, in ascending order (R17). -/
def Part.tiles (x : Part) : List Nat := (List.range 128).filter (fun t => decide (x.firstCol ≤ t / 8 ∧ t / 8 ≤ x.lastCol))

/-- The tiles of a partition by number; none where the partition does not exist. -/
def State.partTiles (s : State) (p : Nat) : List Nat :=
  match s.part p with
  | some x => x.tiles
  | none => []

/-- Whether the tile's partition is in a state; an unassigned tile is in none. -/
def State.tileIn (s : State) (t st : Nat) : Bool :=
  match s.tilePart t with
  | some p => s.pstate p == st
  | none => false

/-- Whether RWL fields of a unit accept writes (R15): its owner is STOPPED, FROZEN or RECOVERING, or it has none. -/
def State.unlocked (s : State) (owner : Option Nat) : Bool :=
  match owner with
  | none => true
  | some p => !(s.pstate p == psArmed || s.pstate p == psRunning)

/-- The rung of the device, 0 to 4 (R332). -/
def State.devRung (s : State) : Nat := s.fld Reg.PWR_STATUS 0 3

/-- Whether a tile rests in a rung: its partition's or the device's (R332). -/
def State.tileRests (s : State) (t : Nat) : Bool :=
  s.devRung != 0 || s.bit Reg.PWR_STATUS 4 ||
  (match s.tilePart t with
   | some p => (match s.part p with | some x => x.rung != 0 | none => false)
   | none => false)

/-- Whether a partition that runs rests in a rung (R335). -/
def State.rests (s : State) (p : Nat) : Bool :=
  match s.part p with
  | some x => s.pstate p == psRunning && x.rung != 0
  | none => false

/-- A bit of `MBX_STATUS` that describes the device, in every function's mailbox (R300). -/
def State.mbxStatus (s : State) (i : Nat) (b : Bool) : State := (List.range 17).foldl (fun s f => s.setBit (Reg.MBX_STATUS f) i b) s

/-! The error log (R370 to R372, R394). -/

/-- The severities of R371. -/
def sevCorrected : Nat := 0
def sevContained : Nat := 1
def sevPartition : Nat := 2
def sevDevice : Nat := 3

/-- The 32 bytes of a record (R370). -/
def LogRec.bytes (r : LogRec) : List Byte :=
  toBytes r.time 8 ++ toBytes r.ms 6 ++
  [BitVec.ofNat 8 (match r.part with | some p => p % 16 + 16 * r.sev | none => 16 * r.sev + 64), BitVec.ofNat 8 r.seq] ++
  toBytes (r.cls * 4096 + r.idx) 2 ++ toBytes r.code 2 ++ (r.detail ++ List.replicate 12 0).take 12

/-- The oldest kept record that a test picks, and the others. -/
def pickOldest (f : LogRec → Bool) : List LogRec → Option (LogRec × List LogRec)
  | [] => none
  | r :: rest =>
    if f r then some (r, rest)
    else match pickOldest f rest with
      | some (x, others) => some (x, r :: others)
      | none => none

/-- The slot that a new record takes, with the records that stay (R372); none when it is not kept. -/
def logSlot (log : List LogRec) (sev : Nat) : Option (Nat × List LogRec) :=
  if log.length < 4096 then some (log.length, log)
  else if sev = 0 then none
  else match pickOldest (fun r => r.sev == 0) log with
    | some (x, rest) => some (x.slot, rest)
    | none =>
      match pickOldest (fun r => decide (r.sev < sev)) log with
      | some (x, rest) => some (x.slot, rest)
      | none =>
        if sev = sevDevice then
          (match log with | x :: rest => some (x.slot, rest) | [] => none)
        else none

/-- A notice to a function waits to be written (R305). -/
def State.notify (s : State) (fn kind : Nat) (body : List Byte) : State :=
  { s with notices := s.notices ++ [⟨fn, kind, s.msCount, body⟩] }

/-- A notice to each of a list of functions. -/
def State.notifyAll (s : State) (fns : List Nat) (kind : Nat) (body : List Byte) : State :=
  fns.foldl (fun s f => s.notify f kind body) s

/-- Whether a function is in D3hot (R295; log entry 20). -/
def State.inD3 (s : State) (f : Nat) : Bool := s.fld (Reg.PCI_PM f) 0 2 == 3

/-- Whether a vector of a function is held back: by the function's mask, by its own, or in D3hot (R295; log entry 20). -/
def State.vectorHeld (s : State) (f v : Nat) : Bool :=
  s.bit (Reg.PCI_MSIX f) 30 || s.bit (Reg.MSIX_TABLE f (4 * v + 3)) 0 || s.inD3 f

/-- A vector of a function (R295; log entry 20): none is sent while MSI-X is off, and one that is held back is pending. -/
def State.sendVector (s : State) (f v : Nat) : State :=
  if !(s.bit (Reg.PCI_MSIX f) 31) then s
  else if s.vectorHeld f v then s.setBit (Reg.MSIX_PBA f 0) v true
  else s.emit (.irq f v)

/-- The pending vectors of a function that nothing holds back any more are sent (R295; log entry 20). -/
def State.releaseVectors (s : State) (f : Nat) : State :=
  (List.range 3).foldl (fun (s : State) v =>
    if s.bit (Reg.MSIX_PBA f 0) v && s.bit (Reg.PCI_MSIX f) 31 && !(s.vectorHeld f v) then
      (s.setBit (Reg.MSIX_PBA f 0) v false).emit (.irq f v)
    else s) s

/-- A read of a function completes with Unsupported Request, which AER records (R295, R298; log entry 20). -/
def State.readRefused (s : State) (f : Nat) : State := (s.setBit (Reg.PCI_AER f 0) 20 true).emit (.readError f)

/-- Vector 2 on every function that has MSI-X enabled (R306; log entry 20). -/
def State.vector2 (s : State) : State := (List.range 17).foldl (fun (s : State) f => s.sendVector f 2) s

/-- The fault line of a partition has risen (R41): one that rests in a rung while RUNNING wakes (R336). -/
def State.faulted (s : State) (p : Nat) (x : Part) : Part :=
  { x with
    fault := true
    wakeAt := if s.pstate p == psRunning && x.rung != 0 && x.wakeAt.isNone then some s.now else x.wakeAt }

/-- The fault line of a partition rises (R41). -/
def State.raiseFault (s : State) (p : Nat) : State := s.updPart p (s.faulted p)

/-- A record is kept as the cause of the fault lines that it raises (R369). -/
def State.keepCause (s : State) (sev : Nat) (part : Option Nat) (r : LogRec) : State :=
  if sev < sevPartition then s
  else { s with parts := s.parts.map (fun (px : Nat × Part) =>
    if (part = some px.1 ∨ part = none) ∧ px.2.fault ∧ px.2.cause = none then (px.1, { px.2 with cause := some r }) else px) }

/-- What a severity does beside the record: fault lines (R41, R366), vector 2 (R306) and the alert (R349). -/
def State.logEffect (s : State) (sev : Nat) (part : Option Nat) : State :=
  if sev = sevPartition then
    (match part with | some p => s.raiseFault p | none => s)
  else if sev = sevDevice then
    let s := { s with
      parts := s.parts.map (fun (px : Nat × Part) =>
        if s.pstate px.1 = psArmed ∨ s.pstate px.1 = psRunning then (px.1, { s.faulted px.1 px.2 with devFatal := 2 })
        else if s.pstate px.1 = psStopped then px
        else (px.1, { px.2 with devFatal := 2 })),
      alertStatus := s.alertStatus ||| 4 }
    s.vector2
  else s

/-- The milestone field of a record: the opening milestone of the beat it belongs to, or the current one (R370). -/
def State.logMs (s : State) (part : Option Nat) : Nat :=
  match part with
  | none => s.msCount
  | some p => match s.part p with
    | some x => if x.beatOpen then x.openMs else s.msCount
    | none => s.msCount

/-- Events whose record does not need the firmware (R370): the watchdog of R307 and the thermal trip. -/
def selfLogged (code : Nat) : Bool := code == 0x0802 || code == 0x0905

/-- Log an event: class and index of the unit, code, severity, partition and detail (R370 to R372, R394), with its
notices (R305) and the fault line (R41). Lost firmware writes no record (R370; log entry 50). -/
def State.logRec (s : State) (cls idx code sev : Nat) (part : Option Nat) (detail : List Byte) : State :=
  let s := s.logEffect sev part
  let next := s.fld Reg.LOG_NEXT 16 16
  let s := s.keepCause sev part ⟨s.now, s.logMs part, part, sev, next, 0, cls, idx, code, detail⟩
  if s.fwLost && !selfLogged code then s else
  match logSlot s.log sev with
  | none => if sev = 0 then s.addReg Reg.LOG_CORR_COUNTED 1 else s.addReg Reg.LOG_LOST 1
  | some (slot, rest) =>
    let r : LogRec := ⟨s.now, s.logMs part, part, sev, next, slot, cls, idx, code, detail⟩
    let log := rest ++ [r]
    let s := { s with log := log }
    let s := s.wr Reg.LOG_NEXT (BitVec.ofNat 32 (slot + 65536 * ((next + 1) % 65536)))
    let s := s.wr Reg.LOG_STATUS (BitVec.ofNat 32 (log.length + (if log.length = 4096 then 65536 else 0)))
    if sev = 0 then s
    else
      let s := { s with logHigh := min (s.logHigh + 1) 65535, logLast := some r }
      let fns := match part with | some p => [p + 1, 0] | none => [0]
      s.notifyAll fns 0 r.bytes

/-- Log an event of a tile (unit class 0, R371) attributed to the tile's partition. -/
def State.logTile (s : State) (t code sev : Nat) (detail : List Byte) : State :=
  s.logRec 0 t code sev (s.tilePart t) detail

/-- The detail of a record that the spec does not lay out (log entry 17). -/
def State.openDetail (s : State) (code : Nat) : List Byte := (List.range 12).map (fun k => Config.openDetail code s.free k)

/-- A STATE notice's record field (R305). -/
def stateNoticeBody (p old new gen step : Nat) : List Byte :=
  toBytes p 1 ++ toBytes old 1 ++ toBytes new 1 ++ toBytes gen 1 ++ toBytes step 6

/-- The step counter of a partition (R35). -/
def State.step48 (s : State) (p : Nat) : Nat := s.rd2 (Reg.PART_STEP_LO p) (Reg.PART_STEP_HI p) % 2 ^ 48

/-- The stage of a partition's release (R209). -/
def State.relStage (s : State) (p : Nat) : Nat := s.fld (Reg.FAB_PART_RELCTL p) 8 2

/-- Whether the fabric side of a port of a band that a partition owns is connected: enabled, and from stage 1 of the release on (R209). -/
def State.portConnected (s : State) (p e : Nat) : Bool := s.bit (Reg.EDGE_CTRL e) 17 && decide (1 ≤ s.relStage p)

/-- A partition changes its state: its connected edge ports show it on `EP_PSTATE` (R200), and the STATE notice of every change is posted (R34,
R305), but to a function that was reset since it was armed (R317). -/
def State.setPstate (s : State) (p st : Nat) : State :=
  let old := s.pstate p
  let s := s.setFld (Reg.PART_BEAT_STATUS p) 0 3 st
  if old = st then s
  else
    let gen := match s.part p with | some x => x.gen | none => 0
    let cols := match s.part p with | some x => x.cols | none => []
    let s := (cols ++ cols.map (16 + ·)).foldl (fun (s : State) e => if s.portConnected p e then s.emit (.edgeState e st) else s) s
    let hushed := match s.part p with
      | some x => if old = psArmed ∧ st = psRunning then x.hushStart else if st = psStopped then x.hushStop else []
      | none => []
    s.notifyAll ([p + 1, 0].filter (fun f => !(hushed.contains f))) 1 (stateNoticeBody p old st gen (s.step48 p))

/-- Whether a column presents eight tiles (R18). -/
def State.colOk (s : State) (c : Nat) : Bool := s.fld (Reg.TNOC_DETOUR c) 4 2 != 2

end Sys2Proof.Machine
end

