-- ==== Sys2Proof/Machine/Net.lean ====
section
/-!
DEFINITION. Packets of the tile network: classes and lengths (R175), legal destinations and the source check (R179, R188),
and sending and consuming a packet.
-/
namespace Sys2Proof.Machine

/-- The packet types of R175. -/
def ptReserve : Nat := 0
def ptGrant : Nat := 1
def ptPush : Nat := 2
def ptSignal : Nat := 3
def ptSigack : Nat := 4
def ptDrd : Nat := 5
def ptDrdr : Nat := 6
def ptDwr : Nat := 7
def ptDwra : Nat := 8
def ptCredit : Nat := 9
def ptMreq : Nat := 10
def ptMrsp : Nat := 11

/-- The virtual-channel class of a packet type (R175): 0 CTRL, 1 DATA, 2 MGMT. -/
def pktClass (ty : Nat) : Nat :=
  if ty = ptPush ∨ ty = ptDrdr ∨ ty = ptDwr then 1 else if ty = ptMreq ∨ ty = ptMrsp then 2 else 0

end Sys2Proof.Machine

namespace Sys2Proof

/-- Whether a header's type is defined and its length is that of the type (R175). -/
def Pkt.formed (p : Pkt) : Bool :=
  let ty := p.type.toNat
  let len := p.len.toNat
  if 12 ≤ ty then false
  else if Machine.pktClass ty = 1 then len == 16
  else if Machine.pktClass ty = 2 then decide (len ≤ 16)
  else len == 0

/-- A packet with nothing in it but its destination, source and type; the source router stamps the rest (R186). -/
def Pkt.make (dst : Nat) (dkind : Bool) (src : Nat) (skind : Bool) (ty ctx arg : Nat) (payload : Row) : Pkt where
  dst := BitVec.ofNat 7 dst
  dkind := dkind
  src := BitVec.ofNat 7 src
  skind := skind
  part := 0
  gen := 0
  prio := 0
  type := BitVec.ofNat 4 ty
  bt := 0
  age := 0
  len := if Machine.pktClass ty = 1 then 16 else 0
  ctx := BitVec.ofNat 3 ctx
  arg := BitVec.ofNat 64 arg
  payload := payload

/-- An argument field of a header, by its bit numbers of R175, which count from bit 64. -/
def Pkt.argField (p : Pkt) (lo w : Nat) : Nat := p.arg.toNat / 2 ^ (lo - 64) % 2 ^ w

end Sys2Proof

namespace Sys2Proof.Machine

/-- The router (column × 8 + row) at which an edge code is attached (R172); the hub is reached from row 0 here, the
sending router's own row being used where it is known. -/
def edgeRouter (code : Nat) : Nat :=
  if code < 16 then code * 8
  else if code < 32 then (code - 16) * 8 + 7
  else if code < 40 then code - 32
  else if code < 48 then 15 * 8 + (code - 40)
  else 0

/-- Whether a tile may send a packet to a destination (R179). -/
def State.legalDst (s : State) (t : Nat) (p : Pkt) : Bool :=
  let d := p.dst.toNat
  if p.dkind && d == 0x30 then pktClass p.type.toNat == 2
  else match s.tilePart t with
    | none => false
    | some q => match s.part q with
      | none => false
      | some x =>
        if p.dkind then
          (if d < 16 then decide (x.firstCol ≤ d ∧ d ≤ x.lastCol)
           else if d < 32 then decide (x.firstCol ≤ d - 16 ∧ d - 16 ≤ x.lastCol)
           else if d < 40 then x.firstCol == 0
           else if d < 48 then x.lastCol == 15
           else false)
        else decide (x.firstCol ≤ d / 8 ∧ d / 8 ≤ x.lastCol)

/-- The detail of a PART_VIOLATION record (R188). -/
def violationDetail (unit port : Nat) (p : Pkt) : List Byte :=
  toBytes unit 1 ++ toBytes port 1 ++ toBytes (p.dst.toNat + 128 * p.dkind.toNat) 1 ++
  toBytes (p.src.toNat + 128 * p.skind.toNat) 1 ++ toBytes p.part.toNat 1 ++ toBytes p.type.toNat 1

/-- A tile offers a packet to its router, which checks the destination first (R188): a violation is not sent, is logged
against the tile's own partition once per beat, and raises the fault line. Whether it was sent, and the state. -/
def State.sendPkt (s : State) (t : Nat) (p : Pkt) : Bool × State :=
  if s.legalDst t p then
    let r := s.router t
    (true, s.setRouter t { r with inject := r.inject ++ [p] })
  else
    let r := s.router t
    if r.partLogged then
      (false, match s.tilePart t with | some q => s.raiseFault q | none => s)
    else
      let s := s.setRouter t { r with partLogged := true }
      (false, s.logRec 1 t 0x0401 sevPartition (s.tilePart t) (violationDetail t 0 { p with part := BitVec.ofNat 4 ((s.tilePart t).getD 0) }))

/-- An edge port offers a packet to the router at which it is attached (R172, R186). -/
def State.sendFromEdge (s : State) (e : Nat) (p : Pkt) : State :=
  let a := edgeRouter e
  let port := if e < 32 then 5 else 6
  let r := s.router a
  s.setRouter a { r with injectEdge := SMap.set r.injectEdge port (SMap.get r.injectEdge [] port ++ [p]) }

/-- The first packet equal to one is taken out of a list. -/
def dropFirst (p : Pkt) : List Pkt → List Pkt
  | [] => []
  | q :: r => if q = p then r else q :: dropFirst p r

/-- The destination consumes a packet: it is no longer among those delivered (R182). -/
def State.consume (s : State) (p : Pkt) : State := { s with delivered := dropFirst p s.delivered }

end Sys2Proof.Machine
end

