-- ==== Sys2Proof/Machine/Sem.lean ====
section
/-!
DEFINITION. Semaphores (R153 to R158, R161 to R170): signals, takes, faults, the Broken state, loads and restores.
-/
namespace Sys2Proof.Machine

/-- Signal sources (SEM_FAULT source). -/
def srcItin : Nat := 0
def srcTc : Nat := 1
def srcSe : Nat := 2
def srcRemote : Nat := 3
def srcChan : Nat := 4
def srcEdge : Nat := 5

/-- The count of a semaphore. -/
def State.semCount (s : State) (t k : Nat) : Nat := s.fld (Reg.SEM_CNT t k) 0 12

/-- The declared capacity (R153). -/
def State.semCap (s : State) (t k : Nat) : Nat := s.fld (Reg.SEM_CFG t k) 0 12

/-- Whether a semaphore is Broken. -/
def State.semBroken (s : State) (t k : Nat) : Bool := s.bit (Reg.SEM_CNT t k) 16

/-- The state with a count replaced. -/
def State.setSemCount (s : State) (t k n : Nat) : State := s.setFld (Reg.SEM_CNT t k) 0 12 n

/-- The variant of the running beat at a tile (R35). -/
def State.variant (s : State) (t : Nat) : Nat := s.fld (Reg.SEQ_BEAT_STATUS t) 8 3

/-- A semaphore fault of a tile (R156, R157, R167): the registers load while `seen` is 0, one record is logged per tile
and beat, and the fault line rises. Causes: 0 overflow, 1 underflow, 2 broken. -/
def State.semFault (s : State) (t k cause src amount before issuer : Nat) : State :=
  let s := if s.bit (Reg.SEM_FAULT t) 0 then s
    else (s.wr (Reg.SEM_FAULT t) (BitVec.ofNat 32 (1 + k * 2 ^ 8 + cause * 2 ^ 16 + src * 2 ^ 20))).wr
      (Reg.SEM_FAULT_ARG t) (BitVec.ofNat 32 (amount % 4096 + before * 2 ^ 16))
  if cause = 2 then s
  else
    let s := match s.tilePart t with | some p => s.raiseFault p | none => s
    let x := s.tile t
    if x.semLogged then s
    else
      let s := s.setTile t { x with semLogged := true }
      s.logTile t (if cause = 0 then 0x0301 else 0x0302) sevPartition
        (toBytes t 1 ++ toBytes k 1 ++ toBytes src 1 ++ toBytes amount 2 ++ toBytes before 2 ++ toBytes issuer 2 ++
         toBytes (s.variant t) 1)

/-- A signal of an amount reaches a semaphore (R155, R156, R167). -/
def State.semSignal (s : State) (t k n src issuer : Nat) : State :=
  if n = 0 ∨ s.semBroken t k then s
  else
    let c := s.semCount t k
    if s.semCap t k < c + n then s.semFault t k 0 src n c issuer
    else s.setSemCount t k (c + n)

/-- What a take answers. -/
inductive TakeRes where
  | taken | short | broken
  deriving DecidableEq, Repr

/-- A take of an amount, on the whole or not at all (R155, R167). -/
def State.semTry (s : State) (t k n : Nat) : TakeRes × State :=
  if n = 0 then (.taken, s)
  else if s.semBroken t k then (.broken, s)
  else
    let c := s.semCount t k
    if n ≤ c then (.taken, s.setSemCount t k (c - n)) else (.short, s)

/-- The sequencer issues nothing more in the beat. -/
def State.stopSeq (s : State) (t : Nat) : State :=
  let x := s.tile t
  s.setTile t { x with stopped := true, gate := none, overrunAt := none }

/-- The tile core issues nothing more in the beat. -/
def State.stopTc (s : State) (t : Nat) : State :=
  let x := s.tile t
  s.setTile t { x with tc := { x.tc with stopped := true, waitSem := none, waitEvent := none } }

/-- A non-blocking TAKE (R155, R157): one that finds too little is not applied and raises SEM_UNDERFLOW; one that meets a
Broken semaphore takes nothing and ends the task's issue, as R167 says of a woken waiter (DESIGN CHOICE, log entry 130). -/
def State.semTake (s : State) (t k n issuer : Nat) : State :=
  match s.semTry t k n with
  | (.taken, s') => s'
  | (.short, s') => s'.semFault t k 1 srcItin n (s'.semCount t k) issuer
  | (.broken, s') => (s'.semFault t k 2 srcItin n (s'.semCount t k) issuer).stopSeq t

/-- The registration of the waiters of a semaphore in `SEM_CNT` (R158): gate_wait, tc_wait and want. -/
def State.semWaiters (s : State) (t k : Nat) : State :=
  let x := s.tile t
  let g := match x.gate with | some (k', n, _) => if k' = k then some n else none | none => none
  let w := match x.tc.waitSem with | some (k', n) => if k' = k then some n else none | none => none
  let want := match g with | some n => n | none => w.getD 0
  let s := (s.setBit (Reg.SEM_CNT t k) 17 g.isSome).setBit (Reg.SEM_CNT t k) 18 w.isSome
  s.setFld (Reg.SEM_CNT t k) 20 12 want

/-- Semaphores of a tile become Broken (R166, R167): counts freeze, waiters are woken by WAITER_WAKE, the tile logs one
record for the event, fatal while its partition is RUNNING. Causes: 0 peer reset, 1 detour, 2 channel down, 3 fenced. -/
def State.semBreak (s : State) (t : Nat) (ks : List Nat) (cause peer : Nat) : State :=
  let ks := ks.filter (fun k => !(s.semBroken t k))
  match ks with
  | [] => s
  | k0 :: _ =>
    let s := ks.foldl (fun s k =>
      let s := s.setBit (Reg.SEM_CNT t k) 16 true
      if k < 32 then s.setBit (Reg.SEM_BROKEN_LO t) k true else s.setBit (Reg.SEM_BROKEN_HI t) (k - 32) true) s
    let s := s.semFault t k0 2 (if cause < 2 then srcRemote else srcChan) 0 (s.semCount t k0) 0xFFFF
    let mask := ks.foldl (fun m k => m + 2 ^ k) 0
    s.logTile t 0x0304 (if s.tileIn t psRunning then sevPartition else sevContained)
      (toBytes t 1 ++ toBytes cause 1 ++ toBytes peer 1 ++ toBytes mask 8)

/-- The semaphores of a tile with a peer of a kind (1 tile, 2 channel) and identity (R153). -/
def State.semsWithPeer (s : State) (t kind id : Nat) : List Nat :=
  (List.range 64).filter (fun k =>
    let v := s.rd (Reg.SEM_PEER t k)
    v.field 0 2 == kind && (if kind = 1 then v.field 8 7 == id else v.field 8 8 == id))

/-- The tiles that have any semaphore entry in the register file: those whose peers can be set. -/
def allTiles : List Nat := List.range 128

/-- Every semaphore whose peer is one of a set of tiles, outside that set, becomes Broken: one event for each tile (R166, R167). DESIGN
CHOICE (log entry 112): of several peers the record names the first whose semaphore breaks. -/
def State.breakPeers (s : State) (tiles : List Nat) (cause : Nat) : State :=
  (allTiles.filter (fun t => !(tiles.contains t))).foldl (fun s t =>
    let ks := tiles.flatMap (fun p => (s.semsWithPeer t 1 p).map (fun k => (k, p)))
    match ks.find? (fun q => !(s.semBroken t q.1)) with
    | none => s
    | some q => s.semBreak t (ks.map (·.1)) cause q.2) s

/-- The channels of a partition that are bound are fenced (R166, R267): the semaphores of its tiles that have one of them as their peer
become Broken, in one event. DESIGN CHOICE (log entry 112): of several channels the record names the first whose semaphore breaks. -/
def State.fenceChans (s : State) (p : Nat) : State :=
  let cs := (List.range 256).filter (fun c => s.bit (Reg.CHN_CTRL c) 0 && s.fld (Reg.CHN_CTRL c) 16 4 == p)
  (s.partTiles p).foldl (fun s t =>
    let ks := cs.flatMap (fun c => (s.semsWithPeer t 2 c).map (fun k => (k, c)))
    match ks.find? (fun q => !(s.semBroken t q.1)) with
    | none => s
    | some q => s.semBreak t (ks.map (·.1)) 3 q.2) s

/-- Every semaphore of a partition's tiles whose peer is a channel becomes Broken (R166). -/
def State.breakChan (s : State) (p c cause : Nat) : State :=
  (s.partTiles p).foldl (fun s t => s.semBreak t (s.semsWithPeer t 2 c) cause c) s

/-- The load of R164: every semaphore of a tile takes its initial value, and no state is left. -/
def State.semLoad (s : State) (t : Nat) : State :=
  let s := (List.range 64).foldl (fun s k =>
    let i := s.fld (Reg.SEM_CFG t k) 16 12
    (s.wr (Reg.SEM_CNT t k) (BitVec.ofNat 32 i)).wr (Reg.SEM_SNAP t k) (BitVec.ofNat 32 i)) s
  (s.wr (Reg.SEM_BROKEN_LO t) 0).wr (Reg.SEM_BROKEN_HI t) 0

/-- `snap` is taken at an opening milestone (R161). -/
def State.semSnap (s : State) (t : Nat) : State :=
  (List.range 64).foldl (fun s k => s.wr (Reg.SEM_SNAP t k) (BitVec.ofNat 32 (s.semCount t k))) s

/-- Whether a semaphore is the `local_sem` of an open or paused context of its own tile (R161). -/
def State.streamBound (s : State) (t k : Nat) : Bool :=
  (List.range 8).any (fun c =>
    let st := s.fld (Reg.SE_CTX_STATUS t c) 0 2
    (st == 1 || st == 2) && s.fld (Reg.SE_CTX_SEM t c) 0 6 == k)

/-- A SLIP or GAP restart: the counts of beat-scoped and of stream-bound semaphores return to `snap` (R161, R124). -/
def State.semRestore (s : State) (t : Nat) : State :=
  (List.range 64).foldl (fun s k =>
    if (s.bit (Reg.SEM_CFG t k) 28 || s.streamBound t k) && !(s.semBroken t k) then
      s.setSemCount t k (s.fld (Reg.SEM_SNAP t k) 0 12)
    else s) s

/-- The residue check at a stop (R165). -/
def State.semResidue (s : State) (t : Nat) : State :=
  let ks := (List.range 64).filter (fun k =>
    s.bit (Reg.SEM_CFG t k) 29 && s.semCount t k != s.fld (Reg.SEM_CFG t k) 16 12)
  let mask := ks.foldl (fun m k => m + 2 ^ k) 0
  let s := (s.wr (Reg.SEM_RESID_LO t) (BitVec.ofNat 32 mask)).wr (Reg.SEM_RESID_HI t) (BitVec.ofNat 32 (mask / 2 ^ 32))
  if mask = 0 then s else s.logTile t 0x0303 sevContained (toBytes t 1 ++ toBytes mask 8)

/-- A remote signal leaves a tile (R155, R162, R163): the packet is tagged when the target semaphore is beat-scoped; until
it is acknowledged or rejected the tile is not done, but for signals of the stream engine (`se`). -/
def State.remoteSignal (s : State) (t k n target : Nat) (se : Bool) : State :=
  if n = 0 then s
  else
    let ms := s.rd2 (Reg.SEQ_BEAT_MS_LO t) (Reg.SEQ_BEAT_MS_HI t)
    let tagged := s.bit (Reg.SEM_CFG target k) 28
    let arg := k + n % 4096 * 2 ^ 16 + (if tagged then ms % 16 * 2 ^ 32 + 2 ^ 36 else 0)
    let (sent, s) := s.sendPkt t (Pkt.make target false t false ptSignal 0 arg 0)
    if sent then
      let x := s.tile t
      s.setTile t { x with remoteOut := x.remoteOut ++ [(target, k, se)] }
    else s

end Sys2Proof.Machine
end

