-- ==== Sys2Proof/Machine/Store.lean ====
section
/-!
DEFINITION. The tile store: geometry and views (R106), latency classes (R107, R108), narrow writes (R109), and error
checking by reader (R112, R113).
-/
namespace Sys2Proof.Machine

/-- The physical position of a logical tile under its column's detour map (R76). -/
def State.position (s : State) (t : Nat) : Nat :=
  let d := s.fld (Reg.TNOC_DETOUR (t / 8)) 0 4
  if t % 8 < d then t % 8 else t % 8 + 1

/-- The first byte of the store at a position of a column. -/
def storeAt (c pos : Nat) : Nat := (c * 9 + pos) * 2 ^ 23

/-- The first byte of a logical tile's store. -/
def State.storeBase (s : State) (t : Nat) : Nat := storeAt (t / 8) (s.position t)

/-- The wide-view byte address of an X or Y byte address (R106). -/
def narrowAddr (y : Bool) (a : Nat) : Nat := a % 2 ^ 22 / 512 * 1024 + a % 512 + (if y then 512 else 0)

/-- A byte as a read in a slot sees it: the stored byte, and over it the flights whose writes it sees (R108). In the
window a 64-bit word is old or new by the free choice of the word. -/
def seeByte (fl : List Flight) (slot free : Nat) (old : Byte) (a : Nat) : Byte :=
  fl.foldl (fun cur f =>
    if decide (f.addr ≤ a) && decide (a < f.addr + f.bytes.length) && decide (f.slot < slot) &&
       (decide (f.slot + f.lat ≤ slot) || Config.storeWindow (free * 2 ^ 32 + a / 8))
    then f.bytes.getD (a - f.addr) 0 else cur) old

/-- The bytes of a run as a read in a slot sees them. -/
def seeBytes (m : Memory) (fl : List Flight) (slot free a n : Nat) : List Byte :=
  let fl := fl.filter (fun f => decide (f.addr < a + n) && decide (a < f.addr + f.bytes.length))
  let bs := m.readList a n
  match fl with
  | [] => bs
  | _ => (List.range n).map (fun i => seeByte fl slot free (bs.getD i 0) (a + i))

/-- The memory with writes applied in the order in which they were issued. -/
def applyFlights (m : Memory) : List Flight → Memory
  | [] => m
  | f :: r => applyFlights (m.write f.addr f.bytes) r

/-- The writes on their way that are complete at a handshake, in issue order: those before the first that is not. -/
def landed (h : Nat) : List Flight → List Flight × List Flight
  | [] => ([], [])
  | f :: r =>
    if f.slot + f.lat ≤ h then (f :: (landed h r).1, (landed h r).2) else ([], f :: r)

/-- Whether a write reaches bytes of an upset's word, or the bank row of its tag. -/
def Flight.touches (f : Flight) (u : Upset) : Bool :=
  let z := if u.kind = 3 then 64 else 8
  let lo := if u.kind = 3 then u.word / 8 else u.word
  decide (f.addr / z ≤ lo) && decide (lo ≤ (f.addr + f.bytes.length - 1) / z)

/-- Whether a write clears an upset (R109, R112): it writes the tag of every bank row that it touches and the check bits of every word
that it touches; an uncorrectable word is cleared only where the word is replaced whole. -/
def Flight.clears (f : Flight) (u : Upset) : Bool :=
  f.touches u && (u.kind != 2 || (decide (f.addr ≤ u.word * 8) && decide (u.word * 8 + 8 ≤ f.addr + f.bytes.length)))

/-- What a completed write leaves of the upsets: the bytes that it merges into an uncorrectable word hold what was written (R109). -/
def Flight.upsets (f : Flight) (us : List Upset) : List Upset :=
  us.filterMap (fun u =>
    if f.clears u then none
    else if u.kind = 2 ∧ f.touches u then
      some { u with flip := (List.range 8).foldl (fun (w : BitVec 64) i =>
        if f.addr ≤ u.word * 8 + i ∧ u.word * 8 + i < f.addr + f.bytes.length then w &&& ~~~((0xFF : BitVec 64) <<< (8 * i)) else w) u.flip }
    else some u)

/-- Writes complete, in the order in which they were issued: their bytes are in the store, with fresh check bits and tags. -/
def State.land (s : State) (l : List Flight) : State :=
  { s with store := applyFlights s.store l, upsets := if s.upsets.isEmpty then s.upsets else l.foldl (fun us f => f.upsets us) s.upsets }

/-- The writes that are complete at a handshake are in the store (R108). A write stays on its way while an earlier one is,
so that the later one stands where both reach a byte. -/
def State.landFlights (s : State) (t h : Nat) : State :=
  let x := s.tile t
  match landed h x.flights with
  | ([], _) => s
  | (done, rest) => (s.land done).setTile t { x with flights := rest }

/-- Every write the tile has issued completes (R36 step 4, R42). -/
def State.landAll (s : State) (t : Nat) : State :=
  let x := s.tile t
  (s.land x.flights).setTile t { x with flights := [] }

/-- Who reads a store word (R113): an engine, the Y access of a narrow handshake whose X access met an uncorrectable word, the
scrubber, or the management path. -/
inductive StoreReader where
  | engine | second | scrubber | management
  deriving DecidableEq, Repr

/-- The image of `ST_UE_ADDR` for an upset word of a store (finder codes of the register). -/
def ueImage (u : Upset) (base finder : Nat) : Nat :=
  let w := u.word - base / 8
  let row := w / 128
  let bank := w % 128 / 8
  row + bank * 2 ^ 16 + (if u.kind = 3 then 2 ^ 24 else (w % 8) * 2 ^ 20) + finder * 2 ^ 25

/-- The severity of STORE_UE (R113). -/
def State.ueSeverity (s : State) (t : Nat) (r : StoreReader) : Nat :=
  match r with
  | .engine | .second => if s.tileIn t psRunning then sevPartition else sevContained
  | .scrubber | .management => sevContained

/-- One upset word is met by a read: counters, `ST_UE_` registers, correction queue and record (R112, R113). DESIGN CHOICE (log entry 129): a
corrected word's record has the detail of STORE_UE, and bit 0 of `TILE_FAULT` shows a STORE_UE that is fatal to its partition. -/
def State.meetUpset (s : State) (t : Nat) (r : StoreReader) (finder : Nat) (u : Upset) : State :=
  let base := s.storeBase t
  let image := ueImage u base finder
  let detail := toBytes t 1 ++ toBytes image 4
  if u.kind = 0 ∨ u.kind = 1 then
    let s := if u.kind = 0 then s.addReg (Reg.ST_CE_COUNT t) 1 else s.addReg (Reg.ST_CE_CHECK_COUNT t) 1
    let x := s.tile t
    let s := if (r = .engine ∨ r = .second) ∧ x.ceQueue.length < 4 ∧ u.word ∉ x.ceQueue then
        s.setTile t { x with ceQueue := x.ceQueue ++ [u.word] } else s
    s.logTile t (if u.kind = 0 then 0x0105 else 0x0106) sevCorrected detail
  else
    let s := s.addReg (Reg.ST_UE_COUNT t) 1
    let s := if s.bit (Reg.ST_UE_STATUS t) 0 then s.setBit (Reg.ST_UE_STATUS t) 1 true
      else (s.wr (Reg.ST_UE_ADDR t) (BitVec.ofNat 32 image)).setBit (Reg.ST_UE_STATUS t) 0 true
    let s := if s.ueSeverity t r = sevPartition then s.setBit (Reg.TILE_FAULT t) 0 true else s
    if r = .second then s else s.logTile t 0x0104 (s.ueSeverity t r) detail

/-- Whether an upset delivers poisoned data. -/
def Upset.poison (u : Upset) : Bool := decide (2 ≤ u.kind)

/-- Whether a read in a slot sees what a write on its way does to an upset: the write is complete, or the free choice of the word is the
new contents (R108). -/
def clearedBy (fl : List Flight) (slot free : Nat) (u : Upset) : Bool :=
  fl.any (fun f => f.clears u && decide (f.slot < slot) &&
    (decide (f.slot + f.lat ≤ slot) || Config.storeWindow (free * 2 ^ 32 + u.word)))

/-- The upsets of a store that a read of the words from `lo` on, `n` of them, meets in a slot: the words themselves and the tags of the
bank rows that it touches. A bank row with a tag mismatch is one finding, whatever its words hold (R112). -/
def State.upsetsAt (s : State) (t slot lo n : Nat) : List Upset :=
  let fl := (s.tile t).flights
  let us := s.upsets.filter (fun u =>
    (if u.kind = 3 then decide (lo / 8 ≤ u.word / 8) && decide (u.word / 8 ≤ (lo + n - 1) / 8)
     else decide (lo ≤ u.word) && decide (u.word < lo + n)) && !(clearedBy fl slot s.free u))
  us.filter (fun u => u.kind == 3 || !(us.any (fun v => v.kind == 3 && v.word / 8 == u.word / 8)))

/-- An upset joins those of a store: a second bit of a word makes it uncorrectable, and a bank row has one tag (R112). -/
def mergeUpset (us : List Upset) (u : Upset) : List Upset :=
  if u.kind = 3 then (if us.any (fun v => v.kind == 3 && v.word / 8 == u.word / 8) then us else us ++ [u])
  else match us.find? (fun v => v.word == u.word && v.kind != 3) with
    | some v => us.map (fun w => if w.word = u.word ∧ w.kind ≠ 3 then ⟨u.word, 2, v.flip ^^^ u.flip⟩ else w)
    | none => us ++ [u]

/-- Upsets that a command says have come about before a read of a tile's store (R112). -/
def State.addSoft (s : State) (t : Nat) (l : List SoftErr) : State :=
  { s with upsets := l.foldl (fun us e => mergeUpset us ⟨s.storeBase t / 8 + e.word, e.kind, e.flip⟩) s.upsets }

/-- The bytes with the flips of the uncorrectable words of the run applied. -/
def applyFlips (us : List Upset) (a : Nat) (bs : List Byte) : List Byte :=
  us.foldl (fun bs u =>
    if u.kind = 2 then
      bs.mapIdx (fun i b =>
        if decide (u.word * 8 ≤ a + i) && decide (a + i < u.word * 8 + 8) then b ^^^ byteOf u.flip.toNat (a + i - u.word * 8)
        else b)
    else bs) bs

/-- A read of bytes of a tile's store in a slot, with error checking: the bytes, whether any word is poisoned, and the
state. DESIGN CHOICE (log entry 111): of several uncorrectable words of one read the one whose upset came first loads `ST_UE_ADDR`; the
spec gives no order. -/
def State.storeRead (s : State) (t : Nat) (r : StoreReader) (finder slot a n : Nat) : List Byte × Bool × State :=
  let addr := s.storeBase t + a
  let bs := seeBytes s.store (s.tile t).flights slot s.free addr n
  let lo := addr / 8
  let us := s.upsetsAt t slot lo ((addr + n - 1) / 8 + 1 - lo)
  (applyFlips us addr bs, us.any Upset.poison, us.foldl (fun s u => s.meetUpset t r finder u) s.stepFree)

/-- A wide read of a row by an engine in a slot (R107, R108). -/
def State.readRow (s : State) (t slot row : Nat) : Row × Bool × State :=
  let (bs, poison, s) := s.storeRead t .engine 0 slot (row % 8192 * 1024) 1024
  (BitVec.ofNat 8192 (ofBytes bs), poison, s)

/-- A write to a queued word first removes it from the queue of corrections (R112). -/
def State.unqueue (s : State) (t lo n : Nat) : State :=
  let x := s.tile t
  match x.ceQueue with
  | [] => s
  | _ => s.setTile t { x with ceQueue := x.ceQueue.filter (fun w => !(decide (lo ≤ w) && decide (w < lo + n))) }

/-- A write leaves for the store in a slot: it is there after the latency of its class (R108). -/
def State.issueWrite (s : State) (t slot lat a : Nat) (bs : List Byte) : State :=
  let x := s.tile t
  s.setTile t { x with
    flights := x.flights ++ [⟨slot, lat, s.storeBase t + a, bs⟩], writesDone := max x.writesDone (slot + lat) }

/-- A wide write of a row in a slot (R107, R108, R109). -/
def State.writeRow (s : State) (t slot row : Nat) (v : Row) : State :=
  let a := row % 8192 * 1024
  (s.unqueue t ((s.storeBase t + a) / 8) 128).issueWrite t slot 7 a (toBytes v.toNat 1024)

/-- Whether the word of a narrow access is uncorrectable. -/
def State.narrowBad (s : State) (t slot : Nat) (y : Bool) (a n : Nat) : Bool :=
  (s.upsetsAt t slot ((s.storeBase t + narrowAddr y (a / n * n)) / 8) 1).any Upset.poison

/-- A narrow write of 1, 2, 4 or 8 naturally aligned bytes in a slot (R109): a part of an uncorrectable word leaves it
uncorrectable, also where its tag alone was wrong, and is logged. -/
def State.writeNarrow (s : State) (t : Nat) (r : StoreReader) (slot : Nat) (y : Bool) (a n v : Nat) : State :=
  let w := narrowAddr y (a / n * n)
  let word := (s.storeBase t + w) / 8
  let us := s.upsetsAt t slot word 1
  let s := s.unqueue t word 1
  let s :=
    if n < 8 ∧ us.any Upset.poison then
      let s := (us.filter Upset.poison).foldl (fun s u => s.meetUpset t r 3 u) s
      if us.any (fun u => u.kind == 3) then { s with upsets := mergeUpset (s.upsets.filter (fun u => !(u.word == word && u.kind == 2))) ⟨word, 2, 0⟩ } else s
    else s
  s.issueWrite t slot 5 w (toBytes v n)

/-- A narrow read of 1, 2, 4 or 8 naturally aligned bytes in a slot. -/
def State.readNarrow (s : State) (t : Nat) (r : StoreReader) (slot : Nat) (y : Bool) (a n : Nat) : Nat × State :=
  let (bs, _, s) := s.storeRead t r (if y then 2 else 1) slot (narrowAddr y (a / n * n)) n
  (ofBytes bs, s)

/-- A whole row written at once, by a self-timed access (R115). -/
def State.pokeRow (s : State) (t row : Nat) (v : Row) : State :=
  let a := s.storeBase t + row % 8192 * 1024
  (s.unqueue t (a / 8) 128).land [⟨0, 0, a, toBytes v.toNat 1024⟩]

end Sys2Proof.Machine
end

