-- ==== Sys2Proof/Machine/TileQueue.lean ====
section
/-!
DEFINITION. A tile's coming events: the order in which they fall due, wide claims, slot clashes (R56, R132), and the
identity that numeric records carry (R104).
-/
namespace Sys2Proof.Machine

/-- The handshake number of the running beat (`SEQ_HS`, R129). -/
def State.hs (s : State) (t : Nat) : Nat := s.fld (Reg.SEQ_HS t) 0 20

/-- The state with the handshake number replaced. -/
def State.setHs (s : State) (t h : Nat) : State := s.setFld (Reg.SEQ_HS t) 0 20 h

/-- Whether an event claims a wide handshake (R107). -/
def TileAct.wide : TileAct → Bool
  | .arrRow .. | .arrScale .. | .drainRow .. | .mvuRow .. | .mvuScale .. | .mdrainRow .. | .seSlot .. => true
  | .veu op _ => op == 1 || op == 2
  | _ => false

/-- The order of events that fall due in one handshake: repetitions issue first, then products and captures, then the
store, then semaphores (R155). -/
def TileAct.rank : TileAct → Nat
  | .arrIssue .. => 0
  | .mvuAcc .. => 1
  | .arrDone .. => 1
  | .capture .. => 2
  | .vrfRow .. | .vrfScale .. => 3
  | .clash .. => 4
  | .semSignal .. | .seFilled .. => 8
  | .semTake .. => 9
  | .trap .. => 10
  | _ => 5

/-- Whether one event falls due before another. -/
def TileEv.before (a b : TileEv) : Bool :=
  decide (a.slot < b.slot) || (a.slot == b.slot && (decide (a.act.rank < b.act.rank) ||
    (a.act.rank == b.act.rank && decide (a.order < b.order))))

/-- An event entered into a list of coming events, after those that fall due no later. -/
def insertEv (e : TileEv) : List TileEv → List TileEv
  | [] => [e]
  | x :: r => if e.before x then e :: x :: r else x :: insertEv e r

/-- The first coming event that claims a slot. -/
def claimAt (slot : Nat) : List TileEv → Option TileEv
  | [] => none
  | x :: r => if x.slot = slot ∧ x.act.wide then some x else claimAt slot r

/-- The list without the claim of a slot. -/
def dropClaim (slot : Nat) (l : List TileEv) : List TileEv := l.filter (fun x => !(x.slot == slot && x.act.wide))

/-- A coming event is entered. A wide claim on a handshake that is claimed already clashes when that handshake comes: the
claim of the earlier-issued entry is served and the later one is not performed (R132). -/
def Tile.addEv (x : Tile) (e : TileEv) : Tile :=
  if e.act.wide then
    match claimAt e.slot x.evs with
    | some y =>
      if y.order ≤ e.order then
        { x with evs := insertEv { e with act := .clash y.entry } x.evs }
      else
        { x with evs := insertEv { y with act := .clash e.entry } (insertEv e (dropClaim e.slot x.evs)) }
    | none =>
      match x.lastWide with
      | some (sl, en) =>
        if sl = e.slot then { x with evs := insertEv { e with act := .clash en } x.evs }
        else { x with evs := insertEv e x.evs }
      | none => { x with evs := insertEv e x.evs }
  else { x with evs := insertEv e x.evs }

/-- Coming events are entered in turn. -/
def Tile.addEvs (x : Tile) (l : List TileEv) : Tile := l.foldl Tile.addEv x

/-- A slot clash (R132). Causes: 0 WIDE, 1 ENGINE_BUSY, 2 SET_BUSY. -/
def State.slotClash (s : State) (t cause first second h : Nat) : State :=
  let s := if s.bit (Reg.SEQ_CLASH t) 0 then s
    else (s.wr (Reg.SEQ_CLASH t) (BitVec.ofNat 32 (1 + cause * 2 + h * 16))).wr
      (Reg.SEQ_CLASH_ENTRY t) (BitVec.ofNat 32 (first + second * 65536))
  let s := s.setBit (Reg.TILE_FAULT t) 3 true
  let s := match s.tilePart t with | some p => s.raiseFault p | none => s
  let x := s.tile t
  if x.clashLogged then s
  else (s.setTile t { x with clashLogged := true }).logTile t 0x0101 sevPartition
    (toBytes t 1 ++ toBytes cause 1 ++ toBytes first 2 ++ toBytes second 2 ++ toBytes h 3 ++ toBytes (s.variant t) 1)

/-- The detail of a numeric record (R104); engines 0 M0, 1 M1, 2 MVU, 3 VEU, 4 TC. -/
def State.numDetail (s : State) (t engine entry set row col : Nat) : List Byte :=
  toBytes t 1 ++ toBytes engine 1 ++ toBytes entry 2 ++ toBytes (s.fld (Reg.TC_PC t) 0 13) 2 ++
  toBytes (s.variant t) 1 ++ toBytes set 1 ++ toBytes row 2 ++ toBytes col 2

/-- A numeric trap rises (R103, R105, R150): the record, which names the program counter at the rise (that of the tile core's own trap is its
instruction's), is fatal to the partition, whose recovery ends with outcome TRAP.
DESIGN CHOICE (log entry 105): bits 4 to 6 of `TILE_FAULT` show the trap, and a special value that raises none leaves them. -/
def State.trapRises (s : State) (t code faultBit : Nat) (detail : List Byte) : State :=
  let detail := if faultBit < 8 then detail.take 4 ++ toBytes (s.fld (Reg.TC_PC t) 0 13) 2 ++ detail.drop 6 else detail
  let s := if faultBit < 8 then s.setBit (Reg.TILE_FAULT t) faultBit true else s
  let s := match s.tilePart t with | some p => s.updPart p (fun x => { x with recov := { x.recov with trap := true } }) | none => s
  s.logTile t code sevPartition detail

/-- A unit raises a numeric trap at handshake `h` (R103, R150): its fault line rises within 4 handshakes, the spec gives no closer
time (a free value, log entry 104), so that a trap near the milestone may rise after the sample and fault the next beat (R105). -/
def State.numTrap (s : State) (t h entry code faultBit : Nat) (detail : List Byte) : State :=
  let x := s.tile t
  let ev : TileEv := ⟨h + Config.freeNat s.free % 5, x.order, entry, .trap code faultBit detail⟩
  (s.setTile t (x.addEv ev)).stepFree

/-- Whether a tile makes handshakes: its partition runs a beat, and it is neither done nor parked (R37, R130). -/
def State.inBeat (s : State) (t : Nat) : Bool :=
  match s.tilePart t with
  | some p => match s.part p with
    | some x => s.pstate p == psRunning && x.beatOpen && s.fld (Reg.SEQ_BEAT_STATUS t) 0 1 == 0 && !(s.bit (Reg.SEQ_BEAT_STATUS t) 2)
    | none => false
  | none => false

/-- A signal from outside the program reaches a tile (R155): in a tile that makes handshakes it is one of the signals of the next
handshake, which are summed; a tile that makes none takes it at once. -/
def State.signalIn (s : State) (t k n src : Nat) : State :=
  if n = 0 then s
  else if s.inBeat t then
    let x := s.tile t
    s.setTile t (x.addEv ⟨s.hs t + 1, x.order, 0xFFFF, .semSignal k n src 0xFFFF⟩)
  else s.semSignal t k n src 0xFFFF

/-- Byte `i` of a row. -/
def Row.byte (r : Row) (i : Nat) : Nat := (r.toNat >>> (8 * i)) % 256

/-- The code of an element of a row: byte `i` or nibble `i`, the low nibble first (R60). -/
def Row.elem (r : Row) (nib : Bool) (i : Nat) : Nat := if nib then (r.toNat >>> (4 * i)) % 16 else Row.byte r i

/-- Elements of `w` bytes packed from byte 0 of a row on. -/
def packRow (w : Nat) (l : List Nat) : Row :=
  BitVec.ofNat 8192 (l.foldr (fun x acc => x % 2 ^ (8 * w) + 2 ^ (8 * w) * acc) 0)

/-- The elements of `w` bytes of a row, `n` of them. -/
def Row.elems (r : Row) (w n : Nat) : List Nat := (List.range n).map (fun i => (r.toNat >>> (8 * w * i)) % 2 ^ (8 * w))

end Sys2Proof.Machine
end

