-- ==== Sys2Proof/Machine/Arrays.lean ====
section
/-!
DEFINITION. The matrix arrays: panel layout (R60, R61), timing (R66, R67), accumulation (R87 to R92), drains (R99, R102 to
R104), and what a milestone cuts off (R70). The entries that use them are in ArrayEntries.
-/
namespace Sys2Proof

/-- Whether a pairing streams 4-bit operands on both sides (R64). -/
def MmaFields.nib (f : MmaFields) : Bool :=
  (f.fmtA == 2 && f.fmtB == 2) || (f.fmtA == 4 && f.fmtB == 4)

/-- Elements of K in one data row (R60, R64). -/
def MmaFields.kr (f : MmaFields) : Nat := if f.nib then 64 else 32

/-- Elements of K per handshake (R64). -/
def MmaFields.kh (f : MmaFields) : Nat := if f.nib then 2 else 1

/-- Data rows of a panel, m = K / k_r (R60, R62). -/
def MmaFields.m (f : MmaFields) : Nat := f.kLen.toNat + 1

/-- The pass count (R62). -/
def MmaFields.np (f : MmaFields) : Nat := f.passes.toNat

/-- S = passes × K / k_h (R66). -/
def MmaFields.S (f : MmaFields) : Nat := f.np * f.m * 32

/-- Elements of a block, or of a group where no scale applies (R85). -/
def MmaFields.blk (f : MmaFields) : Nat := if f.scale = 2 then 16 else 32

/-- Scale bytes of one data row (R61). -/
def MmaFields.rowScales (f : MmaFields) : Nat := 32 * (f.kr / f.blk)

/-- Scale bytes of one hi panel ÷ 32 (R66). -/
def MmaFields.hiScales (f : MmaFields) : Nat := f.m * f.rowScales / 32

/-- Whether an MMA's operand values are ones that the spec gives an effect (R62, R64, R101). -/
def MmaFields.legal (f : MmaFields) : Bool :=
  let fl (x : BitVec 3) := x == 0 || x == 1 || x == 2
  let it (x : BitVec 3) := x == 3 || x == 4
  let s16 := f.fmtA == 5 && f.fmtB == 5
  ((fl f.fmtA && fl f.fmtB) || (it f.fmtA && it f.fmtB) || s16) &&
  f.scale != 3 && f.passes != 0 && (s16 || f.passes == 1) && (!s16 || f.scale != 0) &&
  f.outFmt != 5 && f.outFmt != 6

/-- Whether the operation accumulates integers (R87). -/
def MmaFields.isInt (f : MmaFields) : Bool := Machine.isIntOp f.fmtA.toNat f.fmtB.toNat f.scale.toNat

end Sys2Proof

namespace Sys2Proof.Machine

/-- ra(p) of R66: the A panel of pass p. -/
def passA (p : Nat) : Nat := if p = 1 then 1 else 0

/-- rb(p) of R66: the B panel of pass p. -/
def passB (p : Nat) : Nat := if p = 2 then 1 else 0

/-- Rows that a drain writes (R67). -/
def drainRows (outFmt : BitVec 3) : Nat := if outFmt = 7 then 0 else if outFmt = 0 then 4 else 2

/-- The first slot of a drain's rows, from D (R67). -/
def drainFirst (outFmt : BitVec 3) : Nat := if outFmt = 3 ∨ outFmt = 4 then 37 else 33

/-- The rows that one panel's scale stream enters new at data row `j`: the stream starts at byte `a0` and takes `q` bytes
per data row (R61, R66). -/
def scaleEnters (a0 q j : Nat) : List Nat :=
  let last := (a0 + (j + 1) * q - 1) / 1024
  if j = 0 then (List.range (last + 1 - a0 / 1024)).map (fun i => a0 / 1024 + i)
  else
    let prev := (a0 + j * q - 1) / 1024
    (List.range (last - prev)).map (fun i => prev + 1 + i)

/-- The wide reads of an MMA issued at I: slot and act (R66). -/
def mmaReads (arr op I : Nat) (f : MmaFields) : List (Nat × TileAct) :=
  (List.range f.np).flatMap (fun p =>
    let a0 := (f.sa.toNat + passA p * f.hiScales) * 32
    let b0 := (f.sb.toNat + passB p * f.hiScales) * 32
    (List.range f.m).flatMap (fun j =>
      let J := p * f.m + j
      let base := I + 32 * J
      let sc (isB : Bool) (o a : Nat) : List (Nat × TileAct) :=
        if f.scale = 0 then []
        else (scaleEnters a f.rowScales j).mapIdx (fun i r => (base + o + 2 * i, TileAct.arrScale arr op isB p r))
      [(base, TileAct.arrRow arr op false J (f.aRow.toNat + passA p * f.m + j)),
       (base + 1, TileAct.arrRow arr op true J (f.bRow.toNat + passB p * f.m + j))] ++ sc false 2 a0 ++ sc true 3 b0))

/-! Accumulation. -/

/-- One element code of an operand: matrix row (or column) `i`, K index `k` of pass `p`. -/
def MmaOp.code (o : MmaOp) (isB : Bool) (p i k : Nat) : Nat :=
  let J := p * o.f.m + k / o.f.kr
  let r := SMap.get (if isB then o.b else o.a) 0 J
  Row.elem r o.f.nib (i * o.f.kr + k % o.f.kr)

/-- The scale byte of the block that holds K index `k` of matrix row (or column) `i` in pass `p` (R61, R66). -/
def MmaOp.scaleByte (o : MmaOp) (isB : Bool) (p i k : Nat) : Nat :=
  let f := o.f
  let nb := f.kr / f.blk
  let start := ((if isB then f.sb.toNat + passB p * f.hiScales else f.sa.toNat + passA p * f.hiScales)) * 32
  let a := start + k / f.kr * f.rowScales + i * nb + k % f.kr / f.blk
  Row.byte (SMap.get (if isB then o.sb else o.sa) 0 (p * 8192 + a / 1024)) (a % 1024)

/-- One group of cell (i, j) added to its accumulator: group `g` counts over all passes, in K order (R89 to R92). -/
def MmaOp.group (o : MmaOp) (i j g : Nat) (acc : Word) : Word × Bool :=
  let f := o.f
  let perPass := f.m * f.kr / f.blk
  let p := g / perPass
  let k0 := g % perPass * f.blk
  let codes := (List.range f.blk).map (fun e => (o.code false p i (k0 + e), o.code true p j (k0 + e)))
  if f.isInt then groupInt f.fmtA.toNat f.fmtB.toNat codes acc
  else (groupFloat f.fmtA.toNat f.fmtB.toNat (f.scale != 0) codes (o.scaleByte false p i k0) (o.scaleByte true p j k0) acc, false)

/-- A cell's accumulator after the first `n` groups, and whether an addition overflowed. -/
def MmaOp.cell (o : MmaOp) (i j n : Nat) (acc : Word) : Word × Bool :=
  (List.range n).foldl (fun a g => let r := o.group i j g a.1; (r.1, a.2 || r.2)) (acc, false)

/-- Products gated in the streaming handshakes from `m` to before `n` (R69, R392). -/
def MmaOp.gated (o : MmaOp) (m n : Nat) : Nat :=
  let f := o.f
  (List.range ((n - m) * f.kh)).foldl (fun acc i =>
    let e := m * f.kh + i
    let p := e / (f.m * f.kr)
    let k := e % (f.m * f.kr)
    let za := (List.range 32).map (fun i => elemZero f.fmtA.toNat (o.code false p i k))
    let zb := (List.range 32).map (fun i => elemZero f.fmtB.toNat (o.code true p i k))
    let na := (za.filter (fun b => b)).length
    let nb := (zb.filter (fun b => b)).length
    acc + na * 32 + nb * 32 - na * nb) 0

/-- An accumulator set (R59). -/
def ArrSt.acc (a : ArrSt) (set : Bool) : List Word := if set then a.acc1 else a.acc0

/-- The overflow mark of a set (R92). -/
def ArrSt.ovf (a : ArrSt) (set : Bool) : Bool := if set then a.ovf1 else a.ovf0

/-- Whether a set holds integers. -/
def ArrSt.int (a : ArrSt) (set : Bool) : Bool := if set then a.int1 else a.int0

/-- The array with a set replaced. -/
def ArrSt.setAcc (a : ArrSt) (set : Bool) (acc : List Word) (ovf int : Bool) : ArrSt :=
  if set then { a with acc1 := acc, ovf1 := ovf, int1 := int } else { a with acc0 := acc, ovf0 := ovf, int0 := int }

/-- A set after the first `n` streaming handshakes of an MMA have been delivered: whole groups are added in K order, and
`acc_init` clears the set before the first product (R62, R91, R92). -/
def ArrSt.accumulate (a : ArrSt) (o : MmaOp) (n : Nat) : ArrSt :=
  if n = 0 then a
  else
    let f := o.f
    let old := a.acc f.accSet
    let groups := n * f.kh / f.blk
    let cells := (List.range 1024).map (fun c =>
      o.cell (c / 32) (c % 32) groups (if f.accInit then 0 else old.getD c 0))
    a.setAcc f.accSet (cells.map (·.1)) ((!f.accInit && a.ovf f.accSet) || cells.any (·.2)) f.isInt

/-- An array's record. -/
def Tile.arr (x : Tile) (arr : Nat) : ArrSt := if arr = 0 then x.arr0 else x.arr1

/-- The tile with an array's record replaced. -/
def Tile.setArr (x : Tile) (arr : Nat) (a : ArrSt) : Tile := if arr = 0 then { x with arr0 := a } else { x with arr1 := a }

/-- The MMA of an array with an identity. -/
def ArrSt.findMma (a : ArrSt) (op : Nat) : Option MmaOp := a.mmas.find? (fun o => o.id == op)

/-- The drain of an array with an identity. -/
def ArrSt.findDrain (a : ArrSt) (op : Nat) : Option DrainOp := a.drains.find? (fun o => o.id == op)

/-- Whether the set is held by a drain at a handshake (R67). -/
def ArrSt.holder (a : ArrSt) (set : Bool) (h : Nat) : Option DrainOp :=
  a.drains.find? (fun d => d.f.accSet == set && decide (d.issue ≤ h) && decide (h ≤ d.at_))

/-- `ARRn_STATUS` follows the operations in progress (R70's table). -/
def State.arrStatus (s : State) (t arr : Nat) : State :=
  let a := (s.tile t).arr arr
  let b0 := a.mmas.any (fun o => !o.f.accSet)
  let b1 := a.mmas.any (fun o => o.f.accSet)
  let busy := !a.mmas.isEmpty || !a.drains.isEmpty
  s.wr (Reg.ARR_STATUS t arr) (BitVec.ofNat 32 (busy.toNat + 2 * b0.toNat + 4 * b1.toNat + 8 * (!a.drains.isEmpty).toNat))

/-- A data row of an MMA is read in a slot (R66). -/
def State.arrRead (s : State) (t arr op : Nat) (isB : Bool) (j row slot : Nat) : State :=
  let (r, _, s) := s.readRow t slot row
  let x := s.tile t
  let a := x.arr arr
  s.setTile t (x.setArr arr { a with mmas := a.mmas.map (fun o =>
    if o.id = op then (if isB then { o with b := SMap.set o.b j r } else { o with a := SMap.set o.a j r }) else o) })

/-- A scale row of an MMA is read in a slot (R66). -/
def State.arrReadScale (s : State) (t arr op : Nat) (isB : Bool) (pass row slot : Nat) : State :=
  let (r, _, s) := s.readRow t slot row
  let x := s.tile t
  let a := x.arr arr
  let k := pass * 8192 + row
  s.setTile t (x.setArr arr { a with mmas := a.mmas.map (fun o =>
    if o.id = op then (if isB then { o with sb := SMap.set o.sb k r } else { o with sa := SMap.set o.sa k r }) else o) })

/-- `ARRn_ACTIVE_HS` counts an MMA's streaming handshakes up to handshake `h`, and `ARRn_GATED` its gated products (R392). DESIGN
CHOICE (log entry 107): a product counts when it reaches its set, 73 handshakes after its elements stream, so that a product that
a milestone cuts off is not counted; the spec does not say which products of a cut MMA count. -/
def State.arrCount (s : State) (t arr h : Nat) (o : MmaOp) : State :=
  let act := min (h + 1 - o.issue) o.f.S
  let got := min (h + 1 - (o.issue + 73)) o.f.S
  let s := if act = o.active then s else s.addReg (Reg.ARR_ACTIVE_HS t arr) (act - o.active)
  if got = o.gatedTo then s
  else
    let g := s.rd2 (Reg.ARR_GATED_LO t arr) (Reg.ARR_GATED_HI t arr) + o.gated o.gatedTo got
    s.wr2 (Reg.ARR_GATED_LO t arr) (Reg.ARR_GATED_HI t arr) (g % 2 ^ 48)

/-- The record of an array whose counters have followed its MMAs to a handshake. -/
def ArrSt.ticked (a : ArrSt) (h : Nat) : ArrSt :=
  { a with mmas := a.mmas.map (fun o =>
      { o with active := min (h + 1 - o.issue) o.f.S, gatedTo := min (h + 1 - (o.issue + 73)) o.f.S }) }

/-- The counters of an array follow its MMAs to a handshake. -/
def State.arrTickOne (s : State) (t arr h : Nat) : State :=
  let a := (s.tile t).arr arr
  match a.mmas with
  | [] => s
  | l =>
    let s := l.foldl (fun s o => s.arrCount t arr h o) s
    let x := s.tile t
    s.setTile t (x.setArr arr (a.ticked h))

/-- The counters of both arrays of a tile follow its handshakes. -/
def State.arrTick (s : State) (t h : Nat) : State := (s.arrTickOne t 0 h).arrTickOne t 1 h

/-- Accumulation of an MMA is complete (R66). -/
def State.arrDone (s : State) (t arr op : Nat) : State :=
  let x := s.tile t
  let a := x.arr arr
  match a.findMma op with
  | none => s
  | some o =>
    let a := a.accumulate o o.f.S
    let s := s.setTile t (x.setArr arr { a with mmas := a.mmas.filter (fun q => q.id != op) })
    let s := s.arrCount t arr (o.issue + o.f.S + 72) o
    let s := s.addReg (Reg.ARR_OP_COUNT t arr) 1
    s.arrStatus t arr

/-! Drains. -/

/-- The first index at which a value of a kind lies, and whether there is any: 0 NaN, 1 infinity, 2 either. -/
def firstSpecial (kind : Nat) (vals : List Fv) : Option Nat :=
  (vals.findIdx? (fun v => (kind != 1 && v.isNan) || (kind != 0 && v.isInf)))

/-- What a check of R102 finds: the first NaN, the first infinity, the first of either. -/
structure SpecialFind where
  nan : Option Nat
  inf : Option Nat
  any : Option Nat
  deriving DecidableEq, Repr

/-- The check of R102 over FP32 codes. -/
def findSpecial (codes : List Nat) : SpecialFind :=
  let vals := codes.map (fun c => Fmt.fp32.decode c)
  ⟨firstSpecial 0 vals, firstSpecial 1 vals, firstSpecial 2 vals⟩

/-- `nan_seen`, `inf_seen` and the position fields of a SPECIAL register (R102): the position loads while both bits are 0.
`pos` packs the first position into the register's fields. -/
def State.recordSpecial (s : State) (a : Nat) (f : SpecialFind) (pos : Nat → Nat) : State :=
  match f.any with
  | none => s
  | some i =>
    let w := s.rd a
    let w := if w.field 0 2 = 0 then BitVec.ofNat 32 (pos i) else w
    let w := if f.nan.isSome then Word.setBit w 0 true else w
    let w := if f.inf.isSome then Word.setBit w 1 true else w
    s.wr a w

/-- The trap that a check raises (R103): `NAN_TRAP` before `INF_TRAP`, at most one. `detail` makes the record's detail
from the index of the first value of the trap's own kind. -/
def State.specialTrap (s : State) (t h entry : Nat) (nanEn infEn : Bool) (faultBit : Nat) (f : SpecialFind)
    (detail : Nat → List Byte) : State :=
  match nanEn, f.nan with
  | true, some i => s.numTrap t h entry 0x0201 faultBit (detail i)
  | _, _ =>
    match infEn, f.inf with
    | true, some i => s.numTrap t h entry 0x0202 faultBit (detail i)
    | _, _ => s

/-- The FP32 code of an accumulator for a conversion (R67, R99). -/
def accFp32 (int : Bool) (w : Word) : Nat := if int then intToFp32 w else w.toNat

/-- The rows that a drain writes (R67, R99): the set's 1,024 accumulators in row-major order. -/
def drainContents (f : DrainFields) (int : Bool) (acc : List Word) : List Row :=
  let vals := (List.range 1024).map (fun i => acc.getD i 0)
  match f.outFmt.toNat with
  | 0 => (List.range 4).map (fun j => packRow 4 (((vals.drop (256 * j)).take 256).map BitVec.toNat))
  | 1 => (List.range 2).map (fun j =>
      packRow 2 (((vals.drop (512 * j)).take 512).map (fun w => (Fmt.bf16.ofV f.sat (Fmt.fp32.decode (accFp32 int w))).code)))
  | 2 => (List.range 2).map (fun j =>
      packRow 2 (((vals.drop (512 * j)).take 512).map (fun w => (Fmt.fp16.ofV f.sat (Fmt.fp32.decode (accFp32 int w))).code)))
  | 7 => []
  | q =>
    let blk := if f.oblk then 16 else 32
    let fmt := if q = 3 then 0 else 1
    let blocks := (List.range (1024 / blk)).map (fun b =>
      quantBlock fmt f.sat (((vals.drop (b * blk)).take blk).map (fun w => Fmt.fp32.decode (accFp32 int w))))
    [packRow 1 (blocks.flatMap (·.2)), packRow 1 (blocks.map (·.1))]

/-- D of a drain: the set is captured, checked and converted (R67, R92, R102, R103). -/
def State.drainCapture (s : State) (t arr op : Nat) : State :=
  let x := s.tile t
  let a := x.arr arr
  match a.findDrain op with
  | none => s
  | some d =>
    let set := d.f.accSet
    let acc := a.acc set
    let int := a.int set
    let rows := drainContents d.f int acc
    let drains :=
      if drainRows d.f.outFmt = 0 then a.drains.filter (fun q => q.id != op)
      else a.drains.map (fun q => if q.id = op then { q with rows := rows } else q)
    let s := s.setTile t (x.setArr arr { a with drains := drains })
    let s :=
      if a.ovf set then
        let s := s.setBit (Reg.ARR_INT_OVF t arr) 0 true
        s.logTile t 0x0203 sevContained (s.numDetail t arr d.entry set.toNat 0xFFFF 0xFFFF)
      else s
    let s :=
      if int then s
      else
        let f := findSpecial ((List.range 1024).map (fun i => (acc.getD i 0).toNat))
        let s := s.recordSpecial (Reg.ARR_SPECIAL t arr) f
          (fun i => i / 32 * 2 ^ 8 + i % 32 * 2 ^ 16 + set.toNat * 2 ^ 24)
        s.specialTrap t d.at_ d.entry (s.bit (Reg.ARR_CTRL t arr) 0) (s.bit (Reg.ARR_CTRL t arr) 1) 4 f
          (fun i => s.numDetail t arr d.entry set.toNat (i / 32) (i % 32))
    s.arrStatus t arr

/-- A drain's row is written in its slot (R67); the drain ends with its last row. -/
def State.arrDrainRow (s : State) (t arr op j row slot : Nat) : State :=
  let a := (s.tile t).arr arr
  match a.findDrain op with
  | none => s
  | some d =>
    let s := s.writeRow t slot row (d.rows.getD j 0)
    if j + 1 = drainRows d.f.outFmt then
      let x := s.tile t
      let a := x.arr arr
      (s.setTile t (x.setArr arr { a with drains := a.drains.filter (fun q => q.id != op) })).arrStatus t arr
    else s

/-- A milestone cuts off an array's operations (R70): products delivered by the sample handshake have reached the
accumulators, the rest never do, and no further row is read or written. -/
def State.arrCut (s : State) (t arr h : Nat) : State :=
  let x := s.tile t
  let a := x.arr arr
  let s := a.mmas.foldl (fun s o => s.arrCount t arr h o) s
  let a' := a.mmas.foldl (fun a o => a.accumulate o (min (h + 1 - (o.issue + 73)) o.f.S)) a
  let x := s.tile t
  (s.setTile t (x.setArr arr { a' with mmas := [], drains := [], accept := 0 })).arrStatus t arr

end Sys2Proof.Machine
end

