-- ==== Sys2Proof/Machine/Mvu.lean ====
section
/-!
DEFINITION. The matrix-vector unit: row shapes, schedule and accumulation of MVM, VLOAD and MDRAIN (R71 to R73, R87 to R92,
R99, R102, R103). The entries that use them are in MvuEntries.
-/
namespace Sys2Proof

/-- Whether the weights are 4-bit codes (R71). -/
def MvmFields.nib (f : MvmFields) : Bool := f.wFmt == 2 || f.wFmt == 4

/-- Output rows of a weight row (R72's shapes). -/
def MvmFields.o (f : MvmFields) : Nat :=
  if f.nib then [64, 16, 4, 1].getD f.shape.toNat 1 else [32, 8, 2, 1].getD f.shape.toNat 1

/-- Elements of K in a weight row. -/
def MvmFields.c (f : MvmFields) : Nat := (if f.nib then 2048 else 1024) / f.o

/-- Weight rows that the operation streams. -/
def MvmFields.n (f : MvmFields) : Nat := f.rows.toNat + 1

/-- Rows per output group. -/
def MvmFields.krn (f : MvmFields) : Nat := f.kr.toNat + 1

/-- Batch vectors. -/
def MvmFields.nb (f : MvmFields) : Nat := f.batch.toNat + 1

/-- Elements of a block, or of a group where no scale applies. -/
def MvmFields.blk (f : MvmFields) : Nat := if f.scale = 2 then 16 else 32

/-- Scale bytes of one weight row. -/
def MvmFields.rowScales (f : MvmFields) : Nat := (if f.nib then 2048 else 1024) / f.blk

/-- Whether the operation accumulates integers (R87). -/
def MvmFields.isInt (f : MvmFields) : Bool := Machine.isIntOp f.wFmt.toNat f.vFmt.toNat f.scale.toNat

/-- Whether an MVM's operand values are ones that the spec gives an effect (R71, R72, R28): formats that pair, `v_off`
below 128 with more than one vector, and accumulators, activations and rows inside their memories. -/
def MvmFields.legal (f : MvmFields) : Bool :=
  let fl := (f.wFmt == 0 || f.wFmt == 1 || f.wFmt == 2) && (f.vFmt == 0 || f.vFmt == 1)
  let it := (f.wFmt == 3 || f.wFmt == 4) && f.vFmt == 3
  (fl || it) && f.scale != 3 && (f.nb == 1 || decide (f.vOff.toNat < 128)) &&
  decide (f.accBase.toNat + f.batch.toNat * 256 + ((f.n - 1) / f.krn + 1) * f.o ≤ 1024) &&
  decide (f.batch.toNat * 4096 + f.vOff.toNat * 32 + min f.n f.krn * f.c ≤ 16384) &&
  decide (f.wRow.toNat + f.n ≤ 8192)

/-- Whether a VLOAD's operand values are ones that the spec gives an effect. -/
def VloadFields.legal (f : VloadFields) : Bool :=
  f.scale != 3 && decide (f.vOff.toNat * 32 + (f.rows.toNat + 1) * 1024 ≤ 16384) &&
  decide (f.wRow.toNat + f.rows.toNat + 1 ≤ 8192)

/-- Accumulators of one row of an MDRAIN. -/
def MdrainFields.per (f : MdrainFields) : Nat := if f.bf16 then 512 else 256

/-- Whether an MDRAIN's operand values are ones that the spec gives an effect. -/
def MdrainFields.legal (f : MdrainFields) : Bool :=
  decide (f.accBase.toNat + (f.rows.toNat + 1) * f.per ≤ 1024) && decide (f.cRow.toNat + f.rows.toNat + 1 ≤ 8192)

end Sys2Proof

namespace Sys2Proof.Machine

/-- The reads of an MVM from weight row `i` on: `left` rows still to place, `slot` the next row's slot. The events of each
row are its read, the scale rows that its scale bytes enter, and the dot products of the batch (R72); the last number is
the first handshake after the stream. -/
def mvmPlan (op : Nat) (f : MvmFields) : Nat → Nat → Nat → List (Nat × TileAct) × Nat
  | 0, _, slot => ([], slot)
  | left + 1, i, slot =>
    let scales := if f.scale = 0 then [] else scaleEnters (f.ws.toNat * 32) f.rowScales i
    let e := scales.length
    let r := mvmPlan op f left (i + 1) (slot + f.nb + e)
    ([(slot, TileAct.mvuRow op i (f.wRow.toNat + i))] ++
     scales.mapIdx (fun j row => (slot + 1 + j, TileAct.mvuScale op row)) ++
     (List.range f.nb).map (fun b => (slot + e + b + 8, TileAct.mvuDot op i b)) ++ r.1, r.2)

/-- The rows that hold the scale bytes of a VLOAD. -/
def vloadScaleRows (f : VloadFields) : List Nat :=
  if f.scale = 0 then []
  else
    let q := (f.rows.toNat + 1) * 1024 / (if f.scale = 2 then 16 else 32)
    scaleEnters (f.ws.toNat * 32) q 0

/-- The MVU operation with an identity. -/
def MvuSt.find (m : MvuSt) (op : Nat) : Option MvuOp := m.ops.find? (fun o => o.id == op)

/-- `MVU_STATUS` follows the operations in progress. -/
def State.mvuStatus (s : State) (t : Nat) : State :=
  let m := (s.tile t).mvu
  let dr := m.ops.any (fun o => match o.kind with | .mdrain _ => true | _ => false)
  s.wr (Reg.MVU_STATUS t) (BitVec.ofNat 32 ((!m.ops.isEmpty).toNat + 2 * dr.toNat))

/-- A weight row or a row of a VLOAD is read in a slot. -/
def State.mvuRead (s : State) (t op i row slot : Nat) : State :=
  let (r, _, s) := s.readRow t slot row
  let x := s.tile t
  let s := s.setTile t { x with mvu := { x.mvu with
    ops := x.mvu.ops.map (fun o => if o.id = op then { o with rows := SMap.set o.rows i r } else o) } }
  match x.mvu.find op with
  | some o => (match o.kind with | .mvm _ => s.addReg (Reg.MVU_ROW_COUNT t) 1 | _ => s)
  | none => s

/-- A scale row is read in a slot. -/
def State.mvuReadScale (s : State) (t op row slot : Nat) : State :=
  let (r, _, s) := s.readRow t slot row
  let x := s.tile t
  s.setTile t { x with mvu := { x.mvu with
    ops := x.mvu.ops.map (fun o => if o.id = op then { o with scales := SMap.set o.scales row r } else o) } }

/-- The group sums of output row `r` when batch vector `b` meets weight row `i`, in K order (R72, R89, R90): FP32 codes,
or the integers modulo 2^32. -/
def mvmGroups (f : MvmFields) (o : MvuOp) (vrf : BitVec 131072) (vs : BitVec 8192) (i b r : Nat) : List Word :=
  let row := SMap.get o.rows 0 i
  let s := i % f.krn
  (List.range (f.c / f.blk)).map (fun g =>
    let codes := (List.range f.blk).map (fun e =>
      let k := g * f.blk + e
      let ve := b * 4096 + f.vOff.toNat * 32 + s * f.c + k
      (Row.elem row f.nib (r * f.c + k), (vrf.toNat >>> (8 * ve)) % 256))
    if f.isInt then (groupInt f.wFmt.toNat f.vFmt.toNat codes 0).1
    else
      let sa := f.ws.toNat * 32 + i * f.rowScales + (r * f.c + g * f.blk) / f.blk
      let wsb := Row.byte (SMap.get o.scales 0 (sa / 1024)) (sa % 1024)
      let vsb := Row.byte vs ((b * 4096 + f.vOff.toNat * 32 + s * f.c + g * f.blk) / f.blk)
      if f.scale = 0 then
        BitVec.ofNat 32 (scaleGroup (groupSum (products (codes.map (fun c =>
          (elemValue f.wFmt.toNat false c.1, elemValue f.vFmt.toNat false c.2))))) 0)
      else
        match x8Exp wsb, x8Exp vsb with
        | some x, some y => BitVec.ofNat 32 (scaleGroup (groupSum (products (codes.map (fun c =>
            (elemValue f.wFmt.toNat true c.1, elemValue f.vFmt.toNat true c.2))))) (x + y))
        | _, _ => BitVec.ofNat 32 Fmt.fp32.nanCode)

/-- Batch vector `b` meets weight row `i`: the group sums are formed and reach the accumulators 5 handshakes later. DESIGN CHOICE (log
entry 108): the vector register file is read 8 handshakes after the slot of the handshake of R72, when the weight row has come from the
store; the spec gives the completion alone. -/
def State.mvuDot (s : State) (t op i b : Nat) (e : TileEv) : State :=
  let x := s.tile t
  match x.mvu.find op with
  | none => s
  | some o => match o.kind with
    | .mvm f =>
      let adds := (List.range f.o).map (fun r =>
        (f.accBase.toNat + b * 256 + i / f.krn * f.o + r, mvmGroups f o x.mvu.vrf x.mvu.vrfScale i b r))
      s.setTile t (x.addEv { e with slot := e.slot + 5, act := .mvuAcc op (i == 0 && b == 0) adds })
    | _ => s

/-- One group sum added to an accumulator (R91, R92). -/
def mvuAdd (int : Bool) (acc : Word) (g : Word) : Word × Bool :=
  if int then
    let x := acc.toInt + g.toInt
    (BitVec.ofInt 32 x, decide (x < -2 ^ 31) || decide (2 ^ 31 - 1 < x))
  else (accAdd acc g.toNat, false)

/-- Group sums reach the accumulators (R72, R91, R92); the first of an operation with `acc_init` clears the touched
accumulators and the overflow mark before. -/
def State.mvuAcc (s : State) (t op : Nat) (first : Bool) (adds : List (Nat × List Word)) : State :=
  let x := s.tile t
  match x.mvu.find op with
  | none => s
  | some o => match o.kind with
    | .mvm f =>
      let m := x.mvu
      let groups := (f.n - 1) / f.krn + 1
      let touched (a : Nat) : Bool := (List.range f.nb).any (fun b =>
        decide (f.accBase.toNat + b * 256 ≤ a) && decide (a < f.accBase.toNat + b * 256 + groups * f.o))
      let acc := (List.range 1024).map (fun a => if first && f.accInit && touched a then 0 else m.acc.getD a 0)
      let ovf := m.ovf && !(first && f.accInit)
      let r := adds.foldl (fun (st : List Word × Bool) a =>
        let v := a.2.foldl (fun (q : Word × Bool) g => let z := mvuAdd f.isInt q.1 g; (z.1, q.2 || z.2)) (st.1.getD a.1 0, false)
        (st.1.set a.1 v.1, st.2 || v.2)) (acc, ovf)
      let int := adds.foldl (fun (w : BitVec 1024) a =>
        if f.isInt then w ||| ((1 : BitVec 1024) <<< a.1) else w &&& ~~~((1 : BitVec 1024) <<< a.1)) m.int
      s.setTile t { x with mvu := { m with acc := r.1, ovf := r.2, int := int } }
    | _ => s

/-- `n` bytes replaced from byte `a` of a byte-packed number. -/
def patchBytes (old a n v : Nat) : Nat :=
  old % 256 ^ a + v % 256 ^ n * 256 ^ a + old / 256 ^ (a + n) * 256 ^ (a + n)

/-- A loaded row is in the vector register file (R72). -/
def State.vrfRow (s : State) (t op i : Nat) : State :=
  let x := s.tile t
  match x.mvu.find op with
  | none => s
  | some o => match o.kind with
    | .vload f =>
      let v := patchBytes x.mvu.vrf.toNat (f.vOff.toNat * 32 + i * 1024) 1024 (SMap.get o.rows 0 i).toNat
      s.setTile t { x with mvu := { x.mvu with vrf := BitVec.ofNat 131072 v } }
    | _ => s

/-- The scales of a VLOAD are in the vector register file: one byte for each block of its elements, at the index of the
block (R71, R72; log entry 30). -/
def State.vrfScale (s : State) (t op : Nat) : State :=
  let x := s.tile t
  match x.mvu.find op with
  | none => s
  | some o => match o.kind with
    | .vload f =>
      let blk := if f.scale = 2 then 16 else 32
      let q := (f.rows.toNat + 1) * 1024 / blk
      let bs := (List.range q).map (fun i =>
        let a := f.ws.toNat * 32 + i
        Row.byte (SMap.get o.scales 0 (a / 1024)) (a % 1024))
      let v := patchBytes x.mvu.vrfScale.toNat (f.vOff.toNat * 32 / blk) q (packRow 1 bs).toNat
      s.setTile t { x with mvu := { x.mvu with vrfScale := BitVec.ofNat 8192 v } }
    | _ => s

/-- The rows that an MDRAIN writes (R72, R99). -/
def mdrainContents (f : MdrainFields) (m : MvuSt) : List Row :=
  (List.range (f.rows.toNat + 1)).map (fun j =>
    let vals := (List.range f.per).map (fun k =>
      let a := f.accBase.toNat + j * f.per + k
      (m.int.getLsbD a, m.acc.getD a 0))
    if f.bf16 then packRow 2 (vals.map (fun w => (Fmt.bf16.ofV false (Fmt.fp32.decode (accFp32 w.1 w.2))).code))
    else packRow 4 (vals.map (fun w => w.2.toNat)))

/-- The overflow record and the check of an MDRAIN at its issue `I` (R92, R102, R103): the accumulators are one set with one mark, and
those of integer operations hold no special value. -/
def State.mdrainCheck (s : State) (t I entry : Nat) (f : MdrainFields) : State :=
  let m := (s.tile t).mvu
  let s := if m.ovf then
      let s := s.setBit (Reg.MVU_INT_OVF t) 0 true
      s.logTile t 0x0203 sevContained (s.numDetail t 2 entry 0xFF 0xFFFF 0xFFFF)
    else s
  let n := (f.rows.toNat + 1) * f.per
  let z := findSpecial ((List.range n).map (fun k =>
    let a := f.accBase.toNat + k
    if m.int.getLsbD a then 0 else (m.acc.getD a 0).toNat))
  let s := s.recordSpecial (Reg.MVU_SPECIAL t) z (fun i => (f.accBase.toNat + i) * 2 ^ 16)
  s.specialTrap t I entry (s.bit (Reg.MVU_CTRL t) 0) (s.bit (Reg.MVU_CTRL t) 1) 5 z
    (fun i => s.numDetail t 2 entry 0xFF (f.accBase.toNat + i) 0xFFFF)

/-- A row of an MDRAIN is written in its slot. -/
def State.mvuDrainRow (s : State) (t op j row slot : Nat) : State :=
  match (s.tile t).mvu.find op with
  | none => s
  | some o => s.writeRow t slot row (SMap.get o.rows 0 j)

/-- Operations whose last effect is past are no longer in progress. -/
def State.mvuRetire (s : State) (t h : Nat) : State :=
  let x := s.tile t
  match x.mvu.ops with
  | [] => s
  | _ => (s.setTile t { x with mvu := { x.mvu with ops := x.mvu.ops.filter (fun o => decide (h < o.done)) } }).mvuStatus t

/-- A milestone cuts off the MVU's operations (R70). -/
def State.mvuCut (s : State) (t : Nat) : State :=
  let x := s.tile t
  (s.setTile t { x with mvu := { x.mvu with ops := [], accept := 0 } }).mvuStatus t

end Sys2Proof.Machine
end

