-- ==== Sys2Proof/Machine/DramMap.lean ====
section
/-!
DEFINITION. The DRAM address map (R275), capacities and holes, and the range of a partition (R277).
-/
namespace Sys2Proof.Machine

/-- The channel of a device address and its offset in the channel (R275). -/
def State.dramLoc (s : State) (a : Nat) : Nat × Nat :=
  let a := a % 2 ^ 40
  if s.bit Reg.DDR_MAP_CTRL 0 then
    (4 * (a / 2 ^ 38 % 2) + a / 2 ^ 12 % 4, a / 2 ^ 14 % 2 ^ 24 * 2 ^ 12 + a % 2 ^ 12)
  else (a / 2 ^ 36 % 8, a % 2 ^ 36)

/-- The capacity of a channel in bytes (`DDR_ORG`). -/
def State.dramCap (s : State) (ch : Nat) : Nat := s.fld (Reg.DDR_ORG ch) 16 7 * 2 ^ 30

/-! The decode of a channel offset (R276). -/

/-- Bits of the offset below the row: 18 for x8 devices, 19 for x4. -/
def State.ddrW (s : State) (ch : Nat) : Nat := if s.bit (Reg.DDR_ORG ch) 0 then 19 else 18

/-- Rows of a bank. -/
def State.ddrRows (s : State) (ch : Nat) : Nat :=
  match s.fld (Reg.DDR_ORG ch) 2 2 with
  | 0 => 65536
  | 1 => 98304
  | _ => 131072

/-- Row, rank, bank, bank group, subchannel, byte and burst column of an offset. -/
def State.ddrRow (s : State) (ch o : Nat) : Nat := o / 2 ^ s.ddrW ch % s.ddrRows ch
def State.ddrRank (s : State) (ch o : Nat) : Nat := o / 2 ^ s.ddrW ch / s.ddrRows ch
def ddrBankIdx (o : Nat) : Nat := o / 2 ^ 16 % 4
def State.ddrGroup (s : State) (ch o : Nat) : Nat := (o / 2 ^ 13 % 8) ^^^ (s.ddrRow ch o % 8)
def ddrSub (o : Nat) : Nat := o / 64 % 2
def ddrByte (o : Nat) : Nat := o % 64
def State.ddrCol (s : State) (ch o : Nat) : Nat :=
  (if s.bit (Reg.DDR_ORG ch) 0 then o / 2 ^ 18 % 2 * 64 else 0) + o / 2 ^ 7 % 64

/-! Holes and ranges. -/

/-- Whether a device address is a hole (R275). -/
def State.dramHole (s : State) (a : Nat) : Bool :=
  decide (2 ^ 39 ≤ a) || decide (s.dramCap (s.dramLoc a).1 ≤ (s.dramLoc a).2)

/-- The key of a device address in the DRAM memory: channel × 2^36 + offset. -/
def State.dramKey (s : State) (a : Nat) : Nat := (s.dramLoc a).1 * 2 ^ 36 + (s.dramLoc a).2

/-- Whether a run of bytes lies in the range of a partition (R277). -/
def State.inRange (s : State) (p a n : Nat) : Bool :=
  let lo := s.fld (Reg.DDR_PART_RANGE p) 0 20 * 2 ^ 20
  let hi := s.fld (Reg.DDR_PART_LIMIT p) 0 20 * 2 ^ 20
  s.bit (Reg.DDR_PART_RANGE p) 31 && decide (lo ≤ a) && decide (a + n ≤ hi)

/-- The edge code of the hub port through which a tile's column reaches a device address: the north edge port for channels
A to D, the south one for E to H (R179, R275). -/
def State.dramPort (s : State) (t a : Nat) : Nat := if (s.dramLoc a).1 < 4 then t / 8 else 16 + t / 8

end Sys2Proof.Machine
end

