-- ==== Sys2Proof/Machine/SeEngine.lean ====
section
/-!
DEFINITION. The stream engine (R116 to R126): contexts and rings, releases and pushes, the delivery protocol, arbitration,
snapshots, restart, cancellation and stream faults. The entries and events that use it are in StreamEntries and SeEvents.
-/
namespace Sys2Proof.Machine

/-- A context after it opened: nothing written, requested or pushed. -/
def SeCtx.reset : SeCtx := ⟨0, 0, 0, 0, 0, 0, 0, false, 0⟩

/-- A context's record. -/
def State.seCtx (s : State) (t c : Nat) : SeCtx := SMap.get (s.tile t).se.ctx SeCtx.reset c

/-- The state with a context's record replaced. -/
def State.setSeCtx (s : State) (t c : Nat) (v : SeCtx) : State :=
  let x := s.tile t
  s.setTile t { x with se := { x.se with ctx := SMap.set x.se.ctx c v } }

/-- The state with a stream engine's record changed. -/
def State.updSe (s : State) (t : Nat) (f : SeSt → SeSt) : State :=
  let x := s.tile t
  s.setTile t { x with se := f x.se }

/-- A context's state: 0 closed, 1 open, 2 paused, 3 aborted. -/
def State.ctxState (s : State) (t c : Nat) : Nat := s.fld (Reg.SE_CTX_STATUS t c) 0 2

/-- The state with a context's state replaced. -/
def State.setCtxState (s : State) (t c v : Nat) : State := s.setFld (Reg.SE_CTX_STATUS t c) 0 2 v

/-- Whether a context is outbound. -/
def State.ctxOut (s : State) (t c : Nat) : Bool := s.bit (Reg.SE_CTX_CTRL t c) 1

/-- A context's kind: 0 DRAM, 1 TILE, 2 EDGE, 3 CHAN. -/
def State.ctxKind (s : State) (t c : Nat) : Nat := s.fld (Reg.SE_CTX_CTRL t c) 2 2

/-- Whether releases are held for the commit (R121). -/
def State.ctxHeld (s : State) (t c : Nat) : Bool := s.bit (Reg.SE_CTX_CTRL t c) 4

/-- Declared rows per beat. -/
def State.ctxRate (s : State) (t c : Nat) : Nat := s.fld (Reg.SE_CTX_CTRL t c) 16 12

/-- Rows of the ring. -/
def State.ringSize (s : State) (t c : Nat) : Nat := s.fld (Reg.SE_CTX_RING t c) 16 13 + 1

/-- The store row of the k-th row of a context (R116). -/
def State.ringRow (s : State) (t c k : Nat) : Nat := s.fld (Reg.SE_CTX_RING t c) 0 13 + k % s.ringSize t c

/-- What stands above a 13-bit count of a context: 8,192 where the count is that of a whole ring of 8,192 rows (R116). -/
def State.ctxTop (s : State) (t i : Nat) : Nat := if (s.tile t).se.full.contains i then 8192 else 0

/-- `fill` and `free` of a context. -/
def State.ctxFill (s : State) (t c : Nat) : Nat := s.fld (Reg.SE_CTX_FILL t c) 0 13 + s.ctxTop t (2 * c)
def State.ctxFree (s : State) (t c : Nat) : Nat := s.fld (Reg.SE_CTX_FILL t c) 16 13 + s.ctxTop t (2 * c + 1)

/-- The state with both replaced. DESIGN CHOICE (log entry 113): a count of 8,192 shows 0 in the 13 bits of `SE_CTXc_FILL`. -/
def State.setFillFree (s : State) (t c fill free : Nat) : State :=
  let s := s.wr (Reg.SE_CTX_FILL t c) (BitVec.ofNat 32 (fill % 8192 + free % 8192 * 65536))
  let old := (s.tile t).se.full
  let new := (if fill = 8192 then [2 * c] else []) ++ (if free = 8192 then [2 * c + 1] else []) ++ old.filter (fun i => i / 2 != c)
  if old = new then s else s.updSe t (fun e => { e with full := new })

/-- The semaphore that a context uses in its own tile. -/
def State.ctxSem (s : State) (t c : Nat) : Nat := s.fld (Reg.SE_CTX_SEM t c) 0 6

/-- The DRAM address of the n-th row of a context's walk (R122). -/
def State.walkAddr (s : State) (t c n : Nat) : Nat :=
  s.rd2 (Reg.SE_CTX_SRC_LO t c) (Reg.SE_CTX_SRC_HI t c) % 2 ^ 40 +
    n % (s.fld (Reg.SE_CTX_WALK t c) 0 13 + 1) * 1024

/-- Landing rows in use: every row requested, granted or credited and not yet written (R120). -/
def State.landUsed (s : State) (t : Nat) : Nat :=
  (List.range 8).foldl (fun n c => n + (s.seCtx t c).requested) 0

/-- A context's credit (R122). -/
def State.ctxCredit (s : State) (t c : Nat) : Nat := s.ctxFree t c - (s.seCtx t c).requested

/-- `SE_STATUS` and the outstanding counts follow the request table and the landing rows. DESIGN CHOICE (log entry 113): the 5 bits of
`outstanding` show 0 for a context that holds all 32 entries. -/
def State.seStatus (s : State) (t : Nat) : State :=
  let se := (s.tile t).se
  let s := s.wr (Reg.SE_STATUS t) (BitVec.ofNat 32 (se.reqs.length % 64 + s.landUsed t % 32 * 256))
  (List.range 8).foldl (fun s c =>
    let n := (se.reqs.filter (fun r => r.ctx == c)).length
    if s.fld (Reg.SE_CTX_STATUS t c) 8 5 = n % 32 then s else s.setFld (Reg.SE_CTX_STATUS t c) 8 5 n) s

/-- The destination of an outbound context's next RESERVE or row, as (code, kind): the remote tile, the edge port, the edge
port of the channel, or the hub port of a DRAM address (R116, R179, R256). -/
def State.ctxDst (s : State) (t c n : Nat) : Nat × Bool :=
  let src := s.rd (Reg.SE_CTX_SRC_LO t c)
  match s.ctxKind t c with
  | 0 => (s.dramPort t (s.walkAddr t c n), true)
  | 1 => (src.field 0 7, false)
  | 2 => (src.field 0 7, true)
  | _ => (s.fld (Reg.CHN_LOCAL (src.field 0 8)) 0 7, true)

/-- The context number that a packet of a context carries: the remote context for TILE kind, its own otherwise (R174). -/
def State.ctxTag (s : State) (t c : Nat) : Nat :=
  if s.ctxKind t c = 1 then s.fld (Reg.SE_CTX_SRC_LO t c) 8 3 else c

/-- An inbound EDGE or CHAN context gives its port CREDIT for the rows that its ring and the landing buffer can take
(R180): each row of credit is a reserved landing row. -/
def State.seCredit (s : State) (t c : Nat) : State :=
  if s.ctxState t c = 1 ∧ !(s.ctxOut t c) ∧ 2 ≤ s.ctxKind t c then
    let n := min (s.ctxCredit t c) (16 - s.landUsed t)
    if n = 0 then s
    else
      let (dst, dk) := s.ctxDst t c 0
      let (sent, s) := s.sendPkt t (Pkt.make dst dk t false ptCredit c n 0)
      if sent then
        let v := s.seCtx t c
        s.setSeCtx t c { v with requested := v.requested + n }
      else s
  else s

/-- Nothing of an earlier opening of a context is left: its requests are cancelled, and its landing rows and reservations are gone. -/
def State.seForget (s : State) (t c : Nat) : State :=
  s.updSe t (fun e => { e with
    reqs := e.reqs.map (fun r => if r.ctx = c then { r with cancelled := true } else r)
    landing := e.landing.filter (fun l => l.ctx != c)
    kept := e.kept.filter (fun l => l.ctx != c)
    sent := e.sent.filter (fun r => r.ctx != c)
    waiting := e.waiting.filter (fun r => r.ctx != c)
    items := e.items.filter (fun r => r.1 != c)
    dwr := e.dwr.filter (fun r => r.1 != c) })

/-- A context opens (R116): fill 0, the walk at its base. One that a COMMIT closed stays closed until firmware enables it anew (R118). -/
def State.seOpen (s : State) (t c : Nat) : State :=
  if s.bit (Reg.SE_CTX_CTRL t c) 0 && !((s.tile t).se.shut.contains c) then
    (((s.seForget t c).setCtxState t c 1).setFillFree t c 0 (s.ringSize t c)).setSeCtx t c SeCtx.reset
  else s

/-- Rows freed in the ring of an inbound context: `free` rises and the producer learns of it (R117, R121). -/
def State.seFree (s : State) (t c n : Nat) : State :=
  if n = 0 then s
  else
    let s := s.setFillFree t c (s.ctxFill t c) (s.ctxFree t c + n)
    if s.ctxKind t c = 1 then
      s.remoteSignal t (s.fld (Reg.SE_CTX_SEM t c) 8 6) n (s.fld (Reg.SE_CTX_SRC_LO t c) 0 7) true
    else s

/-- A release of rows of a context (R118, R119, R121). DESIGN CHOICE (log entry 114): `fill` falls at the release also where `held` keeps the
rows' `free` and their signal for the commit; the spec says when freeing takes effect and not when `fill` falls. -/
def State.seRelease (s : State) (t c n : Nat) : State :=
  let st := s.ctxState t c
  if (st = 1 ∨ st = 2) ∧ !(s.ctxOut t c) then
    let fill := s.ctxFill t c
    let s := if fill < n then s.setBit (Reg.SE_REL_OVER t) c true else s
    let m := min n fill
    let s := s.setFillFree t c (fill - m) (s.ctxFree t c)
    if s.ctxHeld t c then
      let v := s.seCtx t c
      s.setSeCtx t c { v with released := v.released + m }
    else ((s.seFree t c m).seCredit t c).seStatus t
  else s

/-- A push of rows of a context (R118, R119). -/
def State.sePush (s : State) (t c n : Nat) : State :=
  let st := s.ctxState t c
  if (st = 1 ∨ st = 2) ∧ s.ctxOut t c then
    let free := s.ctxFree t c
    let s := if free < n then s.setBit (Reg.SE_REL_OVER t) c true else s
    let m := min n free
    s.setFillFree t c (s.ctxFill t c + m) (free - m)
  else s

/-- Whether one context goes before another by the measure of R123: fill, or free, over rate, without division. -/
def seBefore (ma ra a mb rb b : Nat) : Bool :=
  if ra = 0 ∧ rb = 0 then decide (a < b)
  else if ra = 0 then false
  else if rb = 0 then true
  else if ma * rb = mb * ra then decide (a < b)
  else decide (ma * rb < mb * ra)

/-- The context that a slot serves among the eligible ones (R123). -/
def State.seChoose (s : State) (t : Nat) (out : Bool) (cs : List Nat) : Option Nat :=
  let m (c : Nat) : Nat := if out then s.ctxFree t c else s.ctxFill t c
  cs.foldl (fun (best : Option Nat) c =>
    match best with
    | none => some c
    | some b => if seBefore (m c) (s.ctxRate t c) c (m b) (s.ctxRate t b) b then some c else some b) none

/-- A context is cancelled (R125): it becomes closed (0) or aborted (3). -/
def State.seCancel (s : State) (t c st : Nat) : State :=
  let v := s.seCtx t c
  let s := s.updSe t (fun e => { e with
    reqs := e.reqs.map (fun r => if r.ctx = c then { r with cancelled := true } else r),
    landing := e.landing.filter (fun l => l.ctx != c),
    kept := e.kept.filter (fun l => l.ctx != c),
    sent := e.sent.filter (fun r => r.ctx != c) })
  let s := if s.ctxOut t c && !(s.semBroken t (s.ctxSem t c)) then
      s.setSemCount t (s.ctxSem t c) (s.semCount t (s.ctxSem t c) + v.credited) else s
  (s.setSeCtx t c { v with requested := 0, credited := 0, reserved := 0, granted := 0, closing := false }).setCtxState t c st

/-- Whether a context is open or paused. -/
def State.ctxLive (s : State) (t c : Nat) : Bool := s.ctxState t c == 1 || s.ctxState t c == 2

/-- The record of a stream fault (R126). -/
def State.abortRecord (s : State) (t c cause addr : Nat) : State :=
  let s := s.wr (Reg.SE_ABORT t) (BitVec.ofNat 32 (1 + c * 16 + cause * 256))
  s.logTile t 0x0109 sevPartition (toBytes t 1 ++ toBytes c 1 ++ toBytes cause 1 ++
    (if s.ctxKind t c = 0 then toBytes addr 5 else []))

/-- Whether a stream fault of a context counts (R126): the context is open or paused, or a fault of the same handshake or park aborted
it. -/
def State.faultable (s : State) (t c : Nat) : Bool :=
  s.ctxLive t c || (s.ctxState t c == 3 && !(s.tile t).se.aborts.isEmpty)

/-- A stream fault of a context reaches the engine (R126): the fault line rises and every context of the tile is cancelled. The record
waits for the end of the handshake, and of the park in a parked tile, so that the lowest context is recorded. -/
def State.streamFault (s : State) (t c cause addr : Nat) : State :=
  if s.faultable t c then
    let s := match s.tilePart t with | some p => s.raiseFault p | none => s
    let s := ((List.range 8).foldl (fun s k => if s.ctxLive t k then s.seCancel t k 3 else s) s).seStatus t
    s.updSe t (fun e => { e with aborts := e.aborts ++ [(c, cause, addr)] })
  else s

/-- The source address that the record of a context names: its next row's (R126). -/
def State.ctxAddr (s : State) (t c : Nat) : Nat :=
  let v := s.seCtx t c
  s.walkAddr t c (if s.ctxOut t c then v.k else v.walk)

/-- The lowest context among the stream faults of a handshake or park. -/
def lowestAbort : List (Nat × Nat × Nat) → Option (Nat × Nat × Nat)
  | [] => none
  | x :: r => match lowestAbort r with
    | some y => if y.1 < x.1 then some y else some x
    | none => some x

/-- A handshake or park ends: the stream faults that reached the engine in it are recorded as one (R126). -/
def State.settleAborts (s : State) (t : Nat) : State :=
  match lowestAbort (s.tile t).se.aborts with
  | none => s
  | some (c, cause, addr) => (s.updSe t (fun e => { e with aborts := [] })).abortRecord t c cause addr

/-- The first item of a context comes one row nearer to its last. -/
def itemStep (c : Nat) : List (Nat × Nat × Bool) → List (Nat × Nat × Bool)
  | [] => []
  | x :: r => if x.1 = c then (if x.2.1 ≤ 1 then r else (x.1, x.2.1 - 1, x.2.2) :: r) else x :: itemStep c r

/-- The snapshot of a context is changed: what a retired gap does to it (R124). -/
def State.updSnap (s : State) (t c : Nat) (f : SeSnap → SeSnap) : State :=
  s.updSe t (fun e => { e with snap := e.snap.map (fun p => if p.1 = c then (p.1, f p.2) else p) })

/-- Ring rows of a retired gap item are freed at once and their CREDIT is sent, whatever `held` says (R121, R259). -/
def State.gapFree (s : State) (t c n : Nat) : State :=
  if n = 0 then s
  else
    let s := s.setFillFree t c (s.ctxFill t c - n) (s.ctxFree t c + n)
    let g := min n (16 - s.landUsed t)
    if g = 0 ∨ s.ctxState t c ≠ 1 then s
    else
      let (dst, dk) := s.ctxDst t c 0
      let (sent, s) := s.sendPkt t (Pkt.make dst dk t false ptCredit c g 0)
      if sent then
        let v := s.seCtx t c
        ((s.setSeCtx t c { v with requested := v.requested + g }).updSnap t c (fun q =>
          { q with c := { q.c with requested := q.c.requested + g } })).seStatus t
      else s

/-- How many rows of a context are in the store, counted from its opening: those written, less those on their way. -/
def State.filledRows (s : State) (t c : Nat) : Nat :=
  (s.seCtx t c).k - ((s.tile t).evs.filter (fun e => e.act == .seFilled c)).length

/-- The rows of a retired gap that lie at places `lo` to before `hi` of a context's rows are no rows that a restart keeps (R124). -/
def State.dropKept (s : State) (t c lo hi : Nat) : State :=
  if (s.tile t).se.kept.isEmpty then s
  else s.updSe t (fun e => { e with kept := e.kept.filter (fun r =>
    !(r.ctx == c && (match r.written with | some i => decide (lo ≤ i) && decide (i < hi) | none => false))) })

/-- A channel's data item of `n` rows is consumed: the filled semaphore is signalled once every row is in the ring (R46). -/
def State.seItem (s : State) (t c n : Nat) : State :=
  let v := s.seCtx t c
  let m := min v.early n
  let s := s.setSeCtx t c { v with early := v.early - m }
  if n = m then s.signalIn t (s.ctxSem t c) 1 srcChan
  else s.updSe t (fun e => { e with items := e.items ++ [(c, n - m, false)] })

/-- A channel's gap item of `n` rows is retired (R46, R121, R124, R259). -/
def State.seGap (s : State) (t c n : Nat) : State :=
  let v := s.seCtx t c
  let m := min v.early n
  let lo := s.filledRows t c - v.early
  let s := (s.setSeCtx t c { v with early := v.early - m }).dropKept t c lo (lo + m)
  let s := s.updSnap t c (fun q =>
    let k := min q.c.early n
    { q with
      c := { q.c with early := q.c.early - k, requested := q.c.requested - (n - k) }
      fill := q.fill - k
      free := q.free + k })
  let s := if n = m then s else s.updSe t (fun e => { e with items := e.items ++ [(c, n - m, true)] })
  s.gapFree t c m

/-- A row of an inbound context is in the store: the signal of its filled semaphore as (semaphore, amount, source), none
while a channel's item still lacks rows (R117, R46, R120 step 5). -/
def State.seFilled (s : State) (t c : Nat) : Option (Nat × Nat × Nat) × State :=
  if s.ctxKind t c = 3 then
    match (s.tile t).se.items.find? (fun i => i.1 == c) with
    | none =>
      let v := s.seCtx t c
      (none, s.setSeCtx t c { v with early := v.early + 1 })
    | some it =>
      let s := s.updSe t (fun e => { e with items := itemStep c e.items })
      if it.2.2 then (none, (s.dropKept t c (s.filledRows t c - 1) (s.filledRows t c)).gapFree t c 1)
      else (if it.2.1 ≤ 1 then some (s.ctxSem t c, 1, srcChan) else none, s)
  else (some (s.ctxSem t c, 1, srcSe), s)

/-- The first kept row of a context that is not in the ring is written at a place. -/
def markWritten (c k : Nat) : List KeptRow → List KeptRow
  | [] => []
  | r :: l => if r.ctx = c ∧ r.written = none then { r with written := some k } :: l else r :: markWritten c k l

/-- A row lands for a context (R120); one that the attempt did not ask for is kept through its restart (R124). -/
def State.seLand (s : State) (t c : Nat) (v : Row) (now : Bool) : State :=
  s.updSe t (fun e => { e with
    landing := e.landing ++ [⟨c, v, now⟩]
    kept := if now then e.kept else e.kept ++ [⟨c, v, none⟩] })

/-- A write slot of the stream engine (R118, R120 step 4, R123). -/
def State.seWrite (s : State) (t slot : Nat) (mask : BitVec 8) : State :=
  let se := (s.tile t).se
  let cs := (List.range 8).filter (fun c =>
    mask.getLsbD c && s.ctxLive t c && !(s.ctxOut t c) && se.landing.any (fun l => l.ctx == c))
  match s.seChoose t false cs with
  | none => s
  | some c =>
    match se.landing.find? (fun l => l.ctx == c) with
    | none => s
    | some l =>
      let rec drop : List Landing → List Landing
        | [] => []
        | x :: r => if x.ctx = c then r else x :: drop r
      let v := s.seCtx t c
      let s := s.writeRow t slot (s.ringRow t c v.k) l.data
      let s := s.updSe t (fun e => { e with landing := drop e.landing, kept := if l.now then e.kept else markWritten c v.k e.kept })
      let s := s.setSeCtx t c { v with k := v.k + 1, requested := v.requested - 1 }
      let s := s.setFillFree t c (s.ctxFill t c + 1) (s.ctxFree t c - 1)
      let x := s.tile t
      s.setTile t (x.addEv ⟨slot + 7, x.order, 0xFFFF, .seFilled c⟩)

/-- A read slot of the stream engine (R118, R120 step 3, R123): the row leaves for its destination; a poisoned row stays
and is the context's next row (R113). -/
def State.seRead (s : State) (t slot : Nat) (mask : BitVec 8) : State :=
  let cs := (List.range 8).filter (fun c =>
    mask.getLsbD c && s.ctxState t c == 1 && s.ctxOut t c && decide (0 < (s.seCtx t c).granted))
  match s.seChoose t true cs with
  | none => s
  | some c =>
    let v := s.seCtx t c
    let (row, poison, s) := s.readRow t slot (s.ringRow t c v.k)
    if poison then s
    else
      let (dst, dk) := s.ctxDst t c v.k
      let addr := s.walkAddr t c v.k
      let p := if s.ctxKind t c = 0 then Pkt.make dst dk t false ptDwr c addr row
        else Pkt.make dst dk t false ptPush (s.ctxTag t c) (v.k % 2 ^ 32) row
      let (sent, s) := s.sendPkt t p
      if sent then
        let s := s.setSeCtx t c { v with k := v.k + 1, granted := v.granted - 1, credited := v.credited - 1 }
        let s := s.setFillFree t c (s.ctxFill t c - 1) (s.ctxFree t c + 1)
        if s.ctxKind t c = 0 then s.updSe t (fun e => { e with dwr := e.dwr ++ [(c, addr)] }) else s
      else s

/-- A slot of an SWIN window (R118). -/
def State.seSlot (s : State) (t slot : Nat) (read : Bool) (mask : BitVec 8) : State :=
  (if read then s.seRead t slot mask else s.seWrite t slot mask).seStatus t

/-! Milestones. -/

/-- The snapshot of every context at an opening milestone (R124). -/
def State.seSnapshot (s : State) (t : Nat) : State :=
  let snap := (List.range 8).map (fun c => (c, (⟨s.seCtx t c, s.ctxState t c, s.ctxFill t c, s.ctxFree t c⟩ : SeSnap)))
  s.updSe t (fun e => { e with
    snap := snap
    snapItems := e.items
    snapSent := e.sent
    snapWaiting := e.waiting
    snapDwr := e.dwr
    kept := e.landing.map (fun l => ⟨l.ctx, l.data, none⟩)
    landing := e.landing.map (fun l => { l with now := false })
    reqs := e.reqs.map (fun r => { r with now := false })
    waiting := e.waiting.map (fun r => { r with now := false }) })

/-- A SLIP or GAP restart of the stream engine, from a beat that opened at a milestone (R124): the requests of the attempt are cancelled;
the landing rows that it filled, the RESERVEs that it sent and the queued ones that bear its bt are gone; the rows fetched before the
milestone stand in the landing buffer again; and each context returns to its snapshot (log entry 31). -/
def State.seRestart (s : State) (t openMs : Nat) : State :=
  let e := (s.tile t).se
  let s := s.updSe t (fun e => { e with
    reqs := e.reqs.map (fun r => if r.now then { r with cancelled := true } else r)
    landing := e.kept.map (fun r => ⟨r.ctx, r.data, false⟩)
    kept := e.kept.map (fun r => { r with written := none })
    waiting := e.snapWaiting ++ e.waiting.filter (fun r => r.now && r.bt != openMs % 4)
    sent := e.snapSent
    items := e.snapItems })
  e.snap.foldl (fun s p =>
    let c := p.1
    let q := p.2
    if s.ctxState t c = 3 then s
    else ((s.setSeCtx t c q.c).setCtxState t c q.state).setFillFree t c q.fill q.free) s |>.seStatus t

/-- What a COMMIT does to the contexts (R118, R121, R125): held releases take effect, closes take effect and last until firmware enables
the context anew, and CREDIT leaves for the rows that are free. -/
def State.seCommit (s : State) (t : Nat) : State :=
  (List.range 8).foldl (fun s c =>
    let v := s.seCtx t c
    let s := if v.released = 0 then s else (s.setSeCtx t c { v with released := 0 }).seFree t c v.released
    if (s.seCtx t c).closing then (s.seCancel t c 0).updSe t (fun e => { e with shut := c :: e.shut.filter (fun d => d != c) })
    else s.seCredit t c) s |>.seStatus t

/-- A tile reset of the stream engine (R125): every context is cancelled and closed with fill 0; the request table keeps
its cancellation marks. -/
def State.seTileReset (s : State) (t : Nat) : State :=
  let s := (List.range 8).foldl (fun s c =>
    let s := s.seCancel t c 0
    (s.setFillFree t c 0 0).setSeCtx t c SeCtx.reset) s
  ((s.settleAborts t).updSe t (fun e => { e with
    snap := [], waiting := [], sent := [], dwr := [], items := [], snapItems := [], timedOut := [], snapSent := [], snapWaiting := []
    kept := [], snapDwr := [] })).seStatus t

end Sys2Proof.Machine
end

