-- ==== Sys2Proof/Machine/Veu.lean ====
section
/-!
DEFINITION. The vector unit: the operations of R74 and R75 on registers of FP32, BF16 or FP16 elements, block conversions
(R96 to R98), the sticky flags, and the check of VST (R102, R103). The entries that use them are in VeuEntries.
-/
namespace Sys2Proof.Machine

/-- The opcodes of the VEU (R74). -/
def veVld : Nat := 0x01
def veVst : Nat := 0x02
def veAdd : Nat := 0x03
def veMul : Nat := 0x04
def veFma : Nat := 0x05
def veCmp : Nat := 0x06
def veSel : Nat := 0x07
def veMax : Nat := 0x08
def veMin : Nat := 0x09
def veExp2 : Nat := 0x0A
def veLog2 : Nat := 0x0B
def veRcp : Nat := 0x0C
def veRsq : Nat := 0x0D
def veExps : Nat := 0x0E
def veRmaxi : Nat := 0x0F
def veRmini : Nat := 0x10
def veRsum : Nat := 0x11
def veRssq : Nat := 0x12
def veCvt : Nat := 0x13
def veQnt : Nat := 0x14
def veDqnt : Nat := 0x15
def veBcast : Nat := 0x16

/-- The element format of an operation: 0 FP32, 1 BF16, 2 FP16 (R74). -/
def veuFmt (fmt : Nat) : Fmt := if fmt = 1 then Fmt.bf16 else if fmt = 2 then Fmt.fp16 else Fmt.fp32

/-- Bytes of an element. -/
def veuW (fmt : Nat) : Nat := if fmt = 0 then 4 else 2

/-- Elements of a register. -/
def veuN (fmt : Nat) : Nat := if fmt = 0 then 256 else 512

/-- Whether the operand values of an operation are ones that the spec gives an effect (R74, R28). -/
def veuLegal (op : Nat) (f : VeuFields) : Bool :=
  let fmt := f.fmt.toNat
  let mode := f.mode.toNat
  if op = veQnt ∨ op = veDqnt then decide (fmt ≤ 4) && decide (mode ≤ 1)
  else if op = veCvt then (fmt == 1 || fmt == 2) && decide (mode ≤ 1)
  else if op = veCmp then decide (fmt ≤ 2) && decide (mode ≤ 3)
  else decide (fmt ≤ 2)

/-- The flags that a result adds to `VEU_FLAGS` (R75). -/
def FRes.veuFlags (r : FRes) : Nat :=
  r.invalid.toNat + 2 * r.divZero.toNat + 4 * r.overflow.toNat + 8 * (r.subnormal || r.underflow).toNat + 16 * r.inexact.toNat

/-- Results joined: their codes, and the flags of all. -/
def joinRes (l : List FRes) : List Nat × Nat := (l.map FRes.code, l.foldl (fun a r => a ||| r.veuFlags) 0)

/-- A result with no flag. -/
def plainRes (c : Nat) : FRes := { code := c }

/-- Elementwise maximum or minimum; −0 lies below +0, and the result with a NaN operand is not stated (log entry 12). -/
def veuMaxMin (F : Fmt) (op a b : Nat) : FRes :=
  let x := F.decode a
  let y := F.decode b
  if x.isNan || y.isNan then plainRes (F.openCode (Config.veuUnstated op a b))
  else if op = veMax then plainRes (if x.below y then b else a)
  else plainRes (if y.below x then b else a)

/-- A comparison (R74): 0 eq, 1 lt, 2 le, 3 ne. -/
def veuCmp (F : Fmt) (mode a b : Nat) : Bool :=
  let x := F.decode a
  let y := F.decode b
  match mode with
  | 0 => x.eq y
  | 1 => x.lt y
  | 2 => x.lt y || x.eq y
  | _ => !(x.eq y)

/-- The argument va × imm − vb[0] of VEXPS, exact (R74): a NaN that no operand held is an invalid operation (R75). -/
def expsArg (F : Fmt) (a m b : Nat) : Fv :=
  let p := (Fv.mul (F.decode a) (Fmt.fp32.decode m)).1
  let y := (F.decode b).negate
  match p, y with
  | .nan, _ => .nan
  | _, .nan => .nan
  | .inf x, .inf z => if x = z then .inf x else .nan
  | .inf x, .fin .. => .inf x
  | .fin .., .inf z => .inf z
  | p, q => let d := p.dy.add q.dy; .fin (decide (d.m < 0)) d.m.natAbs d.e

/-- An open result of a table-and-refinement operation on a 16-bit format: a NaN is the canonical one, a subnormal is flushed to zero
with its sign (R75, R86), and whether it was rounded is open too (log entry 12). -/
def tableOpen (F : Fmt) (free : Nat) (inexact : Bool) : FRes :=
  let c := F.openCode free
  match F.decode c with
  | .nan => F.nanRes true
  | .inf _ => { code := c, overflow := true, inexact := true }
  | .fin n m e =>
    if m ≠ 0 ∧ e + (bitLen m : Int) ≤ F.emin + F.mb then { code := F.signed n 0, underflow := true, inexact := true, subnormal := true }
    else { code := c, inexact := inexact }

/-- A table-and-refinement operation on one element of a 16-bit format: the special inputs of R75, and an open result for the rest, for
which the bounds of R75, stated for FP32, say nothing (log entry 12). -/
def veuTable16 (F : Fmt) (op free : Nat) (inexact : Bool) (unstated : Nat) (v : Fv) (invalid : Bool) : FRes :=
  match v with
  | .nan => F.nanRes invalid
  | .inf neg =>
    if op = veExp2 ∨ op = veExps then { code := if neg then 0 else F.infCode }
    else if op = veLog2 then (if neg then F.nanRes true else { code := F.infCode })
    else if op = veRcp then { code := F.signed neg 0 }
    else if neg then F.nanRes true else { code := 0 }
  | .fin neg m _ =>
    if op = veExp2 ∨ op = veExps then tableOpen F free inexact
    else if m = 0 then
      if op = veLog2 then { code := F.signed true F.infCode, divZero := true }
      else if op = veRcp then { code := F.signed neg F.infCode, divZero := true }
      else if neg then { code := F.openCode unstated } else { code := F.infCode }
    else if neg && op != veRcp then F.nanRes true
    else tableOpen F free inexact

/-- A table-and-refinement operation on one element (R75). The bounds are stated for FP32. -/
def veuTableOp (op fmt a imm b0 : Nat) : FRes :=
  if fmt ≠ 0 then
    let F := veuFmt fmt
    let x := F.decode a
    let v := if op = veExps then expsArg F a imm b0 else x
    let invalid := op == veExps && !(x.isNan || (Fmt.fp32.decode imm).isNan || (F.decode b0).isNan)
    veuTable16 F op (Config.veuUnstated op (a + 65536 * fmt) (if op = veExps then imm + 2 ^ 32 * b0 else 0))
      (Config.veuUnstated (op + 32) (a + 65536 * fmt) (imm + 2 ^ 32 * b0) % 2 == 1) (Config.veuUnstated op a 0) v invalid
  else
    let free := Config.veuTable op fmt a (if op = veExps then imm + 2 ^ 32 * b0 else 0)
    if op = veExp2 then exp2Res 1 free (Fmt.fp32.decode a)
    else if op = veLog2 then log2Res free (Fmt.fp32.decode a)
    else if op = veRcp then rcpRes free (Fmt.fp32.decode a)
    else if op = veRsq then rsqRes free (Config.veuUnstated op a 0) (Fmt.fp32.decode a)
    else
      let v := expsArg Fmt.fp32 a imm b0
      let nans := (Fmt.fp32.decode a).isNan || (Fmt.fp32.decode imm).isNan || (Fmt.fp32.decode b0).isNan
      if v.isNan then Fmt.fp32.nanRes (!nans) else exp2Res 2 free v

/-- The index of the extreme value of a row, the lowest one among equals; a NaN never wins (R74, R147). -/
def rowExtreme (F : Fmt) (maxi : Bool) (l : List Nat) : Option (Nat × Nat) :=
  (l.mapIdx (fun i c => (i, c))).foldl (fun (best : Option (Nat × Nat)) x =>
    if (F.decode x.2).isNan then best
    else match best with
      | none => some x
      | some y =>
        if (if maxi then (F.decode y.2).below (F.decode x.2) else (F.decode x.2).below (F.decode y.2)) then some x else some y) none

/-- One level of the pairwise tree: neighbours added in FP32 (R74). -/
def pairLevel : List Nat → List Nat × Nat
  | a :: b :: r =>
    let x := Fmt.fp32.addV (Fmt.fp32.decode a) (Fmt.fp32.decode b)
    let y := pairLevel r
    (x.code :: y.1, x.veuFlags ||| y.2)
  | [a] => ([a], 0)
  | [] => ([], 0)

/-- The pairwise tree over `n` levels (R74). -/
def pairTree : Nat → List Nat → Nat × Nat
  | 0, l => (l.headD 0, 0)
  | n + 1, l =>
    let x := pairLevel l
    let y := pairTree n x.1
    (y.1, x.2 ||| y.2)

/-- The FP32 code of an element. -/
def widen (F : Fmt) (c : Nat) : Nat := (Fmt.fp32.ofV false (F.decode c)).code

/-- Whether the conversion of a magnitude, already divided by the block's scale, overflows its target (R94, R96). -/
def quantBeyond (fmt : Nat) (neg : Bool) (m : Nat) (e : Int) : Bool :=
  match fmt with
  | 0 => decide (0x7E < Fmt.b8e4.magCode (roundMag 4 Fmt.b8e4.emin m e false))
  | 1 => decide (0x7B < Fmt.b8e5.magCode (roundMag 3 Fmt.b8e5.emin m e false))
  | 2 => decide (0x7 < Fmt.b4e2.magCode (roundMag 2 Fmt.b4e2.emin m e false))
  | 3 => let k := roundInt neg m (e + 6); decide (k < -128) || decide (127 < k)
  | _ => let k := roundInt neg m (e + 2); decide (k < -8) || decide (7 < k)

/-- The flags of quantising a block: a conversion that overflows, and one that is not exact. DESIGN CHOICE (log entry 128): an overflow to a NaN
code sets no `invalid`, a subnormal code no `underflow`, and a block without a finite scale nothing. -/
def quantFlags (fmt : Nat) (xs : List Fv) (q : Nat × List Nat) : Nat :=
  if q.1 = 0xFF then 0
  else
    let X : Int := (q.1 : Int) - 127
    let beyond := xs.any (fun v => match v with | .fin n m e => m != 0 && quantBeyond fmt n m (e - X) | _ => false)
    let inexact := (xs.zip q.2).any (fun p =>
      match p.1, elemValue fmt true p.2 with
      | .fin n m e, .fin n' m' e' => !(((Fv.fin n m e).dy.add (Fv.fin n' m' (e' + X)).dy.neg).m == 0)
      | _, _ => true)
    4 * beyond.toNat + 16 * inexact.toNat

/-- The result registers of an operation that is no load or store: writes of (register, row), and the flags raised. DESIGN CHOICE
(log entry 109), where R74 gives no layout: VRMAXI and VRMINI write the index as an integer into element 1; VRSUM and VRSSQ on a 16-bit
format narrow the FP32 sum of the tree, and VBCAST its immediate, to nearest even; VCVT takes and gives the low 256 elements of the
16-bit register and keeps its others; VQNT packs its codes from byte 0 of vd and its scales from byte 0 of vc, and keeps the bytes behind
them; the bytes that both claim where vd is vc are open (log entry 12). DESIGN CHOICE (log entry 128): VSEL copies the bits of the element that
it selects, a NaN's too; VSEL, VMAX and VMIN, a widening VCVT and a narrowed VBCAST raise no flag. -/
def veuResult (op : Nat) (f : VeuFields) (v : SMap Row) : List (Nat × Row) × Nat :=
  let fmt := f.fmt.toNat
  let F := veuFmt fmt
  let w := veuW fmt
  let n := veuN fmt
  let R (i : BitVec 4) : Row := SMap.get v 0 i.toNat
  let A := Row.elems (R f.va) w n
  let B := Row.elems (R f.vb) w n
  let C := Row.elems (R f.vc) w n
  let D := Row.elems (R f.vd) w n
  let d := f.vd.toNat
  let imm := f.imm.toNat
  let full (l : List FRes) : List (Nat × Row) × Nat := let r := joinRes l; ([(d, packRow w r.1)], r.2)
  let two (g : Nat → Nat → FRes) := full ((A.zip B).map (fun p => g p.1 p.2))
  let low (l : List Nat) : Row := packRow w (l ++ D.drop l.length)
  if op = veAdd then two (fun a b => F.addV (F.decode a) (F.decode b))
  else if op = veMul then two (fun a b => F.mulV (F.decode a) (F.decode b))
  else if op = veFma then
    full (((A.zip B).zip C).map (fun p => F.fmaV (F.decode p.1.1) (F.decode p.1.2) (F.decode p.2)))
  else if op = veCmp then
    two (fun a b => plainRes (if veuCmp F f.mode.toNat a b then F.bias * 2 ^ F.mb else 0))
  else if op = veSel then
    full (((A.zip B).zip C).map (fun p => plainRes (if (F.decode p.2).isZero then p.1.2 else p.1.1)))
  else if op = veMax ∨ op = veMin then two (fun a b => veuMaxMin F op a b)
  else if op = veExp2 ∨ op = veLog2 ∨ op = veRcp ∨ op = veRsq ∨ op = veExps then
    full (A.map (fun a => veuTableOp op fmt a imm (B.headD 0)))
  else if op = veRmaxi ∨ op = veRmini then
    match rowExtreme F (op == veRmaxi) A with
    | some x => ([(d, low [x.2, x.1])], 0)
    | none => ([(d, low [F.openCode (Config.veuUnstated op fmt 0), Config.veuUnstated op fmt 1 % 2 ^ (8 * w)])], 0)
  else if op = veRsum then
    let r := pairTree 9 (A.map (widen F))
    let c := F.ofV false (Fmt.fp32.decode r.1)
    ([(d, low [c.code])], r.2 ||| c.veuFlags)
  else if op = veRssq then
    let sq := joinRes (A.map (fun a => Fmt.fp32.mulV (F.decode a) (F.decode a)))
    let r := pairTree 9 sq.1
    let c := F.ofV false (Fmt.fp32.decode r.1)
    ([(d, low [c.code])], sq.2 ||| r.2 ||| c.veuFlags)
  else if op = veCvt then
    if f.mode = 0 then
      let r := joinRes ((Row.elems (R f.va) 4 256).map (fun a => F.ofV false (Fmt.fp32.decode a)))
      ([(d, low r.1)], r.2)
    else ([(d, packRow 4 ((A.take 256).map (widen F)))], 0)
  else if op = veQnt then
    let blk := if f.mode = 0 then 32 else 16
    let X := (Row.elems (R f.va) 4 256).map (fun a => Fmt.fp32.decode a)
    let qs := (List.range (256 / blk)).map (fun b =>
      let xs := (X.drop (b * blk)).take blk
      (xs, quantBlock fmt (f.imm.getLsbD 0) xs))
    let codes := qs.flatMap (fun q => q.2.2)
    let scales := qs.map (fun q => q.2.1)
    let nib := fmt = 2 ∨ fmt = 4
    let data := codes.foldr (fun c acc => c + (if nib then 16 else 256) * acc) 0
    let len := if nib then 128 else 256
    let row := patchBytes8192 (R f.vd).toNat len data
    (if f.vd = f.vc then [(d, BitVec.ofNat 8192 (patchBytes8192 row scales.length (Config.veuUnstated op data (packRow 1 scales).toNat)))]
     else [(d, BitVec.ofNat 8192 row),
       (f.vc.toNat, BitVec.ofNat 8192 (patchBytes8192 (R f.vc).toNat scales.length (packRow 1 scales).toNat))],
     qs.foldl (fun a q => a ||| quantFlags fmt q.1 q.2) 0)
  else if op = veDqnt then
    let blk := if f.mode = 0 then 32 else 16
    let nib := fmt == 2 || fmt == 4
    let r := joinRes ((List.range 256).map (fun i => expandElem fmt (Row.elem (R f.va) nib i) (Row.byte (R f.vb) (i / blk))))
    ([(d, packRow 4 r.1)], r.2)
  else
    let c := F.ofV false (Fmt.fp32.decode imm)
    ([(d, packRow w (List.replicate n c.code))], 0)
where
  /-- The low `n` bytes of a row replaced. -/
  patchBytes8192 (old n v : Nat) : Nat := v % 256 ^ n + old / 256 ^ n * 256 ^ n

/-- The check of a row that VST writes (R102, R103). DESIGN CHOICE (log entry 128): `VEU_FLAGS` has no bit for an Inf, so that one sets none. -/
def State.vstCheck (s : State) (t slot entry : Nat) (f : VeuFields) (r : Row) : State :=
  let fmt := f.fmt.toNat
  let vals := (Row.elems r (veuW fmt) (veuN fmt)).map (fun c => (veuFmt fmt).decode c)
  let z : SpecialFind := ⟨firstSpecial 0 vals, firstSpecial 1 vals, firstSpecial 2 vals⟩
  let s := if z.nan.isSome then s.setBit (Reg.VEU_FLAGS t) 0 true else s
  s.specialTrap t slot entry (s.bit (Reg.VEU_CTRL t) 0) (s.bit (Reg.VEU_CTRL t) 1) 6 z (fun i => s.numDetail t 3 entry 0xFF i 0xFFFF)

/-- One VEU operation issues in a slot (R74): its result is in the register file for every later operation. -/
def State.veuApply (s : State) (t op entry slot : Nat) (f : VeuFields) : State :=
  let x := s.tile t
  if op = veVld then
    let (r, _, s) := s.readRow t slot f.row.toNat
    let x := s.tile t
    s.setTile t { x with veu := { x.veu with v := SMap.set x.veu.v f.vd.toNat r } }
  else if op = veVst then
    let r := SMap.get x.veu.v 0 f.va.toNat
    (s.writeRow t slot f.row.toNat r).vstCheck t slot entry f r
  else
    let r := veuResult op f x.veu.v
    let s := s.setTile t { x with veu := { x.veu with v := r.1.foldl (fun (v : SMap Row) p => SMap.set v p.1 p.2) x.veu.v } }
    s.orReg (Reg.VEU_FLAGS t) (BitVec.ofNat 32 r.2)

/-- `VEU_STATUS` follows the issue of operations. -/
def State.veuStatus (s : State) (t : Nat) : State :=
  s.wr (Reg.VEU_STATUS t) (BitVec.ofNat 32 (decide (s.hs t < (s.tile t).veu.accept)).toNat)

end Sys2Proof.Machine
end

