-- ==== Sys2Proof/Machine/TileTime.lean ====
section
/-!
DEFINITION. Time in a tile: the issue of an MMA and of its repetitions (R63, R66 to R68), the events of a handshake, and the
advance of a tile to a handshake (R56, R129, R155). Commands of a tile come in the order of their handshakes (log entry 32).
-/
namespace Sys2Proof

/-- Store rows of the B panel (R63). -/
def MmaFields.bRows (f : MmaFields) : Nat := if f.fmtB = 5 then 2 * f.m else f.m

/-- Scale bytes of the B panel ÷ 32 (R63). -/
def MmaFields.bScales (f : MmaFields) : Nat :=
  if f.scale = 0 then 0 else if f.fmtB = 5 then 2 * f.hiScales else f.hiScales

/-- The next repetition of an MMA (R63). -/
def MmaFields.next (f : MmaFields) : MmaFields :=
  { f with
    bRow := f.bRow + BitVec.ofNat 13 f.bRows
    sb := f.sb + BitVec.ofNat 18 f.bScales
    cRow := f.cRow + BitVec.ofNat 13 (Machine.drainRows f.outFmt)
    accSet := !f.accSet }

/-- Whether every repetition of an MMA names rows and scales inside the store; another is a malformed itinerary (R28). -/
def MmaFields.inStore (f : MmaFields) (rep : Nat) : Bool :=
  let pa := if f.fmtA = 5 then 2 * f.m else f.m
  let sa := if f.fmtA = 5 then 2 * f.hiScales else f.hiScales
  decide (f.aRow.toNat + pa ≤ 8192) && decide (f.bRow.toNat + (rep + 1) * f.bRows ≤ 8192) &&
  (f.scale == 0 || (decide (f.sa.toNat + sa ≤ 2 ^ 18) && decide (f.sb.toNat + (rep + 1) * f.bScales ≤ 2 ^ 18))) &&
  (!f.drain || decide (f.cRow.toNat + (rep + 1) * Machine.drainRows f.outFmt ≤ 8192))

end Sys2Proof

namespace Sys2Proof.Machine

/-- The coming events of a drain with its D (R67). -/
def drainEvents (arr op D order entry : Nat) (f : DrainFields) : List TileEv :=
  ⟨D, order, entry, .capture arr op⟩ ::
  (List.range (drainRows f.outFmt)).map (fun j =>
    ⟨D + drainFirst f.outFmt + j, order, entry, .drainRow arr op j (f.cRow.toNat + j)⟩)

/-- The drain that an MMA with `drain` set starts. -/
def drainOf (f : MmaFields) : DrainFields := ⟨f.cRow, f.outFmt, f.accSet, f.sat, f.oblk⟩

/-- A repetition of an MMA issues at a handshake (R63, R66, R68): `left` repetitions follow it. -/
def State.mmaIssue (s : State) (t arr : Nat) (f : MmaFields) (left entry order I : Nat) : State :=
  let x := s.tile t
  let a := x.arr arr
  if I < a.accept then
    s.slotClash t 1 (match a.mmas.getLast? with | some o => o.entry | none => entry) entry I
  else match a.holder f.accSet (I + 73) with
    | some d => s.slotClash t 2 d.entry entry I
    | none =>
      let id := x.order
      let o : MmaOp := ⟨id, f, entry, I, [], [], [], [], 0, 0⟩
      let D := I + f.S + 72
      let drains := if f.drain then a.drains ++ [⟨id, drainOf f, entry, I, D, []⟩] else a.drains
      let x := { x with order := x.order + 1 }
      let x := x.setArr arr { a with mmas := a.mmas ++ [o], drains := drains, accept := I + f.S }
      let evs := (mmaReads arr id I f).map (fun e => (⟨e.1, order, entry, e.2⟩ : TileEv))
      let more := if left = 0 then [] else [(⟨I + f.S, order, entry, .arrIssue arr f.next (left - 1)⟩ : TileEv)]
      let dr := if f.drain then drainEvents arr id D order entry (drainOf f) else []
      (s.setTile t (x.addEvs (evs ++ [⟨D, order, entry, .arrDone arr id⟩] ++ more ++ dr))).arrStatus t arr

/-- Signals that reach a tile in one handshake as (semaphore, amount, source, issuer), summed for each semaphore before
they are applied (R155). -/
def sumSignals : List (Nat × Nat × Nat × Nat) → List (Nat × Nat × Nat × Nat)
  | [] => []
  | x :: r =>
    let rest := sumSignals r
    match rest.find? (fun y => y.1 == x.1) with
    | some y => (x.1, x.2.1 + y.2.1, x.2.2) :: rest.filter (fun y => y.1 != x.1)
    | none => x :: rest

/-- The signals of a handshake are applied (R155). -/
def State.applySignals (s : State) (t : Nat) (l : List (Nat × Nat × Nat × Nat)) : State :=
  (sumSignals l).foldl (fun s x => s.semSignal t x.1 x.2.1 x.2.2.1 x.2.2.2) s

/-- The signals that a list of events of one handshake makes. -/
def State.collectSignals (s : State) (t : Nat) : List TileEv → List (Nat × Nat × Nat × Nat) × State
  | [] => ([], s)
  | e :: r =>
    match e.act with
    | .semSignal k n src issuer => let z := s.collectSignals t r; ((k, n, src, issuer) :: z.1, z.2)
    | .seFilled c =>
      let y := s.seFilled t c
      let z := y.2.collectSignals t r
      ((match y.1 with | some q => [(q.1, q.2.1, q.2.2, 0xFFFF)] | none => []) ++ z.1, z.2)
    | _ => s.collectSignals t r

/-- What one event of a tile does in its handshake. -/
def State.performAct (s : State) (t : Nat) (e : TileEv) : State :=
  let s := if e.act.wide then
      let x := s.tile t
      s.setTile t { x with lastWide := some (e.slot, e.entry) }
    else s
  match e.act with
  | .arrIssue arr f left => s.mmaIssue t arr f left e.entry e.order e.slot
  | .arrRow arr op isB j row => s.arrRead t arr op isB j row e.slot
  | .arrScale arr op isB pass row => s.arrReadScale t arr op isB pass row e.slot
  | .arrDone arr op => s.arrDone t arr op
  | .capture arr op => s.drainCapture t arr op
  | .drainRow arr op j row => s.arrDrainRow t arr op j row e.slot
  | .mvuRow op i row => s.mvuRead t op i row e.slot
  | .mvuScale op row => s.mvuReadScale t op row e.slot
  | .mvuDot op i b => s.mvuDot t op i b e
  | .mvuAcc op first adds => s.mvuAcc t op first adds
  | .vrfRow op i => s.vrfRow t op i
  | .vrfScale op => s.vrfScale t op
  | .mdrainRow op j row => s.mvuDrainRow t op j row e.slot
  | .veu opcode f => s.veuApply t opcode e.entry e.slot f
  | .seSlot read mask => s.seSlot t e.slot read mask
  | .clash first => s.slotClash t 0 first e.entry e.slot
  | .semSignal .. | .seFilled .. => s
  | .semTake sem n issuer => s.semTake t sem n issuer
  | .trap code faultBit detail => s.trapRises t code faultBit detail

/-- The events of one handshake that are signals of the rank of the first. -/
def takeSignals (slot : Nat) : List TileEv → List TileEv × List TileEv
  | [] => ([], [])
  | e :: r => if e.slot = slot ∧ e.act.rank = 8 then (e :: (takeSignals slot r).1, (takeSignals slot r).2) else ([], e :: r)

/-- The events of a tile that fall due by a handshake take place in their order (`fuel` bounds their number). -/
def State.runEvents (t h : Nat) : Nat → State → State
  | 0, s => s
  | fuel + 1, s =>
    let x := s.tile t
    match x.evs with
    | [] => s
    | e :: r =>
      if h < e.slot then s
      else if e.act.rank = 8 then
        let p := takeSignals e.slot x.evs
        let z := (s.setTile t { x with evs := p.2 }).collectSignals t p.1
        State.runEvents t h fuel (z.2.applySignals t z.1)
      else State.runEvents t h fuel (((s.setTile t { x with evs := r }).landFlights t e.slot).performAct t e)

/-- More events than any handshake of any beat can hold. -/
def eventFuel : Nat := 2 ^ 40

/-- The busy bits of `TILE_STATUS` follow the units. DESIGN CHOICE (log entry 106): the tile core is busy while it runs (not while it
waits), the stream engine while requests are out or landing rows hold data; the spec does not say. -/
def State.tileBusy (s : State) (t : Nat) : State :=
  let x := s.tile t
  let b (a : ArrSt) : Bool := !a.mmas.isEmpty || !a.drains.isEmpty
  let se := !x.se.reqs.isEmpty || !x.se.landing.isEmpty
  s.setFld (Reg.TILE_STATUS t) 0 6 ((b x.arr0).toNat + 2 * (b x.arr1).toNat + 4 * (!x.mvu.ops.isEmpty).toNat +
    8 * (decide (s.hs t < x.veu.accept)).toNat + 16 * se.toNat + 32 * (s.fld (Reg.TC_STATUS t) 0 2 == 1).toNat)

/-- A tile advances to a handshake: everything that falls due by it has taken place. -/
def State.advanceTo (s : State) (t h : Nat) : State :=
  let s := if s.hs t < h then s.settleAborts t else s
  let s := State.runEvents t h eventFuel s
  let s := (((s.landFlights t h).mvuRetire t h).arrTick t h).setHs t h
  (s.veuStatus t).tileBusy t

end Sys2Proof.Machine
end

