-- ==== Sys2Proof/Machine/Sequencer.lean ====
section
/-!
DEFINITION. The sequencer: issue of an entry (R127, R129, R131, R134), checks of the program and itinerary memories (R135),
parking (R37, R130) and done (R133).
-/
namespace Sys2Proof.Machine

/-- The register of error counts of a program memory: 0 program store, 1 itinerary memory (R135). -/
def memEccReg (t mem : Nat) : Nat := if mem = 0 then Reg.TC_MEM_ECC t else Reg.SEQ_MEM_ECC t

/-- An upset word of a program memory is met (R135): 0 one data bit, 1 one check bit, both corrected and written back; 2
uncorrectable, which stays. `fatal` says whether a fetch of a running tile met it. -/
def State.meetProg (s : State) (t : Nat) (fatal : Bool) (u : Nat × Nat × Nat) : State :=
  let detail := toBytes t 1 ++ toBytes u.1 1 ++ toBytes u.2.1 2 ++ toBytes (if u.2.2 = 1 then 1 else 0) 1
  let a := memEccReg t u.1
  if u.2.2 < 2 then
    let x := s.tile t
    let s := s.setTile t { x with memUpsets := x.memUpsets.filter (fun v => !(v.1 == u.1 && v.2.1 == u.2.1 && decide (v.2.2 < 2))) }
    (s.setFld a 0 16 (s.fld a 0 16 + 1)).logTile t 0x010A sevCorrected detail
  else
    let s := s.setFld a 16 16 (s.fld a 16 16 + 1)
    let s := if fatal then s.setBit (Reg.TILE_FAULT t) 1 true else s
    s.logTile t 0x0107 (if fatal then sevPartition else sevContained) detail

/-- A fetch of words of a program memory: whether one is uncorrectable, and the state (R135). -/
def State.fetchCheck (s : State) (t mem lo n : Nat) : Bool × State :=
  let us := (s.tile t).memUpsets.filter (fun u => u.1 == mem && decide (lo ≤ u.2.1) && decide (u.2.1 < lo + n))
  (us.any (fun u => decide (2 ≤ u.2.2)), us.foldl (fun s u => s.meetProg t (s.tileIn t psRunning) u) s)

/-- Whether the sequencer can issue its next entry. -/
def State.seqReady (s : State) (t : Nat) : Bool :=
  let x := s.tile t
  decide (t < 128) && s.bit (Reg.SEQ_STATUS t) 16 && !(s.bit (Reg.SEQ_STATUS t) 18) && !x.stopped && x.gate.isNone &&
    x.overrunAt.isNone

/-- Whether an index is that of the last entry of the running variant (R131, R134). -/
def State.lastEntry (s : State) (t k : Nat) : Bool :=
  let v := s.rd (Reg.SEQ_VAR t (s.variant t))
  (k + 4096 - v.field 0 12) % 4096 == v.field 16 12

/-- The sequencer moves on from an entry (R129); past the variant's last one an overrun falls due (R134). -/
def State.seqNext (s : State) (t k next : Nat) : State :=
  let over' := s.lastEntry t k
  let x := s.tile t
  s.setTile t { x with nextHs := next, nextK := (k + 1) % 4096, overrunAt := if over' then some next else none }

/-- A tile is no longer parked. -/
def State.unpark (s : State) (t : Nat) : State := s.setBit (Reg.SEQ_BEAT_STATUS t) 2 false

/-- The next entry issues (R129): its issue handshake is the first one free for it, its index the sequencer's; an
uncorrectable entry is not executed and ends the issue (R135). `hold` is how long the sequencer stays with the entry, and
`body` what the entry does, given I, its index and its place in the order of issue. -/
def State.issueEntry (s : State) (t hold : Nat) (body : State → Nat → Nat → Nat → State) : State :=
  if s.seqReady t then
    let x := s.tile t
    let I := max x.nextHs (s.hs t)
    let k := x.nextK
    let s := s.advanceTo t I
    let (bad, s) := s.fetchCheck t 1 (2 * k) 2
    if bad then s.stopSeq t
    else
      let s := s.setFld (Reg.SEQ_STATUS t) 0 12 k
      let x := s.tile t
      let order := x.order
      let s := s.setTile t { x with order := order + 1 }
      let s := (s.seqNext t k (I + hold))
      (body s I k order).advanceTo t I
  else s

/-- A coming event is entered for a tile. -/
def State.addEv (s : State) (t : Nat) (e : TileEv) : State := s.setTile t ((s.tile t).addEv e)

/-- Coming events are entered for a tile. -/
def State.addEvs (s : State) (t : Nat) (l : List TileEv) : State := s.setTile t ((s.tile t).addEvs l)

/-! Parking and done. -/

/-- Whether anything of a tile's work is still to come, beside stream contexts (R130): claimed slots, operations, local
semaphore operations and writes. -/
def State.tileBusyWork (s : State) (t : Nat) : Bool :=
  let x := s.tile t
  !x.evs.isEmpty || !x.arr0.mmas.isEmpty || !x.arr0.drains.isEmpty || !x.arr1.mmas.isEmpty || !x.arr1.drains.isEmpty ||
  !x.mvu.ops.isEmpty || decide (s.hs t < x.veu.accept) || !x.flights.isEmpty

/-- Whether the TC has halted: state 0, or 3 after WAITP (R133). -/
def State.tcHalted (s : State) (t : Nat) : Bool :=
  let st := s.fld (Reg.TC_STATUS t) 0 2
  st == 0 || st == 3

/-- Whether the TC makes no transition: it is halted, waits, or has stopped issuing (R130). -/
def State.tcQuiet (s : State) (t : Nat) : Bool := s.tcHalted t || s.fld (Reg.TC_STATUS t) 0 2 == 2

/-- Whether a tile has a remote signal of its program that is not yet acknowledged (R163). -/
def Tile.remoteWaits (x : Tile) : Bool := x.remoteOut.any (fun r => !r.2.2)

/-- The handshake by which every claimed slot that a tile knows of has been served, every operation is over and every write on its way is in
the store. -/
def Tile.workEnd (x : Tile) (h : Nat) : Nat :=
  let e := x.evs.foldl (fun m v => max m v.slot) h
  let e := x.mvu.ops.foldl (fun m o => max m o.done) e
  x.flights.foldl (fun m f => max m (f.slot + f.lat)) (max e x.veu.accept)

/-- A tile is run to the end of the work that it holds (R130): `n` bounds the rounds, since an event may bring another. -/
def State.settle (t : Nat) : Nat → State → State
  | 0, s => s
  | n + 1, s =>
    if s.tileBusyWork t then State.settle t n (s.advanceTo t ((s.tile t).workEnd (s.hs t))) else s

end Sys2Proof.Machine
end

