-- ==== Sys2Proof/Machine/ArrayEntries.lean ====
section
/-!
DEFINITION. The meanings of the array entries MMA, DRAIN and CLEAR (R62, R63, R66 to R68) and of the events of the arrays.
-/
namespace Sys2Proof.Machine

/-- The answer of an entry whose result is unpredictable within the partition. -/
def badEntry (rule : Nat) : Host.Outcome State Fault Refusal := .fault (.unpredictableInPartition rule)

/-- MMA (R62, R63, R66). -/
def execMma (tile : Nat) (arr : BitVec 1) (rep : BitVec 10) (f : MmaFields) (s : State) : Host.Outcome State Fault Refusal :=
  if f.legal && f.inStore rep.toNat then
    .next (s.issueEntry tile 1 (fun s I k order => s.mmaIssue tile arr.toNat f rep.toNat k order I))
  else badEntry 62

/-- What a DRAIN does at its issue (R67, R68): D is the later of the issue and the completion of every MMA issued into the
set before. -/
def State.drainIssue (s : State) (t arr : Nat) (f : DrainFields) (I entry order : Nat) : State :=
  let x := s.tile t
  let a := x.arr arr
  match a.holder f.accSet I with
  | some d => s.slotClash t 2 d.entry entry I
  | none =>
    let D := a.mmas.foldl (fun d o => if o.f.accSet = f.accSet then max d (o.issue + o.f.S + 72) else d) I
    let id := x.order
    let x := { x with order := x.order + 1 }
    let x := x.setArr arr { a with drains := a.drains ++ [⟨id, f, entry, I, D, []⟩] }
    (s.setTile t (x.addEvs (drainEvents arr id D order entry f))).arrStatus t arr

/-- DRAIN (R67). -/
def execDrain (tile : Nat) (arr : BitVec 1) (f : DrainFields) (s : State) : Host.Outcome State Fault Refusal :=
  if f.outFmt != 5 && f.outFmt != 6 && decide (f.cRow.toNat + drainRows f.outFmt ≤ 8192) then
    .next (s.issueEntry tile 1 (fun s I k order => s.drainIssue tile arr.toNat f I k order))
  else badEntry 62

/-- What a CLEAR does at its issue (R68). -/
def State.clearIssue (s : State) (t arr : Nat) (set : Bool) (I entry : Nat) : State :=
  let x := s.tile t
  let a := x.arr arr
  match a.holder set I with
  | some d => s.slotClash t 2 d.entry entry I
  | none =>
    match a.mmas.find? (fun o => o.f.accSet == set) with
    | some o => s.slotClash t 2 o.entry entry I
    | none => s.setTile t (x.setArr arr (a.setAcc set [] false false))

/-- CLEAR (R62, R68). -/
def execClear (tile : Nat) (arr : BitVec 1) (accSet : Bool) (s : State) : Host.Outcome State Fault Refusal :=
  .next (s.issueEntry tile 1 (fun s I k _ => s.clearIssue tile arr.toNat accSet I k))

/-- The handshake of the first coming event of a tile that a test picks. -/
def Tile.firstEvent (x : Tile) (p : TileAct → Bool) : Option Nat :=
  match x.evs.find? (fun e => p e.act) with
  | some e => some e.slot
  | none => none

/-- The tile advances to its first coming event of a kind; without one, nothing happens. -/
def State.runTo (s : State) (t : Nat) (p : TileAct → Bool) : State :=
  match (s.tile t).firstEvent p with
  | some h => s.advanceTo t (max h (s.hs t))
  | none => s

/-- MMA_COMPLETE (R66): the oldest MMA of the array completes. -/
def execMmaComplete (tile : Nat) (arr : BitVec 1) (s : State) : Host.Outcome State Fault Refusal :=
  .next (s.runTo tile (fun a => match a with | .arrDone n _ => n == arr.toNat | _ => false))

/-- DRAIN_CAPTURE (R67): the earliest drain of the array reaches D. -/
def execDrainCapture (tile : Nat) (arr : BitVec 1) (s : State) : Host.Outcome State Fault Refusal :=
  .next (s.runTo tile (fun a => match a with | .capture n _ => n == arr.toNat | _ => false))

end Sys2Proof.Machine
end

