-- ==== Sys2Proof/Machine/Rs.lean ====
section
/-!
DEFINITION. The line code of a lane: the Reed-Solomon code RS(272,258) over GF(2^10) (R237), the scrambler (R238), the symbol
map (R239) and stuffing (R240, R241), and the checksums of training sets and flits (R244, R249).
-/
namespace Sys2Proof.Machine

/-! The field GF(2^10) with x^10 + x^3 + 1 (R237). -/

/-- The product of two elements. -/
def gfMul (a b : Nat) : Nat :=
  (List.range 10).foldl (fun acc i =>
    let x := 2 * acc
    let x := if 1024 ≤ x then x ^^^ 0x409 else x
    if b.testBit (9 - i) then x ^^^ a else x) 0

/-- A power of an element. -/
def gfPow (a : Nat) : Nat → Nat
  | 0 => 1
  | n + 1 => gfMul a (gfPow a n)

/-- The inverse of an element other than 0: its 1,022nd power, by squaring. -/
def gfInv (a : Nat) : Nat :=
  (List.range 9).foldl (fun (p : Nat × Nat) _ =>
    let sq := gfMul p.2 p.2
    (gfMul p.1 sq, sq)) (1, a) |>.1

/-- The first `n` powers of an element. -/
def gfPowers (a : Nat) : Nat → Nat → List Nat
  | _, 0 => []
  | x, n + 1 => x :: gfPowers a (gfMul x a) n

/-- The value of a polynomial, highest coefficient first. -/
def gfEval (p : List Nat) (x : Nat) : Nat := p.foldl (fun acc c => gfMul acc x ^^^ c) 0

/-- The generator polynomial (x − α^0) … (x − α^13), highest coefficient first. -/
def rsGen : List Nat :=
  (List.range 14).foldl (fun g i =>
    let r := gfPow 2 i
    List.zipWith (fun a b => a ^^^ b) (g ++ [0]) (0 :: g.map (gfMul r))) [1]

/-- The 14 parity symbols of 258 data symbols: the remainder of x^14 × m(x) divided by g(x). -/
def rsParity (data : List Nat) : List Nat :=
  let g := rsGen.drop 1
  data.foldl (fun r d =>
    let fb := d ^^^ r.headD 0
    List.zipWith (fun a b => a ^^^ b) (r.drop 1 ++ [0]) (g.map (gfMul fb))) (List.replicate 14 0)

/-- A codeword: its data symbols followed by their parity. -/
def rsEncode (data : List Nat) : List Nat := data ++ rsParity data

/-- The 14 syndromes of a received word. -/
def rsSyndromes (w : List Nat) : List Nat := (gfPowers 2 1 14).map (gfEval w)

/-- Sum of two polynomials, lowest coefficient first. -/
def gfAdd : List Nat → List Nat → List Nat
  | [], b => b
  | a, [] => a
  | x :: a, y :: b => (x ^^^ y) :: gfAdd a b

/-- What the search for the error locator holds: the locator, the one before the last change of length, the length, the
distance, and the last discrepancy. -/
structure BmState where
  c : List Nat
  b : List Nat
  len : Nat
  m : Nat
  d : Nat

/-- One step of the search for the error locator (Berlekamp and Massey). -/
def bmStep (s : List Nat) (st : BmState) (n : Nat) : BmState :=
  let d := (List.range (st.len + 1)).foldl (fun acc i =>
    if i ≤ n then acc ^^^ gfMul (st.c.getD i 0) (s.getD (n - i) 0) else acc) 0
  if d = 0 then { st with m := st.m + 1 }
  else
    let f := gfMul d (gfInv st.d)
    let c := gfAdd st.c (List.replicate st.m 0 ++ st.b.map (gfMul f))
    if 2 * st.len ≤ n then ⟨c, st.c, n + 1 - st.len, 1, d⟩ else { st with c := c, m := st.m + 1 }

/-- The error locator of a set of syndromes, lowest coefficient first. -/
def rsLocator (s : List Nat) : List Nat × Nat :=
  let st := (List.range 14).foldl (bmStep s) ⟨[1], [1], 0, 1, 1⟩
  (st.c, st.len)

/-- The value of a polynomial, lowest coefficient first. -/
def gfEvalLow (p : List Nat) (x : Nat) : Nat := gfEval p.reverse x

/-- The error value at a position whose locator is `x` (Forney). -/
def rsValue (s c : List Nat) (x : Nat) : Nat :=
  let y := gfInv x
  let om := (List.range 14).map (fun n => (List.range (n + 1)).foldl (fun acc i =>
    acc ^^^ gfMul (c.getD i 0) (s.getD (n - i) 0)) 0)
  let dv := (List.range (c.length - 1)).map (fun i => if i % 2 = 0 then c.getD (i + 1) 0 else 0)
  gfMul x (gfMul (gfEvalLow om y) (gfInv (gfEvalLow dv y)))

/-- The decoder of a received word of 272 symbols: the corrected word and the number of symbols corrected, at most 7; none
where it cannot correct. -/
def rsDecode (w : List Nat) : Option (List Nat × Nat) :=
  let s := rsSyndromes w
  if s.all (· == 0) then some (w, 0)
  else
    let (c, n) := rsLocator s
    if 7 < n then none
    else
      let xs := gfPowers 2 1 272
      let at_ := (List.range 272).filter (fun i => gfEvalLow c (gfInv (xs.getD i 1)) == 0)
      if at_.length ≠ n then none
      else
        let fixed := at_.foldl (fun (w : List Nat) i => w.set (271 - i) (w.getD (271 - i) 0 ^^^ rsValue s c (xs.getD i 1))) w
        if (rsSyndromes fixed).all (· == 0) then some (fixed, n) else none

/-! Bits, symbols and stuffing. -/

/-- The bits of bytes, each byte most significant bit first (R236). -/
def bitsOfBytes (bs : List Byte) : List Bool := bs.flatMap (fun b => (List.range 8).map (fun i => b.getLsbD (7 - i)))

/-- The low `n` bits of a number, the highest first. -/
def bitsOf (v n : Nat) : List Bool := (List.range n).map (fun i => v.testBit (n - 1 - i))

/-- The number that bits spell, the highest first. -/
def ofBits (l : List Bool) : Nat := l.foldl (fun a b => 2 * a + b.toNat) 0

/-- A list cut into pieces of `k`, at most `n` of them. -/
def chunks {α : Type} (k : Nat) : Nat → List α → List (List α)
  | 0, _ => []
  | n + 1, l => l.take k :: chunks k n (l.drop k)

/-- The scrambled bits of a frame, from a scrambler state (R238). -/
def scrambleFrom : Nat → List Bool → List Bool
  | _, [] => []
  | s, b :: r =>
    let g := Bool.xor (s.testBit 30) (s.testBit 27)
    Bool.xor b g :: scrambleFrom ((2 * s + g.toNat) % 2 ^ 31) r

/-- The scrambler, which also descrambles (R238). -/
def scramble (l : List Bool) : List Bool := scrambleFrom 0x7FFFFFFF l

/-- Levels of a bit sequence (R239): 0 for −3 to 3 for +3; NRZ uses 0 and 3. -/
def toLevels (nrz : Bool) : List Bool → List (BitVec 2)
  | [] => []
  | [b] => if nrz then [if b then 3 else 0] else [if b then 3 else 0]
  | a :: b :: r =>
    if nrz then (if a then 3 else 0) :: toLevels nrz (b :: r)
    else (match a, b with | false, false => 0 | false, true => 1 | true, true => 2 | true, false => 3) :: toLevels nrz r

/-- Bits of levels (R239). -/
def ofLevels (nrz : Bool) (l : List (BitVec 2)) : List Bool :=
  l.flatMap (fun x =>
    let v := x.toNat
    if nrz then [decide (2 ≤ v)]
    else if v = 0 then [false, false] else if v = 1 then [false, true] else if v = 2 then [true, true] else [true, false])

/-- The comma (R241). -/
def comma : List (BitVec 2) := List.replicate 20 3 ++ List.replicate 12 0

/-- Stuffing after a run of a level and length (R240). -/
def stuffFrom : BitVec 2 → Nat → List (BitVec 2) → List (BitVec 2)
  | _, _, [] => []
  | lv, n, x :: r =>
    let n' := if x = lv then n + 1 else 1
    if n' = 16 then
      let f : BitVec 2 := if 2 ≤ x.toNat then 0 else 3
      x :: f :: stuffFrom f 1 r
    else x :: stuffFrom x n' r

/-- The stuffed symbols of a frame: the run starts with the comma's 12 trailing −3 symbols (R240). -/
def stuff (l : List (BitVec 2)) : List (BitVec 2) := stuffFrom 0 12 l

/-- Whether symbols after 16 of +3 complete a comma of 20 +3 and 12 −3 (R241), and if so how many of the 16 are data before it: a data run of +3 is
at most 16 long. -/
def commaAfter (l : List (BitVec 2)) : Option Nat :=
  let r := (l.takeWhile (fun x => x == 3)).length
  if 4 ≤ r ∧ r ≤ 20 ∧ (l.drop r).take 12 = List.replicate 12 0 then some (r - 4) else none

/-- The receiver's removal of stuff symbols (R240): after 16 identical symbols the next one goes, whatever its value; a 17th +3 that proves to be of a
comma ends the frame before the comma. `out` holds the symbols so far, the newest first. -/
def unstuffFrom (lv : BitVec 2) (n : Nat) (out : List (BitVec 2)) : List (BitVec 2) → List (BitVec 2)
  | [] => out.reverse
  | x :: r =>
    if n = 16 then
      match (if x = lv ∧ lv = 3 then commaAfter (x :: r) else none) with
      | some k => (out.drop (16 - k)).reverse
      | none => unstuffFrom x 1 out r
    else unstuffFrom x (if x = lv then n + 1 else 1) (x :: out) r

/-- The symbols of a frame without the stuff symbols. -/
def unstuff (l : List (BitVec 2)) : List (BitVec 2) := unstuffFrom 0 12 [] l

/-- Inverted polarity: every level is negated. -/
def invertLevels (on : Bool) (l : List (BitVec 2)) : List (BitVec 2) := if on then l.map (fun x => 3 - x) else l

/-! Frames and checksums. -/

/-- The symbols of a frame that carries a payload of 5,160 B, comma first (R235). -/
def frameSymbols (nrz : Bool) (payload : List Byte) : List (BitVec 2) :=
  let words := (chunks 258 16 ((chunks 10 4128 (bitsOfBytes payload)).map ofBits)).map rsEncode
  comma ++ stuff (toLevels nrz (scramble (words.flatMap (fun w => w.flatMap (fun x => bitsOf x 10)))))

/-- The data bits of each codeword of a received frame, with the symbols corrected; none where it is uncorrectable, or where the frame broke off
before its end (log entry 124). -/
def frameWords (nrz : Bool) (l : List (BitVec 2)) : List (Option (List Bool) × Nat) :=
  (chunks 2720 16 (scramble (ofLevels nrz (unstuff l)))).map (fun bits =>
    if bits.length < 2720 then (none, 0)
    else match rsDecode ((chunks 10 272 bits).map ofBits) with
    | some (w, n) => (some ((w.take 258).flatMap (fun x => bitsOf x 10)), n)
    | none => (none, 0))

/-- The bytes of a run of payload bits; none where an uncorrectable codeword overlaps it (R242). -/
def payloadBytes (ws : List (Option (List Bool) × Nat)) (byte n : Nat) : Option (List Byte) :=
  let lo := 8 * byte / 2580
  let hi := (8 * (byte + n) - 1) / 2580
  let part := (ws.drop lo).take (hi + 1 - lo)
  if part.any (fun w => w.1.isNone) then none
  else
    let bits := ((part.flatMap (fun w => w.1.getD [])).drop (8 * byte - 2580 * lo)).take (8 * n)
    some ((chunks 8 n bits).map (fun b => BitVec.ofNat 8 (ofBits b)))

/-- CRC-16 of a training ordered set (R244): x^16 + x^12 + x^5 + 1, initial value 0xFFFF, most significant bit first. -/
def crc16 (bs : List Byte) : Nat :=
  (bitsOfBytes bs).foldl (fun c b =>
    let x := 2 * c % 65536
    if Bool.xor (c.testBit 15) b then x ^^^ 0x1021 else x) 0xFFFF

/-- CRC-32 of IEEE 802.3 with a final complement (R249). -/
def crc32 (bs : List Byte) : Nat :=
  (bs.foldl (fun c b =>
    (List.range 8).foldl (fun c _ => if c.testBit 0 then (c / 2) ^^^ 0xEDB88320 else c / 2) (c ^^^ b.toNat)) 0xFFFFFFFF) ^^^ 0xFFFFFFFF

end Sys2Proof.Machine
end

