-- ==== Sys2Proof/Machine/LinkPort.lean ====
section
/-!
DEFINITION. Ports (R249 to R255, R265 to R267): flits, what a port sends, acceptance, acknowledgement and credit, the epoch
check and the self-fence.
-/
namespace Sys2Proof.Machine

/-- A lane's record. -/
def State.lane (s : State) (n : Nat) : Lane := SMap.get s.lanes Lane.reset n

/-- The state with a lane's record replaced. -/
def State.setLane (s : State) (n : Nat) (x : Lane) : State := { s with lanes := SMap.set s.lanes n x }

/-- A port's record. -/
def State.port (s : State) (p : Nat) : PortSt := SMap.get s.ports PortSt.reset p

/-- The state with a port's record replaced. -/
def State.setPort (s : State) (p : Nat) (x : PortSt) : State := { s with ports := SMap.set s.ports p x }

/-- A channel's record. -/
def State.chan (s : State) (c : Nat) : Chan := SMap.get s.chans Chan.reset c

/-- The state with a channel's record replaced. -/
def State.setChan (s : State) (c : Nat) (x : Chan) : State := { s with chans := SMap.set s.chans c x }

/-- A lane's state: 0 OFF, 1 SEEK, 2 TRAIN, 3 READY, 4 UP, 5 QUIET (R243). -/
def State.laneState (s : State) (n : Nat) : Nat := s.fld (Reg.TPL_LANE_STATUS n) 0 3

/-- The state with a lane's state replaced. -/
def State.setLaneState (s : State) (n v : Nat) : State := s.setFld (Reg.TPL_LANE_STATUS n) 0 3 v

/-- Whether a port's flit layer runs. -/
def State.portIsUp (s : State) (p : Nat) : Bool := s.bit (Reg.TPL_PORT_STATUS p) 0

/-- The lanes that a port bonds (R255). -/
def State.portWidth (s : State) (p : Nat) : Nat := 2 ^ s.fld (Reg.TPL_PORT_CTRL p) 1 2

/-- The lanes of a port, in order. -/
def State.portLanes (s : State) (p : Nat) : List Nat := (List.range (s.portWidth p)).map (fun i => p + i)

/-- The port that a lane belongs to, if one is formed. -/
def State.lanePort (s : State) (n : Nat) : Option Nat :=
  (List.range (n + 1)).find? (fun p => s.bit (Reg.TPL_PORT_CTRL p) 0 && decide (n < p + s.portWidth p))

/-- The partition that owns a lane (R234). -/
def laneOwnerIn : SMap Part → Nat → Option Nat
  | [], _ => none
  | (p, x) :: r, n => if x.lanes.getLsbD n then some p else laneOwnerIn r n

/-- The partition that owns a lane (R234). -/
def State.laneOwner (s : State) (n : Nat) : Option Nat := laneOwnerIn s.parts n

/-- Whether the device is self-fenced (R267). -/
def State.fenced (s : State) : Bool := s.bit Reg.TPL_FENCE 0

/-- Whether an enabled time pin shows Route time: low while the device is fenced, its time does not run, or a reset pin is low (R329, R375, R377). -/
def State.pinOn (s : State) (enabled : Bool) : Bool := enabled && !s.fenced && s.timeRuns && !s.boot.sysRst && !s.boot.por

/-- An event of a port: unit class 3 with its first lane (R254). -/
def State.logPort (s : State) (p code sev : Nat) (detail : List Byte) : State := s.logRec 3 p code sev (s.laneOwner p) detail

/-- An event of a port whose detail the spec does not lay out, logged once per port and beat. -/
def State.logPortOnce (s : State) (p code sev : Nat) : State :=
  let x := s.port p
  if x.logged.contains code then s
  else ((s.setPort p { x with logged := x.logged ++ [code] }).logPort p code sev (s.openDetail code)).stepFree

/-! Flits. -/

/-- The types of R250. -/
def ftIdle : Nat := 0
def ftLctl : Nat := 1
def ftData : Nat := 2
def ftHdata : Nat := 3
def ftEdata : Nat := 4
def ftTime : Nat := 5

/-- The header of a flit as a number (R249). -/
def flitHeader (type : Nat) (h : FlitHdr) : Nat :=
  type + h.vc.toNat * 2 ^ 4 + h.seq.toNat * 2 ^ 8 + h.ack.toNat * 2 ^ 20 + h.epoch.toNat * 2 ^ 32 + h.crvc.toNat * 2 ^ 48 +
    h.crn.toNat * 2 ^ 52

/-- A body filled up to 116 B. -/
def padBody (b : List Byte) : List Byte := (b ++ List.replicate 116 0).take 116

/-- The 124 bytes of a flit under its CRC. -/
def flitFront (type : Nat) (h : FlitHdr) (body : List Byte) : List Byte := toBytes (flitHeader type h) 8 ++ padBody body

/-- The 128 bytes of a flit. -/
def flitBytes (type : Nat) (h : FlitHdr) (body : List Byte) : List Byte :=
  let f := flitFront type h body
  f ++ toBytes (crc32 f) 4

/-- The body of a channel flit (R258). -/
def chanBytes (b : ChanBody) : List Byte :=
  toBytes (b.chan.toNat + b.marker.toNat * 2 ^ 8 + b.len.toNat * 2 ^ 9 + b.route.toNat * 2 ^ 16) 4 ++ toBytes b.data.toNat 112

/-- The body of a TIME flit of a kind (R325). -/
def timeBytes (kind : Nat) (m : TimeMsg) : List Byte :=
  [BitVec.ofNat 8 kind, m.hops, m.flags, m.seq] ++ toBytes m.ta.toNat 8 ++ toBytes m.taFrac.toNat 2 ++ toBytes m.tb.toNat 8 ++
  toBytes m.tbFrac.toNat 2 ++ toBytes m.corr.toNat 8 ++ toBytes m.reqCorr.toNat 8 ++ [m.dist, m.hops0] ++
  toBytes m.dstEp.toNat 2 ++ toBytes m.srcEp.toNat 2

/-- A body with the bytes from one position replaced. -/
def patch (b : List Byte) (at_ : Nat) (v : List Byte) : List Byte := b.take at_ ++ v ++ b.drop (at_ + v.length)

/-- A flit waits in a port for its turn; a port that is down, or a fenced device, emits no data and no time (R254, R267). -/
def State.portSend (s : State) (p type vc : Nat) (body : List Byte) (src : Option Nat) : State :=
  if s.portIsUp p && !s.fenced then
    let x := s.port p
    let f : TxFlit := ⟨type, vc, s.fld Reg.TPL_EPOCH 0 16, body, src, s.time, false⟩
    s.setPort p { x with waiting := SMap.set x.waiting vc (SMap.get x.waiting [] vc ++ [f]) }
  else s

/-- An LCTL flit waits in a port. -/
def State.portCtl (s : State) (p : Nat) (body : List Byte) : State :=
  if s.portIsUp p then
    let x := s.port p
    s.setPort p { x with ctl := x.ctl ++ [body] }
  else s

/-- Buffers of a virtual channel at a receiver (R251). -/
def vcCap (w vc : Nat) : Nat := if vc = 1 then 16 else 12 * w

/-- Whether the partner has a free buffer on a channel, counted from crn (R251). -/
def PortSt_credit (x : PortSt) (w vc : Nat) : Bool :=
  decide ((SMap.get x.sentVc 0 vc + 4096 - SMap.get x.peerCrn 0 vc) % 4096 < vcCap w vc)

/-- The virtual channels whose next flit a port may send: none while 512 flits are unacknowledged (R252). -/
def PortSt_ready (x : PortSt) (w : Nat) : List Nat :=
  if 512 ≤ x.replay.length then []
  else (x.waiting.filter (fun q => !q.2.isEmpty && PortSt_credit x w q.1)).map (fun q => q.1)

/-- The state with the credit of a freed buffer reported on a channel (R251). -/
def State.freeBuf (s : State) (p vc : Nat) : State :=
  let x := s.port p
  s.setPort p { x with crn := SMap.set x.crn vc ((SMap.get x.crn 0 vc + 1) % 4096) }

/-- The header of the next flit of a port, with the credit that is reported in turn (R249, R251). -/
def State.nextHeader (s : State) (p vc seq epoch : Nat) : FlitHdr × State :=
  let x := s.port p
  let t := x.crTurn
  (⟨BitVec.ofNat 4 vc, BitVec.ofNat 12 seq, BitVec.ofNat 12 x.ack, BitVec.ofNat 16 epoch, BitVec.ofNat 4 t,
    BitVec.ofNat 12 (SMap.get x.crn 0 t)⟩,
   s.setPort p { x with crTurn := if 9 ≤ t then 1 else t + 1 })

/-- The send time enters a TIME flit as its slot leaves (R325 to R327): t1 of an own request, t3 of a response, the residence
of a flit that is forwarded. -/
def State.stampTime (s : State) (f : TxFlit) : List Byte × State :=
  if f.type ≠ ftTime then (f.body, s)
  else
    let b := f.body
    if f.src.isSome then
      (patch b 24 (toBytes (ofBytes ((b.drop 24).take 8) + (s.time - f.at_)) 8), s)
    else if ofBytes (b.take 1) = 0 then
      (b, { s with timeUnit := { s.timeUnit with sent := s.timeUnit.sent ++ [(ofBytes ((b.drop 3).take 1), s.time)] } })
    else (patch b 14 (toBytes s.now 8 ++ toBytes (s.time % 65536) 2), s)

/-- Whether a port is in link state Quiet (R338). -/
def State.portQuiet (s : State) (p : Nat) : Bool := (s.portLanes p).any (fun n => s.laneState n == 5)

/-! The loss of Route time's source (R321, R322, R326). -/

/-- The trim that a 24-bit field shows, in 0.001 ppm. -/
def trimOf (v : Word) : Int := (v.setWidth 24).toInt

/-- A trim is set (R323); while LOCKED it is remembered for the average of R321. -/
def State.setTrim (s : State) (v : Word) : State :=
  let s := s.wr Reg.TIME_FREQ (v &&& 0xFFFFFF)
  if s.fld Reg.TIME_STATUS 0 3 = 2 then
    { s with timeUnit := { s.timeUnit with trims := (s.now, trimOf v) :: s.timeUnit.trims } }
  else s

/-- The sum of remembered trims, each times the part of the 16 s before `now` in which it held (R321), and the length of the parts; `upto` is
where the trim after it began. -/
def trimSum (now : Nat) : Nat → List (Nat × Int) → Int × Nat
  | _, [] => (0, 0)
  | upto, (t, v) :: r =>
    let d := upto - max t (now - 16000000000)
    let z := trimSum now t r
    (z.1 + v * d, z.2 + d)

/-- The trim averaged over the last 16 s of lock (R321); the rounding to 0.001 ppm is open (log entry 24), and a lock without duration keeps its
trim. -/
def State.meanTrim (s : State) : Word :=
  let z := trimSum s.now s.now s.timeUnit.trims
  if z.2 = 0 then s.rd Reg.TIME_FREQ
  else BitVec.ofInt 32 (z.1 / z.2 + if z.1 % z.2 = 0 then 0 else (Config.freeBool s.free).toNat) &&& 0xFFFFFF

/-- The time unit enters LOCKED (R321): the trim in force is the first of the lock. -/
def State.lockTime (s : State) : State :=
  let s := s.setFld Reg.TIME_STATUS 0 3 2
  { s with timeUnit := { s.timeUnit with trims := [(s.now, trimOf (s.rd Reg.TIME_FREQ))] } }

/-- The time unit loses its source (R322, R326, R331): LOCKED enters HOLDOVER with its record and runs at the trim averaged over its last 16 s of
lock; any other state enters FREE, but that a self-fence, which puts the unit into holdover (R267), leaves HOLDOVER (log entry 71). The causes
are those of R322. -/
def State.loseTime (s : State) (cause port : Nat) : State :=
  let st := s.fld Reg.TIME_STATUS 0 3
  let s := { s with timeUnit := { s.timeUnit with good := 0, lost := 0 } }
  if st = 2 then
    let s := (s.wr Reg.TIME_FREQ s.meanTrim).stepFree
    ((s.setFld Reg.TIME_STATUS 0 3 3).logRec 8 0 0x0A02 sevContained none (toBytes cause 1 ++ toBytes port 1))
  else if st = 3 ∧ cause = 4 then s
  else s.setFld Reg.TIME_STATUS 0 3 0

/-- An exchange is lost (R326): after four in a row the source is lost. -/
def State.exchangeLost (s : State) : State :=
  let n := s.timeUnit.lost + 1
  let s := { s with timeUnit := { s.timeUnit with lost := n, good := 0 } }
  if 4 ≤ n then s.loseTime 3 (s.fld Reg.TIME_EXCH_CTRL 16 7) else s

/-- An own request that leaves in a flit is remembered (R326). -/
def State.requestLeaves (s : State) (f : TxFlit) (body : List Byte) (seq : Nat) : State :=
  if f.type = ftTime ∧ f.src = none ∧ ofBytes (body.take 1) = 0 then
    let u := s.timeUnit
    let n := ofBytes ((body.drop 3).take 1)
    { s with timeUnit := { u with flits := (n, seq) :: u.flits.filter (fun x => x.1 != n) } }
  else s

/-- A flit that a port sends again: an exchange whose own request it holds is lost (R326). -/
def State.requestAgain (s : State) (p : Nat) (flit : List Byte) : State :=
  let u := s.timeUnit
  if ofBytes (flit.take 1) % 16 = ftTime ∧ p = s.fld Reg.TIME_EXCH_CTRL 16 7 then
    match u.flits.find? (fun x => x.2 == ofBytes ((flit.drop 1).take 2) % 4096) with
    | some x =>
      if u.sent.any (fun y => y.1 == x.1) then
        State.exchangeLost { s with timeUnit := { u with sent := u.sent.filter (fun y => y.1 != x.1), flits := u.flits.filter (fun y => y != x) } }
      else s
    | none => s
  else s

/-- The flit that a port puts into its next slot (R236, R250 to R252): which of an LCTL flit, a flit to send again and the
virtual channels goes first is open (log entry 35); a Quiet port sends no channel flits (R338); an IDLE flit where there is
none. -/
def State.portTake (s : State) (p : Nat) : List Byte × State :=
  let x := s.port p
  let vcs := if x.resend.isEmpty && !s.fenced then PortSt_ready x (s.portWidth p) else []
  let vcs := if s.portQuiet p then vcs.filter (fun v => v == 1) else vcs
  let again := if x.resend.isEmpty || s.fenced || (s.portQuiet p && ofBytes ((x.resend.headD []).take 1) % 16 != ftTime) then [] else [11]
  let ctl := if x.ctl.isEmpty then [] else [10]
  let all := ctl ++ again ++ vcs
  let e := s.fld Reg.TPL_EPOCH 0 16
  if all.isEmpty then
    let (h, s) := s.nextHeader p 0 0 e
    (flitBytes ftIdle h [], s)
  else
    let s := s.stepFree
    let pick := all.getD (Config.freeNat s.free % all.length) 0
    if pick = 10 then
      let s := s.setPort p { x with ctl := x.ctl.drop 1 }
      let (h, s) := s.nextHeader p 0 0 e
      (flitBytes ftLctl h (x.ctl.headD []), s)
    else if pick = 11 then (x.resend.headD [], (s.setPort p { x with resend := x.resend.drop 1 }).requestAgain p (x.resend.headD []))
    else
      match SMap.get x.waiting [] pick with
      | [] => ([], s)
      | f :: rest =>
        let (body, s) := s.stampTime f
        let s := s.setPort p { x with
          waiting := SMap.set x.waiting pick rest
          sentVc := SMap.set x.sentVc pick ((SMap.get x.sentVc 0 pick + 1) % 4096)
          txSeq := (x.txSeq + 1) % 4096 }
        let (h, s) := s.nextHeader p pick x.txSeq f.epoch
        let bytes := flitBytes f.type h body
        let y := s.port p
        let s := (s.setPort p { y with replay := y.replay ++ [(x.txSeq, bytes)] }).requestLeaves f body x.txSeq
        (bytes, match f.src with | some q => if f.owes then s.freeBuf q pick else s | none => s)

/-! What a port receives. -/

/-- The replay buffer without the flits that an ack covers. -/
def ackReplay (ack : Nat) : List (Nat × List Byte) → List (Nat × List Byte)
  | [] => []
  | x :: r => if (ack + 4096 - x.1) % 4096 < 512 then ackReplay ack r else x :: r

/-- The ack and the credit of a good flit take effect (R251, R252). -/
def State.flitAck (s : State) (p : Nat) (h : FlitHdr) : State :=
  let x := s.port p
  let rest := ackReplay h.ack.toNat x.replay
  s.setPort p { x with
    replay := rest
    naks := if rest.length < x.replay.length then (0, 0) else x.naks
    peerCrn := SMap.set x.peerCrn h.crvc.toNat h.crn.toNat }

/-- A NAK that names the expected seq goes out (R250, R252). -/
def State.sendNak (s : State) (p : Nat) : State :=
  let x := s.port p
  (s.setPort p { x with nakFor := some x.rxNext }).portCtl p (1 :: toBytes (x.rxNext * 4) 2)

/-- The first flit equal to one is taken out of a list. -/
def dropFlit (f : List Byte) : List (List Byte) → List (List Byte)
  | [] => []
  | x :: r => if x.take 124 = f then r else x :: dropFlit f r

/-- The expected flit did not come: a NAK goes out, unless one for it is out already (R252). -/
def State.nakOnce (s : State) (p : Nat) : State :=
  if (s.port p).nakFor = some (s.port p).rxNext then s else s.sendNak p

/-- A flit reaches the port layer (R250 to R252): whether it is delivered upwards, and the state. A flit that fails its CRC is
discarded with its ack and credit. A sequenced flit is accepted only in order. -/
def State.flitTake (s : State) (p type : Nat) (h : FlitHdr) (crc : Bool) (body : List Byte) : Bool × State :=
  let x := s.port p
  let s := s.setPort p { x with rx := dropFlit (flitFront type h body) x.rx }
  let sequenced := decide (2 ≤ type)
  if !(s.portIsUp p) then (false, s)
  else if !crc then (false, if sequenced then s.nakOnce p else s)
  else
    let s := s.flitAck p h
    if !sequenced then (true, s)
    else
      let y := s.port p
      let q := h.seq.toNat
      if q = y.rxNext then
        (true, s.setPort p { y with rxNext := (q + 1) % 4096, ack := q, nakFor := none })
      else if 1 ≤ (y.rxNext + 4096 - q) % 4096 ∧ (y.rxNext + 4096 - q) % 4096 ≤ 512 then (false, s)
      else (false, s.nakOnce p)

/-! Epochs (R265 to R267). -/

/-- An IDLE flit of the current epoch without ack or credit. -/
def State.plainIdle (s : State) : List Byte :=
  flitBytes ftIdle ⟨0, 0, 0xFFF, BitVec.ofNat 16 (s.fld Reg.TPL_EPOCH 0 16), 1, 0⟩ []

/-- The IDLE flit that takes the place of a flit in a lane's slot: it bears its port's ack and the credit that the port reports in turn (R249). -/
def State.laneIdle (s : State) (n : Nat) : List Byte :=
  match s.lanePort n with
  | some p =>
    let x := s.port p
    flitBytes ftIdle ⟨0, 0, BitVec.ofNat 12 x.ack, BitVec.ofNat 16 (s.fld Reg.TPL_EPOCH 0 16), BitVec.ofNat 4 x.crTurn,
      BitVec.ofNat 12 (SMap.get x.crn 0 x.crTurn)⟩ []
  | none => s.plainIdle

/-- What a fenced device still had to send does not leave (R267): the flits that wait, whose buffers at the ports they came through are free
again, and the data and TIME flits in the slots of the next frames. -/
def State.fenceSends (s : State) : State :=
  let s := s.ports.foldl (fun s q => q.2.waiting.foldl (fun s w => w.2.foldl (fun s f =>
    match f.src with | some a => if f.owes then s.freeBuf a w.1 else s | none => s) s) s) s
  { s with
    ports := s.ports.map (fun (q : Nat × PortSt) => (q.1, { q.2 with waiting := [] }))
    lanes := s.lanes.map (fun (n : Nat × Lane) =>
      (n.1, { n.2 with tx := n.2.tx.map (fun f => if 2 ≤ ofBytes (f.take 1) % 16 then s.laneIdle n.1 else f) })) }

/-- The device self-fences (R267): cause 0 a newer epoch, 1 the upstream timeout. An armed epoch does not take effect, and its notice is
not owed (R305); every bound channel is fenced (R166). -/
def State.selfFence (s : State) (cause : Nat) (seen : Option Nat) (port : Option Nat) : State :=
  if s.fenced then s
  else
    let e := match seen with | some e => e | none => s.fld Reg.TPL_FENCE 16 16
    let s := (s.wr Reg.TPL_FENCE (BitVec.ofNat 32 (1 + 2 * cause + e * 65536))).mbxStatus 4 true
    let s := s.setBit Reg.TPL_EPOCH_NEXT 31 false
    let s := { s with owed := s.owed.filter (fun o => o.2.1) }
    let s := s.fenceSends
    let pb := match port with | some p => toBytes p 1 | none => [Config.openDetail 0x0605 s.free 3]
    let s := s.stepFree.logRec 3 (port.getD 0) 0x0605 sevDevice none (toBytes cause 1 ++ toBytes e 2 ++ pb)
    let s := { s with
      alertStatus := s.alertStatus ||| 0x10
      parts := s.parts.map (fun (q : Nat × Part) =>
        if s.pstate q.1 = psStopped then (q.1, { q.2 with fenceReset := false })
        else (q.1, { q.2 with devFatal := 1, fenceReset := false })) }
    (s.parts.foldl (fun s q => s.fenceChans q.1) s).loseTime 4 0xFF

/-- The epoch check of a flit of a type that is checked (R266): whether its body is delivered, and the state. -/
def State.epochCheck (s : State) (p : Nat) (e : Nat) : Bool × State :=
  let E := s.fld Reg.TPL_EPOCH 0 16
  let A := s.fld (Reg.TPL_PORT_ACCEPT p) 0 16
  let armed := s.bit Reg.TPL_EPOCH_NEXT 31
  let N := s.fld Reg.TPL_EPOCH_NEXT 0 16
  if e = E ∨ e = A ∨ (armed ∧ e = N) then
    let s := if e = E then
        let x := s.port p
        (s.setFld (Reg.TPL_PORT_ACCEPT p) 0 16 E).setPort p { x with window := none }
      else s
    (!s.fenced, s)
  else if E < e ∧ (!armed ∨ N < e) then (false, s.selfFence 0 (some e) (some p))
  else (false, (s.addReg (Reg.TPL_PORT_STALE p) 1).logPortOnce p 0x0604 sevContained)

/-- The header of a received flit (R249). -/
def flitHead (b : List Byte) : FlitHdr :=
  let v := ofBytes (b.take 8)
  ⟨BitVec.ofNat 4 (v / 2 ^ 4), BitVec.ofNat 12 (v / 2 ^ 8), BitVec.ofNat 12 (v / 2 ^ 20), BitVec.ofNat 16 (v / 2 ^ 32), BitVec.ofNat 4 (v / 2 ^ 48),
    BitVec.ofNat 12 (v / 2 ^ 52)⟩

/-- Whether a received flit is a TIME flit of a reserved kind (R325). -/
def timeReserved (b : List Byte) : Bool := ofBytes (b.take 1) % 16 == ftTime && decide (1 < ofBytes ((b.drop 8).take 1))

/-- TIME flits of a reserved kind at the head of what a port received pass its layer and the epoch check, and are dropped (R252, R266, R325). -/
def State.skipReserved (s : State) (p : Nat) : Nat → State
  | 0 => s
  | k + 1 =>
    match (s.port p).rx with
    | b :: _ =>
      if timeReserved b then
        let h := flitHead b
        let body := (b.drop 8).take 116
        let (ok, s) := s.flitTake p ftTime h (b == flitBytes ftTime h body) body
        let s := if ok then (s.epochCheck p h.epoch.toNat).2.freeBuf p h.vc.toNat else s
        s.skipReserved p k
      else s
    | [] => s

/-- A flit that a command processes reaches the port layer (R250 to R252), and after it the flits that no command has. -/
def State.flitAccept (s : State) (p type : Nat) (h : FlitHdr) (crc : Bool) (body : List Byte) : Bool × State :=
  let (ok, s) := s.flitTake p type h crc body
  (ok, s.skipReserved p ((s.port p).rx.length))

/-- ACCEPT_WINDOW_CLOSE (R266): Route time reaches M + 2 × P, and A becomes E. -/
def execAcceptWindowClose (port : Nat) (s : State) : Host.Outcome State Fault Refusal :=
  let x := s.port port
  match x.window with
  | none => .next s
  | some _ =>
    .next ((s.setFld (Reg.TPL_PORT_ACCEPT port) 0 16 (s.fld Reg.TPL_EPOCH 0 16)).setPort port { x with window := none })

/-- UPSTREAM_FENCE_TIMEOUT (R267): every upstream port has been down for the timeout. -/
def execUpstreamFenceTimeout (s : State) : Host.Outcome State Fault Refusal :=
  let up := (List.range 96).filter (fun p => s.bit (Reg.TPL_PORT_CTRL p) 0 && s.bit (Reg.TPL_PORT_CTRL p) 3)
  if !up.isEmpty && up.all (fun p => !(s.portIsUp p)) then .next (s.selfFence 1 none none) else .next s

end Sys2Proof.Machine
end

