-- ==== Sys2Proof/Machine/StreamEntries.lean ====
section
/-!
DEFINITION. The meanings of the stream entries SWIN, SCTX, SREL and SPUSH (R118, R119, R121).
-/
namespace Sys2Proof.Machine

/-- SWIN (R118): the slots of the window are claimed. -/
def execSwin (tile : Nat) (f : SwinFields) (s : State) : Host.Outcome State Fault Refusal :=
  if f.stride = 0 then badEntry 118
  else
    .next (s.issueEntry tile 1 (fun s I k order =>
      s.addEvs tile ((List.range (f.countM1.toNat + 1)).map (fun i =>
        (⟨I + i * f.stride.toNat, order, k, .seSlot f.dir f.mask⟩ : TileEv)))))

/-- Every open or paused context of a mask is changed (R118). -/
def State.sctx (s : State) (t : Nat) (mask : BitVec 8) (f : State → Nat → State) : State :=
  (List.range 8).foldl (fun s c => if mask.getLsbD c && s.ctxLive t c then f s c else s) s

/-- SCTX with action 0 (R118): the contexts pause. -/
def execSctxPause (tile : Nat) (mask : BitVec 8) (s : State) : Host.Outcome State Fault Refusal :=
  .next (s.issueEntry tile 1 (fun s _ _ _ => s.sctx tile mask (fun s c => s.setCtxState tile c 2)))

/-- SCTX with action 1 (R118): the contexts are open again, but for one whose close waits for the milestone (log entry
33). -/
def execSctxResume (tile : Nat) (mask : BitVec 8) (s : State) : Host.Outcome State Fault Refusal :=
  .next (s.issueEntry tile 1 (fun s _ _ _ => (s.sctx tile mask (fun s c =>
    if (s.seCtx tile c).closing then s
    else
      let s := s.setCtxState tile c 1
      if s.ctxHeld tile c then s else s.seCredit tile c)).seStatus tile))

/-- SCTX with action 2 (R118): a close acts as a pause until the closing milestone. -/
def execSctxClose (tile : Nat) (mask : BitVec 8) (s : State) : Host.Outcome State Fault Refusal :=
  .next (s.issueEntry tile 1 (fun s _ _ _ => s.sctx tile mask (fun s c =>
    (s.setSeCtx tile c { s.seCtx tile c with closing := true }).setCtxState tile c 2)))

/-- SREL (R118, R119): rows of an inbound context are released. -/
def execSrel (tile : Nat) (ctx : BitVec 3) (rows : BitVec 13) (s : State) : Host.Outcome State Fault Refusal :=
  .next (s.issueEntry tile 1 (fun s _ _ _ => s.seRelease tile ctx.toNat rows.toNat))

/-- SPUSH (R118, R119): rows of an outbound context are ready to send. -/
def execSpush (tile : Nat) (ctx : BitVec 3) (rows : BitVec 13) (s : State) : Host.Outcome State Fault Refusal :=
  .next (s.issueEntry tile 1 (fun s _ _ _ => s.sePush tile ctx.toNat rows.toNat))

end Sys2Proof.Machine
end

