-- ==== Sys2Proof/Machine/SeqEntries.lean ====
section
/-!
DEFINITION. The meanings of the entries of engines 0x5, 0x6, 0x7, 0xE and 0xF (R128), and of the events of the sequencer:
overrun (R134), park (R130), done (R133) and the wake of a waiter (R158).
-/
namespace Sys2Proof.Machine

/-- The state with the tile core's record replaced. -/
def State.setTc (s : State) (t : Nat) (c : TcSt) : State := s.setTile t { s.tile t with tc := c }

/-- The state field of `TC_STATUS`: 0 halted, 1 running, 2 waiting, 3 power request. -/
def State.setTcState (s : State) (t v : Nat) : State := s.setFld (Reg.TC_STATUS t) 0 2 v

/-- The tile core starts at an instruction (R128). DESIGN CHOICE (log entry 130): it can issue from the handshake after the TCGO on, and after a
TCEV, or a take, that ends its wait. -/
def State.tcGo (s : State) (t pc I entry : Nat) : State :=
  if s.tcHalted t then
    let c := (s.tile t).tc
    let s := s.setTc t { c with next := I + 1, waitSem := none, waitEvent := none, startEntry := entry, power := false }
    (s.wr (Reg.TC_PC t) (BitVec.ofNat 32 pc)).setTcState t 1
  else s.slotClash t 1 (s.tile t).tc.startEntry entry I

/-- TCGO (R128). -/
def execTcgo (tile : Nat) (pc : BitVec 13) (s : State) : Host.Outcome State Fault Refusal :=
  .next (s.issueEntry tile 1 (fun s I k _ => s.tcGo tile pc.toNat I k))

/-- An event bit of `TC_EVENT` is set; a tile core that waits for it goes on and clears it (R128). -/
def State.tcEvent (s : State) (t e I : Nat) : State :=
  let c := (s.tile t).tc
  if c.waitEvent = some e then ((s.setTc t { c with waitEvent := none, next := I + 1 }).setTcState t 1)
  else s.setBit (Reg.TC_EVENT t) e true

/-- TCEV (R128). -/
def execTcev (tile : Nat) (event : BitVec 4) (s : State) : Host.Outcome State Fault Refusal :=
  .next (s.issueEntry tile 1 (fun s I _ _ => s.tcEvent tile event.toNat I))

/-- SIGNAL with remote 0 (R128, R155): the signal takes effect one handshake after the issue. -/
def execSignal (tile : Nat) (sem : BitVec 6) (count : BitVec 12) (s : State) : Host.Outcome State Fault Refusal :=
  .next (s.issueEntry tile 1 (fun s I k order =>
    if count = 0 then s else s.addEv tile ⟨I + 1, order, k, .semSignal sem.toNat count.toNat srcItin k⟩))

/-- SIGNAL with remote 1 (R128, R155, R163). -/
def execSignalRemote (tile : Nat) (sem : BitVec 6) (count : BitVec 12) (target : BitVec 7) (s : State) :
    Host.Outcome State Fault Refusal :=
  .next (s.issueEntry tile 1 (fun s _ _ _ => s.remoteSignal tile sem.toNat count.toNat target.toNat false))

/-- TAKE (R128, R155, R157). -/
def execTake (tile : Nat) (sem : BitVec 6) (count : BitVec 12) (s : State) : Host.Outcome State Fault Refusal :=
  .next (s.issueEntry tile 1 (fun s I k order =>
    if count = 0 then s else s.addEv tile ⟨I + 1, order, k, .semTake sem.toNat count.toNat k⟩))

/-- The sequencer goes on after a take at a handshake (R129, R134). -/
def State.gateDone (s : State) (t k h : Nat) : State :=
  let x := s.tile t
  let s := s.setTile t { x with gate := none, nextHs := h + 1, overrunAt := if s.lastEntry t k then some (h + 1) else none }
  s.setBit (Reg.SEQ_STATUS t) 17 false

/-- What a GATE does at its issue (R128, R157, R158, R167). -/
def State.gateIssue (s : State) (t k n I entry : Nat) : State :=
  if n = 0 then s
  else if !(s.semBroken t k) && decide (s.semCap t k < n) then
    (s.semFault t k 1 srcItin n (s.semCount t k) entry).stopSeq t
  else match s.semTry t k n with
    | (.taken, s') => s'
    | (.broken, s') => (s'.semFault t k 2 srcItin n (s'.semCount t k) entry).stopSeq t
    | (.short, s') =>
      let x := s'.tile t
      ((s'.setTile t { x with gate := some (k, n, entry), overrunAt := none }).setBit (Reg.SEQ_STATUS t) 17 true).semWaiters t k

/-- GATE (R128, R130, R158). -/
def execGate (tile : Nat) (sem : BitVec 6) (count : BitVec 12) (s : State) : Host.Outcome State Fault Refusal :=
  .next (s.issueEntry tile 1 (fun s I k _ => s.gateIssue tile sem.toNat count.toNat I k))

/-- END (R128, R133): the walk of the variant is over. -/
def execEndEntry (tile : Nat) (s : State) : Host.Outcome State Fault Refusal :=
  .next (s.issueEntry tile 1 (fun s I _ _ =>
    let x := s.tile tile
    ((s.setTile tile { x with endAt := some I, overrunAt := none }).setBit (Reg.SEQ_STATUS tile) 18 true).setBit
      (Reg.SEQ_STATUS tile) 16 false))

/-- NOP (R128, R129): the sequencer is held for repeat + 1 handshakes. -/
def execNop (tile : Nat) (rep : BitVec 10) (s : State) : Host.Outcome State Fault Refusal :=
  .next (s.issueEntry tile (rep.toNat + 1) (fun s _ _ _ => s))

/-- APPADV (R44, R128): `pending` of a region and of the next `rep` regions is set. -/
def execAppadv (tile : Nat) (rep : BitVec 10) (region : BitVec 7) (s : State) : Host.Outcome State Fault Refusal :=
  .next (s.issueEntry tile 1 (fun s _ _ _ =>
    (List.range (rep.toNat + 1)).foldl (fun s i => s.setBit (Reg.SEQ_APP_CTRL tile ((region.toNat + i) % 128)) 31 true) s))

/-! Events of the sequencer. -/

/-- ITIN_OVERRUN (R134): the entry after the variant's last one falls due. -/
def execItinOverrun (tile : Nat) (s : State) : Host.Outcome State Fault Refusal :=
  match (s.tile tile).overrunAt with
  | none => .next s
  | some h =>
    let s := s.advanceTo tile (max h (s.hs tile))
    let v := s.rd (Reg.SEQ_VAR tile (s.variant tile))
    let last := (v.field 0 12 + v.field 16 12) % 4096
    let x := s.tile tile
    let s := s.setTile tile { x with stopped := true, overrunAt := none }
    .next (s.logTile tile 0x0102 sevPartition (toBytes tile 1 ++ [0] ++ toBytes last 2 ++ toBytes (s.variant tile) 1))

/-- Rounds that bring any tile's work to its end. -/
def settleFuel : Nat := 2 ^ 40

/-- TILE_PARK (R37, R130): at a GATE, once the work in progress has run to its end and the TC is halted or waiting; at END,
once done. -/
def execTilePark (tile : Nat) (s : State) : Host.Outcome State Fault Refusal :=
  if s.bit (Reg.SEQ_BEAT_STATUS tile) 0 then .next (s.setBit (Reg.SEQ_BEAT_STATUS tile) 2 true)
  else if (s.tile tile).gate.isSome && s.tcQuiet tile then
    .next ((State.settle tile settleFuel s).setBit (Reg.SEQ_BEAT_STATUS tile) 2 true)
  else .next s

/-- Whether a coming event is a claimed write of an entry, a write slot of the stream engine among them (R118), or a repetition of an MMA whose
drain will claim some (R133). -/
def TileAct.claimsWrite : TileAct → Bool
  | .drainRow .. | .mdrainRow .. => true
  | .seSlot read _ => !read
  | .arrIssue _ f _ => f.drain
  | .veu op _ => op == veVst
  | _ => false

/-- The handshake by which the claimed write slots that a tile knows of have come, and the writes on their way are complete. -/
def Tile.writesEnd (x : Tile) (h : Nat) : Nat :=
  let e := x.evs.foldl (fun m v => if v.act.claimsWrite then max m v.slot else m) h
  x.flights.foldl (fun m f => max m (f.slot + f.lat)) e

/-- A tile is run to the completion of every claimed write (R133): `n` bounds the rounds. -/
def State.settleWrites (t : Nat) : Nat → State → State
  | 0, s => s
  | n + 1, s =>
    let x := s.tile t
    if x.evs.any (fun v => v.act.claimsWrite) || !x.flights.isEmpty then
      State.settleWrites t n (s.advanceTo t (x.writesEnd (s.hs t)))
    else s

/-- TILE_DONE (R37, R133, R163): END has issued, every claimed write is complete, the TC has halted and every remote signal
of the program is acknowledged. An operation with no claimed write left goes on behind it (R70). -/
def execTileDone (tile : Nat) (s : State) : Host.Outcome State Fault Refusal :=
  if (s.tile tile).endAt.isSome && s.tcHalted tile && !(s.tile tile).remoteWaits then
    let s := State.settleWrites tile settleFuel s
    .next ((s.setTile tile { s.tile tile with done := true, doneHs := s.hs tile }).setBit (Reg.SEQ_BEAT_STATUS tile) 0 true)
  else .next s

/-- The GATE that waits on a semaphore takes, or aborts on a Broken one (R158, R167). -/
def State.gateWake (s : State) (t k : Nat) : State :=
  match (s.tile t).gate with
  | none => s
  | some (k', n, entry) =>
    if k' = k then
      match s.semTry t k n with
      | (.taken, s') => s'.gateDone t entry (s'.hs t)
      | (.short, s') => s'
      | (.broken, s') => (s'.stopSeq t).setBit (Reg.SEQ_STATUS t) 17 false
    else s

/-- The WAIT that stands on a semaphore takes, or aborts on a Broken one (R158, R167). -/
def State.waitWake (s : State) (t k : Nat) : State :=
  match (s.tile t).tc.waitSem with
  | none => s
  | some (k', n) =>
    if k' = k then
      match s.semTry t k n with
      | (.taken, s') =>
        (s'.setTc t { (s'.tile t).tc with waitSem := none, next := s'.hs t + 1 }).setTcState t 1
      | (.short, s') => s'
      | (.broken, s') => s'.stopTc t
    else s

/-- The contexts of a tile that wait for credit on a Broken semaphore abort: those with a row that is ready and has no credit (R167). -/
def State.creditWake (s : State) (t k : Nat) : State :=
  if s.semBroken t k then
    (List.range 8).foldl (fun s c =>
      let v := s.seCtx t c
      if s.ctxLive t c && s.ctxOut t c && s.ctxSem t c == k && decide (v.reserved + v.granted < s.ctxFill t c) then
        s.streamFault t c 1 (s.ctxAddr t c)
      else s) s
  else s

/-- Whether a waiter of the semaphore is woken: it is Broken, or its count covers the waiter's amount (R158). -/
def State.wakes (s : State) (t k : Nat) : Bool :=
  let x := s.tile t
  let covers (n : Nat) : Bool := s.semBroken t k || decide (n ≤ s.semCount t k)
  (match x.gate with | some (k', n, _) => k' == k && covers n | none => false) ||
  (match x.tc.waitSem with | some (k', n) => k' == k && covers n | none => false)

/-- WAITER_WAKE (R155, R158): in the first handshake after the wake the signals of that handshake come first, then the GATE takes, then
the WAIT. -/
def execWaiterWake (tile : Nat) (sem : BitVec 6) (s : State) : Host.Outcome State Fault Refusal :=
  let k := sem.toNat
  let s := s.creditWake tile k
  let u := if s.inBeat tile then s.advanceTo tile (s.hs tile + 1) else s
  if u.wakes tile k then
    let u := if s.inBeat tile then u else
      let u := (u.unpark tile).settleAborts tile
      u.advanceTo tile (u.hs tile + 1)
    .next (((u.gateWake tile k).waitWake tile k).semWaiters tile k)
  else .next s

end Sys2Proof.Machine
end

