-- ==== Sys2Proof/Machine/SeEvents.lean ====
section
/-!
DEFINITION. The events of a tile's stream engine (R115 to R126) and the packets that arrive at a tile (R162, R163, R174, R175,
R182, R184, R188, R189). Packets for edge ports are in EdgeEvents.
-/
namespace Sys2Proof.Machine

/-! Checks on arrival. -/

/-- A packet is dropped by the partition check of a tile's local port (R188): counted, and logged once per beat. -/
def State.dropPart (s : State) (t port : Nat) (p : Pkt) : State :=
  let s := s.addReg (Reg.RTR_DROP_PART t) 1
  let r := s.router t
  if r.partLogged then s
  else (s.setRouter t { r with partLogged := true }).logRec 1 t 0x0401 sevContained (s.tilePart t) (violationDetail t port p)

/-- A packet of a retired generation is dropped at a tile (R189). -/
def State.dropGen (s : State) (t : Nat) : State :=
  let s := s.addReg (Reg.RTR_DROP_GEN t) 1
  let x := s.tile t
  if x.genLogged then s
  else
    let s := s.setTile t { x with genLogged := true }
    (s.logRec 1 t 0x0402 sevCorrected (s.tilePart t) (s.openDetail 0x0402)).stepFree

/-- Whether a packet's partition is the one that owns a router (R188). -/
def State.ownsPkt (s : State) (t : Nat) (p : Pkt) : Bool :=
  s.bit (Reg.RTR_PART t) 4 && s.fld (Reg.RTR_PART t) 0 4 == p.part.toNat

/-- A CTRL or DATA packet arrives at its tile: whether the tile takes it, and the state after the checks of R175, R188 and
R189; a reply to a read frees its entry of the request table whatever its generation (R120). The packet is among those that the network delivered, or comes from outside the model's network (log entry 34). -/
def State.arrive (s : State) (ty : Nat) (p : Pkt) : Bool × State :=
  let t := p.dst.toNat
  let s := s.consume p
  if !p.formed || !(s.ownsPkt t p) then (false, s.dropPart t 0 p)
  else if p.gen.toNat != s.fld (Reg.TILE_PART t) 8 8 then
    let s := if ty = ptDrdr then (s.updSe t (fun e => { e with reqs := e.reqs.filter (fun r => r.id != p.argField 104 5) })).seStatus t else s
    (false, s.dropGen t)
  else (true, s)

/-- Whether a command's packet is one of a type for a tile. -/
def Pkt_forTile (ty : Nat) (p : Pkt) : Bool := p.type.toNat == ty && !p.dkind

/-- Whether a tile discards a packet of an abandoned attempt (R184). -/
def State.abandons (s : State) (t : Nat) (p : Pkt) : Bool := (s.tile t).abandoned.contains p.bt.toNat

/-- `SE_DISCARD` counts a packet. -/
def State.discard (s : State) (t : Nat) : State := s.addReg (Reg.SE_DISCARD t) 1

/-- `RTR_STATUS` shows the reservation queue of a tile. -/
def State.rsvStatus (s : State) (t : Nat) : State := s.setFld (Reg.RTR_STATUS t) 0 9 (s.tile t).se.waiting.length

/-- The destination code of a packet's source, with its kind in bit 7. -/
def srcCode (p : Pkt) : Nat := p.src.toNat + 128 * p.skind.toNat

/-! Requests and reservations of a tile. -/

/-- The lowest free entry of the request table. -/
def freeReq (l : List SeReq) : Option Nat := (List.range 32).find? (fun i => !(l.any (fun r => r.id == i)))

/-- The inbound DRAM contexts that can issue a read (R120, R122). -/
def State.dramReady (s : State) (t : Nat) : List Nat :=
  if 16 ≤ s.landUsed t then []
  else (List.range 8).filter (fun c =>
    s.ctxState t c == 1 && !(s.ctxOut t c) && s.ctxKind t c == 0 && decide (0 < s.ctxCredit t c))

/-- SE_DRAM_READ_ISSUE (R120, R122, R123). -/
def execSeDramReadIssue (tile : Nat) (s : State) : Host.Outcome State Fault Refusal :=
  match s.seChoose tile false (s.dramReady tile), freeReq (s.tile tile).se.reqs with
  | some c, some id =>
    let v := s.seCtx tile c
    let a := s.walkAddr tile c v.walk
    let (sent, s) := s.sendPkt tile (Pkt.make (s.dramPort tile a) true tile false ptDrd c (a + id * 2 ^ 40) 0)
    if sent then
      let s := s.updSe tile (fun e => { e with reqs := e.reqs ++ [⟨id, c, a, false, true⟩] })
      .next ((s.setSeCtx tile c { v with walk := v.walk + 1, requested := v.requested + 1 }).seStatus tile)
    else .next s
  | _, _ => .next s

/-- Rows from the n-th on of a context that are bound for one destination, at most `k` of them (R120). -/
def State.sameDst (s : State) (t c n : Nat) : Nat → Nat
  | 0 => 0
  | k + 1 =>
    let m := State.sameDst s t c n k
    if m = k && (k == 0 || s.ctxDst t c (n + k) == s.ctxDst t c n) then k + 1 else m

/-- Rows of the next RESERVE of a context: ready rows not yet reserved, at most 4 for one destination, no more
than the credits of the freed semaphore (R120 step 1). -/
def State.reserveRows (s : State) (t c : Nat) : Nat :=
  let v := s.seCtx t c
  let held := v.reserved + v.granted
  let n := min 4 (s.ctxFill t c - held)
  let n := min n (s.semCount t (s.ctxSem t c))
  s.sameDst t c (v.k + held) n

/-- SE_RESERVE_SEND (R120 step 1, R155, R167, R181). -/
def execSeReserveSend (tile : Nat) (ctx : BitVec 3) (s : State) : Host.Outcome State Fault Refusal :=
  let c := ctx.toNat
  let v := s.seCtx tile c
  if s.ctxState tile c = 1 ∧ s.ctxOut tile c then
    let held := v.reserved + v.granted
    if held < s.ctxFill tile c ∧ s.semBroken tile (s.ctxSem tile c) then
      .next (s.streamFault tile c 1 (s.ctxAddr tile c))
    else
      let n := s.reserveRows tile c
      let (dst, dk) := s.ctxDst tile c (v.k + held)
      let code := dst + 128 * dk.toNat
      let out := ((s.tile tile).se.sent.filter (fun r => r.dst == code)).length
      if n = 0 ∨ 2 ≤ out then .next s
      else
        let (sent, s) := s.sendPkt tile (Pkt.make dst dk tile false ptReserve (s.ctxTag tile c) (n - 1) 0)
        if sent then
          let s := s.setSemCount tile (s.ctxSem tile c) (s.semCount tile (s.ctxSem tile c) - n)
          let s := s.setSeCtx tile c { v with reserved := v.reserved + n, credited := v.credited + n }
          .next (s.updSe tile (fun e => { e with sent := e.sent ++ [⟨c, code, n, s.now⟩] }))
        else .next s
  else .next s

/-- Whether a waiting RESERVE is grantable (R120). -/
def State.grantable (s : State) (t : Nat) (r : RsvWait) : Bool :=
  s.ctxState t r.ctx == 1 && !(s.ctxOut t r.ctx) && decide (r.rows ≤ s.ctxCredit t r.ctx) &&
  decide (s.landUsed t + r.rows ≤ 16)

/-- The first element that a test picks is taken out of a list. -/
def takeFirst {α : Type} (f : α → Bool) : List α → Option (α × List α)
  | [] => none
  | x :: r => if f x then some (x, r) else
    match takeFirst f r with
    | some (y, rest) => some (y, x :: rest)
    | none => none

/-- SE_GRANT_ISSUE (R120 step 2, R180): the earliest grantable RESERVE is granted; where none is, an EDGE or CHAN context
that does not hold its releases gives its port the credit that it has. -/
def execSeGrantIssue (tile : Nat) (s : State) : Host.Outcome State Fault Refusal :=
  match takeFirst (fun r => s.grantable tile r) (s.tile tile).se.waiting with
  | some (r, rest) =>
    let (sent, s) := s.sendPkt tile (Pkt.make r.src r.skind tile false ptGrant r.ctx (r.rows - 1) 0)
    let s := (s.updSe tile (fun e => { e with waiting := rest })).rsvStatus tile
    if sent then
      let v := s.seCtx tile r.ctx
      .next ((s.setSeCtx tile r.ctx { v with requested := v.requested + r.rows }).seStatus tile)
    else .next s
  | none =>
    .next (((List.range 8).foldl (fun s c => if s.ctxHeld tile c then s else s.seCredit tile c) s).seStatus tile)

/-- SE_WRITE_SLOT (R120 step 4, R123): the tile advances to its next write slot. -/
def execSeWriteSlot (tile : Nat) (s : State) : Host.Outcome State Fault Refusal :=
  .next (s.runTo tile (fun a => match a with | .seSlot r _ => !r | _ => false))

/-- SE_READ_SLOT (R120 step 3, R123), with the upsets that the read meets (R112). -/
def execSeReadSlot (tile : Nat) (soft : List SoftErr) (s : State) : Host.Outcome State Fault Refusal :=
  .next ((s.addSoft tile soft).runTo tile (fun a => match a with | .seSlot r _ => r | _ => false))

/-- RESERVE_TIMEOUT (R183): logged once per context and task. -/
def execReserveTimeout (tile : Nat) (ctx : BitVec 3) (s : State) : Host.Outcome State Fault Refusal :=
  let c := ctx.toNat
  let e := (s.tile tile).se
  match e.sent.find? (fun r => r.ctx == c) with
  | some r =>
    if e.timedOut.contains c then .next s
    else
      let s := s.updSe tile (fun e => { e with timedOut := e.timedOut ++ [c] })
      .next (s.logTile tile 0x0403 sevContained (toBytes tile 1 ++ toBytes c 1 ++ toBytes r.dst 1))
  | none => .next s

/-! Packets that arrive at a tile. -/

/-- A RESERVE arrives at a tile (R120, R181, R184): it waits in the reservation queue. -/
def State.reserveTile (s : State) (p : Pkt) : State :=
  let t := p.dst.toNat
  let (ok, s) := s.arrive ptReserve p
  if !ok then s
  else if s.abandons t p then s.discard t
  else
    (s.updSe t (fun e => { e with waiting := e.waiting ++
      [⟨p.src.toNat, p.skind, p.ctx.toNat, p.argField 64 2 + 1, p.bt.toNat, true⟩] })).rsvStatus t

/-- GRANT (R120 step 2, R184): the oldest RESERVE that it answers is granted. -/
def execGrant (p : Pkt) (s : State) : Host.Outcome State Fault Refusal :=
  let t := p.dst.toNat
  if Pkt_forTile ptGrant p then
    let (ok, s) := s.arrive ptGrant p
    if !ok then .next s
    else if s.abandons t p then .next (s.discard t)
    else
      let rows := p.argField 64 2 + 1
      match takeFirst (fun r => r.dst == srcCode p && r.rows == rows && s.ctxTag t r.ctx == p.ctx.toNat) (s.tile t).se.sent with
      | some (r, rest) =>
        let s := s.updSe t (fun e => { e with sent := rest })
        let v := s.seCtx t r.ctx
        .next (s.setSeCtx t r.ctx { v with reserved := v.reserved - rows, granted := v.granted + rows })
      | none => .next (s.discard t)
  else .next s

/-- A PUSH arrives at a tile (R120, R180, R184): its row takes a landing row that was reserved for its context. -/
def State.pushTile (s : State) (p : Pkt) : State :=
  let t := p.dst.toNat
  let c := p.ctx.toNat
  let (ok, s) := s.arrive ptPush p
  if !ok then s
  else if s.abandons t p then s.discard t
  else
    let held := ((s.tile t).se.landing.filter (fun l => l.ctx == c)).length
    if s.ctxLive t c && !(s.ctxOut t c) && decide (held < (s.seCtx t c).requested) then
      (s.seLand t c p.payload (p.bt.toNat == s.fld (Reg.SEQ_BEAT_MS_LO t) 0 2)).seStatus t
    else s.discard t

/-- SIGNAL_PACKET (R155, R162, R163, R182): the signal is applied, or dropped when its tag is stale, and acknowledged. -/
def execSignalPacket (p : Pkt) (s : State) : Host.Outcome State Fault Refusal :=
  let t := p.dst.toNat
  if Pkt_forTile ptSignal p then
    let (ok, s) := s.arrive ptSignal p
    if !ok then .next s
    else
      let k := p.argField 64 6
      let stale := p.argField 100 1 == 1 && p.argField 96 4 != s.fld (Reg.SEQ_BEAT_MS_LO t) 0 4
      let s := if stale then s.addReg (Reg.SEM_STALE_SIG t) 1 else s.signalIn t k (p.argField 80 12) srcRemote
      .next (s.sendPkt t (Pkt.make p.src.toNat p.skind t false ptSigack 0 k 0)).2
  else .next s

/-- A remote signal of a tile is complete (R163). -/
def State.remoteDone (s : State) (t target k : Nat) : State :=
  let x := s.tile t
  match takeFirst (fun r => r.1 == target && r.2.1 == k) x.remoteOut with
  | some (_, rest) => s.setTile t { x with remoteOut := rest }
  | none => s

/-- SIGACK (R163). -/
def execSigack (p : Pkt) (s : State) : Host.Outcome State Fault Refusal :=
  if Pkt_forTile ptSigack p then
    let (ok, s) := s.arrive ptSigack p
    .next (if ok then s.remoteDone p.dst.toNat p.src.toNat (p.argField 64 6) else s)
  else .next s

/-- The abort cause of a hub's error cause: UE, RANGE, CHANNEL (R126, R278). -/
def abortCause (c : Nat) : Nat := if c = 1 then 0 else if c = 2 then 2 else 5

/-- DRDR (R120, R125, R126): the row lands for its request, is discarded with a cancelled one, or faults its context; of a cancelled one
only where its context was aborted by a fault of the same handshake or park. -/
def execDrdr (p : Pkt) (s : State) : Host.Outcome State Fault Refusal :=
  let t := p.dst.toNat
  if Pkt_forTile ptDrdr p then
    let (ok, s) := s.arrive ptDrdr p
    if !ok then .next s
    else
      match takeFirst (fun r => r.id == p.argField 104 5) (s.tile t).se.reqs with
      | none => .next (s.discard t)
      | some (r, rest) =>
        let s := s.updSe t (fun e => { e with reqs := rest })
        let s := if r.cancelled then s.discard t else s
        if p.argField 111 1 = 1 ∧ !(r.cancelled && s.ctxLive t r.ctx) then .next ((s.streamFault t r.ctx (abortCause (p.argField 112 3)) r.addr).seStatus t)
        else if r.cancelled then .next (s.seStatus t)
        else .next ((s.seLand t r.ctx p.payload r.now).seStatus t)
  else .next s

/-- DWRA (R117, R126): a row of an outbound DRAM context is acknowledged. -/
def execDwra (p : Pkt) (s : State) : Host.Outcome State Fault Refusal :=
  let t := p.dst.toNat
  if Pkt_forTile ptDwra p then
    let (ok, s) := s.arrive ptDwra p
    if !ok then .next s
    else
      let a := p.argField 64 40
      match takeFirst (fun r => r.1 == p.ctx.toNat && r.2 == a) (s.tile t).se.dwr with
      | none => .next (s.discard t)
      | some (r, rest) =>
        let s := s.updSe t (fun e => { e with dwr := rest })
        if p.argField 111 1 = 1 then .next (s.streamFault t r.1 (abortCause (p.argField 112 3)) a)
        else if s.ctxLive t r.1 then .next (s.signalIn t (s.ctxSem t r.1) 1 srcSe)
        else .next s
  else .next s

/-! Management access (R115). -/

/-- Whether the SE serves management traffic: the tile is unassigned, or its partition is STOPPED, FROZEN or RECOVERING. -/
def State.mgmtOpen (s : State) (t : Nat) : Bool := s.unlocked (s.tilePart t)

/-- A management read of a whole row: the row, whether a word is poisoned, and the state (R113). -/
def State.mgmtRead (s : State) (t row : Nat) : Row × Bool × State :=
  let (bs, bad, s) := s.storeRead t .management 5 (2 ^ 40) (row % 8192 * 1024) 1024
  (BitVec.ofNat 8192 (ofBytes bs), bad, s)

/-- MREQ (R115, R182): a row read (no payload) or a row write (16 payload flits) of the system hub, refused while the
partition is ARMED or RUNNING. DESIGN CHOICE (log entry 18): the spec gives the operation field no codes, so that the presence of a
payload alone says read or write. -/
def execMreq (p : Pkt) (soft : List SoftErr) (s : State) : Host.Outcome State Fault Refusal :=
  let t := p.dst.toNat
  if Pkt_forTile ptMreq p then
    let s := s.consume p
    if !p.formed || !(p.skind && p.src == 0x30) then .next (s.dropPart t 0 p)
    else
      let addr := p.argField 64 32
      let row := (Config.mreqRow addr).toNat
      let reply (s : State) (refused bad : Bool) (v : Row) (len : BitVec 5) : State :=
        let arg := addr + 2 ^ 32 * (Config.mrspStatus refused bad).toNat
        (s.sendPkt t { Pkt.make 0x30 true t false ptMrsp 0 arg v with len := len }).2
      if !(s.mgmtOpen t) then .next (reply s true false 0 0)
      else if p.len = 0 then
        let (v, bad, s) := (s.addSoft t soft).mgmtRead t row
        .next (reply s false bad v 16)
      else .next (reply (s.pokeRow t row p.payload) false false 0 0)
  else .next s

/-- MRSP (R115, R182): the system hub absorbs a management reply. -/
def execMrsp (p : Pkt) (s : State) : Host.Outcome State Fault Refusal :=
  .next (if p.type.toNat = ptMrsp ∧ p.dkind ∧ p.dst = 0x30 then s.consume p else s)

end Sys2Proof.Machine
end

