-- ==== Sys2Proof/Machine/Restart.lean ====
section
/-!
DEFINITION. What ends a tile's work within a beat (R42, R70, R152): its units are cut off, its waiters released, and a restart
returns streams and semaphores to the opening milestone (R124, R161, R184).
-/
namespace Sys2Proof.Machine

/-- The waiters of every semaphore of a tile are shown again. -/
def State.showWaiters (s : State) (t : Nat) : State :=
  (List.range 64).foldl (fun s k =>
    if s.bit (Reg.SEM_CNT t k) 17 || s.bit (Reg.SEM_CNT t k) 18 then s.semWaiters t k else s) s

/-- The units of a tile at a milestone: signals already issued, writes on their way and traps on their way complete, operations of the
arrays and of the MVU are cut off, a VEU operation has completed, the tile core halts, waiters are released without a take, and the
sequencer stops (R42, R70, R105, R152, R169). -/
def State.cutOff (s : State) (t : Nat) : State :=
  let h := s.hs t
  let x := s.tile t
  let s := s.setTile t { x with evs := x.evs.filter (fun e => decide (8 ≤ e.act.rank)) }
  let s := State.runEvents t eventFuel eventFuel s
  let s := ((s.landFlights t eventFuel).arrCut t 0 h).arrCut t 1 h
  let s := s.mvuCut t
  let x := s.tile t
  let s := s.setTile t { x with
    evs := [], lastWide := none, gate := none, stopped := true, overrunAt := none, endAt := none
    veu := { x.veu with accept := 0 }
    tc := { x.tc with loops := [], waitSem := none, waitEvent := none, stopped := true, next := 0, ready := [] } }
  let st := s.fld (Reg.TC_STATUS t) 0 2
  let s := if st = 1 ∨ st = 2 then s.setTcState t 0 else s
  let s := (s.setFld (Reg.TC_STATUS t) 4 3 0).wr (Reg.TC_EVENT t) 0
  let s := (s.setBit (Reg.SEQ_STATUS t) 16 false).setBit (Reg.SEQ_STATUS t) 17 false
  ((s.showWaiters t).veuStatus t).tileBusy t

/-- The freed semaphore of an outbound DRAM context at a restart (R117, R124 step 4): of the credits that the attempt took, those of rows that
it sent stay out until their acknowledgement, and acknowledgements that came in the attempt stand. -/
def State.dwrRestore (s : State) (t c : Nat) : State :=
  let e := (s.tile t).se
  let out (l : List (Nat × Nat)) : Nat := (l.filter (fun r => r.1 == c)).length
  let k := s.ctxSem t c
  if s.ctxLive t c && s.ctxOut t c && s.ctxKind t c == 0 && !(s.semBroken t k) && out e.snapDwr != out e.dwr then
    s.setSemCount t k (s.semCount t k + out e.snapDwr - out e.dwr)
  else s

/-- Streams and beat-scoped semaphores of a tile return to the opening milestone of a beat (R42, R124, R161). -/
def State.restoreTile (s : State) (openMs t : Nat) : State :=
  (List.range 8).foldl (fun s c => s.dwrRestore t c) ((s.seRestart t openMs).semRestore t)

/-- The restart of a tile: it is restored, and the packets of the abandoned attempt will be discarded (R42, R184). -/
def State.restartTile (s : State) (openMs t : Nat) : State :=
  let s := s.restoreTile openMs t
  let x := s.tile t
  s.setTile t { x with abandoned := (openMs % 4) :: x.abandoned.filter (fun b => b != openMs % 4) }

/-- A register is the CTRL register of an append region whose `pending` is set (R44). -/
def pendingReg (a : Nat) (v : Word) : Bool :=
  v.bit 31 && decide (0x10000000 ≤ a) && decide (a < 0x10000000 + 144 * 0x10000) &&
  decide (0x1800 ≤ (a - 0x10000000) % 0x10000) && decide ((a - 0x10000000) % 0x10000 < 0x2000) && a % 16 == 12

/-- `pending` of every append region of some tiles is cleared (R42, R44). -/
def State.clearPending (s : State) (tiles : Nat → Bool) : State :=
  let l := s.regs.filter (fun e => pendingReg e.1 e.2 && tiles ((e.1 - 0x10000000) / 0x10000))
  l.foldl (fun s e => s.setBit e.1 31 false) s

end Sys2Proof.Machine
end

