-- ==== Sys2Proof/Machine/Channel.lean ====
section
/-!
DEFINITION. Channels (R45 to R48, R160, R256 to R263): rows in and out, items, markers, credit, and the resolution of beat
inputs. Edge ports are in Edge.
-/
namespace Sys2Proof.Machine

/-- The column of an edge code. -/
def edgeCol (e : Nat) : Nat := if e < 32 then e % 16 else if e < 40 then 0 else 15

/-- The partition that owns an edge port (R188, R257). -/
def State.edgeOwner (s : State) (e : Nat) : Option Nat := s.colPart (edgeCol e)

/-- A partition's current generation. -/
def State.partGen (s : State) (p : Option Nat) : Nat :=
  match p with
  | some q => (match s.part q with | some x => x.gen | none => 0)
  | none => 0

/-- An edge port sends a packet to a tile with a generation (R186, R189). -/
def State.edgeSend (s : State) (e tile ty ctx arg gen : Nat) (payload : Row) : State :=
  let p := Pkt.make tile false e true ty ctx arg payload
  s.sendFromEdge e { p with part := BitVec.ofNat 4 ((s.edgeOwner e).getD 0), gen := BitVec.ofNat 8 gen }

/-! Fields of a channel. -/

/-- Whether a channel is bound. -/
def State.chanOn (s : State) (c : Nat) : Bool := s.bit (Reg.CHN_CTRL c) 0

/-- Whether a channel is outbound. -/
def State.chanOut (s : State) (c : Nat) : Bool := s.bit (Reg.CHN_CTRL c) 1

/-- The port, edge code, tile, context and item size of a channel. -/
def State.chanPort (s : State) (c : Nat) : Nat := s.fld (Reg.CHN_CTRL c) 4 7
def State.chanEdge (s : State) (c : Nat) : Nat := s.fld (Reg.CHN_LOCAL c) 0 7
def State.chanTile (s : State) (c : Nat) : Nat := s.fld (Reg.CHN_LOCAL c) 8 7
def State.chanCtx (s : State) (c : Nat) : Nat := s.fld (Reg.CHN_LOCAL c) 16 3
def State.chanItemRows (s : State) (c : Nat) : Nat := s.fld (Reg.CHN_LOCAL c) 20 12

/-- A channel's owner. -/
def State.chanOwner (s : State) (c : Nat) : Nat := s.fld (Reg.CHN_CTRL c) 16 4

/-- A channel's state: 0 closed, 1 open, 2 broken. -/
def State.chanState (s : State) (c : Nat) : Nat := s.fld (Reg.CHN_STATUS c) 0 2

/-- Credit of an outbound channel. -/
def State.chanCredit (s : State) (c : Nat) : Nat := s.fld (Reg.CHN_STATUS c) 2 13

/-- Credit reaches an outbound channel (R47, R259): rows that a restart took ahead of it are paid first (log entry 132). -/
def State.chanAddCredit (s : State) (c n : Nat) : State :=
  let x := s.chan c
  let s := if x.debt = 0 then s else s.setChan c { x with debt := x.debt - n }
  s.setFld (Reg.CHN_STATUS c) 2 13 (s.chanCredit c + (n - x.debt))

/-- `CHN_STATUS` follows an inbound channel's record. -/
def State.chanShow (s : State) (c : Nat) : State :=
  let x := s.chan c
  let s := s.setFld (Reg.CHN_STATUS c) 16 2 (min 2 x.items.length)
  if s.chanOut c then s else s.setFld (Reg.CHN_STATUS c) 2 13 x.credited

/-- The channels of a partition, ascending. -/
def State.partChans (s : State) (p : Nat) : List Nat :=
  (List.range 256).filter (fun c => s.chanOn c && s.chanOwner c == p)

/-! What a channel sends. -/

/-- A flit of a channel leaves by its port, in its addressing mode (R258, R260, R262). -/
def State.chanFlit (s : State) (c : Nat) (mk : Bool) (len : Nat) (data : List Byte) : State :=
  let r := s.rd (Reg.CHN_REMOTE c)
  let mode := s.fld (Reg.CHN_CTRL c) 2 2
  let route := if mode = 1 then r.field 8 8 else if mode = 2 then r.field 16 16 else 0
  let sub := r.field 0 8 + mk.toNat * 2 ^ 8 + len * 2 ^ 9 + route * 2 ^ 16
  s.portSend (s.chanPort c) (if mode = 0 then ftData else if mode = 1 then ftHdata else ftEdata)
    (2 + s.fld (Reg.CHN_CTRL c) 12 3) (toBytes sub 4 ++ (data ++ List.replicate 112 0).take 112) none

/-- Full data flits of an outbound channel leave (R258). -/
def State.chanFull (s : State) (c : Nat) : Nat → State
  | 0 => s
  | n + 1 =>
    let x := s.chan c
    if x.tx.length < 112 then s
    else ((s.setChan c { x with tx := x.tx.drop 112 }).chanFlit c false 112 (x.tx.take 112)).chanFull c n

/-- A row enters an outbound channel: it leaves provisionally, and the freed semaphore of the producer is signalled (R40, R117,
R160). -/
def State.chanRowOut (s : State) (c : Nat) (row : Row) : State :=
  let x := s.chan c
  let s := s.setChan c { x with tx := x.tx ++ toBytes row.toNat 1024, rowsOut := x.rowsOut + 1 }
  let s := (s.chanFull c 10).addReg (Reg.CHN_ROWS c) 1
  s.signalIn (s.chanTile c) (s.ctxSem (s.chanTile c) (s.chanCtx c)) 1 srcChan

/-- The record flit of a kind: 0 COMMIT, 1 GAP, 2 CREDIT (R259). -/
def State.chanRecord (s : State) (c kind tag rows : Nat) : State :=
  s.chanFlit c true 0 (toBytes kind 1 ++ toBytes tag 6 ++ toBytes (rows % 8192) 2)

/-- A violation of an edge port (R188, R257): logged once per port and beat. -/
def State.edgeViolation (s : State) (e : Nat) (detail : List Byte) : State :=
  let x := s.edge e
  if x.logged.contains 0x0401 then s
  else (s.setEdge e { x with logged := x.logged ++ [0x0401] }).logRec 9 e 0x0401 sevContained (s.edgeOwner e) detail

/-- Whether an edge port is joined to the lanes of a port (R20, R257): a west or east one to those of its own edge, one of a band to all. -/
def edgeJoins (e port : Nat) : Bool := decide (e < 32) || (if e < 40 then decide (port < 48) else decide (48 ≤ port))

/-- Whether a channel may move traffic at its edge port (R20, R257). -/
def State.chanOwned (s : State) (c : Nat) : Bool :=
  s.chanOn c && edgeJoins (s.chanEdge c) (s.chanPort c) && s.edgeOwner (s.chanEdge c) == some (s.chanOwner c)

/-- Traffic of a channel that its bridge does not move is dropped, counted at a port of a band, and logged as a violation (R188, R257). -/
def State.bridgeDrop (s : State) (c : Nat) (detail : List Byte) : State :=
  let e := s.chanEdge c
  (if e < 32 then s.addReg (Reg.EDGE_DROP_PART e) 1 else s).edgeViolation e detail

/-- The detail of a violation by traffic that comes in no packet: what R188 reads from a header is open. -/
def State.bridgeDetail (s : State) (c : Nat) : List Byte :=
  toBytes (0x80 + s.chanEdge c) 1 ++ (s.openDetail 0x0401).drop 1

/-- A marker or a credit record that its bridge does not move (R257). -/
def State.recordDrop (s : State) (c : Nat) : State := (s.bridgeDrop c (s.bridgeDetail c)).stepFree

/-- A marker closes the beat's item of an outbound channel behind its data (R45, R259), where its bridge moves it (R257). -/
def State.chanMarker (s : State) (c : Nat) (gap : Bool) (tag : Nat) : State :=
  if s.chanState c = 1 ∧ !s.chanOwned c then (s.setChan c { s.chan c with tx := [], rowsOut := 0 }).recordDrop c
  else if s.chanState c = 1 then
    let x := s.chan c
    let s := if x.tx.isEmpty then s else s.chanFlit c false x.tx.length x.tx
    let s := s.chanRecord c gap.toNat tag x.rowsOut
    s.setChan c { x with tx := [], rowsOut := 0 }
  else s

/-- CREDIT records leave for the room that the consumer granted: at most twice the item size is at the producer or held
(R47, R259; log entry 36). -/
def State.chanGiveCredit (s : State) (c : Nat) : State :=
  let x := s.chan c
  let waiting := (x.rows.filter (fun r => r.2 == 0)).length
  let r := min (x.avail - (waiting + x.credited)) (2 * s.chanItemRows c - (x.credited + x.rows.length))
  if r = 0 ∨ s.chanState c ≠ 1 then s
  else ((s.setChan c { x with credited := x.credited + r }).chanRecord c 2 0 r).chanShow c

/-! What a channel receives. -/

/-- A row of a channel is pushed to its consumer (R180, R257). -/
def State.chanPush (s : State) (c : Nat) (row : Row) : State :=
  let e := s.chanEdge c
  let x := s.chan c
  (s.setChan c { x with k := x.k + 1 }).edgeSend e (s.chanTile c) ptPush (s.chanCtx c) (x.k % 2 ^ 32)
    (s.partGen (s.edgeOwner e)) row

/-- The first row that waits is marked as pushed. -/
def markPushed : List (Row × Nat) → List (Row × Nat)
  | [] => []
  | x :: r => if x.2 = 0 then (x.1, 1) :: r else x :: markPushed r

/-- Rows that wait are pushed while there is room. -/
def State.chanDrain (s : State) (c : Nat) : Nat → State
  | 0 => s
  | n + 1 =>
    let x := s.chan c
    match x.rows.find? (fun r => r.2 == 0) with
    | none => s
    | some r =>
      if x.avail = 0 then s
      else ((s.setChan c { x with rows := markPushed x.rows, avail := x.avail - 1 }).chanPush c r.1).chanDrain c n

/-- CREDIT of the consumer's stream engine reaches an inbound channel (R180, R259). -/
def State.chanRoom (s : State) (c n : Nat) : State :=
  let x := s.chan c
  ((s.setChan c { x with avail := x.avail + n }).chanDrain c (x.rows.length + 1)).chanGiveCredit c

/-- Whether a partition discards what arrives beyond its held items (R48). -/
def State.discards (s : State) (c : Nat) : Bool :=
  let st := s.pstate (s.chanOwner c)
  (st == psFrozen || st == psRecovering) && decide (2 ≤ (s.chan c).items.length)

/-- While a channel's partition discards items (R48), the producer has credit for a whole item, so that it never stalls: the credit that a
discarded item used returns with the item. -/
def State.chanHoldCredit (s : State) (c : Nat) : State :=
  let x := s.chan c
  let r := s.chanItemRows c - x.credited
  if !(s.chanOut c) && s.discards c && s.chanState c == 1 && r != 0 then
    ((s.setChan c { x with credited := x.credited + r }).chanRecord c 2 0 r).chanShow c
  else s

/-- A row of an inbound channel is complete (R47, R48, R257, R258). -/
def State.chanRowIn (s : State) (c : Nat) (row : Row) : State :=
  let x := s.chan c
  let skip := if x.rowsIn = 0 then s.discards c else x.skip
  let s := s.addReg (Reg.CHN_ROWS c) 1
  let x := { x with rowsIn := x.rowsIn + 1, skip := skip, credited := x.credited - 1 }
  if skip then (s.setChan c x).chanShow c
  else if s.chanOwned c then
    ((s.setChan c { x with rows := x.rows ++ [(row, 0)] }).chanDrain c 1).chanShow c
  else ((s.setChan c x).recordDrop c).chanShow c

/-- Complete rows are taken from the bytes of an inbound channel (R258). -/
def State.chanRows (s : State) (c : Nat) : Nat → State
  | 0 => s
  | n + 1 =>
    let x := s.chan c
    if x.bytes.length < 1024 then s
    else
      let row : Row := BitVec.ofNat 8192 (ofBytes (x.bytes.take 1024))
      ((s.setChan c { x with bytes := x.bytes.drop 1024 }).chanRowIn c row).chanRows c n

/-- Row data of a flit reaches an inbound channel (R258). -/
def State.chanData (s : State) (c len : Nat) (data : List Byte) : State :=
  let x := s.chan c
  (s.setChan c { x with bytes := x.bytes ++ data.take len }).chanRows c 1

/-! Items (R45, R46). -/

/-- The gap at the head of a channel is retired (R46, R259): the rows of its item that were pushed leave the consumer's ring, and room
that was granted for those that will not come is room again. `again` says that the attempt's pushes are undone (R124). -/
def State.chanRetireGap (s : State) (c : Nat) (again : Bool) : State :=
  let x := s.chan c
  match x.items with
  | [] => s
  | i :: r =>
    let mine := x.rows.take i.rows
    let undone := if again then (mine.filter (fun q => q.2 == 1)).length else 0
    let pushed := (mine.filter (fun q => q.2 != 0)).length - undone
    let s := s.setChan c { x with items := r, rows := x.rows.drop i.rows, avail := x.avail + undone }
    (s.seGap (s.chanTile c) (s.chanCtx c) pushed).chanGiveCredit c

/-- Stale gaps at the head are dropped and counted (R46). -/
def State.dropStale (s : State) (c e : Nat) : Nat → State
  | 0 => s
  | n + 1 =>
    let x := s.chan c
    match x.items with
    | i :: _ =>
      if i.gap && msAhead e i.tag then
        ((s.chanRetireGap c false).addReg (Reg.PART_GAP_ABSORBED (s.chanOwner c)) 1).dropStale c e n
      else s
    | [] => s

/-- A gap aborts the beat of a partition that opened at a milestone (R46): every tile stops issuing, restores its state as for a restart
(R42) and parks at END; the milestone will close the beat as GAP. What it used are the handshakes until then, or until END (R37). -/
def State.gapAbort (s : State) (p openMs : Nat) : State :=
  let ts := s.partTiles p
  let s := s.updPart p (fun x => { x with gapAbort := true })
  let s := ts.foldl (fun s t =>
    let x := s.tile t
    let h := s.hs t
    let s := (s.cutOff t).restoreTile openMs t
    let s := s.setTile t { s.tile t with
      done := true, doneHs := if x.done then x.doneHs else h, endAt := some (match x.endAt with | some k => k | none => h) }
    (s.setBit (Reg.SEQ_BEAT_STATUS t) 0 true).setBit (Reg.SEQ_BEAT_STATUS t) 2 true) s
  s.clearPending (fun t => ts.contains t)

/-- Whether a channel is a beat input of its owner (R46). -/
def State.isBeatIn (s : State) (c : Nat) : Bool := s.bit (Reg.PART_BEAT_IN (s.chanOwner c) (c / 32)) (c % 32)

/-- A beat-input channel resolves (R46): stale gaps go, a data item is consumed, the expected gap aborts the beat. -/
def State.chanResolve (s : State) (c : Nat) : State :=
  let p := s.chanOwner c
  match s.part p with
  | none => s
  | some q =>
    if s.pstate p = psRunning ∧ q.beatOpen ∧ s.chanOn c ∧ !(s.chanOut c) ∧ s.chanState c = 1 ∧ s.isBeatIn c ∧ !(s.chan c).resolved then
      let e := (q.openMs + 2 ^ 48 - 1) % 2 ^ 48
      let s := s.dropStale c e ((s.chan c).items.length + 1)
      let x := s.chan c
      match x.items with
      | [] => s.chanShow c
      | i :: r =>
        if !i.gap then
          let s := s.setChan c { x with items := { i with consumed := true } :: r, resolved := true }
          (s.seItem (s.chanTile c) (s.chanCtx c) i.rows).chanShow c
        else if i.tag = e then
          let s := s.setChan c { x with items := { i with consumed := true } :: r, resolved := true }
          ((s.gapAbort p q.openMs)).chanShow c
        else s.chanShow c
  else s.chanShow c

/-- A marker closes an item of an inbound channel (R45, R46, R48): it joins the items held, or is discarded with its rows while
the partition is FROZEN or RECOVERING and two items are held; a gap is dropped and counted while it rests in a rung (R335). -/
def State.chanItem (s : State) (c : Nat) (gap : Bool) (tag rows : Nat) : State :=
  let x := s.chan c
  let skip := if x.rowsIn = 0 then s.discards c else x.skip
  let x := { x with rowsIn := 0, skip := false, bytes := [] }
  if skip then
    let s := (s.setChan c { x with credited := x.credited + rows }).addReg (Reg.PART_HOLD_DROP (s.chanOwner c)) 1
    (if rows = 0 then s else s.chanRecord c 2 0 rows).chanShow c
  else if gap && s.rests (s.chanOwner c) then
    let pushed := ((x.rows.drop (x.rows.length - rows)).filter (fun q => q.2 != 0)).length
    let s := (s.setChan c { x with rows := x.rows.take (x.rows.length - rows) }).addReg (Reg.PART_GAP_ABSORBED (s.chanOwner c)) 1
    ((s.seGap (s.chanTile c) (s.chanCtx c) pushed).chanGiveCredit c).chanShow c
  else
    let s := s.setChan c { x with items := x.items ++ [⟨gap, tag, rows, false⟩] }
    ((s.chanResolve c).chanHoldCredit c).chanShow c

/-! Milestones and resets. -/

/-- A beat closes at an inbound channel: at COMMIT the consumed item is retired and pushed rows count as older; at GAP a consumed gap is
retired; otherwise the item is kept, and the rows pushed in the beat are pushed again by the retry (R40, R46, R47, R124). -/
def State.chanClose (s : State) (c outcome : Nat) : State :=
  let x := s.chan c
  let x := { x with resolved := false }
  let used : Bool := match x.items with | i :: _ => i.consumed | [] => false
  let gap : Bool := match x.items with | i :: _ => i.gap | [] => false
  let older (l : List (Row × Nat)) : List (Row × Nat) := l.map (fun q => (q.1, if q.2 = 1 then 2 else q.2))
  let s :=
    if outcome = 0 then
      if used then s.setChan c { x with items := x.items.drop 1, rows := older (x.rows.drop ((x.items.headD ⟨false, 0, 0, false⟩).rows)) }
      else s.setChan c { x with rows := older x.rows }
    else
      let s := s.setChan c { x with items := x.items.map (fun i => { i with consumed := false }) }
      if outcome = 2 ∧ used ∧ gap then s.chanRetireGap c true else s
  s.chanShow c

/-- The rows that the abandoned attempt was sent are pushed again for the retry (R124; log entry 37). -/
def State.chanRepush (s : State) (c : Nat) : State :=
  ((s.chan c).rows.filter (fun r => r.2 == 1)).foldl (fun s r => s.chanPush c r.1) s

/-- The consumer's context reopened with fill 0: every held row waits for room again (R361 step 7; log entry 37). -/
def State.chanReopened (s : State) (c : Nat) : State :=
  let x := s.chan c
  (s.setChan c { x with
    rows := x.rows.map (fun r => (r.1, 0)), avail := 0, k := 0, resolved := false, tx := [], rowsOut := 0,
    items := x.items.map (fun i => { i with consumed := false }) }).chanShow c

/-- A channel becomes broken (R254): its semaphores become Broken, and its context takes a stream fault (R126, R166, R167). -/
def State.chanBreak (s : State) (c : Nat) : State :=
  if s.chanOn c && s.chanState c != 2 then
    let s := s.wr (Reg.CHN_STATUS c) 2
    let s := s.setChan c { Chan.reset with unreset := s.partTiles (s.chanOwner c) }
    let s := s.breakChan (s.chanOwner c) c 2
    (List.range 8).foldl (fun s k =>
      let t := s.chanTile c
      if s.ctxKind t k = 3 ∧ s.fld (Reg.SE_CTX_SRC_LO t k) 0 8 = c then s.streamFault t k 3 (s.ctxAddr t k) else s) s
  else s

/-- CHANNEL_ITEM_CONSUME (R46, R117, R155, R160). -/
def execChannelItemConsume (chan : Nat) (s : State) : Host.Outcome State Fault Refusal := .next (s.chanResolve chan)

end Sys2Proof.Machine
end

