-- ==== Sys2Proof/Machine/Fabric.lean ====
section
/-!
DEFINITION. The fabric (R194 to R199, R209): logic elements, DSP slices, block RAMs, clocks, boundary switches, GPIO banks, and the three
stages of a release. What a loaded design feeds these parts is the meaning of routing bits, which the spec leaves to Reastost: it is
a free value (log entry 98); what each part does with it is R194 to R197.
-/
namespace Sys2Proof.Machine

/-- A sector's record. -/
def State.sect (s : State) (k : Nat) : SectSt := SMap.get s.sects SectSt.reset k

/-- The state with a sector's record replaced. -/
def State.setSect (s : State) (k : Nat) (x : SectSt) : State := { s with sects := SMap.set s.sects k x }

/-! Logic elements (R194). -/

/-- Clusters, DSP slices and block RAMs of a sector. -/
def fabClusters : Nat := 3520
def fabDsps : Nat := 320
def fabBrams : Nat := 288

/-- What a logic element is fed at an edge: the table of its LUT, whether it is fractured, the inputs, the bypass inputs and which flip-flops
take them, clock enable, reset, and the value that a reset gives. -/
structure LeIn where
  table : BitVec 64
  split : Bool
  x : BitVec 6
  bypass : BitVec 2
  useBypass : BitVec 2
  enable : Bool
  clear : Bool
  init : BitVec 2
  mem : Bool
  write : Bool
  data : Bool
  deriving DecidableEq, Repr

/-- The table of the LUT: that of the configuration, or, of a LUT used as a memory, what was written to it. -/
def LeIn.bits (f : LeIn) (m : BitVec 64) : BitVec 64 := if f.mem then m else f.table

/-- The two outputs of the LUT: one function of six inputs, or two functions of the same five; `m` are the contents of a LUT memory. -/
def LeIn.lut (f : LeIn) (m : BitVec 64) : BitVec 2 :=
  let t := f.bits m
  let a := if f.split then t.getLsbD (f.x.toNat % 32) else t.getLsbD f.x.toNat
  let b := if f.split then t.getLsbD (32 + f.x.toNat % 32) else t.getLsbD f.x.toNat
  BitVec.ofNat 2 (a.toNat + 2 * b.toNat)

/-- The contents of a LUT memory after an edge; `writes` says that the write enables are released (R209). -/
def LeIn.store (f : LeIn) (writes : Bool) (m : BitVec 64) : BitVec 64 :=
  if f.mem && f.write && writes then
    (if f.data then m ||| BitVec.ofNat 64 (2 ^ f.x.toNat) else m &&& ~~~(BitVec.ofNat 64 (2 ^ f.x.toNat)))
  else m

/-- The flip-flops of a logic element after an edge; `held` says that the reset spines are asserted. -/
def LeIn.next (f : LeIn) (held : Bool) (m : BitVec 64) (q : BitVec 2) : BitVec 2 :=
  if f.clear || held then f.init
  else if f.enable then (f.bypass &&& f.useBypass) ||| (f.lut m &&& ~~~f.useBypass)
  else q

/-- The inputs of logic element `i` of a sector, from the signals of an edge. -/
def leIn (f : Nat → Nat) (i : Nat) : LeIn :=
  let c := f (8 * i + 2)
  ⟨BitVec.ofNat 64 (f (8 * i)), c.testBit 0, BitVec.ofNat 6 (f (8 * i + 1)), BitVec.ofNat 2 (c / 2), BitVec.ofNat 2 (c / 8),
    c.testBit 5, c.testBit 6, BitVec.ofNat 2 (c / 128), c.testBit 9, c.testBit 10, c.testBit 11⟩

/-- The 32 flip-flops of a cluster after an edge. -/
def clusterNext (f : Nat → Nat) (held : Bool) (lut : SMap (BitVec 64)) (c : Nat) (q : BitVec 32) : BitVec 32 :=
  BitVec.ofNat 32 ((List.range 16).foldl (fun n i =>
    n + ((leIn f (16 * c + i)).next held (SMap.get lut 0 (16 * c + i)) (BitVec.ofNat 2 (q.toNat / 4 ^ i))).toNat * 4 ^ i) 0)

/-- The carry bits of a cluster: the chain runs through the 16 logic elements from the carry that the cluster above gives. -/
def clusterCarry (f : Nat → Nat) (c : Nat) (cin : Bool) : BitVec 16 :=
  let r := (List.range 16).foldl (fun (z : Nat × Bool) i =>
    let o := (f (8 * (16 * c + i) + 3 + z.2.toNat)).testBit 0
    (z.1 + o.toNat * 2 ^ i, o)) (0, cin)
  BitVec.ofNat 16 r.1

/-- The carry chains of a sector: each cluster's runs on into the cluster below it. -/
def carries (f : Nat → Nat) (n : Nat) : SMap (BitVec 16) :=
  ((List.range n).foldl (fun (z : SMap (BitVec 16) × Bool) c =>
    let v := clusterCarry f c z.2
    (z.1 ++ [(c, v)], v.getLsbD 15)) ([], (f 5).testBit 0)).1

/-! DSP slices (R195). -/

/-- What a slice is fed at an edge: the operands, its modes, whether it takes part in the edge, and its output's shift and width. -/
structure DspIn where
  a : BitVec 24
  b : BitVec 24
  d : BitVec 24
  pre : Bool
  sub : Bool
  sat : Bool
  cascade : Bool
  enable : Bool
  sh : Nat
  width : Nat
  deriving DecidableEq, Repr

/-- The pre-adder: its sum wrapped to 24 bits, and whether the sum does not fit; bypassed, the operand itself. -/
def DspIn.preAdd (f : DspIn) : BitVec 24 × Bool :=
  if f.pre then (f.a + f.d, decide ((f.a + f.d).toInt ≠ f.a.toInt + f.d.toInt)) else (f.a, false)

/-- An exact sum fitted to a number of bits: it saturates, or keeps the low bits. -/
def fitInt (sat : Bool) (w : Nat) (v : Int) : Int :=
  if sat then max (-(2 ^ (w - 1))) (min (2 ^ (w - 1) - 1) v) else (BitVec.ofInt w v).toInt

/-- v / 2^sh rounded to the nearest integer, ties to even. -/
def dspConvergent (v : Int) (sh : Nat) : Int :=
  let q := v / 2 ^ sh
  let r := 2 * (v - q * 2 ^ sh)
  if r < 2 ^ sh then q else if 2 ^ sh < r then q + 1 else if q % 2 = 0 then q else q + 1

/-- A slice after an edge: acc ± (a + d) × b, or acc ± a × b; a slice that cascades starts from the accumulator of the slice above it. -/
def DspIn.next (f : DspIn) (writes : Bool) (above : BitVec 64) (x : DspSt) : DspSt :=
  let p := f.preAdd
  let m := p.1.toInt * f.b.toInt
  let base := (if f.cascade then above else x.acc).toInt
  let acc := if f.enable && writes then BitVec.ofInt 64 (fitInt f.sat 64 (if f.sub then base - m else base + m)) else x.acc
  ⟨acc, p.2, fitInt f.sat f.width (dspConvergent acc.toInt f.sh)⟩

/-- The inputs of slice `i`, from the signals of an edge: sh is 0 to 48 and the width 18 to 48. -/
def dspIn (f : Nat → Nat) (i : Nat) : DspIn :=
  let n := 8 * 16 * fabClusters + 4 * i
  let c := f (n + 3)
  ⟨BitVec.ofNat 24 (f n), BitVec.ofNat 24 (f (n + 1)), BitVec.ofNat 24 (f (n + 2)), c.testBit 0, c.testBit 1, c.testBit 2, c.testBit 3,
    c.testBit 4, c / 32 % 49, 18 + c / 2048 % 31⟩

/-! Block RAMs (R196). -/

/-- The width of a word and the number of words in the seven modes. -/
def bramWidth (mode : Nat) : Nat := [1, 2, 4, 9, 18, 36].getD mode 72
def bramDepth (mode : Nat) : Nat := [32768, 16384, 8192, 4096, 2048, 1024].getD mode 512

/-- What a port of a block RAM is fed at an edge of its clock. -/
structure BramReq where
  write : Bool
  addr : Nat
  data : BitVec 72
  deriving DecidableEq, Repr

/-- The word at an address, and the contents with a word replaced. DESIGN CHOICE (log entry 98): word i stands at bits i × width. -/
def bramRead (mode : Nat) (v : BitVec 36864) (addr : Nat) : BitVec 72 :=
  BitVec.ofNat 72 (v.toNat / 2 ^ (addr * bramWidth mode) % 2 ^ bramWidth mode)
def bramWrite (mode : Nat) (v : BitVec 36864) (addr : Nat) (d : BitVec 72) : BitVec 36864 :=
  let w := bramWidth mode
  let lo := addr * w
  BitVec.ofNat 36864 (v.toNat % 2 ^ lo + d.toNat % 2 ^ w * 2 ^ lo + v.toNat / 2 ^ (lo + w) * 2 ^ (lo + w))

/-- The columns of odd weight that a check bit does not take: 120 of them. -/
def oddColumns : List (BitVec 8) :=
  ((List.range 256).filter (fun n => ((List.range 8).filter (fun i => n.testBit i)).length % 2 == 1 &&
    !([1, 2, 4, 8, 16, 32, 64, 128].contains n))).map (fun n => BitVec.ofNat 8 n)

/-- `n` columns taken out of a list, one after another. -/
def pickColumns : Nat → Nat → List (BitVec 8) → List (BitVec 8)
  | 0, _, _ => []
  | n + 1, i, l =>
    let k := Config.bramColumn i % l.length
    l.getD k 0 :: pickColumns n (i + 1) (l.eraseIdx k)

/-- The columns of the SECDED code: of the 64 data bits, then of the eight check bits. They are distinct and of odd weight, so that a
syndrome of one error names it, and that of two, which has even weight, names none (R196); which they are is open (log entry 98). -/
def secdedColumns : List (BitVec 8) := pickColumns 64 0 oddColumns ++ (List.range 8).map (fun i => BitVec.ofNat 8 (2 ^ i))

/-- The syndrome of a word of 72 bits. -/
def secdedSyndrome (v : BitVec 72) : BitVec 8 :=
  secdedColumns.zipIdx.foldl (fun a x => if v.getLsbD x.2 then a ^^^ x.1 else a) 0

/-- A word with its SECDED check bits in [71:64]. -/
def secdedWord (d : BitVec 64) : BitVec 72 := d.setWidth 72 ||| ((secdedSyndrome (d.setWidth 72)).setWidth 72 <<< 64)

/-- A word read under SECDED: a single-bit error is corrected, a double-bit error is flagged. -/
def secdedRead (v : BitVec 72) : BitVec 72 × Bool :=
  let y := secdedSyndrome v
  if y = 0 then (v, false)
  else match secdedColumns.findIdx? (fun c => c == y) with
    | some i => (v ^^^ BitVec.ofNat 72 (2 ^ i), false)
    | none => (v, true)

/-- What a port shows after an edge: a port that reads shows the contents before the edge (R196); one that does not keeps its output. -/
def bramPort (mode : Nat) (secded : Bool) (v : BitVec 36864) (r : Option BramReq) (old : BitVec 72 × Bool) : BitVec 72 × Bool :=
  match r with
  | some q => if q.write then old else if secded && mode == 6 then secdedRead (bramRead mode v q.addr) else (bramRead mode v q.addr, false)
  | none => old

/-- The contents after an edge with at most one request of each port; two writes of one word leave an open value in it. -/
def bramStore (mode : Nat) (secded writes : Bool) (v : BitVec 36864) (a b : Option BramReq) (clash : BitVec 72) : BitVec 36864 :=
  let put (v : BitVec 36864) (q : BramReq) : BitVec 36864 :=
    bramWrite mode v q.addr (if secded && mode == 6 then secdedWord (q.data.setWidth 64) else q.data)
  let one (v : BitVec 36864) (r : Option BramReq) : BitVec 36864 :=
    match r with | some q => if q.write && writes then put v q else v | none => v
  match a, b with
  | some p, some q =>
    if p.write && q.write && p.addr == q.addr && writes then bramWrite mode v p.addr clash else one (one v a) b
  | _, _ => one (one v a) b

/-- The requests of block RAM `i`, from the signals of an edge: mode, SECDED, and a request of each port whose clock has an edge. -/
def bramIn (f : Nat → Nat) (i : Nat) : Nat × Bool × Option BramReq × Option BramReq :=
  let n := 8 * 16 * fabClusters + 4 * fabDsps + 8 * i
  let c := f n
  let mode := c / 16 % 7
  let req (on wr : Nat) (k : Nat) : Option BramReq :=
    if c.testBit on then some ⟨c.testBit wr, f (n + k) % bramDepth mode, BitVec.ofNat 72 (f (n + k + 1))⟩ else none
  (mode, c.testBit 0, req 1 2 1, req 3 12 3)

/-- The contents of block RAM `i` of a sector: its nine frames (R220). -/
def bramBits (frames : SMap (BitVec 4096)) (k i : Nat) : BitVec 36864 :=
  BitVec.ofNat 36864 ((List.range 9).foldl (fun n j => n + (SMap.get frames 0 (k * 2 ^ 15 + 2 ^ 13 + 9 * i + j)).toNat * 2 ^ (4096 * j)) 0)

/-- The frames with the contents of block RAM `i` of a sector replaced. -/
def setBramBits (frames : SMap (BitVec 4096)) (k i : Nat) (v : BitVec 36864) : SMap (BitVec 4096) :=
  (List.range 9).foldl (fun m j =>
    let a := k * 2 ^ 15 + 2 ^ 13 + 9 * i + j
    let w := BitVec.ofNat 4096 (v.toNat / 2 ^ (4096 * j))
    if w = 0 then SMap.erase m a else SMap.set m a w) frames

/-! An edge of the clocks of a sector. -/

/-- A sector and the block RAM frames after an edge. -/
def SectSt.edge (f : Nat → Nat) (k : Nat) (x : SectSt) (frames : SMap (BitVec 4096)) : SectSt × SMap (BitVec 4096) :=
  let held := !x.live
  let ff := (List.range fabClusters).map (fun c => (c, clusterNext f held x.lut c (SMap.get x.ff 0 c)))
  let lut := (List.range (16 * fabClusters)).map (fun i => (i, (leIn f i).store x.writes (SMap.get x.lut 0 i)))
  let dsp := (List.range fabDsps).map (fun i =>
    let above : BitVec 64 := if i = 0 then 0 else (SMap.get x.dsp DspSt.reset (i - 1)).acc
    (i, (dspIn f i).next x.writes above (SMap.get x.dsp DspSt.reset i)))
  let bram := (List.range fabBrams).map (fun i =>
    let q := bramIn f i
    let v := bramBits frames k i
    let o := SMap.get x.bram BramSt.reset i
    let a := bramPort q.1 q.2.1 v q.2.2.1 (o.outA, o.badA)
    let b := bramPort q.1 q.2.1 v q.2.2.2 (o.outB, o.badB)
    (i, (⟨a.1, b.1, a.2, b.2⟩ : BramSt)))
  let frames := (List.range fabBrams).foldl (fun m i =>
    let q := bramIn f i
    let v := bramBits frames k i
    let w := bramStore q.1 q.2.1 x.writes v q.2.2.1 q.2.2.2 (BitVec.ofNat 72 (f (8 * 16 * fabClusters + 4 * fabDsps + 8 * i + 5)))
    if w = v then m else setBramBits m k i w) frames
  ({ x with lut := lut, ff := ff, carry := carries f fabClusters, dsp := dsp, bram := bram }, frames)

/-- An edge of a column's band-crossing lines: each line is registered at both ends (R194); which end drives it is the design's. -/
def bandEdge (f : Nat → Nat) (x : BitVec 256 × BitVec 256) : BitVec 256 × BitVec 256 :=
  let south := BitVec.ofNat 256 (f 6)
  let new := BitVec.ofNat 256 (f 7)
  ((new &&& south) ||| (x.2 &&& ~~~south), (x.1 &&& south) ||| (new &&& ~~~south))

/-! PLLs and spines (R197). -/

/-- The columns of the owner of a PLL: a column's own, or those that the I/O ring joins to its bank. -/
def State.pllOwner (s : State) (i : Nat) : Option Nat :=
  if i < 16 then s.colPart i
  else (s.parts.find? (fun p => p.2.gpio.getLsbD ((i - 16) / 2))).map (fun p => p.1)

/-- Whether the scope of a partition, or what nobody owns, rests in a rung of at least `r`, or the device does (R333). -/
def State.rungFrom (s : State) (p : Option Nat) (r : Nat) : Bool :=
  decide (r ≤ s.devRung) ||
  (match p with
   | some p => (match s.part p with | some x => decide (r ≤ x.rung) | none => false)
   | none => false)

/-- Whether a rung or its entry keeps the spines of a sector at their low level (R333, R337). -/
def State.sectRests (s : State) (k : Nat) : Bool := s.rungFrom (s.colPart (k % 16)) 1 || s.bit Reg.PWR_STATUS 4

/-- What drives a spine (R197). -/
inductive SpineSrc where
  | pll (i out : Nat)
  | pin (bank pin : Nat)
  | signal
  deriving DecidableEq, Repr

/-- What the configuration of a sector lets drive a spine: its encoding in the frames is the design's (log entry 98). -/
def State.spineSrc (s : State) (k i : Nat) : SpineSrc :=
  let n := Config.spine (fun f => SMap.get s.cfg.frames 0 (k * 2 ^ 15 + f)) i
  match n % 3 with
  | 0 => .pll (n / 3 % 24) (n / 72 % 4)
  | 1 => .pin (n / 3 % 4) (n / 12 % 60)
  | _ => .signal

/-- Whether a source of the sector's owner has edges: a PLL that is locked, a pin of the owner's banks, a signal of its design. -/
def State.srcRuns (s : State) (k : Nat) (c : SpineSrc) : Bool :=
  match c with
  | .pll i _ => (SMap.get s.plls PllSt.reset i).locked && s.pllOwner i == s.colPart (k % 16)
  | .pin b _ => (match s.colPart (k % 16) with
    | some p => (match s.part p with | some x => x.gpio.getLsbD b | none => false)
    | none => false)
  | .signal => true

/-- Whether some spine of a sector is not held at its low level: neither gated for a readback (R211) nor by a rung (R333). -/
def State.sectRuns (s : State) (k : Nat) : Bool := (s.sect k).gated != BitVec.allOnes 32 && !(s.sectRests k)

/-- Whether the clocks of a sector run: a spine that is not held has a source with edges. -/
def State.sectClocked (s : State) (k : Nat) : Bool :=
  s.sectRuns k && (List.range 32).any (fun i => !((s.sect k).gated.getLsbD i) && s.srcRuns k (s.spineSrc k i))

/-- The PLLs of a rung's scope are off in L3 and L4, and lock again as it is left (R333, R337). -/
def State.pllRungs (s : State) : State :=
  s.plls.foldl (fun (s : State) x =>
    let off := s.rungFrom (s.pllOwner x.1) 3
    let p := x.2
    let q : PllSt := if off then { p with locked := false, held := p.held || p.locked } else { p with locked := p.locked || p.held, held := false }
    if q = p then s
    else
      let s : State := { s with plls := SMap.set s.plls x.1 q }
      if x.1 < 16 then (s.setBit (Reg.FAB_SECT_PLL x.1) 0 q.locked).setBit (Reg.FAB_SECT_PLL (16 + x.1)) 0 q.locked else s) s

/-- The design in the sectors of a mask and in a partition's banks has run for a number of edges. -/
def State.fabEdges (s : State) (cols : List Nat) (banks : BitVec 4) : Nat → State
  | 0 => s
  | n + 1 =>
    let s := s.fabEdges cols banks n
    let f (i : Nat) : Nat := Config.fabric s.free n i
    let s := cols.foldl (fun s c => [c, 16 + c].foldl (fun s k =>
      let x := s.sect k
      if s.sectClocked k then
        let r := x.edge (fun i => f (64 * i + k)) k s.cfg.frames
        { s.setSect k r.1 with cfg := { s.cfg with frames := r.2 } }
      else s) s) s
    let s : State := { s with bands := cols.foldl (fun m c =>
      SMap.set m c (bandEdge (fun i => f (64 * i + 32 + c)) (SMap.get m (0, 0) c))) s.bands }
    let on := s.gpioOn &&& banks
    let mask := (List.range 4).foldl (fun m b => if on.getLsbD b then m ||| BitVec.ofNat 240 ((2 ^ 60 - 1) * 2 ^ (60 * b)) else m) 0
    { s with gpio := (s.gpio &&& ~~~mask) ||| (BitVec.ofNat 240 (f 63) &&& mask) }

/-- The design of a partition has run since it was last looked at: for how many edges is open. -/
def State.fabRun (s : State) (p : Nat) : State :=
  match s.part p with
  | some x => (s.fabEdges x.cols x.gpio (Config.fabric s.free 0 0)).stepFree
  | none => s

/-! Ownership (R198). -/

/-- PART_CREATE opens the switches of the lines that leave the partition's columns, and joins its banks to them; those between its own
columns, which an earlier partition may have left open, are closed. -/
def State.openBoundary (s : State) (x : Part) : State :=
  let left : BitVec 15 := if x.firstCol = 0 then 0 else BitVec.ofNat 15 (2 ^ (x.firstCol - 1))
  let right : BitVec 15 := if 15 ≤ x.lastCol then 0 else BitVec.ofNat 15 (2 ^ x.lastCol)
  let inner : BitVec 15 := (List.range 15).foldl (fun m i => if x.firstCol ≤ i ∧ i < x.lastCol then m ||| BitVec.ofNat 15 (2 ^ i) else m) 0
  let cols := x.cols.foldl (fun m c => m + 2 ^ c) 0
  { s with
    boundary := (s.boundary &&& ~~~inner) ||| left ||| right
    ring := (List.range 4).foldl (fun (r : BitVec 64) b =>
      let bank : BitVec 64 := BitVec.ofNat 64 (65535 * 2 ^ (16 * b))
      if x.gpio.getLsbD b then (r &&& ~~~bank) ||| BitVec.ofNat 64 (cols * 2 ^ (16 * b))
      else r &&& ~~~(BitVec.ofNat 64 (cols * 2 ^ (16 * b)))) s.ring }

/-- Whether a signal can cross from a column's sectors to another's: no boundary switch between them is open. -/
def State.colsJoined (s : State) (c d : Nat) : Bool :=
  (List.range 15).all (fun i => !(decide (min c d ≤ i) && decide (i < max c d) && s.boundary.getLsbD i))

/-- Whether the I/O ring joins a bank to a column's sectors. -/
def State.bankJoined (s : State) (b c : Nat) : Bool := s.ring.getLsbD (16 * b + c)

/-! GPIO banks (R199). -/

/-- What a pin of a bank drives: nothing, so that its pull-down holds it, or a level. -/
def State.pinDrives (s : State) (b i : Nat) : Option Bool := if s.gpioOn.getLsbD b then some (s.gpio.getLsbD (60 * b + i)) else none

/-- The outputs of the banks of a mask are enabled or return to high impedance. -/
def State.gpioSet (s : State) (banks : BitVec 4) (on : Bool) : State :=
  (List.range 4).foldl (fun s b =>
    if banks.getLsbD b && s.gpioOn.getLsbD b != on then
      ({ s with gpioOn := if on then s.gpioOn ||| BitVec.ofNat 4 (2 ^ b) else s.gpioOn &&& ~~~(BitVec.ofNat 4 (2 ^ b)) } : State).emit
        (.gpioBank b on)
    else s) s

/-! The staged release (R209). -/

/-- The sectors of a partition with their write enables and reset spines set. -/
def State.setRelease (s : State) (x : Part) (writes live : Bool) : State :=
  x.cols.foldl (fun s c => [c, 16 + c].foldl (fun s k => s.setSect k { s.sect k with writes := writes, live := live }) s) s

/-- A partition passes to a stage of its release: the design has run until now; outputs are enabled from stage 1 on, write enables released
from stage 2 on, and the reset spines deasserted at stage 3. -/
def State.toStage (s : State) (p k : Nat) : State :=
  match s.part p with
  | some x =>
    let s := (s.fabRun p).gpioSet x.gpio (decide (1 ≤ k))
    (s.setRelease x (decide (2 ≤ k)) (decide (3 ≤ k))).setFld (Reg.FAB_PART_RELCTL p) 8 2 k
  | none => s

/-- The stages in reverse order from a stage down to 0: resets first, then write enables, then outputs. -/
def State.stagesDown (s : State) (p : Nat) : Nat → State
  | 0 => s
  | n + 1 => (s.toStage p n).stagesDown p n

/-- Every spine of a partition's sectors is gated at its low level, or ungated (R197, R211); `FAB_SECT_STATUS` shows it. -/
def State.gateSpines (s : State) (x : Part) (gate : Bool) : State :=
  x.cols.foldl (fun s c => [c, 16 + c].foldl (fun s k =>
    (s.setSect k { s.sect k with gated := if gate then BitVec.allOnes 32 else 0 }).setBit (Reg.FAB_SECT_STATUS k) 6 gate) s) s

/-- The stages of a release from the one that a partition has reached up to 3 (R209). -/
def State.stagesUp (s : State) (p : Nat) : State :=
  (List.range 3).foldl (fun (s : State) k => if s.relStage p ≤ k then s.toStage p (k + 1) else s) s

/-- Whether a PLL can take a reference: a pin of a bank of its owner, which the I/O ring joins to the owner's columns, or the 10 MHz. -/
def State.refReaches (s : State) (i : Nat) (r : PllRef) : Bool :=
  match r with
  | .time => true
  | .pin b _ => match s.pllOwner i with
    | some p => (match s.part p with | some x => x.gpio.getLsbD b && x.cols.any (fun c => s.bankJoined b c) | none => false)
    | none => false

/-- PLL_LOCK (R197): the PLL of a column serves Nc and Sc, and both show its lock. A reference that cannot reach the PLL
locks nothing, and a PLL that a rung keeps off locks as the rung is left (R333). Which pins are clock-capable is the package's
(log entry 98). -/
def execPllLock (pll : Nat) (locked : Bool) (ref : PllRef) (outs : List Nat) (s : State) : Host.Outcome State Fault Refusal :=
  if 24 ≤ pll ∨ (locked ∧ !(s.refReaches pll ref)) then .next s
  else
    let off := s.rungFrom (s.pllOwner pll) 3
    let locks := locked
    let locked := locks && !off
    let s : State := { s with plls := SMap.set s.plls pll ⟨locked, locks && off, ref, outs⟩ }
    .next (if pll < 16 then (s.setBit (Reg.FAB_SECT_PLL pll) 0 locked).setBit (Reg.FAB_SECT_PLL (16 + pll)) 0 locked else s)

end Sys2Proof.Machine
end

