-- ==== Sys2Proof/Machine/Edge.lean ====
section
/-!
DEFINITION. Edge ports (R200 to R207, R212): the fabric side, staging, retention, grants, flush, and the packets that arrive at
them (R180 to R182, R188, R189).
-/
namespace Sys2Proof.Machine

/-- The beats that make a burst. -/
def burstBeats : Nat := 8

/-- Whether a port's fabric side is connected: from stage 1 of its owner's release on (R209). -/
def State.edgeConnected (s : State) (e : Nat) : Bool :=
  decide (e < 32) && (match s.edgeOwner e with | some p => s.portConnected p e | none => false)

/-- Whether a port's writes are enabled too: from stage 2 on (R209). -/
def State.edgeLive (s : State) (e : Nat) : Bool :=
  decide (e < 32) && s.bit (Reg.EDGE_CTRL e) 17 &&
  (match s.edgeOwner e with | some p => decide (2 ≤ s.relStage p) | none => false)

/-- A signal of a port reaches its sector where the port is connected (R200, R209). -/
def State.edgeEmit (s : State) (e : Nat) (o : Output) : State := if s.edgeConnected e then s.emit o else s

/-- `EP_IN_READY`: low while the retention buffer is full (R201, R205). A row that has not left the port has its place in the buffer
too (log entry 116). -/
def State.edgeReady (s : State) (e : Nat) : Bool := decide ((s.edge e).retained.length + (s.edge e).rows.length < 64)

/-- `EDGE_STATUS` follows the port's buffers, and `EP_IN_READY` rises or falls with them (R200, R205). -/
def State.edgeShow (s : State) (e : Nat) : State :=
  let x := s.edge e
  let s := s.wr (Reg.EDGE_STATUS e) (BitVec.ofNat 32 (x.retained.length % 128 + (x.staged.length + x.released.length) % 128 * 65536))
  let low := !(s.edgeReady e)
  if low = x.inLow then s else (s.setEdge e { x with inLow := low }).edgeEmit e (.edgeInReady e (!low))

/-! Records (R204). -/

/-- Detail of an edge-port record. -/
def edgeDetail (e dest beats flags : Nat) : List Byte := toBytes e 1 ++ toBytes dest 1 ++ toBytes beats 1 ++ toBytes flags 1

/-- An event of a port is counted, shown in `EDGE_ERR`, and logged once per beat. -/
def State.edgeEvent (s : State) (e code : Nat) (detail : List Byte) : State :=
  let s := if code = 0x0511 then (s.addReg (Reg.EDGE_MALFORMED_COUNT e) 1).setBit (Reg.EDGE_ERR e) 0 true
    else if code = 0x0510 then (s.addReg (Reg.EDGE_TIMEOUT_COUNT e) 1).setBit (Reg.EDGE_ERR e) 1 true
    else (s.addReg (Reg.EDGE_NOCREDIT_COUNT e) 1).setBit (Reg.EDGE_ERR e) 2 true
  let x := s.edge e
  if x.logged.contains code then s
  else (s.setEdge e { x with logged := x.logged ++ [code] }).logRec 9 e code sevContained (s.edgeOwner e) detail

/-- The tile of a destination (R200). -/
def edgeTile (e dest : Nat) : Nat := edgeCol e * 8 + dest / 8 % 8

/-- A credit is added to a destination and reported to the fabric (R202, R203). -/
def State.edgeAddCredit (s : State) (e dest n : Nat) : State :=
  let x := s.edge e
  (s.setEdge e { x with creditCnt := SMap.set x.creditCnt dest ((SMap.get x.creditCnt 0 dest + n) % 8192) }).edgeEmit e
    (.edgeCredit e dest n)

/-- A dropped pair whose destination context is open aborts its task when `err_abort` is set (R126, R204). -/
def State.edgeAbort (s : State) (e dest : Nat) : State :=
  let t := edgeTile e dest
  if s.bit (Reg.EDGE_CTRL e) 16 && s.ctxState t (dest % 8) != 2 then s.streamFault t (dest % 8) 4 (s.ctxAddr t (dest % 8)) else s

/-- An open pair is dropped with its record (R203): its credit returns. -/
def State.edgeDrop (s : State) (e : Nat) (q : EdgePair) (code flags : Nat) : State :=
  let x := s.edge e
  let s := s.setEdge e { x with pair := none }
  let s := if q.credited then s.edgeAddCredit e q.dest 1 else s
  let s := s.edgeEvent e code (edgeDetail e q.dest q.beats (q.second.toNat + flags))
  s.edgeAbort e q.dest

/-- The oldest row that has not left a port is offered to its router, unless one is or the turnaround has not ended (R205). -/
def State.edgeOffer (s : State) (e : Nat) : State :=
  let x := s.edge e
  match x.rows with
  | [] => s
  | r :: _ => if x.offered || x.waits then s else (s.setEdge e { x with offered := true }).sendFromEdge e r.1

/-- The row that is offered is taken back: its header has not left (R205). -/
def State.edgeTakeBack (s : State) (e : Nat) : State :=
  let x := s.edge e
  match x.rows with
  | [] => s
  | r :: _ =>
    if x.offered then
      let a := edgeRouter e
      let q := s.router a
      (s.setRouter a { q with injectEdge := SMap.set q.injectEdge 5 (dropFirst r.1 (SMap.get q.injectEdge [] 5)) }).setEdge e
        { x with offered := false }
    else s

/-- The header of a packet leaves an edge port: a row of the fabric belongs to the beat in which it leaves, is kept for it, and is
counted; the next row is offered (R203, R205). -/
def State.edgeLeft (s : State) (a : Nat) (p : Pkt) : State :=
  let e := if a % 8 = 0 then a / 8 else 16 + a / 8
  let x := s.edge e
  match x.rows with
  | [] => s
  | r :: rest =>
    if x.offered && r.1 == p then
      let s := s.setEdge e { x with rows := rest, offered := false, retained := x.retained ++ [p] }
      ((s.addReg (if r.2 then Reg.EDGE_REPUSH_ROWS e else Reg.EDGE_IN_ROWS e) 1).edgeShow e).edgeOffer e
    else s

/-- A whole row of the fabric waits to leave for its tile (R203, R205). -/
def State.edgePush (s : State) (e : Nat) (q : EdgePair) : State :=
  let t := edgeTile e q.dest
  let x := s.edge e
  let k := SMap.get x.rowNo 0 q.dest
  let gen := s.partGen (s.edgeOwner e)
  let p := { Pkt.make t false e true ptPush (q.dest % 8) (k % 2 ^ 32) q.data with
    part := BitVec.ofNat 4 ((s.edgeOwner e).getD 0), gen := BitVec.ofNat 8 gen }
  let s := s.setEdge e { x with pair := none, rows := x.rows ++ [(p, false)], rowNo := SMap.set x.rowNo q.dest (k + 1) }
  (s.edgeOffer e).edgeShow e

/-- A beat of a burst joins an open pair (R201). -/
def State.edgeBeat (s : State) (e : Nat) (q : EdgePair) (d : BitVec 512) : State :=
  let at_ := (q.beats + (if q.second then burstBeats else 0)) * 512
  let q := { q with beats := q.beats + 1, data := q.data ||| (BitVec.ofNat 8192 (d.toNat * 2 ^ at_)) }
  let x := s.edge e
  if q.second && q.beats == burstBeats then
    if q.credited then s.edgePush e q else s.setEdge e { x with pair := none }
  else s.setEdge e { x with pair := some q }

/-- The first beat of a pair's first burst (R201, R202). -/
def State.edgeStart (s : State) (e : Nat) (c : EpClk) : State :=
  let dest := c.dest.toNat
  let x := s.edge e
  if s.edgeReady e then
    let n := SMap.get x.creditCnt 0 dest
    let s := s.setEdge e { x with
      discard := false, stray := false
      creditCnt := if n = 0 then x.creditCnt else SMap.set x.creditCnt dest (n - 1) }
    let s := s.edgeBeat e ⟨dest, decide (0 < n), false, 0, 0, 0⟩ c.data
    if n = 0 then s.edgeEvent e 0x0512 (edgeDetail e dest 1 0) else s
  else
    let s := s.setEdge e { x with discard := true, stray := false }
    (s.edgeEvent e 0x0511 (edgeDetail e dest 1 0x40)).edgeAbort e dest

/-- A beat with SOB low where a burst must start (R203). -/
def State.edgeStray (s : State) (e : Nat) : State :=
  let x := s.edge e
  match x.pair with
  | some q => (s.setEdge e { x with stray := true }).edgeDrop e q 0x0511 0x80
  | none =>
    if x.discard || x.stray then s
    else
      let s := s.setEdge e { x with stray := true }
      (s.edgeEvent e 0x0511 (toBytes e 1 ++ [Config.openDetail 0x0511 s.free 1] ++ toBytes 0 1 ++ toBytes 0x80 1)).stepFree

/-- One clock of a port's fabric side (R201 to R203). -/
def State.edgeClock (s : State) (e : Nat) (c : EpClk) : State :=
  let T := s.fld (Reg.EDGE_CTRL e) 0 16
  let s := match (s.edge e).pair with
    | some q =>
      if !q.second && q.beats == burstBeats then
        if T < q.wait + 1 then s.edgeDrop e q 0x0510 0
        else s.setEdge e { s.edge e with pair := some { q with wait := q.wait + 1 } }
      else s
    | none => s
  if !c.valid then s
  else match (s.edge e).pair with
    | none => if c.sob then s.edgeStart e c else s.edgeStray e
    | some q =>
      if c.sob then
        if q.beats = burstBeats ∧ !q.second then s.edgeBeat e { q with second := true, beats := 0 } c.data
        else (s.edgeDrop e q 0x0511 0).edgeStart e c
      else if q.beats = burstBeats then s.edgeStray e
      else s.edgeBeat e q c.data

/-- EDGE_IN_PAIR (R200 to R204): clocks of a port's fabric side. -/
def execEdgeInPair (edge : Nat) (clocks : List EpClk) (s : State) : Host.Outcome State Fault Refusal :=
  if s.edgeLive edge && s.sectRuns edge then .next (clocks.foldl (fun s c => s.edgeClock edge c) s) else .next s

/-- EDGE_PAIR_TIMEOUT (R203): clock e + T + 1 comes without the second burst. -/
def execEdgePairTimeout (edge : Nat) (s : State) : Host.Outcome State Fault Refusal :=
  match (s.edge edge).pair with
  | some q => .next (if !q.second && q.beats == burstBeats then s.edgeDrop edge q 0x0510 0 else s)
  | none => .next s

/-- EDGE_REPUSH (R205): after the turnaround the port pushes its rows again, in order and before those that had not left it. -/
def execEdgeRepush (edge : Nat) (s : State) : Host.Outcome State Fault Refusal :=
  .next ((s.setEdge edge { s.edge edge with waits := false }).edgeOffer edge)

/-! Grants (R120, R180, R207). -/

/-- Staging room that is neither used nor granted (R207). -/
def EdgeSt_room (x : EdgeSt) : Nat :=
  64 - (x.staged.length + x.released.length + (x.grants.filter (fun g => !g.dwr)).foldl (fun n g => n + g.rows) 0)

/-- The outbound channel that a context of a tile feeds through an edge port. -/
def State.outChan (s : State) (e t c : Nat) : Option Nat :=
  (List.range 256).find? (fun k => s.chanOn k && s.chanOut k && s.chanEdge k == e && s.chanTile k == t && s.chanCtx k == c)

/-- The inbound channel that feeds a context of a tile through an edge port. -/
def State.inChan (s : State) (e t c : Nat) : Option Nat :=
  (List.range 256).find? (fun k => s.chanOn k && !(s.chanOut k) && s.chanEdge k == e && s.chanTile k == t && s.chanCtx k == c)

/-- Whether a port can grant a RESERVE: the fabric's staging room, a channel's credit, or the DRAM hub, which takes every row
(R180, R207; log entry 38). -/
def State.edgeCanGrant (s : State) (e : Nat) (g : EdgeGrant) : Bool :=
  if g.dwr then true
  else match s.ctxKind g.src g.ctx with
    | 3 => (match s.outChan e g.src g.ctx with
      | some c => s.chanState c == 1 && s.chanOwned c && decide (g.rows ≤ s.chanCredit c)
      | none => false)
    | _ => decide (e < 32) && decide (g.rows ≤ EdgeSt_room (s.edge e))

/-- A RESERVE is granted. -/
def State.edgeGrant (s : State) (e : Nat) (g : EdgeGrant) : State :=
  let s := if !g.dwr && s.ctxKind g.src g.ctx == 3 then
      (match s.outChan e g.src g.ctx with
      | some c => s.setFld (Reg.CHN_STATUS c) 2 13 (s.chanCredit c - g.rows)
      | none => s)
    else s
  let x := s.edge e
  (s.setEdge e { x with grants := x.grants ++ [g] }).edgeSend e g.src ptGrant g.ctx (g.rows - 1) g.gen 0

/-- Every waiting RESERVE that can be granted is granted, in arrival order. -/
def State.edgeGrants (s : State) (e : Nat) : Nat → State
  | 0 => s
  | n + 1 =>
    let x := s.edge e
    match takeFirst (fun g => s.edgeCanGrant e g) x.waiting with
    | some (g, rest) => ((s.setEdge e { x with waiting := rest }).edgeGrant e g).edgeGrants e n
    | none => s

/-- Every waiting RESERVE of a port is looked at. -/
def State.edgeGrantAll (s : State) (e : Nat) : State := s.edgeGrants e ((s.edge e).waiting.length + 1)

/-- A grant that is cancelled gives a channel its credit back. -/
def State.edgeUngrant (s : State) (e : Nat) (g : EdgeGrant) : State :=
  if !g.dwr && s.ctxKind g.src g.ctx == 3 then
    match s.outChan e g.src g.ctx with
    | some c => s.chanAddCredit c g.rows
    | none => s
  else s

/-- A grant that stands again takes a channel's credit again; what it lacks is paid by the credit that comes next. -/
def State.edgeRegrant (s : State) (e : Nat) (g : EdgeGrant) : State :=
  if !g.dwr && s.ctxKind g.src g.ctx == 3 then
    match s.outChan e g.src g.ctx with
    | some c =>
      let have_ := s.chanCredit c
      let s := s.setFld (Reg.CHN_STATUS c) 2 13 (have_ - g.rows)
      if have_ < g.rows then s.setChan c { s.chan c with debt := (s.chan c).debt + (g.rows - have_) } else s
    | none => s
  else s

/-- Grants and waiting RESERVEs that a test picks are cancelled (R206, R207), and no restart returns to them. -/
def State.edgeCancel (s : State) (e : Nat) (f : EdgeGrant → Bool) : State :=
  let x := s.edge e
  let s := (x.grants.filter f).foldl (fun s g => s.edgeUngrant e g) s
  let keep (l : List EdgeGrant) : List EdgeGrant := l.filter (fun g => !(f g))
  s.setEdge e { x with
    grants := keep x.grants, waiting := keep x.waiting
    snapGrants := keep x.snapGrants, snapWaiting := keep x.snapWaiting, late := keep x.late }

/-- The reservations that a port holds at an opening milestone (R124, R207). -/
def State.edgeSnap (s : State) (e : Nat) : State :=
  let x := s.edge e
  s.setEdge e { x with snapGrants := x.grants, snapWaiting := x.waiting, late := [] }

/-- The reservations of a restart (R124, R207): those held at the opening milestone stand again, also where the attempt's rows used them, what
the attempt reserved is cancelled, and a RESERVE of an earlier beat that came in the attempt waits (DEDUCED, log entry 132). -/
def State.edgeRestore (s : State) (e : Nat) : State :=
  let x := s.edge e
  if x.grants = x.snapGrants ∧ x.waiting = x.snapWaiting then s
  else
    let s := x.grants.foldl (fun s g => s.edgeUngrant e g) s
    let s := x.snapGrants.foldl (fun s g => s.edgeRegrant e g) s
    s.setEdge e { s.edge e with grants := x.snapGrants, waiting := x.snapWaiting ++ x.late }

/-! Arrival at a port. -/

/-- A CTRL or DATA packet arrives at an edge port: whether the port takes it, after the checks of R175, R188 and R189. -/
def State.edgeArrive (s : State) (p : Pkt) : Bool × State :=
  let e := p.dst.toNat
  let s := s.consume p
  let own := s.edgeOwner e
  if !p.formed || own != some p.part.toNat then
    let s := if e < 32 then s.addReg (Reg.EDGE_DROP_PART e) 1 else s
    (false, s.edgeViolation e (violationDetail (0x80 + e) (if e < 32 then 5 else 6) p))
  else if p.gen.toNat != s.partGen own then
    let s := if e < 32 then s.addReg (Reg.EDGE_DROP_GEN e) 1 else s
    let x := s.edge e
    if x.logged.contains 0x0402 then (false, s)
    else
      let s := s.setEdge e { x with logged := x.logged ++ [0x0402] }
      (false, (s.logRec 9 e 0x0402 sevCorrected own (s.openDetail 0x0402)).stepFree)
  else (true, s)

/-- A RESERVE arrives at an edge port (R181, R207). -/
def State.reserveEdge (s : State) (p : Pkt) : State :=
  let e := p.dst.toNat
  let (ok, s) := s.edgeArrive p
  if !ok then s
  else
    let x := s.edge e
    let src := p.src.toNat
    let g : EdgeGrant := ⟨src, p.ctx.toNat, p.argField 64 2 + 1, p.bt.toNat, s.ctxKind src p.ctx.toNat == 0, p.gen.toNat⟩
    let old : Bool := match s.edgeOwner e with
      | some q => (match s.part q with | some y => g.bt != y.openMs % 4 | none => false)
      | none => false
    (s.setEdge e { x with waiting := x.waiting ++ [g], late := if old then x.late ++ [g] else x.late }).edgeGrantAll e

/-- The room of one granted row is used. -/
def useGrant (src ctx : Nat) (dwr : Bool) : List EdgeGrant → Option (List EdgeGrant)
  | [] => none
  | g :: r =>
    if g.src = src ∧ g.ctx = ctx ∧ g.dwr = dwr then some (if g.rows ≤ 1 then r else { g with rows := g.rows - 1 } :: r)
    else match useGrant src ctx dwr r with
      | some l => some (g :: l)
      | none => none

/-- The outcome of the beat that a bt names, if the beat closed at one of the last three milestones (R207). -/
def EdgeSt_outcome (x : EdgeSt) (bt : Nat) : Option Nat :=
  match x.outcomes.find? (fun o => o.1 % 4 == bt) with
  | some o => some o.2
  | none => none

/-- Whether a packet is of a beat that closed with another outcome than COMMIT: its reservation is gone (R207). -/
def State.undone (s : State) (p : Pkt) : Bool :=
  match EdgeSt_outcome (s.edge p.dst.toNat) p.bt.toNat with
  | some o => o != 0
  | none => false

/-- A PUSH arrives at an edge port (R206, R207, R257): it enters a channel, or the staging buffer for its beat; one that finds no
reservation, or whose beat did not commit, is dropped. -/
def State.pushEdge (s : State) (p : Pkt) : State :=
  let e := p.dst.toNat
  let (ok, s) := s.edgeArrive p
  if !ok || s.undone p then s
  else
    let x := s.edge e
    let src := p.src.toNat
    let ctx := p.ctx.toNat
    match useGrant src ctx false x.grants with
    | none => s
    | some rest =>
      let s := s.setEdge e { x with grants := rest }
      if s.ctxKind src ctx = 3 then
        match s.outChan e src ctx with
        | some c =>
          if !(s.chanOwned c) then s.bridgeDrop c (violationDetail (0x80 + e) (if e < 32 then 5 else 6) p)
          else if s.chanState c = 1 then s.chanRowOut c p.payload else s
        | none => s
      else
        let row : Staged := ⟨src, ctx, p.bt.toNat, p.payload⟩
        let x := s.edge e
        let s := match EdgeSt_outcome x p.bt.toNat with
          | none => s.setEdge e { x with staged := x.staged ++ [row] }
          | some _ => (s.setEdge e { x with released := x.released ++ [row] }).addReg (Reg.EDGE_OUT_ROWS e) 1
        (s.edgeShow e).edgeGrantAll e

/-- RESERVE (R120, R175, R181, R188, R189): it waits at its tile or edge port. -/
def execReserve (p : Pkt) (s : State) : Host.Outcome State Fault Refusal :=
  if p.type.toNat ≠ ptReserve then .next s
  else if !p.dkind then .next (s.reserveTile p)
  else if p.dst.toNat < 48 then .next (s.reserveEdge p) else .next (s.consume p)

/-- PUSH (R120, R180, R184, R206, R207): a row arrives at a landing row, a staging buffer or a channel. -/
def execPush (p : Pkt) (s : State) : Host.Outcome State Fault Refusal :=
  if p.type.toNat ≠ ptPush then .next s
  else if !p.dkind then .next (s.pushTile p)
  else if p.dst.toNat < 48 then .next (s.pushEdge p) else .next (s.consume p)

/-- CREDIT (R180, R202, R259): rows of room for a destination of the fabric, or for a channel. -/
def execCredit (p : Pkt) (s : State) : Host.Outcome State Fault Refusal :=
  if p.type.toNat = ptCredit ∧ p.dkind ∧ p.dst.toNat < 48 then
    let e := p.dst.toNat
    let (ok, s) := s.edgeArrive p
    if !ok then .next s
    else
      let t := p.src.toNat
      let n := p.argField 64 13
      match s.inChan e t p.ctx.toNat with
      | some c =>
        .next (if s.chanOwned c then s.chanRoom c n else s.bridgeDrop c (violationDetail (0x80 + e) (if e < 32 then 5 else 6) p))
      | none => .next (if e < 32 then s.edgeAddCredit e (t % 8 * 8 + p.ctx.toNat) n else s)
  else if p.type.toNat = ptCredit ∧ !p.dkind then
    let t := p.dst.toNat
    let (ok, s) := s.arrive ptCredit p
    .next (if ok && s.abandons t p then s.discard t else s)
  else .next s

/-! Milestones and flush. -/

/-- Whether a grant is room for a row bound to the fabric (R206): not for a channel's, and not for the DRAM hub's. -/
def State.grantFabric (s : State) (g : EdgeGrant) : Bool := !g.dwr && s.ctxKind g.src g.ctx != 3

/-- A flush (R206): the open pair, the rows that have not left and the retained ones, credits, queued and granted room for the fabric and
staged rows go; rows already released stay. -/
def State.edgeFlush (s : State) (e : Nat) : State :=
  let s := (s.edgeCancel e (fun g => s.grantFabric g)).edgeTakeBack e
  let x := s.edge e
  let s := s.setEdge e { x with
    pair := none, discard := x.discard || x.pair.isSome, stray := false, creditCnt := [], retained := [], rows := [], waits := false,
    staged := [], rowNo := [] }
  (s.edgeEmit e (.edgeFlush e)).edgeShow e

/-- Room of a channel that was granted under a generation that no packet bears any more returns (R189; log entry 116). -/
def State.edgeOldGrants (s : State) (e : Nat) : State :=
  let gen := s.partGen (s.edgeOwner e)
  s.edgeCancel e (fun g => !g.dwr && s.ctxKind g.src g.ctx == 3 && g.gen != gen)

/-- The outcome of a beat reaches a port (R40, R205, R207): staged rows of the beat are released or discarded, the retained rows
cleared, or to be pushed again after the turnaround, before the rows that have not left the port. -/
def State.edgeClose (s : State) (e openMs outcome : Nat) : State :=
  let again := outcome == 1 || outcome == 2
  let s := if again then s.edgeTakeBack e else s
  let x := s.edge e
  let bt := openMs % 4
  let mine := x.staged.filter (fun r => r.bt == bt)
  let others := x.staged.filter (fun r => r.bt != bt)
  let s := s.setEdge e { x with
    staged := others
    released := if outcome = 0 then x.released ++ mine else x.released
    rows := if again then x.retained.map (fun p => (p, true)) ++ x.rows else x.rows
    waits := again && !(x.retained.isEmpty && x.rows.isEmpty)
    retained := []
    outcomes := ((openMs, outcome) :: x.outcomes).take 3 }
  let s := if outcome = 0 ∧ e < 32 then s.addReg (Reg.EDGE_OUT_ROWS e) mine.length else s
  let s := if again then s.edgeRestore e else if outcome = 0 then s else s.edgeCancel e (fun g => !g.dwr && g.bt == bt)
  (s.edgeShow e).edgeGrantAll e

/-- A milestone passes a port (R200, R204, R207): it is presented to the fabric, once-per-beat records may come again, and the outcome of
a beat that closed four milestones ago is forgotten. -/
def State.edgeMs (s : State) (e outcome state : Nat) : State :=
  let x := s.edge e
  let n := s.msCount
  let s := s.setEdge e { x with logged := [], outcomes := x.outcomes.filter (fun o => decide ((n + 2 ^ 48 - o.1) % 2 ^ 48 ≤ 3)) }
  s.edgeEmit e (.edgeMilestone e outcome state)

/-- One clock of a port's outbound side (R200, R207): a beat of the oldest released row moves where `EP_OUT_READY` is high; with its
sixteenth the row has left, and its room is free. -/
def State.edgeOutClock (s : State) (e : Nat) (ready : Bool) : State :=
  let x := s.edge e
  match x.released with
  | [] => s
  | r :: rest =>
    if !ready then s
    else
      let i := x.outBeat
      let s := s.emit (.edgeBeat e (i % burstBeats == 0) (r.src % 8) r.ctx (BitVec.ofNat 512 (r.data.toNat / 2 ^ (512 * i))))
      if i + 1 < 2 * burstBeats then s.setEdge e { x with outBeat := i + 1 }
      else
        let s := s.setEdge e { x with released := rest, outBeat := 0 }
        (s.edgeShow e).edgeGrantAll e

/-- EDGE_OUT_PAIR (R200, R207): clocks of a port's outbound side, each with `EP_OUT_READY`; `EP_CLK` is one of its sector's spines. -/
def execEdgeOutPair (edge : Nat) (ready : List Bool) (s : State) : Host.Outcome State Fault Refusal :=
  if s.edgeConnected edge && s.sectRuns edge then .next (ready.foldl (fun s b => s.edgeOutClock edge b) s) else .next s

end Sys2Proof.Machine
end

