-- ==== Sys2Proof/Machine/Complete.lean ====
section
/-!
DEFINITION. The completion of a mailbox command (R301 to R304, R308), and the states that a POWER_STATE waits for (R339).
-/
namespace Sys2Proof.Machine

/-! The status codes of R308. -/
def stOk : Nat := 0
def stBusy : Nat := 1
def stDenied : Nat := 2
def stNoResource : Nat := 3
def stBadState : Nat := 4
def stUnsupported : Nat := 5
def stTimeout : Nat := 6
def stFaulted : Nat := 7

/-- The phase of entry `c` of a ring (R301). -/
def ringPhase (c : Nat) : Nat := 1 - c / 64 % 2

/-- A completion entry (R302). -/
def completionBytes (opcode tag status c : Nat) (results : List Byte) : List Byte :=
  toBytes opcode 2 ++ toBytes tag 2 ++ toBytes status 2 ++ toBytes (ringPhase c) 1 ++ toBytes 0 1 ++
  (results ++ List.replicate 56 0).take 56

/-- `MBX_COUNTS` shows the requests taken and the completions written (R300). -/
def State.showCounts (s : State) (fn : Nat) : State :=
  s.wr (Reg.MBX_COUNTS fn) (BitVec.ofNat 32 ((s.fnMbx fn).taken % 65536 + (s.fnMbx fn).written % 65536 * 65536))

/-- The running command of a function completes (R301, R303): its entry is written and vector 0 is sent, unless the rings have
stopped, or were reset, while it ran (R304, R317). After the loss of the firmware no command completes (R307). -/
def State.complete (s : State) (fn status : Nat) (results : List Byte) : State :=
  let m := s.fnMbx fn
  match m.running with
  | none => s
  | some r =>
    if s.fwLost then s else
    let s := s.setFnMbx fn { m with running := none }
    if r.discard || !m.enabled then s
    else
      let base := s.rd2 (Reg.MBX_CPL_BASE_LO fn) (Reg.MBX_CPL_BASE_HI fn)
      let s := s.emit (.hostWrite fn (base + m.written % 64 * 64) (completionBytes r.opcode.toNat r.tag.toNat status m.written results))
      let s := (s.setFnMbx fn { m with running := none, written := (m.written + 1) % 65536 }).showCounts fn
      if s.bit (Reg.MBX_CTRL fn) 1 then s.sendVector fn 0 else s

/-- The running command of a function waits. -/
def State.waits (s : State) (q : Req) (w : CmdWait) : State :=
  let m := s.fnMbx q.fn
  s.setFnMbx q.fn { m with running := m.running.map (fun r => { r with req := some q, wait := w }) }

/-- What the command of a function waits for. -/
def State.waitOf (s : State) (fn : Nat) : Option CmdWait :=
  match (s.fnMbx fn).running with
  | some r => some r.wait
  | none => none

end Sys2Proof.Machine

/-- The partition that a request acts on: a VF's own, or the target that PF0 names (R302, R308). -/
def Sys2Proof.Req.partition (q : Sys2Proof.Req) : Nat := if q.fn = 0 then q.target.toNat else q.fn - 1

namespace Sys2Proof.Machine

/-- The additional STATE notice of a command whose effect changes no partition state (R302, R305): owed to the issuer and PF0. What was owed
for the change of the same kind that it replaces is owed no more: that one takes no effect. -/
def State.owe (s : State) (q : Req) (period : Bool) : State :=
  let rest := s.owed.filter (fun o => o.2.1 != period)
  let target := if q.fn = 0 then q.target.toNat else q.fn - 1
  { s with owed := if q.flags.getLsbD 0 then rest ++ [(q.fn, period, target)] else rest }

/-! POWER_STATE (R338, R339). -/

/-- Whether a scope is in a rung: a partition, or the device (scope 16). -/
def State.rungReached (s : State) (scope rung : Nat) : Bool :=
  if scope = 16 then s.devRung == rung && s.pwr.phase == 0
  else match s.part scope with
    | some x => x.rung == rung && !x.entering && (rung == 0 || x.wakeAt.isNone)
    | none => true

/-- Whether the lanes of a mask have reached a link state (R338): 0 asks for nothing. -/
def State.linkReached (s : State) (lanes : BitVec 96) (link : Nat) : Bool :=
  (List.range 96).all (fun n => !(lanes.getLsbD n) || link == 0 ||
    s.laneState n == (if link = 1 then 4 else if link = 2 then 5 else 0))

/-- Whether the channels of a mask are held in self-refresh (R286). -/
def State.holdReached (s : State) (hold : Nat) : Bool :=
  (List.range 8).all (fun ch => !(hold.testBit ch) || s.fld (Reg.DDR_STATUS ch) 0 3 == 4 || s.fld (Reg.DDR_STATUS ch) 0 3 == 0)

/-- A POWER_STATE completes once every state that it asked for has been reached (R339). -/
def State.powerCheck (s : State) (fn : Nat) : State :=
  match s.waitOf fn with
  | some (.power scope rung lanes link hold) =>
    if s.rungReached scope rung && s.linkReached lanes link && s.holdReached hold then s.complete fn stOk [] else s
  | _ => s

/-- Every POWER_STATE that waits is looked at. -/
def State.powerChecks (s : State) : State := (List.range 17).foldl (fun s f => s.powerCheck f) s

end Sys2Proof.Machine
end

