-- ==== Sys2Proof/Machine/Lanes.lean ====
section
/-!
DEFINITION. Lanes (R233 to R248, R255): what a lane sends, training, the frames that it receives, and the restart of a lane.
-/
namespace Sys2Proof.Machine

/-- The transmit taps after reset, which are the preset (R245). -/
def tapPreset : Word := 0x04370400

/-- A lane restarts at SEEK with preset taps (R247, R254). DESIGN CHOICE (log entry 43): a lane whose octet has no reference clock (R21) is OFF,
whenever it is enabled. -/
def State.laneRestart (s : State) (n : Nat) : State :=
  let x := s.lane n
  let s := s.setLane n { Lane.reset with fcount := x.fcount, failLogged := x.failLogged }
  (s.wr (Reg.TPL_LANE_STATUS n) (if s.bit (Reg.TPL_LANE_CTRL n) 0 && s.boot.refclk.getLsbD (n / 8) then 1 else 0)).wr
    (Reg.TPL_LANE_TAPS n) tapPreset

/-! Tap requests (R244 to R246). -/

/-- The taps of a lane: pre2, pre1, main, post1. -/
def State.taps (s : State) (n : Nat) : List Nat :=
  let v := s.rd (Reg.TPL_LANE_TAPS n)
  [v.field 0 3, v.field 8 4, v.field 16 6, v.field 24 4]

/-- The state with the taps of a lane replaced. -/
def State.setTaps (s : State) (n : Nat) (l : List Nat) : State :=
  s.wr (Reg.TPL_LANE_TAPS n) (BitVec.ofNat 32
    (l.getD 0 0 + l.getD 1 0 * 2 ^ 8 + l.getD 2 0 * 2 ^ 16 + l.getD 3 0 * 2 ^ 24))

/-- Whether a set of taps is allowed (R245). -/
def tapsOk (l : List Nat) : Bool :=
  let a := l.getD 0 0
  let b := l.getD 1 0
  let m := l.getD 2 0
  let c := l.getD 3 0
  decide (a ≤ 4) && decide (b ≤ 15) && decide (24 ≤ m) && decide (m ≤ 63) && decide (c ≤ 15) &&
  decide (m + a + b + c ≤ 63) && decide (16 + a + b + c ≤ m)

/-- One field of a request applied: the taps and the answer (0 no change, 1 updated, 2 at minimum, 3 at maximum). -/
def tapStep (l : List Nat) (i req : Nat) : List Nat × Nat :=
  let v := l.getD i 0
  if req = 1 then (let m := l.set i (v + 1); if tapsOk m then (m, 1) else (l, 3))
  else if req = 2 then
    (if v = 0 then (l, 2) else let m := l.set i (v - 1); if tapsOk m then (m, 1) else (l, 2))
  else (l, 0)

/-- Whether a request uses the reserved form: 3 in some fields only (R244). -/
def tapReserved (b : BitVec 8) : Bool :=
  let f (i : Nat) : Bool := b.toNat / 4 ^ i % 4 == 3
  b != 0xFF && (f 0 || f 1 || f 2 || f 3)

/-- A request applied to a lane's taps: the answer byte and the state (R245, R246). -/
def State.applyTaps (s : State) (n : Nat) (req : BitVec 8) : BitVec 8 × State :=
  if req = 0xFF then (0x55, s.wr (Reg.TPL_LANE_TAPS n) tapPreset)
  else
    let r := (List.range 4).foldl (fun (a : List Nat × Nat) i =>
      let z := tapStep a.1 i (req.toNat / 4 ^ i % 4)
      (z.1, a.2 + z.2 * 4 ^ i)) (s.taps n, 0)
    (BitVec.ofNat 8 r.2, s.setTaps n r.1)

/-- A good copy of the partner's training set (R244, R246): its answer frees the next request, a new request is applied once. -/
def State.tosIn (s : State) (n : Nat) (t : List Byte) : State :=
  let x := s.lane n
  let b (i : Nat) : Nat := ofBytes ((t.drop i).take 1)
  let x := if b 3 = x.reqSeq then { x with asked := false } else x
  if x.peerSeq = some (b 2) then s.setLane n x
  else
    let (resp, s) := s.applyTaps n (t.headD 0)
    s.setLane n { x with peerSeq := some (b 2), resp := resp, ackSeq := b 2 }

/-- The next own request of a lane: which taps it asks for is open (log entry 15); the reserved form stands for hold. -/
def State.nextRequest (s : State) (n : Nat) : State :=
  let x := s.lane n
  if x.asked then s
  else
    let s := s.stepFree
    let r := BitVec.ofNat 8 (Config.freeNat s.free)
    s.setLane n { x with
      reqSeq := (x.reqSeq + 1) % 256
      reqByte := if tapReserved r then 0 else r
      asked := true }

/-- The training set that a lane sends (R244). -/
def State.tosOut (s : State) (n : Nat) : List Byte :=
  let x := s.lane n
  let st := s.laneState n
  let flags := (decide (2 ≤ st)).toNat + 2 * (s.bit (Reg.TPL_LANE_STATUS n) 4).toNat + 4 * x.toData.isSome.toNat +
    16 * s.fld (Reg.TPL_LANE_CTRL n) 1 2
  let t := [x.reqByte, x.resp] ++ toBytes x.reqSeq 1 ++ toBytes x.ackSeq 1 ++ toBytes flags 1 ++ toBytes 0 1
  t ++ toBytes (crc16 t) 2

/-! Sending (R235 to R241, R255). -/

/-- An own request of a lane that is UP, at least 100 µs after the one before it (R248). -/
def State.adaptNext (s : State) (n : Nat) : State :=
  let x := s.lane n
  let due : Bool := match x.adaptAt with | some a => decide (a + 100000 ≤ s.now) | none => true
  if s.laneState n = 4 ∧ due ∧ !x.asked then
    let s := s.nextRequest n
    let y := s.lane n
    s.setLane n { y with adaptAt := some s.now }
  else s

/-- A lane that is UP goes on adapting its partner's taps: each of its frames bears its training set as an LCTL ADAPT body, with the own request
that stands and the answer to the partner's, as R246 repeats both in every frame (R248). -/
def State.adaptOwn (s : State) (n : Nat) : State :=
  if s.laneState n = 4 then
    let s := s.adaptNext n
    s.setLane n { s.lane n with adapt := [2 :: s.tosOut n] }
  else s

/-- The port puts flits into the slots of its lanes, in port order (R255). An ADAPT flit, which concerns its lane alone, goes before the
port's own flits (log entry 35). -/
def State.fillSlots (s : State) (p w : Nat) : Nat → State
  | 0 => s
  | k + 1 =>
    let s := s.fillSlots p w k
    let n := p + k % w
    match (s.lane n).adapt with
    | b :: rest =>
      let (h, s) := s.nextHeader p 0 0 (s.fld Reg.TPL_EPOCH 0 16)
      let x := s.lane n
      s.setLane n { x with tx := x.tx ++ [flitBytes ftLctl h b], adapt := rest }
    | [] =>
      let (f, s) := s.portTake p
      let x := s.lane n
      s.setLane n { x with tx := x.tx ++ [f] }

/-- The width code of a lane's frames: that of its port, 0 where it belongs to none. -/
def State.laneWidth (s : State) (n : Nat) : Nat :=
  match s.lanePort n with
  | some p => s.fld (Reg.TPL_PORT_CTRL p) 1 2
  | none => 0

/-- FRAME_TRANSMIT (R235 to R241, R246): a lane that is not OFF sends its next frame, TRAIN until 4 frames after it set
`to_data`, DATA afterwards. -/
def execFrameTransmit (lane : Nat) (s : State) : Host.Outcome State Fault Refusal :=
  let n := lane
  let st := s.laneState n
  if st = 0 ∨ 96 ≤ n then .next s
  else
    let data := match (s.lane n).toData with | some k => decide (4 ≤ k) | none => false
    let first := match s.lanePort n with | some p => p | none => n
    let head (ft fc : Nat) : List Byte := toBytes ft 1 ++ toBytes ((n - first) % 8 + s.laneWidth n * 16) 1 ++ toBytes fc 2 ++ toBytes 0 4
    let nrz := s.fld (Reg.TPL_LANE_CTRL n) 1 2 == 2
    let wire (pl : List Byte) : List (BitVec 2) := invertLevels (s.bit (Reg.TPL_LANE_CTRL n) 3) (frameSymbols nrz pl)
    if data then
      let s := match s.lanePort n with
        | some p =>
          if s.portIsUp p && (s.lane n).tx.isEmpty then
            ((s.portLanes p).foldl State.adaptOwn s).fillSlots p (s.portWidth p) (40 * s.portWidth p)
          else s
        | none => s
      let x := s.lane n
      let slots := x.tx ++ List.replicate (40 - x.tx.length) s.plainIdle
      let pl := head 1 x.fcount ++ List.replicate 32 0 ++ slots.flatMap id
      .next ((s.setLane n { x with tx := [], fcount := (x.fcount + 1) % 65536 }).emit (.frame n (wire pl)))
    else
      let s := s.nextRequest n
      let t := s.tosOut n
      let x := s.lane n
      let pl := head 0 x.fcount ++ t ++ t ++ t ++ t ++ List.replicate 5120 0
      .next ((s.setLane n { x with
        fcount := (x.fcount + 1) % 65536
        toData := x.toData.map (fun k => k + 1) }).emit (.frame n (wire pl)))

/-! Receiving (R242, R247, R255). -/

/-- What the FEC makes of a frame is counted (R242, R247). -/
def State.frameFec (s : State) (n : Nat) (ws : List (Option (List Bool) × Nat)) : State :=
  let corr := ws.foldl (fun a w => a + w.2) 0
  let bad := (ws.filter (fun w => w.1.isNone)).length
  let x := s.lane n
  let hist := (corr :: x.hist).take 64
  let s := s.setLane n { x with hist := hist }
  let s := (s.addReg (Reg.TPL_LANE_FEC_CORR n) corr).addReg (Reg.TPL_LANE_FEC_UNC n) bad
  s.setFld (Reg.TPL_LANE_STATUS n) 16 16 (min (hist.foldl (· + ·) 0) 65535)

/-- The state follows the estimate while the lane is in TRAIN or READY (R247); a lane that returns to TRAIN sends TRAIN frames again. -/
def State.laneReady (s : State) (n : Nat) : State :=
  let st := s.laneState n
  if st = 2 ∨ st = 3 then
    let ok := decide (s.fld (Reg.TPL_LANE_STATUS n) 16 16 < s.fld (Reg.TPL_LANE_THRESH n) 0 16)
    let x := s.lane n
    let s := if ok then s else s.setLane n { x with toData := none }
    (s.setBit (Reg.TPL_LANE_STATUS n) 4 ok).setLaneState n (if ok then 3 else 2)
  else s

/-- The codewords of a frame that a lane receives, after its polarity and rate. -/
def State.frameIn (s : State) (n : Nat) (f : RxFrame) : List (Option (List Bool) × Nat) :=
  frameWords (s.fld (Reg.TPL_LANE_CTRL n) 1 2 == 2) (invertLevels (s.bit (Reg.TPL_LANE_CTRL n) 4) f.symbols)

/-- TRAIN_FRAME (R244 to R247): good copies of the training set are taken, and 16 frames that show the partner ready set
`to_data`. -/
def execTrainFrame (lane : Nat) (f : RxFrame) (s : State) : Host.Outcome State Fault Refusal :=
  let n := lane
  let st := s.laneState n
  if st < 2 then .next s
  else
    let ws := s.frameIn n f
    let s := s.frameFec n ws
    if st ≠ 2 ∧ st ≠ 3 then .next s
    else
    let x := s.lane n
    let unseen := (s.setLane n { x with readyRun := 0 }).laneReady n
    match payloadBytes ws 0 40 with
    | none => .next unseen
    | some h =>
      if h.headD 1 ≠ 0 then .next unseen
      else
        let copies := ([0, 1, 2, 3].map (fun i => (h.drop (8 + 8 * i)).take 8)).filter (fun t =>
          ofBytes (t.drop 6) == crc16 (t.take 6))
        match copies with
        | [] => .next unseen
        | t :: _ =>
          if tapReserved (t.headD 0) then .fault (.unpredictableInDevice 244)
          else
            let s := (s.tosIn n t).laneReady n
            let ready := decide (ofBytes ((t.drop 4).take 1) / 2 % 2 = 1)
            let s := s.setBit (Reg.TPL_LANE_STATUS n) 5 ready
            let x := s.lane n
            let run := if ready then x.readyRun + 1 else 0
            let go := s.laneState n == 3 && decide (16 ≤ run) && x.toData.isNone
            .next (s.setLane n { x with readyRun := run, toData := if go then some 0 else x.toData })

/-- Whether a frame count comes before another, mod 2^16. -/
def countBefore (a b : Nat) : Bool := decide (0 < (b + 65536 - a) % 65536 ∧ (b + 65536 - a) % 65536 < 32768)

/-- The earliest of frame counts. -/
def earliest (a : Nat) (l : List Nat) : Nat := l.foldl (fun a b => if countBefore b a then b else a) a

/-- Whether a received slot holds a flit that the port layer can process: not one that was discarded (R242), and none of a reserved type, which is
discarded as if its CRC had failed (R250). -/
def slotFlit (f : Option (List Byte)) : Option (List Byte) := f.filter (fun b => decide (ofBytes (b.take 1) % 16 < 6))

/-- Slot `j` of the frames that the lanes of a port bear under one frame count, lane by lane (R255). -/
def slotRow (frames : List (List (Option (List Byte)))) (j : Nat) : List (List Byte) := frames.filterMap (fun f => slotFlit (f.getD j none))

/-- Whether a slot of the frames that the lanes of a port bear under one frame count brought no flit. -/
def slotsLack (frames : List (List (Option (List Byte)))) : Bool :=
  (List.range 40).any (fun j => frames.any (fun f => (slotFlit (f.getD j none)).isNone))

/-- Received frames are taken while every lane of a port has one, aligned by frame count: a lane that missed a frame lacks its slots (R255). A slot
that brought no flit may have held the expected one, and the port asks for it at once (R242, R252; DEDUCED, log entry 125). -/
def State.portCollect (s : State) (p : Nat) : Nat → State
  | 0 => s
  | k + 1 =>
    let lanes := s.portLanes p
    match (s.lane p).rx with
    | [] => s
    | h :: _ =>
      if lanes.any (fun n => (s.lane n).rx.isEmpty) then s
      else
        let at_ := earliest h.1 (lanes.map (fun n => match (s.lane n).rx with | g :: _ => g.1 | [] => h.1))
        let frames := lanes.map (fun n => match (s.lane n).rx with | g :: _ => if g.1 = at_ then g.2 else [] | [] => [])
        let s := lanes.foldl (fun s n =>
          let x := s.lane n
          match x.rx with
          | g :: rest => if g.1 = at_ then s.setLane n { x with rx := rest } else s
          | [] => s) s
        let y := s.port p
        let s := s.setPort p { y with rx := y.rx ++ (List.range 40).flatMap (slotRow frames) }
        (if slotsLack frames then s.nakOnce p else s).portCollect p k

/-- DATA_FRAME (R237, R238, R240, R242, R247, R249, R255): what the FEC made of it counts, and takes a lane that is not UP back to TRAIN where the
estimate reaches its threshold; the lane accepts it once it has set `to_data`, and is UP, or QUIET (R338); slots that
an uncorrectable codeword overlaps are discarded, and where one overlaps the header its count is the one that follows the last. -/
def execDataFrame (lane : Nat) (f : RxFrame) (s : State) : Host.Outcome State Fault Refusal :=
  let n := lane
  let st := s.laneState n
  if st < 2 then .next s
  else
    let ws := s.frameIn n f
    let s := (s.frameFec n ws).laneReady n
    let st := s.laneState n
    if (st = 3 ∧ (s.lane n).toData.isSome) ∨ st = 4 ∨ st = 5 then
    let head := payloadBytes ws 0 40
    let ft := head.map (fun h => h.headD 0)
    if ft = some 1 ∨ (st ≠ 3 ∧ ft = none) then
      let s := if st = 3 then (s.setLaneState n 4).powerChecks else s
      let slots := (List.range 40).map (fun j => payloadBytes ws (40 + 128 * j) 128)
      let x := s.lane n
      let count := match head with | some h => ofBytes ((h.drop 2).take 2) | none => (x.rxAt + 1) % 65536
      let keep : Bool := match s.lanePort n with | some p => s.portIsUp p | none => false
      let s := s.setLane n { x with failLogged := false, rxAt := count, rx := if keep then x.rx ++ [(count, slots)] else [] }
      match s.lanePort n with
      | some p =>
        .next (if keep then
            let s := s.portCollect p ((s.portLanes p).map (fun m => (s.lane m).rx.length)).sum
            s.skipReserved p (s.port p).rx.length
          else s)
      | none => .next s
    else .next s
    else .next (s.setLane n { s.lane n with readyRun := 0 })

/-- COMMA_LOCK (R241, R243, R247): SEEK to TRAIN. -/
def execCommaLock (lane : Nat) (s : State) : Host.Outcome State Fault Refusal :=
  .next (if s.laneState lane = 1 then s.setLaneState lane 2 else s)

/-- TRAIN_FAIL (R247, R356): logged once until the lane has been UP; the lane restarts, and B8 counts it as failed. -/
def execTrainFail (lane : Nat) (s : State) : Host.Outcome State Fault Refusal :=
  let st := s.laneState lane
  if st = 2 ∨ st = 3 then
    let x := s.lane lane
    let s := if x.failLogged then s
      else ((s.setLane lane { x with failLogged := true }).logRec 3 lane 0x0606 sevContained (s.laneOwner lane)
        (s.openDetail 0x0606)).stepFree
    let s : State := if s.boot.steps.contains 8 then
        { s with boot := { s.boot with failedLanes := s.boot.failedLanes ||| BitVec.ofNat 96 (2 ^ lane) } }
      else s
    .next (s.laneRestart lane)
  else .next s

end Sys2Proof.Machine
end

