-- ==== Sys2Proof/Machine/Flits.lean ====
section
/-!
DEFINITION. Flits that arrive at a port (R248 to R253, R258 to R263), the port's own events, and a port that comes up or goes
down (R247, R254).
-/
namespace Sys2Proof.Machine

/-! A port comes up and goes down. -/

/-- The channels bound to a port. -/
def State.portChans (s : State) (p : Nat) : List Nat := (List.range 256).filter (fun c => s.chanOn c && s.chanPort c == p)

/-- Whether the device is a time follower whose upstream port is this one (R326). -/
def State.timeUp (s : State) (p : Nat) : Bool := s.bit Reg.TIME_CTRL 0 && s.fld Reg.TIME_EXCH_CTRL 16 7 == p

/-- The time unit is a head (R321). -/
def State.isHead (s : State) : Bool := !(s.bit Reg.TIME_CTRL 0)

/-- Whether a head uses `PPS_IN` or `TIME_REFIN`. -/
def State.usesRef (s : State) (pps : Bool) : Bool :=
  s.isHead && (if pps then s.bit Reg.TIME_CTRL 3 else s.fld Reg.TIME_CTRL 1 2 != 0)

/-- The port of a follower's upstream. -/
def State.upPort (s : State) : Nat := s.fld Reg.TIME_EXCH_CTRL 16 7

/-- Whether the time unit sees the source that it is to follow: a reference of a head, the upstream port of a follower (R321). -/
def State.sourceSeen (s : State) : Bool :=
  if s.isHead then
    (s.usesRef true && s.bit Reg.TIME_STATUS 6) || (s.usesRef false && s.bit Reg.TIME_STATUS 5)
  else s.portIsUp s.upPort

/-- Route time has its source again (R322): HOLDOVER or FREE to ACQUIRE. -/
def State.timeReturns (s : State) : State :=
  let st := s.fld Reg.TIME_STATUS 0 3
  if st = 0 ∨ st = 3 then s.setFld Reg.TIME_STATUS 0 3 1 else s

/-- A forwarded flit finds no way on (R263, R327). -/
def State.hopDrop (s : State) (p : Nat) : State := (s.addReg (Reg.TPL_PORT_DROPS p) 1).logPortOnce p 0x0608 sevContained

/-- The forwarded flits that wait in a port that goes down are dropped and counted at the port on which they arrived, whose buffers are free
again (R251, R263). -/
def State.dropForwarded (s : State) (p : Nat) : State :=
  (s.port p).waiting.foldl (fun s q => q.2.foldl (fun s f =>
    match f.src with
    | some a => (if f.owes then s.freeBuf a q.1 else s).hopDrop a
    | none => s) s) s

/-- The session of a port ends: the buffers that forwarded flits held there are gone with it (R251, R254). -/
def State.endSession (s : State) (p : Nat) : State :=
  { s with ports := s.ports.map (fun (q : Nat × PortSt) => (q.1, { q.2 with waiting := q.2.waiting.map (fun w =>
      (w.1, w.2.map (fun f => if f.src = some p then { f with owes := false } else f))) })) }

/-- The record of a port that is down: its records of the beat and its accept window stay (R254, R266). -/
def State.portDead (s : State) (p : Nat) : State :=
  let y := s.port p
  (s.endSession p).setPort p { PortSt.reset with logged := y.logged, window := y.window, downSince := some s.now }

/-- A port goes down (R254). -/
def State.portDown (s : State) (p cause : Nat) : State :=
  if s.portIsUp p then
    let s := s.dropForwarded p
    let s := s.logPort p 0x0601 sevContained (toBytes p 1 ++ toBytes cause 1)
    let s := s.wr (Reg.TPL_PORT_STATUS p) (BitVec.ofNat 32 (2 * (cause % 8)))
    let s := s.portDead p
    let s := (s.portChans p).foldl (fun s c => s.chanBreak c) s
    let s := (s.portLanes p).foldl (fun s n => s.laneRestart n) s
    if s.timeUp p then s.loseTime 2 p else s
  else s

/-- Whether all lanes of a port run at one rate (R233). -/
def State.oneRate (s : State) (p : Nat) : Bool :=
  (s.portLanes p).all (fun n => s.fld (Reg.TPL_LANE_CTRL n) 1 2 == s.fld (Reg.TPL_LANE_CTRL p) 1 2)

/-- Whether all lanes of a port have one owner (R234). -/
def State.oneOwner (s : State) (p w : Nat) : Bool := (List.range w).all (fun i => s.laneOwner (p + i) == s.laneOwner p)

/-- Whether a port's lanes are UP and only their deskew is missing (R247 step 6). -/
def State.portReady (s : State) (p : Nat) : Bool :=
  s.bit (Reg.TPL_PORT_CTRL p) 0 && !(s.portIsUp p) && s.oneRate p && s.oneOwner p (s.portWidth p) && (s.portLanes p).all (fun n => s.laneState n == 4)

/-- PORT_UP (R233, R234, R247 step 6, R255, R266): every lane is UP at one rate, of one owner and deskewed, and the flit layer starts. -/
def execPortUp (port : Nat) (s : State) : Host.Outcome State Fault Refusal :=
  if s.portReady port then
    let y := s.port port
    let s := s.setPort port { PortSt.reset with logged := y.logged, downSince := none }
    let s := s.setBit (Reg.TPL_PORT_STATUS port) 0 true
    let s := s.wr (Reg.TPL_PORT_ACCEPT port) (BitVec.ofNat 32 (s.fld Reg.TPL_EPOCH 0 16))
    .next (if s.timeUp port && !s.fenced then s.timeReturns else s)
  else .next s

/-- PORT_DOWN (R254), with the cause of `down_cause`. A port whose lanes are UP and that fails deskew before it was up goes down in the same way:
it holds no credit and no channel yet. -/
def execPortDown (port : Nat) (cause : BitVec 3) (s : State) : Host.Outcome State Fault Refusal :=
  if s.portReady port then
    let s := s.logPort port 0x0601 sevContained (toBytes port 1 ++ toBytes cause.toNat 1)
    let s := s.wr (Reg.TPL_PORT_STATUS port) (BitVec.ofNat 32 (2 * cause.toNat))
    .next ((s.portLanes port).foldl (fun s n => s.laneRestart n) s)
  else .next (s.portDown port cause.toNat)

/-- HEARTBEAT_SEND (R254). -/
def execHeartbeatSend (port : Nat) (s : State) : Host.Outcome State Fault Refusal := .next (s.portCtl port [0])

/-- NAK_REPEAT (R252): the wanted flit has not come for 1 µs. -/
def execNakRepeat (port : Nat) (s : State) : Host.Outcome State Fault Refusal :=
  .next (if s.portIsUp port && (s.port port).nakFor == some (s.port port).rxNext then s.sendNak port else s)

/-- REPLAY_LIMIT (R253): 8 NAKs for one seq, or 10 µs without ack progress while flits are outstanding. -/
def execReplayLimit (port : Nat) (s : State) : Host.Outcome State Fault Refusal :=
  let x := s.port port
  if s.portIsUp port && (decide (8 ≤ x.naks.2) || !x.replay.isEmpty) then
    .next (((s.logPort port 0x0603 sevContained (s.openDetail 0x0603)).stepFree).portDown port 3)
  else .next s

/-! Unsequenced flits. -/

/-- IDLE_FLIT (R250, R251): its ack and credit. -/
def execIdleFlit (port : Nat) (h : FlitHdr) (crc : Bool) (s : State) : Host.Outcome State Fault Refusal :=
  .next (s.flitAccept port ftIdle h crc []).2

/-- LCTL_HEARTBEAT (R250, R254). -/
def execLctlHeartbeat (port : Nat) (h : FlitHdr) (crc : Bool) (s : State) : Host.Outcome State Fault Refusal :=
  .next (s.flitAccept port ftLctl h crc [0]).2

/-- The flits that a NAK asks for, from its seq on. -/
def fromSeq (q : Nat) : List (Nat × List Byte) → List (List Byte)
  | [] => []
  | x :: r => if x.1 = q then x.2 :: r.map (fun y => y.2) else fromSeq q r

/-- LCTL_NAK (R252, R253): the port resends from the named seq, in order. -/
def execLctlNak (port : Nat) (h : FlitHdr) (crc : Bool) (want : BitVec 12) (s : State) : Host.Outcome State Fault Refusal :=
  let (ok, s) := s.flitAccept port ftLctl h crc (1 :: toBytes (want.toNat * 4) 2)
  if ok then
    let x := s.port port
    let again := fromSeq want.toNat x.replay
    let naks := if x.naks.1 = want.toNat then (x.naks.1, x.naks.2 + 1) else (want.toNat, 1)
    let s := s.setPort port { x with resend := again, naks := naks }
    if again.isEmpty then .next s
    else .next ((s.addReg (Reg.TPL_PORT_REPLAYS port) 1).logPortOnce port 0x0602 sevCorrected)
  else .next s

/-- LCTL_ADAPT (R244 to R246, R248): the partner's request is applied once, and every later frame of the lane bears the answer. -/
def execLctlAdapt (port lane : Nat) (h : FlitHdr) (crc : Bool) (tos : BitVec 64) (s : State) : Host.Outcome State Fault Refusal :=
  let t := toBytes tos.toNat 8
  let (ok, s) := s.flitAccept port ftLctl h crc (2 :: t)
  if ok && (s.portLanes port).contains lane && s.laneState lane == 4 && ofBytes (t.drop 6) == crc16 (t.take 6) then
    if tapReserved (t.headD 0) then .fault (.unpredictableInDevice 244)
    else
      .next (s.tosIn lane t)
  else .next s

/-! Channel flits (R258 to R263). -/

/-- A channel flit is dropped and counted (R261). -/
def State.chanUnbound (s : State) (p : Nat) : State := (s.addReg (Reg.TPL_PORT_DROPS p) 1).logPortOnce p 0x0607 sevContained

/-- The bytes of a record: kind, tag and rows (R259). -/
def recordOf (b : ChanBody) : Nat × Nat × Nat :=
  let v := b.data.toNat
  (v % 256, v / 2 ^ 8 % 2 ^ 48, v / 2 ^ 56 % 8192)

/-- A channel flit is delivered to its channel, or dropped (R258, R259, R261). -/
def State.chanDeliver (s : State) (p : Nat) (b : ChanBody) : State :=
  let c := b.chan.toNat
  let rec_ := recordOf b
  let credit := b.marker && rec_.1 == 2
  if !(s.chanOn c) || s.chanPort c != p || s.chanState c == 2 || (s.chanOut c != credit) then s.chanUnbound p
  else if b.marker then
    if rec_.1 ≤ 2 then
      let x := s.chan c
      s.setChan c { x with inbox := x.inbox ++ [rec_] }
    else s
  else s.chanData c (min b.len.toNat 112) (toBytes b.data.toNat 112)

/-- A channel flit reaches a port: the port layer and the epoch check (R251, R252, R266). Whether the port layer accepted it, and whether it
goes on. -/
def State.chanArrive (s : State) (p type : Nat) (h : FlitHdr) (crc : Bool) (b : ChanBody) : Bool × Bool × State :=
  let (taken, s) := s.flitAccept p type h crc (chanBytes b)
  if taken then (true, s.epochCheck p h.epoch.toNat) else (false, false, s)

/-- The buffer of an accepted flit that stays on this device is freed (R251). -/
def State.freeIfTaken (s : State) (taken : Bool) (p : Nat) (h : FlitHdr) : State := if taken then s.freeBuf p h.vc.toNat else s

/-- DATA_FLIT (R258, R261, R262): delivered by this device. -/
def execDataFlit (port : Nat) (h : FlitHdr) (crc : Bool) (b : ChanBody) (s : State) : Host.Outcome State Fault Refusal :=
  let (taken, ok, s') := s.chanArrive port ftData h crc b
  let s' := s'.freeIfTaken taken port h
  .next (if ok then s'.chanDeliver port b else s')

/-- The through-port of a port, where it is enabled and up (R263). -/
def State.thruPort (s : State) (p : Nat) : Option Nat :=
  let q := s.fld (Reg.TPL_PORT_CTRL p) 8 7
  if s.bit (Reg.TPL_PORT_CTRL p) 15 && s.portIsUp q then some q else none

/-- HDATA_FLIT (R262, R263): delivered at hops 0, forwarded otherwise. -/
def execHdataFlit (port : Nat) (h : FlitHdr) (crc : Bool) (b : ChanBody) (s : State) : Host.Outcome State Fault Refusal :=
  let (taken, ok, s') := s.chanArrive port ftHdata h crc b
  let hops := b.route.toNat % 256
  if ok && hops != 0 then
    match s'.thruPort port with
    | some q =>
      let b' := { b with route := BitVec.ofNat 16 (hops - 1) }
      .next (
        let y := s'.port q
        let f : TxFlit := ⟨ftHdata, h.vc.toNat, h.epoch.toNat, chanBytes b', some port, s'.time, true⟩
        s'.setPort q { y with waiting := SMap.set y.waiting h.vc.toNat (SMap.get y.waiting [] h.vc.toNat ++ [f]) })
    | none => .next ((s'.freeIfTaken taken port h).hopDrop port)
  else
    let s' := s'.freeIfTaken taken port h
    .next (if ok then s'.chanDeliver port b else s')

/-- EDATA_FLIT (R261, R262): delivered where its endpoint is this device's. -/
def execEdataFlit (port : Nat) (h : FlitHdr) (crc : Bool) (b : ChanBody) (s : State) : Host.Outcome State Fault Refusal :=
  let (taken, ok, s') := s.chanArrive port ftEdata h crc b
  let s' := s'.freeIfTaken taken port h
  if ok then
    .next (if b.route.toNat = s'.fld Reg.TPL_EP_ID 0 16 then s'.chanDeliver port b else s'.chanUnbound port)
  else .next s'

/-! Records of a channel (R259). -/

/-- The first record of an inbox that is equal to one is taken out. -/
def dropRecord (x : Nat × Nat × Nat) : List (Nat × Nat × Nat) → List (Nat × Nat × Nat)
  | [] => []
  | y :: r => if y = x then r else y :: dropRecord x r

/-- A record is processed: it is no longer among those received. -/
def State.takeRecord (s : State) (c kind tag rows : Nat) : State :=
  let x := s.chan c
  s.setChan c { x with inbox := dropRecord (kind, tag, rows) x.inbox }

/-- Whether a channel takes a marker (R261). -/
def State.takesMarker (s : State) (c : Nat) : Bool := s.chanOn c && !(s.chanOut c) && s.chanState c != 2

/-- CREDIT_RECORD (R47, R160, R259, R260): the rows join the credit of an outbound channel. -/
def execCreditRecord (chan : Nat) (rows : BitVec 13) (s : State) : Host.Outcome State Fault Refusal :=
  let s := s.takeRecord chan 2 0 rows.toNat
  if s.chanOn chan && !(s.chanOwned chan) then .next (s.recordDrop chan)
  else if s.chanOn chan && s.chanOut chan && s.chanState chan != 2 then
    let s := s.chanAddCredit chan rows.toNat
    .next (s.edgeGrantAll (s.chanEdge chan))
  else .next s

/-- GAP_MARKER (R45, R46, R48, R259). -/
def execGapMarker (chan : Nat) (tag : BitVec 48) (rows : BitVec 13) (s : State) : Host.Outcome State Fault Refusal :=
  let s := s.takeRecord chan 1 tag.toNat rows.toNat
  .next (if s.chanOn chan && !(s.chanOwned chan) then s.recordDrop chan
    else if s.takesMarker chan then s.chanItem chan true tag.toNat rows.toNat else s)

end Sys2Proof.Machine
end

