-- ==== Sys2Proof/Machine/Floors.lean ====
section
/-!
DEFINITION. The floors and ceilings of the tile rails (R51 to R53, R345 to R347), and how START, SET_PERIOD and the resume of a
recovery raise a rail to its floor. Rails 0 to 3 are `VDD_T0` to `VDD_T3`, 4 is `VDD_F` and 5 `VDD_RET`.
-/
namespace Sys2Proof.Machine

/-- The last acknowledged voltage of a rail, mV. -/
def State.railMv (s : State) (r : Nat) : Nat := s.fld (Reg.PWR_RAIL_V r) 0 12

/-- Whether a request of a rail awaits its acknowledgement. -/
def State.railWaits (s : State) (r : Nat) : Bool := s.bit (Reg.PWR_RAIL_V r) 31

/-- `PWR_GOV_Qq_VOLT` follows a tile rail. -/
def State.showVolt (s : State) (r : Nat) : State :=
  if r < 4 then s.setFld (Reg.PWR_GOV_VOLT r) 0 8 (s.railMv r / 5) else s

/-- The quarters that a partition's columns touch. -/
def Part.quarters (x : Part) : List Nat :=
  (List.range 4).filter (fun q => decide (x.firstCol / 4 ≤ q ∧ q ≤ x.lastCol / 4))

/-- A quarter's record. -/
def State.quarter (s : State) (q : Nat) : QuarterSt := s.pwr.quarters.getD q QuarterSt.reset

/-- The state with a quarter's record replaced. -/
def State.setQuarter (s : State) (q : Nat) (x : QuarterSt) : State :=
  { s with pwr := { s.pwr with quarters := s.pwr.quarters.set q x } }

/-- A quarter's ceiling in 5 mV units: the lowest of 0.85 V, the power ceiling and the thermal ceiling (R51, R346). -/
def QuarterSt.ceil (x : QuarterSt) : Nat := min 170 (min x.ceilP x.ceilT)

/-- The partitions that hold a quarter's tiles in a state that counts: ARMED, RUNNING or resting in a rung (R51, R52). -/
def State.liveParts (s : State) (q : Nat) : List Nat :=
  (s.parts.filter (fun p => p.2.quarters.contains q && (s.pstate p.1 == psArmed || s.pstate p.1 == psRunning || p.2.rung != 0))).map (fun p => p.1)

/-- The largest declared budget of any variant of a partition (R52). -/
def State.budgetOf (s : State) (p : Nat) : Nat :=
  (List.range 8).foldl (fun m v => max m (s.fld (Reg.PART_VAR_BUDGET p v) 0 20)) 0

/-- The rated handshake rate of the part's bin in kHz (R4): what every tile makes at 0.75 V and up to 100 °C. -/
def ratedKhz : Nat := if Config.binH then 1550000 else 1400000

/-- The calibrated rate of the slowest tile of a quarter (R52), kHz: the table of boot step B4, which at 0.75 V is never below the rate
that R4 guarantees. -/
def calibrated (q v : Nat) (tj : Int) : Nat :=
  if v = 150 then max ratedKhz (Config.calibRate q v tj).toNat else (Config.calibRate q v tj).toNat

/-- The lowest voltage (5 mV units) at which a quarter covers a budget in a period (R52): 0.85 V where none does. -/
def State.floorFor (s : State) (q budget period : Nat) : Nat :=
  let tj := min ((s.quarter q).tj + 80) 800
  match (List.range 51).find? (fun i => decide (1000000 * budget ≤ calibrated q (120 + i) tj * (period - 40))) with
  | some i => 120 + i
  | none => 170

/-- The floor of a quarter in 5 mV units, for the partitions that count and the period in force (R52). -/
def State.floorOf (s : State) (q : Nat) : Nat :=
  match (s.liveParts q).foldl (fun m p => max m (s.budgetOf p)) 0 with
  | 0 => 120
  | b => s.floorFor q b s.periodNs

/-- The record field of a POWER notice (R305, R339): rung, ceiling in 5 mV units, scope (0 a partition, 1 the device) and partition or
0xFF; R305 lays out no more of it (log entry 119). -/
def powerBody (rung ceil scope p free : Nat) : List Byte :=
  toBytes rung 1 ++ toBytes ceil 1 ++ toBytes scope 1 ++ toBytes p 1 ++ (List.range 28).map (fun k => Config.openDetail 0xF004 free k)

/-- The lowest ceiling of a list of quarters (R305). -/
def State.lowCeil (s : State) (qs : List Nat) : Nat := qs.foldl (fun m q => min m (s.quarter q).ceil) 170

/-- A POWER notice of the device (R305, R339); `qs` are the quarters whose ceiling it shows. -/
def State.devNotice (s : State) (rung : Nat) (qs : List Nat) : State :=
  (s.notifyAll [0] 4 (powerBody rung (s.lowCeil qs) 1 0xFF s.free)).stepFree

/-- A POWER notice of a partition's rung (R305, R339): PF0 receives it. -/
def State.powerNotice (s : State) (p rung : Nat) : State :=
  let qs := match s.part p with | some x => x.quarters | none => []
  (s.notifyAll [0] 4 (powerBody rung (s.lowCeil qs) 0 p s.free)).stepFree

/-- A record of the governor (R347), to PF0 and to the owner of every partition in the quarter, with a POWER notice (R346); of the limit that
cannot be met the record alone (R345). -/
def State.throttleLog (s : State) (code : Nat) (quarter : Option Nat) (kind : Nat) (floor : Nat) : State :=
  let meas := s.fld Reg.PWR_MEAS 0 12
  let open_ (k : Nat) : Byte := Config.openDetail code s.free k
  let detail := match quarter with
    | some q => toBytes q 1 ++ toBytes kind 1 ++ toBytes (s.quarter q).ceil 1 ++ toBytes floor 1 ++ toBytes meas 2
    | none => toBytes 0xFF 1 ++ toBytes kind 1 ++ [open_ 2, open_ 3] ++ toBytes meas 2
  let s := { s with alertStatus := s.alertStatus ||| 2 }
  let s := s.stepFree.logRec 7 (match quarter with | some q => 0x10 + q | none => 0xFFF) code sevContained none detail
  let owners := (s.parts.filter (fun p => match quarter with | some q => p.2.quarters.contains q | none => false)).map (fun p => p.1 + 1)
  let s := match s.logLast with
    | some r => if r.code = code then s.notifyAll owners 0 r.bytes else s
    | none => s
  match quarter with
  | some q => s.devNotice s.devRung [q]
  | none => s

/-- A ceiling below the floor is logged, once per excursion of each cause (R55, R346, R347). -/
def State.throttle (s : State) (q floor : Nat) : State :=
  let x := s.quarter q
  let p := decide (x.ceilP < floor)
  let t := decide (x.ceilT < floor)
  let s := s.setQuarter q { x with loggedP := p, loggedT := t }
  let s := if p && !x.loggedP then s.throttleLog 0x0904 (some q) 0 floor else s
  if t && !x.loggedT then s.throttleLog 0x0903 (some q) 0 floor else s

/-! Requests over AVSBus (R340, R341), and the raises of START, SET_PERIOD and the resume of a recovery (R53). -/

/-- A command for a rail on its bus, with its rail select (R340). -/
def avsOut (r : Nat) (c : AvsCmd) : Output :=
  let place : Nat × Nat := [(0, 0), (0, 1), (1, 0), (1, 1), (1, 2)].getD r (0, 2)
  .avs place.1 place.2 c

/-- A voltage is written to a rail, and then read back until it is acknowledged (R341; log entry 134). -/
def State.avsWrite (s : State) (r mv : Nat) : State :=
  let s := { s with pwr := { s.pwr with want := SMap.set s.pwr.want r mv } }
  ((s.setBit (Reg.PWR_RAIL_V r) 31 true).emit (avsOut r (.write mv))).emit (avsOut r .readVoltage)

/-- A voltage is requested, unless a request is out or the rail holds it. -/
def State.avsRequest (s : State) (r mv : Nat) : State := if s.railWaits r || s.railMv r == mv then s else s.avsWrite r mv

/-- The floor of a quarter with the raises of the START and SET_PERIOD commands that are under way: the governor does not lower the rail
under them (R51, R53). -/
def State.floorDue (s : State) (q : Nat) : Nat :=
  s.mbx.foldl (fun m f => match f.2.running with
    | some ⟨_, _, _, .exit _ _ l, _⟩ | some ⟨_, _, _, .period _ _ l, _⟩ =>
      l.foldl (fun m x => if x.1 = q then max m x.2 else m) m
    | _ => m) (s.floorOf q)

/-- What the rail of a quarter is raised to for a floor: the lower of the floor and the quarter's ceiling, mV (R53). -/
def State.raiseMv (s : State) (x : Nat × Nat) : Nat := min x.2 (s.quarter x.1).ceil * 5

/-- Whether every raise of a list has been acknowledged, and no request of its rail is out (R53, R350). -/
def State.raised (s : State) (l : List (Nat × Nat)) : Bool :=
  l.all (fun x => !s.railWaits x.1 && decide (s.raiseMv x ≤ s.railMv x.1))

/-- The raises of a list as a command goes on to wait for them: one that is requested now stops at the ceiling in force
(R350; log entry 127). -/
def State.capped (s : State) (l : List (Nat × Nat)) : List (Nat × Nat) :=
  l.map (fun x => if !s.railWaits x.1 && s.railMv x.1 < s.raiseMv x then (x.1, min x.2 (s.quarter x.1).ceil) else x)

/-- The raises of a list that are still due are requested; a rail with a request out waits for its acknowledgement first (R51). -/
def State.askRaises (s : State) (l : List (Nat × Nat)) : State :=
  l.foldl (fun s x => if s.railMv x.1 < s.raiseMv x then s.avsRequest x.1 (s.raiseMv x) else s) s

/-- The quarters whose floor a START, or a resume, of a partition raises, each with its new floor (R53). -/
def State.floorsFor (s : State) (p : Nat) : List (Nat × Nat) :=
  match s.part p with
  | none => []
  | some x => (x.quarters.map (fun q => (q, if s.budgetOf p = 0 then 120 else s.floorFor q (s.budgetOf p) s.periodNs))).filter
      (fun y => decide (s.floorOf y.1 < y.2))

/-- The quarters whose floor a period raises, each with its new floor (R53). -/
def State.floorsAt (s : State) (period : Nat) : List (Nat × Nat) :=
  ((List.range 4).map (fun q =>
    let b := (s.liveParts q).foldl (fun m p => max m (s.budgetOf p)) 0
    (q, if b = 0 then 120 else s.floorFor q b period))).filter (fun y => decide (s.floorOf y.1 < y.2))

/-- The raises of a list begin (R53): they are requested, and a ceiling below a floor is logged. -/
def State.startRaises (s : State) (l : List (Nat × Nat)) : State :=
  l.foldl (fun s x => (s.setFld (Reg.PWR_GOV_VOLT x.1) 8 8 x.2).throttle x.1 x.2) (s.askRaises l)

end Sys2Proof.Machine
end

