-- ==== Sys2Proof/Machine/BootRecord.lean ====
section
/-!
DEFINITION. The boot record (R354, R355, R357) and the fallback state that it carries.
-/
namespace Sys2Proof.Machine

/-- Entries that a 64 KiB sector holds. -/
def sectorEntries : Nat := 1024

/-- The payload of a STATE entry, bytes [50:16] (R354). -/
def FallSt.payload (f : FallSt) : List Byte :=
  toBytes f.flags.toNat 1 ++ toBytes f.chans.toNat 2 ++ toBytes f.lanes.toNat 24 ++ toBytes f.cols.toNat 8

/-- The 64 bytes of an entry (R354). -/
def BootEntry.bytes (e : BootEntry) : List Byte :=
  let front := [0x44, 0x54, 0x42, 0x52] ++ toBytes e.boot 4 ++ toBytes e.seq 2 ++ toBytes e.kind 1 ++ toBytes e.step 1 ++
    toBytes e.phase 1 ++ toBytes e.result 1 ++ toBytes e.code 2 ++ (e.payload ++ List.replicate 44 0).take 44
  front ++ toBytes (crc32 front) 4

/-- The sector that is being written. -/
def BootSt.sector (b : BootSt) : List BootEntry := if b.inB then b.secB else b.secA

/-- An entry is appended to the sector that is being written. -/
def State.pushEntry (s : State) (kind step phase result code : Nat) (payload : List Byte) : State :=
  let b := s.boot
  let e : BootEntry := ⟨(s.rd Reg.BOOT_COUNT).toNat, b.seq, kind, step, phase, result, code, payload⟩
  { s with boot := { b with
      secA := if b.inB then b.secA else b.secA ++ [e]
      secB := if b.inB then b.secB ++ [e] else b.secB
      seq := b.seq + 1 } }

/-- The other sector is erased and becomes the one that is written; a STATE entry comes first there (R355). -/
def State.turnSector (s : State) : State :=
  let b := s.boot
  let s := { s with boot := { b with
    inB := !b.inB
    secA := if b.inB then [] else b.secA
    secB := if b.inB then b.secB else [] } }
  s.pushEntry 1 0 0 0 0 s.boot.fall.payload

/-- Whether the ROM waited for firmware through the test port: no flash access (R213; log entry 122). -/
def State.testMode (s : State) : Bool := decide (3 ≤ s.boot.mode.toNat)

/-- Whether the flash directory names a slot: an entry whose CRC fails is absent (R214). -/
def State.hasSlot (s : State) (k : Nat) : Bool := s.boot.slots.any (fun e => e.kind == k)

/-- Whether there is a boot record: its two sectors have their slots (R214, R215), and the flash is there (R213; log entry 122). -/
def State.hasRecord (s : State) : Bool := !s.testMode && s.hasSlot 4 && s.hasSlot 5

/-- The training values that the flash keeps of a channel (R287): none without its slot (R214), or in TEST (R213). -/
def State.stored (s : State) (ch : Nat) : Option Nat :=
  if s.testMode || !(s.hasSlot 6) then none else SMap.find s.trained ch

/-- An entry is written; a full sector is continued in the other one (R355). There is none without a record. -/
def State.bootEntry (s : State) (kind step phase result code : Nat) (payload : List Byte) : State :=
  if !s.hasRecord then s
  else
  let s := if sectorEntries ≤ s.boot.sector.length then s.turnSector else s
  s.pushEntry kind step phase result code payload

/-- The fallback state changes: a STATE entry is appended, and `BOOT_STATE` shows its flags (R355). -/
def State.setFall (s : State) (f : FallSt) : State :=
  let s := { s with boot := { s.boot with fall := f } }
  (s.bootEntry 1 0 0 0 0 f.payload).wr Reg.BOOT_STATE (f.flags.setWidth 32)

/-- The fallback state that a payload carries (R354). -/
def FallSt.ofPayload (b : List Byte) : FallSt :=
  let get (lo n : Nat) : Nat := ofBytes ((b.drop lo).take n)
  ⟨BitVec.ofNat 8 (get 0 1), BitVec.ofNat 16 (get 1 2), BitVec.ofNat 192 (get 3 24), BitVec.ofNat 64 (get 27 8)⟩

/-- The state of a channel (2 bits) and of a lane (2 bits), and the dead position of a column (4 bits) (R354). -/
def FallSt.chan (f : FallSt) (c : Nat) : Nat := f.chans.toNat / 4 ^ c % 4
def FallSt.lane (f : FallSt) (n : Nat) : Nat := f.lanes.toNat / 4 ^ n % 4
def FallSt.col (f : FallSt) (c : Nat) : Nat := f.cols.toNat / 16 ^ c % 16

/-- The number `v` with its digit `i` of `w` bits replaced. -/
def setDigit (v i w d : Nat) : Nat := v % 2 ^ (w * i) + d % 2 ^ w * 2 ^ (w * i) + v / 2 ^ (w * (i + 1)) * 2 ^ (w * (i + 1))

/-- The fallback state with a channel's state, a lane's state or a column's dead position replaced. -/
def FallSt.setChan (f : FallSt) (c v : Nat) : FallSt := { f with chans := BitVec.ofNat 16 (setDigit f.chans.toNat c 2 v) }
def FallSt.setLane (f : FallSt) (n v : Nat) : FallSt := { f with lanes := BitVec.ofNat 192 (setDigit f.lanes.toNat n 2 v) }
def FallSt.setCol (f : FallSt) (c v : Nat) : FallSt := { f with cols := BitVec.ofNat 64 (setDigit f.cols.toNat c 4 v) }

/-- The fallback state with one flag replaced: 0 fw_golden, 1 fab_golden, 2 fab_none, 3 long_req, 4 skip_long (R354). -/
def FallSt.setFlag (f : FallSt) (i : Nat) (b : Bool) : FallSt :=
  { f with flags := BitVec.ofNat 8 (setDigit f.flags.toNat i 1 b.toNat) }

/-- The entries of both sectors in (boot, seq) order: each sector is in order, and the sector that is being written is the
newer one (R355, R357). -/
def State.bootEntries (s : State) : List BootEntry :=
  if s.boot.inB then s.boot.secA ++ s.boot.secB else s.boot.secB ++ s.boot.secA

/-- Whether one entry is newer than another (R355). -/
def BootEntry.after (a b : BootEntry) : Bool := decide (b.boot < a.boot) || (a.boot == b.boot && decide (b.seq < a.seq))

/-- The newest entry of a list. -/
def newestEntry : List BootEntry → Option BootEntry
  | [] => none
  | e :: r =>
    match newestEntry r with
    | some d => if e.after d then some e else some d
    | none => some e

/-- The steps of a boot that have a start entry and no end entry: they never finished (R355). -/
def neverFinished (l : List BootEntry) (boot : Nat) : List Nat :=
  (List.range 12).filter (fun k =>
    l.any (fun e => e.boot == boot && e.kind == 0 && e.step == k && e.phase == 0) &&
    !(l.any (fun e => e.boot == boot && e.kind == 0 && e.step == k && e.phase == 1)))

end Sys2Proof.Machine
end

