-- ==== Sys2Proof/Machine/Dram.lean ====
section
/-!
DEFINITION. The DRAM hubs and controllers (R274 to R294), the requests of tiles and of fabric sectors (R181, R206, R208), and the
system port through which the host and firmware reach the DRAM. Data moves when a request completes (log entry 40).
-/
namespace Sys2Proof.Machine

/-- A controller's record. -/
def State.dch (s : State) (ch : Nat) : DramCh := SMap.get s.dramCh DramCh.reset ch

/-- The state with a controller's record replaced. -/
def State.setDch (s : State) (ch : Nat) (x : DramCh) : State := { s with dramCh := SMap.set s.dramCh ch x }

/-- A controller's state: 0 disabled, 1 training, 2 active, 3 self-refresh, 4 held self-refresh, 5 pause, 6 reset. -/
def State.ddrState (s : State) (ch : Nat) : Nat := s.fld (Reg.DDR_STATUS ch) 0 3

/-- The state with a controller's state replaced. -/
def State.setDdrState (s : State) (ch v : Nat) : State := s.setFld (Reg.DDR_STATUS ch) 0 3 v

/-- The device address of a channel offset (R275). -/
def State.dramAddr (s : State) (ch o : Nat) : Nat :=
  if s.bit Reg.DDR_MAP_CTRL 0 then ch / 4 * 2 ^ 38 + o / 2 ^ 12 * 2 ^ 14 + ch % 4 * 2 ^ 12 + o % 2 ^ 12
  else ch * 2 ^ 36 + o

/-- The bank of an offset: rank × 32 + bank group × 4 + bank (log entry 41: a bank spans both subchannels). -/
def State.ddrBank (s : State) (ch o : Nat) : Nat := s.ddrRank ch o % 2 * 32 + s.ddrGroup ch o * 4 + ddrBankIdx o

/-- The refresh index of a bank: rank × 4 + bank. -/
def bankDebt (bank : Nat) : Nat := bank / 32 * 4 + bank % 4

/-! Findings (R290). -/

/-- The detail of a record of a burst. -/
def State.dramDetail (s : State) (ch burst finder port symbol : Nat) : List Byte :=
  let o := burst * 64
  toBytes ch 1 ++ toBytes (ddrSub o + 2 * s.ddrRank ch o) 1 ++ toBytes (s.dramAddr ch o) 5 ++ toBytes finder 1 ++
  toBytes port 1 ++ toBytes symbol 1

/-- A record of a controller that is made once per channel and beat. -/
def State.logDramOnce (s : State) (ch code sev : Nat) (part : Option Nat) (detail : List Byte) : State :=
  let x := s.dch ch
  if x.logged.contains code then s
  else (s.setDch ch { x with logged := x.logged ++ [code] }).logRec 4 ch code sev part detail

/-- An upset of a burst enters a controller's record: an uncorrectable one stands over a correctable one. -/
def addUpset (u : Nat × Nat × Nat) (l : List (Nat × Nat × Nat)) : List (Nat × Nat × Nat) :=
  match l.find? (fun v => v.1 == u.1) with
  | some v => if 2 ≤ v.2.1 then l else u :: l.filter (fun w => w.1 != u.1)
  | none => u :: l

/-- The upset of a finding that a command brings, for a request that starts at a burst. -/
def findUpset (base : Nat) (f : DramFind) : Nat × Nat × Nat :=
  (base + f.burst, (if f.uncorrectable then 2 else if f.check then 1 else 0), f.symbol.toNat)

/-- A burst is read (R290): its findings are counted and logged; a correctable one is queued for write-back unless 8 are queued
(`patrol` writes back itself). Whether it is uncorrectable. -/
def State.burstRead (s : State) (ch burst finder port : Nat) (part : Option Nat) : Bool × State :=
  match (s.dch ch).upsets.find? (fun v => v.1 == burst) with
  | none => (false, s)
  | some (_, kind, symbol) =>
    if 2 ≤ kind then
      let s := s.addReg (Reg.DDR_UE_COUNT ch) 1
      let s := if s.bit (Reg.DDR_UE_STATUS ch) 0 then s.setBit (Reg.DDR_UE_STATUS ch) 1 true
        else
          ((s.wr2 (Reg.DDR_UE_ADDR_LO ch) (Reg.DDR_UE_ADDR_HI ch) (s.dramAddr ch (burst * 64))).setBit (Reg.DDR_UE_STATUS ch) 0 true)
      (true, s.logRec 4 ch 0x0703 sevContained part (s.dramDetail ch burst finder port 0xFF))
    else
      let s := if kind = 0 then s.addReg (Reg.DDR_CE_COUNT ch) 1 else s.addReg (Reg.DDR_CE_CHECK_COUNT ch) 1
      let s := s.logDramOnce ch (if kind = 0 then 0x0701 else 0x0702) sevCorrected part (s.dramDetail ch burst finder port symbol)
      let x := s.dch ch
      if finder = 2 then
        (false, s.setDch ch { x with upsets := x.upsets.filter (fun v => v.1 != burst), wb := x.wb.filter (fun b => b != burst) })
      else if x.wb.contains burst ∨ 8 ≤ x.wb.length then (false, s)
      else (false, s.setDch ch { x with wb := x.wb ++ [burst] })

/-- The bytes of a run of a channel as a read delivers them: raw where a burst is uncorrectable (R290). -/
def State.dramBytes (s : State) (ch o n : Nat) : List Byte :=
  let raw := ((s.dch ch).upsets.filter (fun v => v.2.1 == 2)).map (fun v => v.1)
  let bs := s.dram.readList (ch * 2 ^ 36 + o) n
  if raw.isEmpty then bs
  else (List.range n).map (fun i =>
    if raw.contains ((o + i) / 64) then Config.rawBurst (ch * 2 ^ 30 + (o + i) / 64) ((o + i) % 64) else bs.getD i 0)

/-- The bursts of a run. -/
def burstsOf (o n : Nat) : List Nat := (List.range ((o + n - 1) / 64 - o / 64 + 1)).map (fun i => o / 64 + i)

/-- A read of a channel: the bytes, whether a burst is uncorrectable, and the state (R290). -/
def State.dramRead (s : State) (ch o n finder port : Nat) (part : Option Nat) : List Byte × Bool × State :=
  let bs := s.dramBytes ch o n
  let r := (burstsOf o n).foldl (fun (z : Bool × State) b =>
    let q := z.2.burstRead ch b finder port part
    (z.1 || q.1, q.2)) (false, s)
  (bs, r.1, r.2)

/-- A burst is written whole: fresh check symbols, no upset and no queued write-back (R290, R291). -/
def State.freshBurst (s : State) (ch b : Nat) : State :=
  let x := s.dch ch
  if x.upsets.isEmpty ∧ x.wb.isEmpty then s
  else s.setDch ch { x with upsets := x.upsets.filter (fun v => v.1 != b), wb := x.wb.filter (fun c => c != b) }

/-- A burst is written in part (R291): it is read, merged and written back, poisoned where the read is uncorrectable; no write-back of it stays
queued (R290). -/
def State.mergeBurst (s : State) (ch b port : Nat) (part : Option Nat) : State :=
  let raw := s.dramBytes ch (b * 64) 64
  let (bad, s) := s.burstRead ch b 1 port part
  if bad then
    let x := s.dch ch
    { (s.setDch ch { x with
        upsets := (b, 3, 0xFF) :: x.upsets.filter (fun v => v.1 != b), wb := x.wb.filter (fun c => c != b) }) with
      dram := s.dram.write (ch * 2 ^ 36 + b * 64) raw }
  else s.freshBurst ch b

/-- A write of a run of bytes of a channel (R291). -/
def State.dramWrite (s : State) (ch o port : Nat) (part : Option Nat) (bs : List Byte) : State :=
  if bs.isEmpty then s
  else
    let s := (burstsOf o bs.length).foldl (fun s b =>
      if o ≤ b * 64 ∧ b * 64 + 64 ≤ o + bs.length then s.freshBurst ch b else s.mergeBurst ch b port part) s
    { s with dram := s.dram.write (ch * 2 ^ 36 + o) bs }

/-! Replies (R278). -/

/-- The argument of an answer: a read's request-table entry or a write's address, the error bit and the cause. -/
def answerArg (p : Pkt) (cause : Nat) : Nat :=
  (if p.type.toNat = ptDrd then p.argField 104 5 * 2 ^ 40 else p.argField 64 40) +
    (if cause = 0 then 0 else 2 ^ 47 + cause * 2 ^ 48)

/-- A hub answers a packet of a tile with its own partition and generation (R189, R278). -/
def State.hubAnswer (s : State) (p : Pkt) (cause : Nat) (row : Row) : State :=
  let e := p.dst.toNat
  let ty := if p.type.toNat = ptDrd then ptDrdr else ptDwra
  s.sendFromEdge e { Pkt.make p.src.toNat p.skind e true ty p.ctx.toNat (answerArg p cause) row with part := p.part, gen := p.gen }

/-- The answers of fabric requests that no earlier request of the same sector and stream holds back leave (R208). -/
def fabReady : List FabReq → List (Nat × Nat) → List FabReq × List FabReq
  | [], _ => ([], [])
  | q :: l, held =>
    let stays := q.answer.isNone || held.contains (q.hub, q.src)
    let r := fabReady l (if stays then (q.hub, q.src) :: held else held)
    if stays then (r.1, q :: r.2) else (q :: r.1, r.2)

/-- The controller has answered a request of a fabric sector (R208, R278). -/
def State.fabAnswer (s : State) (num cause : Nat) (row : Row) : State :=
  let l := s.fabReqs.map (fun q => if q.num = num then { q with answer := some (cause != 0, cause, row) } else q)
  let r := fabReady l []
  r.1.foldl (fun s q =>
    match q.answer with
    | some (err, cause, row) => s.emit (.fabricReply (16 * q.hub + q.src % 16) (q.src / 16) err cause row)
    | none => s) { s with fabReqs := r.2 }

/-- A request of a host read is answered; the last one completes the read (R290, R298), or sends a dump on to the host buffer (R368). -/
def State.readAnswer (s : State) (num piece cause : Nat) (bs : List Byte) : State :=
  match s.hostReads.find? (fun h => h.num == num) with
  | none => s
  | some h =>
    let h := { h with
      left := h.left - 1, got := SMap.set h.got piece bs, ue := h.ue || cause == 1, abort := h.abort || cause == 3 }
    let rest := s.hostReads.filter (fun h => h.num != num)
    if h.left = 0 then
      let bytes := h.got.flatMap (fun g => g.2)
      let s := if h.abort && h.dma.isNone then s.setBit (Reg.PCI_AER h.fn 0) 15 true else s
      ({ s with hostReads := rest } : State).emit
        (match h.dma with
         | some a => .hostWrite h.fn a bytes
         | none => if h.abort then .readAbort h.fn else if h.ue then .readPoisoned h.fn bytes else .readReply h.fn bytes)
    else { s with hostReads := s.hostReads.map (fun g => if g.num = num then h else g) }

/-- A request is answered (R278): to its tile, to its sector of the hub's band (R208, R274), or to the host. -/
def State.dramAnswer (s : State) (q : DramReq) (cause : Nat) (row : Row) : State :=
  match q.to_ with
  | .tile p => s.hubAnswer p cause row
  | .fab num => s.fabAnswer num cause row
  | .read num piece => s.readAnswer num piece cause ((toBytes row.toNat 1024).take q.len)
  | .posted => s
  | .patrol => s

/-- The row of an answer that carries no data of the DRAM: open (log entry 15). -/
def State.openRow (s : State) : Row × State := (Config.freeRow s.free, s.stepFree)

/-- An error answer that is given at once. -/
def State.answerError (s : State) (q : DramReq) (cause : Nat) : State :=
  let (row, s) := s.openRow
  s.dramAnswer q cause row

/-! Arrival at a hub. -/

/-- A hub logs a refused request, once per port and beat (R277). -/
def State.hubViolation (s : State) (hub port : Nat) (part : Option Nat) : State :=
  if s.hubLogged.contains (hub * 8 + port) then s
  else
    let s := { s with hubLogged := s.hubLogged ++ [hub * 8 + port] }
    (s.logRec 4 (0x100 + hub) 0x0401 sevContained part (s.openDetail 0x0401)).stepFree

/-- Whether a controller takes requests: the cause CHANNEL where it does not (R278, R286, R293). -/
def State.ddrServes (s : State) (ch : Nat) : Bool :=
  let st := s.ddrState ch
  s.bit (Reg.DDR_CTRL ch) 0 && !(s.dch ch).held && (st == 2 || st == 3 || st == 5)

/-- A write of a fabric sector takes effect when the controller accepts it (R208); a read of the same source that came before it and is not
answered still delivers what it found, and meets the upsets that stood there (R279, R290). -/
def State.acceptWrite (s : State) (ch : Nat) (q : DramReq) : State :=
  let o := (s.dramLoc q.addr).2
  let x := s.dch ch
  let s := s.setDch ch { x with queue := x.queue.map (fun r =>
    if r.port = q.port ∧ r.src = q.src ∧ !r.write ∧ r.taken.isNone then
      let at_ := (s.dramLoc r.addr).2
      { r with taken := some (s.dramBytes ch at_ r.len, x.upsets.filter (fun u => (burstsOf at_ r.len).contains u.1)) }
    else r) }
  s.dramWrite ch o q.port q.part (toBytes q.data.toNat q.len)

/-- A request joins the queue of a controller that takes requests; another answers with cause CHANNEL (R278). -/
def State.enqueue (s : State) (ch : Nat) (q : DramReq) : State :=
  if s.ddrServes ch then
    let s := if q.port = 4 ∧ q.write then s.acceptWrite ch q else s
    let x := s.dch ch
    s.setDch ch { x with nextId := x.nextId + 1, queue := x.queue ++ [{ q with id := x.nextId }] }
  else s.answerError q 3

/-- A request reaches a hub (R277, R278): refused, answered with an error, or queued at its controller. -/
def State.hubRequest (s : State) (hub : Nat) (ok : Bool) (q : DramReq) : State :=
  let ch := (s.dramLoc q.addr).1
  if !ok || s.dramHole q.addr || ch / 4 != hub then (s.hubViolation hub q.port q.part).answerError q 2
  else s.enqueue ch q

/-- A packet for a hub becomes a request: port by column, stream ID by column, row and context (R274). -/
def hubReq (now : Nat) (p : Pkt) : DramReq :=
  let t := p.src.toNat
  { id := 0, port := t / 8 / 4, src := t / 8 % 4 + 4 * (t % 8) + 32 * p.ctx.toNat, write := p.type.toNat == ptDwr
    addr := p.argField 64 40, len := 1024, data := p.payload, issued := false, opened := false, at_ := now, paused := 0
    part := some p.part.toNat, to_ := .tile p, taken := none }

/-- A packet of a tile reaches its hub. -/
def State.hubPacket (s : State) (p : Pkt) : State :=
  let q := hubReq s.now p
  s.hubRequest (p.dst.toNat / 16) (s.inRange p.part.toNat q.addr 1024 && q.addr % 1024 == 0) q

/-- DRD (R181, R188, R189, R274, R277): a tile's read request. -/
def execDrd (p : Pkt) (s : State) : Host.Outcome State Fault Refusal :=
  if p.type.toNat = ptDrd ∧ p.dkind ∧ p.dst.toNat < 32 then
    let (ok, s) := s.edgeArrive p
    .next (if ok then s.hubPacket p else s)
  else .next s

/-- DWR (R120, R188, R189, R206, R274, R277): a tile's row for the DRAM, which uses the room that its RESERVE was granted; one of an attempt that was
restarted had its room then (R124; log entry 132). -/
def execDwr (p : Pkt) (s : State) : Host.Outcome State Fault Refusal :=
  if p.type.toNat = ptDwr ∧ p.dkind ∧ p.dst.toNat < 32 then
    let e := p.dst.toNat
    let (ok, s) := s.edgeArrive p
    if ok then
      let x := s.edge e
      if s.undone p then .next (s.hubPacket p) else
      match useGrant p.src.toNat p.ctx.toNat true x.grants with
      | some rest => .next ((s.setEdge e { x with grants := rest }).hubPacket p)
      | none => .next s
    else .next s
  else .next s

/-- Requests of a sector that are outstanding (R208). -/
def State.fabOutstanding (s : State) (sector : Nat) : Nat :=
  (s.fabReqs.filter (fun q => q.hub == sector / 16 && q.src % 16 == sector % 16)).length

/-- FAB_DRAM_REQUEST (R208, R209, R274, R277): a request of a sector whose DRAM port is connected, a write one whose write enables are
released; a sector has at most 64 outstanding. -/
def execFabDramRequest (sector : Nat) (addr : BitVec 40) (wide write : Bool) (stream : BitVec 4) (data : Row) (s : State) :
    Host.Outcome State Fault Refusal :=
  let len := if wide then 1024 else 64
  let owner := s.colPart (sector % 16)
  let live : Bool := match owner with | some p => decide (write.toNat + 1 ≤ s.relStage p) | none => false
  if sector < 32 ∧ live ∧ addr.toNat % len = 0 ∧ s.fabOutstanding sector < 64 then
    let src := sector % 16 + 16 * stream.toNat
    let q : DramReq := { id := 0, port := 4, src := src, write := write, addr := addr.toNat, len := len, data := data, issued := false
                         opened := false, at_ := s.now, paused := 0, part := owner, to_ := .fab s.reqNum, taken := none }
    let ok : Bool := match owner with | some p => s.inRange p addr.toNat len | none => false
    let s : State := { s with fabReqs := s.fabReqs ++ [⟨sector / 16, src, s.reqNum, none⟩], reqNum := s.reqNum + 1 }
    .next (s.hubRequest (sector / 16) ok q)
  else .next s

/-! Command slots (R279 to R284). -/

/-- The time that a request has spent in the pause that a channel is in. -/
def State.inPause (s : State) (ch : Nat) (q : DramReq) : Nat :=
  if s.ddrState ch = 5 then s.now - max (s.dch ch).pauseAt q.at_ else 0

/-- The age of a request, without pauses (R280). -/
def State.reqAge (s : State) (ch : Nat) (q : DramReq) : Nat := s.now - q.at_ - q.paused - s.inPause ch q

/-- The urgency of a request (R280); the patrol's is 0 until it has waited ten scrub intervals (R281). -/
def State.urgency (s : State) (ch : Nat) (q : DramReq) : Nat :=
  let T := s.fld (Reg.DDR_PORT_QOS ch q.port) 0 14
  let a := s.reqAge ch q
  if q.to_ = .patrol then (if 10 * (s.fld (Reg.DDR_SCRUB_CTRL ch) 0 16 * 1000) ≤ a then 1 else 0)
  else if 2 * a < T then 0 else if 4 * a < 3 * T then 1 else if a < T then 2 else 3

/-- The bank and row of a request. -/
def State.reqBank (s : State) (ch : Nat) (q : DramReq) : Nat := s.ddrBank ch (s.dramLoc q.addr).2
def State.reqRow (s : State) (ch : Nat) (q : DramReq) : Nat := s.ddrRow ch (s.dramLoc q.addr).2

/-- The open row of a bank. -/
def openRowOf (rows : List (Nat × Nat)) (bank : Nat) : Option Nat :=
  match rows.find? (fun r => r.1 == bank) with
  | some r => some r.2
  | none => none

/-- Whether a request hits its open row. -/
def State.rowHit (s : State) (ch : Nat) (q : DramReq) : Bool := openRowOf (s.dch ch).rows (s.reqBank ch q) == some (s.reqRow ch q)

/-- Whether an earlier request of the same source has not been issued (R279). -/
def heldBack (queue : List DramReq) (q : DramReq) : Bool :=
  queue.any (fun r => r.port == q.port && r.src == q.src && decide (r.id < q.id) && !r.issued)

/-- The refresh limit (R283). -/
def State.postponeMax (s : State) (ch : Nat) : Nat := max 1 (s.fld (Reg.DDR_REF_CTRL ch) 0 4)

/-- The refresh indices whose debt forces a refresh (R284). -/
def State.forcedIdx (s : State) (ch : Nat) : List Nat :=
  (List.range 8).filter (fun i => decide (s.postponeMax ch ≤ SMap.get (s.dch ch).debt 0 i))

/-- Whether one request goes before another (R281). -/
def State.reqBefore (s : State) (ch : Nat) (a b : DramReq) : Bool :=
  let ua := s.urgency ch a
  let ub := s.urgency ch b
  let ha := s.rowHit ch a
  let hb := s.rowHit ch b
  if ua ≠ ub then decide (ub < ua)
  else if ha ≠ hb then ha
  else if s.reqAge ch a ≠ s.reqAge ch b then decide (s.reqAge ch b < s.reqAge ch a)
  else if a.port ≠ b.port then decide (a.port < b.port)
  else decide (a.id < b.id)

/-- The request that a slot serves (R281). -/
def State.pickReq (s : State) (ch : Nat) (l : List DramReq) : Option DramReq :=
  l.foldl (fun (best : Option DramReq) q =>
    match best with
    | none => some q
    | some b => if s.reqBefore ch q b then some q else some b) none

/-- A REFsb: the debt falls by one (R283). -/
def State.refsb (s : State) (ch i : Nat) : State :=
  let x := s.dch ch
  s.setDch ch { x with debt := SMap.set x.debt i (SMap.get x.debt 0 i - 1) }

/-- The predictor of a bank (R282): the ones among the last four accesses, at most 3. -/
def predictor (h : Nat) : Nat := min 3 (h % 2 + h / 2 % 2 + h / 4 % 2 + h / 8 % 2)

/-- A bank is accessed at a row (R282): the history takes whether the row was open, and the predictor keeps the row open or closes it. -/
def State.pageAccess (s : State) (ch bank row : Nat) (hit : Bool) : State :=
  let x := s.dch ch
  let h := (SMap.get x.hist 0 bank * 2 + hit.toNat) % 16
  let keep := decide (s.fld (Reg.DDR_PAGE_CTRL ch) 0 2 ≤ predictor h)
  let others := x.rows.filter (fun r => r.1 != bank)
  s.setDch ch { x with hist := SMap.set x.hist bank h, rows := if keep then (bank, row) :: others else others }

/-- An access that the controller itself makes at once (log entry 56): its bank is accessed. -/
def State.touch (s : State) (ch o : Nat) : State :=
  let bank := s.ddrBank ch o
  let row := s.ddrRow ch o
  s.pageAccess ch bank row (openRowOf (s.dch ch).rows bank == some row)

/-- A command for a request (R281, R282): its row is precharged, activated, or accessed. -/
def State.reqCommand (s : State) (ch : Nat) (q : DramReq) : State :=
  let x := s.dch ch
  let bank := s.reqBank ch q
  let upd (x : DramCh) (f : DramReq → DramReq) : DramCh := { x with queue := x.queue.map (fun r => if r.id = q.id then f r else r) }
  match openRowOf x.rows bank with
  | none => s.setDch ch (upd { x with rows := (bank, s.reqRow ch q) :: x.rows } (fun r => { r with opened := true }))
  | some row =>
    if row = s.reqRow ch q then
      let s := s.pageAccess ch bank row (!q.opened)
      s.setDch ch (upd (s.dch ch) (fun r => { r with issued := true }))
    else s.setDch ch (upd { x with rows := x.rows.filter (fun r => r.1 != bank) } (fun r => { r with opened := true }))

/-! Retraining pauses (R284, R288, R289, R294). -/

/-- Whether a refresh debt is next to its limit: no pause starts (R284). -/
def State.debtNear (s : State) (ch : Nat) : Bool :=
  (List.range 8).any (fun i => decide (s.postponeMax ch ≤ SMap.get (s.dch ch).debt 0 i + 1))

/-- A pause starts (R288, R289): rows close; the new centre applies where an eye was found; a narrow eye is logged. -/
def State.startPause (s : State) (ch : Nat) (p : Pause) : State :=
  let x := s.dch ch
  let s := (s.setDch ch { x with
    rows := [], pauseAt := s.now
    centre := if p.eye then SMap.set x.centre (p.rank * 2 + p.sub) p.centre else x.centre }).setDdrState ch 5
  let old := s.fld (Reg.DDR_TRAIN_STATUS ch) 0 8
  let s := if (p.rank = 0 ∧ p.sub = 0) ∨ p.margin.toNat < old then
      s.wr (Reg.DDR_TRAIN_STATUS ch) (BitVec.ofNat 32 (p.margin.toNat + 256 * (p.sub % 2) + 512 * (p.rank % 2)))
    else s
  if p.margin.toNat < s.fld (Reg.DDR_TRAIN_CTRL ch) 16 8 ∨ !p.eye then
    s.logRec 4 ch 0x0704 sevContained none
      (toBytes ch 1 ++ toBytes (p.sub % 2 + 2 * (p.rank % 2)) 1 ++ toBytes p.lane 1 ++ toBytes p.margin.toNat 1 ++ toBytes (!p.eye).toNat 1)
  else s

/-- A channel becomes active, unless a pause is due, which comes first (R288, R294). -/
def State.toActive (s : State) (ch : Nat) : State :=
  let x := s.dch ch
  match x.due with
  | p :: rest => if s.debtNear ch then s.setDdrState ch 2 else (s.setDch ch { x with due := rest }).startPause ch p
  | [] => s.setDdrState ch 2

/-- DRAM_COMMAND_SLOT (R279, R281 to R284, R294): a pause that a refresh debt put off starts once the debt permits it; forced refresh goes
first; then a request among those whose timing permits; then a refresh of an idle index that has debt. -/
def execDramCommandSlot (ch : Nat) (permits idle : List Nat) (s : State) : Host.Outcome State Fault Refusal :=
  if s.ddrState ch = 2 ∧ (s.dch ch).due ≠ [] ∧ s.debtNear ch = false then .next (s.toActive ch)
  else if s.ddrState ch = 2 then
    let x := s.dch ch
    let forced := s.forcedIdx ch
    match forced.find? (fun i => idle.contains i) with
    | some i =>
      let s := s.setDch ch { x with rows := x.rows.filter (fun r => bankDebt r.1 != i) }
      let s := (s.refsb ch i).addReg (Reg.DDR_REF_FORCED ch) 1
      .next ((s.logDramOnce ch 0x0705 sevCorrected none (s.openDetail 0x0705)).stepFree)
    | none =>
      let s := s.setDch ch { x with rows := x.rows.filter (fun r => !(forced.contains (bankDebt r.1))) }
      let can := x.queue.filter (fun q =>
        permits.contains q.id && !q.issued && !(heldBack x.queue q) && !(forced.contains (bankDebt (s.reqBank ch q))))
      match s.pickReq ch can with
      | some q => .next (s.reqCommand ch q)
      | none =>
        let y := s.dch ch
        match idle.find? (fun i => decide (0 < SMap.get y.debt 0 i) && y.rows.all (fun r => bankDebt r.1 != i) &&
            y.queue.all (fun q => q.issued || bankDebt (s.reqBank ch q) != i)) with
        | some i => .next (s.refsb ch i)
        | none => .next s
  else .next s

/-- The upsets that a command brings for a run that starts at an offset. -/
def State.addFinds (s : State) (ch o n : Nat) (finds : List DramFind) : State :=
  let x := s.dch ch
  s.setDch ch { x with upsets := finds.foldl (fun l f => if f.burst * 64 < o % 64 + n then addUpset (findUpset (o / 64) f) l else l) x.upsets }

/-- The patrol's burst is read (R292): the position moves on, and a correctable burst is written back. -/
def State.patrolDone (s : State) (ch : Nat) (q : DramReq) : State :=
  let b := (s.dramLoc q.addr).2 / 64
  let total := s.dramCap ch / 64
  let last := decide (total ≤ b + 1)
  let s := s.wr (Reg.DDR_SCRUB_POS ch) (BitVec.ofNat 32 (if last then 0 else b + 1))
  let s := if last then s.addReg (Reg.DDR_SCRUB_PASSES ch) 1 else s
  (s.burstRead ch b 2 5 q.part).2

/-- A read that a later write of its source overtook meets the upsets that stood there, and those that its completion brings (R279, R290):
whether a burst was uncorrectable. The burst has been written since: nothing is queued for it, and no upset of it stays. -/
def State.readTaken (s : State) (ch : Nat) (q : DramReq) (o : Nat) (ups : List (Nat × Nat × Nat)) (finds : List DramFind) : Bool × State :=
  let x := s.dch ch
  let ups := finds.foldl (fun l f => if f.burst * 64 < o % 64 + q.len then addUpset (findUpset (o / 64) f) l else l) ups
  let (_, bad, s) := (s.setDch ch { x with upsets := ups }).dramRead ch o q.len 0 q.port q.part
  (bad, s.setDch ch { s.dch ch with upsets := x.upsets, wb := x.wb })

/-- A request completes (R278 to R280, R290, R291): data is read or written, the answer leaves, and a missed target is counted. -/
def State.reqDone (s : State) (ch : Nat) (q : DramReq) (finds : List DramFind) : State :=
  let o := (s.dramLoc q.addr).2
  let s := if s.fld (Reg.DDR_PORT_QOS ch q.port) 0 14 < s.reqAge ch q then s.addReg (Reg.DDR_PORT_MISS ch q.port) 1 else s
  let x := s.dch ch
  let s := s.setDch ch { x with queue := x.queue.filter (fun r => r.id != q.id) }
  if q.write then
    if q.port = 4 then s.dramAnswer q 0 0
    else ((s.addFinds ch o q.len finds).dramWrite ch o q.port q.part (toBytes q.data.toNat q.len)).dramAnswer q 0 0
  else match q.taken with
    | some (bs, ups) =>
      let (bad, s) := s.readTaken ch q o ups finds
      s.dramAnswer q (if bad then 1 else 0) (BitVec.ofNat 8192 (ofBytes bs))
    | none =>
      let s := s.addFinds ch o q.len finds
      if q.to_ = .patrol then s.patrolDone ch q
      else
        let (bs, bad, s) := s.dramRead ch o q.len 0 q.port q.part
        s.dramAnswer q (if bad then 1 else 0) (BitVec.ofNat 8192 (ofBytes bs))

/-- DRAM_REQUEST_COMPLETE (R278 to R280, R290, R291): the requests of a source complete in arrival order. -/
def execDramRequestComplete (ch id : Nat) (finds : List DramFind) (s : State) : Host.Outcome State Fault Refusal :=
  let x := s.dch ch
  match x.queue.find? (fun q => q.id == id) with
  | some q =>
    if q.issued ∧ !(x.queue.any (fun r => r.port == q.port && r.src == q.src && decide (r.id < q.id))) then
      .next (s.reqDone ch q finds)
    else .next s
  | none => .next s

/-! Refresh, pages, self-refresh, retraining and patrol. -/

/-- Ranks of a channel. -/
def State.ddrRanks (s : State) (ch : Nat) : Nat := if s.bit (Reg.DDR_ORG ch) 1 then 2 else 1

/-- REFRESH_INTERVAL (R283): each debt of a channel that is not in self-refresh rises by one. -/
def execRefreshInterval (ch : Nat) (s : State) : Host.Outcome State Fault Refusal :=
  let st := s.ddrState ch
  if st = 2 ∨ st = 5 then
    let x := s.dch ch
    .next (s.setDch ch { x with
      debt := (List.range (4 * s.ddrRanks ch)).foldl (fun m i => SMap.set m i (SMap.get m 0 i + 1)) x.debt })
  else .next s

/-- PAGE_IDLE_CLOSE (R282). -/
def execPageIdleClose (ch bank : Nat) (s : State) : Host.Outcome State Fault Refusal :=
  let x := s.dch ch
  .next (s.setDch ch { x with rows := x.rows.filter (fun r => r.1 != bank) })

/-- The requests that keep a channel awake: all but the patrol's (R285). -/
def DramCh.waiting (x : DramCh) : List DramReq := x.queue.filter (fun q => q.to_ != .patrol)

/-- A channel goes into self-refresh: 3, or 4 where it is held (R285, R286); the patrol stops, and its request is withdrawn. -/
def State.intoSr (s : State) (ch : Nat) : State :=
  let x := s.dch ch
  (s.setDch ch { x with rows := [], debt := [], queue := x.waiting }).setDdrState ch (if x.held then 4 else 3)

/-- SELF_REFRESH_ENTRY (R285, R294): no request is queued and entry is not disabled. -/
def execSelfRefreshEntry (ch : Nat) (s : State) : Host.Outcome State Fault Refusal :=
  if s.ddrState ch = 2 ∧ (s.dch ch).waiting = [] ∧ s.fld (Reg.DDR_SR_CTRL ch) 0 14 ≠ 0 then .next (s.intoSr ch) else .next s

/-- SELF_REFRESH_EXIT (R285, R288): a channel leaves to serve a request that waits, with the pause that is due first; never a held one (R286). -/
def execSelfRefreshExit (ch : Nat) (s : State) : Host.Outcome State Fault Refusal :=
  if s.ddrState ch = 3 ∧ !(s.dch ch).held ∧ (s.dch ch).waiting ≠ [] then .next (s.toActive ch) else .next s

/-- Every queued request of a held or reset channel is answered with cause CHANNEL (R286, R293). -/
def State.refuseQueue (s : State) (ch : Nat) : State :=
  let x := s.dch ch
  x.queue.foldl (fun s q => s.answerError q 3) (s.setDch ch { x with queue := [] })

/-- POWER_STATE holds a channel in self-refresh, or releases it (R286, R294, R338). -/
def State.holdChannel (s : State) (ch : Nat) (hold : Bool) : State :=
  let x := s.dch ch
  let st := s.ddrState ch
  if x.held = hold then s
  else if hold then
    let s := (s.setDch ch { x with held := true }).refuseQueue ch
    if st = 2 ∨ st = 3 ∨ st = 5 then s.intoSr ch else s
  else
    let s := s.setDch ch { x with held := false }
    if st = 4 then (if x.due = [] then s.setDdrState ch 3 else s.toActive ch) else s

/-- RETRAIN_PAUSE (R284, R288, R289, R294): a pause that is due starts in an active channel, unless a debt is next to its limit; otherwise it stays due:
until the debt permits it, the channel leaves self-refresh or is released, or another pause ends. -/
def execRetrainPause (ch : Nat) (rank sub lane : Nat) (margin : BitVec 8) (eye : Bool) (centre : BitVec 16) (s : State) :
    Host.Outcome State Fault Refusal :=
  let p : Pause := ⟨rank, sub, lane, margin, eye, centre⟩
  if s.ddrState ch = 2 ∧ s.debtNear ch = false then .next (s.startPause ch p)
  else if 2 ≤ s.ddrState ch then
    let x := s.dch ch
    .next (s.setDch ch { x with due := x.due ++ [p] })
  else .next s

/-- RETRAIN_PAUSE_END (R280, R288): queued requests have not aged in the pause. -/
def execRetrainPauseEnd (ch : Nat) (s : State) : Host.Outcome State Fault Refusal :=
  if s.ddrState ch = 5 then
    let x := s.dch ch
    .next ((s.setDch ch { x with
      queue := x.queue.map (fun q => { q with paused := q.paused + (s.now - max x.pauseAt q.at_) }) }).toActive ch)
  else .next s

/-- The partition whose range holds a device address. -/
def State.rangeOwner (s : State) (a : Nat) : Option Nat := (s.parts.find? (fun p => s.inRange p.1 a 1)).map (fun p => p.1)

/-- DRAM_PATROL_READ (R274, R281, R292): the scrubber requests its next burst on the system port; one request at a time. -/
def execDramPatrolRead (ch : Nat) (s : State) : Host.Outcome State Fault Refusal :=
  let x := s.dch ch
  if s.bit (Reg.DDR_SCRUB_CTRL ch) 31 ∧ (s.ddrState ch = 2 ∨ s.ddrState ch = 5) ∧ x.queue = x.waiting then
    let a := s.dramAddr ch (s.fld (Reg.DDR_SCRUB_POS ch) 0 30 * 64)
    let q : DramReq := { id := x.nextId, port := 5, src := 18, write := false, addr := a, len := 64, data := 0, issued := false
                         opened := false, at_ := s.now, paused := 0, part := s.rangeOwner a, to_ := .patrol, taken := none }
    .next (s.setDch ch { x with nextId := x.nextId + 1, queue := x.queue ++ [q] })
  else .next s

/-- DRAM_CE_WRITEBACK (R290): the oldest queued correction is written back; a burst that turned uncorrectable stays as it is
(log entry 121). -/
def execDramCeWriteback (ch : Nat) (s : State) : Host.Outcome State Fault Refusal :=
  let x := s.dch ch
  match x.wb with
  | [] => .next s
  | b :: rest =>
    if s.ddrState ch = 2 then
      let s := (s.setDch ch { x with
        wb := rest, upsets := x.upsets.filter (fun v => v.1 != b || decide (2 ≤ v.2.1)) })
      .next (s.touch ch (b * 64))
    else .next s

/-- A channel reset starts (R293, R294): queued requests are answered, the devices rest in self-refresh, the controller is reset, and the stored
training values apply again. -/
def State.channelReset (s : State) (ch : Nat) : State :=
  let s := (s.setBit (Reg.DDR_CTRL ch) 1 true).refuseQueue ch
  let x := s.dch ch
  (s.setDch ch { x with rows := [], hist := [], debt := [], wb := [], train := (s.stored ch).getD x.train, centre := [] }).setDdrState ch 6

/-- CHANNEL_RESET (R286, R293, R294). -/
def execChannelReset (ch : Nat) (s : State) : Host.Outcome State Fault Refusal :=
  if ch < 8 then .next (s.channelReset ch) else .next s

/-- CHANNEL_RESET_DONE (R288, R293): the channel leaves self-refresh and serves again, or stays held or disabled. -/
def execChannelResetDone (ch : Nat) (s : State) : Host.Outcome State Fault Refusal :=
  if s.ddrState ch = 6 then
    let s := s.setBit (Reg.DDR_CTRL ch) 1 false
    let s := if !(s.bit (Reg.DDR_CTRL ch) 0) then s.setDdrState ch 0
      else if (s.dch ch).held then s.setDdrState ch 4 else s.toActive ch
    .next s.powerChecks
  else .next s

/-! The system port (R274, R298). -/

/-! The system port (R274). -/

/-- A run of bytes as requests of the system port, each within one block of 1,024 B (R274). -/
def sysPieces (a len : Nat) : Nat → List (Nat × Nat)
  | 0 => []
  | k + 1 =>
    if len = 0 then []
    else
      let m := min len (1024 - a % 1024)
      (a, m) :: sysPieces (a + m) (len - m) k

/-- The requests of a run of bytes. -/
def sysRequests (a len : Nat) : List (Nat × Nat) := sysPieces a len (len / 1024 + 2)

/-- A request of the system port (R274): the stream ID of the YMP is 0, that of PF0 is 1, that of VF f is 1 + f. -/
def State.sysReq (s : State) (src : Nat) (part : Option Nat) (write : Bool) (a n : Nat) (bs : List Byte) (to_ : DramTo) : DramReq :=
  { id := 0, port := 5, src := src, write := write, addr := a, len := n, data := BitVec.ofNat 8192 (ofBytes bs), issued := false
    opened := false, at_ := s.now, paused := 0, part := part, to_ := to_, taken := none }

/-- Firmware writes a run of bytes (R274): its requests join the queues of their channels, and it waits for none (log entry 56). A block that
no channel serves is not written. -/
def State.ympWrite (s : State) (a : Nat) (bs : List Byte) : State :=
  (sysRequests a bs.length).foldl (fun (s : State) q =>
    let ch := (s.dramLoc q.1).1
    if s.dramHole q.1 || !(s.ddrServes ch) then s
    else s.enqueue ch (s.sysReq 0 none true q.1 q.2 ((bs.drop (q.1 - a)).take q.2) .posted)) s

/-- Firmware reads a run of bytes for a function's host buffer (R274, R368): the last answer sends the bytes on. -/
def State.ympRead (s : State) (fn a n host : Nat) : State :=
  let num := s.reqNum
  let l := sysRequests a n
  let s : State := { s with reqNum := num + 1, hostReads := s.hostReads ++ [⟨num, fn, l.length, [], false, false, some host⟩] }
  l.zipIdx.foldl (fun (s : State) q => s.enqueue (s.dramLoc q.1.1).1 (s.sysReq 0 none false q.1.1 q.1.2 [] (.read num q.2))) s

/-- Whether a read of firmware for a function is not answered yet. -/
def State.ympReads (s : State) (fn : Nat) : Bool := s.hostReads.any (fun h => h.fn == fn && h.dma.isSome)

end Sys2Proof.Machine
end

