-- ==== Sys2Proof/Machine/RegStore.lean ====
section
/-!
DEFINITION. What a write of a register stores (R15, R16): the lock of RWL fields, the values that a field stores in place of
others, and the bits of each access type. Effects beyond the stored value stand in RegAccess.lean.
-/
namespace Sys2Proof.Machine

/-- The partition whose resources hold a channel (R312). -/
def chanHolderIn : SMap Part → Nat → Option Nat
  | [], _ => none
  | (p, x) :: r, c => if x.chans.getLsbD c then some p else chanHolderIn r c

/-- The partition whose resources hold a channel (R312). -/
def State.chanHolder (s : State) (c : Nat) : Option Nat := chanHolderIn s.parts c

/-- A partition by number, if it exists. -/
def State.existing (s : State) (p : Nat) : Option Nat := if (s.part p).isSome then some p else none

/-- Whether RWL fields of a register accept writes (R15): by block, instance and place in its row. -/
def State.regOpen (s : State) (o : RegOwner) (i k : Nat) : Bool :=
  match o with
  | .free => true
  | .tile => s.unlocked (s.tilePart i)
  | .part => s.unlocked (s.existing i)
  | .edge => s.unlocked (s.edgeOwner i)
  | .lane | .port => s.unlocked (s.laneOwner i)
  | .chan => s.unlocked (s.chanHolder i)
  | .ddrPart | .pwrPart => s.unlocked (s.existing k)

/-- The value that a field stores where it does not take the value written: `period_8ns` (R31), `pair_timeout` (R203),
`interval_us`, `limit_w`, `target_ns` (R280), `postpone_max` (R283) and `trial_beats`. -/
def RegMap.stored (a : Nat) (v : Word) : Word :=
  let clampField (lo w least most : Nat) : Word := v.setField lo w (max least (min most (v.field lo w)))
  if a = Reg.TIME_MS_PERIOD_NEXT then clampField 0 13 63 8000
  else if a = Reg.TIME_EXCH_CTRL then clampField 0 11 1 2047
  else if a = Reg.PWR_LIMIT then clampField 0 8 0 250
  else if a = Reg.BOOT_REC_CTRL then clampField 0 10 1 1023
  else match RegMap.find a with
    | none => v
    | some (b, _, r) =>
      if b.base = 0x30040000 ∧ r.off = 0 then clampField 0 16 1 65535
      else if b.base = 0x50000000 ∧ r.off = 0x10 then clampField 0 14 100 10000
      else if b.base = 0x50000000 ∧ r.off = 0x54 then clampField 0 4 0 8
      else v

/-- Whether a value has a bit set that the register's map reserves (R16). -/
def RegRow.reserved (r : RegRow) (v : Word) : Bool := v &&& ~~~(r.rw ||| r.rwl ||| r.w1c ||| r.w1s ||| r.ro) != 0

/-- What a register holds after a write, by access type (R15). -/
def RegRow.write (r : RegRow) (free : Bool) (old v : Word) : Word :=
  let m := r.rw ||| (if free then r.rwl else 0)
  (((old &&& ~~~m) ||| (v &&& m)) &&& ~~~(v &&& r.w1c)) ||| (v &&& r.w1s)

/-- The place of an address among the registers of its row. -/
def RegMap.place (b : RegBlock) (r : RegRow) (a : Nat) : Nat := ((a - b.base) % b.stride - r.off) / r.stride

/-- A write of a register stores its value; where the map has no register nothing happens. -/
def State.regStore (s : State) (a : Nat) (v : Word) : State :=
  match RegMap.find a with
  | none => s
  | some (b, i, r) => s.wr a (r.write (s.regOpen b.owner i (RegMap.place b r a)) (s.rd a) (RegMap.stored a v))

/-- A write of `SE_CTXc_CTRL` (R116): one that enables the context while its tile is STOPPED or unassigned lets a context that a COMMIT
closed open again (R118). -/
def State.writeCtxCtrl (s : State) (t c : Nat) (v : Word) : State :=
  let s := s.regStore (Reg.SE_CTX_CTRL t c) v
  if v.bit 0 && ((s.tilePart t).isNone || s.tileIn t psStopped) then
    s.updSe t (fun e => { e with shut := e.shut.filter (fun d => d != c) })
  else s

/-- Whether a write of a value meets a reserved bit (R16). -/
def State.regBad (_s : State) (a : Nat) (v : Word) : Bool :=
  match RegMap.find a with
  | none => false
  | some (_, _, r) => r.reserved v

end Sys2Proof.Machine
end

