-- ==== Sys2Proof/Machine/Router.lean ====
section
/-!
DEFINITION. One handshake of a router (R171 to R178, R185 to R193): packets enter, every output port forwards at most one flit,
arriving packets are checked, and the probes count and trace.
-/
namespace Sys2Proof.Machine

/-- The quarter of a tile (R19). -/
def quarterOf (t : Nat) : Nat := t / 32

/-- The queue of a packet's class in a channel pair: CTRL 0 and 1, DATA 2 and 3, MGMT 4 (R176). -/
def vcOf (cls : Nat) (b : Bool) : Nat := if cls = 2 then 4 else 2 * cls + b.toNat

/-- Flits of room in a queue (R176). -/
def vcRoom (vc : Nat) : Nat := if vc = 2 ∨ vc = 3 then 8 else 4

/-- The router of a packet's destination and the port by which it leaves there (R172, R177). -/
def dstRouter (p : Pkt) : Nat × Nat :=
  let d := p.dst.toNat
  if !p.dkind then (d, 0)
  else if d = 0x30 then (p.src.toNat % 8, 6)
  else (edgeRouter d, if d < 32 then 5 else 6)

/-- The output port of a packet at a router (R177). -/
def State.routePort (s : State) (a : Nat) (p : Pkt) : Nat :=
  let (d, last) := dstRouter p
  let mgmt := pktClass p.type.toNat == 2
  let cc := a / 8
  let cr := a % 8
  let tc := d / 8
  let tr := d % 8
  if cc ≠ tc then
    if mgmt || !(s.bit (Reg.RTR_PART a) 16) then (if cc < tc then 3 else 4)
    else if (tc + 16 - cc) % 16 ≤ 8 then 3 else 4
  else if cr ≠ tr then
    if mgmt then (if cr < tr then 2 else 1)
    else if (tr + 8 - cr) % 8 ≤ 4 then 2 else 1
  else last

/-- The router at the other end of a port, and its input port (R171). -/
def neighbour (a port : Nat) : Nat × Nat :=
  let c := a / 8
  let r := a % 8
  match port with
  | 1 => (c * 8 + (r + 7) % 8, 2)
  | 2 => (c * 8 + (r + 1) % 8, 1)
  | 3 => ((c + 1) % 16 * 8 + r, 4)
  | _ => ((c + 15) % 16 * 8 + r, 3)

/-- Whether a link crosses its dimension's dateline (R178). -/
def crosses (a port : Nat) : Bool :=
  match port with
  | 1 => a % 8 == 0
  | 2 => a % 8 == 7
  | 3 => a / 8 == 15
  | 4 => a / 8 == 0
  | _ => false

/-- The channel of a packet's pair on an output link (R178): b once the dateline of the dimension has been crossed. -/
def outB (a inPort outPort : Nat) (b : Bool) : Bool :=
  let same := (3 ≤ inPort && inPort ≤ 4 && 3 ≤ outPort && outPort ≤ 4) || (1 ≤ inPort && inPort ≤ 2 && 1 ≤ outPort && outPort ≤ 2)
  (same && b) || crosses a outPort

/-! Probes (R192, R193). -/

/-- Whether a header matches a probe's filters. -/
def State.probeMatches (s : State) (a k : Nat) (p : Pkt) (vc : Nat) : Bool :=
  let m0 := s.rd (Reg.PRB_MATCH0 a k)
  let c := s.rd (Reg.PRB_CTRL a k)
  (!(m0.bit 4) || m0.field 0 4 == p.part.toNat) &&
  (!(m0.bit 16) || m0.field 8 8 == p.src.toNat + 128 * p.skind.toNat) &&
  (!(m0.bit 28) || m0.field 20 8 == p.dst.toNat + 128 * p.dkind.toNat) &&
  (s.rd (Reg.PRB_MATCH1 a k)).bit p.type.toNat && c.bit (8 + vc) && c.bit (16 + p.prio.toNat)

/-- The 16 bytes of a trace record. -/
def traceRecord (now a port dir k vc : Nat) (p : Pkt) : List Byte :=
  let b := (vc == 1 || vc == 3).toNat
  let cls := if vc = 4 then 2 else vc / 2
  toBytes now 6 ++ toBytes a 1 ++ toBytes (port + dir * 8 + k * 16 + cls * 64) 1 ++
  toBytes (p.dst.toNat + 128 * p.dkind.toNat) 1 ++ toBytes (p.src.toNat + 128 * p.skind.toNat) 1 ++ toBytes p.gen.toNat 1 ++
  toBytes (p.part.toNat + 16 * p.type.toNat) 1 ++ toBytes (p.prio.toNat + 8 * b + 16 * p.bt.toNat) 1 ++
  toBytes p.len.toNat 1 ++ toBytes p.age.toNat 2

/-- A trace record is written, or counted as lost (R193). -/
def State.trace (s : State) (q : Nat) (bytes : List Byte) : State :=
  let ctrl := s.rd (Reg.PRB_TR_CTRL q)
  if ctrl.bit 0 then
    let ptr := s.fld (Reg.PRB_TR_PTR q) 0 14
    let full := ctrl.field 1 2 == 1 && s.bit (Reg.PRB_TR_PTR q) 16
    let tick := s.now / 16
    let last := SMap.get s.traceTick (0, 0) q
    let n := if last.1 = tick then last.2 else 0
    if full ∨ 4 ≤ n then s.addReg (Reg.PRB_TR_LOST q) 1
    else
      let m := (SMap.get s.traces [] q).write (ptr * 16) bytes
      let s := { s with traces := SMap.set s.traces q m, traceTick := SMap.set s.traceTick q (tick, n + 1) }
      let s := s.setFld (Reg.PRB_TR_PTR q) 0 14 (ptr + 1)
      if ptr = 16383 then s.setBit (Reg.PRB_TR_PTR q) 16 true else s
  else s

/-- A flit at a port of a router: port, direction (0 in, 1 out), channel, and the flit. -/
structure Seen where
  port : Nat
  dir : Nat
  vc : Nat
  flit : Flit
  deriving DecidableEq, Repr

/-- Whether a probe's selection and filters take a flit (R192). -/
def State.probeTakes (s : State) (a k : Nat) (v : Seen) : Bool :=
  let c := s.rd (Reg.PRB_CTRL a k)
  (c.field 3 3 == 7 || c.field 3 3 == v.port) && (c.field 6 1 == v.dir) && s.probeMatches a k v.flit.pkt v.vc

/-- A probe counts one. -/
def State.probeCount (s : State) (a k : Nat) : State :=
  let n := s.rd2 (Reg.PRB_COUNT_LO a k) (Reg.PRB_COUNT_HI a k) + 1
  s.wr2 (Reg.PRB_COUNT_LO a k) (Reg.PRB_COUNT_HI a k) (n % 2 ^ 48)

/-- The probes of a router see a flit that passes a port: one that is enabled counts it as a packet or a flit, and one that traces
records its header (R192, R193). -/
def State.probes (s : State) (a : Nat) (v : Seen) : State :=
  (List.range 4).foldl (fun s k =>
    let c := s.rd (Reg.PRB_CTRL a k)
    if s.probeTakes a k v then
      let s := if c.bit 0 && (c.field 1 2 == 1 || (c.field 1 2 == 0 && v.flit.i == 0)) then s.probeCount a k else s
      if v.flit.i = 0 ∧ c.bit 7 then s.trace (quarterOf a) (traceRecord s.now a v.port v.dir k v.vc v.flit.pkt) else s
    else s) s

/-- The probes of a router see the flits that stall in a handshake: one that counts stalls counts the handshake once (R192). -/
def State.probeStalls (s : State) (a : Nat) (l : List Seen) : State :=
  (List.range 4).foldl (fun s k =>
    let c := s.rd (Reg.PRB_CTRL a k)
    if c.bit 0 && c.field 1 2 == 2 && l.any (fun v => s.probeTakes a k v) then s.probeCount a k else s) s

/-! Arrival of a flit at an input port. -/

/-- Whether a router's input port refuses the packet of a header (R175, R188). -/
def State.routerRefuses (s : State) (a : Nat) (p : Pkt) : Bool :=
  if !p.formed then true
  else if pktClass p.type.toNat = 2 then !((p.dkind && p.dst == 0x30) || (p.skind && p.src == 0x30))
  else !(s.ownsPkt a p)

/-- A flit that a router drops because of a closed port (R79, R190). -/
def State.dropFenced (s : State) (a : Nat) : State :=
  let part := if a < 128 then s.tilePart a else s.colPart (a - 128)
  let s := s.addReg (Reg.RTR_DROP_FENCED a) 1
  let r := s.router a
  if r.fencedLogged then s
  else
    let s := s.setRouter a { r with fencedLogged := true }
    (s.logRec 1 a 0x0404 sevCorrected part (s.openDetail 0x0404)).stepFree

/-- A SIGNAL that is dropped in the network completes at its sender (R163). -/
def State.rejectSignal (s : State) (p : Pkt) : State :=
  if p.type.toNat = ptSignal ∧ !p.skind then s.remoteDone p.src.toNat p.dst.toNat (p.argField 64 6) else s

/-- Whether a packet's tail is a flit. -/
def Flit_tail (f : Flit) : Bool := decide (f.pkt.len.toNat ≤ f.i)

/-- A flit reaches an input queue of a router: its header is checked, and the flits of a refused packet are dropped to the
tail (R188, R190, R191). -/
def State.flitIn (s : State) (a port vc : Nat) (f : Flit) : State :=
  let key := port * 5 + vc
  let s := s.probes a ⟨port, 0, vc, f⟩
  let r := s.router a
  if f.i ≠ 0 ∧ r.drain.contains key then
    if Flit_tail f then s.setRouter a { r with drain := r.drain.filter (fun k => k != key) } else s
  else
    let closed := s.bit (Reg.RTR_STATUS a) (16 + port)
    let bad := f.i == 0 && s.routerRefuses a f.pkt
    if closed ∨ bad then
      let s := if Flit_tail f then s else s.setRouter a { r with drain := r.drain ++ [key] }
      let s := if closed then s.dropFenced a else s.dropPart a port f.pkt
      s.rejectSignal f.pkt
    else
      s.setRouter a { r with queues := SMap.set r.queues key (SMap.get r.queues [] key ++ [f]) }

/-- Stamps of the source router (R186): bt and age of the sender's beat, the priority of the class, and for a tile's own
packets its partition and generation. -/
def State.stamp (s : State) (a port : Nat) (p : Pkt) : Pkt :=
  let ms := if port = 0 then s.rd2 (Reg.SEQ_BEAT_MS_LO a) (Reg.SEQ_BEAT_MS_HI a) % 2 ^ 48
    else match s.tilePart a with
      | some q => (match s.part q with | some x => x.openMs | none => s.msCount)
      | none => s.msCount
  let age := min ((s.now - s.msTime ms) / 16) 0xFFFF
  let pr := s.rd (Reg.RTR_PRIO a)
  let ty := p.type.toNat
  let prio := if pktClass ty = 2 then 0 else if ty = ptSignal ∨ ty = ptSigack then pr.field 8 2
    else if pktClass ty = 1 then pr.field 4 2 else pr.field 0 2
  let p := { p with bt := BitVec.ofNat 2 ms, age := BitVec.ofNat 16 age, prio := BitVec.ofNat 2 prio }
  if port = 0 then
    { p with
      part := BitVec.ofNat 4 (s.fld (Reg.TILE_PART a) 0 4)
      gen := if pktClass ty = 2 then 0 else BitVec.ofNat 8 (s.fld (Reg.TILE_PART a) 8 8) }
  else p

/-- The first waiting packet of a class and the others. -/
def takeClass (cls : Nat) (l : List Pkt) : Option (Pkt × List Pkt) := takeFirst (fun p => pktClass p.type.toNat == cls) l

/-- Waiting packets of a port. -/
def Router.waiting (r : Router) (port : Nat) : List Pkt := if port = 0 then r.inject else SMap.get r.injectEdge [] port

/-- The router with the waiting packets of a port replaced. -/
def Router.setWaiting (r : Router) (port : Nat) (l : List Pkt) : Router :=
  if port = 0 then { r with inject := l } else { r with injectEdge := SMap.set r.injectEdge port l }

/-- A row for an edge port has left its tile with its last flit: the freed semaphore of its context is signalled (R117). -/
def State.rowLeft (s : State) (t : Nat) (p : Pkt) : State :=
  let c := p.ctx.toNat
  if p.type.toNat = ptPush ∧ p.dkind ∧ s.ctxKind t c = 2 ∧ s.ctxLive t c then s.signalIn t (s.ctxSem t c) 1 srcSe else s

/-- One class of a port puts its next flit into its input queue where there is room; the header is stamped as it enters. -/
def State.injectOne (s : State) (a port cls : Nat) : State :=
  let key := port * 3 + cls
  let vc := vcOf cls false
  let r := s.router a
  let room := decide ((SMap.get r.queues [] (port * 5 + vc)).length < vcRoom vc)
  let put (s : State) (f : Flit) : State :=
    let r := s.router a
    let rest := if Flit_tail f then SMap.erase r.entering key else SMap.set r.entering key ⟨f.pkt, f.i + 1⟩
    let s := (s.setRouter a { r with entering := rest }).flitIn a port vc f
    if port = 0 && Flit_tail f then s.rowLeft a f.pkt else s
  match SMap.find r.entering key with
  | some f => if room then put s f else s
  | none =>
    match takeClass cls (r.waiting port) with
    | some (p, rest) =>
      if room then
        let s := put (s.setRouter a (r.setWaiting port rest)) ⟨s.stamp a port p, 0⟩
        if port = 5 then s.edgeLeft a p else s
      else s
    | none => s

/-- Every class of the local port and of the edge ports enters one flit. -/
def State.injectAll (s : State) (a : Nat) : State :=
  [0, 5, 6].foldl (fun s port => [0, 1, 2].foldl (fun s cls => s.injectOne a port cls) s) s

/-! Arbitration (R185). -/

/-- A head flit that wants an output: its input queue, its output port and output queue, and the flit. -/
structure Cand where
  key : Nat
  outPort : Nat
  outKey : Nat
  flit : Flit
  deriving DecidableEq, Repr

/-- The head flits of a router's input queues. -/
def State.heads (s : State) (a : Nat) : List Cand :=
  (s.router a).queues.filterMap (fun q =>
    match q.2 with
    | [] => none
    | f :: _ =>
      let inPort := q.1 / 5
      let vc := q.1 % 5
      let op := s.routePort a f.pkt
      let b := outB a inPort op (vc == 1 || vc == 3)
      some ⟨q.1, op, op * 5 + vcOf (pktClass f.pkt.type.toNat) b, f⟩)

/-- Whether a head flit may move: its packet holds the output queue, or it is a header and no other packet holds it; and there
is a credit for the queue at the other end (R176). -/
def State.mayMove (s : State) (a : Nat) (c : Cand) : Bool :=
  let r := s.router a
  let owner := SMap.find r.held c.outKey
  let free := if c.flit.i = 0 then owner.isNone else owner == some c.key
  let credit :=
    if c.outPort = 0 ∨ 5 ≤ c.outPort then true
    else
      let n := neighbour a c.outPort
      decide ((SMap.get (s.router n.1).queues [] (n.2 * 5 + c.outKey % 5)).length < vcRoom (c.outKey % 5))
  free && credit

/-- Whether one candidate ranks before another by priority and age; equals are left to the round robin (R185). -/
def Cand.before (ms : Nat) (a b : Cand) : Bool :=
  let d (c : Cand) : Nat := (ms + 4 - c.flit.pkt.bt.toNat) % 4
  let pa := a.flit.pkt.prio.toNat
  let pb := b.flit.pkt.prio.toNat
  decide (pb < pa) || (pa == pb && (decide (d b < d a) ||
    (d a == d b && decide (a.flit.pkt.age.toNat < b.flit.pkt.age.toNat))))

/-- The winner of an output port: the first in rank, and among equals the first at or after the round-robin pointer. -/
def pickCand (ms ptr : Nat) : List Cand → Option Cand
  | [] => none
  | c :: r =>
    match pickCand ms ptr r with
    | none => some c
    | some d =>
      if c.before ms d then some c
      else if d.before ms c then some d
      else if (c.key + 35 - ptr) % 35 ≤ (d.key + 35 - ptr) % 35 then some c else some d

/-- The winner's flit moves on: to the next router, or out of the network with its packet's tail (R176, R182). -/
def State.moveFlit (s : State) (a : Nat) (c : Cand) : State :=
  let r := s.router a
  let held := if Flit_tail c.flit then SMap.erase r.held c.outKey else SMap.set r.held c.outKey c.key
  let s := s.setRouter a { r with
    queues := SMap.set r.queues c.key ((SMap.get r.queues [] c.key).drop 1)
    held := held
    rr := SMap.set r.rr c.outPort ((c.key + 1) % 35) }
  let s := s.probes a ⟨c.outPort, 1, c.outKey % 5, c.flit⟩
  if c.outPort = 0 ∨ 5 ≤ c.outPort then
    if Flit_tail c.flit then { s with delivered := s.delivered ++ [c.flit.pkt] } else s
  else
    let n := neighbour a c.outPort
    s.flitIn n.1 n.2 (c.outKey % 5) c.flit

/-- A position without a logical row presents its next packet to a closed port: it is discarded and counted, after the probes saw it arrive
(R79, R190, R191). -/
def State.fencedFlit (s : State) (a : Nat) : State :=
  let r := s.router a
  match r.inject with
  | [] => s
  | p :: rest =>
    let s := s.setRouter a { r with inject := rest }
    let q := s.stamp a 0 p
    let s := (List.range (p.len.toNat + 1)).foldl (fun s i => s.probes a ⟨0, 0, vcOf (pktClass p.type.toNat) false, ⟨q, i⟩⟩) s
    (s.dropFenced a).rejectSignal p

/-- ROUTER_FLIT (R185): one handshake of a router; the ports of one at a position without a logical row are closed (R76). -/
def execRouterFlit (router : Nat) (s : State) : Host.Outcome State Fault Refusal :=
  if router < 128 then
    let s := s.injectAll router
    let hs := s.heads router
    let can := hs.filter (fun c => s.mayMove router c)
    let wins := [0, 1, 2, 3, 4, 5, 6].filterMap (fun op =>
      pickCand (s.msCount % 4) (SMap.get (s.router router).rr 0 op) (can.filter (fun c => c.outPort == op)))
    let stalled := hs.filter (fun c => !(wins.contains c))
    let s := s.probeStalls router (stalled.flatMap (fun c => [⟨c.key / 5, 0, c.key % 5, c.flit⟩, ⟨c.outPort, 1, c.outKey % 5, c.flit⟩]))
    .next (wins.foldl (fun s c => s.moveFlit router c) s)
  else if router < 144 && s.fld (Reg.RTR_STATUS router) 16 7 == 0x7F then .next (s.fencedFlit router)
  else .next s

end Sys2Proof.Machine
end

