-- ==== Sys2Proof/Machine/TileReset.lean ====
section
/-!
DEFINITION. The reset of a tile (R58, R110, R125, R137, R166, R206, R358, R393; log entry 44), and the packets that its router
holds.
-/
namespace Sys2Proof.Machine

/-! Packets that a router loses (R191: a packet that is half delivered is discarded to its tail). -/

/-- The output queues that a packet holds from an input queue on are free again, router by router. -/
def State.releaseWorm (a key : Nat) : Nat → State → State
  | 0, s => s
  | fuel + 1, s =>
    let r := s.router a
    let s := s.setRouter a { r with drain := r.drain.filter (fun k => k != key) }
    match r.held.find? (fun h => h.2 == key) with
    | none => s
    | some (out, _) =>
      let r := s.router a
      let s := s.setRouter a { r with held := SMap.erase r.held out }
      let port := out / 5
      if port = 0 ∨ 5 ≤ port then s
      else
        let n := neighbour a port
        State.releaseWorm n.1 (n.2 * 5 + out % 5) fuel s

/-- A packet leaves the network unfinished: its flits are gone from every queue, and what it holds is free. -/
def State.dropWorm (s : State) (p : Pkt) : State :=
  let heads := s.routers.flatMap (fun (x : Nat × Router) =>
    ((x.2.queues.filter (fun q => match q.2 with | f :: _ => f.pkt == p && f.i != 0 | [] => false)).map (fun q => (x.1, q.1))) ++
    ((x.2.entering.filter (fun e => e.2.pkt == p)).map (fun e => (x.1, e.1 / 3 * 5 + vcOf (e.1 % 3) false))))
  let s := heads.foldl (fun s h => State.releaseWorm h.1 h.2 24 s) s
  { s with routers := s.routers.map (fun (x : Nat × Router) => (x.1, { x.2 with
      queues := x.2.queues.map (fun q => (q.1, q.2.filter (fun f => f.pkt != p)))
      entering := x.2.entering.filter (fun e => e.2.pkt != p) })) }

/-- The packets that have a flit in a router's queues or are entering it from its tile. -/
def State.routerPkts (s : State) (a : Nat) : List Pkt :=
  let r := s.router a
  (r.queues.flatMap (fun q => q.2.map (fun f => f.pkt))) ++ (r.entering.filter (fun e => decide (e.1 < 3))).map (fun e => e.2.pkt)

/-- The packets for a tile, or an edge port (`edge`), whose header has reached it and whose tail has not: flits of them stand in the network,
their header no longer does. -/
def State.halfDelivered (s : State) (edge : Bool) (d : Nat) : List Pkt :=
  let coming := s.routers.flatMap (fun (x : Nat × Router) =>
    (x.2.queues.flatMap (fun q => q.2)) ++ (x.2.entering.map (fun e => e.2)))
  let mine := coming.filter (fun f => f.pkt.dkind == edge && f.pkt.dst.toNat == d && f.i != 0)
  (mine.map (fun f => f.pkt)).filter (fun p =>
    !(s.routers.any (fun (x : Nat × Router) => x.2.queues.any (fun q => q.2.any (fun f => f.pkt == p && f.i == 0)))))

/-- The packets that are half delivered to a tile or an edge port are drained to their tail and discarded (R191). -/
def State.dropHalf (s : State) (edge : Bool) (d : Nat) : State := (s.halfDelivered edge d).foldl (fun s p => s.dropWorm p) s

/-- A router's queues are emptied (R58), with the packets that its tile had for it and those that wait at the tile. -/
def State.routerReset (s : State) (a : Nat) : State :=
  let s := ((s.routerPkts a).foldl (fun s p => s.dropWorm p) s).dropHalf false a
  let r := s.router a
  let s := s.setRouter a { r with inject := [] }
  { s with delivered := s.delivered.filter (fun p => p.dkind || p.dst.toNat != a) }

/-! Registers and engines. -/

/-- The state with a list of registers at their reset values. -/
def State.toReset (s : State) (l : List Nat) : State := l.foldl (fun s a => s.wr a (Reg.resetOf a)) s

/-- The registers that a tile reset returns to their reset values (R58, R137, R358): `TILE_CTRL`, the tile core's, and what the engines and the
sequencer show of work that is gone; counters, records and what firmware configured stay (log entry 44). -/
def tileResetRegs (t : Nat) : List Nat :=
  [Reg.TILE_CTRL t, Reg.SEQ_STATUS t, Reg.SEQ_HS t, Reg.TC_CTRL t, Reg.TC_STATUS t, Reg.TC_PC t, Reg.TC_FLAGS t, Reg.TC_PWRMODE t,
   Reg.TC_EVENT t, Reg.TC_PMEM_ADDR t, Reg.TC_PMEM_DATA_LO t, Reg.TC_PMEM_DATA_HI t, Reg.MVU_STATUS t, Reg.VEU_STATUS t,
   Reg.ARR_STATUS t 0, Reg.ARR_STATUS t 1] ++
  (List.range 32).map (fun i => Reg.TC_G t i) ++
  (List.range 4).flatMap (fun i =>
    [Reg.TC_ACC_LO t i, Reg.TC_ACC_HI t i, Reg.TC_XP t i, Reg.TC_YP t i, Reg.TC_XM t i, Reg.TC_YM t i])

/-- One tile is reset: writes that the store has accepted complete, every engine and the router's queues are emptied, contexts
close, semaphores load, and the store and the memories keep their contents (R110, R125, R137, R166, R393). -/
def State.tileResetOne (s : State) (t : Nat) : State :=
  let s := (s.landAll t).seTileReset t
  let x := s.tile t
  let s := s.setTile t { Tile.reset with
    se := x.se, imem := x.imem, pmem := x.pmem, memUpsets := x.memUpsets, patrol := x.patrol, ceQueue := x.ceQueue
    passX := x.passX, passY := x.passY }
  let s := ((s.routerReset t).toReset (tileResetRegs t)).semLoad t
  let s := ((s.setFld (Reg.TILE_STATUS t) 0 6 0).setBit (Reg.SEQ_BEAT_STATUS t) 0 false).setBit (Reg.SEQ_BEAT_STATUS t) 2 false
  (List.range 128).foldl (fun s i =>
    if s.bit (Reg.SEQ_APP_CTRL t i) 31 then s.setBit (Reg.SEQ_APP_CTRL t i) 31 false else s) s

/-- The edge ports of a column (R20). -/
def colEdges (c : Nat) : List Nat :=
  [c, 16 + c] ++ (if c = 0 then (List.range 8).map (fun r => 32 + r) else []) ++
  (if c = 15 then (List.range 8).map (fun r => 40 + r) else [])

/-- Tiles are reset in one operation: semaphores elsewhere whose peer is one of them become Broken (R166), and the edge ports of
their columns are flushed (R206); a broken channel learns which tiles of its partition are reset (R254). -/
def State.tileResets (s : State) (ts : List Nat) : State :=
  let s := ts.foldl (fun s t => s.tileResetOne t) s
  let s : State := { s with chans := s.chans.map (fun (c : Nat × Chan) =>
    (c.1, { c.2 with unreset := c.2.unreset.filter (fun t => !(ts.contains t)) })) }
  let s := s.breakPeers ts 0
  ((List.range 16).filter (fun c => ts.any (fun t => t / 8 == c))).foldl (fun s c =>
    (colEdges c).foldl (fun s e => s.edgeFlush e) s) s

end Sys2Proof.Machine
end

