-- ==== Sys2Proof/Machine/Programs.lean ====
section
/-!
DEFINITION. Loading of programs (R116, R131, R135, R136, R153, R311): the program and itinerary memories through their
registers, the units of a load record, and the retained copy.
-/
namespace Sys2Proof.Machine

/-! The memories of a tile (R135, R136). Memory 0 is the program store, memory 1 the itinerary memory. -/

/-- A written word has fresh check bits: no upset of it stays. -/
def Tile.freshWord (x : Tile) (mem w : Nat) : Tile :=
  { x with memUpsets := x.memUpsets.filter (fun u => !(u.1 == mem && u.2.1 == w)) }

/-- An itinerary entry is stored (R136). -/
def State.storeEntry (s : State) (t k : Nat) (v : BitVec 128) : State :=
  let x := ((s.tile t).freshWord 1 (2 * k)).freshWord 1 (2 * k + 1)
  s.setTile t { x with imem := SMap.set x.imem k v }

/-- A tile core instruction is stored (R136). -/
def State.storeInstr (s : State) (t k : Nat) (v : BitVec 64) : State :=
  let x := (s.tile t).freshWord 0 k
  s.setTile t { x with pmem := SMap.set x.pmem k v }

/-- A management read of words of a program memory checks them (R135). -/
def State.readCheck (s : State) (t mem lo n : Nat) : State :=
  ((s.tile t).memUpsets.filter (fun u => u.1 == mem && decide (lo ≤ u.2.1) && decide (u.2.1 < lo + n))).foldl
    (fun s u => s.meetProg t false u) s

/-- SEQ_IMEM_DATA3_WRITE (R136): the whole entry is stored and the index moves on; discarded while the tile is locked (R15). -/
def execSeqImemData3Write (tile : Nat) (value : Word) (s : State) : Host.Outcome State Fault Refusal :=
  if s.unlocked (s.tilePart tile) then
    let k := s.fld (Reg.SEQ_IMEM_ADDR tile) 0 12
    let v := (s.rd (Reg.SEQ_IMEM_DATA0 tile)).toNat + (s.rd (Reg.SEQ_IMEM_DATA1 tile)).toNat * 2 ^ 32 +
      (s.rd (Reg.SEQ_IMEM_DATA2 tile)).toNat * 2 ^ 64 + value.toNat * 2 ^ 96
    let s := (s.wr (Reg.SEQ_IMEM_DATA3 tile) value).storeEntry tile k (BitVec.ofNat 128 v)
    .next (s.wr (Reg.SEQ_IMEM_ADDR tile) (BitVec.ofNat 32 ((k + 1) % 4096)))
  else .next s

/-- SEQ_IMEM_DATA3_READ (R136): the data registers show the entry that the index reaches, and the index moves on;
the read checks both halves (R135). -/
def execSeqImemData3Read (tile : Nat) (s : State) : Host.Outcome State Fault Refusal :=
  let k := s.fld (Reg.SEQ_IMEM_ADDR tile) 0 12
  let s := s.readCheck tile 1 (2 * k) 2
  let v := (SMap.get (s.tile tile).imem 0 k).toNat
  let s := (s.wr (Reg.SEQ_IMEM_DATA0 tile) (BitVec.ofNat 32 v)).wr (Reg.SEQ_IMEM_DATA1 tile) (BitVec.ofNat 32 (v / 2 ^ 32))
  let s := (s.wr (Reg.SEQ_IMEM_DATA2 tile) (BitVec.ofNat 32 (v / 2 ^ 64))).wr (Reg.SEQ_IMEM_DATA3 tile) (BitVec.ofNat 32 (v / 2 ^ 96))
  .next (s.wr (Reg.SEQ_IMEM_ADDR tile) (BitVec.ofNat 32 ((k + 1) % 4096)))

/-- TC_PMEM_DATA_HI_WRITE (R136): the instruction is stored and the index moves on; discarded while the tile is locked (R15). -/
def execTcPmemDataHiWrite (tile : Nat) (value : Word) (s : State) : Host.Outcome State Fault Refusal :=
  if s.unlocked (s.tilePart tile) then
    let k := s.fld (Reg.TC_PMEM_ADDR tile) 0 13
    let v := (s.rd (Reg.TC_PMEM_DATA_LO tile)).toNat + value.toNat * 2 ^ 32
    let s := (s.wr (Reg.TC_PMEM_DATA_HI tile) value).storeInstr tile k (BitVec.ofNat 64 v)
    .next (s.wr (Reg.TC_PMEM_ADDR tile) (BitVec.ofNat 32 ((k + 1) % 8192)))
  else .next s

/-- TC_PMEM_DATA_HI_READ (R136): the data registers show the instruction that the index reaches, and the index moves
on; the read checks the word (R135). -/
def execTcPmemDataHiRead (tile : Nat) (s : State) : Host.Outcome State Fault Refusal :=
  let k := s.fld (Reg.TC_PMEM_ADDR tile) 0 13
  let s := s.readCheck tile 0 k 1
  let v := (SMap.get (s.tile tile).pmem 0 k).toNat
  let s := (s.wr (Reg.TC_PMEM_DATA_LO tile) (BitVec.ofNat 32 v)).wr (Reg.TC_PMEM_DATA_HI tile) (BitVec.ofNat 32 (v / 2 ^ 32))
  .next (s.wr (Reg.TC_PMEM_ADDR tile) (BitVec.ofNat 32 ((k + 1) % 8192)))

/-! Load records (R311). -/

/-- Bytes of one unit of a record, by record type (R311): an itinerary entry, an instruction, a variant image, a descriptor, a
semaphore pair, an append-region image, a word of the beat block. -/
def unitBytes (type : Nat) : Nat :=
  match type with
  | 0 => 16
  | 1 => 8
  | 2 => 4
  | 3 => 32
  | 4 => 8
  | 5 => 16
  | _ => 4

/-- Units that a tile or a beat block holds, by record type. -/
def unitCount (type : Nat) : Nat :=
  match type with
  | 0 => 4096
  | 1 => 8192
  | 2 => 8
  | 3 => 8
  | 4 => 64
  | 5 => 128
  | _ => 20

/-- The registers that a unit writes, in address order, with their index in the unit's words (R35, R44, R116, R131, R153). -/
def unitRegs (type p t i : Nat) : List (Nat × Nat) :=
  match type with
  | 2 => [(Reg.SEQ_VAR t i, 0)]
  | 3 => [(Reg.SE_CTX_CTRL t i, 0), (Reg.SE_CTX_RING t i, 1), (Reg.SE_CTX_SRC_LO t i, 2), (Reg.SE_CTX_SRC_HI t i, 3),
          (Reg.SE_CTX_WALK t i, 4), (Reg.SE_CTX_SEM t i, 5)]
  | 4 => [(Reg.SEM_CFG t i, 0), (Reg.SEM_PEER t i, 1)]
  | 5 => [(Reg.SEQ_APP_BASE t i, 0), (Reg.SEQ_APP_LIMIT t i, 1), (Reg.SEQ_APP_PTR t i, 2), (Reg.SEQ_APP_CTRL t i, 3)]
  | 6 => [(Reg.beatBase p + 0x30 + 4 * i, 0)]
  | _ => []

/-- Word `k` of a unit. -/
def unitWord (v k : Nat) : Word := BitVec.ofNat 32 (v / 2 ^ (32 * k))

/-- One unit is written (R311). A recovery restores the append regions without `SEQ_APPi_PTR` and without touching `wrapped` and
`pending` (R361 step 6). -/
def State.applyUnit (s : State) (restore : Bool) (p type t i v : Nat) : State :=
  match type with
  | 0 => s.storeEntry t i (BitVec.ofNat 128 v)
  | 1 => s.storeInstr t i (BitVec.ofNat 64 v)
  | _ =>
    (unitRegs type p t i).foldl (fun s a =>
      if restore && type == 5 && a.2 == 2 then s
      else if !restore && type == 3 && a.2 == 0 then s.writeCtxCtrl t i (unitWord v 0)
      else if restore && type == 5 && a.2 == 3 then s.regStore a.1 (unitWord v 3 &&& 0x4000FFFF)
      else s.regStore a.1 (unitWord v a.2)) s

/-- Whether a unit has a reserved bit set, or a beat block word has no RWL register (R16, R310). -/
def State.unitBad (s : State) (type p t i v : Nat) : Bool :=
  (unitRegs type p t i).any (fun a => s.regBad a.1 (unitWord v a.2)) ||
  (type == 6 && (RegMap.find (Reg.beatBase p + 0x30 + 4 * i)).isNone && v != 0)

/-- The key of a unit in the retained copy. -/
def copyKey (type t i : Nat) : Nat := (type * 128 + t % 128) * 8192 + i

/-- The device address of a unit of the retained copies: they stand below the dump region (R368), tile by tile at 1 MiB and by type at 128 KiB,
and behind them the beat blocks by partition (log entry 135). -/
def State.copyAddr (s : State) (p type t i : Nat) : Nat :=
  s.rd2 Reg.DUMP_BASE_LO Reg.DUMP_BASE_HI - 192 * 2 ^ 20 +
    (if type = 6 then 2 ^ 27 + p * 2 ^ 16 else t % 128 * 2 ^ 20 + type * 2 ^ 17) + i * unitBytes type

/-- One unit of a record is written and kept in the partition's retained copy (R311), which firmware writes to its region of the DRAM too (R368). -/
def State.loadUnit (s : State) (p type t i v : Nat) : State :=
  ((s.applyUnit false p type t i v).updPart p (fun x => { x with copy := SMap.set x.copy (copyKey type t i) v })).ympWrite
    (s.copyAddr p type t i) (toBytes v (unitBytes type))

/-- The units of a record: index and value, in order. -/
def recUnits (r : LoadRec) : List (Nat × Nat) :=
  let w := unitBytes r.type.toNat
  (List.range (r.data.length / w)).map (fun k => (r.first.toNat + k, ofBytes ((r.data.drop (k * w)).take w)))

/-- The logical tile of a record; records of type 6 carry 0xFF (R311). -/
def recTile (r : LoadRec) : Nat := if r.type.toNat = 6 then 0 else r.tile.toNat

/-- Whether a record is of a known type, within the indices of its type, and without reserved bits; anything else gives a result
that is unpredictable (R310). -/
def State.recGood (s : State) (p : Nat) (r : LoadRec) : Bool :=
  decide (r.type.toNat ≤ 6) && r.data.length % unitBytes r.type.toNat == 0 &&
  decide (r.first.toNat + r.data.length / unitBytes r.type.toNat ≤ unitCount r.type.toNat) &&
  (recUnits r).all (fun u => !(s.unitBad r.type.toNat p (recTile r) u.1 u.2))

/-- A record is written and kept (R311). -/
def State.loadRecord (s : State) (p : Nat) (r : LoadRec) : State :=
  (recUnits r).foldl (fun s u => s.loadUnit p r.type.toNat (recTile r) u.1 u.2) s

/-- The retained copy of a partition is written back for the tiles of a list, with the beat block where `beat` is set
(R361 step 6); no upset word of their memories stays (R135). -/
def State.restoreCopy (s : State) (p : Nat) (tiles : List Nat) (beat : Bool) : State :=
  match s.part p with
  | none => s
  | some x =>
    let s := tiles.foldl (fun s t => s.setTile t { s.tile t with memUpsets := [] }) s
    x.copy.foldl (fun s e =>
      let type := e.1 / (128 * 8192)
      let t := e.1 / 8192 % 128
      if type = 6 then (if beat then s.applyUnit true p 6 0 (e.1 % 8192) e.2 else s)
      else if tiles.contains t then s.applyUnit true p type t (e.1 % 8192) e.2
      else s) s

end Sys2Proof.Machine
end

