-- ==== Sys2Proof/Machine/Sparing.lean ====
section
/-!
DEFINITION. Sparing (R18, R76 to R79): a position of a column is declared dead, and the rows move to the positions that are left.
-/
namespace Sys2Proof.Machine

/-- The register block that the position of a block takes in the map once position `d` of column `c`, which had no dead position,
is dead: the rows from `d` on move one position south, the spare becomes row 7 and position `d` the window (R58, R76). -/
def movedBlock (c d i : Nat) : Nat :=
  if d < 8 then
    if i = 8 * c + d then 128 + c
    else if i / 8 = c ∧ i < 128 ∧ d < i % 8 then i - 1
    else if i = 128 + c then 8 * c + 7
    else i
  else i

/-- The address of a tile register after the move. -/
def movedAddr (c d a : Nat) : Nat :=
  if 0x10000000 ≤ a ∧ a < 0x10000000 + 144 * 0x10000 then
    Reg.tileBase (movedBlock c d ((a - 0x10000000) / 0x10000)) + (a - 0x10000000) % 0x10000
  else a

/-- A map whose keys are moved. -/
def rekey {α : Type} (f : Nat → Nat) (m : SMap α) : SMap α := m.foldl (fun n e => SMap.set n (f e.1) e.2) []

/-- The identity register of a tile block at a position (R58). -/
def tileIdAt (id c pos : Nat) : Word := BitVec.ofNat 32 (id + c * 256 + pos * 65536)

/-- The identity registers of a column follow its map. -/
def State.showIds (s : State) (c : Nat) : State :=
  let s := (List.range 8).foldl (fun s r => s.wr (Reg.TILE_ID (8 * c + r)) (tileIdAt (8 * c + r) c (s.position (8 * c + r)))) s
  s.wr (Reg.TILE_ID (128 + c)) (tileIdAt 0x7F c (min 8 (s.fld (Reg.TNOC_DETOUR c) 0 4)))

/-- One store is copied to the next position (R77 step 2): a word that the copy finds uncorrectable is met as a management read
meets it. The state, and whether the copy met one. -/
def State.copyStore (s : State) (c p : Nat) : Bool × State :=
  let src := storeAt c p
  let dst := storeAt c (p + 1)
  let us := s.upsetsAt (8 * c + p) (2 ^ 40) (src / 8) (2 ^ 20)
  let cells := s.store.filter (fun x => decide (src ≤ x.1) && decide (x.1 < src + 2 ^ 23))
  let m := (s.store.zero dst (2 ^ 23))
  let m : Memory := m.filter (fun x => decide (x.1 < dst)) ++ cells.map (fun x => (x.1 - src + dst, x.2)) ++
    m.filter (fun x => decide (dst + 2 ^ 23 ≤ x.1))
  let bad := us.filter (fun u => u.kind == 2)
  let m := bad.foldl (fun (m : Memory) u =>
    m.write (u.word * 8 - src + dst) (applyFlips [u] (u.word * 8) (s.store.readList (u.word * 8) 8))) m
  let s := us.foldl (fun s u => s.meetUpset (8 * c + p) .management 5 u) s
  (us.any Upset.poison, { s with
    store := m, upsets := s.upsets.filter (fun u => !(decide (dst / 8 ≤ u.word) && decide (u.word < dst / 8 + 2 ^ 20))) })

/-- The stores of the positions from 7 down to `d` + 1 move one position south. The logical tiles whose data the copy lost. -/
def State.copyColumn (s : State) (c d : Nat) : List Nat × State :=
  ((List.range 8).reverse.filter (fun p => decide (d < p))).foldl (fun (r : List Nat × State) p =>
    let q := r.2.copyStore c p
    (if q.1 then (8 * c + p) :: r.1 else r.1, q.2)) ([], s)

/-- The registers, tile records and routers of a column move with its map (R76): the partition assignment stays with the row. -/
def State.moveColumn (s : State) (c d : Nat) : State :=
  let keep := (List.range 8).map (fun r => (s.rd (Reg.TILE_PART (8 * c + r)), s.rd (Reg.RTR_PART (8 * c + r))))
  let f := movedBlock c d
  let s := { s with
    regs := rekey (movedAddr c d) s.regs
    tiles := rekey f s.tiles
    routers := rekey f s.routers }
  (List.range 8).foldl (fun s r =>
    let k := keep.getD r (0, 0)
    (s.wr (Reg.TILE_PART (8 * c + r)) k.1).wr (Reg.RTR_PART (8 * c + r)) k.2) s

/-- Whether flits of a packet have yet to come to a router that holds some. -/
def State.flitsBehind (s : State) (a : Nat) (p : Pkt) : Bool :=
  let here := ((s.router a).queues.flatMap (fun q => q.2)).filter (fun f => f.pkt == p)
  let last := here.foldl (fun m f => max m f.i) 0
  s.routers.any (fun (x : Nat × Router) =>
    (x.1 != a && x.2.queues.any (fun q => q.2.any (fun f => f.pkt == p && decide (last < f.i)))) || x.2.entering.any (fun e => e.2.pkt == p))

/-- The column's map avoids position `d` (R77). `boot`: at boot step B4, where nothing is copied. A packet that the closing cuts is discarded, and
the rest of it refused as fenced (R190, R191). The logical tiles whose data is lost, ascending, and the state. -/
def State.sparePosition (s : State) (c d : Nat) (boot : Bool) : List Nat × State :=
  let pkts := if d < 8 then s.routerPkts (8 * c + d) else []
  let cut := (pkts.filter (fun p => s.flitsBehind (8 * c + d) p)).length
  let s := pkts.foldl (fun s p => (s.dropWorm p).rejectSignal p) s
  let (lost, s) := if boot then ([], s) else s.copyColumn c d
  let s := s.moveColumn c d
  let det := s.rd (Reg.TNOC_DETOUR c)
  let s := s.wr (Reg.TNOC_DETOUR c) ((((det.setField 0 4 d).setField 4 2 1).setBit 8 (!boot)).setBit (16 + d) true)
  let s := s.setFld (Reg.RTR_STATUS (128 + c)) 16 7 0x7F
  let s := (List.range cut).foldl (fun s _ => s.dropFenced (128 + c)) s
  (if d < 8 then (8 * c + d) :: lost else lost, s.showIds c)

/-- A second dead position: the column is unavailable (R76, R78). -/
def State.loseColumn (s : State) (c d : Nat) : State :=
  (s.setFld (Reg.TNOC_DETOUR c) 4 2 2).setBit (Reg.TNOC_DETOUR c) (16 + d) true

/-- A position is declared dead at run time (R77, R78): it is spared, or the column becomes unavailable. `rec`: within a recovery,
where PART_RESET_DONE names the lost tiles in place of TILE_SPARED. The lost tiles, and the state. -/
def State.declareDead (s : State) (c d : Nat) (recovering : Bool) : List Nat × State :=
  if 16 ≤ c ∨ 9 ≤ d ∨ s.bit (Reg.TNOC_DETOUR c) (16 + d) then ([], s)
  else if s.fld (Reg.TNOC_DETOUR c) 4 2 != 0 then
    let s := s.loseColumn c d
    ([], s.setFall (s.boot.fall.setCol c 14))
  else
    let owner := s.colPart c
    let s := if recovering ∨ 8 ≤ d then s else s.breakPeers [8 * c + d] 1
    let (lost, s) := s.sparePosition c d false
    let tail := if recovering then [] else toBytes lost.length 1 ++ toBytes (lost.headD 0xFF) 1
    let s := s.logRec 0 (0x100 + c * 16 + d) 0x0108 sevContained owner (toBytes c 1 ++ toBytes d 1 ++ tail)
    let s := s.setFall (s.boot.fall.setCol c d)
    let s := if recovering then s else
      match owner with
      | some p => s.restoreCopy p ((List.range 8).map (fun r => 8 * c + r)) false
      | none => s
    (lost, s)

/-- Positions are declared dead, one after another. -/
def State.declareAll (s : State) (l : List (Nat × Nat)) (recovering : Bool) : List Nat × State :=
  l.foldl (fun (r : List Nat × State) x =>
    let q := r.2.declareDead x.1 x.2 recovering
    (r.1 ++ q.1, q.2)) ([], s)

/-- The positions that a recovery found dead and has not spared are spared before it ends (R77): PART_RESET_DONE names the lost tiles; where the
tiles were not reset in it, semaphores whose peer the detour switches close become Broken (R166). -/
def State.endSpare (s : State) (p : Nat) : State :=
  match s.part p with
  | none => s
  | some x =>
    let l := x.recov.dead
    let s := if x.recov.step ≤ 5 then l.foldl (fun s d => if d.2 < 8 then s.breakPeers [8 * d.1 + d.2] 1 else s) s else s
    let (lost, s) := s.declareAll l true
    let s := l.foldl (fun s d => s.restoreCopy p ((List.range 8).map (fun r => 8 * d.1 + r)) false) s
    s.updPart p (fun x => { x with recov := { x.recov with dead := [], lost := x.recov.lost ++ lost } })

/-- Positions are found dead in a recovery (R77): they are spared before it ends, and one that has ended step 6 runs steps 6 and 7
again. -/
def RecSt.found (r : RecSt) (l : List (Nat × Nat)) : RecSt :=
  { r with
    dead := r.dead ++ l
    step := if 7 ≤ r.step then 6 else r.step
    linkWait := if 7 ≤ r.step then false else r.linkWait
    floorWait := if 7 ≤ r.step then false else r.floorWait
    resumeAt := if 7 ≤ r.step then Option.none else r.resumeAt }

/-- A tile is found dead (R77): at once where its column is unassigned or its partition STOPPED, within the recovery of a partition
that is FROZEN or RECOVERING; a partition that is ARMED or RUNNING keeps the finding until it has frozen. -/
def State.foundDead (s : State) (c d : Nat) : State :=
  match s.colPart c with
  | none => (s.declareDead c d false).2
  | some p =>
    if s.pstate p = psStopped then (s.declareDead c d false).2
    else if s.pstate p = psFrozen ∨ s.pstate p = psRecovering then s.updPart p (fun x => { x with recov := x.recov.found [(c, d)] })
    else s.updPart p (fun x => { x with recov := { x.recov with dead := x.recov.dead ++ [(c, d)] } })

/-- TILE_RESET (R58, R77, R137, R393): the tile is reset; one whose reset does not complete is found dead where its partition does
not run. -/
def execTileReset (tile : Nat) (done : Bool) (s : State) : Host.Outcome State Fault Refusal :=
  if done then .next (s.tileResets [tile])
  else
    let s := s.setBit (Reg.TILE_CTRL tile) 1 true
    if s.unlocked (s.tilePart tile) then .next (s.foundDead (tile / 8) (s.position tile)) else .next s

end Sys2Proof.Machine
end

