-- ==== Sys2Proof/Machine/RecoveryEnd.lean ====
section
/-!
DEFINITION. How a recovery ends (R361, R362, R365, R366), and the slots of the crash dumps (R368).
-/
namespace Sys2Proof.Machine

/-! Dump slots (R368). -/

/-- A flag of `DUMP_STATUS`: 0 valid, 4 unread, 8 busy; by slot. -/
def State.dumpFlag (s : State) (f slot : Nat) : Bool := s.bit Reg.DUMP_STATUS (f + slot)

/-- The state with a flag of `DUMP_STATUS` replaced. -/
def State.setDumpFlag (s : State) (f slot : Nat) (b : Bool) : State := s.setBit Reg.DUMP_STATUS (f + slot) b

/-- Whether a DUMP_READ of a slot is under way. -/
def State.dumpRead (s : State) (slot : Nat) : Bool :=
  s.mbx.any (fun m => match m.2.running with | some ⟨_, _, _, .dump k _ _, _⟩ => k == slot | _ => false)

/-- The slots, oldest dump first; slots that have held none come first. -/
def State.slotsByAge (s : State) : List Nat :=
  (List.range 4).filter (fun k => !(s.dumpOrder.contains k)) ++ s.dumpOrder

/-- The slot of the next dump, with whether an unreleased dump is lost (R368). -/
def State.pickSlot (s : State) : Option (Nat × Bool) :=
  match s.slotsByAge.find? (fun k => !(s.dumpFlag 0 k) && !(s.dumpFlag 4 k)) with
  | some k => some (k, false)
  | none => match s.slotsByAge.find? (fun k => !(s.dumpFlag 4 k)) with
    | some k => some (k, false)
    | none => match s.slotsByAge.find? (fun k => !(s.dumpRead k)) with
      | some k => some (k, true)
      | none => none

/-- A partition's dump begins in a slot: the slot is busy and holds no complete dump, and the loss of an unreleased dump is logged. -/
def State.dumpBegin (s : State) (p slot : Nat) (lost : Bool) : State :=
  let old := s.fld (Reg.DUMP_SLOT slot) 0 4
  let s := if lost then
      (s.addReg Reg.DUMP_LOST_COUNT 1).logRec 6 0 0x0B04 sevContained (some old) (toBytes slot 1 ++ toBytes old 1)
    else s
  let s := ((s.setDumpFlag 0 slot false).setDumpFlag 4 slot false).setDumpFlag 8 slot true
  let s := s.wr (Reg.DUMP_SLOT slot) (BitVec.ofNat 32 p)
  let s := { s with dumpOrder := s.dumpOrder.filter (fun k => k != slot) ++ [slot] }
  s.updPart p (fun x => { x with recov := { x.recov with slot := some slot } })

/-- Whether a partition that a hang froze waits for the search before its own to end (R367). -/
def State.searchHeld (s : State) (p : Nat) : Bool :=
  (match s.part p with | some x => x.recov.hung | none => false) &&
  (match s.search with | h :: _ => !(h.parts.contains p) | [] => false)

/-- Dumps are written one at a time (R361): where none is being written, the lowest partition that waits for its dump begins;
not after the firmware was lost (R366), not while the partition leaves a rung, and not while a search keeps it frozen (R367). -/
def State.dumpNext (s : State) : State :=
  if s.fwLost || (List.range 4).any (fun k => s.dumpFlag 8 k) then s
  else match s.parts.find? (fun p => s.pstate p.1 == psFrozen && p.2.recov.step == 2 && p.2.recov.slot.isNone && p.2.rung == 0 &&
      !(s.searchHeld p.1)) with
    | some (p, _) => match s.pickSlot with
      | some (k, lost) => s.dumpBegin p k lost
      | none => s
    | none => s

/-! The outcome of a recovery (R362). -/

/-- Whether the cause of a recovery is a trap of R103 or R150, or an essential upset (R229). -/
def isTrap (code : Nat) : Bool := code == 0x0201 || code == 0x0202 || code == 0x0204 || code == 0x0205 || code == 0x0504

/-- The outcome of a recovery of partition `p`, the first case in the order of R362; `link`: a port stayed down. A STOP that is armed for any
milestone counts. -/
def State.recOutcome (s : State) (p : Nat) (x : Part) (link : Bool) : Nat :=
  let r := x.recov
  let trap : Bool := match x.cause with | some c => isTrap c.code | none => false
  if r.warm then 9
  else if r.failed then 8
  else if s.fenced || x.devFatal == 1 then 7
  else if x.devFatal == 2 then 10
  else if r.guilty then 3
  else if r.trap || trap then 1
  else if r.repeats then 5
  else if !r.lost.isEmpty then 2
  else if link then 6
  else if r.stop || s.bit (Reg.PART_STOP_AT_HI p) 31 || !r.resume then 4
  else 0

/-- PART_RESET_DONE (R361, R362). -/
def State.resetDone (s : State) (p outcome resume : Nat) : State :=
  match s.part p with
  | none => s
  | some x =>
    let slot := match x.recov.slot with | some k => k | none => 0xFF
    s.logRec 6 0 0x0B02 sevContained (some p)
      (toBytes x.gen 1 ++ toBytes outcome 1 ++ toBytes slot 1 ++ toBytes resume 6 ++
       toBytes (x.recov.lost.headD 0xFF) 1 ++ toBytes x.recov.lost.length 1)

/-- The PART_RESET that a recovery serves completes (R365). -/
def State.resetReply (s : State) (p outcome resume : Nat) : State :=
  match s.part p with
  | some x => match x.recov.cmd with
    | some q =>
      let s := s.updPart p (fun x => { x with recov := { x.recov with cmd := none } })
      if s.waitOf q.fn = some .reset then
        s.complete q.fn (if outcome = 8 then stFaulted else stOk) (toBytes x.gen 1 ++ toBytes resume 6 ++ toBytes outcome 1)
      else s
    | none => s
  | none => s

/-- A partition is left STOPPED after its recovery; a position that was found dead and not yet spared is spared now (R77). -/
def State.recStopped (s : State) (p outcome : Nat) : State :=
  let dead := match s.part p with | some x => x.recov.dead | none => []
  let s := s.updPart p (fun x => { x with
    recov := RecSt.none, outcome := outcome, resumed := none, cause := none, fault := false, devFatal := 0, trial := none })
  let s := (s.setBit (Reg.PART_STOP_AT_HI p) 31 false).setBit (Reg.PART_START_AT_HI p) 31 false
  ((s.setPstate p psStopped).declareAll dead false).2

/-- A recovery ends STOPPED with an outcome (R77, R362). -/
def State.endStopped (s : State) (p outcome : Nat) : State :=
  (((s.endSpare p).resetDone p outcome 0).resetReply p outcome 0).recStopped p outcome

/-- A partition that a DEVICE_FATAL event froze is left STOPPED after its dump, without a record (R366). -/
def State.endFatal (s : State) (p : Nat) : State :=
  let outcome := if s.fenced then 7 else 10
  (s.resetReply p outcome 0).recStopped p outcome

/-- The tiles of a partition take part in milestones (R58): at START, and after recovery has reset them. -/
def State.enableTiles (s : State) (p : Nat) : State :=
  (s.partTiles p).foldl (fun s t => s.setBit (Reg.TILE_CTRL t) 0 true) s

/-- Step 8 is arranged, once the floors have been raised: the partition resumes at a milestone (R53, R361). -/
def State.arrangeResume (s : State) (p m : Nat) : State :=
  let s := s.updPart p (fun x => { x with recov := { x.recov with step := 8, floorWait := false, resumeAt := some m } })
  (s.enableTiles p).resetReply p 0 m

/-- Whether a partition's recovery waits for its floors (R53, R361). -/
def State.floorWaits (s : State) (p : Nat) : Bool :=
  match s.part p with
  | some x => s.pstate p == psRecovering && x.recov.floorWait
  | none => false

/-- Step 8 of a partition is arranged at a milestone where its floors have been raised; otherwise the raises go on and it waits. -/
def State.resumeWhenRaised (s : State) (p m : Nat) : State :=
  let l := s.floorsFor p
  let s := if s.floorWaits p then s.askRaises l else s.startRaises l
  if s.raised l then s.arrangeResume p m else s.updPart p (fun x => { x with recov := { x.recov with floorWait := true, linkWait := false } })

/-- Every partition whose recovery waits for its floors is looked at; it resumes at the first milestone at least two ahead. -/
def State.floorChecks (s : State) : State :=
  (s.parts.map (fun p => p.1)).foldl (fun s p => if s.floorWaits p then s.resumeWhenRaised p ((s.msCount + 2) % 2 ^ 48) else s) s

/-- The START and SET_PERIOD commands whose raises or exit have not come by one period before their milestone time out (R53). -/
def State.raiseTimeouts (s : State) (n : Nat) : State :=
  (List.range 17).foldl (fun s f =>
    match s.waitOf f with
    | some (.exit ms _ _) | some (.period ms _ _) => if msAhead ms ((n + 1) % 2 ^ 48) then s else s.complete f stTimeout []
    | _ => s) s

end Sys2Proof.Machine
end

