-- ==== Sys2Proof/Machine/Beat.lean ====
section
/-!
DEFINITION. A partition at a milestone and the opening of a beat (R29 to R50, R70, R124, R135, R151, R152, R161, R164, R165, R205 to R207,
R265, R268, R334 to R336, R361 step 1).
-/
namespace Sys2Proof.Machine

/-! The milestone sample of a tile (R36 step 2, R37). -/

/-- The tiles of a partition that take part in milestones (`TILE_CTRL` enable). -/
def State.beatTiles (s : State) (p : Nat) : List Nat := (s.partTiles p).filter (fun t => s.bit (Reg.TILE_CTRL t) 0)

/-- The report of a tile, if the milestone brought one. -/
def reportOf (e : MsEnv) (t : Nat) : Option TileReport := e.reports.find? (fun r => r.tile == t)

/-- A tile is sampled: a tile that is not done has made the handshakes that its report names, and is late; one that is done has made the
handshakes of its slack beside them (R36, R37, R70). The stream faults that it holds are recorded (R126). -/
def State.sampleTile (s : State) (e : MsEnv) (t : Nat) : State :=
  let x := s.tile t
  let s := match reportOf e t with
    | some r =>
      let h := if x.done then x.doneHs + r.slack else r.hs
      if s.hs t < h then s.advanceTo t h else s
    | none => s
  s.settleAborts t

/-- A tile publishes the handshakes that it used and its slack, and the beat's outcome (R37, R38). -/
def State.publish (s : State) (e : MsEnv) (p outcome t : Nat) : State :=
  let x := s.tile t
  let late := !x.done
  let used := match x.endAt with | some h => h | none => s.hs t
  let slack := if late then 0 else match reportOf e t with | some r => r.slack % 2 ^ 20 | none => Config.freeNat s.free % 2 ^ 20
  let s := s.stepFree
  let s := s.wr (Reg.SEQ_BEAT_USED t) (BitVec.ofNat 32 (used % 2 ^ 20))
  let s := s.wr (Reg.SEQ_BEAT_SLACK t) (BitVec.ofNat 32 slack)
  let m := s.rd (Reg.SEQ_BEAT_MIN_SLACK t)
  let s := s.wr (Reg.SEQ_BEAT_MIN_SLACK t)
    (BitVec.ofNat 32 (min (m.field 0 20) slack + 2 ^ 20 * (m.bit 20 || late).toNat))
  let budget := s.fld (Reg.PART_VAR_BUDGET p (s.variant t)) 0 20
  let s := (s.setBit (Reg.SEQ_BEAT_STATUS t) 1 late).setBit (Reg.SEQ_BEAT_STATUS t) 3 (decide (budget < used))
  let s := s.setFld (Reg.SEQ_BEAT_STATUS t) 12 2 outcome
  s.setTile t { s.tile t with ran := true }

/-- The request of a WAITP is cleared (R151). -/
def State.clearPower (s : State) (t : Nat) : State :=
  let x := s.tile t
  let s := s.setTile t { x with tc := { x.tc with power := false } }
  if s.fld (Reg.TC_STATUS t) 0 2 = 3 then s.setTcState t 0 else s

/-! Append pointers (R44). -/

/-- A region of a tile at a COMMIT: the pointer advances by `step`, carrying an overshoot past the restart. -/
def State.appendAdvance (s : State) (t i : Nat) : State :=
  let c := s.rd (Reg.SEQ_APP_CTRL t i)
  if c.bit 30 && c.bit 31 then
    let q := s.fld (Reg.SEQ_APP_PTR t i) 0 23 + c.field 0 16
    let limit := s.fld (Reg.SEQ_APP_LIMIT t i) 0 23
    let base := s.fld (Reg.SEQ_APP_BASE t i) 0 23
    if q < limit then s.setFld (Reg.SEQ_APP_PTR t i) 0 23 q
    else (s.setFld (Reg.SEQ_APP_PTR t i) 0 23 (base + (q - limit))).setBit (Reg.SEQ_APP_CTRL t i) 29 true
  else s

/-- The regions of a tile at a COMMIT. -/
def State.appendAll (s : State) (t : Nat) : State := (List.range 128).foldl (fun s i => s.appendAdvance t i) s

/-! The outcome of a beat (R39, R40). -/

/-- The outcome by the table of R39: fault, then late, then gap. -/
def outcomeOf (fault late gap : Bool) : Nat := if fault then 3 else if late then 1 else if gap then 2 else 0

/-- The edge ports of a partition. -/
def State.partEdges (s : State) (p : Nat) : List Nat := (List.range 48).filter (fun e => s.edgeOwner e == some p)

/-- Every edge port of a partition is flushed (R206). -/
def State.flushEdges (s : State) (p : Nat) : State := (s.partEdges p).foldl (fun s e => s.edgeFlush e) s

/-- Tiles at an outcome: the units are cut off; a COMMIT advances append regions and streams, a SLIP or GAP restores. -/
def State.outcomeTile (s : State) (openMs outcome t : Nat) : State :=
  let s := s.cutOff t
  if outcome = 0 then (s.appendAll t).seCommit t
  else if outcome = 3 then s
  else s.restartTile openMs t

/-- Channels at an outcome (R40, R45, R46): outbound ones send their marker, inbound ones retire or keep their item. -/
def State.outcomeChan (s : State) (openMs outcome c : Nat) : State :=
  if s.chanOut c then s.chanMarker c (outcome != 0) openMs
  else
    let s := s.chanClose c outcome
    if outcome = 1 ∨ outcome = 2 then s.chanRepush c else s

/-- The counters of a beat block at an outcome (R35, R40, R43). -/
def State.outcomeCount (s : State) (p outcome : Nat) : State :=
  let st := Reg.PART_BEAT_STATUS p
  let consec := s.fld st 8 8
  let attempt := s.fld st 16 8
  let s := s.setFld st 4 2 outcome
  match outcome with
  | 0 =>
    let s := s.wr2 (Reg.PART_STEP_LO p) (Reg.PART_STEP_HI p) ((s.step48 p + 1) % 2 ^ 48)
    ((s.addReg (Reg.PART_COMMIT_COUNT p) 1).setFld st 8 8 0).setFld st 16 8 0
  | 1 => ((s.addReg (Reg.PART_SLIP_COUNT p) 1).setFld st 8 8 (min 255 (consec + 1))).setFld st 16 8 (min 255 (attempt + 1))
  | 2 => (s.addReg (Reg.PART_GAP_COUNT p) 1).setFld st 16 8 (min 255 (attempt + 1))
  | _ => s

/-- Whether `slip_limit` is reached (R43). -/
def State.slipLimit (s : State) (p : Nat) : Bool :=
  let n := s.fld (Reg.PART_BEAT_CTRL p) 8 8
  n != 0 && decide (n ≤ s.fld (Reg.PART_BEAT_STATUS p) 8 8)

/-- The records of a slip (R43): the first of a run, and the limit. -/
def State.slipLog (s : State) (p variant : Nat) (first : Bool) (late : List Nat) : State :=
  let st := Reg.PART_BEAT_STATUS p
  let detail := toBytes late.length 1 ++ toBytes (s.fld st 8 8) 1 ++ toBytes variant 1 ++ toBytes (s.step48 p) 6
  let t := late.headD 0
  let s := if first then s.logRec 0 t 0x0310 sevCorrected (some p) detail else s
  if s.slipLimit p then s.logRec 0 t 0x0311 sevPartition (some p) detail else s

/-- The variant that a beat of a partition runs (R35), or that its trial tries (R367). -/
def State.partVariant (s : State) (p : Nat) : Nat :=
  let hi := s.rd (Reg.PART_VAR_SEQ_HI p)
  let i := s.step48 p % (hi.field 24 4 + 1)
  match s.part p with
  | some { trial := some v, .. } => v
  | _ => if i < 10 then s.fld (Reg.PART_VAR_SEQ_LO p) (3 * i) 3 else hi.field (3 * (i - 10)) 3

/-! Transitions of a partition (R34, R41, R50, R361, R365, R366). -/

/-- Whether an armed milestone in a pair of registers has come (R31, R34). -/
def State.armDue (s : State) (lo hi n : Nat) : Bool := s.bit hi 31 && !(msAhead (s.rd2 lo hi % 2 ^ 48) n)

/-- The repeat rule (R363): the fault's code is that of the last resumed recovery, within `repeat_beats` of its resume. -/
def State.repeats (s : State) (q : Part) (n : Nat) : Bool :=
  match q.resumed, q.cause with
  | some (code, at_), some r =>
    code == r.code && decide ((n + 2 ^ 48 - at_) % 2 ^ 48 ≤ s.fld Reg.BOOT_REC_REPEAT 0 16)
  | _, _ => false

/-- The attempt of a partition's beat (R43). -/
def State.attempt (s : State) (p : Nat) : Nat := s.fld (Reg.PART_BEAT_STATUS p) 16 8

/-- A partition freezes at a milestone (R361 step 1), with the variant and the attempt of the beat that closed: its recovery starts at a step, for
a PART_RESET where one waits. An armed STOP stays armed until the recovery ends STOPPED for it (R35, R362), and the channels grant what the
discarding of items takes (R48). -/
def State.freeze (s : State) (p n variant attempt : Nat) : State :=
  let s := s.updPart p (fun x => { x with
    beatOpen := false, fault := false, gapAbort := false, resetReq := none
    recov := { x.recov with
      step := 2, repeats := s.repeats x n, device := x.devFatal
      cmd := (match x.resetReq with | some (r, _) => some r | none => none)
      resume := (match x.resetReq with | some (_, b) => b | none => true)
      ms := n, time := s.msTime n, attempt := attempt, variant := variant, code := x.cause.map (fun r => r.code) } })
  let s := (s.setBit (Reg.PART_START_AT_HI p) 31 false).setPstate p psFrozen
  (s.partChans p).foldl (fun s c => s.chanHoldCredit c) s

/-- A partition freezes for a PART_RESET, which runs steps 4 to 7 without a dump (R365). -/
def State.freezeReset (s : State) (p n variant attempt : Nat) : State :=
  let s := s.freeze p n variant attempt
  (s.updPart p (fun x => { x with recov := { x.recov with step := 4 } })).setPstate p psRecovering

/-- A STOP takes effect (R34, R165, R206, R350): the residue check, and the edge ports are flushed; a partition that rests stays in its rung. -/
def State.stopPart (s : State) (p : Nat) : State :=
  let s := s.setBit (Reg.PART_STOP_AT_HI p) 31 false
  let s := s.updPart p (fun x => { x with
    beatOpen := false, fault := false, cause := none, gapAbort := false, trial := none, wakeAt := none, exitDone := false, exitLate := false })
  let s := (s.setPstate p psStopped).flushEdges p
  (s.partTiles p).foldl (fun s t => s.semResidue t) s

/-- The channels and contexts of a partition open (R116, R361 step 7): a tile's enabled contexts open with fill 0, and channels offer their
held items again; room of a channel that no row has used returns (log entry 116). -/
def State.openContexts (s : State) (p : Nat) : State :=
  let s := (s.partTiles p).foldl (fun s t => (List.range 8).foldl (fun s c => s.seOpen t c) s) s
  let s := ((s.partChans p).filter (fun c => s.chanState c == 1)).foldl (fun s c =>
    (s.chanReopened c).edgeCancel (s.chanEdge c) (fun g => !g.dwr && s.outChan (s.chanEdge c) g.src g.ctx == some c)) s
  (s.partTiles p).foldl (fun s t =>
    ((List.range 8).foldl (fun s c => s.seCredit t c) (s.updSe t (fun e => { e with timedOut := [] }))).seStatus t) s

/-- A partition that becomes RUNNING (R116, R164): its semaphores take their initial values, and its channels and contexts open. -/
def State.openStreams (s : State) (p : Nat) : State :=
  ((s.partTiles p).foldl (fun s t => s.semLoad t) s).openContexts p

/-- A partition becomes RUNNING at a milestone (R34, R116, R164). -/
def State.startPart (s : State) (p : Nat) : State :=
  let s := s.setBit (Reg.PART_START_AT_HI p) 31 false
  let s := (s.setFld (Reg.PART_BEAT_STATUS p) 8 8 0).setFld (Reg.PART_BEAT_STATUS p) 16 8 0
  let s := s.updPart p (fun x => { x with
    fault := false, cause := none, gapAbort := false, beatOpen := false, recov := RecSt.none, resumed := none
    resetReq := none, devFatal := 0, trial := none })
  (s.openStreams p).setPstate p psRunning

/-- A recovered partition becomes RUNNING at its resume milestone, which PART_RESET_DONE records (R361 step 8): its semaphores load and its
contexts open at that milestone, as those of a partition that starts (R116, R164; log entry 115). -/
def State.resumePart (s : State) (p n : Nat) : State :=
  let s := s.resetDone p 0 n
  let s := (s.setFld (Reg.PART_BEAT_STATUS p) 8 8 0).setFld (Reg.PART_BEAT_STATUS p) 16 8 0
  let s := s.updPart p (fun x => { x with
    fault := false, cause := none, gapAbort := false, beatOpen := false, recov := RecSt.none, outcome := 0
    resumed := (match x.recov.code with | some c => some (c, n) | none => x.resumed) })
  ((s.updPart p (fun x => { x with cause := none })).openStreams p).setPstate p psRunning

/-! Rungs (R151, R334 to R336). -/

/-- The exit time of a rung in ns (R332). -/
def rungExitNs (r : Nat) : Nat := if r = 1 then 200 else if r = 2 then 2000 else if r = 3 then 20000 else 200000

/-- The rung that a committed beat asks for: every tile ended with WAITP and a rung of 1 or more (R151). -/
def State.rungAsked (s : State) (p : Nat) : Option Nat :=
  let ts := s.beatTiles p
  if !ts.isEmpty && ts.all (fun t => (s.tile t).tc.power && s.fld (Reg.TC_STATUS t) 0 2 == 3 && s.fld (Reg.TC_PWRMODE t) 0 2 != 0) then
    some (ts.foldl (fun r t => min r (s.fld (Reg.TC_PWRMODE t) 0 2)) 3)
  else none

/-- Whether a beat-input channel of a partition holds a complete data item at its head (R336). -/
def State.inputWaits (s : State) (p : Nat) : Bool :=
  (s.partChans p).any (fun c => s.isBeatIn c && !(s.chanOut c) && (s.chan c).items.any (fun i => !i.gap))

/-- A partition enters a rung (R151, R334); an item that is complete already wakes it at once (R350). -/
def State.enterRung (s : State) (p r : Nat) : State :=
  let wake := if s.inputWaits p then some s.now else none
  let s := s.setFld (Reg.PWR_PART p) 8 3 r
  (s.updPart p (fun x => { x with rung := r, entering := true, wakeAt := wake, exitDone := false, exitLate := false })).pllRungs

/-- A wake event reaches a partition that rests in a rung: the first one counts (R336). -/
def State.wake (s : State) (p : Nat) : State :=
  s.updPart p (fun x => if x.rung != 0 && x.wakeAt.isNone then { x with wakeAt := some s.now } else x)

/-- A partition leaves its rung. -/
def State.leaveRung (s : State) (p : Nat) : State :=
  let s := s.setFld (Reg.PWR_PART p) 8 3 0
  let s := s.updPart p (fun x => { x with rung := 0, entering := false, wakeAt := none, exitDone := false, exitLate := false })
  s.pllRungs.powerNotice p 0

/-- A resting partition at a milestone (R335, R336, R350): a fault freezes it, a STOP stops it in its rung; otherwise it runs on
from the first milestone that the exit time allows. -/
def State.restMs (s : State) (p n : Nat) (q : Part) : State :=
  let awake (s : State) : State := if q.exitDone then s.leaveRung p else s.wake p
  if q.fault then ((awake s).freeze p n 0 (s.attempt p)).flushEdges p
  else if q.resetReq.isSome then (awake s).freezeReset p n 0 (s.attempt p)
  else if s.armDue (Reg.PART_STOP_AT_LO p) (Reg.PART_STOP_AT_HI p) n then s.stopPart p
  else match q.wakeAt with
    | none => s
    | some t =>
      if s.now < t + rungExitNs q.rung then s
      else if q.exitDone then
        let late := q.exitLate
        let s := s.leaveRung p
        if late then (s.logRec 7 0xFFF 0x0906 sevCorrected (some p) (s.openDetail 0x0906)).stepFree else s
      else s.updPart p (fun x => { x with exitLate := true })

/-! A partition at a milestone. -/

/-- The gap markers that a partition without a beat sends at a milestone (R45, R335). -/
def State.sendGaps (s : State) (p n : Nat) : State :=
  (s.partChans p).foldl (fun s c => if s.chanOut c then s.chanMarker c true ((n + 2 ^ 48 - 1) % 2 ^ 48) else s) s

/-- What follows the outcome of a beat (R43, R50, R151, R361, R365). -/
def State.afterBeat (s : State) (p n outcome variant attempt : Nat) : State :=
  let stop := s.armDue (Reg.PART_STOP_AT_LO p) (Reg.PART_STOP_AT_HI p) n
  let limit := outcome == 1 && s.slipLimit p
  let rung := if outcome = 0 then s.rungAsked p else none
  let reset := match s.part p with | some x => x.resetReq.isSome | none => false
  let s := match rung with
    | some _ => s
    | none => (s.partTiles p).foldl (fun s t => s.clearPower t) s
  if outcome = 3 then (s.freeze p n variant attempt).flushEdges p
  else if limit && !stop then s.freeze p n variant attempt
  else if reset then s.freezeReset p n variant attempt
  else if stop then s.stopPart p
  else match rung with
    | some r => s.enterRung p r
    | none => s

/-- The running beat of a partition closes (R36 steps 2 to 5, R39, R40, R43). Once its outcome is decided it is over, so that a fault line that
rises in the actions of the outcome belongs to the next beat (R41, R105). A dry beat of a trial closes as SLIP and adds to no counter
(R367). -/
def State.closeBeat (s : State) (e : MsEnv) (p n : Nat) : State :=
  let ts := s.beatTiles p
  let s := ts.foldl (fun s t => s.sampleTile e t) s
  match s.part p with
  | none => s
  | some q =>
    let late := ts.filter (fun t => !(s.tile t).done)
    let dry := q.trial.isSome
    let outcome := if dry then 1 else outcomeOf q.fault (!late.isEmpty) q.gapAbort
    let variant := q.variants.headD 0
    let attempt := s.attempt p
    let first := s.fld (Reg.PART_BEAT_STATUS p) 8 8 == 0
    let s := ts.foldl (fun s t => s.publish e p outcome t) s
    let s := if dry then s else s.outcomeCount p outcome
    let s := if outcome = 1 ∧ !dry then s.slipLog p variant first late else s
    let s := s.updPart p (fun x => { x with beatOpen := false, gapAbort := false, shown := outcome })
    let s := (s.partTiles p).foldl (fun s t => s.outcomeTile q.openMs outcome t) s
    let s := (s.partChans p).foldl (fun s c => s.outcomeChan q.openMs outcome c) s
    let s := (s.partEdges p).foldl (fun s x => s.edgeClose x q.openMs outcome) s
    if dry then s else s.afterBeat p n outcome variant attempt

/-- A partition at milestone n: what its state makes of it (R34, R36, R45, R335, R366). -/
def State.partMs (s : State) (e : MsEnv) (n p : Nat) : State :=
  let s := (s.partTiles p).foldl (fun s t => if s.inBeat t then s else s.settleAborts t) s
  match s.part p with
  | none => s
  | some q =>
    let st := s.pstate p
    if st = psRunning ∧ q.rung ≠ 0 then ((s.updPart p (fun x => { x with shown := 2 })).sendGaps p n).restMs p n q
    else if st = psRunning ∧ q.beatOpen then s.closeBeat e p n
    else if st = psRunning then
      if q.trial.isSome then s.sendGaps p n
      else if q.fault then ((s.sendGaps p n).freeze p n 0 (s.attempt p)).flushEdges p
      else if q.resetReq.isSome then s.freezeReset p n 0 (s.attempt p)
      else if s.armDue (Reg.PART_STOP_AT_LO p) (Reg.PART_STOP_AT_HI p) n then s.stopPart p
      else s
    else if st = psArmed then
      if q.fault then (s.freeze p n 0 (s.attempt p)).flushEdges p
      else if s.armDue (Reg.PART_START_AT_LO p) (Reg.PART_START_AT_HI p) n then s.startPart p
      else s
    else if st = psFrozen ∨ st = psRecovering then
      let s := s.sendGaps p n
      match q.recov.resumeAt with
      | some m =>
        if msAhead m n then s
        else
          let o := s.recOutcome p q false
          if o = 0 then s.resumePart p n else s.endStopped p o
      | none => s
    else s

/-! Snapshots. -/

/-- The beats that open at a milestone: it is their opening milestone from now on (R162, R186), their tiles and edge ports take their snapshots
(R124, R161, R207), and the packets of the attempt that bore this milestone's tag come no more (R184). -/
def State.snapPart (s : State) (n p : Nat) : State :=
  match s.part p with
  | some q =>
    if s.pstate p = psRunning ∧ q.rung = 0 then
      let s := s.updPart p (fun x => { x with openMs := n })
      let s := (s.partEdges p).foldl (fun s e => s.edgeSnap e) s
      (s.partTiles p).foldl (fun s t =>
        let s := ((s.semSnap t).seSnapshot t).wr2 (Reg.SEQ_BEAT_MS_LO t) (Reg.SEQ_BEAT_MS_HI t) n
        let x := s.tile t
        if x.abandoned.contains (n % 4) then s.setTile t { x with abandoned := x.abandoned.filter (fun b => b != n % 4) } else s) s
    else s
  | none => s

/-! The opening of a beat (R36 step 6). -/

/-- A tile starts entry 0 of the variant at handshake 0 (R35, R36, R129, R131, R152). -/
def State.openTile (s : State) (p n variant t : Nat) : State :=
  let x := s.tile t
  let s := s.setTile t { x with
    nextHs := 0, nextK := s.fld (Reg.SEQ_VAR t variant) 0 12, stopped := false, overrunAt := none, gate := none, endAt := none
    order := 0, evs := [], lastWide := none, done := false
    tc := { x.tc with stopped := false, power := false, access := (0, 0) } }
  let s := (s.clearPower t).setBit (Reg.TC_STATUS t) 8 false
  let s := s.setHs t 0
  let b := s.rd (Reg.SEQ_BEAT_STATUS t)
  let s := s.wr (Reg.SEQ_BEAT_STATUS t) ((((b.setBit 0 false).setBit 2 false)).setField 8 3 variant)
  let s := s.wr (Reg.SEQ_STATUS t) (((s.rd (Reg.SEQ_STATUS t)).setField 16 3 1))
  let s := s.wr2 (Reg.SEQ_BEAT_MS_LO t) (Reg.SEQ_BEAT_MS_HI t) n
  let s := s.wr2 (Reg.SEQ_STEP_LO t) (Reg.SEQ_STEP_HI t) (s.step48 p)
  s.wr (Reg.SEQ_ATTEMPT t) (BitVec.ofNat 32 (s.fld (Reg.PART_BEAT_STATUS p) 16 8))

/-- The beat of a partition opens: its tiles start, and its beat inputs resolve (R36 step 6, R46). -/
def State.openBeat (s : State) (p : Nat) : State :=
  let n := s.msCount
  let v := s.partVariant p
  let s := s.updPart p (fun x => { x with beatOpen := true, openMs := n, gapAbort := false, variants := (v :: x.variants).take 16 })
  let s := (s.beatTiles p).foldl (fun s t => s.openTile p n v t) s
  (s.partChans p).foldl (fun s c => s.chanResolve c) s

/-- BEAT_START (R35, R36 step 6, R42, R46, R129, R131): the turnaround of a partition that runs ends. -/
def execBeatStart (partition : Nat) (s : State) : Host.Outcome State Fault Refusal :=
  match s.part partition with
  | some q =>
    if s.pstate partition = psRunning ∧ q.rung = 0 ∧ !q.beatOpen then
      .next ((s.timeTo ((s.msTime s.msCount + 40) * 2 ^ 16)).openBeat partition)
    else .next s
  | none => .next s

/-- COMMIT_MARKER (R45 to R48, R259, R336): a data item is complete; it wakes a partition that rests in a rung. -/
def execCommitMarker (chan : Nat) (tag : BitVec 48) (rows : BitVec 13) (s : State) : Host.Outcome State Fault Refusal :=
  let s := s.takeRecord chan 0 tag.toNat rows.toNat
  if s.chanOn chan && !(s.chanOwned chan) then .next (s.recordDrop chan)
  else if s.takesMarker chan then
    let s := s.chanItem chan false tag.toNat rows.toNat
    let p := s.chanOwner chan
    .next (if s.isBeatIn chan && s.rests p then s.wake p else s)
  else .next s

end Sys2Proof.Machine
end

