-- ==== Sys2Proof/Machine/ConfigLoad.lean ====
section
/-!
DEFINITION. The configuration controller (R213 to R223, R225, R226, R229): image headers, the stream commands, the device key and
the staged release of a design (R209, R210). A digest, key, IV or tag is a byte string, held as the number of its bytes.
-/
namespace Sys2Proof.Machine

/-! Pins of the controller and of boot. -/

/-- `CFG_ERR_N` is driven low (R223, R356) or released. -/
def State.cfgErrPin (s : State) (low : Bool) : State :=
  if s.boot.cfgErr = low then s else ({ s with boot := { s.boot with cfgErr := low } } : State).emit (.pin 1 (!low))

/-- `DEV_OK` (R351, R353). -/
def State.devOkPin (s : State) (high : Bool) : State :=
  if s.boot.devOk = high then s else ({ s with boot := { s.boot with devOk := high } } : State).emit (.pin 2 high)

/-- `CFG_DONE`. -/
def State.cfgDonePin (s : State) (high : Bool) : State :=
  if s.boot.cfgDone = high then s else ({ s with boot := { s.boot with cfgDone := high } } : State).emit (.pin 3 high)

/-! The header (R216). -/

/-- A field of a header, bytes [hi:lo]. -/
def hdrField (h : List Byte) (lo n : Nat) : Nat := ofBytes ((h.drop lo).take n)

def hdrKind (h : List Byte) : Nat := hdrField h 6 1
def hdrEnc (h : List Byte) : Bool := (hdrField h 7 1).testBit 0
def hdrBbram (h : List Byte) : Bool := (hdrField h 7 1).testBit 1
def hdrSectors (h : List Byte) : Nat := hdrField h 12 4
def hdrSeg0 (h : List Byte) : Nat := hdrField h 20 4
def hdrMapOff (h : List Byte) : Nat := hdrField h 24 4
def hdrMapLen (h : List Byte) : Nat := hdrField h 28 4

/-- The sectors of a range of columns (R198). -/
def colSectors (first last : Nat) : Nat :=
  (List.range 16).foldl (fun m c => if first ≤ c ∧ c ≤ last then m ||| 2 ^ c ||| 2 ^ (16 + c) else m) 0

/-- The sectors that `layout` names (R216). -/
def hdrLayoutSectors (h : List Byte) : Nat := colSectors (hdrField h 32 1 % 16) (hdrField h 32 1 / 16)

/-- A digest and a tag as the numbers of their bytes (log entry 14). -/
def sha384 (b : List Byte) : Nat := (Config.sha384 b).toNat
def gcmTag (key iv : Nat) (aad c : List Byte) : Nat := (Config.gcmTag key iv aad c).toNat

/-- SHA-384 of the signed part of a header, as a byte string. -/
def hdrDigest (h : List Byte) : List Byte := toBytes (sha384 (h.take 384)) 48

/-! The device key (R218). -/

/-- The key of a source, where the device accepts the source and holds its key. -/
def FuseSt.key (f : FuseSt) (bbram : Bool) : Option (BitVec 256) :=
  if f.keySrc.getLsbD (if bbram then 1 else 0) then (if bbram then f.bbramKey else f.efuseKey) else none

/-- `n` bytes of key stream from a block on. -/
def keyStream (key iv : Nat) : Nat → Nat → List Byte
  | 0, _ => []
  | n + 1, i => toBytes (Config.aesGcmStream key iv i).toNat 16 ++ keyStream key iv n (i + 1)

/-- A cipher text decrypted, or a plain text encrypted. -/
def aesXor (key iv : Nat) (c : List Byte) : List Byte := List.zipWith (fun a b => a ^^^ b) c (keyStream key iv (c.length / 16 + 1) 0)

/-- The key of segment 0 of an encrypted image, or the reason of R223 why there is none. -/
def unwrapKey (f : FuseSt) (h : List Byte) : Nat ⊕ Nat :=
  match f.key (hdrBbram h) with
  | none => .inr 4
  | some k =>
    let kiv := hdrField h 52 12
    let c := (h.drop 64).take 32
    let aad := toBytes (sha384 (h.take 64 ++ List.replicate 48 0 ++ (h.drop 112).take 272)) 48
    if gcmTag k.toNat kiv aad c = hdrField h 96 16 then .inl (ofBytes (aesXor k.toNat kiv c)) else .inr 5

/-- The check of a header in the order of R217, then of its encryption (R218): the reason of R223, or none. -/
def hdrReason (f : FuseSt) (idcode : Word) (kinds : List Nat) (h : List Byte) : Option Nat :=
  if h.length ≠ 512 ∨ crc32 (h.take 480) ≠ hdrField h 480 4 then some 0
  else if hdrField h 0 4 ≠ 0x36395444 ∨ hdrField h 4 2 ≠ 1 ∨ hdrField h 8 4 % 2 ^ 28 ≠ idcode.toNat % 2 ^ 28 ∨
      !(kinds.contains (hdrKind h)) then some 1
  else if f.pkHash ≠ 0 ∧ sha384 ((h.drop 208).take 96) ≠ f.pkHash.toNat then some 2
  else if f.pkHash ≠ 0 ∧ !(Config.ecdsaP384 (hdrField h 208 96) (sha384 (h.take 384)) (hdrField h 384 96)) then some 3
  else if hdrEnc h then (match unwrapKey f h with | .inl _ => none | .inr r => some r)
  else if f.encReq then some 12
  else none

/-- The additional data of a segment (R221). -/
def segAad (h : List Byte) (seg len : Nat) : List Byte := hdrDigest h ++ toBytes seg 4 ++ toBytes len 4

/-! A whole image in memory (R215 to R222): what FW_UPDATE and boot step B1 check of it. -/

/-- The segments of an encrypted body, one after another: the reason of R223, or none. The length that an AUTH_TAG gives and that does not
fit what follows is a corrupted one (R230); that of segment 0 is the header's (log entry 123). -/
def segWalk (h : List Byte) : Nat → List Byte → Nat → Nat → Nat → Nat → Option Nat
  | 0, _, _, _, _, _ => some 9
  | fuel + 1, b, seg, key, iv, len =>
    let c := b.take len
    let tail := b.drop len
    if 2 ^ 20 < len then some 9
    else if len < 16 ∨ len % 4 ≠ 0 ∨ c.length ≠ len ∨ tail.length < 20 ∨ hdrField tail 0 1 ≠ 6 then some (if seg = 0 then 9 else 6)
    else if gcmTag key iv (segAad h seg len) c ≠ hdrField tail 4 16 then some 6
    else
      let next := hdrField tail 1 3
      let roll := (aesXor key iv c).drop (len - 48)
      if next = 0 then (if tail.length = 20 then none else some 6)
      else if tail.length = 20 then some 6
      else if hdrField roll 0 4 ≠ 5 then some 9
      else
        segWalk h fuel (tail.drop 20) (seg + 1) (hdrField roll 4 32) (hdrField roll 36 12) next

/-- The check of a whole image: header, body and map. -/
def imageReason (f : FuseSt) (idcode : Word) (kinds : List Nat) (image : List Byte) : Option Nat :=
  let h := image.take 512
  match hdrReason f idcode kinds h with
  | some r => some r
  | none =>
    let body := (image.drop 512).take (hdrField h 16 4)
    let map := (image.drop (hdrMapOff h)).take (hdrMapLen h)
    let bodyBad : Option Nat :=
      if hdrEnc h then
        (match unwrapKey f h with
         | .inl key =>
           if hdrKind h = 0 then segWalk h (body.length / 16 + 1) body 0 key (hdrField h 40 12) (hdrSeg0 h)
           else segWalk h (body.length / 16 + 1) (body.drop 4) 0 key (hdrField h 40 12) (hdrSeg0 h)
         | .inr r => some r)
      else if sha384 body ≠ hdrField h 112 48 then some 7 else none
    match bodyBad with
    | some r => some r
    | none => if hdrMapOff h ≠ 0 ∧ sha384 map ≠ hdrField h 160 48 then some 8 else none

/-! Frames (R219, R220). -/

/-- The sector, type and index of a frame address. -/
def faSector (a : Nat) : Nat := a / 2 ^ 15 % 32
def faType (a : Nat) : Nat := a / 2 ^ 13 % 4
def faIndex (a : Nat) : Nat := a % 2 ^ 13

/-- Frames of a type in a sector. -/
def frameCount (type : Nat) : Nat := if type = 0 then 3840 else 2592

/-- Whether a run of frames lies inside R220. -/
def addrOk (a n : Nat) : Bool :=
  decide (a < 2 ^ 20) && decide (faType a < 2) && decide (faIndex a + n ≤ frameCount (faType a))

/-- A frame is written: no upset of it stays, and it leaves the uncorrectable list (R229). -/
def State.frameWrite (s : State) (a : Nat) (v : BitVec 4096) : State :=
  let c := s.cfg
  let s : State := { s with cfg := { c with
    frames := if v = 0 then SMap.erase c.frames a else SMap.set c.frames a v, flips := SMap.erase c.flips a } }
  (List.range 16).foldl (fun s i =>
    if s.bit (Reg.CFG_UE_LIST i) 31 && s.fld (Reg.CFG_UE_LIST i) 0 20 == a then s.wr (Reg.CFG_UE_LIST i) 0 else s) s

/-- The sectors of a mask are marked not loaded. -/
def State.unload (s : State) (mask : Nat) : State :=
  let s := s.wr Reg.CFG_LOADED (s.rd Reg.CFG_LOADED &&& ~~~(BitVec.ofNat 32 mask))
  (List.range 32).foldl (fun s k => if mask.testBit k then s.setBit (Reg.FAB_SECT_STATUS k) 5 false else s) s

/-- Every frame of the sectors of a mask is zero (R223, R314). -/
def State.clearSectors (s : State) (mask : Nat) : State :=
  let keep (a : Nat) : Bool := !(mask.testBit (faSector a))
  let c := s.cfg
  let s : State := { s with cfg := { c with frames := c.frames.filter (fun e => keep e.1), flips := c.flips.filter (fun e => keep e.1) } }
  let s := (List.range 16).foldl (fun s i =>
    if s.bit (Reg.CFG_UE_LIST i) 31 && !(keep (s.fld (Reg.CFG_UE_LIST i) 0 20)) then s.wr (Reg.CFG_UE_LIST i) 0 else s) s
  s.unload mask

/-! A load. -/

/-- The state with the load under way replaced. -/
def State.setLoad (s : State) (l : Option LoadSt) : State := { s with cfg := { s.cfg with load := l } }

/-- The detail of a record of a load (R223). -/
def LoadSt.detail (l : LoadSt) (reason : Nat) : List Byte :=
  (match l.src with
   | .slot k => toBytes 0 1 ++ [k]
   | .load p => toBytes 1 1 ++ toBytes p 1) ++
  toBytes reason 1 ++ toBytes l.seg 4 ++ toBytes l.offset 4

/-- The event code of a reason (R217, R223). -/
def reasonCode (r : Nat) : Nat := if r = 0 then 0x0502 else if r = 1 ∨ r = 9 ∨ r = 10 ∨ r = 11 then 0x0514 else 0x0501

/-- The results of a FABRIC_LOAD: reason and segment of `CFG_LOAD_ERR`. -/
def State.loadResults (s : State) : List Byte :=
  toBytes (s.fld Reg.CFG_LOAD_ERR 0 8) 1 ++ toBytes (s.fld Reg.CFG_LOAD_ERR 8 24) 4

/-- The function whose FABRIC_LOAD streams into a partition. -/
def State.loadFn (s : State) (p : Nat) : Option Nat :=
  (s.mbx.find? (fun m => match m.2.running with
    | some ⟨_, _, some q, .load, _⟩ => q.partition == p
    | _ => false)).map (fun m => m.1)

/-- A load ends with a failure (R217, R223): it is logged, its sectors are cleared, and its command or boot step learns of it. -/
def State.loadFail (s : State) (l : LoadSt) (reason : Nat) : State :=
  let s := s.logRec 2 0xFFF (reasonCode reason) sevContained none (l.detail reason)
  let s := (s.wr Reg.CFG_LOAD_ERR (BitVec.ofNat 32 (reason + l.seg * 256))).setLoad none
  let s := ((s.clearSectors l.permit).wr Reg.CFG_STATUS ((s.rd Reg.CFG_STATUS) &&& 0x10)).cfgErrPin true
  match l.src with
  | .slot _ => { s with boot := { s.boot with loadEnd := some (some (reasonCode reason)) } }
  | .load p =>
    match s.loadFn p with
    | some fn => s.complete fn stFaulted s.loadResults
    | none => s

/-- The essential-bits words of a map (R226) for the sectors that were loaded; without a map every group is essential. -/
def State.takeMap (s : State) (mask : Nat) (map : Option (List Byte)) : State :=
  let c := s.cfg
  let keep := c.essential.filter (fun e => !(mask.testBit (e.1 / 3840)))
  match map with
  | none => { s with cfg := { c with essential := keep } }
  | some m =>
    let sectors := (List.range 32).filter (fun k => (hdrField m 4 4).testBit k)
    let new := sectors.zipIdx.flatMap (fun (x : Nat × Nat) =>
      if mask.testBit x.1 then
        (List.range 3840).map (fun f => (x.1 * 3840 + f, BitVec.ofNat 32 (hdrField m (16 + 4 * (x.2 * 3840 + f)) 4)))
      else [])
    { s with cfg := { c with essential := new.foldl (fun e n => SMap.set e n.1 n.2) keep } }

/-- A load ends well (R223, R226): its sectors are loaded, and a FABRIC_LOAD goes on to its staged release. -/
def State.loadDone (s : State) (l : LoadSt) : State :=
  let mask := hdrSectors l.hdr &&& l.permit
  let s := s.takeMap mask (if hdrMapOff l.hdr = 0 then none else some l.map)
  let s := (s.wr Reg.CFG_LOADED (s.rd Reg.CFG_LOADED ||| BitVec.ofNat 32 mask)).setLoad none
  let s := (List.range 32).foldl (fun s k => if mask.testBit k then s.setBit (Reg.FAB_SECT_STATUS k) 5 true else s) s
  let s := s.wr Reg.CFG_STATUS (((s.rd Reg.CFG_STATUS) &&& 0x10) ||| 0x100)
  let s := s.cfgErrPin false
  match l.src with
  | .slot _ => { s with boot := { s.boot with loadEnd := some none } }
  | .load p => s.updPart p (fun x => { x with releasing := true })

/-- The body digest of a plain image and the map digest are checked at the end (R222, R223). -/
def State.loadCheck (s : State) (l : LoadSt) (body : List Byte) : State :=
  if !(hdrEnc l.hdr) && sha384 body != hdrField l.hdr 112 48 then s.loadFail l 7
  else if hdrMapOff l.hdr ≠ 0 ∧ sha384 l.map ≠ hdrField l.hdr 160 48 then s.loadFail l 8
  else s.loadDone l

/-- Whether an image may come from a source now: a FABRIC_LOAD waits for it, or the boot step that uses the slot is open; never from the
flash in TEST (R213). -/
def State.loadWanted (s : State) (src : ImgSrc) : Bool :=
  s.cfg.load.isNone &&
  (match src with
   | .load p => (s.loadFn p).isSome && (match s.part p with | some x => !x.releasing | none => false)
   | .slot k => !s.testMode && s.hasSlot k.toNat &&
     (k.toNat == s.boot.fwSlot && s.boot.steps.contains 1 || k.toNat == s.boot.fabSlot && s.boot.steps.contains 9) &&
     s.boot.loadEnd.isNone)

/-- The kinds of image that a source takes (R215, R216, R225). -/
def srcKinds (src : ImgSrc) : List Nat :=
  match src with
  | .load _ => [2]
  | .slot k => if k.toNat < 2 then [0] else [1, 3]

/-- Whether the header is the one that the device itself wrote into the slot, where it wrote one. -/
def State.hdrStands (s : State) (src : ImgSrc) (h : List Byte) : Bool :=
  match src with
  | .load _ => true
  | .slot k => match SMap.find s.flash k.toNat with
    | some image => image.take 512 == h
    | none => true

/-- The scrubber leaves a sector that a load begins to write (R231). -/
def State.scrubSkip (s : State) (permit : Nat) : State :=
  let k := s.fld Reg.CFG_SCRUB_POS 16 5
  if permit.testBit k then
    let s := if k = 31 then s.addReg Reg.CFG_SCRUB_PASSES 1 else s
    s.wr Reg.CFG_SCRUB_POS (BitVec.ofNat 32 ((k + 1) % 32 * 65536))
  else s

/-- The banks of the partitions but one. -/
def State.heldBanks (s : State) (p : Nat) : BitVec 4 := s.parts.foldl (fun m x => if x.1 = p then m else m ||| x.2.gpio) 0

/-- Whether the columns and banks of a `layout` are there and nobody's (R20, R216). -/
def State.layoutFree (s : State) (l : Nat) : Bool :=
  let first := l % 16
  let last := l / 16 % 16
  decide (first ≤ last) && (s.heldBanks 0 &&& BitVec.ofNat 4 (l / 256)) == 0 &&
  (List.range 16).all (fun c => !(decide (first ≤ c ∧ c ≤ last)) || ((s.colPart c).isNone && s.colOk c))

/-- The sectors of a partition (R20). -/
def Part.sectors (x : Part) : Nat := colSectors x.firstCol x.lastCol

/-- The sectors that a boot-time fabric image may write (R216, R223): those of partition 0 where it exists, otherwise those of the image's
`layout`, where its columns and banks are nobody's; none where they are (log entry 117). -/
def State.bootPermit (s : State) (h : List Byte) : Nat :=
  match s.part 0 with
  | some x => x.sectors
  | none => if s.layoutFree (hdrField h 32 2) then hdrLayoutSectors h else 0

/-- IMAGE_HEADER (R216 to R218, R223, R225): the header is checked, and the load begins. Until a header from the flash has passed, its load
may write no sector but those of partition 0. The sectors that the image writes are not loaded until it has passed every check (R223). -/
def execImageHeader (src : ImgSrc) (hdr : List Byte) (s : State) : Host.Outcome State Fault Refusal :=
  if s.loadWanted src && s.hdrStands src hdr then
    let host : Bool := match src with | .load _ => true | .slot _ => false
    let fw := hdrKind hdr == 0
    let permit := match src with
      | .load _ => (s.rd Reg.CFG_PERMIT).toNat
      | .slot _ => if fw then 0 else match s.part 0 with | some x => x.sectors | none => 0
    let l : LoadSt := {
      src := src, permit := permit, hdr := hdr, sync := false, seg := 0, key := 0, iv := hdrField hdr 40 12, segLen := hdrSeg0 hdr
      bytes := [], offset := 0, rolled := false, nextKey := 0, nextIv := 0, ended := false, map := [] }
    let s := (s.wr Reg.CFG_STATUS (BitVec.ofNat 32 (1 + 16 * host.toNat))).setLoad (some l)
    let s := if host then s.scrubSkip permit else s
    match hdrReason s.fuses (s.rd Reg.CFG_IDCODE) (srcKinds src) hdr with
    | some r => .next (s.loadFail l r)
    | none =>
      let permit := if host || fw then permit else s.bootPermit hdr
      let s := if host then s else s.wr Reg.CFG_PERMIT (BitVec.ofNat 32 permit)
      let s : State := if host || fw || !(s.layoutFree (hdrField hdr 32 2)) then s
        else { s with boot := { s.boot with layout := some (hdrField hdr 32 2) } }
      let l := { l with permit := permit }
      if !host && !fw && (permit == 0 || hdrSectors hdr != permit) then .next (s.loadFail l 11)
      else
        let s := if host then s else s.scrubSkip permit
        let s := s.unload (hdrSectors hdr &&& permit)
        let key := match unwrapKey s.fuses hdr with | .inl k => k | .inr _ => 0
        .next (s.setLoad (some { l with key := if hdrEnc hdr then key else 0 }))
  else .next s

/-! The stream commands (R219 to R223). -/

/-- The opcode and the argument of a word of the stream; none where no command has the opcode (R219). -/
def decodeStream (w : Word) : Option (Nat × BitVec 24) :=
  let op := w.field 0 8
  if 1 ≤ op ∧ op ≤ 7 then some (op, BitVec.ofNat 24 (w.field 8 24)) else none

/-- The bytes of a command of the stream, from the opcode and the argument of its word (R219). -/
def streamLen (c : Nat × BitVec 24) : Nat :=
  match c.1 with
  | 2 => 8 + 512 * c.2.toNat
  | 3 => 516 + 4 * c.2.toNat
  | 4 => 8
  | 5 => 48
  | 6 => 20
  | _ => 4

/-- The commands that a run of bytes holds, one after another (R219, R221); none where an opcode is unknown or the last command is cut. -/
def streamWalk : Nat → List Byte → Option (List (Nat × BitVec 24))
  | 0, _ => none
  | _ + 1, [] => some []
  | fuel + 1, b =>
    match decodeStream (BitVec.ofNat 32 (hdrField b 0 4)) with
    | none => none
    | some c =>
      if b.length < streamLen c then none
      else (streamWalk fuel (b.drop (streamLen c))).map (fun l => c :: l)

/-- Whether bytes are whole commands of the stream. -/
def streamOk (b : List Byte) : Bool := (streamWalk (b.length + 1) b).isSome

/-- The word of a stream command. -/
def cmdWord (opcode arg : Nat) : List Byte := toBytes opcode 1 ++ toBytes arg 3

/-- Whether a segment length is legal (R221). -/
def segLenOk (n : Nat) : Bool := decide (16 ≤ n) && decide (n ≤ 2 ^ 20) && n % 4 == 0

/-- Whether a command that is neither SYNC nor AUTH_TAG may come now: after SYNC, before END and before the tag that a KEY_ROLL
announces. -/
def LoadSt.open_ (l : LoadSt) : Bool := l.sync && !l.ended && !l.rolled

/-- Whether a command of `n` bytes passes the end of its segment (R221). -/
def LoadSt.past (l : LoadSt) (n : Nat) : Bool := hdrEnc l.hdr && decide (l.segLen < l.bytes.length + n)

/-- Why a load ends at a command that passes the end of its segment: the length that the last AUTH_TAG gave is wrong (R230), or, in segment 0,
that of the header (log entry 123). -/
def LoadSt.pastReason (l : LoadSt) : Nat := if l.seg = 0 then 9 else 6

/-- The load after a command of the body: its bytes and its place. -/
def LoadSt.took (l : LoadSt) (bytes : List Byte) : LoadSt :=
  { l with bytes := l.bytes ++ bytes, offset := l.offset + bytes.length }

/-- A body command, in place or not: fabric images alone have them, and a segment holds whole commands (R221). -/
def State.bodyCmd (s : State) (f : LoadSt → Option Nat) (bytes : List Byte) (act : State → State) : Host.Outcome State Fault Refusal :=
  match s.cfg.load with
  | none => .next s
  | some l =>
    if hdrKind l.hdr = 0 then .next s
    else if !l.open_ then .next (s.loadFail l 9)
    else if l.past bytes.length then .next (s.loadFail l l.pastReason)
    else match f l with
      | some r => .next (s.loadFail l r)
      | none => .next ((act s).setLoad (some (l.took bytes)))

/-- SYNC (R219, R221, R223): the word is decoded; another command, an unknown opcode or a wrong argument ends the load. -/
def execSync (word : Word) (s : State) : Host.Outcome State Fault Refusal :=
  match s.cfg.load with
  | none => .next s
  | some l =>
    if hdrKind l.hdr = 0 then .next s
    else if decodeStream word ≠ some (1, 0x5AA53C) ∨ l.sync ∨ (hdrEnc l.hdr && !(segLenOk l.segLen)) then .next (s.loadFail l 9)
    else
      let l := l.took (cmdWord 1 0x5AA53C)
      .next (s.setLoad (some { l with sync := true, bytes := if hdrEnc l.hdr then [] else l.bytes }))

/-- The reason why a run of frames may not be written (R220, R225). -/
def LoadSt.runReason (l : LoadSt) (n a : Nat) : Option Nat :=
  if n = 0 then some 9 else if !(addrOk a n) then some 10 else if !(l.permit.testBit (faSector a)) then some 11 else none

/-- WRITE_FRAME (R219, R220): the command carries as many frames as its argument says. -/
def execWriteFrame (n : BitVec 24) (addr : BitVec 32) (frames : List (BitVec 4096)) (s : State) : Host.Outcome State Fault Refusal :=
  if frames.length ≠ n.toNat then .next s
  else s.bodyCmd (fun l => l.runReason n.toNat addr.toNat)
    (cmdWord 2 n.toNat ++ toBytes addr.toNat 4 ++ frames.flatMap (fun f => toBytes f.toNat 512))
    (fun s => frames.zipIdx.foldl (fun s x => s.frameWrite (addr.toNat + x.2) x.1) s)

/-- WRITE_REPEAT (R219, R220). -/
def execWriteRepeat (n : BitVec 24) (frame : BitVec 4096) (addrs : List (BitVec 32)) (s : State) : Host.Outcome State Fault Refusal :=
  if addrs.length ≠ n.toNat then .next s
  else s.bodyCmd (fun l => if n = 0 then some 9 else addrs.findSome? (fun a => l.runReason 1 a.toNat))
    (cmdWord 3 n.toNat ++ toBytes frame.toNat 512 ++ addrs.flatMap (fun a => toBytes a.toNat 4))
    (fun s => addrs.foldl (fun s a => s.frameWrite a.toNat frame) s)

/-- ZERO_FILL (R219, R220). -/
def execZeroFill (n : BitVec 24) (addr : BitVec 32) (s : State) : Host.Outcome State Fault Refusal :=
  s.bodyCmd (fun l => l.runReason n.toNat addr.toNat) (cmdWord 4 n.toNat ++ toBytes addr.toNat 4)
    (fun s => (List.range n.toNat).foldl (fun s i => s.frameWrite (addr.toNat + i) 0) s)

/-- KEY_ROLL (R219, R221, R222): the key and IV of the next segment. -/
def execKeyRoll (arg : BitVec 24) (key : BitVec 256) (iv : BitVec 96) (s : State) : Host.Outcome State Fault Refusal :=
  match s.cfg.load with
  | none => .next s
  | some l =>
    let bytes := cmdWord 5 arg.toNat ++ toBytes key.toNat 32 ++ toBytes iv.toNat 12
    if hdrKind l.hdr = 0 then .next s
    else if !l.open_ || !(hdrEnc l.hdr) || arg != 0 then .next (s.loadFail l 9)
    else if l.past bytes.length then .next (s.loadFail l l.pastReason)
    else .next (s.setLoad (some { l.took bytes with rolled := true, nextKey := key.toNat, nextIv := iv.toNat }))

/-- AUTH_TAG (R219, R221, R223): the segment that the cipher text decrypts to is the one that was taken, and one with an unknown opcode
ends the load; its tag is checked, and the next segment opens or the load ends. -/
def execAuthTag (next : BitVec 24) (tag : BitVec 128) (cipher : List Byte) (s : State) : Host.Outcome State Fault Refusal :=
  match s.cfg.load with
  | none => .next s
  | some l =>
    if hdrKind l.hdr = 0 then .next s
    else if !(hdrEnc l.hdr) || !(l.rolled || l.ended) then .next (s.loadFail l 9)
    else if cipher.length ≠ l.segLen ∨ gcmTag l.key l.iv (segAad l.hdr l.seg l.segLen) cipher ≠ tag.toNat then
      .next (s.loadFail l 6)
    else if aesXor l.key l.iv cipher ≠ l.bytes then .next (if streamOk (aesXor l.key l.iv cipher) then s else s.loadFail l 9)
    else if 2 ^ 20 < next.toNat then .next (s.loadFail l 9)
    else if l.ended != (next == 0) || (next != 0 && !(segLenOk next.toNat)) then .next (s.loadFail l 6)
    else if l.ended then .next (s.loadCheck l [])
    else .next (s.setLoad (some { l with
      seg := l.seg + 1, key := l.nextKey, iv := l.nextIv, segLen := next.toNat, bytes := [], rolled := false
      offset := l.offset + 20 }))

/-- IMAGE_END (R219, R222, R223, R226): the last command of a body; `body` are the bytes from SYNC to END, or the whole body of a firmware
image. A body with an unknown opcode ends the load. -/
def execImageEnd (arg : BitVec 24) (body map : List Byte) (s : State) : Host.Outcome State Fault Refusal :=
  match s.cfg.load with
  | none => .next s
  | some l =>
    if hdrKind l.hdr = 0 then
      match imageReason s.fuses (s.rd Reg.CFG_IDCODE) [0] (l.hdr ++ body) with
      | some r => .next (s.loadFail l r)
      | none =>
        let s : State := { s.setLoad none with boot := { s.boot with loadEnd := some none } }
        .next (s.cfgErrPin false)
    else
      let bytes := cmdWord 7 arg.toNat
      if !l.open_ || arg != 0 then .next (s.loadFail l 9)
      else if l.past bytes.length then .next (s.loadFail l l.pastReason)
      else
        let m := { l.took bytes with ended := true, map := map }
        if hdrEnc l.hdr then .next (s.setLoad (some m))
        else if m.bytes = body then .next (s.loadCheck m body)
        else .next (if streamOk body then s else s.loadFail l 9)

/-! The staged release (R209, R210). -/

/-- The reverse release of a partition, stage by stage to 0: resets, then write enables, then outputs (R209); one that stalls is completed
on the controller's own clock (R210, R231). -/
def State.reverseRelease (s : State) (p : Nat) (stall : Bool) : State :=
  let s := if stall && s.relStage p != 0 then
      (s.logRec 2 0xFFF 0x0513 sevContained (some p) (s.openDetail 0x0513)).stepFree
    else s
  let s := if p = 0 then s.cfgDonePin false else s
  (s.stagesDown p (s.relStage p)).updPart p (fun x => { x with releasing := false })

/-- FABRIC_RELEASE_STAGE (R209): outputs, then write enables, then resets; the FABRIC_LOAD completes after the last. -/
def execFabricReleaseStage (partition : Nat) (s : State) : Host.Outcome State Fault Refusal :=
  match s.part partition with
  | some x =>
    if x.releasing then
      let k := s.relStage partition + 1
      let s := s.toStage partition (min 3 k)
      if k < 3 then .next s
      else
        let s := s.updPart partition (fun x => { x with releasing := false })
        match s.loadFn partition with
        | some fn => .next (s.complete fn stOk s.loadResults)
        | none => .next s
    else .next s
  | none => .next s

/-- FAB_RELEASE_STALL (R210): the stage stays held, and the FABRIC_LOAD fails. -/
def execFabReleaseStall (partition : Nat) (s : State) : Host.Outcome State Fault Refusal :=
  match s.part partition with
  | some x =>
    if x.releasing then
      let s := (s.logRec 2 0xFFF 0x0513 sevContained (some partition) (s.openDetail 0x0513)).stepFree
      let s := s.updPart partition (fun x => { x with releasing := false })
      match s.loadFn partition with
      | some fn => .next (s.complete fn stFaulted s.loadResults)
      | none => .next s
    else .next s
  | none => .next s

/-! Fuses and the test port (R213, R218). -/

/-- The read-only registers show the fuses and keys. -/
def State.showFuses (s : State) : State :=
  let f := s.fuses
  let s := s.wr Reg.CFG_FUSE_POLICY (BitVec.ofNat 32 (f.keySrc.toNat + 4 * f.encReq.toNat + 8 * (f.pkHash != 0).toNat))
  s.wr Reg.CFG_KEY_STATUS (BitVec.ofNat 32 (f.efuseKey.isSome.toNat + 2 * f.bbramKey.isSome.toNat))

/-- VBAT_LOSS (R218, R381, R388): `VBAT` fails while `VDD_AON` is absent, and the BBRAM key is lost. -/
def execVbatLoss (s : State) : Host.Outcome State Fault Refusal :=
  .next ({ s with fuses := { s.fuses with bbramKey := none } } : State).showFuses

/-- TEST_PORT_ACCESS (R213, R218): keys and fuses are written, the eFuse key once; in TEST mode the firmware that the ROM waits for
comes; the TAP returns `CFG_IDCODE` (R377). Fuses are numbered by the model: 0 and 1 `key_src`, 2 `enc_req`, 3 + i bit i of `pk_hash` (log entry 28). -/
def execTestPortAccess (op : TestOp) (s : State) : Host.Outcome State Fault Refusal :=
  let set (s : State) (f : FuseSt) : Host.Outcome State Fault Refusal := .next (State.showFuses { s with fuses := f })
  match op with
  | .firmware =>
    if s.boot.steps.contains 1 && decide (3 ≤ s.boot.mode.toNat) then .next { s with boot := { s.boot with loadEnd := some none } }
    else .next s
  | .idcode => .next (s.emit (.tap (s.rd Reg.CFG_IDCODE)))
  | .fuseKey k => if s.fuses.efuseKey.isNone then set s { s.fuses with efuseKey := some k } else .next s
  | .bbramKey k => set s { s.fuses with bbramKey := some k }
  | .fuse i =>
    if i < 2 then set s { s.fuses with keySrc := s.fuses.keySrc ||| BitVec.ofNat 2 (2 ^ i) }
    else if i = 2 then set s { s.fuses with encReq := true }
    else if i < 387 then set s { s.fuses with pkHash := s.fuses.pkHash ||| BitVec.ofNat 384 (2 ^ (i - 3)) }
    else .next s

end Sys2Proof.Machine
end

