-- ==== Sys2Proof/Machine/CfgScrub.lean ====
section
/-!
DEFINITION. The configuration scrubber (R224, R227 to R229, R231).
-/
namespace Sys2Proof.Machine

/-- The Hamming positions of the 128 data bits of a group: 1 to 136 without the powers of two (R224). -/
def hamPositions : List Nat :=
  (List.range 137).filter (fun p => !([0, 1, 2, 4, 8, 16, 32, 64, 128].contains p))

/-- The bits of a group among 4,096 data and 288 check bits: data bit `i` at i × 32 + g, check bit `j` at 4,096 + j × 32 + g. -/
def groupData (v : BitVec 4384) (g i : Nat) : Bool := v.getLsbD (i * 32 + g)
def groupCheck (v : BitVec 4384) (g j : Nat) : Bool := v.getLsbD (4096 + j * 32 + g)

/-- The syndrome of the upset bits of a group: the positions of the flipped bits, summed bit by bit. -/
def groupSyndrome (v : BitVec 4384) (g : Nat) : Nat :=
  let data := hamPositions.zipIdx.foldl (fun a x => if groupData v g x.2 then a ^^^ x.1 else a) 0
  (List.range 8).foldl (fun a j => if groupCheck v g j then a ^^^ 2 ^ j else a) data

/-- The parity of the upset bits of a group, with c8. -/
def groupParity (v : BitVec 4384) (g : Nat) : Bool :=
  let data := (List.range 128).foldl (fun a i => a ^^ groupData v g i) false
  (List.range 9).foldl (fun a j => a ^^ groupCheck v g j) data

/-- What the check of a group shows (R228). -/
inductive GroupFind where
  | clean
  | data (i : Nat)
  | check (j : Nat)
  | uncorrectable
  deriving DecidableEq, Repr

/-- The finding from syndrome and parity (R224). -/
def groupFind (v : BitVec 4384) (g : Nat) : GroupFind :=
  let syn := groupSyndrome v g
  if groupParity v g then
    if syn = 0 then .check 8
    else match (List.range 8).find? (fun j => 2 ^ j == syn) with
      | some j => .check j
      | none => match hamPositions.findIdx? (fun p => p == syn) with
        | some i => .data i
        | none => .uncorrectable
  else if syn = 0 then .clean else .uncorrectable

/-- The bits of a group, as a mask over a frame. -/
def groupMask (g : Nat) : BitVec 4384 :=
  (List.range 137).foldl (fun m i => m ||| BitVec.ofNat 4384 (2 ^ (i * 32 + g))) 0

/-- The detail of a record of the scrubber (R228). -/
def seuDetail (sector frame group : Nat) (check listed : Bool) (owner : Option Nat) : List Byte :=
  toBytes sector 1 ++ toBytes frame 2 ++ toBytes group 1 ++ toBytes (check.toNat + 2 * listed.toNat) 1 ++
  toBytes (match owner with | some p => p | none => 255) 1

/-- Whether a frame stands in the uncorrectable list. -/
def State.ueListed (s : State) (a : Nat) : Bool :=
  (List.range 16).any (fun i => s.bit (Reg.CFG_UE_LIST i) 31 && s.fld (Reg.CFG_UE_LIST i) 0 20 == a)

/-- Whether a frame of the sectors of a mask stands in the list (R229). -/
def State.ueSectors (s : State) (mask : Nat) : Bool :=
  (List.range 16).any (fun i => s.bit (Reg.CFG_UE_LIST i) 31 && mask.testBit (faSector (s.fld (Reg.CFG_UE_LIST i) 0 20)))

/-- A frame enters the list, where the list has room. -/
def State.ueEnter (s : State) (a : Nat) : State :=
  match (List.range 16).find? (fun i => !(s.bit (Reg.CFG_UE_LIST i) 31)) with
  | some i => s.wr (Reg.CFG_UE_LIST i) (BitVec.ofNat 32 (2 ^ 31 + a))
  | none => s

/-- The upset bits of a frame. -/
def State.frameFlips (s : State) (a : Nat) : BitVec 4384 := SMap.get s.cfg.flips 0 a

/-- The upset bits of a frame replaced. -/
def State.setFlips (s : State) (a : Nat) (v : BitVec 4384) : State :=
  { s with cfg := { s.cfg with flips := if v = 0 then SMap.erase s.cfg.flips a else SMap.set s.cfg.flips a v } }

/-- The data of a frame as found, for one group, becomes its content (R228: the check bits are re-encoded). -/
def State.keepGroup (s : State) (a g : Nat) : State :=
  let bits := s.frameFlips a &&& groupMask g
  let v := SMap.get s.cfg.frames 0 a ^^^ bits.setWidth 4096
  let s : State := { s with cfg := { s.cfg with frames := if v = 0 then SMap.erase s.cfg.frames a else SMap.set s.cfg.frames a v } }
  s.setFlips a (s.frameFlips a &&& ~~~(groupMask g))

/-- An essential upset faults its ARMED or RUNNING owner, whether or not its frame is in the list already (R228), and its recovery leaves it
STOPPED, whatever faulted it first (R229). -/
def State.essentialFault (s : State) (p : Nat) : State :=
  (s.updPart p (fun x => { x with recov := { x.recov with trap := true } })).raiseFault p

/-- One group of a frame (R228); `done` says whether the frame has its record of corrections. An essential upset in a partition that is
recovering already ends its recovery in TRAP (R362, R376). -/
def State.scrubGroup (s : State) (k f : Nat) (done : Bool) (g : Nat) : State × Bool :=
  let a := k * 2 ^ 15 + f
  let v := s.frameFlips a
  let owner := s.colPart (k % 16)
  let listed := s.ueListed a
  let corrected (bit : Nat) (check : Bool) : State × Bool :=
    let s := (s.setFlips a (v ^^^ BitVec.ofNat 4384 (2 ^ bit))).addReg Reg.CFG_SEU_CE_COUNT 1
    (if done then s else s.logRec 2 k 0x0503 sevCorrected owner (seuDetail k f g check listed owner), true)
  match groupFind v g with
  | .clean => (s, done)
  | .data i => corrected (i * 32 + g) false
  | .check j => corrected (4096 + j * 32 + g) true
  | .uncorrectable =>
    if (SMap.get s.cfg.essential 0xFFFFFFFF (k * 3840 + f)).getLsbD g then
      let s := s.addReg Reg.CFG_SEU_UE_E_COUNT 1
      let live : Bool := match owner with | some p => !(s.unlocked (some p)) | none => false
      let s := match owner with
        | some p =>
          if live then s.essentialFault p
          else if s.pstate p == psFrozen || s.pstate p == psRecovering then
            s.updPart p (fun x => { x with recov := { x.recov with trap := true } })
          else s
        | none => s
      if listed then (s, done)
      else
        ((s.ueEnter a).logRec 2 k 0x0504 (if live then sevPartition else sevContained) owner (seuDetail k f g false false owner), done)
    else
      let s := (s.keepGroup a g).addReg Reg.CFG_SEU_UE_NE_COUNT 1
      (s.logRec 2 k 0x0505 sevContained owner (seuDetail k f g false listed owner), done)

/-- The groups of a frame in order; while the list is full an unlisted frame makes one record (R228). -/
def State.scrubGroups (s : State) (k f : Nat) (logged done : Bool) : List Nat → State
  | [] => s
  | g :: r =>
    let v := s.frameFlips (k * 2 ^ 15 + f)
    let essential := (SMap.get s.cfg.essential 0xFFFFFFFF (k * 3840 + f)).getLsbD g && groupFind v g == .uncorrectable
    if essential && logged then (s.addReg Reg.CFG_SEU_UE_E_COUNT 1).scrubGroups k f logged done r
    else
      let x := s.scrubGroup k f done g
      x.1.scrubGroups k f (logged || essential) x.2 r

/-- Whether a sector rests in a rung that pauses the scrubber (R333). -/
def State.sectorPaused (s : State) (k : Nat) : Bool := s.rungFrom (s.colPart (k % 16)) 2

/-- Whether the scrubber reads a sector (R227, R333). -/
def State.scrubReads (s : State) (k : Nat) : Bool :=
  s.bit Reg.CFG_LOADED k && !(s.sectorPaused k) && !(s.bit (Reg.FAB_SECT_STATUS k) 6) &&
  (match s.cfg.load with | some l => !(l.permit.testBit k) | none => true)

/-- The place of the scrubber moves on to a sector's first frame, or to a frame; a pass ends after sector 31. -/
def State.scrubTo (s : State) (k f : Nat) : State :=
  let s := if k = 32 then s.addReg Reg.CFG_SCRUB_PASSES 1 else s
  s.wr Reg.CFG_SCRUB_POS (BitVec.ofNat 32 (k % 32 * 65536 + f))

/-- The place with the sectors that are not read skipped: at most one round. -/
def State.scrubSeek (s : State) : Nat → Option State
  | 0 => none
  | n + 1 =>
    let k := s.fld Reg.CFG_SCRUB_POS 16 5
    if s.scrubReads k then some s else (s.scrubTo (k + 1) 0).scrubSeek n

/-- CFG_SCRUB_FRAME (R227, R228): the next frame is read, with the bits that were upset since it was last written or read. -/
def execCfgScrubFrame (flips : BitVec 4384) (s : State) : Host.Outcome State Fault Refusal :=
  if s.bit Reg.CFG_SCRUB_CTRL 0 then
    match s.scrubSeek 33 with
    | none => .next s
    | some s =>
      let k := s.fld Reg.CFG_SCRUB_POS 16 5
      let f := s.fld Reg.CFG_SCRUB_POS 0 12
      let a := k * 2 ^ 15 + f
      let s := s.setFlips a (s.frameFlips a ^^^ flips)
      let s := if s.frameFlips a = 0 then s else s.scrubGroups k f false false (List.range 32)
      .next (if f + 1 < 3840 then s.scrubTo k (f + 1) else s.scrubTo (k + 1) 0)
  else .next s

end Sys2Proof.Machine
end

