-- ==== Sys2Proof/Machine/CrashDump.lean ====
section
/-!
DEFINITION. The crash dump (R115, R361 steps 2 and 3, R368, R369).
-/
namespace Sys2Proof.Machine

/-- The images of registers, 4 B each. -/
def State.images (s : State) (l : List Nat) : List Byte := l.flatMap (fun a => toBytes (s.rd a).toNat 4)

/-- A run of bytes brought to a length: zeros follow it. -/
def padTo (n : Nat) (l : List Byte) : List Byte := (l ++ List.replicate n 0).take n

/-- Registers at consecutive addresses. -/
def regRun (base n : Nat) : List Nat := (List.range n).map (fun i => base + 4 * i)

/-- Bits [63:0] of a header (R174). -/
def headerBits (p : Pkt) : Nat :=
  p.dst.toNat + 2 ^ 7 * p.dkind.toNat + 2 ^ 8 * p.src.toNat + 2 ^ 15 * p.skind.toNat + 2 ^ 16 * p.part.toNat + 2 ^ 20 * p.gen.toNat +
  2 ^ 28 * p.prio.toNat + 2 ^ 30 * p.type.toNat + 2 ^ 34 * p.bt.toNat + 2 ^ 36 * p.age.toNat + 2 ^ 52 * p.len.toNat +
  2 ^ 57 * p.ctx.toNat

/-- The credits that a router holds for a queue downstream: the room that its neighbour's queue has left (R176; log entry 21). -/
def State.heldCredits (s : State) (a port vc : Nat) : Nat :=
  if 1 ≤ port ∧ port ≤ 4 then
    let n := neighbour a port
    vcRoom vc - (SMap.get (s.router n.1).queues [] (n.2 * 5 + vc)).length
  else vcRoom vc

/-- The 16 bytes of a queue of a router in the dump (log entry 21). -/
def State.queueImage (s : State) (a port vc : Nat) : List Byte :=
  let q := SMap.get (s.router a).queues [] (port * 5 + vc)
  toBytes q.length 4 ++ toBytes (s.heldCredits a port vc) 4 ++
  toBytes (match q with | f :: _ => headerBits f.pkt | [] => 0) 8

/-- The sampled rows of a tile, read through the management path (R113, R115): the bytes, the poison map and the state. -/
def State.sampleRows (s : State) (t first : Nat) : List Byte × Nat × State :=
  (List.range 64).foldl (fun (r : List Byte × Nat × State) w =>
    let row := (first + w) % 8192
    let base := s.storeBase t / 8 + row * 128
    let bad := (s.upsetsAt t (2 ^ 40) base 128).filter Upset.poison
    let map := bad.foldl (fun m u => if u.kind = 2 then m ||| 2 ^ (w * 128 + (u.word - base))
      else m ||| (255 * 2 ^ (w * 128 + (u.word - base) / 8 * 8))) r.2.1
    let (v, _, s) := r.2.2.mgmtRead t row
    (r.1 ++ toBytes v.toNat 1024, map, s)) ([], 0, s)

/-- The section of a tile (R369). -/
def State.dumpSection (s : State) (t row : Nat) : List Byte × State :=
  let b := Reg.tileBase t
  let front :=
    padTo 256 (s.images ([Reg.TILE_ID t, Reg.TILE_STATUS t, Reg.TILE_FAULT t, Reg.SEQ_STATUS t, Reg.SEQ_HS t, Reg.SEQ_CLASH t,
      Reg.SEQ_CLASH_ENTRY t] ++ regRun (Reg.SEQ_BEAT_STATUS t) 9)) ++
    padTo 512 (s.images ([Reg.TC_STATUS t, Reg.TC_PC t, Reg.TC_FLAGS t, Reg.TC_EVENT t] ++ regRun (Reg.TC_G t 0) 56)) ++
    s.images (regRun (b + 0x3000) 256) ++
    padTo 32 (s.images (regRun (b + 0x3400) 7)) ++
    padTo 288 (s.images (regRun (b + 0x4000) 4 ++ regRun (b + 0x4100) 64)) ++
    padTo 64 (s.images [Reg.ARR_STATUS t 0, Reg.ARR_SPECIAL t 0, Reg.ARR_STATUS t 1, Reg.ARR_SPECIAL t 1, Reg.MVU_STATUS t,
      Reg.MVU_SPECIAL t, Reg.VEU_STATUS t, Reg.VEU_FLAGS t]) ++
    padTo 576 ((List.range 35).flatMap (fun k => s.queueImage t (k / 5) (k % 5))) ++
    padTo 64 (s.images (regRun (b + 0x9000) 7 ++ [Reg.ST_UE_ADDR t, Reg.ST_UE_STATUS t]))
  let (rows, map, s) := s.sampleRows t row
  (padTo 0x1000 (front ++ toBytes map 1024) ++ rows, s)

/-- The 4 KiB header of a dump (R369). -/
def State.dumpHeader (s : State) (p : Nat) (x : Part) : List Byte :=
  let r := x.recov
  padTo 4096 (
    ([0x44, 0x54, 0x43, 0x44] : List Byte) ++ toBytes 1 2 ++ toBytes p 1 ++ toBytes x.gen 1 ++ toBytes r.time 8 ++ toBytes r.ms 6 ++
    toBytes (s.step48 p) 6 ++ toBytes r.attempt 1 ++ toBytes r.variant 1 ++ toBytes (x.firstCol + 16 * x.lastCol) 1 ++
    toBytes x.tiles.length 1 ++ padTo 32 (match x.cause with | some c => c.bytes | none => []) ++
    toBytes (r.lost.foldl (fun m t => m ||| 2 ^ t) 0) 16)

/-- The device address of a dump slot (R368). -/
def State.slotAddr (s : State) (slot : Nat) : Nat := s.rd2 Reg.DUMP_BASE_LO Reg.DUMP_BASE_HI + slot * 2 ^ 24

/-- The size of a dump of n tiles in bytes (R369). -/
def dumpSize (n : Nat) : Nat := 4096 + n * 69632

/-- A partition's dump is written into its slot, which then holds a complete, unreleased dump: whatever reads it does so behind the writes,
which are of the same source (R279). -/
def State.writeDump (s : State) (p slot : Nat) (x : Part) : State :=
  let (bytes, s) := x.tiles.foldl (fun (r : List Byte × State) t =>
    let q := r.2.dumpSection t x.dumpRow
    (r.1 ++ q.1, q.2)) (s.dumpHeader p x, s)
  let s := s.ympWrite (s.slotAddr slot) bytes
  let s := ((s.setDumpFlag 0 slot true).setDumpFlag 4 slot true).setDumpFlag 8 slot false
  let s := s.setFld Reg.DUMP_STATUS 12 2 slot
  s.wr (Reg.DUMP_SLOT slot) (BitVec.ofNat 32 (p + dumpSize x.tiles.length / 1024 * 256))

/-- The DUMP notice (R305, R361 step 3; log entry 22). -/
def State.dumpNotice (s : State) (p slot : Nat) (x : Part) : State :=
  s.notifyAll [p + 1, 0] 3 (toBytes slot 1 ++ toBytes p 1 ++ toBytes (dumpSize x.tiles.length) 4)

end Sys2Proof.Machine
end

