-- ==== Sys2Proof/Machine/Rings.lean ====
section
/-!
DEFINITION. The rings of the mailboxes (R300 to R305): doorbells, the taking of requests, notices, and how a command of R308
begins.
-/
namespace Sys2Proof.Machine

/-- The partition of a record of a function (R371): a VF's, where it exists. -/
def State.fnPart (s : State) (fn : Nat) : Option Nat := if fn = 0 then none else s.existing (fn - 1)

/-- The running command of a function will not be completed (R304, R317). -/
def MbxFn.discarded (m : MbxFn) : Option Taken := m.running.map (fun r => { r with discard := true })

/-- Boot has reached B11 (R300). -/
def State.ready (s : State) : Bool := s.bit (Reg.MBX_STATUS 0) 0

/-- MBX_REQ_TAIL (R301, R304): a doorbell of rings that do not run, or of a function in D3hot (log entry 20), has no effect. -/
def execMbxReqTail (fn : Nat) (value : BitVec 16) (s : State) : Host.Outcome State Fault Refusal :=
  let m := s.fnMbx fn
  if fn < 17 ∧ m.enabled ∧ !(s.inD3 fn) then
    if 64 < (value.toNat + 65536 - m.taken) % 65536 then
      let s := s.setFnMbx fn { m with enabled := false, running := m.discarded }
      let s := s.setBit (Reg.MBX_STATUS fn) 2 true
      .next (s.logRec 5 fn 0x0801 sevContained (s.fnPart fn) (toBytes fn 1 ++ toBytes value.toNat 2))
    else .next (s.setFnMbx fn { m with tail := value.toNat })
  else .next s

/-- MBX_CPL_HEAD (R301). -/
def execMbxCplHead (fn : Nat) (value : BitVec 16) (s : State) : Host.Outcome State Fault Refusal :=
  let m := s.fnMbx fn
  if fn < 17 ∧ m.enabled ∧ !(s.inD3 fn) then .next (s.setFnMbx fn { m with cplHead := value.toNat }) else .next s

/-- MBX_NTC_HEAD (R301). -/
def execMbxNtcHead (fn : Nat) (value : BitVec 16) (s : State) : Host.Outcome State Fault Refusal :=
  let m := s.fnMbx fn
  if fn < 17 ∧ m.enabled ∧ !(s.inD3 fn) then .next (s.setFnMbx fn { m with ntcHead := value.toNat }) else .next s

/-- The rings of a function start from zero, or stop (R300). A command that runs belongs to the rings before. -/
def State.ringsRun (s : State) (fn : Nat) (on : Bool) : State :=
  let m := s.fnMbx fn
  if on then
    let s := s.setFnMbx fn { MbxFn.reset with running := m.discarded, lostLogAt := m.lostLogAt, enabled := true }
    let s := ((s.wr (Reg.MBX_COUNTS fn) 0).wr (Reg.MBX_NTC_COUNT fn) 0).wr (Reg.MBX_NTC_LOST fn) 0
    s.setBit (Reg.MBX_STATUS fn) 2 false
  else s.setFnMbx fn { m with enabled := false, running := m.discarded }

/-- MBX_ENABLE (R299, R300): `debug` is PF0's alone. A reserved bit is unpredictable (R16). -/
def execMbxEnable (fn : Nat) (value : Word) (s : State) : Host.Outcome State Fault Refusal :=
  if 17 ≤ fn then .next s
  else if value >>> 4 ≠ 0 then .fault (if fn = 0 then .unpredictableInDevice 16 else .unpredictableInPartition 16)
  else
    let v := if fn = 0 then value else value &&& 7
    let s := (s.wr (Reg.MBX_CTRL fn) v).ringsRun fn (v.bit 0)
    .next (if fn = 0 then s.mbxStatus 3 (v.bit 3) else s)

/-- Commands that run, on VFs and in all (R303). -/
def State.runningCount (s : State) (vfOnly : Bool) : Nat :=
  ((List.range 17).filter (fun f => (s.fnMbx f).running.isSome && (!vfOnly || f != 0))).length

/-- Whether the command engine may take a request of a function now (R301, R303): a request is posted, the completion ring has
room, the function's last command has completed, one of the four commands stays PF0's, and the function is not in D3hot. -/
def State.mayTake (s : State) (fn : Nat) : Bool :=
  let m := s.fnMbx fn
  (s.boot.fwUp || s.boot.dead) && !s.fwLost && m.enabled && !(s.inD3 fn) && m.running.isNone && m.tail != m.taken &&
  decide ((m.written + 65536 - m.cplHead) % 65536 < 64) &&
  decide (if fn = 0 then s.runningCount false < 4 else s.runningCount true < 3)

/-- The function that is served next (R303): the first after the last served in rounds that PF0 opens. -/
def State.nextServed (s : State) : Option Nat :=
  ((List.range 17).map (fun i => (s.lastServed + 1 + i) % 17)).find? (fun f => s.mayTake f)

/-- The opcodes of R308. -/
def mbxOpcodes : List Nat :=
  [0x01, 0x02, 0x10, 0x11, 0x12, 0x13, 0x20, 0x21, 0x22, 0x23, 0x30, 0x31, 0x32, 0x40, 0x41, 0x42, 0x43, 0x50, 0x51, 0x60, 0x61,
   0x70, 0x71, 0x72, 0x73, 0x80, 0x81, 0xF0, 0xF1]

/-- MBX_REQUEST_TAKE (R303, R308): the request is the next of the function that is served; an opcode that R308 does not list
completes at once. -/
def execMbxRequestTake (fn : Nat) (opcode tag : BitVec 16) (s : State) : Host.Outcome State Fault Refusal :=
  if s.nextServed = some fn then
    let m := s.fnMbx fn
    let s := s.setFnMbx fn { m with taken := (m.taken + 1) % 65536, running := some ⟨opcode, tag, none, .fresh, false⟩ }
    let s := ({ s with lastServed := fn } : State).showCounts fn
    if mbxOpcodes.contains opcode.toNat then .next s
    else .next (s.complete fn (if !s.ready then stBusy else if fn ≠ 0 ∧ (s.fnPart fn).isNone then stDenied else stUnsupported) [])
  else .next s

/-- The bytes of a notice (R305). -/
def noticeBytes (n : Notice) (c : Nat) : List Byte :=
  toBytes n.kind 1 ++ toBytes (ringPhase c) 1 ++ toBytes n.ms 6 ++ (n.body ++ List.replicate 32 0).take 32 ++ List.replicate 24 0

/-- A notice that found its ring full (R305): counted, and logged once in 1 ms. -/
def State.noticeLost (s : State) (fn : Nat) : State :=
  let s := s.addReg (Reg.MBX_NTC_LOST fn) 1
  let m := s.fnMbx fn
  let due : Bool := match m.lostLogAt with | some t => decide (t + 1000000 ≤ s.now) | none => true
  if due then
    let s := s.setFnMbx fn { m with lostLogAt := some s.now }
    (s.logRec 5 fn 0x0801 sevContained (s.fnPart fn)
      (toBytes fn 1 ++ [Config.openDetail 0x0801 s.free 1, Config.openDetail 0x0801 s.free 2] ++ toBytes 1 1)).stepFree
  else s

/-- NOTICE_WRITE (R301, R305): firmware writes the oldest notice that waits; it is dropped where the function's rings do not run
(R317), and goes behind the others while its function is in D3hot, where it writes nothing (R295; log entry 20). -/
def execNoticeWrite (s : State) : Host.Outcome State Fault Refusal :=
  match s.notices with
  | [] => .next s
  | n :: rest =>
    if !s.boot.fwUp || s.fwLost then .next s
    else if s.inD3 n.fn then .next { s with notices := rest ++ [n] }
    else
    let s : State := { s with notices := rest }
    let m := s.fnMbx n.fn
    if !m.enabled then .next s
    else if (m.notices + 65536 - m.ntcHead) % 65536 < 64 then
      let base := s.rd2 (Reg.MBX_NTC_BASE_LO n.fn) (Reg.MBX_NTC_BASE_HI n.fn)
      let s := s.emit (.hostWrite n.fn (base + m.notices % 64 * 64) (noticeBytes n m.notices))
      let c := (m.notices + 1) % 65536
      let s := (s.setFnMbx n.fn { m with notices := c }).wr (Reg.MBX_NTC_COUNT n.fn) (BitVec.ofNat 32 c)
      .next (if s.bit (Reg.MBX_CTRL n.fn) 2 then s.sendVector n.fn 1 else s)
    else .next (s.noticeLost n.fn)

/-! How a command of R308 begins (R296, R302, R309). -/

/-- The issuer column of R308. -/
inductive Issuer where
  /-- Any function whose partition exists, and PF0. -/
  | any
  /-- Any function. -/
  | open_
  /-- PF0 alone. -/
  | owner
  /-- A VF on its own partition, or PF0 on the partition that it names. -/
  | own
  /-- A VF on its own partition, or PF0 without a partition. -/
  | ownOrAll
  deriving DecidableEq, Repr

/-- Whether a request passes the issuer column and the target check of R309. -/
def State.mayIssue (s : State) (q : Req) (w : Issuer) : Bool :=
  match w with
  | .open_ => true
  | .owner => q.fn == 0
  | .own => (s.part q.partition).isSome
  | .any | .ownOrAll => q.fn == 0 || (s.part q.partition).isSome

/-- The request of a function begins: it is the one that the engine took. -/
def State.begins (s : State) (q : Req) (opcode : Nat) : Option State :=
  let m := s.fnMbx q.fn
  match m.running with
  | some r =>
    if r.opcode.toNat = opcode ∧ r.tag = q.tag ∧ r.req = none ∧ r.wait = .fresh ∧ !s.fwLost then
      some (s.setFnMbx q.fn { m with running := some { r with req := some q } })
    else none
  | none => none

/-- A command of R308 (R296, R302, R309, R318; the reserved bits of a request's flags are not looked at, log entry 131): BUSY before B11, the issuer, the ownership of what the arguments name, the self-fence,
and then what the command does. -/
def State.runCmd (s : State) (q : Req) (opcode : Nat) (who : Issuer) (named fenceOk : Bool)
    (act : State → Host.Outcome State Fault Refusal) : Host.Outcome State Fault Refusal :=
  match s.begins q opcode with
  | none => .next s
  | some s =>
    if !s.ready then .next (s.complete q.fn stBusy [])
    else if !(s.mayIssue q who && named) then .next (s.complete q.fn stDenied [])
    else if s.bit Reg.TPL_FENCE 0 && !fenceOk then .next (s.complete q.fn stBadState [])
    else act s

/-- The command completes. -/
def State.reply (s : State) (q : Req) (status : Nat) (results : List Byte) : Host.Outcome State Fault Refusal :=
  .next (s.complete q.fn status results)

end Sys2Proof.Machine
end

