-- ==== Sys2Proof/Machine/Queries.lean ====
section
/-!
DEFINITION. The mailbox commands that report (R308, R330, R357, R394, R395), the host DMA by which they deliver (R301, R310), and
ROUTE_NOTICE (R373).
-/
namespace Sys2Proof.Machine

/-- HELLO (R2, R308): answered at any time. -/
def execHello (r : Req) (_version : BitVec 16) (s : State) : Host.Outcome State Fault Refusal :=
  match s.begins r 1 with
  | none => .next s
  | some s => s.reply r stOk
      (toBytes 0x0201 2 ++ toBytes 0x00030002 4 ++ toBytes r.fn 1 ++ toBytes (if r.fn = 0 then 0xFF else r.fn - 1) 1 ++
       toBytes s.ready.toNat 1)

/-- A mask of the numbers below `n` that pass a test. -/
def maskOf (n : Nat) (f : Nat → Bool) : Nat := (List.range n).foldl (fun m i => if f i then m + 2 ^ i else m) 0

/-- The results of GET_INFO (R308). -/
def State.infoBytes (s : State) : List Byte :=
  toBytes Config.binH.toNat 1 ++ toBytes Config.rangeI.toNat 1 ++ toBytes (s.fld Reg.CFG_IDCODE 28 4) 1 ++
  toBytes (maskOf 16 (fun c => s.colOk c)) 2 ++ toBytes (maskOf 16 (fun c => s.fld (Reg.TNOC_DETOUR c) 4 2 == 1)) 2 ++
  toBytes (maskOf 8 (fun ch => s.bit (Reg.DDR_CTRL ch) 0)) 1 ++
  (List.range 8).flatMap (fun ch => toBytes (s.fld (Reg.DDR_ORG ch) 16 7) 1) ++
  toBytes (maskOf 96 (fun n => s.laneState n == 4 || s.laneState n == 5)) 12 ++
  toBytes (maskOf 16 (fun p => (s.part p).isSome)) 2 ++ toBytes (s.fld Reg.TPL_EPOCH 0 16) 2 ++
  toBytes (s.fld Reg.DDR_MAP_CTRL 0 1) 1 ++ toBytes (s.fld Reg.PWR_LIMIT 0 8) 2

/-- GET_INFO (R308). -/
def execGetInfo (r : Req) (s : State) : Host.Outcome State Fault Refusal :=
  s.runCmd r 2 .open_ true true (fun s => s.reply r stOk s.infoBytes)

/-- The results of PART_QUERY (R308). -/
def State.queryBytes (s : State) (p : Nat) : List Byte :=
  let x := s.part p
  let status := Reg.PART_BEAT_STATUS p
  toBytes (s.fld status 0 3) 1 ++ toBytes (s.fld status 4 2) 1 ++ toBytes (s.fld status 8 8) 1 ++
  toBytes (match x with | some x => x.gen | none => 0) 1 ++ toBytes (s.step48 p) 6 ++ toBytes s.msCount 6 ++
  toBytes (s.rd (Reg.PART_COMMIT_COUNT p)).toNat 4 ++ toBytes (s.rd (Reg.PART_SLIP_COUNT p)).toNat 4 ++
  toBytes (match x with | some x => x.firstCol + 16 * x.lastCol | none => 0) 1 ++
  toBytes ((match x with | some x => (s.ueSectors x.sectors).toNat | none => 0) +
    2 * ((s.partTiles p).any (fun t => s.rd (Reg.SEM_RESID_LO t) != 0 || s.rd (Reg.SEM_RESID_HI t) != 0)).toNat) 1

/-- PART_QUERY (R296, R308): a VF without a partition is answered too. -/
def execPartQuery (r : Req) (s : State) : Host.Outcome State Fault Refusal :=
  s.runCmd r 0x13 (if r.fn = 0 then .own else .open_) true true (fun s => s.reply r stOk (s.queryBytes r.partition))

/-- TIME_READ (R308, R330). -/
def execTimeRead (r : Req) (s : State) : Host.Outcome State Fault Refusal :=
  s.runCmd r 0x61 .any true true (fun s =>
    let st := s.fld Reg.TIME_STATUS 0 3
    s.reply r stOk
      (toBytes s.now 8 ++ toBytes (s.time % 65536) 2 ++ toBytes s.msCount 6 ++
       toBytes (s.rd2 Reg.TIME_PTM_HOST_LO Reg.TIME_PTM_HOST_HI) 8 ++
       toBytes (s.rd2 Reg.TIME_PTM_ROUTE_LO Reg.TIME_PTM_ROUTE_HI) 8 ++ toBytes s.timeUnit.ptmFrac 2 ++
       toBytes ((st == 2).toNat + 2 * (st == 3).toNat + 4 * (!(s.bit Reg.TIME_CTRL 0)).toNat +
         8 * (s.bit Reg.TIME_PTM_CTRL 31).toNat) 1))

/-! Link objects: 0 a lane, 1 a port, 2 a channel (R308). -/

/-- The partition that an object belongs to: a port to that of its lanes, where they share it (R234, R312). -/
def State.objOwner (s : State) (object index : Nat) : Option Nat :=
  if object = 0 then (if index < 96 then s.laneOwner index else none)
  else if object = 1 then
    (if index < 96 && (s.portLanes index).all (fun n => s.laneOwner n == s.laneOwner index) then s.laneOwner index else none)
  else s.chanHolder index

/-- The register images of LINK_STATUS. -/
def State.linkImages (s : State) (object i : Nat) : List Byte :=
  let show_ (l : List Nat) : List Byte := l.flatMap (fun a => toBytes (s.rd a).toNat 4)
  if object = 0 then show_ [Reg.TPL_LANE_STATUS i, Reg.TPL_LANE_TAPS i, Reg.TPL_LANE_FEC_CORR i, Reg.TPL_LANE_FEC_UNC i]
  else if object = 1 then
    show_ [Reg.TPL_PORT_STATUS i, Reg.TPL_PORT_REPLAYS i, Reg.TPL_PORT_STALE i, Reg.TPL_PORT_DROPS i, Reg.TPL_PORT_ACCEPT i]
  else show_ [Reg.CHN_STATUS i, Reg.CHN_ROWS i]

/-- LINK_STATUS (R308, R309): an object number beyond 2 is an incorrect argument (R310). -/
def execLinkStatus (r : Req) (object index : BitVec 8) (s : State) : Host.Outcome State Fault Refusal :=
  let named := (object == 2 || decide (index.toNat < 96)) &&
    (r.fn == 0 || s.objOwner object.toNat index.toNat == some (r.fn - 1))
  s.runCmd r 0x41 .ownOrAll named true (fun s =>
    if 2 < object.toNat then .fault (if r.fn = 0 then .unpredictableInDevice 310 else .unpredictableInPartition 310)
    else s.reply r stOk (s.linkImages object.toNat index.toNat))

/-- ROUTE_NOTICE (R373): a ROUTE notice to the functions of the partitions that own the named channels, and nothing else. -/
def execRouteNotice (r : Req) (_kind : BitVec 8) (firstChan chanCount _endpoint : BitVec 16) (_ms : BitVec 48) (opq : BitVec 256)
    (s : State) : Host.Outcome State Fault Refusal :=
  s.runCmd r 0x43 .owner true false (fun s =>
    let parts := (List.range 16).filter (fun p =>
      (List.range 256).any (fun c =>
        decide (firstChan.toNat ≤ c ∧ c < firstChan.toNat + chanCount.toNat) && s.chanHolder c == some p))
    let s := if parts.isEmpty then s else s.notifyAll (parts.map (fun p => p + 1) ++ [0]) 2 (toBytes opq.toNat 32)
    s.reply r stOk (toBytes (maskOf 16 (fun p => parts.contains p)) 2))

/-- POWER_LIMIT (R308): values above 250 store 250. -/
def execPowerLimit (r : Req) (watts : BitVec 16) (s : State) : Host.Outcome State Fault Refusal :=
  s.runCmd r 0x51 .owner true false (fun s =>
    let w := min 250 watts.toNat
    (s.setFld Reg.PWR_LIMIT 0 8 w).reply r stOk (toBytes w 2))

/-- QOS_SET (R280): the target is held between 100 ns and 10,000 ns; a port beyond 5 is an incorrect argument (R310). -/
def execQosSet (r : Req) (mask port : BitVec 8) (target : BitVec 16) (s : State) : Host.Outcome State Fault Refusal :=
  s.runCmd r 0x81 .owner true false (fun s =>
    if 5 < port.toNat then .fault (.unpredictableInDevice 310)
    else
      let t := max 100 (min 10000 target.toNat)
      let s := (List.range 8).foldl (fun s ch =>
        if mask.getLsbD ch then s.setFld (Reg.DDR_PORT_QOS ch port.toNat) 0 14 t else s) s
      s.reply r stOk [])

/-! Results in a host buffer (R301). -/

/-- The results leave for a host buffer, and the command waits for the end of its DMA; without data it completes at once. -/
def State.toHost (s : State) (q : Req) (addr : Nat) (data : List Byte) (w : CmdWait) (results : List Byte) :
    Host.Outcome State Fault Refusal :=
  if data.isEmpty then s.reply q stOk results
  else .next ((s.emit (.hostWrite q.fn addr data)).waits q w)

/-- How far a sequence number lies ahead of a start index (R394). -/
def seqAhead (start seq : Nat) : Nat := (seq + 65536 - start) % 65536

/-- A record enters a list that ascends from a start index. -/
def insertRec (start : Nat) (x : LogRec) : List LogRec → List LogRec
  | [] => [x]
  | y :: r => if seqAhead start x.seq ≤ seqAhead start y.seq then x :: y :: r else y :: insertRec start x r

/-- The kept records from a sequence number on, in ascending order (R394). -/
def logFrom (log : List LogRec) (start : Nat) : List LogRec :=
  (log.filter (fun r => decide (seqAhead start r.seq < 32768))).foldr (insertRec start) []

/-- The records that LOG_READ writes and the index after the last one examined (R394). -/
def logTake (pass : LogRec → Bool) : Nat → Nat → List LogRec → List LogRec × Nat
  | _, next, [] => ([], next)
  | 0, next, _ => ([], next)
  | n + 1, _, r :: rest =>
    let after := (r.seq + 1) % 65536
    if pass r then (let q := logTake pass n after rest; (r :: q.1, q.2)) else logTake pass (n + 1) after rest

/-- LOG_READ (R372, R394): a VF reads the records of its own partition. -/
def execLogRead (r : Req) (addr : BitVec 64) (max start : BitVec 16) (minSev : BitVec 8) (s : State) :
    Host.Outcome State Fault Refusal :=
  s.runCmd r 0x70 .ownOrAll true true (fun s =>
    let pass (x : LogRec) : Bool := (r.fn == 0 || x.part == some (r.fn - 1)) && decide (minSev.toNat ≤ x.sev)
    let (l, next) := logTake pass max.toNat start.toNat (logFrom s.log start.toNat)
    let results := toBytes l.length 2 ++ toBytes next 2 ++ toBytes (s.rd Reg.LOG_CORR_COUNTED).toNat 4
    s.toHost r addr.toNat (l.flatMap (fun x => x.bytes)) (.dma results) results)

/-- The partition and the size in bytes of the dump in a slot (`DUMP_SLOTs`). -/
def State.dumpPart (s : State) (k : Nat) : Nat := s.fld (Reg.DUMP_SLOT k) 0 4
def State.dumpBytes (s : State) (k : Nat) : Nat := s.fld (Reg.DUMP_SLOT k) 8 24 * 1024

/-- The slot that a DUMP_READ means: the named one, or the latest of the issuer (R308, R395). -/
def State.dumpMeant (s : State) (fn slot : Nat) : Option Nat :=
  if slot < 4 then some slot
  else if slot = 0xFF then
    s.dumpOrder.reverse.find? (fun k => (s.dumpFlag 0 k || s.dumpFlag 8 k) && (fn == 0 || s.dumpPart k == fn - 1))
  else none

/-- A dump is released (R368). -/
def State.dumpRelease (s : State) (k : Nat) (release : Bool) : State := if release then s.setDumpFlag 4 k false else s

/-- DUMP_READ (R274, R368, R395): firmware reads the bytes through the system port, and they go on to the host buffer. -/
def execDumpRead (r : Req) (addr : BitVec 64) (slot : BitVec 8) (release : Bool) (offset len : BitVec 32) (s : State) :
    Host.Outcome State Fault Refusal :=
  let named := r.fn == 0 ||
    !(decide (slot.toNat < 4) && (s.dumpFlag 0 slot.toNat || s.dumpFlag 8 slot.toNat) && s.dumpPart slot.toNat != r.fn - 1)
  s.runCmd r 0x71 .ownOrAll named true (fun s =>
    match s.dumpMeant r.fn slot.toNat with
    | none => s.reply r stNoResource []
    | some k =>
      if s.dumpFlag 8 k then s.reply r stBadState []
      else if !(s.dumpFlag 0 k) then s.reply r stNoResource []
      else
        let size := s.dumpBytes k
        let n := min len.toNat (size - offset.toNat)
        let results := toBytes n 4 ++ toBytes size 4 ++ toBytes (s.dumpPart k) 1
        if n = 0 then (s.dumpRelease k release).reply r stOk results
        else
          .next ((s.waits r (.dump k release results)).ympRead r.fn (s.slotAddr k + offset.toNat) n addr.toNat))

/-- BOOT_RECORD_READ (R357). -/
def execBootRecordRead (r : Req) (addr : BitVec 64) (len : BitVec 32) (s : State) : Host.Outcome State Fault Refusal :=
  s.runCmd r 0x72 .owner true false (fun s =>
    if s.testMode then s.reply r stUnsupported [] else
    let bytes := (s.bootEntries.flatMap (fun e => e.bytes)).take len.toNat
    let results := toBytes bytes.length 4
    s.toHost r addr.toNat bytes (.dma results) results)

/-- BOOT_RECORD_CLEAR (R357). -/
def execBootRecordClear (r : Req) (s : State) : Host.Outcome State Fault Refusal :=
  s.runCmd r 0x73 .owner true false (fun s =>
    if s.testMode then s.reply r stUnsupported [] else (s.setFall FallSt.none).reply r stOk [])

/-! The end of a host DMA (R310). -/

/-- A host DMA ended with an error or with poisoned data: the record, and the command fails. -/
def State.dmaFails (s : State) (fn : Nat) : State :=
  ((s.logRec 5 fn 0x0803 sevContained (s.fnPart fn) (s.openDetail 0x0803)).stepFree).complete fn stFaulted []

/-- A fabric load whose stream the host did not deliver ends: its sectors are cleared, without a record of the controller (R310). -/
def State.loadCut (s : State) (p : Nat) : State :=
  match s.cfg.load with
  | some l =>
    if l.src = .load p then (((s.clearSectors l.permit).setLoad none).wr Reg.CFG_STATUS 0).cfgErrPin true else s
  | none => s

/-- The spines that a FABRIC_READBACK gated run again (R211). -/
def State.readbackEnds (s : State) (fn : Nat) : State :=
  match (s.fnMbx fn).running with
  | some ⟨op, _, some q, _, _⟩ =>
    if op.toNat = 0x23 then
      (match s.part q.partition with
       | some x => s.gateSpines x false
       | none => s)
    else s
  | _ => s

/-- The opcodes of commands that read or write a host buffer (R308). -/
def dmaOpcodes : List Nat := [0x20, 0x21, 0x22, 0x23, 0x70, 0x71, 0x72, 0xF0]

/-- HOST_DMA_COMPLETION (R223, R301, R310): the stream of a FABRIC_LOAD that the host has delivered whole must have ended. -/
def execHostDmaCompletion (fn : Nat) (ok : Bool) (s : State) : Host.Outcome State Fault Refusal :=
  match (s.fnMbx fn).running with
  | none => .next s
  | some r =>
    if s.fwLost then .next s
    else match r.wait with
    | .dma results => .next (if ok then (s.readbackEnds fn).complete fn stOk results else (s.readbackEnds fn).dmaFails fn)
    | .dump k release results =>
      if ok && s.ympReads fn then .next s
      else if ok then .next ((s.dumpRelease k release).complete fn stOk results)
      else .next (({ s with hostReads := s.hostReads.filter (fun h => !(h.fn == fn && h.dma.isSome)) } : State).dmaFails fn)
    | .load =>
      let p := match r.req with | some q => q.partition | none => 0
      if ok then
        (match s.cfg.load with
         | some l => .next (if l.src = .load p then s.loadFail l 9 else s)
         | none => .next s)
      else .next (((s.loadCut p).updPart p (fun x => { x with releasing := false })).dmaFails fn)
    | .fresh => .next (if !ok && dmaOpcodes.contains r.opcode.toNat then s.dmaFails fn else s)
    | _ => .next s

end Sys2Proof.Machine
end

