-- ==== Sys2Proof/Machine/Loads.lean ====
section
/-!
DEFINITION. The mailbox commands that load (R209 to R211, R215, R225, R310, R311).
-/
/-- An incorrect argument: unpredictable within the partition, or within the device for PF0 (R310). -/
def Sys2Proof.Req.wrong (q : Sys2Proof.Req) : Sys2Proof.Machine.Fault :=
  if q.fn = 0 then .unpredictableInDevice 310 else .unpredictableInPartition 310

namespace Sys2Proof.Machine

/-- Whether a partition is STOPPED (R309). -/
def State.isStopped (s : State) (p : Nat) : Bool := s.pstate p == psStopped

/-- Whether a logical tile belongs to a partition. -/
def State.ownsTile (s : State) (p t : Nat) : Bool := decide (t < 128) && s.tilePart t == some p

/-- The bytes that a record takes in the host buffer (R311). -/
def recSize (r : LoadRec) : Nat := 16 + (r.data.length + 15) / 16 * 16

/-- The results of LOAD_TILE_PROGRAM. -/
def loadReply (taken offset : Nat) : List Byte := toBytes taken 4 ++ toBytes offset 4

/-- Records are written one after another; the first whose check fails ends the command (R311). A DMA that failed ends it after
the records that had come (R310). -/
def State.loadRecords (s : State) (q : Req) (p taken offset : Nat) (dma : Bool) : List LoadRec → Host.Outcome State Fault Refusal
  | [] =>
    if dma then s.reply q stOk (loadReply taken 0)
    else ((s.logRec 5 q.fn 0x0803 sevContained (s.fnPart q.fn) (s.openDetail 0x0803)).stepFree).reply q stFaulted (loadReply taken offset)
  | r :: rest =>
    if crc32 r.data ≠ r.crc.toNat then s.reply q stFaulted (loadReply taken offset)
    else if !(s.recGood p r) then .fault q.wrong
    else (s.loadRecord p r).loadRecords q p (taken + 1) (offset + recSize r) dma rest

/-- LOAD_TILE_PROGRAM (R309 to R311). -/
def execLoadTileProgram (r : Req) (records : List LoadRec) (dma : Bool) (s : State) : Host.Outcome State Fault Refusal :=
  let p := r.partition
  let named := records.all (fun x => x.type.toNat == 6 || s.ownsTile p x.tile.toNat)
  s.runCmd r 0x20 .own named false (fun s =>
    if !(s.isStopped p) then s.reply r stBadState [] else s.loadRecords r p 0 0 dma records)

/-- LOAD_WEIGHTS (R309 to R311, R115): rows beyond the store are an incorrect argument. -/
def execLoadWeights (r : Req) (tile : Nat) (firstRow : BitVec 13) (rows : List Row) (dma : Bool) (s : State) :
    Host.Outcome State Fault Refusal :=
  let p := r.partition
  s.runCmd r 0x21 .own (s.ownsTile p tile) false (fun s =>
    if !(s.isStopped p) then s.reply r stBadState []
    else if 8192 < firstRow.toNat + rows.length then .fault r.wrong
    else
      let s := rows.zipIdx.foldl (fun s x => s.pokeRow tile (firstRow.toNat + x.2) x.1) s
      if dma then s.reply r stOk [] else .next (s.dmaFails r.fn))

/-- Whether the configuration controller is taken: a load is under way, or another function's is about to begin (R225). -/
def State.loaderBusy (s : State) (fn : Nat) : Bool :=
  s.cfg.load.isSome || s.mbx.any (fun m => m.1 != fn && (match m.2.running with
    | some ⟨_, _, some q, .load, _⟩ => (match s.part q.partition with | some x => !x.releasing | none => false)
    | _ => false))

/-- FABRIC_LOAD (R209, R210, R225, R231): the checks, the reverse release and the permit mask; the stream follows. -/
def execFabricLoad (r : Req) (stall : Bool) (s : State) : Host.Outcome State Fault Refusal :=
  let p := r.partition
  s.runCmd r 0x22 .own true false (fun s =>
    match s.part p with
    | none => s.reply r stDenied []
    | some x =>
      if !(s.isStopped p) then s.reply r stBadState []
      else if s.loaderBusy r.fn then s.reply r stNoResource []
      else .next (((s.reverseRelease p stall).wr Reg.CFG_PERMIT (BitVec.ofNat 32 x.sectors)).waits r .load))

/-- A frame as a readback returns it (R231): the bits as they are found, with the one that the code of a group names corrected; a group that
is uncorrectable is marked: the frame, and the marks by group. -/
def State.readFrame (s : State) (a : Nat) : BitVec 4096 × BitVec 32 :=
  let v := s.frameFlips a
  (List.range 32).foldl (fun r g => match groupFind v g with
    | .data i => (r.1 ^^^ BitVec.ofNat 4096 (2 ^ (i * 32 + g)), r.2)
    | .uncorrectable => (r.1, r.2 ||| BitVec.ofNat 32 (2 ^ g))
    | _ => r) (SMap.get s.cfg.frames 0 a ^^^ v.setWidth 4096, 0)

/-- A configuration frame with the 32 flip-flops of the cluster of its number in the bits that capture them (R211): where they stand in the
frame is open (log entry 98). -/
def captureFrame (x : SectSt) (f : Nat) (v : BitVec 4096) : BitVec 4096 :=
  if fabClusters ≤ f then v
  else (List.range 32).foldl (fun v j =>
    let b : BitVec 4096 := BitVec.ofNat 4096 (2 ^ ((Config.ffPlace f + j) % 4096))
    if (SMap.get x.ff 0 f).getLsbD j then v ||| b else v &&& ~~~b) v

/-- The frames that a readback of a sector takes, in order (R211): the configuration frames, then on request the block RAM frames. -/
def readFrames (k : Nat) (bram : Bool) : List Nat :=
  ((List.range 3840) ++ (if bram then (List.range 2592).map (fun f => 2 ^ 13 + f) else [])).map (fun f => k * 2 ^ 15 + f)

/-- A frame as it is captured and read (R211, R231). DESIGN CHOICE (log entry 98): 512 B with the 4 B of its marks behind it. -/
def State.readCaptured (s : State) (a : Nat) : List Byte :=
  if faType a = 0 then
    let r := s.readFrame a
    toBytes (captureFrame (s.sect (faSector a)) (faIndex a) r.1).toNat 512 ++ toBytes r.2.toNat 4
  else toBytes (SMap.get s.cfg.frames 0 a).toNat 512 ++ toBytes 0 4

/-- Frames read live: each is captured at its own moment, and the design runs on in between (R211). -/
def State.readLive (s : State) (p : Nat) (l : List Nat) : List Byte × State :=
  l.foldl (fun (z : List Byte × State) a =>
    let s := z.2.fabRun p
    (z.1 ++ s.readCaptured a, s)) ([], s)

/-- FABRIC_READBACK (R211): the design has run until now; the spines stay gated until the captured state is in the host buffer; a live
capture gates nothing and is reported as inconsistent. -/
def execFabricReadback (r : Req) (addr : BitVec 64) (len : BitVec 32) (bram live : Bool) (s : State) :
    Host.Outcome State Fault Refusal :=
  let p := r.partition
  s.runCmd r 0x23 .own true false (fun s =>
    match s.part p with
    | none => s.reply r stDenied []
    | some x =>
      if !(s.isStopped p || (live && s.pstate p == psRunning)) then s.reply r stBadState []
      else
        let frames := ((List.range 32).filter (fun k => x.sectors.testBit k)).flatMap (fun k => readFrames k bram)
        let s := s.fabRun p
        let (all, s) := if live then s.readLive p frames else (frames.flatMap s.readCaptured, s)
        let bytes := all.take len.toNat
        let results := toBytes bytes.length 4 ++ toBytes live.toNat 1
        let s := if live || bytes.isEmpty then s else s.gateSpines x true
        s.toHost r addr.toNat bytes (.dma results) results)

/-- A piece of an image takes its place among those that have come; bytes that no piece has brought are open. -/
def State.placePiece (s : State) (image : List Byte) (offset : Nat) (piece : List Byte) : List Byte :=
  let gap := (List.range (offset - image.length)).map (fun i => Config.openDetail 0xF006 s.free i)
  (image ++ gap).take offset ++ piece ++ image.drop (offset + piece.length)

/-- FW_UPDATE (R215, R318, R357): the last piece ends the image, which is checked and replaces the slot's; the flags of the slot are
cleared. Slots beyond the two primary ones are none that it writes, nor is one without a valid
entry in the directory (R214; log entry 122). -/
def execFwUpdate (r : Req) (offset : BitVec 32) (slotKind : BitVec 8) (last : Bool) (image : List Byte) (s : State) :
    Host.Outcome State Fault Refusal :=
  let k := slotKind.toNat
  s.runCmd r 0xF0 .owner true false (fun s =>
    if s.testMode ∨ (k ≠ 0 ∧ k ≠ 2) ∨ !(s.hasSlot k) then s.reply r stUnsupported []
    else
      let before := if s.upload.1 = k then s.upload.2 else []
      let whole := s.placePiece before offset.toNat image
      let s := if offset.toNat ≤ before.length then s else s.stepFree
      if !last then ({ s with upload := (k, whole) } : State).reply r stOk []
      else
        let s : State := { s with upload := (k, []) }
        match imageReason s.fuses (s.rd Reg.CFG_IDCODE) (srcKinds (.slot slotKind)) whole with
        | some reason => s.reply r stFaulted (toBytes reason 1)
        | none =>
          let s : State := { s with flash := SMap.set s.flash k whole }
          let f := s.boot.fall
          let s := s.setFall (if k = 0 then f.setFlag 0 false else (f.setFlag 1 false).setFlag 2 false)
          s.reply r stOk [])

end Sys2Proof.Machine
end

