-- ==== Sys2Proof/Machine/Recovery.lean ====
section
/-!
DEFINITION. Recovery of a partition (R361 to R366), the hang detectors (R360) and the search for the context that hung an engine
(R367).
-/
namespace Sys2Proof.Machine

/-! The search for a hung engine's context (R367). Engines are named by unit ID: class 4 a DRAM channel, class 9 an edge port,
class 3 a link port (R371). -/

/-- The contexts that the write and read windows of a variant of a tile name (R118, R127, R131). -/
def State.variantCtxs (s : State) (t v : Nat) : Nat :=
  let r := s.rd (Reg.SEQ_VAR t v)
  (List.range (r.field 16 12 + 1)).foldl (fun m i =>
    let e := (SMap.get (s.tile t).imem 0 ((r.field 0 12 + i) % 4096)).toNat
    if e / 2 ^ 124 = 4 ∧ e / 2 ^ 116 % 256 = 1 then m ||| (e / 2 ^ 78 % 256) else m) 0

/-- Whether a context of a tile has its source or destination on an engine. -/
def State.ctxOnEngine (s : State) (t c unit : Nat) : Bool :=
  let kind := s.ctxKind t c
  let cls := unit / 4096
  let idx := unit % 4096
  let src := s.rd (Reg.SE_CTX_SRC_LO t c)
  s.bit (Reg.SE_CTX_CTRL t c) 0 &&
  (if cls = 4 then
     kind == 0 && (List.range (s.fld (Reg.SE_CTX_WALK t c) 0 13 + 1)).any (fun n => (s.dramLoc (s.walkAddr t c n)).1 == idx)
   else if cls = 9 then (kind == 2 && src.field 0 7 == idx) || (kind == 3 && s.chanEdge (src.field 0 8) == idx)
   else if cls = 3 then kind == 3 && s.chanPort (src.field 0 8) == idx
   else false)

/-- Whether a variant of a partition holds a source on an engine. -/
def State.onEngine (s : State) (p v unit : Nat) : Bool :=
  (s.partTiles p).any (fun t =>
    let m := s.variantCtxs t v
    (List.range 8).any (fun c => m.testBit c && s.ctxOnEngine t c unit))

/-- The partitions that can reach an engine. -/
def State.reachEngine (s : State) (unit : Nat) : List Nat :=
  let idx := unit % 4096
  match unit / 4096 with
  | 4 => (s.parts.filter (fun p =>
      s.bit (Reg.DDR_PART_RANGE p.1) 31 &&
      (List.range (s.fld (Reg.DDR_PART_LIMIT p.1) 0 20 - s.fld (Reg.DDR_PART_RANGE p.1) 0 20)).any (fun k =>
        (List.range 4).any (fun j => (s.dramLoc ((s.fld (Reg.DDR_PART_RANGE p.1) 0 20 + k) * 2 ^ 20 + j * 4096)).1 == idx)))).map (fun p => p.1)
  | 9 => match s.edgeOwner idx with | some p => [p] | none => []
  | 3 => match s.laneOwner idx with | some p => [p] | none => []
  | _ => []

/-- A list without its repeated elements, first occurrences kept. -/
def firstOnly : List Nat → List Nat
  | [] => []
  | a :: r => a :: (firstOnly r).filter (fun b => b != a)

/-- The variants of a partition in the order of its variant sequence (R35). -/
def State.variantOrder (s : State) (p : Nat) : List Nat :=
  let hi := s.rd (Reg.PART_VAR_SEQ_HI p)
  firstOnly ((List.range (hi.field 24 4 + 1)).map (fun i =>
    if i < 10 then s.fld (Reg.PART_VAR_SEQ_LO p) (3 * i) 3 else hi.field (3 * (i - 10)) 3))

/-- The suspects of a partition: variants of its last 16 beats with a source on the engine. -/
def State.suspectsOf (s : State) (p unit : Nat) : List (Nat × Nat) :=
  match s.part p with
  | some x => ((s.variantOrder p).filter (fun v => x.variants.contains v && s.onEngine p v unit)).map (fun v => (p, v))
  | none => []

/-- An engine is reset (R254, R293, R367). -/
def State.engineReset (s : State) (unit : Nat) : State :=
  let idx := unit % 4096
  match unit / 4096 with
  | 4 => s.channelReset idx
  | 9 => let s := s.edgeFlush idx
         s.setEdge idx { EdgeSt.reset with
           discard := (s.edge idx).discard, outcomes := (s.edge idx).outcomes, logged := (s.edge idx).logged
           inLow := (s.edge idx).inLow }
  | 3 => s.portDown idx 0
  | _ => s

/-- Whether a partition has ended step 7 and waits for the search. -/
def State.searchWaits (s : State) (p : Nat) : Bool :=
  match s.part p with
  | some x => s.pstate p == psRecovering && x.recov.step == 8 && x.recov.resumeAt.isNone
  | none => false

/-- Whether a partition frozen for a search is still on its way to the end of step 7. -/
def State.searchBusy (s : State) (p : Nat) : Bool := (s.part p).isSome && s.pstate p != psStopped && !(s.searchWaits p)

/-- The partitions of a search that ended resume at a common milestone; one that a later search holds goes on waiting. -/
def State.searchEnd (s : State) (h : HangSearch) (rest : List HangSearch) : State :=
  let s := ({ s with search := rest } : State).dumpNext
  let m := (s.msCount + 2) % 2 ^ 48
  (h.parts.filter (fun p => s.searchWaits p && !(rest.any (fun r => r.parts.contains p)))).foldl (fun s p => s.resumeWhenRaised p m) s

/-- A trial of dry beats starts (R367). -/
def State.trialStart (s : State) (p v : Nat) : State :=
  let s := s.updPart p (fun x => { x with trial := some v, fault := false, beatOpen := false })
  (((s.enableTiles p).openStreams p).setPstate p psRunning).snapPart s.msCount p

/-- The search goes on (R367): once every partition has ended step 7, the engine is reset, and the suspects are tried in turn; with none left it
ends, and the next search begins. -/
def State.searchGo (s : State) : Nat → State
  | 0 => s
  | fuel + 1 =>
    match s.search with
    | [] => s
    | h :: rest =>
      if h.running || h.parts.any (fun p => s.searchBusy p) then s
      else
        let s := if h.cleaned then s else s.engineReset h.unit
        match h.suspects.filter (fun q => s.searchWaits q.1) with
        | [] => (s.searchEnd h rest).searchGo fuel
        | (p, v) :: more =>
          let s := { s with search := { h with suspects := (p, v) :: more, running := true, cleaned := true } :: rest }
          s.trialStart p v

/-- The dry beat of a trial is broken off with the actions of SLIP. -/
def State.trialCut (s : State) (p : Nat) : State :=
  match s.part p with
  | none => s
  | some x =>
    let s := if x.beatOpen then
        let s := (s.partTiles p).foldl (fun s t => s.outcomeTile x.openMs 1 t) s
        let s := (s.partChans p).foldl (fun s c => s.outcomeChan x.openMs 1 c) s
        (s.partEdges p).foldl (fun s e => s.edgeClose e x.openMs 1) s
      else s
    let s := s.updPart p (fun y => { y with
      trial := none, beatOpen := false, fault := false, gapAbort := false
      recov := { y.recov with step := if y.recov.dead.isEmpty then 8 else 6, resumeAt := none } })
    s.setPstate p psRecovering

/-- The trial of the current suspect ends (R367). -/
def State.trialEnd (s : State) (guilty : Bool) : State :=
  match s.search with
  | h :: rest =>
    match h.running, h.suspects with
    | true, (p, v) :: more =>
      let s := s.trialCut p
      let h := { h with tried := h.tried + 1, running := false, suspects := more }
      if guilty then
        let s := s.logRec 6 0 0x0B03 sevContained (some p) (toBytes h.unit 2 ++ toBytes p 1 ++ toBytes v 1 ++ toBytes h.tried 1)
        let s := s.updPart p (fun x => { x with recov := { x.recov with guilty := true } })
        let s := match s.part p with | some x => s.endStopped p (s.recOutcome p x false) | none => s
        ((s.engineReset h.unit).searchEnd h rest).searchGo (rest.length + 1)
      else State.searchGo { s with search := h :: rest } (rest.length + 2)
    | _, _ => s
  | [] => s

/-- TRIAL_END (R367). -/
def execTrialEnd (guilty : Bool) (s : State) : Host.Outcome State Fault Refusal := .next (s.trialEnd guilty)

/-- A partition that a hang finds on its way out of a recovery, past step 7, joins the search (R376). -/
def State.joinSearch (s : State) (p : Nat) : State :=
  match s.part p with
  | some x =>
    if s.pstate p = psRecovering ∧ (x.recov.resumeAt.isSome ∨ x.recov.floorWait) then
      s.updPart p (fun x => { x with recov := { x.recov with step := 8, floorWait := false, resumeAt := none } })
    else s
  | none => s

/-- HANG_DETECTED (R360, R367, R376): each suspect partition logs it, and every partition that can reach the engine freezes; in a trial
it finds the suspect guilty. -/
def execHangDetected (unit : BitVec 16) (s : State) : Host.Outcome State Fault Refusal :=
  let u := unit.toNat
  let trial := match s.search with | h :: _ => h.running && h.unit == u | [] => false
  if trial then .next (s.trialEnd true)
  else if s.search.any (fun h => h.unit == u) then .next s
  else
    let ps := s.reachEngine u
    let suspects := ps.flatMap (fun p => s.suspectsOf p u)
    let s := { s with search := s.search ++ [⟨u, suspects, ps, 0, false, false⟩] }
    let live (s : State) (p : Nat) : Bool := s.pstate p == psArmed || s.pstate p == psRunning
    .next (ps.foldl (fun s p =>
      let s := if suspects.any (fun q => q.1 == p) then
          s.logRec (u / 4096) (u % 4096) 0x0B01 sevPartition (some p) (toBytes u 2 ++ toBytes suspects.length 1)
        else s
      if live s p then (s.raiseFault p).updPart p (fun x => { x with recov := { x.recov with hung := true } }) else s.joinSearch p) s)

/-- TILE_STALL (R360). -/
def execTileStall (tile : Nat) (s : State) : Host.Outcome State Fault Refusal :=
  if (s.tileIn tile psArmed || s.tileIn tile psRunning) && !(s.tileRests tile) && !(s.bit (Reg.SEQ_BEAT_STATUS tile) 2) then
    .next ((s.setBit (Reg.TILE_FAULT tile) 2 true).logTile tile 0x0103 sevPartition
      (toBytes tile 2 ++ toBytes (s.fld (Reg.SEQ_STATUS tile) 0 12) 2 ++ toBytes (s.fld (Reg.TC_PC tile) 0 13) 2 ++
       toBytes (s.fld (Reg.TILE_STATUS tile) 0 6) 1))
  else .next s

/-! The steps of a recovery (R361). -/

/-- The state with the recovery record of a partition changed. -/
def State.updRec (s : State) (p : Nat) (f : RecSt → RecSt) : State := s.updPart p (fun x => { x with recov := f x.recov })

/-- RECOVERY_FAILED is logged, and the partition ends STOPPED (R361, R362). -/
def State.recoveryFails (s : State) (p step : Nat) (cause : Byte) : State :=
  let s := s.logRec 6 0 0x0B05 sevContained (some p) (toBytes step 1 ++ [cause])
  let s := match s.part p with
    | some x => match x.recov.slot with
      | some k => if s.dumpFlag 8 k && step == 2 then s.setDumpFlag 8 k false else s
      | none => s
    | none => s
  let s := s.updRec p (fun r => { r with failed := true })
  let warm : Bool := match s.part p with | some x => x.recov.warm | none => false
  (s.endStopped p (if warm then 9 else 8)).searchGo (s.search.length + 1)

/-- The generation that a raise of a partition's generation gives (R364). -/
def nextGen (g : Nat) : Nat := (g + 1) % 256

/-- Whether a partition's next generation was retired less than 1 ms ago (R12, R364). -/
def State.genBusy (s : State) (p : Nat) (x : Part) : Bool :=
  (SMap.get s.retired [] p).any (fun r => r.1 == nextGen x.gen && decide (s.now < r.2 + 1000000))

/-- The generation is raised in every tile of a partition; edge ports and channels follow the partition's record (R364). -/
def State.raiseGen (s : State) (p : Nat) (x : Part) : State :=
  let g := nextGen x.gen
  let s : State := { s.setPart p { x with gen := g } with
    retired := SMap.set s.retired p ((x.gen, s.now) :: (SMap.get s.retired [] p).filter (fun r => r.1 != x.gen)) }
  let s := (s.partTiles p).foldl (fun s t => (s.dropHalf false t).setFld (Reg.TILE_PART t) 8 8 g) s
  let s := ((s.partEdges p).foldl (fun s e => s.dropHalf true e) s).flushEdges p
  (s.partEdges p).foldl (fun s e => s.edgeOldGrants e) s

/-- The positions declared dead in a recovery are spared (R77). -/
def State.recSpare (s : State) (p : Nat) : State :=
  match s.part p with
  | none => s
  | some x =>
    let (lost, s) := s.declareAll x.recov.dead true
    s.updRec p (fun r => { r with dead := [], lost := r.lost ++ lost })

/-- Whether a column of a partition is unavailable (R78). -/
def State.lostColumn (s : State) (x : Part) : Bool := x.cols.any (fun c => !(s.colOk c))

/-- Step 5 (R361): the tiles are reset, with their peers' semaphores, which a self-fenced device notes (R268), and dead positions are spared. -/
def State.recReset (s : State) (p : Nat) (x : Part) : State :=
  let s := s.tileResets x.tiles
  let s := s.updPart p (fun y => { y with fenceReset := y.fenceReset || s.fenced })
  let s := { s with routers := s.routers.map (fun (r : Nat × Router) =>
    if x.cols.any (fun c => r.1 / 8 == c || r.1 == 128 + c) then (r.1, { r.2 with fencedLogged := false }) else r) }
  s.recSpare p

/-- Whether the port of a broken channel of a partition is down. -/
def State.portsDown (s : State) (p : Nat) : Bool :=
  (s.partChans p).any (fun c => s.chanState c == 2 && !(s.portIsUp (s.chanPort c)))

/-- Step 7 (R361): broken channels whose tiles were reset since reopen where their port is up (R254), and the contexts and channels open. The
semaphores keep what step 5 loaded (R164, R168). -/
def State.rollBack (s : State) (p : Nat) : State :=
  let s := (s.partChans p).foldl (fun s c =>
    if s.chanState c = 2 ∧ s.portIsUp (s.chanPort c) ∧ (s.chan c).unreset = [] then s.wr (Reg.CHN_STATUS c) 1 else s) s
  s.openContexts p

/-- A recovery that has ended step 7 ends STOPPED, waits for a search or for the floors, or resumes (R53, R361, R362). -/
def State.recFinish (s : State) (p : Nat) (x : Part) (link : Bool) : State :=
  let o := s.recOutcome p x link
  if o ≠ 0 then (s.endStopped p o).searchGo (s.search.length + 1)
  else if s.search.any (fun h => h.parts.contains p) then
    (s.updRec p (fun r => { r with step := 8, linkWait := false })).searchGo (s.search.length + 1)
  else s.resumeWhenRaised p ((s.msCount + 2) % 2 ^ 48)

/-- The recovery of a partition completes the step that it is in. -/
def State.recStep (s : State) (p : Nat) (x : Part) : State :=
  let r := x.recov
  match r.step with
  | 2 => match r.slot with
    | some k => ((s.writeDump p k x).updRec p (fun r => { r with step := 3 })).dumpNext
    | none => s
  | 3 =>
    let s := match r.slot with | some k => s.dumpNotice p k x | none => s
    if r.device ≠ 0 then (s.endFatal p).searchGo (s.search.length + 1)
    else (s.updRec p (fun r => { r with step := 4 })).setPstate p psRecovering
  | 4 =>
    if s.genBusy p x then s.updRec p (fun r => { r with genWait := true })
    else (s.raiseGen p x).updRec p (fun r => { r with step := 5, genWait := false })
  | 5 =>
    let s := s.recReset p x
    if s.lostColumn x then (s.recoveryFails p 5 (Config.openDetail 0x0B05 s.free 1)).stepFree
    else s.updRec p (fun r => { r with step := 6 })
  | 6 =>
    let s := s.recSpare p
    if s.lostColumn x then (s.recoveryFails p 6 (Config.openDetail 0x0B05 s.free 1)).stepFree
    else (s.restoreCopy p x.tiles true).updRec p (fun r => { r with step := 7 })
  | 7 =>
    if !r.dead.isEmpty then
      let s := s.recSpare p
      if s.lostColumn x then (s.recoveryFails p 7 (Config.openDetail 0x0B05 s.free 1)).stepFree
      else s.updRec p (fun r => { r with step := 6, linkWait := false, floorWait := false })
    else if r.floorWait then s.recFinish p x false
    else
      let s := s.rollBack p
      if s.portsDown p then s.updRec p (fun r => { r with linkWait := true })
      else s.recFinish p x false
  | _ => s

/-- Whether a partition is in recovery and its steps may run: firmware runs, the partition has left its rung, and no search before its own keeps
it frozen (R367). -/
def State.inRecovery (s : State) (p : Nat) (x : Part) : Bool :=
  (s.pstate p == psFrozen || s.pstate p == psRecovering) && x.rung == 0 && !s.fwLost && !(s.searchHeld p)

/-- RECOVERY_STEP_COMPLETE (R361 to R366, R76 to R78): `dead` are positions of the partition's columns that its tests found dead. -/
def execRecoveryStepComplete (partition : Nat) (dead : List (Nat × Nat)) (s : State) : Host.Outcome State Fault Refusal :=
  match s.part partition with
  | some x =>
    if s.inRecovery partition x ∧ !x.recov.genWait then
      let mine := dead.filter (fun d => decide (x.firstCol ≤ d.1 ∧ d.1 ≤ x.lastCol))
      let x := { x with recov := if mine.isEmpty then x.recov else x.recov.found mine }
      .next ((s.setPart partition x).recStep partition x)
    else .next s
  | none => .next s

/-- The Route time at which the next generation of a partition may be used again (R12, R364). -/
def State.genFree (s : State) (p : Nat) (x : Part) : Nat :=
  (SMap.get s.retired [] p).foldl (fun m r => if r.1 = nextGen x.gen then max m (r.2 + 1000000) else m) 0

/-- GENERATION_RETIRE_WAIT (R364): 1 ms has passed since the value was retired. -/
def execGenerationRetireWait (partition : Nat) (s : State) : Host.Outcome State Fault Refusal :=
  match s.part partition with
  | some x =>
    if s.inRecovery partition x ∧ x.recov.step = 4 ∧ x.recov.genWait then
      let s := s.timeTo (s.genFree partition x * 2 ^ 16)
      .next ((s.raiseGen partition x).updRec partition (fun r => { r with step := 5, genWait := false }))
    else .next s
  | none => .next s

/-- LINK_WAIT_EXPIRY (R361, R362): a channel whose port came up meanwhile reopens. -/
def execLinkWaitExpiry (partition : Nat) (s : State) : Host.Outcome State Fault Refusal :=
  match s.part partition with
  | some x =>
    if s.inRecovery partition x ∧ x.recov.step = 7 ∧ x.recov.linkWait then
      let s := s.rollBack partition
      .next (s.recFinish partition x (s.portsDown partition))
    else .next s
  | none => .next s

/-- RECOVERY_FAILED (R361, R362). -/
def execRecoveryFailed (partition : Nat) (cause : BitVec 8) (s : State) : Host.Outcome State Fault Refusal :=
  match s.part partition with
  | some x =>
    if s.inRecovery partition x ∧ 2 ≤ x.recov.step ∧ x.recov.step ≤ 7 then
      .next (s.recoveryFails partition x.recov.step cause).dumpNext
    else .next s
  | none => .next s

end Sys2Proof.Machine
end

