-- ==== Sys2Proof/Machine/Power.lean ====
section
/-!
DEFINITION. Power: the AVSBus requests (R340, R341), the rungs of a partition and of the device (R332 to R339), domain ramps
(R343, R344), the pace governor (R51 to R55), the power cap and the thermal limits (R345 to R347).
-/
namespace Sys2Proof.Machine

/-! AVSBus (R340, R341). Rails 0 to 3 are `VDD_T0` to `VDD_T3`, 4 is `VDD_F` and 5 `VDD_RET`. -/

/-! Device rungs (R334, R337). -/

/-- A transition of the device is over. -/
def State.devDone (s : State) (rung : Nat) : State :=
  let s := { s with pwr := { s.pwr with phase := 0 } }
  let s := (((s.setFld Reg.PWR_STATUS 0 3 rung).setBit Reg.PWR_STATUS 4 false).setBit Reg.PWR_STATUS 5 false).pllRungs
  (s.devNotice rung (List.range 4)).powerChecks

/-- The voltage to which an exit of L4 returns a rail: the one before entry, or the floor if it is higher (R337). -/
def State.exitMv (s : State) (r : Nat) : Nat :=
  max (SMap.get s.pwr.saved 750 r) (if r < 4 then s.floorOf r * 5 else 0)

/-- Every rail of a list holds its target. -/
def State.railsAt (s : State) (l : List (Nat × Nat)) : Bool := l.all (fun x => s.railMv x.1 == x.2 && !(s.railWaits x.1))

/-- The targets of the tile and fabric rails in L4, and on exit. -/
def l4Low : List (Nat × Nat) := [(0, 600), (1, 600), (2, 600), (3, 600), (4, 700)]
def State.l4High (s : State) : List (Nat × Nat) := (List.range 5).map (fun r => (r, s.exitMv r))

/-- The state with the step of a device transition replaced. -/
def State.setPhase (s : State) (n : Nat) : State := { s with pwr := { s.pwr with phase := n } }

/-- The rails of an L4 transition are driven on: requests that are due are made, and a step whose rails have all been acknowledged
ends (R337, R341). -/
def State.l4Push (s : State) : State :=
  match s.pwr.phase with
  | 2 =>
    if s.railsAt l4Low then (s.setPhase 3).avsRequest 5 400
    else l4Low.foldl (fun s x => s.avsRequest x.1 x.2) s
  | 3 => if s.railMv 5 = 400 then s.devDone 4 else s.avsRequest 5 400
  | 4 =>
    if s.railsAt [(5, 550)] then
      let s := s.setPhase 5
      s.l4High.foldl (fun s x => s.avsRequest x.1 x.2) s
    else s.avsRequest 5 550
  | 5 =>
    if s.railsAt s.l4High then (if s.pwr.target = 0 then s.setPhase 6 else s.devDone s.pwr.target)
    else s.l4High.foldl (fun s x => s.avsRequest x.1 x.2) s
  | _ => s

/-- The device starts to enter a rung (R334, R337): from L4 to a lesser rung it returns its rails. -/
def State.devEnter (s : State) (rung : Nat) : State :=
  let s := s.wr Reg.PWR_DEV_RUNG (BitVec.ofNat 32 rung)
  if s.devRung = rung ∧ s.pwr.phase = 0 then s
  else
    let s := { s with pwr := { s.pwr with target := rung } }
    if s.devRung = 4 then ((s.setBit Reg.PWR_STATUS 5 true).setPhase 4).l4Push
    else ((s.setBit Reg.PWR_STATUS 4 true).setBit Reg.PWR_STATUS 5 false).setPhase 1

/-- The device wakes (R334, R337). -/
def State.devWake (s : State) : State :=
  let s := s.wr Reg.PWR_DEV_RUNG 0
  if s.devRung = 0 ∧ s.pwr.phase = 0 then s
  else
    let s := { s with pwr := { s.pwr with target := 0 } }
    let s := (s.setBit Reg.PWR_STATUS 4 false).setBit Reg.PWR_STATUS 5 true
    if s.devRung = 4 ∨ s.pwr.phase = 2 ∨ s.pwr.phase = 3 ∨ s.pwr.phase = 4 ∨ s.pwr.phase = 5 then (s.setPhase 4).l4Push
    else s.setPhase 6

/-- AVS_TIMEOUT (R341, R350): the rail holds its last acknowledged voltage; an entry of L4 that lacks `VDD_RET` ends with it. -/
def execAvsTimeout (rail : Nat) (s : State) : Host.Outcome State Fault Refusal :=
  if rail < 6 ∧ s.railWaits rail then
    let s := (s.setBit (Reg.PWR_RAIL_V rail) 31 false).addReg Reg.PWR_AVS_TIMEOUTS 1
    let s := (s.logRec 7 rail 0x0901 sevContained none (s.openDetail 0x0901)).stepFree
    .next (if s.pwr.phase = 3 ∧ rail = 5 then s.devDone 4 else s)
  else .next s

/-! Rungs of a partition (R332, R336). -/

/-- RUNG_ENTRY_COMPLETE (R332, R337, R339). -/
def execRungEntryComplete (scope : Nat) (s : State) : Host.Outcome State Fault Refusal :=
  if scope = 16 then
    if s.pwr.phase = 1 then
      if s.pwr.target = 4 then
        let s := { s with pwr := { s.pwr with saved := (List.range 5).map (fun r => (r, s.railMv r)) } }
        .next (s.setPhase 2).l4Push
      else .next (s.devDone s.pwr.target)
    else .next s
  else match s.part scope with
    | some x =>
      if x.rung ≠ 0 ∧ x.entering then
        let s := s.updPart scope (fun x => { x with entering := false })
        .next ((s.powerNotice scope x.rung).powerChecks)
      else .next s
    | none => .next s

/-- START arms a partition for milestone N with a step value (R34, R35). -/
def State.armStart (s : State) (p ms step : Nat) : State :=
  let s := s.wr2 (Reg.PART_STEP_LO p) (Reg.PART_STEP_HI p) (step % 2 ^ 48)
  let s := s.wr2 (Reg.PART_START_AT_LO p) (Reg.PART_START_AT_HI p) (ms % 2 ^ 48 + 2 ^ 63)
  ((s.enableTiles p).updPart p (fun x => { x with hushStart := [], hushStop := [] })).setPstate p psArmed

/-- A period change is armed for milestone M (R31, R32), and its issuer is owed a notice where it asked for one. -/
def State.armPeriod (s : State) (r : Req) (ms units : Nat) : State :=
  let s := s.setFld Reg.TIME_MS_PERIOD_NEXT 0 13 units
  (s.wr2 Reg.TIME_MS_CHANGE_LO Reg.TIME_MS_CHANGE_HI (ms % 2 ^ 48 + 2 ^ 63)).owe r true

/-- The results of SET_PERIOD (R308): the change milestone in bytes [15:10]. -/
def periodResult (ms : Nat) : List Byte := toBytes 0 2 ++ toBytes ms 6

/-- A START or SET_PERIOD that waits is looked at (R34, R53, R334): it goes on once its raises are acknowledged and, for a START, its
partition has left its rung. -/
def State.raiseCheck (s : State) (fn : Nat) : State :=
  match (s.fnMbx fn).running with
  | some r => match r.req, r.wait with
    | some q, .exit ms step floors =>
      let p := q.partition
      let rests : Bool := match s.part p with | some x => x.rung != 0 | none => false
      if !(s.raised floors) then (s.waits q (.exit ms step (s.capped floors))).askRaises floors
      else if rests then s
      else if s.pstate p ≠ psStopped ∨ (s.part p).isNone then s.complete fn stBadState []
      else if msAhead ms s.msCount then (s.armStart p ms step).complete fn stOk (toBytes ms 6)
      else s.complete fn stTimeout []
    | some q, .period ms units floors =>
      if s.raised floors then (s.armPeriod q ms units).complete fn stOk (periodResult ms)
      else (s.waits q (.period ms units (s.capped floors))).askRaises floors
    | _, _ => s
  | none => s

/-- Every START and SET_PERIOD that waits is looked at. -/
def State.raiseChecks (s : State) : State := (List.range 17).foldl (fun s f => s.raiseCheck f) s

/-- AVS_ACK (R341): the rail reads back within 10 mV of the target. -/
def execAvsAck (rail : Nat) (mv : BitVec 12) (s : State) : Host.Outcome State Fault Refusal :=
  let want := SMap.get s.pwr.want 0 rail
  if rail < 6 ∧ s.railWaits rail ∧ want ≤ mv.toNat + 10 ∧ mv.toNat ≤ want + 10 then
    .next ((s.wr (Reg.PWR_RAIL_V rail) (BitVec.ofNat 32 want)).showVolt rail).l4Push.raiseChecks.floorChecks
  else .next s

/-- RUNG_EXIT_COMPLETE (R332, R334, R336, R350). -/
def execRungExitComplete (scope : Nat) (s : State) : Host.Outcome State Fault Refusal :=
  if s.bit Reg.PWR_STATUS 8 then .next s
  else if scope = 16 then .next (if s.pwr.phase = 6 then s.devDone 0 else s)
  else match s.part scope with
    | some x =>
      if x.rung ≠ 0 ∧ !x.entering ∧ x.wakeAt.isSome then
        if s.pstate scope = psRunning then .next ((s.updPart scope (fun x => { x with exitDone := true })).powerChecks)
        else .next (((s.leaveRung scope).raiseChecks.dumpNext).powerChecks)
      else .next s
    | none => .next s

/-- POWER_STATE_TIMEOUT (R339): whatever was reached stays. -/
def execPowerStateTimeout (fn : Nat) (s : State) : Host.Outcome State Fault Refusal :=
  match s.waitOf fn with
  | some (.power _ _ _ _ _) => .next (s.complete fn stTimeout [])
  | _ => .next s

/-! Ramps (R343, R344). -/

/-- RAMP_COMPLETE (R343, R344): the domain is on; a sector whose ramp failed stays off until the next cold boot. -/
def execRampComplete (domain : Nat) (s : State) : Host.Outcome State Fault Refusal :=
  if domain < 144 ∨ (!(s.bit Reg.BOOT_STATUS 4) ∧ !s.boot.warm) then
    .next { s with pwr := { s.pwr with off := s.pwr.off.filter (fun d => d != domain) } }
  else .next s

/-- The logical tile at a position, if it carries a row (R76). -/
def State.tileAt (s : State) (c pos : Nat) : Option Nat := (List.range 8).map (fun r => 8 * c + r) |>.find? (fun t => s.position t == pos)

/-- Whether the detour map stands: from the end of B4 of a cold boot on (R76, R351). -/
def State.mapBuilt (s : State) : Bool := s.bit Reg.BOOT_STATUS 4 || s.boot.warm || decide (4 < s.fld Reg.BOOT_STATUS 0 4)

/-- RAMP_SHORT (R343, R344): the domain stays off; a tile is found dead, at once where the map stands, and otherwise as B4 builds it. -/
def execRampShort (domain : Nat) (stage : BitVec 2) (trip : Bool) (s : State) : Host.Outcome State Fault Refusal :=
  let s := { s with
    pwr := { s.pwr with off := domain :: s.pwr.off.filter (fun d => d != domain) }, alertStatus := s.alertStatus ||| 0x20 }
  let c := if domain < 144 then domain / 9 else (domain - 144) % 16
  let owner := s.colPart c
  let live : Bool := match owner with | some p => s.pstate p == psArmed || s.pstate p == psRunning | none => false
  let rests : Bool := match owner with | some p => (match s.part p with | some x => x.rung != 0 | none => false) | none => false
  let sev := if live || rests then sevPartition else sevContained
  let tail := toBytes (stage.toNat + 16 * trip.toNat) 1
  if domain < 144 then
    let pos := domain % 9
    match s.tileAt c pos with
    | some t =>
      let s := (s.setBit (Reg.TILE_FAULT t) 7 true).logTile t 0x0902 sev (toBytes t 1 ++ tail)
      .next (if s.mapBuilt then s.foundDead c pos else s)
    | none =>
      let s := s.setBit (Reg.TILE_FAULT (128 + c)) 7 true
      let s := s.logRec 0 (0x100 + c * 16 + pos) 0x0902 sev owner (toBytes 0x7F 1 ++ tail)
      .next (if s.mapBuilt then s.foundDead c pos else s)
  else .next (s.logRec 2 (domain - 144) 0x0902 sev owner (toBytes (domain - 144) 1 ++ tail))

/-! Temperature (R346). -/

/-- `THERM_N` is driven low or released. -/
def State.thermPin (s : State) (low : Bool) : State :=
  if s.bit Reg.PWR_STATUS 9 = low then s
  else
    let s := { s with alertStatus := if low then s.alertStatus ||| 1 else s.alertStatus }
    (s.setBit Reg.PWR_STATUS 9 low).emit (.pin 0 (!low))

/-- THERM_N_ASSERT (R346): the pin is released while `POR_N` is low (R377). -/
def execThermNAssert (s : State) : Host.Outcome State Fault Refusal := .next (if s.boot.por then s else s.thermPin true)

/-- THERM_N_RELEASE (R346): not while the trip has fired. -/
def execThermNRelease (s : State) : Host.Outcome State Fault Refusal :=
  .next (if s.bit Reg.PWR_STATUS 8 then s else s.thermPin false)

/-- THERMAL_TRIP (R346): every domain opens; while `POR_N` is low the device is in its cold reset (R358). -/
def execThermalTrip (s : State) : Host.Outcome State Fault Refusal :=
  if s.bit Reg.PWR_STATUS 8 || s.boot.por then .next s
  else
    let s := (s.setBit Reg.PWR_STATUS 8 true).thermPin true
    let s := { s with pwr := { s.pwr with off := List.range 176 ++ s.pwr.off.map (fun d => d + 256) } }
    .next ((s.logRec 6 1 0x0905 sevDevice none (s.openDetail 0x0905)).stepFree)

/-! The governor (R51, R52, R345 to R347). -/

/-- The highest reading and where it is: a quarter, 4 the fabric, 5 the hub (R346). -/
def hottest : List Int → Nat → Int × Nat
  | [], i => (0, i)
  | [t], i => (t, i)
  | t :: r, i =>
    let m := hottest r (i + 1)
    if m.1 ≤ t then (t, i) else m

/-- What a loop measures is shown (R345, R346): temperatures, rail currents, which are read over AVSBus (log entry 134), and the power of
the last 1 ms. -/
def State.measure (s : State) (m : GovEnv) : State :=
  let h := hottest m.tj 0
  let s := s.wr Reg.PWR_TJ (((BitVec.ofInt 12 h.1).setWidth 32) ||| BitVec.ofNat 32 (h.2 % 16 * 65536))
  let s := (List.range 4).foldl (fun s q => s.setQuarter q { s.quarter q with tj := m.tj.getD q 0 }) s
  let s := (List.range 6).foldl (fun (s : State) r => ((s.emit (avsOut r .readCurrent)).emit (avsOut r .readStatus)).wr (Reg.PWR_RAIL_I r)
    (BitVec.ofNat 32 (m.railI.getD r 0 % 65536))) s
  let rails := (List.range 6).foldl (fun n r => n + m.railV.getD r 0 * m.railI.getD r 0) 0
  let w := ((m.watts + rails / 1250) :: s.pwr.watts).take 10
  let s := { s with pwr := { s.pwr with watts := w } }
  let s := s.wr Reg.PWR_MEAS (BitVec.ofNat 32 (min 4095 (w.foldl (fun n x => n + x) 0 / w.length)))
  s.parts.foldl (fun s p => (s.setFld (Reg.PWR_PART p.1) 16 12 (Config.freeNat s.free)).stepFree) s

/-- The quarters that hold a partition drawing more than its share of the limit (R345). -/
def State.overShare (s : State) : List Nat :=
  let limit := s.fld Reg.PWR_LIMIT 0 8
  (List.range 4).filter (fun q => s.parts.any (fun p =>
    p.2.quarters.contains q &&
    decide (s.fld (Reg.PWR_PART p.1) 0 7 * limit * 8 < s.fld (Reg.PWR_PART p.1) 16 12 * 100)))

/-- The power ceilings of a loop (R345). -/
def State.powerCeil (s : State) : State :=
  let limit := s.fld Reg.PWR_LIMIT 0 8 * 8
  let meas := s.fld Reg.PWR_MEAS 0 12
  if limit < meas then
    let qs := if s.overShare.isEmpty then List.range 4 else s.overShare
    let s := qs.foldl (fun s q => s.setQuarter q { s.quarter q with ceilP := max 120 ((s.quarter q).ceilP - 1) }) s
    let s : State := { s with pwr := { s.pwr with below := 0 } }
    let least : Bool := (List.range 4).all (fun r => decide (s.railMv r ≤ 600))
    if least && !s.pwr.unmet then
      let s : State := { s with pwr := { s.pwr with unmet := true } }
      s.throttleLog 0x0904 none 1 0
    else s
  else
    let n := if meas * 100 ≤ limit * 98 then s.pwr.below + 1 else 0
    let s := { s with pwr := { s.pwr with below := n, unmet := false } }
    if 10 ≤ n then
      (List.range 4).foldl (fun s q => s.setQuarter q { s.quarter q with ceilP := min 170 ((s.quarter q).ceilP + 1) }) s
    else s

/-- The thermal ceiling of a quarter in a loop (R346). -/
def State.thermCeil (s : State) (q : Nat) : State :=
  let x := s.quarter q
  let hot : Int := s.fld Reg.PWR_THERM_CTRL 0 8 * 8
  let cool : Int := s.fld Reg.PWR_THERM_CTRL 8 8 * 8
  if hot ≤ x.tj then s.setQuarter q { x with ceilT := max 120 (x.ceilT - 2) }
  else if x.tj < cool then s.setQuarter q { x with ceilT := min 170 (x.ceilT + 1) }
  else s

/-- `PWR_Qq_CEIL` shows a quarter's ceiling and its cause. -/
def State.showCeil (s : State) (q : Nat) : State :=
  let x := s.quarter q
  s.wr (Reg.PWR_CEIL q) (BitVec.ofNat 32 (x.ceil + 256 * (decide (x.ceilP < 170)).toNat + 512 * (decide (x.ceilT < 170)).toNat))

/-- The tiles of a quarter that ran a beat since the last re-arm (R51). -/
def State.ranTiles (s : State) (q : Nat) : List Nat :=
  (List.range 32).map (fun i => 32 * q + i) |>.filter (fun t =>
    (s.tile t).ran)

/-- The minimum slack of a tile and the handshakes of its last beat, used and left over (R37, R51; log entry 26). -/
def State.slackOf (s : State) (t : Nat) : Nat × Nat :=
  (s.fld (Reg.SEQ_BEAT_MIN_SLACK t) 0 20, s.fld (Reg.SEQ_BEAT_USED t) 0 20 + s.fld (Reg.SEQ_BEAT_SLACK t) 0 20)

/-- Tiles are re-armed after the governor read them (R51). -/
def State.rearm (s : State) (ts : List Nat) : State :=
  ts.foldl (fun s t => (s.wr (Reg.SEQ_BEAT_MIN_SLACK t) 0xFFFFF).setTile t { s.tile t with ran := false }) s

/-- A voltage lowered by 5 mV, limited to 0.60 V and the floor: one that is already below the limit stays (R51). -/
def lowered (v floor : Nat) : Nat := max (v - 1) (min v (max 120 floor))

/-- The step of R51 for a quarter whose tiles ran a beat: the voltage asked for, the loops above the band, in 5 mV units. -/
def steer (v ceil floor above after target band : Nat) (late : Bool) (slacks : List (Nat × Nat)) : Nat × Nat :=
  let short := slacks.any (fun x => decide (x.1 * 100 + band * x.2 < target * x.2))
  let up := if late then 4 else if short then 2 else 0
  if 0 < up then (min (v + up) ceil, 0)
  else if slacks.all (fun x => decide ((target + band) * x.2 < x.1 * 100)) then
    if after ≤ above + 1 then (lowered v floor, 0) else (v, above + 1)
  else (v, 0)

/-- A quarter in a loop of the governor (R51). -/
def State.governQuarter (s : State) (q : Nat) : State :=
  let c := s.rd Reg.PWR_GOV_CTRL
  let floor := s.floorDue q
  let s := ((s.thermCeil q).showCeil q).setFld (Reg.PWR_GOV_VOLT q) 8 8 floor
  let s := s.throttle q floor
  if !(c.bit 0) then s
  else
    let x := s.quarter q
    let v := s.railMv q / 5
    let ran := s.ranTiles q
    let slacks := ran.map (fun t => s.slackOf t)
    let late := ran.any (fun t => s.bit (Reg.SEQ_BEAT_MIN_SLACK t) 20)
    let after := c.field 24 4
    let rearms := decide (v ≤ x.ceil) && !(s.liveParts q).isEmpty && !ran.isEmpty
    let (want, above) : Nat × Nat :=
      if x.ceil < v then (x.ceil, 0)
      else if (s.liveParts q).isEmpty then
        (if after ≤ x.above + 1 then (lowered v floor, 0) else (v, x.above + 1))
      else if ran.isEmpty then (v, 0)
      else steer v x.ceil floor x.above after (c.field 8 4) (c.field 16 4) late slacks
    let s := s.setQuarter q { x with above := above }
    let s := if rearms then
        let least := slacks.foldl (fun m y => min m (y.1 * 1000 / max 1 y.2)) 1023
        (s.wr (Reg.PWR_GOV_SLACK q) (BitVec.ofNat 32 (least + 1024 * late.toNat))).rearm ran
      else s
    let want := if want < floor then min floor x.ceil else want
    s.avsRequest q (want * 5)

/-- GOVERNOR_LOOP (R51, R52, R345 to R347): while firmware runs; a transition of L4 drives its rails on instead (R341). -/
def execGovernorLoop (m : GovEnv) (s : State) : Host.Outcome State Fault Refusal :=
  if !s.boot.fwUp || s.fwLost then .next s
  else
    let s := (s.measure m).powerCeil
    if s.pwr.phase = 0 ∧ s.devRung ≠ 4 then .next ((List.range 4).foldl (fun s q => s.governQuarter q) s).raiseChecks.floorChecks
    else .next ((List.range 4).foldl (fun s q => (s.thermCeil q).showCeil q) s).l4Push

/-- RAIL_OUT_OF_TOLERANCE (R381): unpredictable while `POR_N` is high. -/
def execRailOutOfTolerance (_rail : Nat) (s : State) : Host.Outcome State Fault Refusal :=
  if s.boot.por then .next s else .fault (.unpredictableInDevice 381)

end Sys2Proof.Machine
end

