-- ==== Sys2Proof/Machine/Partitions.lean ====
section
/-!
DEFINITION. Partitions: PART_CREATE, PART_DESTROY, PART_RESET (R277, R312 to R314, R365), and the firmware regions and the change
of the DRAM map (R275, R318, R368).
-/
namespace Sys2Proof.Machine

/-! The DRAM map and the firmware regions (R275, R277, R368). -/

/-- The top of the mapped device addresses: of the highest-numbered enabled channel, or of the south band (R368). -/
def State.mapTop (s : State) : Nat :=
  if s.bit Reg.DDR_MAP_CTRL 0 then 2 ^ 38 + 4 * s.dramCap 4
  else match (List.range 8).reverse.find? (fun ch => s.bit (Reg.DDR_CTRL ch) 0) with
    | some ch => ch * 2 ^ 36 + s.dramCap ch
    | none => 0

/-- `DUMP_BASE` shows the dump region at the top of the firmware's 256 MiB (R368). -/
def State.showDumpBase (s : State) : State :=
  let b := s.mapTop - 2 ^ 26
  (s.wr Reg.DUMP_BASE_LO (BitVec.ofNat 32 b)).wr Reg.DUMP_BASE_HI (BitVec.ofNat 32 (b / 2 ^ 32 % 256))

/-- Whether two runs of addresses [a, b) and [c, d) overlap. -/
def runsMeet (a b c d : Nat) : Bool := decide (a < d ∧ c < b)

/-- Whether a range [lo, hi) holds a hole: it passes the capacity of a window of the map (R275). -/
def State.rangeHole (s : State) (lo hi : Nat) : Bool :=
  decide (2 ^ 39 < hi) ||
  (if s.bit Reg.DDR_MAP_CTRL 0 then
    (List.range 2).any (fun b => runsMeet lo hi (b * 2 ^ 38) ((b + 1) * 2 ^ 38) &&
      decide (b * 2 ^ 38 + 4 * s.dramCap (4 * b) < min hi ((b + 1) * 2 ^ 38)))
  else
    (List.range 8).any (fun ch => runsMeet lo hi (ch * 2 ^ 36) ((ch + 1) * 2 ^ 36) &&
      decide (ch * 2 ^ 36 + s.dramCap ch < min hi ((ch + 1) * 2 ^ 36))))

/-- The range of a partition in bytes, where it holds one. -/
def State.rangeOf (s : State) (p : Nat) : Option (Nat × Nat) :=
  if s.bit (Reg.DDR_PART_RANGE p) 31 then
    some (s.fld (Reg.DDR_PART_RANGE p) 0 20 * 2 ^ 20, s.fld (Reg.DDR_PART_LIMIT p) 0 20 * 2 ^ 20)
  else none

/-- Whether firmware refuses a range in MiB for a partition (R277, R312). -/
def State.rangeRefused (s : State) (p base limit : Nat) : Bool :=
  let lo := base * 2 ^ 20
  let hi := limit * 2 ^ 20
  decide (limit ≤ base) || s.rangeHole lo hi || runsMeet lo hi (s.mapTop - 2 ^ 28) s.mapTop ||
  (List.range 16).any (fun q => q != p && (match s.rangeOf q with | some r => runsMeet lo hi r.1 r.2 | none => false))

/-- The state without the upset bursts of a channel that a test picks (R290). -/
def State.dropBursts (s : State) (ch : Nat) (f : Nat → Bool) : State :=
  let x := s.dch ch
  s.setDch ch { x with upsets := x.upsets.filter (fun u => !(f u.1)), wb := x.wb.filter (fun b => !(f b)) }

/-- A run of device addresses becomes zero, in the channels that serve (R314). -/
def State.wipeRange (s : State) (lo hi : Nat) : State :=
  let hit (k : Nat) : Bool :=
    let a := s.dramAddr (k / 2 ^ 36) (k % 2 ^ 36)
    decide (lo ≤ a ∧ a < hi) && s.ddrServes (k / 2 ^ 36)
  let t : State := { s with dram := s.dram.filter (fun c => !(hit c.1)) }
  (List.range 8).foldl (fun t ch => t.dropBursts ch (fun b => hit (ch * 2 ^ 36 + b * 64))) t

/-- The firmware's 256 MiB move to the top of a new map (R368). -/
def State.moveRegion (s t : State) : State :=
  let lo := s.mapTop - 2 ^ 28
  let dst := t.mapTop - 2 ^ 28
  let addr (k : Nat) : Nat := s.dramAddr (k / 2 ^ 36) (k % 2 ^ 36)
  let cells := s.dram.filter (fun c => decide (lo ≤ addr c.1 ∧ addr c.1 < s.mapTop))
  let t := t.wipeRange dst t.mapTop
  let m := cells.foldl (fun (m : Memory) c => m.write (t.dramKey (addr c.1 - lo + dst)) [c.2]) t.dram
  ({ t with dram := m } : State).showDumpBase

/-- Whether the four channels of each band are enabled and of equal capacity (R275). -/
def State.bandOk (s : State) : Bool :=
  (List.range 8).all (fun ch => s.bit (Reg.DDR_CTRL ch) 0 && s.dramCap ch == s.dramCap (ch / 4 * 4))

/-- DRAM_MAP (R275, R318, R368): a mode beyond 1 is an incorrect argument. -/
def execDramMap (r : Req) (mode : BitVec 8) (s : State) : Host.Outcome State Fault Refusal :=
  s.runCmd r 0x80 .owner true false (fun s =>
    if 1 < mode.toNat then .fault r.wrong
    else if (List.range 16).any (fun p => (s.rangeOf p).isSome) || (mode == 1 && !s.bandOk) then s.reply r stBadState []
    else if mode.toNat = s.fld Reg.DDR_MAP_CTRL 0 1 then s.reply r stOk []
    else (s.moveRegion (s.setFld Reg.DDR_MAP_CTRL 0 1 mode.toNat)).reply r stOk [])

/-! PART_CREATE (R312, R313). -/

/-- The lanes, channels and banks of the partitions but one. -/
def State.heldLanes (s : State) (p : Nat) : BitVec 96 := s.parts.foldl (fun m x => if x.1 = p then m else m ||| x.2.lanes) 0
def State.heldChans (s : State) (p : Nat) : BitVec 256 := s.parts.foldl (fun m x => if x.1 = p then m else m ||| x.2.chans) 0

/-- The shares of the partitions, %. -/
def State.shares (s : State) : Nat := s.parts.foldl (fun m x => m + x.2.share) 0

/-- The channels of a table as a set. -/
def tableChans (t : ResTable) : BitVec 256 :=
  BitVec.ofNat 256 ((2 ^ t.chanCount.toNat - 1) * 2 ^ t.firstChan.toNat)

/-- Whether a table sets a range. -/
def tableRange (t : ResTable) : Bool := t.dramBase != 0 || t.dramLimit != 0

/-- Whether a table has a reserved bit set or names a partition that cannot exist (R16, R310, R312). -/
def tableBad (t : ResTable) : Bool :=
  decide (15 < t.partition.toNat) || decide (15 < t.gpio.toNat) || decide (2 ^ 20 ≤ t.dramBase.toNat) ||
  decide (2 ^ 20 ≤ t.dramLimit.toNat) || decide (8192 ≤ t.dumpRow.toNat)

/-- Whether the banks, lanes, channels, range or share of a table are not to be had (R312). -/
def State.tableTaken (s : State) (p : Nat) (t : ResTable) : Bool :=
  (s.heldLanes p &&& t.lanes != 0) || (s.heldChans p &&& tableChans t != 0) || (s.heldBanks p &&& t.gpio.setWidth 4 != 0) ||
  decide (256 < t.firstChan.toNat + t.chanCount.toNat) ||
  (tableRange t && s.rangeRefused p t.dramBase.toNat t.dramLimit.toNat) || decide (100 < s.shares + t.share.toNat)

/-- The range registers of a partition. -/
def State.setRange (s : State) (p base limit : Nat) : State :=
  (s.wr (Reg.DDR_PART_RANGE p) (BitVec.ofNat 32 (base + 2 ^ 31))).wr (Reg.DDR_PART_LIMIT p) (BitVec.ofNat 32 limit)

/-- The tiles, routers and sectors of a partition show their owner, or none (R20, R312). -/
def State.showOwner (s : State) (p : Nat) (x : Part) (own : Bool) : State :=
  let span := x.firstCol * 256 + x.lastCol * 4096 + (decide (x.firstCol = 0 ∧ x.lastCol = 15)).toNat * 65536
  let s := x.tiles.foldl (fun s t =>
    (s.wr (Reg.TILE_PART t) (BitVec.ofNat 32 (if own then p + 256 * x.gen else 0))).wr (Reg.RTR_PART t)
      (BitVec.ofNat 32 (if own then p + 16 + span else 0))) s
  (List.range 32).foldl (fun s k =>
    if x.cols.contains (k % 16) then s.setFld (Reg.FAB_SECT_STATUS k) 0 5 (if own then p + 16 else 0) else s) s

/-- A new partition, STOPPED, with generation 0 (R312). DESIGN CHOICE (log entry 131): it has that generation at once, also less than 1 ms after an
earlier partition of its number retired it. -/
def newPart (t : ResTable) : Part where
  firstCol := t.columns.toNat % 16
  lastCol := t.columns.toNat / 16
  gpio := t.gpio.setWidth 4
  share := t.share.toNat
  dramBase := t.dramBase.toNat
  dramLimit := t.dramLimit.toNat
  lanes := t.lanes
  chans := tableChans t
  dumpRow := t.dumpRow.toNat
  gen := 0
  fault := false
  cause := none
  gapAbort := false
  beatOpen := false
  openMs := 0
  recov := RecSt.none
  outcome := 0
  resumed := none
  resetReq := none
  rung := 0
  entering := false
  wakeAt := none
  exitDone := false
  exitLate := false
  devFatal := 0
  variants := []
  trial := none
  copy := []
  fenceReset := false
  releasing := false
  shown := 0
  hushStart := []
  hushStop := []

/-- A partition comes into being (R312): firmware opens the switches at its boundary (R198). -/
def State.addPart (s : State) (p : Nat) (t : ResTable) : State :=
  let x := newPart t
  let s := ((s.setPart p x).showOwner p x true).openBoundary x
  let s := if tableRange t then s.setRange p t.dramBase.toNat t.dramLimit.toNat else s
  (s.setFld (Reg.PWR_PART p) 0 7 t.share.toNat).setBit (Reg.MBX_ID (p + 1)) 12 true

/-- PART_CREATE (R312). -/
def execPartCreate (r : Req) (t : ResTable) (s : State) : Host.Outcome State Fault Refusal :=
  let p := t.partition.toNat
  let first := t.columns.toNat % 16
  let last := t.columns.toNat / 16
  s.runCmd r 0x10 .owner true false (fun s =>
    if tableBad t then .fault r.wrong
    else if last < first || (s.part p).isSome ||
        (List.range 16).any (fun c => decide (first ≤ c ∧ c ≤ last) && ((s.colPart c).isSome || !(s.colOk c))) ||
        s.tableTaken p t then
      s.reply r stNoResource []
    else (s.addPart p t).reply r stOk (toBytes p 1 ++ toBytes (p + 1) 1))

/-- PART_CREATE_AMEND (R313): lanes, channels, banks, a range and share are added; banks join the release of their owner (R199). -/
def execPartCreateAmend (r : Req) (t : ResTable) (s : State) : Host.Outcome State Fault Refusal :=
  let p := t.partition.toNat
  s.runCmd r 0x10 .owner true false (fun s =>
    match s.part p with
    | none => s.reply r stBadState []
    | some x =>
      if tableBad t then .fault r.wrong
      else if !(s.isStopped p) || t.columns.toNat != x.firstCol + 16 * x.lastCol || (tableRange t && (s.rangeOf p).isSome) then
        s.reply r stBadState []
      else if s.tableTaken p t then s.reply r stNoResource []
      else
        let y : Part := { x with
          lanes := x.lanes ||| t.lanes, chans := x.chans ||| tableChans t, gpio := x.gpio ||| t.gpio.setWidth 4
          share := x.share + t.share.toNat
          dramBase := if tableRange t then t.dramBase.toNat else x.dramBase
          dramLimit := if tableRange t then t.dramLimit.toNat else x.dramLimit }
        let s := ((s.setPart p y).openBoundary y).gpioSet y.gpio (decide (1 ≤ s.relStage p))
        let s := if tableRange t then s.setRange p t.dramBase.toNat t.dramLimit.toNat else s
        (s.setFld (Reg.PWR_PART p) 0 7 (x.share + t.share.toNat)).reply r stOk (toBytes p 1 ++ toBytes (p + 1) 1))

/-! PART_DESTROY (R314). -/

/-- The channels of a partition close and are no longer bound. -/
def State.closeChans (s : State) (x : Part) : State :=
  (List.range 256).foldl (fun s c =>
    if x.chans.getLsbD c then (((s.wr (Reg.CHN_CTRL c) 0).wr (Reg.CHN_STATUS c) 0)).setChan c Chan.reset else s) s

/-- The ports of a partition close, with the forwarded flits that wait in them (R263), and its lanes belong to PF0 again. -/
def State.closePorts (s : State) (x : Part) : State :=
  (List.range 96).foldl (fun s n =>
    if x.lanes.getLsbD n && s.bit (Reg.TPL_PORT_CTRL n) 0 then
      let s := if s.timeUp n && s.portIsUp n then s.loseTime 2 n else s
      let s := s.dropForwarded n
      ((s.wr (Reg.TPL_PORT_CTRL n) 0).wr (Reg.TPL_PORT_STATUS n) 0).setPort n { PortSt.reset with downSince := some s.now }
    else s) s

/-- The stores, program stores and itinerary memories of a partition become zero. -/
def State.zeroTiles (s : State) (x : Part) : State :=
  x.tiles.foldl (fun s t =>
    let a := s.storeBase t
    let s := s.unqueue t (a / 8) (2 ^ 20)
    let s : State := { s with
      store := s.store.zero a (2 ^ 23), upsets := s.upsets.filter (fun u => !(decide (a / 8 ≤ u.word) && decide (u.word < a / 8 + 2 ^ 20))) }
    s.setTile t { s.tile t with imem := [], pmem := [], memUpsets := [] }) s

/-- A partition ceases to exist: its sectors and its edge ports hold nothing of its design. -/
def State.endPart (s : State) (p : Nat) (x : Part) : State :=
  let s := s.showOwner p x false
  let s := ((s.wr (Reg.DDR_PART_RANGE p) 0).wr (Reg.DDR_PART_LIMIT p) 0).wr (Reg.PWR_PART p) 0
  let s := s.setBit (Reg.MBX_ID (p + 1)) 12 false
  { s with
    sects := s.sects.filter (fun e => !(x.cols.contains (e.1 % 16))), bands := s.bands.filter (fun e => !(x.cols.contains e.1))
    edges := s.edges.filter (fun e => !(x.cols.any (fun c => (colEdges c).contains e.1)))
    parts := SMap.erase s.parts p, retired := SMap.set s.retired p ((x.gen, s.now) :: (SMap.get s.retired [] p).filter (fun r => r.1 != x.gen)) }

/-- PART_DESTROY (R209, R210, R314): its five steps in order. -/
def execPartDestroy (r : Req) (wipe : Bool) (s : State) : Host.Outcome State Fault Refusal :=
  let p := r.partition
  s.runCmd r 0x11 .owner (s.part p).isSome true (fun s =>
    match s.part p with
    | none => s.reply r stDenied []
    | some x =>
      if !(s.isStopped p) then s.reply r stBadState []
      else
        let s := (s.reverseRelease p false).clearSectors x.sectors
        let s := ((s.closeChans x).closePorts x).zeroTiles x
        let s := if wipe then (match s.rangeOf p with | some g => s.wipeRange g.1 g.2 | none => s) else s
        (s.endPart p x).reply r stOk [])

/-! PART_RESET (R318, R365). -/

/-- Steps 4 to 7 begin at once. -/
def State.resetNow (s : State) (q : Req) (p : Nat) (resume : Bool) : State :=
  let s := (s.wake p).updPart p (fun x => { x with
    recov := { RecSt.none with
      step := 4, resume := resume, cmd := some q, ms := s.msCount, time := s.now
      attempt := s.fld (Reg.PART_BEAT_STATUS p) 16 8 } })
  s.setPstate p psRecovering

/-- An armed START or STOP is cleared, and the partition is STOPPED (R318). -/
def State.clearStart (s : State) (p : Nat) : State :=
  ((s.setBit (Reg.PART_START_AT_HI p) 31 false).setBit (Reg.PART_STOP_AT_HI p) 31 false).setPstate p psStopped

/-- PART_RESET (R318, R365): one that finds another PART_RESET waiting for the milestone is refused. -/
def execPartReset (r : Req) (resume : Bool) (s : State) : Host.Outcome State Fault Refusal :=
  let p := r.partition
  s.runCmd r 0x12 .own true true (fun s =>
    match s.part p with
    | none => s.reply r stDenied []
    | some x =>
      let st := s.pstate p
      if st = psStopped then .next ((s.resetNow r p resume).waits r .reset)
      else if st = psArmed then .next (((s.clearStart p).resetNow r p resume).waits r .reset)
      else if st = psRunning ∧ x.resetReq.isNone then
        .next ((s.setPart p { x with resetReq := some (r, resume) }).waits r .reset)
      else s.reply r stBadState [])

end Sys2Proof.Machine
end

