-- ==== Sys2Proof/Machine/TimeEvents.lean ====
section
/-!
DEFINITION. The time unit (R319 to R331): Route time, steps and slews, references, exchanges, the time pins and the PTM pair.
-/
namespace Sys2Proof.Machine

/-! Route time (R319, R323). Offsets are held in units of 2^-16 ps. -/

/-- The states of R321. -/
def tsFree : Nat := 0
def tsAcquire : Nat := 1
def tsLocked : Nat := 2
def tsHoldover : Nat := 3

/-- The state of the time unit. -/
def State.timeState (s : State) : Nat := s.fld Reg.TIME_STATUS 0 3

/-- The state with the time unit's state replaced. -/
def State.setTimeState (s : State) (v : Nat) : State := s.setFld Reg.TIME_STATUS 0 3 v

/-- The slew that a nanosecond of Route time may take, in 2^-16 ns: `slew_ppm` on average (R323; log entry 23). -/
def State.slewStep (s : State) : Nat :=
  let ppm := s.fld Reg.TIME_LIMITS 16 8
  (s.now + 1) * ppm * 65536 / 1000000 - s.now * ppm * 65536 / 1000000

/-- Route time goes on by 1 ns of the oscillator, with what it slews (R319, R323). -/
def State.idle (s : State) : State :=
  if s.timeRuns then
    let u := s.timeUnit
    let m := s.slewStep
    let d : Int := max (-(m : Int)) (min (m : Int) u.slew)
    { s with time := ((s.time : Int) + 65536 + d).toNat % 2 ^ 80, timeUnit := { u with slew := u.slew - d } }
  else s

/-- The milestone number that R29 gives for the present Route time. -/
def State.msOfTime (s : State) : Nat :=
  let base : Nat := s.rd2 Reg.TIME_MS_BASE_N_LO Reg.TIME_MS_BASE_N_HI % 2 ^ 48
  let t : Nat := s.rd2 Reg.TIME_MS_BASE_T_LO Reg.TIME_MS_BASE_T_HI
  let P := max 1 s.periodNs
  (((base : Int) + ((s.now : Int) - (t : Int)) / (P : Int)) % (2 ^ 48 : Int)).toNat

/-- An armed change is cleared by a step, with its STATE notice (R305, R323). -/
def State.clearArm (s : State) (reg p : Nat) : State :=
  if s.bit reg 31 then
    let st := if p < 16 then s.pstate p else 0
    let gen := match s.part p with | some x => x.gen | none => 0
    (s.setBit reg 31 false).notifyAll (if p < 16 then [p + 1, 0] else [0]) 1
      (stateNoticeBody p st st gen (if p < 16 then s.step48 p else 0))
  else s

/-- Every armed START, STOP, SET_PERIOD and epoch change is cleared (R323). -/
def State.clearArms (s : State) : State :=
  let s := (List.range 16).foldl (fun s p => (s.clearArm (Reg.PART_START_AT_HI p) p).clearArm (Reg.PART_STOP_AT_HI p) p) s
  { ((s.clearArm Reg.TIME_MS_CHANGE_HI 0xFF).clearArm Reg.TPL_EPOCH_NEXT 0xFF) with owed := [] }

/-- A number of 2^-16 ps in whole ps: the rounding is open (log entry 24). -/
def State.wholePs (s : State) (v : Int) : Int := if v % 65536 = 0 then v / 65536 else v / 65536 + (Config.freeBool s.free).toNat

/-- An offset φ (2^-16 ps) is corrected (R323): a step where it is 1 µs or more and every partition is STOPPED, a slew otherwise. -/
def State.correct (s : State) (phi : Int) : State :=
  let s := s.wr Reg.TIME_OFFSET (BitVec.ofInt 32 (s.wholePs phi))
  let s := (s.stepFree.setTrim (Config.freeWord s.free)).stepFree
  if phi.natAbs < 1000000 * 65536 ∨ s.parts.any (fun p => s.pstate p.1 != psStopped) then
    { s with timeUnit := { s.timeUnit with slew := -(phi / 1000) } }
  else
    let s := { s with
      time := (((s.time : Int) - phi / 1000) % (2 ^ 80 : Int)).toNat, timeUnit := { s.timeUnit with slew := 0 } }
    let s := s.wr2 Reg.TIME_MS_COUNT_LO Reg.TIME_MS_COUNT_HI s.msOfTime
    s.clearArms

/-- A good or a bad second or exchange is counted; eight good ones in a row lock (R321). -/
def State.countGood (s : State) (good : Bool) : State :=
  let n := if good then s.timeUnit.good + 1 else 0
  let s := { s with timeUnit := { s.timeUnit with good := n } }
  if s.timeState = tsAcquire ∧ 8 ≤ n then s.lockTime else s

/-- TIME_NOW_LO_READ (R319): the read latches the high word and the fraction. -/
def execTimeNowLoRead (s : State) : Host.Outcome State Fault Refusal :=
  .next ((s.wr2 Reg.TIME_NOW_LO Reg.TIME_NOW_HI s.now).wr Reg.TIME_NOW_FRAC (BitVec.ofNat 32 (s.time % 65536)))

/-! The references of a head (R320 to R322). -/

/-- REF_LOST (R322, R331). -/
def execRefLost (pps : Bool) (s : State) : Host.Outcome State Fault Refusal :=
  let s := s.setBit Reg.TIME_STATUS (if pps then 6 else 5) false
  if s.usesRef pps && (s.timeState == tsLocked || s.timeState == tsAcquire) then
    let s := s.logRec 8 0 0x0A01 sevContained none (toBytes pps.toNat 1 ++ toBytes 0xFF 1)
    .next (s.loseTime pps.toNat 0xFF)
  else .next s

/-- REF_RETURN (R322): a fenced device stays in holdover (R267). -/
def execRefReturn (pps : Bool) (s : State) : Host.Outcome State Fault Refusal :=
  let s := s.setBit Reg.TIME_STATUS (if pps then 6 else 5) true
  .next (if s.usesRef pps && !s.fenced then s.timeReturns else s)

/-- The next instant (2^-16 ns) that lies a phase in ps after a multiple of 10^9 ns (R322). -/
def State.ppsTime (s : State) (phase : Int) : Nat := s.time + ((phase * 65536 / 1000 - s.time) % (65536000000000 : Int)).toNat

/-- PPS_IN_EDGE (R321 to R323): an edge at the next Route time that lies a phase in ps after a multiple of 10^9 ns. It is a correction in ACQUIRE
and LOCKED alone (a unit in HOLDOVER runs at its averaged trim), not while the device is fenced (R267), and nothing is sampled while `POR_N` is
low. -/
def execPpsInEdge (phase : Int) (s : State) : Host.Outcome State Fault Refusal :=
  if s.boot.por then .next s
  else
    let seen := s.bit Reg.TIME_STATUS 6
    let s := s.setBit Reg.TIME_STATUS 6 true
    let s := if s.timeRuns then s.timeTo (s.ppsTime phase) else s
    if s.usesRef true && s.timeRuns && !s.fenced then
      let s := if seen then s else s.timeReturns
      if s.timeState = tsAcquire ∨ s.timeState = tsLocked then
        .next ((s.countGood (decide (phase.natAbs ≤ 2000))).correct (phase * 65536))
      else .next s
    else .next s

/-- REFIN_FREQUENCY_LOCK (R321): the lock condition of a head that does not use `PPS_IN`. -/
def execRefinFrequencyLock (s : State) : Host.Outcome State Fault Refusal :=
  if s.usesRef false && !(s.usesRef true) && s.timeState == tsAcquire && !s.fenced then .next s.lockTime else .next s

/-! Exchanges (R324 to R327). -/

/-- TIME_EXCHANGE_SEND (R326, R327). -/
def execTimeExchangeSend (s : State) : Host.Outcome State Fault Refusal :=
  if s.isHead || s.fenced || !s.timeRuns || !(s.portIsUp s.upPort) then .next s
  else
    let u := s.timeUnit
    let hops := BitVec.ofNat 8 (s.fld Reg.TIME_EXCH_CTRL 24 8)
    let ep := s.bit Reg.TIME_EXCH_EP 16
    let flags := (s.timeState == tsHoldover).toNat + 4 * (s.timeState == tsLocked).toNat
    let m : TimeMsg := {
      hops := hops, flags := BitVec.ofNat 8 flags, seq := BitVec.ofNat 8 u.seqNo, ta := 0, taFrac := 0, tb := 0, tbFrac := 0
      corr := 0, reqCorr := 0, dist := 0, hops0 := hops
      dstEp := BitVec.ofNat 16 (if ep then s.fld Reg.TIME_EXCH_EP 0 16 else 0xFFFF)
      srcEp := BitVec.ofNat 16 (if ep then s.fld Reg.TPL_EP_ID 0 16 else 0xFFFF) }
    let s := { s with timeUnit := { u with seqNo := (u.seqNo + 1) % 256 } }
    .next (s.portSend s.upPort ftTime 1 (timeBytes 0 m) none)

/-- EXCHANGE_LOST (R326): the oldest request that is out has no answer. -/
def execExchangeLost (s : State) : Host.Outcome State Fault Refusal :=
  match s.timeUnit.sent with
  | [] => .next s
  | _ :: rest => .next (State.exchangeLost { s with timeUnit := { s.timeUnit with sent := rest } })

/-- Whether a TIME flit with hops 0 is for this device (R327). -/
def State.timeForMe (s : State) (m : TimeMsg) : Bool := m.dstEp == 0xFFFF || m.dstEp.toNat == s.fld Reg.TPL_EP_ID 0 16

/-- A TIME flit reaches a port at a Route time: the port layer, the epoch check and its buffer (R251, R252, R266); one with hops
goes on through the through-port (R327). Whether this device takes it. -/
def State.timeArrive (s : State) (port kind : Nat) (h : FlitHdr) (crc : Bool) (m : TimeMsg) (now : Nat) : Bool × State :=
  let s := s.timeTo now
  let (taken, s') := s.flitAccept port ftTime h crc (timeBytes kind m)
  let (ok, s') := if taken then s'.epochCheck port h.epoch.toNat else (false, s')
  if ok && m.hops != 0 then
    match s'.thruPort port with
    | some q =>
      let y := s'.port q
      let f : TxFlit := ⟨ftTime, h.vc.toNat, h.epoch.toNat, timeBytes kind { m with hops := m.hops - 1 }, some port, now, true⟩
      (false, s'.setPort q { y with waiting := SMap.set y.waiting h.vc.toNat (SMap.get y.waiting [] h.vc.toNat ++ [f]) })
    | none => (false, (s'.freeIfTaken taken port h).hopDrop port)
  else (ok && s'.timeForMe m, s'.freeIfTaken taken port h)

/-- DELAY_REQ (R325 to R327, R331): forwarded, or answered out of its port. -/
def execDelayReq (port : Nat) (h : FlitHdr) (crc : Bool) (m : TimeMsg) (now : Nat) (s : State) : Host.Outcome State Fault Refusal :=
  let (mine, s) := s.timeArrive port 0 h crc m now
  if mine then
    let st := s.timeState
    let flags := (st == tsHoldover).toNat + 2 * s.isHead.toNat + 4 * (st == tsLocked).toNat
    let r : TimeMsg := {
      hops := m.hops0, flags := BitVec.ofNat 8 flags, seq := m.seq
      ta := BitVec.ofNat 64 (now / 65536), taFrac := BitVec.ofNat 16 now, tb := 0, tbFrac := 0
      corr := 0, reqCorr := m.corr, dist := BitVec.ofNat 8 (if s.isHead then 0 else s.fld Reg.TIME_STATUS 8 8), hops0 := m.hops0
      dstEp := m.srcEp, srcEp := if m.srcEp = 0xFFFF then 0xFFFF else BitVec.ofNat 16 (s.fld Reg.TPL_EP_ID 0 16) }
    .next (s.portSend port ftTime 1 (timeBytes 1 r) none)
  else .next s

/-- A follower takes the four times of an exchange (R324, R326): t1 to t4 in 2^-16 ns. -/
def State.exchange (s : State) (m : TimeMsg) (t1 t4 : Nat) : State :=
  let t2 : Int := m.ta.toNat * 65536 + m.taFrac.toNat
  let t3 : Int := m.tb.toNat * 65536 + m.tbFrac.toNat
  let c1 : Int := m.reqCorr.toNat
  let c2 : Int := m.corr.toNat
  let a : Int := (s.rd Reg.TIME_ASYM).toInt
  let delay := ((t2 - t1) + ((t4 : Int) - t3) - c1 - c2) * 1000 / 2
  let phi := ((((t4 : Int) - t3) - (t2 - t1) - c2 + c1) * 1000 + a * 65536) / 2
  let s := (s.wr Reg.TIME_DELAY (BitVec.ofInt 32 (s.wholePs delay))).stepFree
  let s := s.setFld Reg.TIME_STATUS 8 8 (min 255 (m.dist.toNat + 1))
  let s := s.setBit Reg.TIME_STATUS 4 (m.flags.getLsbD 0)
  let s := { s with timeUnit := { s.timeUnit with lost := 0 } }
  let s := s.timeReturns.countGood (decide (phi.natAbs < 2000 * 65536))
  let far := decide (65536000 * s.fld Reg.TIME_LIMITS 0 16 < phi.natAbs)
  let runs := s.parts.any (fun p => s.pstate p.1 == psRunning)
  let s := if far && runs && !s.timeUnit.excursion then
      (s.logRec 8 0 0x0A03 sevContained none (s.openDetail 0x0A03)).stepFree
    else s
  let s := { s with timeUnit := { s.timeUnit with excursion := far && (runs || s.timeUnit.excursion) } }
  s.correct phi

/-- DELAY_RESP (R323 to R327): forwarded, or the answer to a request of this follower; a replayed one, and one that arrives more than
4 µs after `t1`, counts as lost. -/
def execDelayResp (port : Nat) (h : FlitHdr) (crc : Bool) (m : TimeMsg) (now : Nat) (replayed : Bool) (s : State) :
    Host.Outcome State Fault Refusal :=
  let (mine, s) := s.timeArrive port 1 h crc m now
  if mine && !s.isHead && port == s.upPort then
    match s.timeUnit.sent.find? (fun x => x.1 == m.seq.toNat) with
    | some x =>
      let s := { s with timeUnit := { s.timeUnit with sent := s.timeUnit.sent.filter (fun y => y != x) } }
      .next (if replayed || decide (x.2 + 4000 * 65536 < now) then s.exchangeLost else s.exchange m x.2 now)
    | none => .next s
  else .next s

/-! The levels of the time pins (R329), and PTM (R330). -/

/-- `PPS_OUT`: high for 100 µs from each multiple of 10^9 ns. -/
def State.ppsOut (s : State) : Bool := s.pinOn (s.bit Reg.TIME_CTRL 4) && decide (s.now % 1000000000 < 100000)
/-- `CLK10_OUT`: 10 MHz, rising at multiples of 100 ns. -/
def State.clk10Out (s : State) : Bool := s.pinOn (s.bit Reg.TIME_CTRL 5) && decide (s.now % 100 < 50)
/-- `MS_OUT`: high for 32 ns from each milestone. -/
def State.msOut (s : State) : Bool :=
  s.pinOn (s.bit Reg.TIME_MS_CTRL 1) && s.bit Reg.TIME_MS_CTRL 0 && decide ((s.now + 2 ^ 64 - s.msTime s.msCount % 2 ^ 64) % 2 ^ 64 < 32)

/-- PPS_OUT_PULSE (R329): Route time reaches the next multiple of 10^9 ns. -/
def execPpsOutPulse (s : State) : Host.Outcome State Fault Refusal :=
  if s.timeRuns then
    let t := (s.now + 999999999) / 1000000000 * 1000000000
    let s := s.timeTo (t * 65536)
    .next (if s.pinOn (s.bit Reg.TIME_CTRL 4) then s.emit (.ppsOut (t % 2 ^ 64)) else s)
  else .next s

/-- PTM_EXCHANGE (R330): Route time is captured as the request leaves. -/
def execPtmExchange (s : State) : Host.Outcome State Fault Refusal :=
  if s.timeRuns ∧ s.fld Reg.TIME_PTM_CTRL 0 8 ≠ 0 then
    .next { s with timeUnit := { s.timeUnit with ptmAt := some s.time } }
  else .next s

/-- PTM_RESPONSE (R330): the pair is stored; the host time is corrected by half the round trip. -/
def execPtmResponse (hostTime : BitVec 64) (rtt : Nat) (s : State) : Host.Outcome State Fault Refusal :=
  match s.timeUnit.ptmAt with
  | some t =>
    let s := { s with timeUnit := { s.timeUnit with ptmAt := none, ptmFrac := t % 65536 } }
    let host := (hostTime.toNat + 2 ^ 64 - rtt / 2 % 2 ^ 64) % 2 ^ 64
    let s := (s.wr2 Reg.TIME_PTM_HOST_LO Reg.TIME_PTM_HOST_HI host).wr2 Reg.TIME_PTM_ROUTE_LO Reg.TIME_PTM_ROUTE_HI (t / 65536)
    .next (s.setBit Reg.TIME_PTM_CTRL 31 true)
  | none => .next s

end Sys2Proof.Machine
end

