-- ==== Sys2Proof/Machine/RunCommands.lean ====
section
/-!
DEFINITION. START, STOP, SET_PERIOD (R32, R34, R53, R318), ROUTE_EPOCH (R265, R268) and TIME_CONFIG (R320 to R331).
-/
namespace Sys2Proof.Machine

/-- How far a milestone lies ahead of the current one (R31). -/
def State.msDistance (s : State) (n : Nat) : Nat := (n + 2 ^ 48 - s.msCount) % 2 ^ 48

/-- Whether a milestone lies at least two ahead (R32, R265). -/
def State.twoAhead (s : State) (n : Nat) : Bool := decide (2 ≤ s.msDistance n) && msAhead n s.msCount

/-- Whether a START of a partition waits for its rung's exit. -/
def State.startWaits (s : State) (p : Nat) : Bool :=
  s.mbx.any (fun m => match m.2.running with
    | some ⟨_, _, some q, .exit _ _ _, _⟩ => q.partition == p
    | _ => false)

/-- Whether a follower has not acquired the time of its head (R324). -/
def State.timeFar (s : State) : Bool :=
  !s.isHead && s.timeState == tsAcquire && decide (1000 * 65536 ≤ s.timeUnit.slew.natAbs)

/-- Whether a domain of the partition's sectors is off after a failed ramp (R344). -/
def State.sectorOff (s : State) (x : Part) : Bool := (List.range 32).any (fun k => x.sectors.testBit k && s.pwr.off.contains (144 + k))

/-- A START or SET_PERIOD whose raises or rung are not at hand when it begins waits for them, but for one whose milestone comes within
one period: that one times out at once (R53). -/
def State.waitRaises (s : State) (r : Req) (ms : Nat) (w : CmdWait) : Host.Outcome State Fault Refusal :=
  let s := s.waits r w
  .next (if msAhead ms ((s.msCount + 1) % 2 ^ 48) then s else s.complete r.fn stTimeout [])

/-- START (R34, R53, R78, R229, R309, R318, R324, R334, R344, R346): it is armed at once where no floor rises and its partition does not
rest in a rung; otherwise it waits for the acknowledgements and for the exit. -/
def execStart (r : Req) (ms step : BitVec 48) (s : State) : Host.Outcome State Fault Refusal :=
  let p := r.partition
  let n := ms.toNat
  s.runCmd r 0x30 .own true false (fun s =>
    match s.part p with
    | none => s.reply r stDenied []
    | some x =>
      if !(s.isStopped p) || !(msAhead n s.msCount) || s.bit (Reg.PART_STOP_AT_HI p) 31 || s.timeFar || s.startWaits p ||
          s.devRung != 0 || s.pwr.phase != 0 || s.bit Reg.PWR_STATUS 8 then s.reply r stBadState []
      else if s.lostColumn x then s.reply r stNoResource []
      else if s.ueSectors x.sectors || s.sectorOff x then s.reply r stFaulted []
      else
        let floors := s.floorsFor p
        let held := s.capped floors
        let s := s.startRaises floors
        if x.rung = 0 ∧ s.raised floors then (s.armStart p n step.toNat).reply r stOk (toBytes n 6)
        else (s.wake p).waitRaises r n (.exit n step.toNat held))

/-- STOP (R34, R318): a second STOP leaves the earlier milestone. -/
def execStop (r : Req) (ms : BitVec 48) (next : Bool) (s : State) : Host.Outcome State Fault Refusal :=
  let p := r.partition
  s.runCmd r 0x31 .own true false (fun s =>
    let now := s.msCount
    let st := s.pstate p
    if st = psStopped then s.reply r stOk (toBytes now 6)
    else if st = psArmed then (s.clearStart p).reply r stOk (toBytes now 6)
    else if st = psRunning then
      let want := if next || !(msAhead ms.toNat now) then (now + 1) % 2 ^ 48 else ms.toNat
      let held := s.rd2 (Reg.PART_STOP_AT_LO p) (Reg.PART_STOP_AT_HI p) % 2 ^ 48
      let armed := s.bit (Reg.PART_STOP_AT_HI p) 31
      let at_ := if armed && decide (s.msDistance held ≤ s.msDistance want) then held else want
      ((s.wr2 (Reg.PART_STOP_AT_LO p) (Reg.PART_STOP_AT_HI p) (at_ + 2 ^ 63)).updPart p (fun x => { x with hushStop := [] })).reply r stOk (toBytes at_ 6)
    else (s.updPart p (fun x => { x with recov := { x.recov with stop := true } })).reply r stOk (toBytes now 6))

/-- SET_PERIOD (R32, R53): the period is held between 63 and 8,000 units (R31). It is armed at once where no floor rises, and otherwise
once the raises are acknowledged. -/
def execSetPeriod (r : Req) (period : BitVec 16) (ms : BitVec 48) (s : State) : Host.Outcome State Fault Refusal :=
  s.runCmd r 0x32 .owner true false (fun s =>
    let n := ms.toNat
    if !(s.twoAhead n) then s.reply r stBadState []
    else
      let u := max 63 (min 8000 period.toNat)
      let floors := s.floorsAt (8 * u)
      let held := s.capped floors
      let s := s.startRaises floors
      if s.raised floors then (s.armPeriod r n u).reply r stOk (periodResult n)
      else s.waitRaises r n (.period n u held))

/-! ROUTE_EPOCH (R265, R268). -/

/-- An epoch change is armed. -/
def State.armEpoch (s : State) (e n : Nat) (rejoin : Bool) : State :=
  let s := s.wr2 Reg.TPL_EPOCH_AT_LO Reg.TPL_EPOCH_AT_HI n
  { s.wr Reg.TPL_EPOCH_NEXT (BitVec.ofNat 32 (e + 2 ^ 31)) with rejoin := rejoin }

/-- ROUTE_EPOCH (R265): the epoch must rise, and its milestone lie two ahead. -/
def execRouteEpoch (r : Req) (epoch : BitVec 16) (ms : BitVec 48) (s : State) : Host.Outcome State Fault Refusal :=
  s.runCmd r 0x42 .owner true true (fun s =>
    if epoch.toNat ≤ s.fld Reg.TPL_EPOCH 0 16 ∨ !(s.twoAhead ms.toNat) then s.reply r stBadState []
    else ((s.armEpoch epoch.toNat ms.toNat false).owe r false).reply r stOk (toBytes epoch.toNat 2))

/-- ROUTE_EPOCH with rejoin (R268): on a fenced device whose partitions are STOPPED and were reset since the fence. -/
def execRouteEpochRejoin (r : Req) (epoch : BitVec 16) (ms : BitVec 48) (s : State) : Host.Outcome State Fault Refusal :=
  s.runCmd r 0x42 .owner true true (fun s =>
    if !s.fenced || s.parts.any (fun p => !(s.isStopped p.1) || !p.2.fenceReset) ||
        decide (epoch.toNat < s.fld Reg.TPL_FENCE 16 16) || !(s.twoAhead ms.toNat) then s.reply r stBadState []
    else ((s.armEpoch epoch.toNat ms.toNat true).owe r false).reply r stOk (toBytes epoch.toNat 2))

/-! TIME_CONFIG (R320 to R331). -/

/-- The state of the time unit after its role or its source was set (R321, R331): LOCKED stands where neither changed. A head is at distance
0, with no upstream in holdover (R325, R326). -/
def State.timeConfigured (s : State) (changed : Bool) : State :=
  if !changed then s
  else
    let s : State := { s with timeUnit := { s.timeUnit with good := 0, lost := 0, sent := [] } }
    let s := if s.isHead then (s.setFld Reg.TIME_STATUS 8 8 0).setBit Reg.TIME_STATUS 4 false else s
    if s.timeState = tsLocked ∨ s.sourceSeen then s.setTimeState tsAcquire else s.setTimeState tsFree

/-- TIME_CONFIG (R308, R320, R327, R331): reserved selections are an incorrect argument (R310). -/
def execTimeConfig (r : Req) (role ref pins port : BitVec 8) (endpoint : BitVec 16) (epEn : Bool) (s : State) :
    Host.Outcome State Fault Refusal :=
  s.runCmd r 0x60 .owner true false (fun s =>
    if 1 < role.toNat ∨ 2 < ref.toNat ∨ 15 < pins.toNat ∨ 95 < port.toNat then .fault r.wrong
    else
      let old := s.rd Reg.TIME_CTRL
      let oldPort := s.upPort
      let ctrl := role.toNat + ref.toNat * 2 + (pins.getLsbD 0).toNat * 8 + (pins.getLsbD 1).toNat * 16 + (pins.getLsbD 2).toNat * 32
      let s := (s.wr Reg.TIME_CTRL (BitVec.ofNat 32 ctrl)).setBit Reg.TIME_MS_CTRL 1 (pins.getLsbD 3)
      let s := s.setFld Reg.TIME_EXCH_CTRL 16 7 port.toNat
      let s := s.wr Reg.TIME_EXCH_EP (BitVec.ofNat 32 (endpoint.toNat + epEn.toNat * 65536))
      let changed := old.field 0 4 != ctrl % 16 || (role == 1 && oldPort != port.toNat)
      (s.timeConfigured changed).reply r stOk [])

end Sys2Proof.Machine
end

