-- ==== Sys2Proof/Machine/LinkCommands.lean ====
section
/-!
DEFINITION. LINK_CONFIG (R234, R254 to R257, R308, R309) and POWER_STATE (R286, R334, R337 to R339), with what a write of a lane,
port or channel control register does.
-/
namespace Sys2Proof.Machine

/-! What the control registers do (R243, R254, R256). -/

/-- A port closes without a record (R338): its replay buffer and credits go, its channels break, its lanes restart. -/
def State.closePort (s : State) (p : Nat) : State :=
  if s.portIsUp p then
    let s := s.dropForwarded p
    let s := s.wr (Reg.TPL_PORT_STATUS p) 0
    let s := s.portDead p
    let s := (s.portChans p).foldl (fun s c => s.chanBreak c) s
    let s := (s.portLanes p).foldl (fun s n => s.laneRestart n) s
    if s.timeUp p then s.loseTime 2 p else s
  else s

/-- A lane's control register is written (R243, R254): a lane whose enable or rate changes restarts, and its port goes down. -/
def State.writeLane (s : State) (n : Nat) (v : Word) : State :=
  let old := s.rd (Reg.TPL_LANE_CTRL n)
  let s := s.regStore (Reg.TPL_LANE_CTRL n) v
  let new := s.rd (Reg.TPL_LANE_CTRL n)
  if old &&& 7 = new &&& 7 then s
  else
    let s := match s.lanePort n with | some p => s.portDown p 1 | none => s
    s.laneRestart n

/-- A port's control register is written (R21, R234, R255): a port that is up closes where its enable or width changes. A port is formed only
from lanes that share one owner. DESIGN CHOICE (log entry 118): a value whose width does not align with the port's first lane forms no port either:
enable and width stay as they are. -/
def State.writePort (s : State) (p : Nat) (v : Word) : State :=
  let v := if v.bit 0 && (p % 2 ^ v.field 1 2 != 0 || !(s.oneOwner p (2 ^ v.field 1 2))) then v &&& ~~~(7 : Word) ||| (s.rd (Reg.TPL_PORT_CTRL p) &&& 7) else v
  let old := s.rd (Reg.TPL_PORT_CTRL p)
  let new := s.rd (Reg.TPL_PORT_CTRL p) &&& ~~~(7 : Word) ||| (v &&& 7)
  let s := if s.regOpen .port p 0 && old != new then s.closePort p else s
  s.regStore (Reg.TPL_PORT_CTRL p) v

/-- A channel's control register is written (R254, R256): enabling it opens the channel, disabling it closes it; a broken one stays
broken. -/
def State.writeChan (s : State) (c : Nat) (v : Word) : State :=
  let old := s.chanOn c
  let s := s.regStore (Reg.CHN_CTRL c) v
  if s.chanOn c = old ∨ s.chanState c = 2 then s
  else (s.wr (Reg.CHN_STATUS c) (if s.chanOn c then 1 else 0)).setChan c Chan.reset

/-! LINK_CONFIG. -/

/-- Whether a column belongs to a partition. -/
def Part.holds (x : Part) (c : Nat) : Bool := decide (x.firstCol ≤ c ∧ c ≤ x.lastCol)

/-- Whether the lanes of a run belong to a partition (R234). -/
def Part.ownsLanes (x : Part) (first n : Nat) : Bool := (List.range n).all (fun i => decide (first + i < 96) && x.lanes.getLsbD (first + i))

/-- Whether what a LINK_CONFIG names belongs to the partition (R234, R256, R257, R309). -/
def Part.linkNamed (x : Part) (object index : Nat) (img0 img2 : Word) : Bool :=
  if object = 0 then x.ownsLanes index 1
  else if object = 1 then
    x.ownsLanes index (2 ^ img0.field 1 2) && (!(img0.bit 15) || x.ownsLanes (img0.field 8 7) 1)
  else
    x.chans.getLsbD index && x.ownsLanes (img0.field 4 7) 1 && x.holds (edgeCol (img2.field 0 7)) && decide (img2.field 0 7 < 48) &&
    x.holds (img2.field 8 7 / 8)

/-- A broken channel reopens once its port is up and the partition's tiles were reset (R168, R254, R256). -/
def State.reopenChan (s : State) (c : Nat) : State :=
  if s.chanOn c ∧ s.chanState c = 2 ∧ s.portIsUp (s.chanPort c) ∧ (s.chan c).unreset = [] then
    (s.wr (Reg.CHN_STATUS c) 1).setChan c Chan.reset
  else s

/-- The registers of a channel are written; firmware writes the owner (R256). -/
def State.configChan (s : State) (p c : Nat) (img0 img1 img2 : Word) (reopen : Bool) : State :=
  let s := (s.regStore (Reg.CHN_REMOTE c) img1).regStore (Reg.CHN_LOCAL c) img2
  let s := s.writeChan c (img0.setField 16 4 (if img0.bit 0 then p else 0))
  if reopen then s.reopenChan c else s

/-- Whether an image of a LINK_CONFIG cannot be (R16, R233, R255, R262, R310): reserved bits, the reserved rate, a port that its width does
not align. -/
def State.linkBad (s : State) (object index : Nat) (img0 img1 img2 : Word) : Bool :=
  if object = 0 then s.regBad (Reg.TPL_LANE_CTRL index) img0 || img0.field 1 2 == 3 || s.regBad (Reg.TPL_LANE_THRESH index) img1
  else if object = 1 then s.regBad (Reg.TPL_PORT_CTRL index) img0 || index % 2 ^ img0.field 1 2 != 0
  else if object = 2 then
    s.regBad (Reg.CHN_CTRL index) img0 || s.regBad (Reg.CHN_LOCAL index) img2 ||
    (img0.bit 0 && (img0.field 2 2 == 3 || img2.field 20 12 == 0))
  else true

/-- LINK_CONFIG (R234, R254 to R257, R308, R309). -/
def execLinkConfig (r : Req) (object index : BitVec 8) (reopen : Bool) (img0 img1 img2 : Word) (s : State) :
    Host.Outcome State Fault Refusal :=
  let p := r.partition
  let i := index.toNat
  let named : Bool := match s.part p with | some x => x.linkNamed object.toNat i img0 img2 | none => false
  s.runCmd r 0x40 .own named false (fun s =>
    if !(s.isStopped p) then s.reply r stBadState []
    else if s.linkBad object.toNat i img0 img1 img2 then .fault r.wrong
    else if object = 0 then ((s.regStore (Reg.TPL_LANE_THRESH i) img1).writeLane i img0).reply r stOk []
    else if object = 1 then (s.writePort i img0).reply r stOk []
    else (s.configChan p i img0 img1 img2 reopen).reply r stOk [])

/-! POWER_STATE. -/

/-- Whether a range touches a channel (R275). -/
def State.rangeTouches (s : State) (p ch : Nat) : Bool :=
  match s.rangeOf p with
  | some g =>
    if s.bit Reg.DDR_MAP_CTRL 0 then runsMeet g.1 g.2 (ch / 4 * 2 ^ 38) ((ch / 4 + 1) * 2 ^ 38)
    else runsMeet g.1 g.2 (ch * 2 ^ 36) ((ch + 1) * 2 ^ 36)
  | none => false

/-- Whether a hold mask names a channel that the range of an ARMED or RUNNING partition touches (R339). -/
def State.holdRefused (s : State) (hold : Nat) : Bool :=
  s.parts.any (fun p => !(s.unlocked (some p.1)) && (List.range 8).any (fun ch => hold.testBit ch && s.rangeTouches p.1 ch))

/-- A lane goes to a link state (R338): 1 Up, 2 Quiet, 3 Off. -/
def State.laneTo (s : State) (n link : Nat) : State :=
  let st := s.laneState n
  if link = 1 then
    if st = 5 then s.setLaneState n 4 else if st = 0 then s.laneRestart n else s
  else if link = 2 then (if st = 4 then s.setLaneState n 5 else s)
  else if link = 3 then
    let s := match s.lanePort n with | some p => s.closePort p | none => s
    (s.laneRestart n).wr (Reg.TPL_LANE_STATUS n) 0
  else s

/-- The lanes of a mask go to a link state. -/
def State.lanesTo (s : State) (lanes : BitVec 96) (link : Nat) : State :=
  (List.range 96).foldl (fun s n => if lanes.getLsbD n then s.laneTo n link else s) s

/-- PF0's hold mask: the channels in it are held, the others released (R286, R338). -/
def State.holdMask (s : State) (q : Req) (hold : Nat) : State :=
  if q.fn = 0 then (List.range 8).foldl (fun s ch => s.holdChannel ch (hold.testBit ch)) s else s

/-- The rung that a POWER_STATE of partition scope asks for (R334): a STOPPED partition's tiles and sectors enter it at once. -/
def State.partRung (s : State) (p rung : Nat) : State :=
  match s.part p with
  | none => s
  | some x =>
    if rung = 0 then s.wake p
    else if x.rung = rung ∧ x.wakeAt.isNone then s
    else (s.enterRung p rung).updPart p (fun x => { x with wakeAt := none })

/-- What POWER_STATE asks for besides the rung, and the wait for it (R338, R339). -/
def State.powerAsk (s : State) (q : Req) (scope rung : Nat) (lanes : BitVec 96) (link hold : Nat) : Host.Outcome State Fault Refusal :=
  let s := (s.lanesTo lanes link).holdMask q hold
  .next ((s.waits q (.power scope rung lanes link (if q.fn = 0 then hold else 0))).powerCheck q.fn)

/-- POWER_STATE, partition scope (R334, R336, R338, R339). -/
def execPowerState (r : Req) (rung : BitVec 8) (lanes : BitVec 96) (link hold : BitVec 8) (s : State) :
    Host.Outcome State Fault Refusal :=
  let p := r.partition
  let named : Bool := (match s.part p with | some x => lanes &&& ~~~x.lanes == 0 | none => false) && (r.fn == 0 || hold == 0)
  s.runCmd r 0x50 .own named false (fun s =>
    if 4 < rung.toNat ∨ 3 < link.toNat then .fault r.wrong
    else if rung = 4 then s.reply r stUnsupported []
    else if (rung != 0 && (!(s.isStopped p) || s.startWaits p)) || s.holdRefused hold.toNat then s.reply r stBadState []
    else (s.partRung p rung.toNat).powerAsk r p rung.toNat lanes link.toNat hold.toNat)

/-- POWER_STATE, device scope (R334, R337 to R339). -/
def execPowerStateDevice (r : Req) (rung : BitVec 8) (lanes : BitVec 96) (link hold : BitVec 8) (s : State) :
    Host.Outcome State Fault Refusal :=
  let named := lanes &&& s.heldLanes 16 == 0
  s.runCmd r 0x50 .owner named false (fun s =>
    if 4 < rung.toNat ∨ 3 < link.toNat then .fault r.wrong
    else if (rung != 0 && s.parts.any (fun x => !(s.isStopped x.1) || s.startWaits x.1)) || s.holdRefused hold.toNat then
      s.reply r stBadState []
    else
      let s := if rung = 0 then s.devWake else s.devEnter rung.toNat
      s.powerAsk r 16 rung.toNat lanes link.toNat hold.toNat)

end Sys2Proof.Machine
end

