-- ==== Sys2Proof/Machine/RegAccess.lean ====
section
/-!
DEFINITION. Writes of registers by firmware (R15, R16): the registers that have a command of their own (R31, R35, R38, R192, R193,
R265), and REGISTER_WRITE, which does the same at their addresses (log entry 46).
-/
namespace Sys2Proof.Machine

/-- The fault of a write that meets a reserved bit (R6, R16): in the scope of its writer, which for a register of BAR0 is the function
whose register it is, and for a register of the management map the device. -/
def reservedFault (a : Nat) : Fault :=
  if 0x100000000 ≤ a ∧ 0 < (a - 0x100000000) / 0x4000 then .unpredictableInPartition 16 else .unpredictableInDevice 16

/-- A write: unpredictable where the value meets a reserved bit (R16). -/
def State.regWrite (s : State) (a : Nat) (v : Word) (act : State → State) : Host.Outcome State Fault Refusal :=
  if s.regBad a v then .fault (reservedFault a) else .next (act s)

/-! What a write does beyond storing the value. -/

/-- `PRB_k_COUNT_HI` (R192): the whole count is loaded, its low word with what was last written to `PRB_k_COUNT_LO`. -/
def State.writeProbeHi (s : State) (t k : Nat) (v : Word) : State :=
  (s.wr (Reg.PRB_COUNT_HI t k) (v &&& 0xFFFF)).wr (Reg.PRB_COUNT_LO t k) (SMap.get (s.router t).prbLo 0 k)

/-- `PRB_k_COUNT_LO` (R192): the value waits for the write of the high word. -/
def State.writeProbeLo (s : State) (t k : Nat) (v : Word) : State :=
  let r := s.router t
  s.setRouter t { r with prbLo := SMap.set r.prbLo k v }

/-- `PRB_TRq_CTRL` (R193). -/
def State.writeTrace (s : State) (q : Nat) (v : Word) : State :=
  let s := s.regStore (Reg.PRB_TR_CTRL q) v
  if v.bit 0 then s.wr (Reg.PRB_TR_PTR q) 0 else s

/-- `PART_START_AT_HI` (R35): arming a STOPPED partition moves it to ARMED, unless a column of it is unavailable (R78). -/
def State.writeStartHi (s : State) (p : Nat) (v : Word) : State :=
  let lost : Bool := match s.part p with | some x => s.lostColumn x | none => true
  let arms := v.bit 31 && !lost && s.pstate p == psStopped
  let s := s.regStore (Reg.PART_START_AT_HI p) v
  if arms then (s.updPart p (fun x => { x with hushStart := [], hushStop := [] })).setPstate p psArmed else s

/-- `SEQ_BEAT_MIN_SLACK` (R38): 0x0F_FFFF re-arms the minimum. -/
def State.writeMinSlack (s : State) (t : Nat) (v : Word) : State :=
  let s := s.regStore (Reg.SEQ_BEAT_MIN_SLACK t) v
  if v = 0xFFFFF then s.setTile t { s.tile t with ran := false } else s

/-- `SEM_CNTs` (R154, R167): the count takes a write only while its tile is STOPPED or unassigned, and a Broken one is frozen. -/
def State.writeSem (s : State) (t k : Nat) (v : Word) : State :=
  if ((s.tilePart t).isNone ∨ s.tileIn t psStopped) ∧ !(s.semBroken t k) then s.regStore (Reg.SEM_CNT t k) v else s

/-- `TILE_CTRL` (R58, R137): the tile is reset where `tile_reset` is written, that of a column's position without a row too. -/
def State.writeTileCtrl (s : State) (t : Nat) (v : Word) : State :=
  let s := s.regStore (Reg.TILE_CTRL t) v
  if v.bit 1 then s.tileResets [t] else s

/-- `DDR_CTRL` (R278, R293): a channel that loses `enable` answers what is queued; `channel_reset` resets it. -/
def State.writeDdrCtrl (s : State) (ch : Nat) (v : Word) : State :=
  let old := s.bit (Reg.DDR_CTRL ch) 0
  let s := s.setBit (Reg.DDR_CTRL ch) 0 (v.bit 0)
  let s :=
    if s.ddrState ch = 6 then s
    else if old && !(v.bit 0) then (s.refuseQueue ch).setDdrState ch 0
    else if !old && v.bit 0 then s.setDdrState ch (if (s.dch ch).held then 4 else 2)
    else s
  if v.bit 1 then s.channelReset ch else s

/-! The commands. -/

/-- PRB_COUNT_HI_WRITE (R192). -/
def execPrbCountHiWrite (tile : Nat) (k : BitVec 2) (value : Word) (s : State) : Host.Outcome State Fault Refusal :=
  s.regWrite (Reg.PRB_COUNT_HI tile k.toNat) value (fun s => s.writeProbeHi tile k.toNat value)

/-- TRACE_ENABLE (R193). -/
def execTraceEnable (q : BitVec 2) (value : Word) (s : State) : Host.Outcome State Fault Refusal :=
  s.regWrite (Reg.PRB_TR_CTRL q.toNat) value (fun s => s.writeTrace q.toNat value)

/-- PERIOD_CHANGE_ARM (R31, R32): `armed` stays until the change takes effect. -/
def execPeriodChangeArm (value : Word) (s : State) : Host.Outcome State Fault Refusal :=
  s.regWrite Reg.TIME_MS_CHANGE_HI value (fun s => s.regStore Reg.TIME_MS_CHANGE_HI value)

/-- START_ARM (R15, R35): discarded while the partition is ARMED or RUNNING. -/
def execStartArm (partition : BitVec 4) (value : Word) (s : State) : Host.Outcome State Fault Refusal :=
  s.regWrite (Reg.PART_START_AT_HI partition.toNat) value (fun s => s.writeStartHi partition.toNat value)

/-- STOP_ARM (R35). -/
def execStopArm (partition : BitVec 4) (value : Word) (s : State) : Host.Outcome State Fault Refusal :=
  s.regWrite (Reg.PART_STOP_AT_HI partition.toNat) value (fun s => s.regStore (Reg.PART_STOP_AT_HI partition.toNat) value)

/-- EPOCH_ARM (R265): an epoch change that is no rejoin. -/
def execEpochArm (value : Word) (s : State) : Host.Outcome State Fault Refusal :=
  s.regWrite Reg.TPL_EPOCH_NEXT value (fun s => { s.regStore Reg.TPL_EPOCH_NEXT value with rejoin := false })

/-- MIN_SLACK_REARM (R38). -/
def execMinSlackRearm (tile : Nat) (value : Word) (s : State) : Host.Outcome State Fault Refusal :=
  s.regWrite (Reg.SEQ_BEAT_MIN_SLACK tile) value (fun s => s.writeMinSlack tile value)

/-- What a write of a tile block's register does, by its offset. -/
def State.writeTileReg (s : State) (a t o : Nat) (v : Word) : Host.Outcome State Fault Refusal :=
  if o = 0x8 then .next (s.writeTileCtrl t v)
  else if o = 0x110C then .next (s.writeMinSlack t v)
  else if o = 0x101C then execSeqImemData3Write t v s
  else if o = 0x2020 then execTcPmemDataHiWrite t v s
  else if 0x3000 ≤ o ∧ o < 0x3400 ∧ o % 16 = 0 then .next (s.writeSem t ((o - 0x3000) / 16) v)
  else if 0x4100 ≤ o ∧ o < 0x4200 ∧ o % 32 = 0 then .next (s.writeCtxCtrl t ((o - 0x4100) / 32) v)
  else if 0x9100 ≤ o ∧ o < 0x9180 ∧ o % 32 = 12 then .next (s.writeProbeLo t ((o - 0x9100) / 32) v)
  else if 0x9100 ≤ o ∧ o < 0x9180 ∧ o % 32 = 16 then .next (s.writeProbeHi t ((o - 0x9100) / 32) v)
  else .next (s.regStore a v)

/-- What a write of a mailbox register does (R300, R301); one that unmasks or wakes a function sends its pending vectors (R295). -/
def State.writeMbxReg (s : State) (a fn o : Nat) (v : Word) : Host.Outcome State Fault Refusal :=
  if o = 0xC then execMbxEnable fn v s
  else if o = 0x40 then execMbxReqTail fn (v.setWidth 16) s
  else if o = 0x44 then execMbxCplHead fn (v.setWidth 16) s
  else if o = 0x48 then execMbxNtcHead fn (v.setWidth 16) s
  else if 0x1000 ≤ o ∧ o < 0x1800 ∨ o = 0x3004 ∨ o = 0x3008 then .next ((s.regStore a v).releaseVectors fn)
  else if o < 0x40 ∧ s.bit (Reg.MBX_CTRL fn) 0 then .next s
  else .next (s.regStore a v)

/-- A write of register `r` of instance `i` of a block at an address, its value without reserved bits. -/
def State.writeReg (s : State) (b : RegBlock) (i a : Nat) (v : Word) : Host.Outcome State Fault Refusal :=
  let o := (a - b.base) % b.stride
  if b.base = 0x10000000 then s.writeTileReg a i o v
  else if b.base = 0x100000000 then s.writeMbxReg a i o v
  else if b.base = 0x20001000 ∧ o = 0 then .next (s.writeTrace i v)
  else if b.base = 0x73008000 ∧ o = 0x14 then .next (s.writeStartHi i v)
  else if a = Reg.TPL_EPOCH_NEXT then execEpochArm v s
  else if b.base = 0x50000000 ∧ o = 0 then .next (s.writeDdrCtrl i v)
  else if b.base = 0x40000000 ∧ o = 0 then .next (s.writeLane i v)
  else if b.base = 0x48000000 ∧ o = 0 then .next (s.writePort i v)
  else if b.base = 0x48010000 ∧ o = 0 then .next (s.writeChan i v)
  else .next (s.regStore a v)

/-- REGISTER_WRITE (R15, R16): where the map has no register nothing happens. -/
def execRegisterWrite (addr : BitVec 40) (value : Word) (s : State) : Host.Outcome State Fault Refusal :=
  let a := addr.toNat
  match RegMap.find a with
  | none => .next s
  | some (b, i, r) => if r.reserved value then .fault (reservedFault a) else s.writeReg b i a value

end Sys2Proof.Machine
end

