-- ==== Sys2Proof/Machine/HostMem.lean ====
section
/-!
DEFINITION. The host's memory windows (R297 to R299), the resets of functions (R296, R317) and the firmware's heartbeat (R307).
-/
namespace Sys2Proof.Machine

/-! BAR2 (R277, R291, R298). -/

/-- The device address of a window offset, where an access of `len` bytes passes the checks of R277 and R298. -/
def State.windowAddr (s : State) (fn offset len : Nat) : Option Nat :=
  if fn = 0 then
    if offset + len ≤ 2 ^ 39 then some offset else none
  else match s.rangeOf (fn - 1) with
    | some g => if g.1 + offset + len ≤ g.2 ∧ offset + len ≤ 2 ^ 36 then some (g.1 + offset) else none
    | none => none

/-- Whether no request of a run meets a hole (R275). -/
def State.noHole (s : State) (a len : Nat) : Bool :=
  (sysRequests a len).all (fun q => !(s.dramHole q.1) && !(s.dramHole (q.1 + q.2 - 1)))

/-- The device address that a window offset stands for (R297); a VF without a range has none, and its offset stands (log
entry 47). -/
def State.windowBase (s : State) (fn offset : Nat) : Nat :=
  if fn = 0 then offset
  else match s.rangeOf (fn - 1) with
    | some g => g.1 + offset
    | none => offset

/-- A refused access of the system port is logged at the hub that its address names (R277). -/
def State.sysRefused (s : State) (fn a : Nat) : State :=
  s.hubViolation (if (s.dramLoc a).1 < 4 then 0 else 1) 5 (s.fnPart fn)

/-- A request of the host (R274): PF0's stream ID is 1, that of VF f is 1 + f. -/
def State.hostReq (s : State) (fn : Nat) (write : Bool) (a : Nat) (n : Nat) (bs : List Byte) (to_ : DramTo) : DramReq :=
  s.sysReq (1 + fn) (s.fnPart fn) write a n bs to_

/-- BAR2_READ (R274, R278, R290, R298): the read's requests join the queues of their channels; the last answer completes it. A
function in D3hot takes no access of its windows (R295; log entry 20). -/
def execBar2Read (fn : Nat) (offset : BitVec 40) (len : Nat) (s : State) : Host.Outcome State Fault Refusal :=
  if s.inD3 fn then .next (s.readRefused fn) else
  match s.windowAddr fn offset.toNat len with
  | none => .next ((s.sysRefused fn (s.windowBase fn offset.toNat)).readRefused fn)
  | some a =>
    if !(s.noHole a len) then .next ((s.sysRefused fn a).readRefused fn)
    else
      let num := s.reqNum
      let l := sysRequests a len
      let s : State := { s with reqNum := num + 1, hostReads := s.hostReads ++ [⟨num, fn, l.length, [], false, false, none⟩] }
      .next (l.zipIdx.foldl (fun s q => s.enqueue (s.dramLoc q.1.1).1 (s.hostReq fn false q.1.1 q.1.2 [] (.read num q.2))) s)

/-- BAR2_WRITE (R274, R278, R291, R298): a request whose channel does not serve is discarded. -/
def execBar2Write (fn : Nat) (offset : BitVec 40) (data : List Byte) (s : State) : Host.Outcome State Fault Refusal :=
  if s.inD3 fn then .next s else
  match s.windowAddr fn offset.toNat data.length with
  | none => .next (s.sysRefused fn (s.windowBase fn offset.toNat))
  | some a =>
    if !(s.noHole a data.length) then .next (s.sysRefused fn a)
    else .next ((sysRequests a data.length).foldl (fun s q =>
      s.enqueue (s.dramLoc q.1).1 (s.hostReq fn true q.1 q.2 ((data.drop (q.1 - a)).take q.2) .posted)) s)

/-! BAR4 (R299). -/

/-- A read of a tile block's register, with what it does (R136, R137). -/
def State.readTileReg (s : State) (t o : Nat) : State :=
  let after (x : Host.Outcome State Fault Refusal) : State := match x with | .next s => s | _ => s
  if o = 0x101C then after (execSeqImemData3Read t s)
  else if o = 0x2020 then after (execTcPmemDataHiRead t s)
  else s

/-- A word of a trace buffer (R193) or of the log's slots (chapter 16), where the address lies in one. -/
def State.readBuffer (s : State) (a : Nat) : Option Word :=
  if 0x20100000 ≤ a ∧ a < 0x20200000 then
    let o := a - 0x20100000
    some (BitVec.ofNat 32 (ofBytes ((SMap.get s.traces [] (o / 0x40000)).readList (o % 0x40000) 4)))
  else if 0x72010000 ≤ a ∧ a < 0x72010000 + 4096 * 32 then
    let o := a - 0x72010000
    match s.log.find? (fun r => r.slot == o / 32) with
    | some r => some (BitVec.ofNat 32 (ofBytes ((r.bytes.drop (o % 32)).take 4)))
    | none => some 0
  else none

/-- A read through the management map: the value shown, and the state after it. Where the map has no register it reads 0. -/
def State.mapRead (s : State) (a : Nat) : Word × State :=
  match s.readBuffer a with
  | some v => (v, s)
  | none =>
    let s :=
      if 0x10000000 ≤ a ∧ a < 0x10900000 then s.readTileReg ((a - 0x10000000) / 65536) ((a - 0x10000000) % 65536)
      else if a = Reg.TIME_NOW_LO then (match execTimeNowLoRead s with | .next t => t | _ => s)
      else s
    (s.rd a, s)

/-- BAR4_ACCESS (R299): outside owner debug mode a read is refused and a write discarded; in it the access reaches the map as
the YMP's own does (log entry 48). -/
def execBar4Access (offset : BitVec 32) (write : Bool) (value : Word) (s : State) : Host.Outcome State Fault Refusal :=
  if !(s.bit (Reg.MBX_CTRL 0) 3) || s.inD3 0 then .next (if write then s else s.readRefused 0)
  else if write then execRegisterWrite (offset.setWidth 40) value s
  else
    let r := s.mapRead (offset.toNat / 4 * 4)
    .next (r.2.emit (.readReply 0 (toBytes r.1.toNat 4)))

/-! Resets of functions (R317). -/

/-- A START or STOP that is armed takes effect without a STATE notice to a function that was reset since (R317). -/
def State.hushArmed (s : State) (fn : Nat) : State :=
  { s with parts := s.parts.map (fun (p : Nat × Part) => (p.1, { p.2 with
      hushStart := if s.bit (Reg.PART_START_AT_HI p.1) 31 then fn :: p.2.hushStart else p.2.hushStart
      hushStop := if s.bit (Reg.PART_STOP_AT_HI p.1) 31 then fn :: p.2.hushStop else p.2.hushStop })) }

/-- The command of a function stops where it stands; what it has written stays (R317). A PART_RESET that waits for its milestone does not
begin, and one that has begun goes on without a completion. -/
def State.stopCommand (s : State) (fn : Nat) : State :=
  let s := s.readbackEnds fn
  match (s.fnMbx fn).running with
  | none => s
  | some r =>
    let s := s.setFnMbx fn { s.fnMbx fn with running := none }
    match r.wait, r.req with
    | .reset, some q => s.updPart q.partition (fun x => { x with
        recov := { x.recov with cmd := if x.recov.cmd.any (fun c => c.fn == fn) then none else x.recov.cmd }
        resetReq := if x.resetReq.any (fun c => c.1.fn == fn) then none else x.resetReq })
    | .load, some q =>
      let p := q.partition
      let s := s.updPart p (fun x => { x with releasing := false })
      (match s.cfg.load with
       | some l => if l.src = .load p then (s.setLoad none).wr Reg.CFG_STATUS 0 else s
       | none => s)
    | _, _ => s

/-- The mailbox of a function is reset (R317): its control and bases clear, its rings stop, and what waits for it is gone. Its MSI-X
control, pending bits and power state return to their reset values (R295; log entry 20). -/
def State.resetFn (s : State) (fn : Nat) : State :=
  let s := (s.stopCommand fn).hushArmed fn
  let m := s.fnMbx fn
  let s := s.setFnMbx fn { m with enabled := false, tail := m.taken, running := none }
  let s := s.toReset [Reg.MBX_CTRL fn, Reg.MBX_REQ_BASE_LO fn, Reg.MBX_REQ_BASE_HI fn, Reg.MBX_CPL_BASE_LO fn, Reg.MBX_CPL_BASE_HI fn,
    Reg.MBX_NTC_BASE_LO fn, Reg.MBX_NTC_BASE_HI fn, Reg.PCI_MSIX fn, Reg.PCI_PM fn, Reg.MSIX_PBA fn 0] |>.toReset ((List.range 12).map (fun i => Reg.MSIX_TABLE fn i))
  { s with notices := s.notices.filter (fun n => n.fn != fn), owed := s.owed.filter (fun o => o.1 != fn)
           hostReads := s.hostReads.filter (fun h => h.fn != fn) }

/-- Every function is reset: owner debug mode ends with PF0's control register (R299, R317). -/
def State.resetFns (s : State) : State := ((List.range 17).foldl (fun s f => s.resetFn f) s).mbxStatus 3 false

/-- FUNCTION_LEVEL_RESET (R317): that of PF0 resets every function. -/
def execFunctionLevelReset (fn : Nat) (s : State) : Host.Outcome State Fault Refusal :=
  if fn = 0 then .next s.resetFns else if fn < 17 then .next (s.resetFn fn) else .next s

/-- PCIE_LINK_RESET (R296, R317, R330): the pair of host time and Route time is no longer valid; partitions keep running. -/
def execPcieLinkReset (s : State) : Host.Outcome State Fault Refusal :=
  .next (s.resetFns.setBit Reg.TIME_PTM_CTRL 31 false)

/-! The firmware's heartbeat (R307). -/

/-- FW_HEARTBEAT_TICK (R307): every function shows the count. -/
def execFwHeartbeatTick (s : State) : Host.Outcome State Fault Refusal :=
  if s.boot.fwUp && !s.fwLost then .next ((List.range 17).foldl (fun s f => s.addReg (Reg.MBX_HEARTBEAT f) 1) s) else .next s

/-- FW_HEARTBEAT_LOST (R306, R307, R349, R366): the record comes from the always-on island. -/
def execFwHeartbeatLost (s : State) : Host.Outcome State Fault Refusal :=
  if s.boot.fwUp && !s.fwLost then
    let s := s.mbxStatus 1 true
    let s := (s.logRec 6 1 0x0802 sevDevice none (s.openDetail 0x0802)).stepFree
    .next { s with fwLost := true, alertStatus := s.alertStatus ||| 8 }
  else .next s

end Sys2Proof.Machine
end

