-- ==== Sys2Proof/Machine/Resets.lean ====
section
/-!
DEFINITION. The cold and the warm device reset (R110, R286, R347, R358, R359, R377; log entry 49 for what a warm reset does where the
spec names no register).
-/
namespace Sys2Proof.Machine

/-! The cold reset (R353, R358). -/

/-- The registers that the always-on island holds: those of the error log, and the junction temperature (R346, R353, R370). -/
def islandRegs : List Nat := [Reg.LOG_STATUS, Reg.LOG_NEXT, Reg.LOG_CORR_COUNTED, Reg.LOG_LOST, Reg.PWR_TJ]

/-- The pins that boot drives fall back (R377): `DEV_OK` and `CFG_DONE` low, `CFG_ERR_N` released. -/
def State.pinsDown (s : State) : State := ((s.devOkPin false).cfgDonePin false).cfgErrPin false

/-- Everything is reset but the flash, the fuses and the BBRAM key (R358), and what the model itself keeps: the commands that
wait, the output, and the counter of free values. -/
def State.coldReset (s : State) : State :=
  let s := s.pinsDown
  let b := s.boot
  State.showFuses { State.reset with
    pending := s.pending, flash := s.flash, fuses := s.fuses, trained := s.trained, out := s.out, free := s.free
    boot := { BootSt.reset with
      por := b.por, sysRst := b.sysRst, perst := b.perst, mode := b.mode
      secA := b.secA, secB := b.secB, inB := b.inB, seq := b.seq, fall := b.fall, refclk := b.refclk } }

/-- A cold reset that keeps the always-on island: a boot retry (R353). The thermal trip, with the domains that it opened, and `THERM_N`
are the island's (R346). -/
def State.retryReset (s : State) : State :=
  let c := s.coldReset
  let trip := s.bit Reg.PWR_STATUS 8
  let t := { c with
    log := s.log, logHigh := s.logHigh, logLast := s.logLast, alertStatus := s.alertStatus, alertMask := s.alertMask
    pwr := { c.pwr with off := if trip then s.pwr.off else c.pwr.off } }
  let t := (t.setBit Reg.PWR_STATUS 8 trip).setBit Reg.PWR_STATUS 9 (s.bit Reg.PWR_STATUS 9)
  islandRegs.foldl (fun t a => t.wr a (s.rd a)) t

/-! The warm reset (R358, R359). -/

/-- The mailboxes are reset; `MBX_ID` shows the partitions, which stay, and the fence survives. -/
def State.mbxWarm (s : State) : State :=
  let s := s.resetFns
  let s := (List.range 17).foldl (fun s f =>
    s.toReset [Reg.MBX_STATUS f, Reg.MBX_HEARTBEAT f, Reg.MBX_COUNTS f, Reg.MBX_NTC_COUNT f, Reg.MBX_NTC_LOST f]) s
  ({ s with mbx := [], notices := [], owed := [], lastServed := 16, fwLost := false } : State).mbxStatus 4 s.fenced

/-- Every partition is STOPPED and out of its rung, and a recovery is abandoned (R359, R376). -/
def State.partWarm (s : State) (p : Nat) : State :=
  let s := s.updPart p (fun x => { x with
    fault := false, cause := none, gapAbort := false, beatOpen := false, recov := { RecSt.none with dead := x.recov.dead }, resumed := none, resetReq := none
    rung := 0, entering := false, wakeAt := none, exitDone := false, exitLate := false, devFatal := 0, variants := [], trial := none
    releasing := false })
  let s := s.setFld (Reg.PART_BEAT_STATUS p) 0 3 psStopped
  let s := match s.part p with | some x => (s.gpioSet x.gpio false).setRelease x false false | none => s
  let s := (s.setBit (Reg.PART_START_AT_HI p) 31 false).setBit (Reg.PART_STOP_AT_HI p) 31 false
  s.setFld (Reg.FAB_PART_RELCTL p) 8 2 0

/-- A lane returns to OFF until B8. -/
def State.laneWarm (s : State) (n : Nat) : State := (s.laneRestart n).wr (Reg.TPL_LANE_STATUS n) 0

/-- A port goes down without a record: firmware, which would write it, is reset too. -/
def State.portWarm (s : State) (p : Nat) : State :=
  if s.portIsUp p then
    let s := (s.wr (Reg.TPL_PORT_STATUS p) 0).portDead p
    let s := s.setPort p { s.port p with logged := [] }
    let s := (s.portChans p).foldl (fun s c =>
      if s.chanOn c ∧ s.chanState c = 1 then (s.wr (Reg.CHN_STATUS c) 2).setChan c Chan.reset else s) s
    if s.timeUp p then s.loseTime 2 p else s
  else s

/-- The registers of a controller that a warm reset returns to their reset values: `DDR_ORG`, the counters and `DDR_UE_ADDR` stay. -/
def ddrWarmRegs (ch : Nat) : List Nat :=
  (List.range 6).map (fun k => Reg.DDR_PORT_QOS ch k) ++
  [Reg.DDR_PAGE_CTRL ch, Reg.DDR_REF_CTRL ch, Reg.DDR_SR_CTRL ch, Reg.DDR_TRAIN_CTRL ch, Reg.DDR_TRAIN_STATUS ch,
   Reg.DDR_SCRUB_CTRL ch, Reg.DDR_SCRUB_POS ch, Reg.DDR_UE_STATUS ch]

/-- A controller is reset after its devices entered self-refresh: it serves nothing until B6 (R286). -/
def State.ddrWarm (s : State) (ch : Nat) : State :=
  let s := s.toReset (ddrWarmRegs ch)
  let x := s.dch ch
  let s := s.setDch ch { DramCh.reset with upsets := x.upsets, train := (s.stored ch).getD x.train }
  if s.bit (Reg.DDR_CTRL ch) 0 then (s.setBit (Reg.DDR_CTRL ch) 1 false).setDdrState ch 6 else s

/-- The power registers of which chapter 15 says that they survive a warm reset, and what the always-on island measures. -/
def pwrKept : List Nat := [Reg.PWR_LIMIT, Reg.PWR_THERM_CTRL, Reg.PWR_AVS_TIMEOUTS, Reg.PWR_TJ]

/-- The registers of the power manager. -/
def pwrRegs : List Nat :=
  [Reg.PWR_STATUS, Reg.PWR_DEV_RUNG, Reg.PWR_MEAS, Reg.PWR_RAMP_CTRL, Reg.PWR_GOV_CTRL] ++
  (List.range 4).flatMap (fun q => [Reg.PWR_CEIL q, Reg.PWR_GOV_VOLT q, Reg.PWR_GOV_SLACK q]) ++
  (List.range 6).flatMap (fun r => [Reg.PWR_RAIL_V r, Reg.PWR_RAIL_I r])

/-- The junction temperature in 1/8 degree. -/
def State.tj (s : State) : Int := ((s.rd Reg.PWR_TJ).setWidth 12).toInt

/-- The power manager is reset (R346): the thermal trip stays where the device is not below 92 °C; a sector that a failed ramp left
off stays off. -/
def State.pwrWarm (s : State) : State :=
  let trip := s.bit Reg.PWR_STATUS 8
  let hot := decide (92 * 8 ≤ s.tj)
  let low := s.bit Reg.PWR_STATUS 9
  let off := if trip && !hot then (s.pwr.off.filter (fun d => decide (256 ≤ d))).map (fun d => d - 256) else s.pwr.off
  let s : State := { s.toReset pwrRegs with pwr := { PwrSt.reset with off := off } }
  let s := s.parts.foldl (fun s p => s.wr (Reg.PWR_PART p.1) (BitVec.ofNat 32 p.2.share)) s
  let s := (s.setBit Reg.PWR_STATUS 8 (trip && hot)).setBit Reg.PWR_STATUS 9 low
  if trip && !hot then s.thermPin false else s

/-- Whether a write of firmware into a dump slot is still queued. -/
def State.dumpQueued (s : State) (k : Nat) : Bool :=
  (List.range 8).any (fun ch => (s.dch ch).queue.any (fun q =>
    q.port == 5 && q.src == 0 && q.write && decide (s.slotAddr k ≤ q.addr ∧ q.addr < s.slotAddr k + 2 ^ 24)))

/-- A dump that was being written leaves its slot invalid (R368, R376). -/
def State.dumpWarm (s : State) : State :=
  (List.range 4).foldl (fun (s : State) k =>
    if s.dumpFlag 8 k || s.dumpQueued k then ((s.setDumpFlag 8 k false).setDumpFlag 0 k false).setDumpFlag 4 k false else s) s

/-- The warm device reset (R358, R359). -/
def State.warmReset (s : State) : State :=
  let s := (s.devOkPin false).cfgDonePin false
  let s := s.mbxWarm
  let s := s.toReset [Reg.TIME_PTM_HOST_LO, Reg.TIME_PTM_HOST_HI, Reg.TIME_PTM_ROUTE_LO, Reg.TIME_PTM_ROUTE_HI, Reg.TIME_PTM_CTRL]
  let s : State := { s with timeUnit := { s.timeUnit with ptmAt := none, ptmFrac := 0 }, search := [], hubLogged := [], fabReqs := [], hostReads := [] }
  let s := (List.range 16).foldl (fun s p => s.partWarm p) s
  let s := (List.range 96).foldl (fun s n => s.portWarm n) s
  let s := (List.range 96).foldl (fun s n => s.laneWarm n) s
  let s := (List.range 8).foldl (fun s ch => s.ddrWarm ch) s.dumpWarm
  let s := s.tileResets (List.range 128)
  let s := (List.range 16).foldl (fun s c => s.routerReset (128 + c)) s
  let s : State := { s with delivered := [] }
  let s := ((s.setLoad none).wr Reg.CFG_STATUS 0).pwrWarm
  let s := s.wr Reg.BOOT_STATUS 0
  { s with boot := { s.boot with steps := [], fwUp := false, loadEnd := none, layout := none } }

end Sys2Proof.Machine
end

