-- ==== Sys2Proof/Machine/Boot.lean ====
section
/-!
DEFINITION. Boot (R351 to R357, R216, R273, R287, R359): its steps, their record and their fallbacks; the reset pins; FW_ACTIVATE.
Where the steps' order leaves a choice: log entry 43.
-/
namespace Sys2Proof.Machine

/-! The record and the fallbacks. -/

/-- An entry of a step. -/
def State.stepEntry (s : State) (k phase result code : Nat) (payload : List Byte) : State := s.bootEntry 0 k phase result code payload

/-- A failed load of B9, or a failed release of B10 (R356). -/
def FallSt.fabFailed (f : FallSt) : FallSt := if f.flags.getLsbD 1 then f.setFlag 2 true else f.setFlag 1 true

/-- A failed training of a channel (R356). -/
def FallSt.chanFailed (f : FallSt) (c : Nat) : FallSt := f.setChan c (min 2 (f.chan c + 1))

/-- A failed training of a lane (R356). -/
def FallSt.laneFailed (f : FallSt) (n : Nat) : FallSt := f.setLane n (min 2 (f.lane n + 1))

/-- The fallbacks for the steps that the previous boot never finished (R356); every channel that is not disabled was training in a
B6 that never finished (log entry 43). -/
def FallSt.unfinished (f : FallSt) (steps : List Nat) : FallSt :=
  let f := if steps.contains 1 then f.setFlag 0 true else f
  let f := if steps.contains 5 && f.flags.getLsbD 3 then f.setFlag 4 true else f
  let f := if steps.contains 6 then
      (List.range 8).foldl (fun f c => if f.chan c < 2 then f.chanFailed c else f) f
    else f
  if steps.contains 9 || steps.contains 10 then f.fabFailed else f

/-- A step begins: its start entry, and `BOOT_STATUS` (B7 runs beside the others). -/
def State.startStep (s : State) (k : Nat) : State :=
  let s := s.stepEntry k 0 0 0 []
  let s := if k = 7 then s else s.setFld Reg.BOOT_STATUS 0 4 k
  { s with boot := { s.boot with steps := s.boot.steps ++ [k] } }

/-- A step ends, with its end entry. -/
def State.endStep (s : State) (k result code : Nat) (payload : List Byte) : State :=
  let s := s.stepEntry k 1 result code payload
  { s with boot := { s.boot with steps := s.boot.steps.filter (fun j => j != k) } }

/-- A boot begins, with step B0 (R351). -/
def State.startBoot (s : State) (warm : Bool) : State :=
  let s := (s.setBit Reg.BOOT_STATUS 12 warm).setFld Reg.BOOT_STATUS 0 4 0
  { s with boot := { s.boot with
    warm := warm, steps := [0], unfinished := [], seq := 0, loadEnd := none, layout := none, fwUp := false, slots := [], failedLanes := 0 } }

/-- B0 reads the boot record: the count, the fallback state of the previous boot's record, a sector for this boot, and the entry of the
step (R354 to R356). Without a record there is no fallback state. -/
def State.readRecord (s : State) : State :=
  let entries := if s.hasRecord then s.bootEntries else []
  let prev := (newestEntry entries).map (fun e => e.boot)
  let unfinished := match prev with | some n => neverFinished entries n | none => []
  let kept := match newestEntry (entries.filter (fun e => e.kind == 1)) with | some e => FallSt.ofPayload e.payload | none => FallSt.none
  let fall := kept.unfinished unfinished
  let s := s.wr Reg.BOOT_COUNT (BitVec.ofNat 32 (match prev with | some n => n + 1 | none => 1))
  let s := s.wr Reg.BOOT_STATE (fall.flags.setWidth 32)
  let s : State := { s with boot := { s.boot with fall := fall, unfinished := unfinished } }
  (if s.hasRecord then s.turnSector else s).stepEntry 0 0 0 0 []

/-- A boot ends under R353: the record, the pins, and nothing but HELLO is served until `POR_N`. -/
def State.bootFails (s : State) (step code : Nat) (payload : List Byte) : State :=
  let s := s.endStep step 1 code payload
  let gap := Config.openDetail 0x0B06 s.free 1
  let s := s.stepFree.logRec 6 1 0x0B06 sevDevice none (toBytes step 1 ++ [gap] ++ toBytes code 2)
  let s := (s.devOkPin false).cfgErrPin true
  { s with boot := { s.boot with dead := true, steps := [] } }

/-! B2 to B4. -/

/-- B2 begins: every AVS rail is asked for its boot voltage, and the step ends only after each acknowledgement (R340, R341, R351). -/
def State.startRails (s : State) : State :=
  (List.range 6).foldl (fun s r => (s.setBit (Reg.PWR_RAIL_V r) 31 false).avsWrite r ((RegMap.railReset r).field 0 12)) (s.startStep 2)

/-- Whether a rail still waits for its acknowledgement. -/
def State.anyRailWaits (s : State) : Bool := (List.range 6).any (fun r => s.railWaits r)

/-- Route time starts at 0 with milestone base (0, 0), and milestones run (R351, R319). -/
def State.startTime (s : State) : State :=
  let s := (s.wr2 Reg.TIME_MS_BASE_N_LO Reg.TIME_MS_BASE_N_HI 0).wr2 Reg.TIME_MS_BASE_T_LO Reg.TIME_MS_BASE_T_HI 0
  let s := (s.wr2 Reg.TIME_MS_COUNT_LO Reg.TIME_MS_COUNT_HI 0).setBit Reg.TIME_MS_CTRL 0 true
  { s with time := 0, timeRuns := true }

/-- The positions of a column that B4 holds dead: those that fail BIST, that of the boot record, and those whose domain did not
ramp (R76, R344, R354). -/
def State.deadOf (s : State) (e : BootEnv) (c : Nat) : List Nat :=
  (List.range 9).filter (fun d =>
    e.dead.contains (c, d) || s.boot.fall.col c == d || s.pwr.off.contains (c * 9 + d))

/-- The map of a column is built (R18, R76). -/
def State.mapColumn (s : State) (e : BootEnv) (c : Nat) : State :=
  let dead := s.deadOf e c
  match dead with
  | [] => if s.boot.fall.col c = 14 then s.setFld (Reg.TNOC_DETOUR c) 4 2 2 else s
  | [d] => if s.boot.fall.col c = 14 then s.loseColumn c d else (s.sparePosition c d true).2
  | _ => dead.foldl (fun s d => s.loseColumn c d) s

/-- The position that a register block stands for: a row's, or that of the column's window (R58, R76). -/
def State.blockPos (s : State) (i : Nat) : Nat := if i < 128 then s.position i else min 8 (s.fld (Reg.TNOC_DETOUR (i - 128)) 0 4)

/-- The result of BIST shows at every position (R58). -/
def State.showBist (s : State) (e : BootEnv) : State :=
  (List.range 144).foldl (fun s i =>
    let c := if i < 128 then i / 8 else i - 128
    s.setFld (Reg.TILE_STATUS i) 8 2 (if e.dead.contains (c, s.blockPos i) then 2 else 1)) s

/-! B5 and B6. -/

/-- The stores are tested, repaired and zeroed (R111). -/
def State.zeroStores (s : State) (e : BootEnv) : State :=
  let s : State := { s with store := [], upsets := [] }
  e.repair.foldl (fun s x => if x.1 < 144 then s.wr (Reg.ST_REPAIR x.1) (BitVec.ofNat 32 (x.2 % 256)) else s) s

/-- The value of a field of `DDR_ORG` for what a channel has; none where the field has no value for it. -/
def orgField (l : List (Nat × Nat)) (v : Nat) : Option Nat := (l.find? (fun x => x.1 == v)).map (fun x => x.2)

/-- `DDR_ORG` for an organisation (R273): a field that has no value for what the channel has shows an open one (log entry 120). -/
def State.orgWord (s : State) (o : ChanEnv) : Word :=
  let open_ := Config.freeWord s.free
  let put (v : Word) (lo w : Nat) (f : Option Nat) : Word := v.setField lo w (match f with | some n => n | none => open_.field lo w)
  let v := put 0 0 1 (orgField [(4, 1), (8, 0)] o.width)
  let v := put v 1 1 (orgField [(1, 0), (2, 1)] o.ranks)
  let v := put v 2 2 (orgField [(16, 0), (24, 1), (32, 2)] o.density)
  let v := put v 4 2 (orgField [(4800, 0), (5600, 1), (6400, 2)] o.rate)
  put v 16 7 (if o.capacity ≤ 64 then some o.capacity else none)

/-- Whether an organisation lies inside R272. -/
def orgSupported (o : ChanEnv) : Bool :=
  [4800, 5600, 6400].contains o.rate && o.check && [4, 8].contains o.width && [16, 24, 32].contains o.density && !o.stacked &&
  [1, 2].contains o.ranks && decide (o.capacity ≤ 64) && o.refsb

/-- A channel outside R272, or disabled by the boot record, is disabled (R273). -/
def State.orgUnsupported (s : State) (ch : Nat) : State :=
  let s := (s.logRec 4 ch 0x0706 sevContained none (s.openDetail 0x0706)).stepFree
  (s.setBit (Reg.DDR_CTRL ch) 0 false).setDdrState ch 0

/-- A channel is trained, zeroed and enabled (R287, R356): the values of TRAIN_STORE come first in a channel at state 1, and firmware keeps
those that the training leaves. -/
def State.trained_ (s : State) (o : ChanEnv) : State :=
  let stored := if s.boot.fall.chan o.ch != 1 then none else s.stored o.ch
  let v := stored.getD o.values
  let s : State := { (s.setDch o.ch { DramCh.reset with train := v }) with
    dram := s.dram.filter (fun c => !(decide (o.ch * 2 ^ 36 ≤ c.1) && decide (c.1 < (o.ch + 1) * 2 ^ 36)))
    trained := if s.testMode || !(s.hasSlot 6) then s.trained else SMap.set s.trained o.ch v }
  (s.setBit (Reg.DDR_CTRL o.ch) 0 true).setDdrState o.ch 2

/-- A channel at a cold B6 (R273, R287, R356): its organisation is recorded, and it is trained. Whether its training failed, and the
state. -/
def State.trainChannel (s : State) (e : BootEnv) (ch : Nat) : Bool × State :=
  match e.org.find? (fun o => o.ch == ch) with
  | none => (false, s.orgUnsupported ch)
  | some o =>
    let s := (s.wr (Reg.DDR_ORG ch) (s.orgWord o)).stepFree
    if !(orgSupported o) || s.boot.fall.chan ch == 2 then (false, s.orgUnsupported ch)
    else if o.fails then
      let f := s.boot.fall.chanFailed ch
      let s := s.setFall f
      (true, if f.chan ch = 2 then s.orgUnsupported ch else (s.setBit (Reg.DDR_CTRL ch) 0 false).setDdrState ch 0)
    else (false, s.trained_ o)

/-- The channels at a cold B6: the mask of those that failed, and the state. -/
def State.trainAll (s : State) (e : BootEnv) : Nat × State :=
  (List.range 8).foldl (fun (z : Nat × State) ch =>
    let r := z.2.trainChannel e ch
    (if r.1 then z.1 + 2 ^ ch else z.1, r.2)) (0, s)

/-- The channels at a warm B6: the stored training values are restored, and the contents stay (R287, R293). -/
def State.restoreAll (s : State) : State :=
  (List.range 8).foldl (fun s ch =>
    if s.ddrState ch = 6 then
      let x := s.dch ch
      (s.setDch ch { x with train := (s.stored ch).getD x.train, centre := [] }).setDdrState ch 2
    else s) s

/-- The channels train during a cold B6 (`DDR_STATUS`), but those that the boot record disables. -/
def State.showTraining (s : State) : State :=
  if s.boot.warm then s
  else (List.range 8).foldl (fun s ch => if s.boot.fall.chan ch = 2 then s else s.setDdrState ch 1) s

/-! B8 to B11. -/

/-- The lanes whose octet has a reference clock train at the rate that the boot record gives (R21, R234, R247, R356). -/
def State.startLanes (s : State) : State :=
  (List.range 96).foldl (fun s n =>
    let rate := s.boot.fall.lane n
    let v := s.rd (Reg.TPL_LANE_CTRL n)
    let v := if rate = 2 ∨ !(s.boot.refclk.getLsbD (n / 8)) then v.setField 0 1 0 else (v.setField 0 1 1).setField 1 2 rate
    (s.wr (Reg.TPL_LANE_CTRL n) v).laneRestart n) s

/-- The lanes that failed at B8 are in the fallback state that later boots inherit. -/
def State.lanesFailed (s : State) (lanes : BitVec 96) : State :=
  if lanes = 0 then s
  else s.setFall ((List.range 96).foldl (fun f n => if lanes.getLsbD n then f.laneFailed n else f) s.boot.fall)

/-- Partition 0 comes into being with the columns and banks of the image's `layout`, and no other resources (R216). -/
def State.bootPart (s : State) : State :=
  match s.boot.layout with
  | none => s
  | some l =>
    if (s.part 0).isSome then s
    else s.addPart 0 {
      partition := 0, columns := BitVec.ofNat 8 l, gpio := BitVec.ofNat 8 (l / 256 % 16), share := 0, dramBase := 0, dramLimit := 0
      lanes := 0, firstChan := 0, chanCount := 0, dumpRow := 0 }

/-- Whether every sector of a partition is loaded. -/
def State.isLoaded (s : State) (x : Part) : Bool := (List.range 32).all (fun k => !(x.sectors.testBit k) || (s.rd Reg.CFG_LOADED).bit k)

/-- Whether B9 has nothing to load: the boot record says so, or partition 0 is loaded already (R351, R356). -/
def State.skipFab (s : State) : Bool :=
  s.boot.fall.flags.getLsbD 2 || s.testMode ||
  (match s.part 0 with | some x => s.isLoaded x | none => false)

/-- B10 begins: every loaded partition is released in stages (R209). -/
def State.startRelease (s : State) : State :=
  let s := s.startStep 10
  { s with parts := s.parts.map (fun (x : Nat × Part) => (x.1, { x.2 with releasing := x.2.releasing || s.isLoaded x.2 })) }

/-- B9 begins, or is skipped. -/
def State.startFab (s : State) : State :=
  let s := s.startStep 9
  if s.skipFab then (s.endStep 9 3 0 []).startRelease
  else { s with boot := { s.boot with fabSlot := if s.boot.fall.flags.getLsbD 1 then 3 else 2, loadEnd := none, layout := none } }

/-- B9 begins once B6 and B8 have both ended. -/
def State.afterMemory (s : State) : State := if s.boot.steps.contains 6 || s.boot.steps.contains 8 then s else s.startFab

/-- B6 and B8 begin together. -/
def State.startMemory (s : State) : State := ((s.startStep 6).startStep 8).startLanes.showTraining

/-- B5 begins; a warm boot skips it. -/
def State.startStore (s : State) : State :=
  let s := s.startStep 5
  if s.boot.warm then (s.endStep 5 3 0 []).startMemory else s

/-- The firmware runs (R351): B7 is recorded from here on, and ends at once where `PERST_N` is already deasserted. -/
def State.firmwareRuns (s : State) : State :=
  let s := ({ s with boot := { s.boot with fwUp := true } } : State).devOkPin true
  let s := s.startStep 7
  if s.boot.perst then s else s.endStep 7 0 0 []

/-- The sectors of partition 0 are cleared after a failed load or release (R230, R356). -/
def State.clearBoot (s : State) : State :=
  match s.part 0 with
  | some x => (s.clearSectors x.sectors).updPart 0 (fun x => { x with releasing := false })
  | none => s

/-- B11 ends (R296, R351, R359): the device is ready, the FW notice goes to PF0, and after a warm reset every partition runs steps
4 to 7. -/
def State.bootDone (s : State) : State :=
  let s := s.endStep 11 0 0 []
  let s := ((s.setBit Reg.BOOT_STATUS 4 true).setFld Reg.BOOT_STATUS 8 3 0).mbxStatus 0 true
  let s := s.notify 0 5 (toBytes 0x00030002 4 ++ toBytes s.boot.fwSlot 1)
  if s.boot.warm then
    s.parts.foldl (fun (s : State) p =>
      (s.updPart p.1 (fun x => { x with recov := { RecSt.none with
        dead := x.recov.dead, step := 4, warm := true, resume := false, ms := s.msCount, time := s.now } })).setPstate p.1 psRecovering) s
  else s

/-- How the load of B1 or B9 has ended: `none` while it runs; a slot that holds no image fails with the step's own code. -/
def State.loadOutcome (s : State) (e : BootEnv) (slot : Nat) : Option (Option Nat) :=
  match s.boot.loadEnd with
  | some o => some o
  | none => if e.pass && (s.testMode || s.hasSlot slot) then none else some (some e.code.toNat)

/-- A stream that a boot step ends before its END: the load fails (R223). -/
def State.cutStream (s : State) (e : BootEnv) : State :=
  match s.cfg.load with
  | some l => if e.pass then s else (match l.src with | .slot _ => s.loadFail l 9 | .load _ => s)
  | none => s

/-- B1 ends, or goes on with FW_GOLDEN (R351, R356). -/
def State.bootFirmware (s : State) (e : BootEnv) : State :=
  let s := s.cutStream e
  match s.loadOutcome e s.boot.fwSlot with
  | none => s
  | some none =>
    let s := s.endStep 1 (if s.boot.fwSlot = 0 then 0 else 2) 0 (toBytes s.boot.fwSlot 1)
    s.firmwareRuns.startRails
  | some (some code) =>
    if s.boot.fwSlot = 0 ∧ !s.testMode then
      let s := s.setFall (s.boot.fall.setFlag 0 true)
      { s with boot := { s.boot with fwSlot := 1, loadEnd := none } }
    else s.bootFails 1 code (toBytes s.boot.fwSlot 1)

/-- B9 ends (R216, R230, R356). -/
def State.bootFabric (s : State) (e : BootEnv) : State :=
  let s := s.cutStream e
  match s.loadOutcome e s.boot.fabSlot with
  | none => s
  | some none =>
    let s := s.bootPart
    (s.endStep 9 (if s.boot.fabSlot = 2 then 0 else 2) 0 (toBytes s.boot.fabSlot 1)).startRelease
  | some (some code) =>
    let s := (s.bootPart.clearBoot).cfgErrPin true
    let s := s.setFall s.boot.fall.fabFailed
    (s.endStep 9 1 code (toBytes s.boot.fabSlot 1 ++ toBytes (s.fld Reg.CFG_LOAD_ERR 0 8) 1)).startRelease

/-- B10 ends (R209, R210, R356, R377). -/
def State.bootRelease (s : State) (e : BootEnv) : State :=
  if e.pass then
    let any := s.parts.any (fun p => s.isLoaded p.2)
    let s := s.parts.foldl (fun (s : State) p => if s.isLoaded p.2 then s.stagesUp p.1 else s) s
    let s : State := { s with parts := s.parts.map (fun (p : Nat × Part) => (p.1, { p.2 with releasing := false })) }
    let s := if any then s.cfgDonePin true else s
    (s.endStep 10 0 0 []).startStep 11
  else
    let s := s.clearBoot
    let s := s.setFall s.boot.fall.fabFailed
    (s.endStep 10 1 e.code.toNat []).startStep 11

/-! The flash directory (R214). -/

/-- The entries of a directory: 32 bytes each, behind the header. -/
def dirEntries (d : List Byte) : List (List Byte) :=
  (List.range (min 16 (hdrField d 6 1))).map (fun i => (d.drop (32 + 32 * i)).take 32)

/-- Whether the CRC of a directory holds: over its header, with the field zero, and its entries. -/
def dirOk (d : List Byte) : Bool :=
  let all := d.take (32 + 32 * min 16 (hdrField d 6 1))
  decide (32 ≤ all.length) && crc32 (all.take 8 ++ [0, 0, 0, 0] ++ all.drop 12) == hdrField d 8 4

/-- `CFG_CRC` of the flash directory or of an entry (R214, R223): the slot kind, where an entry gives one, and reason 0; the other
bytes are open. -/
def State.logDirCrc (s : State) (kind : Option Byte) : State :=
  let open_ (i : Nat) : Byte := Config.openDetail 0x0502 s.free i
  (s.logRec 2 0xFFF 0x0502 sevContained none
    ([0, kind.getD (open_ 1), 0] ++ (List.range 8).map (fun i => open_ (3 + i)))).stepFree

/-- The slots of a directory; an entry whose CRC fails is logged and absent (R214, R230). -/
def State.takeDir (s : State) (d : List Byte) : State :=
  (dirEntries d).foldl (fun s e =>
    if crc32 (e.take 16) = hdrField e 16 4 then
      let k := hdrField e 0 1
      if k = 0xFF then s
      else { s with boot := { s.boot with slots := s.boot.slots ++ [⟨k, hdrField e 4 4, hdrField e 8 4, hdrField e 12 4⟩] } }
    else s.logDirCrc (some (e.headD 0))) s

/-- The ROM reads the directory, or its copy where the CRC of the first fails (R214, R230); whether either stands. -/
def State.readDir (s : State) (e : BootEnv) : Bool × State :=
  if s.testMode then (true, s)
  else if dirOk e.dir then (true, s.takeDir e.dir)
  else if dirOk e.copy then (true, s.takeDir e.copy)
  else (false, s.logDirCrc none)

/-- B0 ends (R213, R214, R351, R355): the directory and the boot record have been read. -/
def State.bootRom (s : State) (e : BootEnv) : State :=
  let (stands, s) := s.readDir e
  let s := s.readRecord
  if !e.pass then s.bootFails 0 e.code.toNat []
  else if !stands then s.bootFails 0 0x0502 []
  else
    let s := (s.endStep 0 0 0 []).startStep 1
    { s with boot := { s.boot with fwSlot := if s.boot.fall.flags.getLsbD 0 then 1 else 0, loadEnd := none } }

/-- A step that has no fallback ends well, or ends the boot. -/
def State.plainStep (s : State) (k : Nat) (e : BootEnv) (act : State → State) : State :=
  if e.pass then act s else s.bootFails k e.code.toNat []

/-- The end of the step that is current (R351, R356). -/
def State.bootStep (s : State) (k : Nat) (e : BootEnv) : State :=
  match k with
  | 0 => s.bootRom e
  | 1 => s.bootFirmware e
  | 2 => if e.pass && s.anyRailWaits then s else s.plainStep 2 e (fun s => (s.endStep 2 0 0 []).startStep 3)
  | 3 => s.plainStep 3 e (fun s => ((if s.boot.warm then s else s.startTime).endStep 3 0 0 []).startStep 4)
  | 4 => s.plainStep 4 e (fun s =>
      let s := if s.boot.warm then s else (List.range 16).foldl (fun s c => s.mapColumn e c) s
      ((s.showBist e).endStep 4 0 0 []).startStore)
  | 5 => s.plainStep 5 e (fun s =>
      let skipped := s.boot.fall.flags.getLsbD 3 && s.boot.fall.flags.getLsbD 4
      ((s.zeroStores e).endStep 5 (if skipped then 2 else 0) 0 []).startMemory)
  | 6 =>
    let (failed, s) := if s.boot.warm then (0, s.restoreAll) else s.trainAll e
    ((s.endStep 6 (if failed = 0 then 0 else 2) 0 (toBytes failed 1)).showDumpBase).afterMemory
  | 8 =>
    let failed := s.boot.failedLanes
    ((s.lanesFailed failed).endStep 8 (if failed = 0 then 0 else 2) 0 (toBytes failed.toNat 12)).afterMemory
  | 9 => s.bootFabric e
  | 10 => s.bootRelease e
  | 11 => s.plainStep 11 e (fun s => s.bootDone)
  | _ => s

/-- The step that is current: the first that is open, B7 apart. -/
def State.currentStep (s : State) : Option Nat := s.boot.steps.find? (fun k => k != 7)

/-- BOOT_STEP_COMPLETE (R351 to R356). -/
def execBootStepComplete (e : BootEnv) (s : State) : Host.Outcome State Fault Refusal :=
  match s.currentStep with
  | some k => if s.boot.por || s.boot.sysRst then .next s else .next (s.bootStep k e)
  | none => .next s

/-- BOOT_STEP_TIMEOUT (R353): a boot retry, or the end of the boot after four boots that failed in a row. -/
def execBootStepTimeout (s : State) : Host.Outcome State Fault Refusal :=
  match s.currentStep with
  | some k =>
    let n := s.fld Reg.BOOT_STATUS 8 3 + 1
    if 4 ≤ n then .next (s.setFld Reg.BOOT_STATUS 8 3 n |>.bootFails k 0 [])
    else .next ((s.retryReset.setFld Reg.BOOT_STATUS 8 3 n).startBoot false)
  | none => .next s

/-! Pins (R351, R352, R358, R359, R388). -/

/-- POR_ASSERT (R358, R388): a warm reset that is held is abandoned. -/
def execPorAssert (s : State) : Host.Outcome State Fault Refusal :=
  if s.boot.por then .next s
  else
    let s := s.coldReset
    .next { s with boot := { s.boot with por := true, sysRst := false } }

/-- POR_RELEASE (R21, R213, R351): `CFG_MODE` is sampled, and the cold boot starts. -/
def execPorRelease (mode : BitVec 3) (refclk : BitVec 12) (s : State) : Host.Outcome State Fault Refusal :=
  if s.boot.por then
    .next (({ s with boot := { s.boot with por := false, mode := mode, refclk := refclk } } : State).startBoot false)
  else .next s

/-- SYS_RST_ASSERT (R359, R388): ignored while `POR_N` is low, and after a boot that ended under R353. -/
def execSysRstAssert (s : State) : Host.Outcome State Fault Refusal :=
  if s.boot.por || s.boot.sysRst || s.boot.dead then .next s
  else
    let s := s.warmReset
    .next { s with boot := { s.boot with sysRst := true } }

/-- SYS_RST_RELEASE (R359): the warm boot starts. -/
def execSysRstRelease (s : State) : Host.Outcome State Fault Refusal :=
  if s.boot.sysRst then .next (({ s with boot := { s.boot with sysRst := false } } : State).startBoot true) else .next s

/-- PERST_DEASSERT (R352): PCIe link training begins; B7 ends. -/
def execPerstDeassert (s : State) : Host.Outcome State Fault Refusal :=
  let s : State := { s with boot := { s.boot with perst := false } }
  .next (if s.boot.steps.contains 7 then s.endStep 7 0 0 [] else s)

/-- FW_ACTIVATE (R318, R358): the firmware that FW_UPDATE left starts with the next boot, or with a warm reset now, before which the
command completes. -/
def execFwActivate (r : Req) (now : Bool) (s : State) : Host.Outcome State Fault Refusal :=
  s.runCmd r 0xF1 .owner true false (fun s =>
    if !now then s.reply r stOk []
    else if s.parts.any (fun p => !(s.unlocked (some p.1))) then s.reply r stBadState []
    else .next (((s.complete r.fn stOk []).warmReset).startBoot true))

end Sys2Proof.Machine
end

