-- ==== Sys2Proof/Machine/Milestone.lean ====
section
/-!
DEFINITION. The milestone of the device (R29 to R50, R135, R200, R265, R268, R335, R367): what it does beside the partitions' beats.
-/
namespace Sys2Proof.Machine

/-- The outcome that an edge port shows: that of the beat the milestone closed, a dry one's too, and GAP where the partition rested in a rung
(R200, R335). DESIGN CHOICE (log entry 133): where none closed, the last one. -/
def State.shownOutcome (s : State) (p : Nat) : Nat :=
  match s.part p with
  | some x => x.shown
  | none => 0

/-- The milestone is shown to the fabric by every edge port (R200). -/
def State.edgesMs (s : State) : State :=
  (List.range 48).foldl (fun s e =>
    match s.edgeOwner e with
    | some p => s.edgeMs e (s.shownOutcome p) (s.pstate p)
    | none => s.edgeMs e 0 0) s

/-- The patrol of a tile's program memories (R135): one word of each, with the upset that the milestone finds there. -/
def State.patrolTile (s : State) (e : MsEnv) (t : Nat) : State :=
  if s.tileRests t then s
  else
    let x := s.tile t
    let w := x.patrol
    let new := (e.patrol.filter (fun f => f.1 == t && decide (f.2.1 < 2) && f.2.2.1 == w)).map (fun f => (f.2.1, f.2.2.1, f.2.2.2))
    let s := s.setTile t { x with patrol := (w + 1) % 8192, memUpsets := x.memUpsets ++ new }
    ((s.tile t).memUpsets.filter (fun u => u.2.1 == w)).foldl (fun s u => s.meetProg t false u) s

/-- The logs of the beat that closed are over: each once-per-beat record may come again (R104, R156, R188, R189, R204, R252). -/
def State.clearLogged (s : State) : State :=
  { s with
    tiles := s.tiles.map (fun (x : Nat × Tile) =>
      (x.1, { x.2 with clashLogged := false, semLogged := false, trapLogged := false, genLogged := false, partLogged := false }))
    routers := s.routers.map (fun (x : Nat × Router) => (x.1, { x.2 with partLogged := false }))
    ports := s.ports.map (fun (x : Nat × PortSt) => (x.1, { x.2 with logged := [] }))
    dramCh := s.dramCh.map (fun (x : Nat × DramCh) => (x.1, { x.2 with logged := [] }))
    hubLogged := [] }

/-- The functions owed a notice of a period change or of an epoch get it (R305). -/
def State.payOwed (s : State) (period : Bool) : State :=
  let mine := s.owed.filter (fun o => o.2.1 == period)
  let s := { s with owed := s.owed.filter (fun o => o.2.1 != period) }
  mine.foldl (fun s o =>
    let st := if o.2.2 < 16 then s.pstate o.2.2 else 0
    let gen := match s.part o.2.2 with | some x => x.gen | none => 0
    s.notifyAll (if o.1 = 0 then [0] else [o.1, 0]) 1
      (stateNoticeBody o.2.2 st st gen (if o.2.2 < 16 then s.step48 o.2.2 else 0))) s

/-- An armed period change takes effect (R29, R32, R50). -/
def State.periodChange (s : State) (n : Nat) : State :=
  if s.armDue Reg.TIME_MS_CHANGE_LO Reg.TIME_MS_CHANGE_HI n then
    let t := s.msTime n
    let s := s.wr2 Reg.TIME_MS_BASE_N_LO Reg.TIME_MS_BASE_N_HI n
    let s := s.wr2 Reg.TIME_MS_BASE_T_LO Reg.TIME_MS_BASE_T_HI t
    let s := s.wr Reg.TIME_MS_PERIOD (s.rd Reg.TIME_MS_PERIOD_NEXT)
    (s.setBit Reg.TIME_MS_CHANGE_HI 31 false).payOwed true
  else s

/-- An armed epoch is adopted (R50, R265, R266); on a fenced device this is the rejoin (R268), and the time unit acquires a source that is
present, whose return the fence held off (R267, R322; DEDUCED, log entry 126). -/
def State.epochAdopt (s : State) (n : Nat) : State :=
  if s.bit Reg.TPL_EPOCH_NEXT 31 && !(msAhead (s.rd2 Reg.TPL_EPOCH_AT_LO Reg.TPL_EPOCH_AT_HI % 2 ^ 48) n) then
    let s := s.wr Reg.TPL_EPOCH (BitVec.ofNat 32 (s.fld Reg.TPL_EPOCH_NEXT 0 16))
    let s := s.setBit Reg.TPL_EPOCH_NEXT 31 false
    let s := if s.rejoin then 
        let s := (({ s with rejoin := false } : State).setBit Reg.TPL_FENCE 0 false).mbxStatus 4 false
        if s.sourceSeen then s.timeReturns else s
      else s
    let close := (s.msTime n + 2 * s.periodNs) % 2 ^ 64
    let s := (List.range 96).foldl (fun s p => s.setPort p { s.port p with window := some close }) s
    s.payOwed false
  else s

/-- The milestone's number and its Route time are reached (R29 to R31). -/
def State.countMs (s : State) : State :=
  let n := (s.msCount + 1) % 2 ^ 48
  let s := s.timeTo (s.msTime n * 2 ^ 16)
  let s := s.wr2 Reg.TIME_MS_COUNT_LO Reg.TIME_MS_COUNT_HI n
  if s.pinOn (s.bit Reg.TIME_MS_CTRL 1) then s.emit (.msOut n) else s

/-- The partitions that exist, ascending. -/
def State.partList (s : State) : List Nat := s.parts.map (fun p => p.1)

/-- A suspect whose trial raised its partition's fault line is guilty (R367); a DEVICE_FATAL event, which raises every line, is no finding. -/
def State.trialFault (s : State) : State :=
  match s.search with
  | h :: _ =>
    (match h.suspects with
    | (p, _) :: _ =>
      (match s.part p with
      | some x => if h.running && x.trial.isSome && x.fault && x.devFatal == 0 then s.trialEnd true else s
      | none => s)
    | [] => s)
  | [] => s

/-- MILESTONE (R29 to R50, R135, R165, R200, R265, R335, R339, R361). -/
def execMilestone (e : MsEnv) (s : State) : Host.Outcome State Fault Refusal :=
  if s.timeRuns && s.bit Reg.TIME_MS_CTRL 0 then
    let s := s.countMs
    let n := s.msCount
    let s := (s.partList.foldl (fun s p => s.partMs e n p) s).trialFault.powerChecks
    let s := (List.range 128).foldl (fun s t => s.patrolTile e t) s
    let s := ((s.clearPending (fun _ => true)).edgesMs.clearLogged.periodChange n).epochAdopt n
    .next ((s.partList.foldl (fun s p => s.snapPart n p) s).raiseTimeouts n).dumpNext
  else .next s

end Sys2Proof.Machine
end

