-- ==== Sys2Proof/Machine/MvuEntries.lean ====
section
/-!
DEFINITION. The meanings of the MVU entries MVM, VLOAD and MDRAIN (R71, R72).
-/
namespace Sys2Proof.Machine

/-- The MVU accepts an entry at a handshake, or the entry clashes with the one that is streaming (R132). -/
def State.mvuIssue (s : State) (t I entry : Nat) (body : State → Nat → State) : State :=
  let x := s.tile t
  if I < x.mvu.accept then
    s.slotClash t 1 (match x.mvu.ops.getLast? with | some o => o.entry | none => entry) entry I
  else
    let id := x.order
    (body (s.setTile t { x with order := id + 1 }) id).mvuStatus t

/-- The MVU starts an operation that ends at `done` and accepts another at `accept`. -/
def State.mvuStart (s : State) (t : Nat) (o : MvuOp) (accept : Nat) : State :=
  let x := s.tile t
  s.setTile t { x with mvu := { x.mvu with ops := x.mvu.ops ++ [o], accept := accept } }

/-- MVM (R72), with the upsets that its reads meet (R112). -/
def execMvm (tile : Nat) (f : MvmFields) (soft : List SoftErr) (s : State) : Host.Outcome State Fault Refusal :=
  if f.legal then
    .next ((s.addSoft tile soft).issueEntry tile 1 (fun s I k order => s.mvuIssue tile I k (fun s id =>
      let plan := mvmPlan id f f.n 0 I
      (s.mvuStart tile ⟨id, .mvm f, k, plan.2 + 12, [], []⟩ plan.2).addEvs tile
        (plan.1.map (fun e => (⟨e.1, order, k, e.2⟩ : TileEv))))))
  else badEntry 72

/-- VLOAD (R72). -/
def execVload (tile : Nat) (f : VloadFields) (s : State) : Host.Outcome State Fault Refusal :=
  if f.legal then
    .next (s.issueEntry tile 1 (fun s I k order => s.mvuIssue tile I k (fun s id =>
      let n := f.rows.toNat + 1
      let sc := vloadScaleRows f
      let last := I + n + sc.length
      let rows := (List.range n).flatMap (fun i =>
        [(⟨I + i, order, k, .mvuRow id i (f.wRow.toNat + i)⟩ : TileEv), ⟨I + i + 8, order, k, .vrfRow id i⟩])
      let scales := sc.mapIdx (fun i r => (⟨I + n + i, order, k, .mvuScale id r⟩ : TileEv))
      let done := if f.scale = 0 then [] else [(⟨last + 7, order, k, .vrfScale id⟩ : TileEv)]
      (s.mvuStart tile ⟨id, .vload f, k, last + 7, [], []⟩ last).addEvs tile (rows ++ scales ++ done))))
  else badEntry 72

/-- MDRAIN (R72): the accumulators are captured and checked at the issue. -/
def execMdrain (tile : Nat) (f : MdrainFields) (s : State) : Host.Outcome State Fault Refusal :=
  if f.legal then
    .next (s.issueEntry tile 1 (fun s I k order => s.mvuIssue tile I k (fun s id =>
      let n := f.rows.toNat + 1
      let rows := (mdrainContents f (s.tile tile).mvu).mapIdx (fun j r => (j, r))
      let s := s.mdrainCheck tile I k f
      (s.mvuStart tile ⟨id, .mdrain f, k, I + 2 + n, rows, []⟩ (I + 2 + n)).addEvs tile
        ((List.range n).map (fun j => (⟨I + 2 + j, order, k, .mdrainRow id j (f.cRow.toNat + j)⟩ : TileEv))))))
  else badEntry 72

end Sys2Proof.Machine
end

