-- ==== Sys2Proof/Machine/SmBus.lean ====
section
/-!
DEFINITION. The SMBus target (R348, R349): reads leave as `smbus` outputs, and a command that is not acknowledged has no effect.
-/
namespace Sys2Proof.Machine

/-- Whether firmware runs and serves the target (R348). -/
def State.smbServes (s : State) : Bool := !s.boot.por && s.boot.fwUp && !s.fwLost

/-- The packet error code of SMBus 3.1 over the bytes of a transfer: CRC-8 with x^8 + x^2 + x + 1 (R348; PRESUMED, log entry 137). -/
def smbPec (l : List Byte) : Byte :=
  l.foldl (fun c b => (List.range 8).foldl (fun c _ => if c.getLsbD 7 then (c <<< 1) ^^^ 0x07 else c <<< 1) (c ^^^ b)) 0

/-- What a read of a command returns: its data and its PEC, over address 0x62, the command, the address again and what the target sends,
which for a block (more than a word) begins with its length. -/
def smbOut (cmd : Byte) (data : List Byte) : Output :=
  let count := if 2 < data.length then toBytes data.length 1 else []
  .smbus data (smbPec ([0xC4, cmd, 0xC5] ++ count ++ data))

/-- A read that firmware serves. -/
def State.smbFirmware (s : State) (cmd : Byte) (data : List Byte) : State := if s.smbServes then s.emit (smbOut cmd data) else s

/-- A read that the always-on island serves: not while `POR_N` is low. -/
def State.smbIsland (s : State) (cmd : Byte) (data : List Byte) : State := if s.boot.por then s else s.emit (smbOut cmd data)

/-- ID: part code, stepping, bin and range, firmware release, mailbox interface (log entry 25). -/
def execSmbId (s : State) : Host.Outcome State Fault Refusal :=
  .next (s.smbFirmware 0x01 (toBytes 0x0960 2 ++ [BitVec.ofNat 8 (s.fld Reg.CFG_IDCODE 28 4), Config.binRange] ++ toBytes 0x0302 2 ++ toBytes 0x0201 2))

/-- Whether a quarter's ceiling is lowered by a cause: bit 8 of `PWR_Qq_CEIL` the power cap, bit 9 temperature. -/
def State.throttled (s : State) (bit : Nat) : Bool := (List.range 4).any (fun q => s.bit (Reg.PWR_CEIL q) bit)

/-- The STATUS word (R349; log entry 27). -/
def State.smbStatusWord (s : State) : Nat :=
  s.boot.devOk.toNat + 2 * (s.bit Reg.TPL_FENCE 0).toNat + 4 * s.fwLost.toNat + 8 * (s.throttled 8).toNat +
  16 * (s.throttled 9).toNat + 32 * (s.bit Reg.PWR_STATUS 8).toNat + 256 * s.devRung

/-- STATUS (R348, R349). -/
def execSmbStatus (s : State) : Host.Outcome State Fault Refusal := .next (s.smbIsland 0x02 (toBytes s.smbStatusWord 2))

/-- TEMP_MAX. -/
def execSmbTempMax (s : State) : Host.Outcome State Fault Refusal := .next (s.smbIsland 0x10 (toBytes (s.fld Reg.PWR_TJ 0 12) 2))

/-- TEMP_QUARTER: a word of each quarter, coded as `PWR_TJ` (log entry 27). -/
def execSmbTempQuarter (s : State) : Host.Outcome State Fault Refusal :=
  .next (s.smbFirmware 0x11 ((List.range 4).flatMap (fun q => toBytes (BitVec.ofInt 12 (s.pwr.quarters.getD q QuarterSt.reset).tj).toNat 2)))

/-- POWER. -/
def execSmbPower (s : State) : Host.Outcome State Fault Refusal := .next (s.smbFirmware 0x20 (toBytes (s.fld Reg.PWR_MEAS 0 12) 2))

/-- RAILS: voltage and current of rails 0 to 5. -/
def execSmbRails (s : State) : Host.Outcome State Fault Refusal :=
  .next (s.smbFirmware 0x21 ((List.range 6).flatMap (fun r =>
    toBytes (s.fld (Reg.PWR_RAIL_V r) 0 12) 2 ++ toBytes (s.fld (Reg.PWR_RAIL_I r) 0 16) 2)))

/-- LIMIT. -/
def execSmbLimit (s : State) : Host.Outcome State Fault Refusal := .next (s.smbFirmware 0x22 (toBytes (s.fld Reg.PWR_LIMIT 0 8) 2))

/-- ALERT_MASK, read. -/
def execSmbAlertMaskRead (s : State) : Host.Outcome State Fault Refusal := .next (s.smbFirmware 0x40 [s.alertMask])

/-- ALERT_MASK, write (R348): discarded when its PEC fails. -/
def execSmbAlertMaskWrite (value : Byte) (pec : Bool) (s : State) : Host.Outcome State Fault Refusal :=
  .next (if s.smbServes && pec then { s with alertMask := value &&& 0x3F } else s)

/-- ALERT_STATUS, read. -/
def execSmbAlertStatusRead (s : State) : Host.Outcome State Fault Refusal := .next (s.smbIsland 0x41 [s.alertStatus])

/-- ALERT_STATUS, write 1 to clear (R348). -/
def execSmbAlertStatusClear (value : Byte) (pec : Bool) (s : State) : Host.Outcome State Fault Refusal :=
  .next (if !s.boot.por && pec then { s with alertStatus := s.alertStatus &&& ~~~value } else s)

/-- Whether `ALERT_N` is driven low (R348). -/
def State.alertLow (s : State) : Bool := s.alertStatus &&& s.alertMask != 0

/-- The Alert Response Address is read (R348): a target that drives `ALERT_N` answers with its address, 0x62 in bits [7:1]; bit 0 is
open. -/
def execSmbAlertResponse (s : State) : Host.Outcome State Fault Refusal :=
  .next (if s.alertLow && !s.boot.por then
    let data := toBytes (0xC4 + (Config.freeBool s.free).toNat) 1
    (s.emit (.smbus data (smbPec (0x19 :: data)))).stepFree else s)

/-- LOG_COUNT. -/
def execSmbLogCount (s : State) : Host.Outcome State Fault Refusal := .next (s.smbFirmware 0x50 (toBytes s.logHigh 2))

/-- LOG_LAST: open while there is no such record (log entry 27). -/
def execSmbLogLast (s : State) : Host.Outcome State Fault Refusal :=
  .next (match s.logLast with
    | some r => s.smbFirmware 0x51 r.bytes
    | none => (s.smbFirmware 0x51 ((List.range 32).map (fun k => Config.openDetail 0xF006 s.free k))).stepFree)

end Sys2Proof.Machine
end

