-- ==== Sys2Proof/Machine/Flags.lean ====
section
/-!
DEFINITION. The tile core's arithmetic and its flags: integer edges (R143, R144), division by zero (R145), accumulators
(R146), search order (R147) and the FP32 flags (R148).
-/
namespace Sys2Proof.Machine

/-- What an operation does to the condition flags: `none` leaves a flag as it is. -/
structure FlagSet where
  n : Option Bool := none
  z : Option Bool := none
  c : Option Bool := none
  v : Option Bool := none
  dz : Bool := false
  deriving DecidableEq, Repr

/-- A bit of `TC_FLAGS` replaced where a new value is given. -/
def putFlag (w : Word) (i : Nat) : Option Bool → Word
  | some b => Word.setBit w i b
  | none => w

/-- `TC_FLAGS` after an integer operation (R143, R144): an operation that sets v also sets vs. -/
def FlagSet.apply (f : FlagSet) (w : Word) : Word :=
  let w := putFlag (putFlag (putFlag (putFlag w 0 f.n) 1 f.z) 2 f.c) 3 f.v
  let w := if f.v = some true then Word.setBit w 4 true else w
  if f.dz then Word.setBit w 5 true else w

/-- The n and z flags of a result. -/
def nz (r : Word) : FlagSet := { n := some (r.getLsbD 31), z := some (r == 0) }

/-- An exact signed result fitted to 32 bits: the value, and whether it did not fit (R144). -/
def fit32 (sat : Bool) (x : Int) : Word × Bool :=
  let v := decide (x < -2 ^ 31) || decide (2 ^ 31 - 1 < x)
  if v && sat then (if x < 0 then 0x80000000 else 0x7FFFFFFF, true) else (BitVec.ofInt 32 x, v)

/-- An exact value fitted to a 40-bit accumulator (R144, R146). -/
def fit40 (sat : Bool) (x : Int) : BitVec 40 × Bool :=
  let v := decide (x < -2 ^ 39) || decide (2 ^ 39 - 1 < x)
  if v && sat then (if x < 0 then 0x8000000000 else 0x7FFFFFFFFF, true) else (BitVec.ofInt 40 x, v)

/-- ADD and ADDI: c is the unsigned carry in both modes. -/
def aluAdd (sat : Bool) (a b : Word) : Word × FlagSet :=
  let r := fit32 sat (a.toInt + b.toInt)
  (r.1, { nz r.1 with c := some (decide (2 ^ 32 ≤ a.toNat + b.toNat)), v := some r.2 })

/-- SUB, CMP and CMPI: c is 1 when a ≥ b unsigned. -/
def aluSub (sat : Bool) (a b : Word) : Word × FlagSet :=
  let r := fit32 sat (a.toInt - b.toInt)
  (r.1, { nz r.1 with c := some (decide (b.toNat ≤ a.toNat)), v := some r.2 })

/-- NEG. -/
def aluNeg (sat : Bool) (a : Word) : Word × FlagSet :=
  let r := fit32 sat (0 - a.toInt)
  (r.1, { nz r.1 with v := some r.2 })

/-- ABS. -/
def aluAbs (sat : Bool) (a : Word) : Word × FlagSet :=
  let r := fit32 sat a.toInt.natAbs
  (r.1, { nz r.1 with v := some r.2 })

/-- A result that sets n and z alone. -/
def aluNz (r : Word) : Word × FlagSet := (r, nz r)

/-- A result that sets no flag. -/
def aluPlain (r : Word) : Word × FlagSet := (r, {})

/-- SHL and SHLI by an amount of 0 to 255. -/
def aluShl (sat : Bool) (a : Word) (n : Nat) : Word × FlagSet :=
  let r := fit32 sat (a.toInt * 2 ^ n)
  (r.1, { nz r.1 with c := if n = 0 then none else some (if n ≤ 32 then a.getLsbD (32 - n) else false), v := some r.2 })

/-- SHR and SHRI. -/
def aluShr (a : Word) (n : Nat) : Word × FlagSet :=
  let r := a >>> n
  (r, { nz r with c := if n = 0 then none else some (if n ≤ 32 then a.getLsbD (n - 1) else false) })

/-- SAR and SARI. -/
def aluSar (a : Word) (n : Nat) : Word × FlagSet :=
  let r := BitVec.sshiftRight a n
  (r, { nz r with c := if n = 0 then none else some (if n < 32 then a.getLsbD (n - 1) else a.getLsbD 31) })

/-- MUL. -/
def aluMul (sat : Bool) (a b : Word) : Word × FlagSet :=
  let r := fit32 sat (a.toInt * b.toInt)
  (r.1, { nz r.1 with v := some r.2 })

/-- DIVS: quotient and remainder (R143 to R145). -/
def aluDivs (sat : Bool) (a b : Word) : Word × Word × FlagSet :=
  if b = 0 then
    let q : Word := if a.toInt < 0 then 0x80000000 else 0x7FFFFFFF
    (q, a, { nz q with dz := true })
  else
    let q := fit32 sat (Int.tdiv a.toInt b.toInt)
    (q.1, BitVec.ofInt 32 (Int.tmod a.toInt b.toInt), { nz q.1 with v := some q.2 })

/-- DIVU: quotient and remainder (R143, R145). -/
def aluDivu (a b : Word) : Word × Word × FlagSet :=
  if b = 0 then (0xFFFFFFFF, a, { nz 0xFFFFFFFF with dz := true })
  else
    let q := BitVec.ofNat 32 (a.toNat / b.toNat)
    (q, BitVec.ofNat 32 (a.toNat % b.toNat), nz q)

/-- A signed half of a register (R146). -/
def half (w : Word) (hi : Bool) : Int := (BitVec.ofNat 16 (if hi then w.toNat / 65536 else w.toNat)).toInt

/-- The product of MAC and MSU (R146). -/
def macProduct (sel : BitVec 2) (frac : Bool) (a b : Word) : Int :=
  half a (sel.getLsbD 0) * half b (sel.getLsbD 1) * (if frac then 2 else 1)

/-- A number divided by 2^sh, rounded to nearest with ties to even (R146). -/
def convergent (x : Int) (sh : Nat) : Int :=
  let q := x / 2 ^ sh
  let r := x % 2 ^ sh * 2
  if r < 2 ^ sh then q else if 2 ^ sh < r then q + 1 else if q % 2 = 0 then q else q + 1

/-- ACCX (R146): the result in 32 bits and whether the rounded value did not fit. -/
def accExtract (sat wide : Bool) (acc : BitVec 40) (sh : Nat) : Word × Bool :=
  let x := convergent acc.toInt sh
  if wide then fit32 sat x
  else
    let v := decide (x < -2 ^ 15) || decide (2 ^ 15 - 1 < x)
    if v && sat then (if x < 0 then 0xFFFF8000 else 0x00007FFF, true)
    else ((BitVec.ofInt 16 x).signExtend 32, v)

/-- Whether ga replaces gd in a search step (R147). -/
def searchWins (fp max : Bool) (a d : Word) : Bool :=
  if fp then
    let x := Fmt.fp32.decode a.toNat
    let y := Fmt.fp32.decode d.toNat
    if x.isNan then false else if y.isNan then true else if max then y.below x else x.below y
  else if max then decide (d.toInt < a.toInt) else decide (a.toInt < d.toInt)

/-- The sticky FP32 flags that a result sets, as a mask of `TC_FLAGS` (R148). -/
def FRes.tcFlags (r : FRes) : Word :=
  BitVec.ofNat 32 (r.invalid.toNat * 2 ^ 8 + r.divZero.toNat * 2 ^ 9 + r.overflow.toNat * 2 ^ 10 +
    r.underflow.toNat * 2 ^ 11 + r.inexact.toNat * 2 ^ 12)

/-- FMIN and FMAX (R148). -/
def fpExtreme (max : Bool) (a b : Word) : Word :=
  let x := Fmt.fp32.decode a.toNat
  let y := Fmt.fp32.decode b.toNat
  if x.isNan || y.isNan then 0x7FC00000
  else if max then (if x.below y then b else a)
  else (if y.below x then b else a)

/-- FCMP (R148). -/
def fpCompare (a b : Word) : FlagSet :=
  let x := Fmt.fp32.decode a.toNat
  let y := Fmt.fp32.decode b.toNat
  { n := some (x.lt y), z := some (x.eq y), c := some false, v := some (x.isNan || y.isNan) }

/-- FCVTF (R143): a signed integer as FP32, RNE. -/
def fpFromInt (a : Word) : FRes := Fmt.fp32.roundDy false ⟨a.toInt, 0⟩

/-- The magnitude m × 2^e as an integer, toward zero or to nearest even, and whether it was exact. -/
def magToInt (trunc : Bool) (m : Nat) (e : Int) : Nat × Bool :=
  if 0 ≤ e then (m * 2 ^ e.toNat, true)
  else
    let k := (-e).toNat
    let q := m / 2 ^ k
    let r := m % 2 ^ k
    let up := !trunc && (decide (2 ^ k < 2 * r) || (decide (2 * r = 2 ^ k) && q % 2 == 1))
    (q + up.toNat, r == 0)

/-- FCVTI (R143, R148): the integer, with fnv and fnx. -/
def fpToInt (trunc : Bool) (a : Word) : Word × Word :=
  match Fmt.fp32.decode a.toNat with
  | .nan => (0, 0x100)
  | .inf neg => (if neg then 0x80000000 else 0x7FFFFFFF, 0x100)
  | .fin neg m e =>
    let r := magToInt trunc m e
    let x : Int := if neg then -(r.1 : Int) else r.1
    if decide (x < -2 ^ 31) || decide (2 ^ 31 - 1 < x) then (if neg then 0x80000000 else 0x7FFFFFFF, 0x100)
    else (BitVec.ofInt 32 x, if r.2 then 0 else 0x1000)

/-- Whether a condition of R140 holds under `TC_FLAGS`. -/
def condHolds (cond : BitVec 3) (w : Word) : Bool :=
  let n := w.bit 0
  let z := w.bit 1
  let c := w.bit 2
  let v := w.bit 3
  match cond.toNat with
  | 0 => true
  | 1 => z
  | 2 => !z
  | 3 => n != v
  | 4 => n == v
  | 5 => !c
  | 6 => c
  | _ => v

end Sys2Proof.Machine
end

