-- ==== Sys2Proof/Machine/Operands.lean ====
section
/-!
DEFINITION. The operands of tile-core instructions: registers, pointers and the parallel moves (R139, R141, R142).
-/
namespace Sys2Proof

/-- Bytes of a move's access (R141). -/
def Move.bytes (m : Move) : Nat := 2 ^ m.size.toNat

/-- Whether a move stores. -/
def Move.stores (m : Move) : Bool := m.en && m.st

/-- Whether a move loads. -/
def Move.loads (m : Move) : Bool := m.en && !m.st

/-- Whether a move advances its pointer (modes 1 and 2). -/
def Move.posts (m : Move) : Bool := m.en && (m.mode == 1 || m.mode == 2)

/-- The second register of an 8-byte access. -/
def Move.reg2 (m : Move) : Nat := (m.reg.toNat + 1) % 32

end Sys2Proof

namespace Sys2Proof.Machine

/-- A general register. -/
def State.g (s : State) (t : Nat) (i : Nat) : Word := s.rd (Reg.TC_G t i)

/-- The state with a general register replaced. -/
def State.setG (s : State) (t i : Nat) (v : Word) : State := s.wr (Reg.TC_G t i) v

/-- A 40-bit accumulator. -/
def State.acc40 (s : State) (t a : Nat) : BitVec 40 :=
  BitVec.ofNat 40 ((s.rd (Reg.TC_ACC_LO t a)).toNat + 2 ^ 32 * (s.rd (Reg.TC_ACC_HI t a)).field 0 8)

/-- The state with an accumulator replaced. -/
def State.setAcc40 (s : State) (t a : Nat) (v : BitVec 40) : State :=
  s.wr2 (Reg.TC_ACC_LO t a) (Reg.TC_ACC_HI t a) v.toNat

/-- The register of a pointer. -/
def ptrReg (t : Nat) (y : Bool) (p : Nat) : Nat := if y then Reg.TC_YP t p else Reg.TC_XP t p

/-- The register of a modifier. -/
def modReg (t : Nat) (y : Bool) (p : Nat) : Nat := if y then Reg.TC_YM t p else Reg.TC_XM t p

/-- A pointer, 22 bits. -/
def State.ptr (s : State) (t : Nat) (y : Bool) (p : Nat) : Nat := s.fld (ptrReg t y p) 0 22

/-- The state with a pointer replaced, modulo 2^22. -/
def State.setPtr (s : State) (t : Nat) (y : Bool) (p v : Nat) : State := s.wr (ptrReg t y p) (BitVec.ofNat 32 (v % 2 ^ 22))

/-- The smallest k, from a start, with 2^k at least a length: `n` bounds the search. -/
def log2Up (L : Nat) : Nat → Nat → Nat
  | 0, k => k
  | n + 1, k => if L ≤ 2 ^ k then k else log2Up L n (k + 1)

/-- `modstep` of R142: the pointer after a post-modification. -/
def modstep (p : Nat) (m : Word) : Nat :=
  let s : Int := (BitVec.ofNat 16 m.toNat).toInt
  let L := 8 * m.field 16 16
  if L = 0 then (((p : Int) + s) % 2 ^ 22).toNat
  else
    let k := log2Up L 20 0
    let base := p / 2 ^ k * 2 ^ k
    base + ((((p - base : Nat) : Int) + s) % (L : Int)).toNat

/-- The address of a move's access (R141), from the state at issue. -/
def State.moveAddr (s : State) (t : Nat) (y : Bool) (m : Move) : Nat :=
  let p := s.ptr t y m.p.toNat
  let a := if m.mode = 3 then
      (((p : Int) + (BitVec.ofNat 16 (s.rd (modReg t y m.p.toNat)).toNat).toInt) % 2 ^ 22).toNat
    else p
  a / m.bytes * m.bytes

/-- The pointer after a move (R141, R142). -/
def State.movePtr (s : State) (t : Nat) (y : Bool) (m : Move) : Nat :=
  let p := s.ptr t y m.p.toNat
  if m.mode = 1 then (p + m.bytes) % 2 ^ 22 else modstep p (s.rd (modReg t y m.p.toNat))

/-- The data that a store takes at issue. -/
def State.moveData (s : State) (t : Nat) (m : Move) : Nat :=
  let lo := (s.g t m.reg.toNat).toNat
  if m.size = 3 then lo + 2 ^ 32 * (s.g t m.reg2).toNat else lo % 256 ^ m.bytes

/-- The registers and values that a load writes (R141). -/
def loadWrites (m : Move) (v : Nat) : List (Nat × Word) :=
  if m.size = 3 then [(m.reg.toNat, BitVec.ofNat 32 v), (m.reg2, BitVec.ofNat 32 (v / 2 ^ 32))]
  else if m.sx then
    [(m.reg.toNat, (match m.size.toNat with
      | 0 => (BitVec.ofNat 8 v).signExtend 32
      | 1 => (BitVec.ofNat 16 v).signExtend 32
      | _ => BitVec.ofNat 32 v))]
  else [(m.reg.toNat, BitVec.ofNat 32 v)]

/-- The access of a move in a narrow handshake: what its load brings, and the state. Address and data come from the state at
issue. -/
def State.moveAccess (src s : State) (t : Nat) (r : StoreReader) (h : Nat) (y : Bool) (m : Move) :
    List (Nat × Word) × State :=
  if !m.en then ([], s)
  else
    let a := src.moveAddr t y m
    if m.st then ([], s.writeNarrow t r h y a m.bytes (src.moveData t m))
    else
      let v := s.readNarrow t r h y a m.bytes
      (loadWrites m v.1, v.2)

/-- Whether a move's access meets an uncorrectable word that is recorded. -/
def State.moveBad (s : State) (t h : Nat) (y : Bool) (m : Move) : Bool :=
  m.en && !(m.st && m.size == 3) && s.narrowBad t h y (s.moveAddr t y m) m.bytes

/-! What an instruction waits for (R138). Registers are numbered: g0 to g31 at 0 to 31, accumulators 32, xp 36, yp 40,
xm 44, ym 48, the integer flags 52, divider 53, square root 54, the FP32 flags 55. -/

/-- The number of a pointer. -/
def keyPtr (y : Bool) (p : Nat) : Nat := (if y then 40 else 36) + p

/-- The number of a modifier. -/
def keyMod (y : Bool) (p : Nat) : Nat := (if y then 48 else 44) + p

/-- The registers that a move reads or writes. -/
def moveKeys (y : Bool) (m : Move) : List Nat :=
  if !m.en then []
  else
    [keyPtr y m.p.toNat, m.reg.toNat] ++ (if m.mode = 2 ∨ m.mode = 3 then [keyMod y m.p.toNat] else []) ++
    (if m.size = 3 then [m.reg2] else [])

end Sys2Proof.Machine
end

