-- ==== Sys2Proof/Machine/TcCore.lean ====
section
/-!
DEFINITION. The tile core: when an instruction issues (R138), its moves (R139, R141), its control flow and loops (R143), and
its traps (R150).
-/
namespace Sys2Proof.Machine

/-- Whether a handshake is claimed wide (R107). -/
def Tile.wideAt (x : Tile) (h : Nat) : Bool :=
  (claimAt h x.evs).isSome || (match x.lastWide with | some (sl, _) => sl == h | none => false)

/-- The first handshake from one on in which an instruction may issue (R138): `n` bounds the search. -/
def Tile.tcSlot (x : Tile) (move : Bool) : Nat → Nat → Nat
  | 0, h => h
  | n + 1, h => if h % 5 = 4 ∨ (move && x.wideAt h) then x.tcSlot move n (h + 1) else h

/-- The handshake by which every register of a list holds a completed result. -/
def TcSt.readyBy (c : TcSt) (keys : List Nat) : Nat := keys.foldl (fun m k => max m (SMap.get c.ready 0 k)) 0

/-- Results that an instruction issued at `h` completes later: register and latency. -/
def TcSt.setReady (c : TcSt) (h : Nat) (l : List (Nat × Nat)) : TcSt :=
  { c with ready := l.foldl (fun (m : SMap Nat) p => SMap.set m p.1 (h + p.2)) c.ready }

/-- The next handshake after `h` in which the tile core issues (R138). -/
def nextIssue (h : Nat) : Nat := if (h + 1) % 5 = 4 then h + 2 else h + 1

/-- Whether the tile core can issue its next instruction. -/
def State.tcReady (s : State) (t : Nat) : Bool :=
  decide (t < 128) && s.fld (Reg.TC_STATUS t) 0 2 == 1 && !(s.tile t).tc.stopped

/-- The program counter. -/
def State.pc (s : State) (t : Nat) : Nat := s.fld (Reg.TC_PC t) 0 13

/-- The loop stack, the program counter and the next issue replaced. -/
def State.tcFlow (s : State) (t : Nat) (loops : List TcLoop) (pc next : Nat) : State :=
  let c := (s.tile t).tc
  ((s.setTc t { c with loops := loops, next := next }).wr (Reg.TC_PC t) (BitVec.ofNat 32 (pc % 8192))).setFld
    (Reg.TC_STATUS t) 4 3 loops.length

/-- The loop stack and the next instruction after one that does not branch (R143): the last instruction of a body repeats
it while iterations are left. -/
def loopEnd (pc : Nat) : List TcLoop → List TcLoop × Nat
  | [] => ([], (pc + 1) % 8192)
  | l :: r =>
    if l.last = pc then
      if l.left = 0 then loopEnd pc r else ({ l with left := l.left - 1 } :: r, l.first)
    else (l :: r, (pc + 1) % 8192)

/-- The loops that a taken branch leaves active, innermost first: a target outside a body ends that loop and every loop
inside it (R143). -/
def keepLoops (target : Nat) : List TcLoop → List TcLoop
  | [] => []
  | l :: r =>
    let r' := keepLoops target r
    if r'.length = r.length ∧ l.first ≤ target ∧ target ≤ l.last then l :: r' else r'

/-- The tile core goes on to the next instruction. -/
def State.tcFall (s : State) (t h pc : Nat) : State :=
  let l := loopEnd pc (s.tile t).tc.loops
  s.tcFlow t l.1 l.2 (nextIssue h)

/-- A taken branch: its target issues two issue handshakes later than a fall-through would (R138). -/
def State.tcTaken (s : State) (t h target : Nat) : State :=
  s.tcFlow t (keepLoops target (s.tile t).tc.loops) target (nextIssue (nextIssue (nextIssue h)))

/-- The post-modification of a move's pointer, where the operation does not write that pointer (R139). -/
def State.postMove (src s : State) (t : Nat) (y : Bool) (m : Move) (opPtr : Option (Bool × Nat)) : State :=
  if m.posts && opPtr != some (y, m.p.toNat) then s.setPtr t y m.p.toNat (src.movePtr t y m) else s

/-- Loaded registers are written. -/
def State.writeLoads (s : State) (t : Nat) (l : List (Nat × Word)) : State := l.foldl (fun s p => s.setG t p.1 p.2) s

/-- The registers that a load writes, 5 handshakes later. -/
def loadReady (m : Move) : List (Nat × Nat) :=
  if m.loads then [(m.reg.toNat, 5)] ++ (if m.size = 3 then [(m.reg2, 5)] else []) else []

/-- The pointer that a move advances, ready in the next handshake. -/
def postReady (y : Bool) (m : Move) : List (Nat × Nat) := if m.posts then [(keyPtr y m.p.toNat, 1)] else []

/-- The moves of an instruction issued at `h`, from the state at issue `src`, after its operation (R139, R141): of two values
for one register the X move's stands, then the Y move's. -/
def State.doMoves (src s : State) (t h : Nat) (mv : Moves) (opPtr : Option (Bool × Nat)) : State :=
  let bad := src.moveBad t h false mv.x
  let x := src.moveAccess s t .engine h false mv.x
  let y := src.moveAccess x.2 t (if bad then .second else .engine) h true mv.y
  let s := src.postMove (src.postMove y.2 t false mv.x opPtr) t true mv.y opPtr
  let s := if mv.x.en || mv.y.en then
      let c := (s.tile t).tc
      s.setTc t { c with access := (if mv.x.en then h + 1 else c.access.1, if mv.y.en then h + 1 else c.access.2) }
    else s
  (s.writeLoads t y.1).writeLoads t x.1

/-- The handshake in which an instruction whose turn comes at `h` issues, and the state there: repetitions of an MMA that issue before it
enter their claims first (R63, R138); `n` bounds their number. -/
def State.tcWindow (t : Nat) (move : Bool) : Nat → Nat → State → Nat × State
  | h, 0, s => (h, s)
  | h, n + 1, s =>
    let i := (s.tile t).tcSlot move eventFuel h
    match (s.tile t).evs.find? (fun e => e.act.rank == 0) with
    | some e => if e.slot ≤ i then State.tcWindow t move i n (s.advanceTo t (max (s.hs t) e.slot)) else (i, s)
    | none => (i, s)

/-- An instruction issues (R138, R139): `keys` are the registers that it reads or writes, `writes` the registers that its
operation writes with their latencies, `opPtr` the pointer that it writes, and `body` its operation and control flow, given
the handshake and the program counter. -/
def State.issueTc (s : State) (t : Nat) (mv : Moves) (keys : List Nat) (writes : List (Nat × Nat))
    (opPtr : Option (Bool × Nat)) (body : State → Nat → Nat → State) : State :=
  if s.tcReady t then
    let x := s.tile t
    let need := keys ++ writes.map (·.1) ++ moveKeys false mv.x ++ moveKeys true mv.y
    let (h, s) := State.tcWindow t (mv.x.en || mv.y.en) (max (max x.tc.next (s.hs t)) (x.tc.readyBy need)) eventFuel s
    let s := s.advanceTo t h
    let pc := s.pc t
    let (bad, s) := s.fetchCheck t 0 pc 1
    if bad then s.stopTc t
    else
      let s' := s.doMoves (body s h pc) t h mv opPtr
      let rd := postReady false mv.x ++ postReady true mv.y ++ writes ++ loadReady mv.y ++ loadReady mv.x
      (s'.setTc t ((s'.tile t).tc.setReady h rd)).advanceTo t h
  else s

/-- An instruction that does not branch. -/
def State.tcOp (s : State) (t : Nat) (mv : Moves) (keys : List Nat) (writes : List (Nat × Nat))
    (opPtr : Option (Bool × Nat)) (op : State → State) : State :=
  s.issueTc t mv keys writes opPtr (fun s h pc => (op s).tcFall t h pc)

/-- Whether an operation with an s bit saturates (R144). -/
def State.tcSat (s : State) (t : Nat) (sbit : Bool) : Bool := s.bit (Reg.TC_FLAGS t) 16 || sbit

/-- The condition flags of an operation take effect. -/
def State.setFlags (s : State) (t : Nat) (f : FlagSet) : State := s.wr (Reg.TC_FLAGS t) (f.apply (s.rd (Reg.TC_FLAGS t)))

/-- Sticky FP32 flags are set (R148). -/
def State.setFpFlags (s : State) (t : Nat) (m : Word) : State := s.orReg (Reg.TC_FLAGS t) m

/-- A trap of the tile core (R150): the instruction completes, nothing more issues in the beat, and the first trap of a beat
is recorded as R103 and R104 set out. -/
def State.tcTrap (s : State) (t code : Nat) : State :=
  let x := s.tile t
  let s := (s.setTile t { x with tc := { x.tc with stopped := true } }).setBit (Reg.TC_STATUS t) 8 true
  if x.trapLogged then s
  else
    (s.setTile t { s.tile t with trapLogged := true }).numTrap t (s.hs t) x.tc.startEntry code 8 (s.numDetail t 4 x.tc.startEntry 0xFF 0xFFFF 0xFFFF)

/-- An integer operation of one destination (R143): `flags` says whether it writes condition flags. -/
def State.tcInt (s : State) (t : Nat) (mv : Moves) (srcs : List Nat) (d lat : Nat) (flags : Bool)
    (f : State → Word × FlagSet) : State :=
  s.tcOp t mv srcs ((d, lat) :: (if flags then [(52, lat)] else [])) none (fun s =>
    let r := f s
    (s.setG t d r.1).setFlags t r.2)

/-- An operation that writes condition flags alone. -/
def State.tcTest (s : State) (t : Nat) (mv : Moves) (srcs : List Nat) (lat : Nat) (f : State → FlagSet) : State :=
  s.tcOp t mv srcs [(52, lat)] none (fun s => s.setFlags t (f s))

/-- An FP32 operation of one destination, with its sticky flags and the trap of R150. -/
def State.tcFloat (s : State) (t : Nat) (mv : Moves) (srcs : List Nat) (d lat : Nat) (busy : List Nat)
    (f : State → Word × Word) : State :=
  s.tcOp t mv srcs ((d, lat) :: (55, lat) :: busy.map (fun k => (k, lat))) none (fun s =>
    let r := f s
    let s := (s.setG t d r.1).setFpFlags t r.2
    if r.2.getLsbD 8 && s.bit (Reg.TC_CTRL t) 1 then s.tcTrap t 0x0205 else s)

end Sys2Proof.Machine
end

