-- ==== Sys2Proof/Machine/StoreScrub.lean ====
section
/-!
DEFINITION. The patrol scrubber of a tile store and the write-back of queued corrections (R112 to R114).
-/
namespace Sys2Proof.Machine

/-- Whether the scrubber may make an access to a half now (R114): in a narrow handshake of a running tile in which the TC makes none to
that half, or by a self-timed access while the partition is STOPPED or the tile unassigned; never while the tile is parked or rests in a rung. -/
def State.scrubAllowed (s : State) (t : Nat) (y : Bool) : Bool :=
  let last := (s.tile t).tc.access
  !(s.tileRests t) && decide (t < 144) &&
  (match s.tilePart t with
   | none => true
   | some p => s.pstate p == psStopped ||
      (s.pstate p == psRunning && !(s.bit (Reg.SEQ_BEAT_STATUS t) 2) && !((s.tile t).wideAt (s.hs t)) &&
        (if y then last.2 else last.1) != s.hs t + 1))

/-- The position register of a half. -/
def scrubReg (t : Nat) (y : Bool) : Nat := if y then Reg.ST_SCRUB_POS_Y t else Reg.ST_SCRUB_POS t

/-- The scrubber's position in a half moves on; a pass of both halves is counted (R114). -/
def State.scrubNext (s : State) (t : Nat) (y : Bool) : State :=
  let w := s.fld (scrubReg t y) 0 19
  let s := s.setFld (scrubReg t y) 0 19 (w + 1)
  if w = 524287 then
    let x := s.tile t
    let x := if y then { x with passY := x.passY + 1 } else { x with passX := x.passX + 1 }
    (s.setTile t x).wr (Reg.ST_SCRUB_PASSES t) (BitVec.ofNat 32 (min x.passX x.passY))
  else s

/-- A word of a store is read by the scrubber and, where correctable, written back (R112, R114). -/
def State.scrubWord (s : State) (t : Nat) (y : Bool) (w : Nat) : State :=
  let a := narrowAddr y (8 * w)
  let (_, _, s) := s.storeRead t .scrubber 4 (2 ^ 40) a 8
  let key := (s.storeBase t + a) / 8
  { s with upsets := s.upsets.filter (fun u => !(u.word == key && decide (u.kind < 2))) }

/-- STORE_SCRUB_VISIT (R114), with the upsets that the read meets: queued corrections come first (R112). -/
def execStoreScrubVisit (tile : Nat) (y : Bool) (soft : List SoftErr) (s : State) : Host.Outcome State Fault Refusal :=
  if s.scrubAllowed tile y && s.bit (Reg.ST_CTRL tile) 0 && (s.tile tile).ceQueue.isEmpty then
    .next (((s.addSoft tile soft).scrubWord tile y (s.fld (scrubReg tile y) 0 19)).scrubNext tile y)
  else .next s

/-- STORE_CORRECTION_WRITEBACK (R112): the oldest queued word is rewritten, whether or not the patrol is enabled. -/
def execStoreCorrectionWriteback (tile : Nat) (s : State) : Host.Outcome State Fault Refusal :=
  let x := s.tile tile
  match x.ceQueue with
  | w :: rest =>
    if s.scrubAllowed tile (w % 128 / 64 == 1) then
      let s := s.setTile tile { x with ceQueue := rest }
      .next { s with upsets := s.upsets.filter (fun u => !(u.word == w && decide (u.kind < 2))) }
    else .next s
  | [] => .next s

end Sys2Proof.Machine
end

