-- ==== Sys2Proof/Machine/TcAlu.lean ====
section
/-!
DEFINITION. The meanings of the integer, accumulator and search instructions of the tile core (R143 to R147).
-/
namespace Sys2Proof.Machine

/-- NOP (R143): the moves alone. -/
def execTcNop (tile : Nat) (mv : Moves) (s : State) : Host.Outcome State Fault Refusal :=
  .next (s.tcOp tile mv [] [] none (fun s => s))

/-- The shift amount that a register or an immediate gives: bits [7:0] (R144). -/
def shiftAmount (w : Word) : Nat := w.toNat % 256

/-- The sign-extended immediate of format I (R140). -/
def TcI_imm (o : TcI) : Word := o.imm.signExtend 32

/-- ADD (R143). -/
def execTcAdd (tile : Nat) (mv : Moves) (o : TcT) (s : State) : Host.Outcome State Fault Refusal :=
  .next (s.tcInt tile mv [o.a.toNat, o.b.toNat] o.d.toNat 1 true (fun s => aluAdd (s.tcSat tile o.s) (s.g tile o.a.toNat) (s.g tile o.b.toNat)))

/-- SUB (R143). -/
def execTcSub (tile : Nat) (mv : Moves) (o : TcT) (s : State) : Host.Outcome State Fault Refusal :=
  .next (s.tcInt tile mv [o.a.toNat, o.b.toNat] o.d.toNat 1 true (fun s => aluSub (s.tcSat tile o.s) (s.g tile o.a.toNat) (s.g tile o.b.toNat)))

/-- NEG (R143). -/
def execTcNeg (tile : Nat) (mv : Moves) (o : TcT) (s : State) : Host.Outcome State Fault Refusal :=
  .next (s.tcInt tile mv [o.a.toNat] o.d.toNat 1 true (fun s => aluNeg (s.tcSat tile o.s) (s.g tile o.a.toNat)))

/-- ABS (R143). -/
def execTcAbs (tile : Nat) (mv : Moves) (o : TcT) (s : State) : Host.Outcome State Fault Refusal :=
  .next (s.tcInt tile mv [o.a.toNat] o.d.toNat 1 true (fun s => aluAbs (s.tcSat tile o.s) (s.g tile o.a.toNat)))

/-- MIN (R143). -/
def execTcMin (tile : Nat) (mv : Moves) (o : TcT) (s : State) : Host.Outcome State Fault Refusal :=
  .next (s.tcInt tile mv [o.a.toNat, o.b.toNat] o.d.toNat 1 true (fun s => aluNz (if (s.g tile o.b.toNat).toInt < (s.g tile o.a.toNat).toInt then (s.g tile o.b.toNat) else (s.g tile o.a.toNat))))

/-- MAX (R143). -/
def execTcMax (tile : Nat) (mv : Moves) (o : TcT) (s : State) : Host.Outcome State Fault Refusal :=
  .next (s.tcInt tile mv [o.a.toNat, o.b.toNat] o.d.toNat 1 true (fun s => aluNz (if (s.g tile o.a.toNat).toInt < (s.g tile o.b.toNat).toInt then (s.g tile o.b.toNat) else (s.g tile o.a.toNat))))

/-- MINU (R143). -/
def execTcMinu (tile : Nat) (mv : Moves) (o : TcT) (s : State) : Host.Outcome State Fault Refusal :=
  .next (s.tcInt tile mv [o.a.toNat, o.b.toNat] o.d.toNat 1 true (fun s => aluNz (if (s.g tile o.b.toNat).toNat < (s.g tile o.a.toNat).toNat then (s.g tile o.b.toNat) else (s.g tile o.a.toNat))))

/-- MAXU (R143). -/
def execTcMaxu (tile : Nat) (mv : Moves) (o : TcT) (s : State) : Host.Outcome State Fault Refusal :=
  .next (s.tcInt tile mv [o.a.toNat, o.b.toNat] o.d.toNat 1 true (fun s => aluNz (if (s.g tile o.a.toNat).toNat < (s.g tile o.b.toNat).toNat then (s.g tile o.b.toNat) else (s.g tile o.a.toNat))))

/-- AND (R143). -/
def execTcAnd (tile : Nat) (mv : Moves) (o : TcT) (s : State) : Host.Outcome State Fault Refusal :=
  .next (s.tcInt tile mv [o.a.toNat, o.b.toNat] o.d.toNat 1 true (fun s => aluNz ((s.g tile o.a.toNat) &&& (s.g tile o.b.toNat))))

/-- OR (R143). -/
def execTcOr (tile : Nat) (mv : Moves) (o : TcT) (s : State) : Host.Outcome State Fault Refusal :=
  .next (s.tcInt tile mv [o.a.toNat, o.b.toNat] o.d.toNat 1 true (fun s => aluNz ((s.g tile o.a.toNat) ||| (s.g tile o.b.toNat))))

/-- XOR (R143). -/
def execTcXor (tile : Nat) (mv : Moves) (o : TcT) (s : State) : Host.Outcome State Fault Refusal :=
  .next (s.tcInt tile mv [o.a.toNat, o.b.toNat] o.d.toNat 1 true (fun s => aluNz ((s.g tile o.a.toNat) ^^^ (s.g tile o.b.toNat))))

/-- NOT (R143). -/
def execTcNot (tile : Nat) (mv : Moves) (o : TcT) (s : State) : Host.Outcome State Fault Refusal :=
  .next (s.tcInt tile mv [o.a.toNat] o.d.toNat 1 true (fun s => aluNz (~~~(s.g tile o.a.toNat))))

/-- MOV (R143). -/
def execTcMov (tile : Nat) (mv : Moves) (o : TcT) (s : State) : Host.Outcome State Fault Refusal :=
  .next (s.tcInt tile mv [o.a.toNat] o.d.toNat 1 false (fun s => aluPlain (s.g tile o.a.toNat)))

/-- CMP (R143): the flags of a − b, as SUB. -/
def execTcCmp (tile : Nat) (mv : Moves) (o : TcT) (s : State) : Host.Outcome State Fault Refusal :=
  .next (s.tcTest tile mv [o.a.toNat, o.b.toNat] 1 (fun s => (aluSub false (s.g tile o.a.toNat) (s.g tile o.b.toNat)).2))

/-- SHL (R143, R144). -/
def execTcShl (tile : Nat) (mv : Moves) (o : TcT) (s : State) : Host.Outcome State Fault Refusal :=
  .next (s.tcInt tile mv [o.a.toNat, o.b.toNat] o.d.toNat 1 true (fun s => aluShl (s.tcSat tile o.s) (s.g tile o.a.toNat) (shiftAmount (s.g tile o.b.toNat))))

/-- SHR (R143, R144). -/
def execTcShr (tile : Nat) (mv : Moves) (o : TcT) (s : State) : Host.Outcome State Fault Refusal :=
  .next (s.tcInt tile mv [o.a.toNat, o.b.toNat] o.d.toNat 1 true (fun s => aluShr (s.g tile o.a.toNat) (shiftAmount (s.g tile o.b.toNat))))

/-- SAR (R143, R144). -/
def execTcSar (tile : Nat) (mv : Moves) (o : TcT) (s : State) : Host.Outcome State Fault Refusal :=
  .next (s.tcInt tile mv [o.a.toNat, o.b.toNat] o.d.toNat 1 true (fun s => aluSar (s.g tile o.a.toNat) (shiftAmount (s.g tile o.b.toNat))))

/-- ROL (R143). -/
def execTcRol (tile : Nat) (mv : Moves) (o : TcT) (s : State) : Host.Outcome State Fault Refusal :=
  .next (s.tcInt tile mv [o.a.toNat, o.b.toNat] o.d.toNat 1 true (fun s => aluNz ((s.g tile o.a.toNat).rotateLeft ((s.g tile o.b.toNat).toNat % 32))))

/-- ROR (R143). -/
def execTcRor (tile : Nat) (mv : Moves) (o : TcT) (s : State) : Host.Outcome State Fault Refusal :=
  .next (s.tcInt tile mv [o.a.toNat, o.b.toNat] o.d.toNat 1 true (fun s => aluNz ((s.g tile o.a.toNat).rotateRight ((s.g tile o.b.toNat).toNat % 32))))

/-- MUL (R143). -/
def execTcMul (tile : Nat) (mv : Moves) (o : TcT) (s : State) : Host.Outcome State Fault Refusal :=
  .next (s.tcInt tile mv [o.a.toNat, o.b.toNat] o.d.toNat 2 true (fun s => aluMul (s.tcSat tile o.s) (s.g tile o.a.toNat) (s.g tile o.b.toNat)))

/-- MULH (R143). -/
def execTcMulh (tile : Nat) (mv : Moves) (o : TcT) (s : State) : Host.Outcome State Fault Refusal :=
  .next (s.tcInt tile mv [o.a.toNat, o.b.toNat] o.d.toNat 2 true (fun s => aluNz (BitVec.ofInt 32 ((s.g tile o.a.toNat).toInt * (s.g tile o.b.toNat).toInt / 2 ^ 32))))

/-- MULHU (R143). -/
def execTcMulhu (tile : Nat) (mv : Moves) (o : TcT) (s : State) : Host.Outcome State Fault Refusal :=
  .next (s.tcInt tile mv [o.a.toNat, o.b.toNat] o.d.toNat 2 true (fun s => aluNz (BitVec.ofNat 32 ((s.g tile o.a.toNat).toNat * (s.g tile o.b.toNat).toNat / 2 ^ 32))))

/-- A division: quotient to gd and remainder to g((d + 1) mod 32), with the trap of R145 and R150. -/
def State.tcDivide (s : State) (t : Nat) (mv : Moves) (o : TcT) (f : State → Word × Word × FlagSet) : State :=
  let d := o.d.toNat
  let d1 := (d + 1) % 32
  s.tcOp t mv [o.a.toNat, o.b.toNat] [(d, 24), (d1, 24), (52, 24), (53, 24)] none (fun s =>
    let r := f s
    let s := ((s.setG t d r.1).setG t d1 r.2.1).setFlags t r.2.2
    if r.2.2.dz && s.bit (Reg.TC_CTRL t) 0 then s.tcTrap t 0x0204 else s)

/-- DIVS (R143 to R145). -/
def execTcDivs (tile : Nat) (mv : Moves) (o : TcT) (s : State) : Host.Outcome State Fault Refusal :=
  .next (s.tcDivide tile mv o (fun s => aluDivs (s.tcSat tile o.s) (s.g tile o.a.toNat) (s.g tile o.b.toNat)))

/-- DIVU (R143, R145). -/
def execTcDivu (tile : Nat) (mv : Moves) (o : TcT) (s : State) : Host.Outcome State Fault Refusal :=
  .next (s.tcDivide tile mv o (fun s => aluDivu (s.g tile o.a.toNat) (s.g tile o.b.toNat)))

/-- ADDI (R143). -/
def execTcAddi (tile : Nat) (mv : Moves) (o : TcI) (s : State) : Host.Outcome State Fault Refusal :=
  .next (s.tcInt tile mv [o.a.toNat] o.d.toNat 1 true (fun s => aluAdd (s.tcSat tile false) (s.g tile o.a.toNat) (TcI_imm o)))

/-- ANDI (R143). -/
def execTcAndi (tile : Nat) (mv : Moves) (o : TcI) (s : State) : Host.Outcome State Fault Refusal :=
  .next (s.tcInt tile mv [o.a.toNat] o.d.toNat 1 true (fun s => aluNz ((s.g tile o.a.toNat) &&& (TcI_imm o))))

/-- ORI (R143). -/
def execTcOri (tile : Nat) (mv : Moves) (o : TcI) (s : State) : Host.Outcome State Fault Refusal :=
  .next (s.tcInt tile mv [o.a.toNat] o.d.toNat 1 true (fun s => aluNz ((s.g tile o.a.toNat) ||| (TcI_imm o))))

/-- XORI (R143). -/
def execTcXori (tile : Nat) (mv : Moves) (o : TcI) (s : State) : Host.Outcome State Fault Refusal :=
  .next (s.tcInt tile mv [o.a.toNat] o.d.toNat 1 true (fun s => aluNz ((s.g tile o.a.toNat) ^^^ (TcI_imm o))))

/-- SHLI (R143, R144). -/
def execTcShli (tile : Nat) (mv : Moves) (o : TcI) (s : State) : Host.Outcome State Fault Refusal :=
  .next (s.tcInt tile mv [o.a.toNat] o.d.toNat 1 true (fun s => aluShl (s.tcSat tile false) (s.g tile o.a.toNat) (shiftAmount (TcI_imm o))))

/-- SHRI (R143, R144). -/
def execTcShri (tile : Nat) (mv : Moves) (o : TcI) (s : State) : Host.Outcome State Fault Refusal :=
  .next (s.tcInt tile mv [o.a.toNat] o.d.toNat 1 true (fun s => aluShr (s.g tile o.a.toNat) (shiftAmount (TcI_imm o))))

/-- SARI (R143, R144). -/
def execTcSari (tile : Nat) (mv : Moves) (o : TcI) (s : State) : Host.Outcome State Fault Refusal :=
  .next (s.tcInt tile mv [o.a.toNat] o.d.toNat 1 true (fun s => aluSar (s.g tile o.a.toNat) (shiftAmount (TcI_imm o))))

/-- CMPI (R143): the flags of a − imm. -/
def execTcCmpi (tile : Nat) (mv : Moves) (o : TcI) (s : State) : Host.Outcome State Fault Refusal :=
  .next (s.tcTest tile mv [o.a.toNat] 1 (fun s => (aluSub false (s.g tile o.a.toNat) (TcI_imm o)).2))

/-- MOVI (R143). -/
def execTcMovi (tile : Nat) (mv : Moves) (o : TcL) (s : State) : Host.Outcome State Fault Refusal :=
  .next (s.tcInt tile mv [] o.d.toNat 1 false (fun _ => aluPlain (o.imm.signExtend 32)))

/-- MOVHI (R143): the low half stays. -/
def execTcMovhi (tile : Nat) (mv : Moves) (o : TcL) (s : State) : Host.Outcome State Fault Refusal :=
  .next (s.tcInt tile mv [] o.d.toNat 1 false (fun s =>
    aluPlain (BitVec.ofNat 32 (o.imm.toNat * 65536 + (s.g tile o.d.toNat).toNat % 65536))))

/-- An accumulator takes an exact value (R144, R146): v is set or cleared by whether it fits. -/
def State.accPut (s : State) (t a : Nat) (sat : Bool) (x : Int) : State :=
  let r := fit40 sat x
  (s.setAcc40 t a r.1).setFlags t { v := some r.2 }

/-- MAC and MSU (R146). -/
def State.tcMacOp (s : State) (t : Nat) (mv : Moves) (o : TcA) (sub : Bool) : State :=
  let k := o.acc.toNat
  s.tcOp t mv [o.a.toNat, o.b.toNat] [(32 + k, 2), (52, 2)] none (fun s =>
    let p := macProduct o.sel o.frac (s.g t o.a.toNat) (s.g t o.b.toNat)
    let x := (s.acc40 t k).toInt
    s.accPut t k (s.tcSat t o.s) (if sub then x - p else x + p))

/-- MAC (R143, R146). -/
def execTcMac (tile : Nat) (mv : Moves) (o : TcA) (s : State) : Host.Outcome State Fault Refusal :=
  .next (s.tcMacOp tile mv o false)

/-- MSU (R143, R146). -/
def execTcMsu (tile : Nat) (mv : Moves) (o : TcA) (s : State) : Host.Outcome State Fault Refusal :=
  .next (s.tcMacOp tile mv o true)

/-- ACLR (R143). -/
def execTcAclr (tile : Nat) (mv : Moves) (acc : BitVec 2) (s : State) : Host.Outcome State Fault Refusal :=
  .next (s.tcOp tile mv [] [(32 + acc.toNat, 1)] none (fun s => s.setAcc40 tile acc.toNat 0))

/-- ACLD (R146). -/
def execTcAcld (tile : Nat) (mv : Moves) (acc : BitVec 2) (a sh : BitVec 5) (sb : Bool) (s : State) :
    Host.Outcome State Fault Refusal :=
  .next (s.tcOp tile mv [a.toNat] [(32 + acc.toNat, 1), (52, 1)] none (fun s =>
    s.accPut tile acc.toNat (s.tcSat tile sb) ((s.g tile a.toNat).toInt * 2 ^ sh.toNat)))

/-- ACCX (R146). -/
def execTcAccx (tile : Nat) (mv : Moves) (acc : BitVec 2) (d sh : BitVec 5) (w sb : Bool) (s : State) :
    Host.Outcome State Fault Refusal :=
  .next (s.tcInt tile mv [32 + acc.toNat] d.toNat 2 true (fun s =>
    let r := accExtract (s.bit (Reg.TC_FLAGS tile) 17 || sb) w (s.acc40 tile acc.toNat) sh.toNat
    (r.1, { nz r.1 with v := some r.2 })))

/-- A search step (R147). -/
def State.tcSearch (s : State) (t : Nat) (mv : Moves) (o : TcT) (lat : Nat) (fp max : Bool) : State :=
  let d := o.d.toNat
  let d1 := (d + 1) % 32
  s.tcOp t mv [o.a.toNat, o.b.toNat] [(d, lat), (d1, lat)] none (fun s =>
    let a := s.g t o.a.toNat
    if searchWins fp max a (s.g t d) then ((s.setG t d a).setG t d1 (s.g t o.b.toNat)) else s)

/-- MAXI (R143, R147). -/
def execTcMaxi (tile : Nat) (mv : Moves) (o : TcT) (s : State) : Host.Outcome State Fault Refusal :=
  .next (s.tcSearch tile mv o 1 false true)

/-- MINI (R143, R147). -/
def execTcMini (tile : Nat) (mv : Moves) (o : TcT) (s : State) : Host.Outcome State Fault Refusal :=
  .next (s.tcSearch tile mv o 1 false false)

/-- FMAXI (R143, R147). -/
def execTcFmaxi (tile : Nat) (mv : Moves) (o : TcT) (s : State) : Host.Outcome State Fault Refusal :=
  .next (s.tcSearch tile mv o 2 true true)

/-- FMINI (R143, R147). -/
def execTcFmini (tile : Nat) (mv : Moves) (o : TcT) (s : State) : Host.Outcome State Fault Refusal :=
  .next (s.tcSearch tile mv o 2 true false)

end Sys2Proof.Machine
end

