-- ==== Sys2Proof/Machine/TcCtl.lean ====
section
/-!
DEFINITION. The meanings of the pointer, port, flag, branch, loop and waiting instructions of the tile core (R142, R143, R149
to R151).
-/
namespace Sys2Proof.Machine

/-- PSET (R143): the operation's value of the pointer stands over a move's (R139). -/
def execTcPset (tile : Nat) (mv : Moves) (o : TcP) (s : State) : Host.Outcome State Fault Refusal :=
  .next (s.tcOp tile mv [o.r.toNat] [(keyPtr o.y o.p.toNat, 1)] (some (o.y, o.p.toNat)) (fun s =>
    s.setPtr tile o.y o.p.toNat (s.g tile o.r.toNat).toNat))

/-- PGET (R143). -/
def execTcPget (tile : Nat) (mv : Moves) (o : TcP) (s : State) : Host.Outcome State Fault Refusal :=
  .next (s.tcInt tile mv [keyPtr o.y o.p.toNat] o.r.toNat 1 false (fun s =>
    aluPlain (BitVec.ofNat 32 (s.ptr tile o.y o.p.toNat))))

/-- MSET (R143). -/
def execTcMset (tile : Nat) (mv : Moves) (o : TcP) (s : State) : Host.Outcome State Fault Refusal :=
  .next (s.tcOp tile mv [o.r.toNat] [(keyMod o.y o.p.toNat, 1)] none (fun s =>
    s.wr (modReg tile o.y o.p.toNat) (s.g tile o.r.toNat)))

/-- PSTEP (R142, R143). -/
def execTcPstep (tile : Nat) (mv : Moves) (y : Bool) (p : BitVec 2) (s : State) : Host.Outcome State Fault Refusal :=
  .next (s.tcOp tile mv [keyMod y p.toNat] [(keyPtr y p.toNat, 1)] (some (y, p.toNat)) (fun s =>
    s.setPtr tile y p.toNat (modstep (s.ptr tile y p.toNat) (s.rd (modReg tile y p.toNat)))))

/-- What IN reads from a port (R149). -/
def State.inPort (s : State) (t port : Nat) : Word :=
  match port with
  | 0 => s.rd (Reg.SEQ_STEP_LO t)
  | 1 => s.rd (Reg.SEQ_STEP_HI t)
  | 2 => s.rd (Reg.SEQ_ATTEMPT t)
  | 3 => s.rd (Reg.SEQ_BEAT_MS_LO t)
  | 4 => s.rd (Reg.SEQ_BEAT_MS_HI t)
  | 5 => BitVec.ofNat 32 (s.variant t)
  | 6 => BitVec.ofNat 32 t
  | 7 => BitVec.ofNat 32 (s.hs t)
  | p => if p < 16 then BitVec.ofNat 32 (s.ctxFill t (p - 8)) else 0

/-- IN (R149). -/
def execTcIn (tile : Nat) (mv : Moves) (d : BitVec 5) (port : BitVec 8) (s : State) : Host.Outcome State Fault Refusal :=
  .next (s.tcInt tile mv [] d.toNat 1 false (fun s => aluPlain (s.inPort tile port.toNat)))

/-- OUT to a release port (R149). -/
def execTcOutRelease (tile : Nat) (mv : Moves) (a : BitVec 5) (ctx : BitVec 3) (s : State) :
    Host.Outcome State Fault Refusal :=
  .next (s.tcOp tile mv [a.toNat] [] none (fun s => s.seRelease tile ctx.toNat ((s.g tile a.toNat).field 0 13)))

/-- OUT to a push port (R149). -/
def execTcOutPush (tile : Nat) (mv : Moves) (a : BitVec 5) (ctx : BitVec 3) (s : State) : Host.Outcome State Fault Refusal :=
  .next (s.tcOp tile mv [a.toNat] [] none (fun s => s.sePush tile ctx.toNat ((s.g tile a.toNat).field 0 13)))

/-- OUT to port 0x10 (R149): `pending` of an append region is set. -/
def execTcOutSetPending (tile : Nat) (mv : Moves) (a : BitVec 5) (s : State) : Host.Outcome State Fault Refusal :=
  .next (s.tcOp tile mv [a.toNat] [] none (fun s =>
    s.setBit (Reg.SEQ_APP_CTRL tile ((s.g tile a.toNat).field 0 7)) 31 true))

/-- OUT to port 0x11 (R149). -/
def execTcOutPwrmode (tile : Nat) (mv : Moves) (a : BitVec 5) (s : State) : Host.Outcome State Fault Refusal :=
  .next (s.tcOp tile mv [a.toNat] [] none (fun s =>
    s.wr (Reg.TC_PWRMODE tile) (BitVec.ofNat 32 ((s.g tile a.toNat).field 0 2))))

/-- FGET (R143). -/
def execTcFget (tile : Nat) (mv : Moves) (d : BitVec 5) (s : State) : Host.Outcome State Fault Refusal :=
  .next (s.tcInt tile mv [52, 55] d.toNat 1 false (fun s => aluPlain (s.rd (Reg.TC_FLAGS tile))))

/-- The defined fields of `TC_FLAGS`. -/
def tcFlagsMask : Word := 0x00031F3F

/-- FSET (R143): the defined fields take the register's bits. -/
def execTcFset (tile : Nat) (mv : Moves) (a : BitVec 5) (s : State) : Host.Outcome State Fault Refusal :=
  .next (s.tcOp tile mv [a.toNat] [(52, 1), (55, 1)] none (fun s =>
    s.wr (Reg.TC_FLAGS tile) (s.g tile a.toNat &&& tcFlagsMask)))

/-- The registers that a branch reads for its condition. -/
def condKeys (cond : BitVec 3) : List Nat := if cond = 0 then [] else [52]

/-- B (R143). -/
def execTcB (tile : Nat) (mv : Moves) (cond : BitVec 3) (target : BitVec 13) (s : State) : Host.Outcome State Fault Refusal :=
  .next (s.issueTc tile mv (condKeys cond) [] none (fun s h pc =>
    if condHolds cond (s.rd (Reg.TC_FLAGS tile)) then s.tcTaken tile h target.toNat else s.tcFall tile h pc))

/-- BL (R143): g31 takes the address after the branch. -/
def execTcBl (tile : Nat) (mv : Moves) (cond : BitVec 3) (target : BitVec 13) (s : State) : Host.Outcome State Fault Refusal :=
  .next (s.issueTc tile mv (condKeys cond) [(31, 1)] none (fun s h pc =>
    if condHolds cond (s.rd (Reg.TC_FLAGS tile)) then
      (s.setG tile 31 (BitVec.ofNat 32 ((pc + 1) % 8192))).tcTaken tile h target.toNat
    else s.tcFall tile h pc))

/-- BR (R143). -/
def execTcBr (tile : Nat) (mv : Moves) (cond : BitVec 3) (a : BitVec 5) (s : State) : Host.Outcome State Fault Refusal :=
  .next (s.issueTc tile mv (a.toNat :: condKeys cond) [] none (fun s h pc =>
    if condHolds cond (s.rd (Reg.TC_FLAGS tile)) then s.tcTaken tile h ((s.g tile a.toNat).field 0 13)
    else s.tcFall tile h pc))

/-- The count of a LOOP: an immediate, or the register that its fields name (R140). -/
def State.loopCount (s : State) (t : Nat) (src : Bool) (cnt : BitVec 10) : Nat :=
  if src then (s.g t (cnt.toNat / 32)).toNat else cnt.toNat

/-- LOOP (R143): a fifth nested loop is unpredictable; a count of 0 skips the body. -/
def execTcLoop (tile : Nat) (mv : Moves) (src : Bool) (cnt : BitVec 10) (last : BitVec 13) (s : State) :
    Host.Outcome State Fault Refusal :=
  if s.tcReady tile && (s.tile tile).tc.loops.length == 4 && s.loopCount tile src cnt != 0 then
    .fault (.unpredictableInPartition 143)
  else
    .next (s.issueTc tile mv (if src then [cnt.toNat / 32] else []) [] none (fun s h pc =>
      let n := s.loopCount tile src cnt
      if n = 0 then s.tcTaken tile h ((last.toNat + 1) % 8192)
      else s.tcFlow tile (⟨(pc + 1) % 8192, last.toNat, n - 1⟩ :: (s.tile tile).tc.loops) ((pc + 1) % 8192) (nextIssue h)))

/-- What WAIT does (R143, R155, R157, R158, R167). -/
def State.tcWaitSem (s : State) (t k n : Nat) : State :=
  if n = 0 then s
  else if !(s.semBroken t k) && decide (s.semCap t k < n) then
    (s.semFault t k 1 srcTc n (s.semCount t k) (s.pc t)).stopTc t
  else match s.semTry t k n with
    | (.taken, s') => s'
    | (.broken, s') => (s'.semFault t k 2 srcTc n (s'.semCount t k) (s'.pc t)).stopTc t
    | (.short, s') => ((s'.setTc t { (s'.tile t).tc with waitSem := some (k, n) }).setTcState t 2).semWaiters t k

/-- WAIT (R143). -/
def execTcWait (tile : Nat) (mv : Moves) (sem : BitVec 6) (count : BitVec 12) (s : State) : Host.Outcome State Fault Refusal :=
  .next (s.tcOp tile mv [] [] none (fun s => s.tcWaitSem tile sem.toNat count.toNat))

/-- SIG (R143, R155): the signal takes effect one handshake after the issue. -/
def execTcSig (tile : Nat) (mv : Moves) (sem : BitVec 6) (count : BitVec 12) (s : State) : Host.Outcome State Fault Refusal :=
  .next (s.issueTc tile mv [] [] none (fun s h pc =>
    let s := if count = 0 then s
      else s.addEv tile ⟨h + 1, (s.tile tile).order, 0xFFFF, .semSignal sem.toNat count.toNat srcTc pc⟩
    s.tcFall tile h pc))

/-- SIGR (R143, R155, R163). -/
def execTcSigr (tile : Nat) (mv : Moves) (sem : BitVec 6) (a : BitVec 5) (s : State) : Host.Outcome State Fault Refusal :=
  .next (s.tcOp tile mv [a.toNat] [] none (fun s =>
    let v := s.g tile a.toNat
    s.remoteSignal tile sem.toNat (v.field 16 12) (v.field 0 7) false))

/-- WAITE (R143): a set event bit is cleared and the program goes on; otherwise the tile core parks. -/
def execTcWaite (tile : Nat) (mv : Moves) (event : BitVec 4) (s : State) : Host.Outcome State Fault Refusal :=
  .next (s.tcOp tile mv [] [] none (fun s =>
    if s.bit (Reg.TC_EVENT tile) event.toNat then s.setBit (Reg.TC_EVENT tile) event.toNat false
    else (s.setTc tile { (s.tile tile).tc with waitEvent := some event.toNat }).setTcState tile 2))

/-- The tile core halts: the loop stack is empty (R143). -/
def State.tcHalt (s : State) (t : Nat) (power : Bool) : State :=
  let c := (s.tile t).tc
  ((s.setTc t { c with loops := [], power := power }).setTcState t (if power then 3 else 0)).setFld (Reg.TC_STATUS t) 4 3 0

/-- HALT (R143). -/
def execTcHalt (tile : Nat) (mv : Moves) (s : State) : Host.Outcome State Fault Refusal :=
  .next (s.tcOp tile mv [] [] none (fun s => s.tcHalt tile false))

/-- WAITP (R151): a rung of 0 makes it a plain HALT. -/
def execTcWaitp (tile : Nat) (mv : Moves) (s : State) : Host.Outcome State Fault Refusal :=
  .next (s.tcOp tile mv [] [] none (fun s => s.tcHalt tile (s.fld (Reg.TC_PWRMODE tile) 0 2 != 0)))

end Sys2Proof.Machine
end

