-- ==== Sys2Proof/Machine/TcFp.lean ====
section
/-!
DEFINITION. The meanings of the FP32 instructions of the tile core (R143, R148).
-/
namespace Sys2Proof.Machine

/-- The value that a register holds as FP32. -/
def State.fv (s : State) (t i : Nat) : Fv := Fmt.fp32.decode (s.g t i).toNat

/-- A result as a register value with its sticky flags. -/
def FRes.pair (r : FRes) : Word × Word := (BitVec.ofNat 32 r.code, r.tcFlags)

/-- FADD (R148). -/
def execTcFadd (tile : Nat) (mv : Moves) (o : TcT) (s : State) : Host.Outcome State Fault Refusal :=
  .next (s.tcFloat tile mv [o.a.toNat, o.b.toNat] o.d.toNat 4 [] (fun s => (Fmt.fp32.addV (s.fv tile o.a.toNat) (s.fv tile o.b.toNat)).pair))

/-- FSUB (R148). -/
def execTcFsub (tile : Nat) (mv : Moves) (o : TcT) (s : State) : Host.Outcome State Fault Refusal :=
  .next (s.tcFloat tile mv [o.a.toNat, o.b.toNat] o.d.toNat 4 [] (fun s => (Fmt.fp32.addV (s.fv tile o.a.toNat) (s.fv tile o.b.toNat).negate).pair))

/-- FMUL (R148). -/
def execTcFmul (tile : Nat) (mv : Moves) (o : TcT) (s : State) : Host.Outcome State Fault Refusal :=
  .next (s.tcFloat tile mv [o.a.toNat, o.b.toNat] o.d.toNat 4 [] (fun s => (Fmt.fp32.mulV (s.fv tile o.a.toNat) (s.fv tile o.b.toNat)).pair))

/-- FFMA (R148): one rounding. -/
def execTcFfma (tile : Nat) (mv : Moves) (o : TcT) (s : State) : Host.Outcome State Fault Refusal :=
  .next (s.tcFloat tile mv [o.a.toNat, o.b.toNat] o.d.toNat 4 [] (fun s => (Fmt.fp32.fmaV (s.fv tile o.a.toNat) (s.fv tile o.b.toNat) (s.fv tile o.d.toNat)).pair))

/-- FDIV (R148). -/
def execTcFdiv (tile : Nat) (mv : Moves) (o : TcT) (s : State) : Host.Outcome State Fault Refusal :=
  .next (s.tcFloat tile mv [o.a.toNat, o.b.toNat] o.d.toNat 16 [53] (fun s => (Fmt.fp32.divV (s.fv tile o.a.toNat) (s.fv tile o.b.toNat)).pair))

/-- FSQRT (R148). -/
def execTcFsqrt (tile : Nat) (mv : Moves) (o : TcT) (s : State) : Host.Outcome State Fault Refusal :=
  .next (s.tcFloat tile mv [o.a.toNat] o.d.toNat 16 [54] (fun s => (Fmt.fp32.sqrtV (s.fv tile o.a.toNat)).pair))

/-- FMIN (R148). -/
def execTcFmin (tile : Nat) (mv : Moves) (o : TcT) (s : State) : Host.Outcome State Fault Refusal :=
  .next (s.tcInt tile mv [o.a.toNat, o.b.toNat] o.d.toNat 2 false (fun s => aluPlain (fpExtreme false (s.g tile o.a.toNat) (s.g tile o.b.toNat))))

/-- FMAX (R148). -/
def execTcFmax (tile : Nat) (mv : Moves) (o : TcT) (s : State) : Host.Outcome State Fault Refusal :=
  .next (s.tcInt tile mv [o.a.toNat, o.b.toNat] o.d.toNat 2 false (fun s => aluPlain (fpExtreme true (s.g tile o.a.toNat) (s.g tile o.b.toNat))))

/-- FCMP (R148). -/
def execTcFcmp (tile : Nat) (mv : Moves) (o : TcT) (s : State) : Host.Outcome State Fault Refusal :=
  .next (s.tcTest tile mv [o.a.toNat, o.b.toNat] 2 (fun s => fpCompare (s.g tile o.a.toNat) (s.g tile o.b.toNat)))

/-- FABS (R143). -/
def execTcFabs (tile : Nat) (mv : Moves) (o : TcT) (s : State) : Host.Outcome State Fault Refusal :=
  .next (s.tcInt tile mv [o.a.toNat] o.d.toNat 1 false (fun s => aluPlain ((s.g tile o.a.toNat) &&& 0x7FFFFFFF)))

/-- FNEG (R143). -/
def execTcFneg (tile : Nat) (mv : Moves) (o : TcT) (s : State) : Host.Outcome State Fault Refusal :=
  .next (s.tcInt tile mv [o.a.toNat] o.d.toNat 1 false (fun s => aluPlain ((s.g tile o.a.toNat) ^^^ 0x80000000)))

/-- FCVTF (R143): a signed integer, RNE. -/
def execTcFcvtf (tile : Nat) (mv : Moves) (o : TcT) (s : State) : Host.Outcome State Fault Refusal :=
  .next (s.tcFloat tile mv [o.a.toNat] o.d.toNat 4 [] (fun s => (fpFromInt (s.g tile o.a.toNat)).pair))

/-- FCVTI (R143, R148). -/
def execTcFcvti (tile : Nat) (mv : Moves) (o : TcT) (rm : Bool) (s : State) : Host.Outcome State Fault Refusal :=
  .next (s.tcFloat tile mv [o.a.toNat] o.d.toNat 4 [] (fun s => fpToInt rm (s.g tile o.a.toNat)))

end Sys2Proof.Machine
end

