-- ==== Sys2Proof/Machine/VeuEntries.lean ====
section
/-!
DEFINITION. The meanings of the VEU entries (R74, R75).
-/
namespace Sys2Proof.Machine

/-- Whether every re-issue of a load or store names a row of the store (R28). -/
def veuInStore (op : Nat) (f : VeuFields) (rep : Nat) : Bool :=
  !(op == veVld || op == veVst) || decide (f.row.toNat + rep < 8192)

/-- A VEU entry issues (R74): one operation every 4 handshakes, `rep` of them after the first, `row` rising with each. -/
def State.veuIssue (s : State) (t op rep : Nat) (f : VeuFields) (I entry order : Nat) : State :=
  let x := s.tile t
  if I < x.veu.accept then s.slotClash t 1 x.veu.entry entry I
  else
    let s := s.setTile t { x with veu := { x.veu with accept := I + 4 * (rep + 1), entry := entry } }
    s.addEvs t ((List.range (rep + 1)).map (fun i =>
      (⟨I + 4 * i, order, entry, .veu op { f with row := f.row + BitVec.ofNat 13 i }⟩ : TileEv)))

/-- A VEU entry of an opcode: operand values that the spec gives no effect are unpredictable (R74). -/
def veuEntry (op tile rep : Nat) (f : VeuFields) (s : State) : Host.Outcome State Fault Refusal :=
  if veuLegal op f && veuInStore op f rep then
    .next (s.issueEntry tile 1 (fun s I k order => s.veuIssue tile op rep f I k order))
  else badEntry 74

/-- VLD (R74), with the upsets that its read meets (R112). -/
def execVld (tile : Nat) (rep : BitVec 10) (f : VeuFields) (soft : List SoftErr) (s : State) :
    Host.Outcome State Fault Refusal :=
  veuEntry veVld tile rep.toNat f (s.addSoft tile soft)

/-- VST (R74). -/
def execVst (tile : Nat) (rep : BitVec 10) (f : VeuFields) (s : State) : Host.Outcome State Fault Refusal :=
  veuEntry veVst tile rep.toNat f s

/-- VADD (R74). -/
def execVadd (tile : Nat) (rep : BitVec 10) (f : VeuFields) (s : State) : Host.Outcome State Fault Refusal :=
  veuEntry veAdd tile rep.toNat f s

/-- VMUL (R74). -/
def execVmul (tile : Nat) (rep : BitVec 10) (f : VeuFields) (s : State) : Host.Outcome State Fault Refusal :=
  veuEntry veMul tile rep.toNat f s

/-- VFMA (R74). -/
def execVfma (tile : Nat) (rep : BitVec 10) (f : VeuFields) (s : State) : Host.Outcome State Fault Refusal :=
  veuEntry veFma tile rep.toNat f s

/-- VCMP (R74). -/
def execVcmp (tile : Nat) (rep : BitVec 10) (f : VeuFields) (s : State) : Host.Outcome State Fault Refusal :=
  veuEntry veCmp tile rep.toNat f s

/-- VSEL (R74). -/
def execVsel (tile : Nat) (rep : BitVec 10) (f : VeuFields) (s : State) : Host.Outcome State Fault Refusal :=
  veuEntry veSel tile rep.toNat f s

/-- VMAX (R74). -/
def execVmax (tile : Nat) (rep : BitVec 10) (f : VeuFields) (s : State) : Host.Outcome State Fault Refusal :=
  veuEntry veMax tile rep.toNat f s

/-- VMIN (R74). -/
def execVmin (tile : Nat) (rep : BitVec 10) (f : VeuFields) (s : State) : Host.Outcome State Fault Refusal :=
  veuEntry veMin tile rep.toNat f s

/-- VEXP2 (R74). -/
def execVexp2 (tile : Nat) (rep : BitVec 10) (f : VeuFields) (s : State) : Host.Outcome State Fault Refusal :=
  veuEntry veExp2 tile rep.toNat f s

/-- VLOG2 (R74). -/
def execVlog2 (tile : Nat) (rep : BitVec 10) (f : VeuFields) (s : State) : Host.Outcome State Fault Refusal :=
  veuEntry veLog2 tile rep.toNat f s

/-- VRCP (R74). -/
def execVrcp (tile : Nat) (rep : BitVec 10) (f : VeuFields) (s : State) : Host.Outcome State Fault Refusal :=
  veuEntry veRcp tile rep.toNat f s

/-- VRSQ (R74). -/
def execVrsq (tile : Nat) (rep : BitVec 10) (f : VeuFields) (s : State) : Host.Outcome State Fault Refusal :=
  veuEntry veRsq tile rep.toNat f s

/-- VEXPS (R74). -/
def execVexps (tile : Nat) (rep : BitVec 10) (f : VeuFields) (s : State) : Host.Outcome State Fault Refusal :=
  veuEntry veExps tile rep.toNat f s

/-- VRMAXI (R74). -/
def execVrmaxi (tile : Nat) (rep : BitVec 10) (f : VeuFields) (s : State) : Host.Outcome State Fault Refusal :=
  veuEntry veRmaxi tile rep.toNat f s

/-- VRMINI (R74). -/
def execVrmini (tile : Nat) (rep : BitVec 10) (f : VeuFields) (s : State) : Host.Outcome State Fault Refusal :=
  veuEntry veRmini tile rep.toNat f s

/-- VRSUM (R74). -/
def execVrsum (tile : Nat) (rep : BitVec 10) (f : VeuFields) (s : State) : Host.Outcome State Fault Refusal :=
  veuEntry veRsum tile rep.toNat f s

/-- VRSSQ (R74). -/
def execVrssq (tile : Nat) (rep : BitVec 10) (f : VeuFields) (s : State) : Host.Outcome State Fault Refusal :=
  veuEntry veRssq tile rep.toNat f s

/-- VCVT (R74). -/
def execVcvt (tile : Nat) (rep : BitVec 10) (f : VeuFields) (s : State) : Host.Outcome State Fault Refusal :=
  veuEntry veCvt tile rep.toNat f s

/-- VQNT (R74). -/
def execVqnt (tile : Nat) (rep : BitVec 10) (f : VeuFields) (s : State) : Host.Outcome State Fault Refusal :=
  veuEntry veQnt tile rep.toNat f s

/-- VDQNT (R74). -/
def execVdqnt (tile : Nat) (rep : BitVec 10) (f : VeuFields) (s : State) : Host.Outcome State Fault Refusal :=
  veuEntry veDqnt tile rep.toNat f s

/-- VBCAST (R74). -/
def execVbcast (tile : Nat) (rep : BitVec 10) (f : VeuFields) (s : State) : Host.Outcome State Fault Refusal :=
  veuEntry veBcast tile rep.toNat f s

end Sys2Proof.Machine
end

