-- ==== Sys2Proof/Machine/Dispatch.lean ====
section
/-!
DEFINITION. The meaning of every command: one arm for each constructor of `Instr`.
-/
namespace Sys2Proof.Machine

/-- The effect of a command on everything but the queue. -/
def exec (i : Instr) (s : State) : Host.Outcome State Fault Refusal :=
  match i with
  | .mbxReqTail fn value => Sys2Proof.Machine.execMbxReqTail fn value s
  | .mbxCplHead fn value => Sys2Proof.Machine.execMbxCplHead fn value s
  | .mbxNtcHead fn value => Sys2Proof.Machine.execMbxNtcHead fn value s
  | .mbxEnable fn value => Sys2Proof.Machine.execMbxEnable fn value s
  | .mbxRequestTake fn opcode tag => Sys2Proof.Machine.execMbxRequestTake fn opcode tag s
  | .noticeWrite => Sys2Proof.Machine.execNoticeWrite s
  | .hello r version => Sys2Proof.Machine.execHello r version s
  | .getInfo r => Sys2Proof.Machine.execGetInfo r s
  | .partCreate r t => Sys2Proof.Machine.execPartCreate r t s
  | .partCreateAmend r t => Sys2Proof.Machine.execPartCreateAmend r t s
  | .partDestroy r wipe => Sys2Proof.Machine.execPartDestroy r wipe s
  | .partReset r resume => Sys2Proof.Machine.execPartReset r resume s
  | .partQuery r => Sys2Proof.Machine.execPartQuery r s
  | .loadTileProgram r records dma => Sys2Proof.Machine.execLoadTileProgram r records dma s
  | .loadWeights r tile firstRow rows dma => Sys2Proof.Machine.execLoadWeights r tile firstRow rows dma s
  | .fabricLoad r stall => Sys2Proof.Machine.execFabricLoad r stall s
  | .fabricReadback r addr len bram live => Sys2Proof.Machine.execFabricReadback r addr len bram live s
  | .start r ms step => Sys2Proof.Machine.execStart r ms step s
  | .stop r ms next => Sys2Proof.Machine.execStop r ms next s
  | .setPeriod r period ms => Sys2Proof.Machine.execSetPeriod r period ms s
  | .linkConfig r object index reopen img0 img1 img2 => Sys2Proof.Machine.execLinkConfig r object index reopen img0 img1 img2 s
  | .linkStatus r object index => Sys2Proof.Machine.execLinkStatus r object index s
  | .routeEpoch r epoch ms => Sys2Proof.Machine.execRouteEpoch r epoch ms s
  | .routeEpochRejoin r epoch ms => Sys2Proof.Machine.execRouteEpochRejoin r epoch ms s
  | .routeNotice r kind firstChan chanCount endpoint ms opq => Sys2Proof.Machine.execRouteNotice r kind firstChan chanCount endpoint ms opq s
  | .powerState r rung lanes link hold => Sys2Proof.Machine.execPowerState r rung lanes link hold s
  | .powerStateDevice r rung lanes link hold => Sys2Proof.Machine.execPowerStateDevice r rung lanes link hold s
  | .powerLimit r watts => Sys2Proof.Machine.execPowerLimit r watts s
  | .timeConfig r role ref pins port endpoint epEn => Sys2Proof.Machine.execTimeConfig r role ref pins port endpoint epEn s
  | .timeRead r => Sys2Proof.Machine.execTimeRead r s
  | .logRead r addr max start minSev => Sys2Proof.Machine.execLogRead r addr max start minSev s
  | .dumpRead r addr slot release offset len => Sys2Proof.Machine.execDumpRead r addr slot release offset len s
  | .bootRecordRead r addr len => Sys2Proof.Machine.execBootRecordRead r addr len s
  | .bootRecordClear r => Sys2Proof.Machine.execBootRecordClear r s
  | .dramMap r mode => Sys2Proof.Machine.execDramMap r mode s
  | .qosSet r mask port target => Sys2Proof.Machine.execQosSet r mask port target s
  | .fwUpdate r offset slotKind last image => Sys2Proof.Machine.execFwUpdate r offset slotKind last image s
  | .fwActivate r now => Sys2Proof.Machine.execFwActivate r now s
  | .fwHeartbeatTick => Sys2Proof.Machine.execFwHeartbeatTick s
  | .fwHeartbeatLost => Sys2Proof.Machine.execFwHeartbeatLost s
  | .bar2Read fn offset len => Sys2Proof.Machine.execBar2Read fn offset len s
  | .bar2Write fn offset data => Sys2Proof.Machine.execBar2Write fn offset data s
  | .bar4Access offset write value => Sys2Proof.Machine.execBar4Access offset write value s
  | .functionLevelReset fn => Sys2Proof.Machine.execFunctionLevelReset fn s
  | .pcieLinkReset => Sys2Proof.Machine.execPcieLinkReset s
  | .ptmExchange => Sys2Proof.Machine.execPtmExchange s
  | .ptmResponse hostTime rtt => Sys2Proof.Machine.execPtmResponse hostTime rtt s
  | .milestone e => Sys2Proof.Machine.execMilestone e s
  | .beatStart partition => Sys2Proof.Machine.execBeatStart partition s
  | .mma tile arr rep f => Sys2Proof.Machine.execMma tile arr rep f s
  | .drain tile arr f => Sys2Proof.Machine.execDrain tile arr f s
  | .clear tile arr accSet => Sys2Proof.Machine.execClear tile arr accSet s
  | .mmaComplete tile arr => Sys2Proof.Machine.execMmaComplete tile arr s
  | .drainCapture tile arr => Sys2Proof.Machine.execDrainCapture tile arr s
  | .mvm tile f soft => Sys2Proof.Machine.execMvm tile f soft s
  | .vload tile f => Sys2Proof.Machine.execVload tile f s
  | .mdrain tile f => Sys2Proof.Machine.execMdrain tile f s
  | .vld tile rep f soft => Sys2Proof.Machine.execVld tile rep f soft s
  | .vst tile rep f => Sys2Proof.Machine.execVst tile rep f s
  | .vadd tile rep f => Sys2Proof.Machine.execVadd tile rep f s
  | .vmul tile rep f => Sys2Proof.Machine.execVmul tile rep f s
  | .vfma tile rep f => Sys2Proof.Machine.execVfma tile rep f s
  | .vcmp tile rep f => Sys2Proof.Machine.execVcmp tile rep f s
  | .vsel tile rep f => Sys2Proof.Machine.execVsel tile rep f s
  | .vmax tile rep f => Sys2Proof.Machine.execVmax tile rep f s
  | .vmin tile rep f => Sys2Proof.Machine.execVmin tile rep f s
  | .vexp2 tile rep f => Sys2Proof.Machine.execVexp2 tile rep f s
  | .vlog2 tile rep f => Sys2Proof.Machine.execVlog2 tile rep f s
  | .vrcp tile rep f => Sys2Proof.Machine.execVrcp tile rep f s
  | .vrsq tile rep f => Sys2Proof.Machine.execVrsq tile rep f s
  | .vexps tile rep f => Sys2Proof.Machine.execVexps tile rep f s
  | .vrmaxi tile rep f => Sys2Proof.Machine.execVrmaxi tile rep f s
  | .vrmini tile rep f => Sys2Proof.Machine.execVrmini tile rep f s
  | .vrsum tile rep f => Sys2Proof.Machine.execVrsum tile rep f s
  | .vrssq tile rep f => Sys2Proof.Machine.execVrssq tile rep f s
  | .vcvt tile rep f => Sys2Proof.Machine.execVcvt tile rep f s
  | .vqnt tile rep f => Sys2Proof.Machine.execVqnt tile rep f s
  | .vdqnt tile rep f => Sys2Proof.Machine.execVdqnt tile rep f s
  | .vbcast tile rep f => Sys2Proof.Machine.execVbcast tile rep f s
  | .swin tile f => Sys2Proof.Machine.execSwin tile f s
  | .sctxPause tile mask => Sys2Proof.Machine.execSctxPause tile mask s
  | .sctxResume tile mask => Sys2Proof.Machine.execSctxResume tile mask s
  | .sctxClose tile mask => Sys2Proof.Machine.execSctxClose tile mask s
  | .srel tile ctx rows => Sys2Proof.Machine.execSrel tile ctx rows s
  | .spush tile ctx rows => Sys2Proof.Machine.execSpush tile ctx rows s
  | .tcgo tile pc => Sys2Proof.Machine.execTcgo tile pc s
  | .tcev tile event => Sys2Proof.Machine.execTcev tile event s
  | .signal tile sem count => Sys2Proof.Machine.execSignal tile sem count s
  | .signalRemote tile sem count target => Sys2Proof.Machine.execSignalRemote tile sem count target s
  | .take tile sem count => Sys2Proof.Machine.execTake tile sem count s
  | .gate tile sem count => Sys2Proof.Machine.execGate tile sem count s
  | .endEntry tile => Sys2Proof.Machine.execEndEntry tile s
  | .nop tile rep => Sys2Proof.Machine.execNop tile rep s
  | .appadv tile rep region => Sys2Proof.Machine.execAppadv tile rep region s
  | .itinOverrun tile => Sys2Proof.Machine.execItinOverrun tile s
  | .tilePark tile => Sys2Proof.Machine.execTilePark tile s
  | .tileDone tile => Sys2Proof.Machine.execTileDone tile s
  | .waiterWake tile sem => Sys2Proof.Machine.execWaiterWake tile sem s
  | .tcNop tile mv => Sys2Proof.Machine.execTcNop tile mv s
  | .tcAdd tile mv o => Sys2Proof.Machine.execTcAdd tile mv o s
  | .tcSub tile mv o => Sys2Proof.Machine.execTcSub tile mv o s
  | .tcNeg tile mv o => Sys2Proof.Machine.execTcNeg tile mv o s
  | .tcAbs tile mv o => Sys2Proof.Machine.execTcAbs tile mv o s
  | .tcMin tile mv o => Sys2Proof.Machine.execTcMin tile mv o s
  | .tcMax tile mv o => Sys2Proof.Machine.execTcMax tile mv o s
  | .tcMinu tile mv o => Sys2Proof.Machine.execTcMinu tile mv o s
  | .tcMaxu tile mv o => Sys2Proof.Machine.execTcMaxu tile mv o s
  | .tcAnd tile mv o => Sys2Proof.Machine.execTcAnd tile mv o s
  | .tcOr tile mv o => Sys2Proof.Machine.execTcOr tile mv o s
  | .tcXor tile mv o => Sys2Proof.Machine.execTcXor tile mv o s
  | .tcNot tile mv o => Sys2Proof.Machine.execTcNot tile mv o s
  | .tcMov tile mv o => Sys2Proof.Machine.execTcMov tile mv o s
  | .tcCmp tile mv o => Sys2Proof.Machine.execTcCmp tile mv o s
  | .tcShl tile mv o => Sys2Proof.Machine.execTcShl tile mv o s
  | .tcShr tile mv o => Sys2Proof.Machine.execTcShr tile mv o s
  | .tcSar tile mv o => Sys2Proof.Machine.execTcSar tile mv o s
  | .tcRol tile mv o => Sys2Proof.Machine.execTcRol tile mv o s
  | .tcRor tile mv o => Sys2Proof.Machine.execTcRor tile mv o s
  | .tcMul tile mv o => Sys2Proof.Machine.execTcMul tile mv o s
  | .tcMulh tile mv o => Sys2Proof.Machine.execTcMulh tile mv o s
  | .tcMulhu tile mv o => Sys2Proof.Machine.execTcMulhu tile mv o s
  | .tcDivs tile mv o => Sys2Proof.Machine.execTcDivs tile mv o s
  | .tcDivu tile mv o => Sys2Proof.Machine.execTcDivu tile mv o s
  | .tcAddi tile mv o => Sys2Proof.Machine.execTcAddi tile mv o s
  | .tcAndi tile mv o => Sys2Proof.Machine.execTcAndi tile mv o s
  | .tcOri tile mv o => Sys2Proof.Machine.execTcOri tile mv o s
  | .tcXori tile mv o => Sys2Proof.Machine.execTcXori tile mv o s
  | .tcShli tile mv o => Sys2Proof.Machine.execTcShli tile mv o s
  | .tcShri tile mv o => Sys2Proof.Machine.execTcShri tile mv o s
  | .tcSari tile mv o => Sys2Proof.Machine.execTcSari tile mv o s
  | .tcCmpi tile mv o => Sys2Proof.Machine.execTcCmpi tile mv o s
  | .tcMovi tile mv o => Sys2Proof.Machine.execTcMovi tile mv o s
  | .tcMovhi tile mv o => Sys2Proof.Machine.execTcMovhi tile mv o s
  | .tcMac tile mv o => Sys2Proof.Machine.execTcMac tile mv o s
  | .tcMsu tile mv o => Sys2Proof.Machine.execTcMsu tile mv o s
  | .tcAclr tile mv acc => Sys2Proof.Machine.execTcAclr tile mv acc s
  | .tcAcld tile mv acc a sh sg => Sys2Proof.Machine.execTcAcld tile mv acc a sh sg s
  | .tcAccx tile mv acc d sh w sg => Sys2Proof.Machine.execTcAccx tile mv acc d sh w sg s
  | .tcMaxi tile mv o => Sys2Proof.Machine.execTcMaxi tile mv o s
  | .tcMini tile mv o => Sys2Proof.Machine.execTcMini tile mv o s
  | .tcFmaxi tile mv o => Sys2Proof.Machine.execTcFmaxi tile mv o s
  | .tcFmini tile mv o => Sys2Proof.Machine.execTcFmini tile mv o s
  | .tcFadd tile mv o => Sys2Proof.Machine.execTcFadd tile mv o s
  | .tcFsub tile mv o => Sys2Proof.Machine.execTcFsub tile mv o s
  | .tcFmul tile mv o => Sys2Proof.Machine.execTcFmul tile mv o s
  | .tcFfma tile mv o => Sys2Proof.Machine.execTcFfma tile mv o s
  | .tcFdiv tile mv o => Sys2Proof.Machine.execTcFdiv tile mv o s
  | .tcFsqrt tile mv o => Sys2Proof.Machine.execTcFsqrt tile mv o s
  | .tcFmin tile mv o => Sys2Proof.Machine.execTcFmin tile mv o s
  | .tcFmax tile mv o => Sys2Proof.Machine.execTcFmax tile mv o s
  | .tcFcmp tile mv o => Sys2Proof.Machine.execTcFcmp tile mv o s
  | .tcFabs tile mv o => Sys2Proof.Machine.execTcFabs tile mv o s
  | .tcFneg tile mv o => Sys2Proof.Machine.execTcFneg tile mv o s
  | .tcFcvtf tile mv o => Sys2Proof.Machine.execTcFcvtf tile mv o s
  | .tcFcvti tile mv o rm => Sys2Proof.Machine.execTcFcvti tile mv o rm s
  | .tcPset tile mv o => Sys2Proof.Machine.execTcPset tile mv o s
  | .tcPget tile mv o => Sys2Proof.Machine.execTcPget tile mv o s
  | .tcMset tile mv o => Sys2Proof.Machine.execTcMset tile mv o s
  | .tcPstep tile mv y p => Sys2Proof.Machine.execTcPstep tile mv y p s
  | .tcIn tile mv d port => Sys2Proof.Machine.execTcIn tile mv d port s
  | .tcOutRelease tile mv a ctx => Sys2Proof.Machine.execTcOutRelease tile mv a ctx s
  | .tcOutPush tile mv a ctx => Sys2Proof.Machine.execTcOutPush tile mv a ctx s
  | .tcOutSetPending tile mv a => Sys2Proof.Machine.execTcOutSetPending tile mv a s
  | .tcOutPwrmode tile mv a => Sys2Proof.Machine.execTcOutPwrmode tile mv a s
  | .tcFget tile mv d => Sys2Proof.Machine.execTcFget tile mv d s
  | .tcFset tile mv a => Sys2Proof.Machine.execTcFset tile mv a s
  | .tcB tile mv cond target => Sys2Proof.Machine.execTcB tile mv cond target s
  | .tcBl tile mv cond target => Sys2Proof.Machine.execTcBl tile mv cond target s
  | .tcBr tile mv cond a => Sys2Proof.Machine.execTcBr tile mv cond a s
  | .tcLoop tile mv src cnt last => Sys2Proof.Machine.execTcLoop tile mv src cnt last s
  | .tcWait tile mv sem count => Sys2Proof.Machine.execTcWait tile mv sem count s
  | .tcSig tile mv sem count => Sys2Proof.Machine.execTcSig tile mv sem count s
  | .tcSigr tile mv sem a => Sys2Proof.Machine.execTcSigr tile mv sem a s
  | .tcWaite tile mv event => Sys2Proof.Machine.execTcWaite tile mv event s
  | .tcHalt tile mv => Sys2Proof.Machine.execTcHalt tile mv s
  | .tcWaitp tile mv => Sys2Proof.Machine.execTcWaitp tile mv s
  | .seDramReadIssue tile => Sys2Proof.Machine.execSeDramReadIssue tile s
  | .seReserveSend tile ctx => Sys2Proof.Machine.execSeReserveSend tile ctx s
  | .seGrantIssue tile => Sys2Proof.Machine.execSeGrantIssue tile s
  | .seWriteSlot tile => Sys2Proof.Machine.execSeWriteSlot tile s
  | .seReadSlot tile soft => Sys2Proof.Machine.execSeReadSlot tile soft s
  | .routerFlit router => Sys2Proof.Machine.execRouterFlit router s
  | .reserve p => Sys2Proof.Machine.execReserve p s
  | .grant p => Sys2Proof.Machine.execGrant p s
  | .push p => Sys2Proof.Machine.execPush p s
  | .signalPacket p => Sys2Proof.Machine.execSignalPacket p s
  | .sigack p => Sys2Proof.Machine.execSigack p s
  | .drd p => Sys2Proof.Machine.execDrd p s
  | .drdr p => Sys2Proof.Machine.execDrdr p s
  | .dwr p => Sys2Proof.Machine.execDwr p s
  | .dwra p => Sys2Proof.Machine.execDwra p s
  | .credit p => Sys2Proof.Machine.execCredit p s
  | .mreq p soft => Sys2Proof.Machine.execMreq p soft s
  | .mrsp p => Sys2Proof.Machine.execMrsp p s
  | .reserveTimeout tile ctx => Sys2Proof.Machine.execReserveTimeout tile ctx s
  | .storeScrubVisit tile y soft => Sys2Proof.Machine.execStoreScrubVisit tile y soft s
  | .storeCorrectionWriteback tile => Sys2Proof.Machine.execStoreCorrectionWriteback tile s
  | .edgeInPair edge clocks => Sys2Proof.Machine.execEdgeInPair edge clocks s
  | .edgePairTimeout edge => Sys2Proof.Machine.execEdgePairTimeout edge s
  | .edgeRepush edge => Sys2Proof.Machine.execEdgeRepush edge s
  | .edgeOutPair edge ready => Sys2Proof.Machine.execEdgeOutPair edge ready s
  | .fabDramRequest sector addr wide write stream data => Sys2Proof.Machine.execFabDramRequest sector addr wide write stream data s
  | .fabricReleaseStage partition => Sys2Proof.Machine.execFabricReleaseStage partition s
  | .fabReleaseStall partition => Sys2Proof.Machine.execFabReleaseStall partition s
  | .imageHeader src hdr => Sys2Proof.Machine.execImageHeader src hdr s
  | .sync word => Sys2Proof.Machine.execSync word s
  | .writeFrame n addr frames => Sys2Proof.Machine.execWriteFrame n addr frames s
  | .writeRepeat n frame addrs => Sys2Proof.Machine.execWriteRepeat n frame addrs s
  | .zeroFill n addr => Sys2Proof.Machine.execZeroFill n addr s
  | .keyRoll arg key iv => Sys2Proof.Machine.execKeyRoll arg key iv s
  | .authTag next tag cipher => Sys2Proof.Machine.execAuthTag next tag cipher s
  | .imageEnd arg body map => Sys2Proof.Machine.execImageEnd arg body map s
  | .cfgScrubFrame flips => Sys2Proof.Machine.execCfgScrubFrame flips s
  | .dramCommandSlot ch permits idle => Sys2Proof.Machine.execDramCommandSlot ch permits idle s
  | .dramRequestComplete ch id finds => Sys2Proof.Machine.execDramRequestComplete ch id finds s
  | .refreshInterval ch => Sys2Proof.Machine.execRefreshInterval ch s
  | .selfRefreshEntry ch => Sys2Proof.Machine.execSelfRefreshEntry ch s
  | .selfRefreshExit ch => Sys2Proof.Machine.execSelfRefreshExit ch s
  | .retrainPause ch rank sub lane margin eye centre => Sys2Proof.Machine.execRetrainPause ch rank sub lane margin eye centre s
  | .dramPatrolRead ch => Sys2Proof.Machine.execDramPatrolRead ch s
  | .dramCeWriteback ch => Sys2Proof.Machine.execDramCeWriteback ch s
  | .pageIdleClose ch bank => Sys2Proof.Machine.execPageIdleClose ch bank s
  | .channelReset ch => Sys2Proof.Machine.execChannelReset ch s
  | .frameTransmit lane => Sys2Proof.Machine.execFrameTransmit lane s
  | .trainFrame lane f => Sys2Proof.Machine.execTrainFrame lane f s
  | .dataFrame lane f => Sys2Proof.Machine.execDataFrame lane f s
  | .commaLock lane => Sys2Proof.Machine.execCommaLock lane s
  | .trainFail lane => Sys2Proof.Machine.execTrainFail lane s
  | .portUp port => Sys2Proof.Machine.execPortUp port s
  | .portDown port cause => Sys2Proof.Machine.execPortDown port cause s
  | .heartbeatSend port => Sys2Proof.Machine.execHeartbeatSend port s
  | .idleFlit port h crc => Sys2Proof.Machine.execIdleFlit port h crc s
  | .lctlHeartbeat port h crc => Sys2Proof.Machine.execLctlHeartbeat port h crc s
  | .lctlNak port h crc want => Sys2Proof.Machine.execLctlNak port h crc want s
  | .lctlAdapt port lane h crc tos => Sys2Proof.Machine.execLctlAdapt port lane h crc tos s
  | .nakRepeat port => Sys2Proof.Machine.execNakRepeat port s
  | .replayLimit port => Sys2Proof.Machine.execReplayLimit port s
  | .dataFlit port h crc b => Sys2Proof.Machine.execDataFlit port h crc b s
  | .hdataFlit port h crc b => Sys2Proof.Machine.execHdataFlit port h crc b s
  | .edataFlit port h crc b => Sys2Proof.Machine.execEdataFlit port h crc b s
  | .commitMarker chan tag rows => Sys2Proof.Machine.execCommitMarker chan tag rows s
  | .gapMarker chan tag rows => Sys2Proof.Machine.execGapMarker chan tag rows s
  | .creditRecord chan rows => Sys2Proof.Machine.execCreditRecord chan rows s
  | .channelItemConsume chan => Sys2Proof.Machine.execChannelItemConsume chan s
  | .upstreamFenceTimeout => Sys2Proof.Machine.execUpstreamFenceTimeout s
  | .acceptWindowClose port => Sys2Proof.Machine.execAcceptWindowClose port s
  | .delayReq port h crc m now => Sys2Proof.Machine.execDelayReq port h crc m now s
  | .delayResp port h crc m now replayed => Sys2Proof.Machine.execDelayResp port h crc m now replayed s
  | .timeExchangeSend => Sys2Proof.Machine.execTimeExchangeSend s
  | .exchangeLost => Sys2Proof.Machine.execExchangeLost s
  | .refLost pps => Sys2Proof.Machine.execRefLost pps s
  | .refReturn pps => Sys2Proof.Machine.execRefReturn pps s
  | .ppsInEdge phase => Sys2Proof.Machine.execPpsInEdge phase s
  | .governorLoop m => Sys2Proof.Machine.execGovernorLoop m s
  | .avsAck rail mv => Sys2Proof.Machine.execAvsAck rail mv s
  | .avsTimeout rail => Sys2Proof.Machine.execAvsTimeout rail s
  | .thermalTrip => Sys2Proof.Machine.execThermalTrip s
  | .rungExitComplete scope => Sys2Proof.Machine.execRungExitComplete scope s
  | .rampComplete domain => Sys2Proof.Machine.execRampComplete domain s
  | .rampShort domain stage trip => Sys2Proof.Machine.execRampShort domain stage trip s
  | .smbId => Sys2Proof.Machine.execSmbId s
  | .smbStatus => Sys2Proof.Machine.execSmbStatus s
  | .smbTempMax => Sys2Proof.Machine.execSmbTempMax s
  | .smbTempQuarter => Sys2Proof.Machine.execSmbTempQuarter s
  | .smbPower => Sys2Proof.Machine.execSmbPower s
  | .smbRails => Sys2Proof.Machine.execSmbRails s
  | .smbLimit => Sys2Proof.Machine.execSmbLimit s
  | .smbAlertMaskRead => Sys2Proof.Machine.execSmbAlertMaskRead s
  | .smbAlertMaskWrite value pec => Sys2Proof.Machine.execSmbAlertMaskWrite value pec s
  | .smbAlertStatusRead => Sys2Proof.Machine.execSmbAlertStatusRead s
  | .smbAlertStatusClear value pec => Sys2Proof.Machine.execSmbAlertStatusClear value pec s
  | .smbAlertResponse => Sys2Proof.Machine.execSmbAlertResponse s
  | .smbLogCount => Sys2Proof.Machine.execSmbLogCount s
  | .smbLogLast => Sys2Proof.Machine.execSmbLogLast s
  | .porAssert => Sys2Proof.Machine.execPorAssert s
  | .porRelease mode refclk => Sys2Proof.Machine.execPorRelease mode refclk s
  | .sysRstAssert => Sys2Proof.Machine.execSysRstAssert s
  | .sysRstRelease => Sys2Proof.Machine.execSysRstRelease s
  | .perstDeassert => Sys2Proof.Machine.execPerstDeassert s
  | .bootStepComplete e => Sys2Proof.Machine.execBootStepComplete e s
  | .bootStepTimeout => Sys2Proof.Machine.execBootStepTimeout s
  | .recoveryStepComplete partition dead => Sys2Proof.Machine.execRecoveryStepComplete partition dead s
  | .generationRetireWait partition => Sys2Proof.Machine.execGenerationRetireWait partition s
  | .linkWaitExpiry partition => Sys2Proof.Machine.execLinkWaitExpiry partition s
  | .recoveryFailed partition cause => Sys2Proof.Machine.execRecoveryFailed partition cause s
  | .tileStall tile => Sys2Proof.Machine.execTileStall tile s
  | .hangDetected unit => Sys2Proof.Machine.execHangDetected unit s
  | .trialEnd guilty => Sys2Proof.Machine.execTrialEnd guilty s
  | .tileReset tile done => Sys2Proof.Machine.execTileReset tile done s
  | .seqImemData3Write tile value => Sys2Proof.Machine.execSeqImemData3Write tile value s
  | .seqImemData3Read tile => Sys2Proof.Machine.execSeqImemData3Read tile s
  | .tcPmemDataHiWrite tile value => Sys2Proof.Machine.execTcPmemDataHiWrite tile value s
  | .tcPmemDataHiRead tile => Sys2Proof.Machine.execTcPmemDataHiRead tile s
  | .timeNowLoRead => Sys2Proof.Machine.execTimeNowLoRead s
  | .prbCountHiWrite tile k value => Sys2Proof.Machine.execPrbCountHiWrite tile k value s
  | .traceEnable q value => Sys2Proof.Machine.execTraceEnable q value s
  | .periodChangeArm value => Sys2Proof.Machine.execPeriodChangeArm value s
  | .startArm partition value => Sys2Proof.Machine.execStartArm partition value s
  | .stopArm partition value => Sys2Proof.Machine.execStopArm partition value s
  | .epochArm value => Sys2Proof.Machine.execEpochArm value s
  | .minSlackRearm tile value => Sys2Proof.Machine.execMinSlackRearm tile value s
  | .registerWrite addr value => Sys2Proof.Machine.execRegisterWrite addr value s
  | .hostDmaCompletion fn ok => Sys2Proof.Machine.execHostDmaCompletion fn ok s
  | .powerStateTimeout fn => Sys2Proof.Machine.execPowerStateTimeout fn s
  | .rungEntryComplete scope => Sys2Proof.Machine.execRungEntryComplete scope s
  | .thermNAssert => Sys2Proof.Machine.execThermNAssert s
  | .thermNRelease => Sys2Proof.Machine.execThermNRelease s
  | .pllLock pll locked ref outs => Sys2Proof.Machine.execPllLock pll locked ref outs s
  | .refinFrequencyLock => Sys2Proof.Machine.execRefinFrequencyLock s
  | .ppsOutPulse => Sys2Proof.Machine.execPpsOutPulse s
  | .vbatLoss => Sys2Proof.Machine.execVbatLoss s
  | .railOutOfTolerance rail => Sys2Proof.Machine.execRailOutOfTolerance rail s
  | .testPortAccess op => Sys2Proof.Machine.execTestPortAccess op s
  | .retrainPauseEnd ch => Sys2Proof.Machine.execRetrainPauseEnd ch s
  | .channelResetDone ch => Sys2Proof.Machine.execChannelResetDone ch s

end Sys2Proof.Machine
end

