-- ==== Sys2Proof/Machine/Pins.lean ====
section
/-!
DEFINITION. The states of the pins (R329, R348, R353, R377): what each pin group shows for a state of the device. A command changes
them only through the state; the changes of `DEV_OK`, `CFG_DONE`, `CFG_ERR_N` and `THERM_N` also leave as outputs.
-/
namespace Sys2Proof.Machine

/-- The pin groups of R377. -/
inductive PinGroup where
  | tplTx | tplRx | pexTx | pexRx | clkreqN | ddr | ddrResetN | cfgBus | cfgCsN | cfgMode | cfgDone | cfgErrN | avsOut | avsIn
  | ppsOut | clk10Out | msOut | timeIn | smb | alertN | thermN | devOk | resetIn | jtagIn | tdo
  /-- Pin `i` of GPIO bank `b`. -/
  | gpio (b i : Nat)
  deriving DecidableEq, Repr

/-- What a pin shows: `hiZ` is not driven, `idle` a transmitter at common mode without swing; `running` is driven or read as the rules of
its interface say. -/
inductive PinState where
  | hiZ | pullUp | pullDown | idle | terminated | receiving | released | low | high | held | ignored | sampled | nacked | alwaysOn | shift
  | running
  deriving DecidableEq, Repr

/-- A push-pull output at a level. -/
def PinState.ofLevel (b : Bool) : PinState := if b then .high else .low

/-- An open-drain output that is driven low, or released. -/
def PinState.openDrain (low : Bool) : PinState := if low then .low else .released

/-- The pins while the device is unpowered (R377); a GPIO pin is high-impedance with its weak pull-down enabled (R199, R375; log
entry 136). -/
def PinGroup.unpowered : PinGroup → PinState
  | .clkreqN | .cfgErrN | .smb | .alertN | .thermN => .released
  | .gpio _ _ => .pullDown
  | _ => .hiZ

/-- The pins while `POR_N` is low (R377). -/
def PinGroup.inPor : PinGroup → PinState
  | .tplTx | .pexTx => .idle
  | .tplRx => .terminated
  | .pexRx | .resetIn => .receiving
  | .clkreqN | .ddrResetN | .cfgDone | .ppsOut | .clk10Out | .msOut | .devOk => .low
  | .ddr | .cfgBus | .avsOut => .hiZ
  | .cfgCsN => .pullUp
  | .cfgMode => .sampled
  | .cfgErrN | .alertN | .thermN => .released
  | .avsIn | .timeIn => .ignored
  | .smb => .nacked
  | .jtagIn => .running
  | .tdo => .shift
  | .gpio _ _ => .pullDown

/-- The pins while `SYS_RST_N` is low and `POR_N` high, where they differ from those in the reset of `POR_N` (R377). -/
def State.pinInWarm (s : State) : PinGroup → PinState
  | .ddr => .held
  | .ddrResetN => .high
  | .cfgMode => .ignored
  | .cfgErrN => .openDrain s.boot.cfgErr
  | .timeIn => .running
  | .smb => .alwaysOn
  | .alertN => .openDrain s.alertLow
  | .thermN => .openDrain (s.bit Reg.PWR_STATUS 9)
  | g => g.inPor

/-- The pins of the device (R377). -/
def State.pin (s : State) (g : PinGroup) : PinState :=
  if s.boot.por then g.inPor
  else if s.boot.sysRst then s.pinInWarm g
  else match g with
    | .cfgDone => .ofLevel s.boot.cfgDone
    | .cfgErrN => .openDrain s.boot.cfgErr
    | .devOk => .ofLevel s.boot.devOk
    | .ppsOut => .ofLevel s.ppsOut
    | .clk10Out => .ofLevel s.clk10Out
    | .msOut => .ofLevel s.msOut
    | .alertN => .openDrain s.alertLow
    | .thermN => .openDrain (s.bit Reg.PWR_STATUS 9)
    | .ddrResetN => .high
    | .cfgMode => .ignored
    | .tdo => .shift
    | .gpio b i => (match s.pinDrives b i with | some v => .ofLevel v | none => .pullDown)
    | _ => .running

end Sys2Proof.Machine
end

