-- ==== Sys2Proof/Safety.lean ====
section
/-!
DEFINITION. What the statements ask of a state and of two states: canonical memories, what a mailbox answers, and which
registers a command leaves alone.
-/
namespace Sys2Proof.Safety
open Sys2Proof.Machine

/-- The stores, the DRAM and the trace buffers are held in their canonical form. -/
def MemOk (s : State) : Prop :=
  Memory.wf s.store = true ∧ Memory.wf s.dram = true ∧ s.traces.all (fun m => Memory.wf m.2) = true

/-- A step that completes. -/
def Completes (s : State) : Prop := ∃ s', step s = .next s'

/-- Every register reads as before but those of a list. -/
def RegsSameBut (s t : State) (l : List Nat) : Prop := ∀ a, a ∉ l → t.rd a = s.rd a

/-- Every byte of the tile stores and of the DRAM reads as before. -/
def BytesSame (s t : State) : Prop :=
  (∀ a, t.store.read a = s.store.read a) ∧ (∀ a, t.dram.read a = s.dram.read a)

/-- A request that the command engine has taken and whose command has not begun (R303): its function's rings run, and the
firmware has not been lost (R307). -/
def Requested (s : State) (q : Req) (opcode : Nat) : Prop :=
  q.fn < 17 ∧ (s.fnMbx q.fn).enabled = true ∧ s.fwLost = false ∧
  (s.fnMbx q.fn).running = some ⟨BitVec.ofNat 16 opcode, q.tag, none, .fresh, false⟩

/-- Boot has reached B11 and the device has not fenced itself (R300, R267). -/
def Serves (s : State) : Prop := s.ready = true ∧ s.bit Reg.TPL_FENCE 0 = false

/-- The state in which the request of a function has begun. -/
def begun (s : State) (q : Req) (opcode : Nat) : State :=
  s.setFnMbx q.fn { s.fnMbx q.fn with running := some ⟨BitVec.ofNat 16 opcode, q.tag, some q, .fresh, false⟩ }

/-- The next completion entry of a function in a state, where it is written and what it holds (R301, R302). -/
def entryOf (s : State) (q : Req) (opcode status : Nat) (results : List Byte) : Output :=
  .hostWrite q.fn
    (s.rd2 (Reg.MBX_CPL_BASE_LO q.fn) (Reg.MBX_CPL_BASE_HI q.fn) + (s.fnMbx q.fn).written % 64 * 64)
    (completionBytes (opcode % 65536) q.tag.toNat status (s.fnMbx q.fn).written results)

/-- The request is answered: its function runs nothing, one more completion is counted, and the entry of the function's ring
has left for the host (R301 to R303). -/
def Answered (s t : State) (q : Req) (opcode status : Nat) (results : List Byte) : Prop :=
  (t.fnMbx q.fn).running = none ∧ (t.fnMbx q.fn).written = ((s.fnMbx q.fn).written + 1) % 65536 ∧
  entryOf s q opcode status results ∈ t.out

/-- The registers that a completion writes: the counts, and the pending vectors, where vector 0 is held back (R295, R300). -/
def cplRegs (fn : Nat) : List Nat := [Reg.MBX_COUNTS fn, Reg.MSIX_PBA fn 0]

/-- The command waits: its request is still the one that runs, and its completion is not yet written. -/
def Waits (s t : State) (q : Req) (w : CmdWait) : Prop :=
  t.waitOf q.fn = some w ∧ (t.fnMbx q.fn).written = (s.fnMbx q.fn).written

/-- Nothing but the registers, the mailboxes and what leaves the device differs. -/
def OnlyMailbox (s t : State) : Prop := t = { s with regs := t.regs, mbx := t.mbx, out := t.out }

/-! Tiles. -/

/-- The handshake at which the next entry of a tile issues (R129). -/
def slotOf (s : State) (t : Nat) : Nat := max (s.tile t).nextHs (s.hs t)

/-- A tile whose sequencer can issue its next entry, and in which everything under way falls due after the slot of that entry: no
upset word of a program memory, no stream fault that waits for its record, no wide access after the slot. Handshakes and indices lie in the ranges of their registers. -/
def Calm (s : State) (t : Nat) : Prop :=
  t < 128 ∧ s.seqReady t = true ∧ (∀ e ∈ (s.tile t).evs, slotOf s t < e.slot) ∧
  (∀ f ∈ (s.tile t).flights, slotOf s t < f.slot + f.lat) ∧ (∀ o ∈ (s.tile t).mvu.ops, slotOf s t < o.done) ∧
  (s.tile t).memUpsets = [] ∧ (s.tile t).se.aborts = [] ∧ (s.tile t).nextHs < 2 ^ 20 ∧ (s.tile t).nextK < 4096 ∧
  (∀ w, (s.tile t).lastWide = some w → w.1 ≤ slotOf s t)

/-- A calm tile in which nothing at all is under way: no coming event, no write on its way, no operation of the MVU, no MMA. -/
def Quiet (s : State) (t : Nat) : Prop :=
  Calm s t ∧ (s.tile t).evs = [] ∧ (s.tile t).flights = [] ∧ (s.tile t).mvu.ops = [] ∧
  (s.tile t).arr0.mmas = [] ∧ (s.tile t).arr1.mmas = []

/-- The entry has issued (R129, R134): the handshake number and the index of the entry are shown, the sequencer stays with it for
`hold` handshakes, and after the variant's last entry an overrun falls due. -/
def Issued (s u : State) (t hold : Nat) : Prop :=
  u.hs t = slotOf s t ∧ u.fld (Reg.SEQ_STATUS t) 0 12 = (s.tile t).nextK ∧ (u.tile t).nextHs = slotOf s t + hold ∧
  (u.tile t).nextK = ((s.tile t).nextK + 1) % 4096 ∧
  (u.tile t).overrunAt = (if s.lastEntry t (s.tile t).nextK then some (slotOf s t + hold) else none)

/-- The registers of a tile that follow the issue of any entry. -/
def issueRegs (t : Nat) : List Nat := [Reg.SEQ_HS t, Reg.SEQ_STATUS t, Reg.VEU_STATUS t, Reg.TILE_STATUS t]

/-- Nothing but registers and the record of one tile differs: no memory, no other tile, nothing outside the tiles. -/
def OnlyTile (s u : State) (t : Nat) : Prop :=
  u = { s with regs := u.regs, tiles := u.tiles } ∧ ∀ k, k ≠ t → u.tile k = s.tile k

/-- The slot clash of a handshake is recorded (R132): the first of a beat loads the registers, and the tile has its fault bit. -/
def Clashed (s u : State) (t cause first second h : Nat) : Prop :=
  u.bit (Reg.TILE_FAULT t) 3 = true ∧ u.bit (Reg.SEQ_CLASH t) 0 = true ∧
  (s.bit (Reg.SEQ_CLASH t) 0 = false → u.fld (Reg.SEQ_CLASH t) 1 2 = cause ∧ u.fld (Reg.SEQ_CLASH t) 4 20 = h ∧
    u.fld (Reg.SEQ_CLASH_ENTRY t) 0 12 = first ∧ u.fld (Reg.SEQ_CLASH_ENTRY t) 16 12 = second) ∧
  (s.bit (Reg.SEQ_CLASH t) 0 = true → u.rd (Reg.SEQ_CLASH t) = s.rd (Reg.SEQ_CLASH t) ∧
    u.rd (Reg.SEQ_CLASH_ENTRY t) = s.rd (Reg.SEQ_CLASH_ENTRY t))

/-- The commands that are itinerary entries (R62, R72, R74, R118, R127, R128). -/
def isEntry (i : Instr) : Bool :=
  match i with
  | .mma _ _ _ _ | .drain _ _ _ | .clear _ _ _ | .mvm _ _ _ | .vload _ _ | .mdrain _ _ | .vld _ _ _ _ | .vst _ _ _ | .vadd _ _ _
    | .vmul _ _ _ | .vfma _ _ _ | .vcmp _ _ _ | .vsel _ _ _ | .vmax _ _ _ | .vmin _ _ _ | .vexp2 _ _ _ | .vlog2 _ _ _ | .vrcp _ _ _
    | .vrsq _ _ _ | .vexps _ _ _ | .vrmaxi _ _ _ | .vrmini _ _ _ | .vrsum _ _ _ | .vrssq _ _ _ | .vcvt _ _ _ | .vqnt _ _ _ | .vdqnt _ _ _
    | .vbcast _ _ _ | .swin _ _ | .sctxPause _ _ | .sctxResume _ _ | .sctxClose _ _ | .srel _ _ _ | .spush _ _ _ | .tcgo _ _ | .tcev _ _
    | .signal _ _ _ | .signalRemote _ _ _ _ | .take _ _ _ | .gate _ _ _ | .endEntry _ | .nop _ _ | .appadv _ _ _ => true
  | _ => false

/-- The commands that are instructions of the tile core (R143, R149). -/
def isTc (i : Instr) : Bool :=
  match i with
  | .tcNop _ _ | .tcAdd _ _ _ | .tcSub _ _ _ | .tcNeg _ _ _ | .tcAbs _ _ _ | .tcMin _ _ _ | .tcMax _ _ _ | .tcMinu _ _ _ | .tcMaxu _ _ _
    | .tcAnd _ _ _ | .tcOr _ _ _ | .tcXor _ _ _ | .tcNot _ _ _ | .tcMov _ _ _ | .tcCmp _ _ _ | .tcShl _ _ _ | .tcShr _ _ _ | .tcSar _ _ _
    | .tcRol _ _ _ | .tcRor _ _ _ | .tcMul _ _ _ | .tcMulh _ _ _ | .tcMulhu _ _ _ | .tcDivs _ _ _ | .tcDivu _ _ _ | .tcMaxi _ _ _
    | .tcMini _ _ _ | .tcFmaxi _ _ _ | .tcFmini _ _ _ | .tcFadd _ _ _ | .tcFsub _ _ _ | .tcFmul _ _ _ | .tcFfma _ _ _ | .tcFdiv _ _ _
    | .tcFsqrt _ _ _ | .tcFmin _ _ _ | .tcFmax _ _ _ | .tcFcmp _ _ _ | .tcFabs _ _ _ | .tcFneg _ _ _ | .tcFcvtf _ _ _ | .tcFcvti _ _ _ _
    | .tcAddi _ _ _ | .tcAndi _ _ _ | .tcOri _ _ _ | .tcXori _ _ _ | .tcShli _ _ _ | .tcShri _ _ _ | .tcSari _ _ _ | .tcCmpi _ _ _
    | .tcMovi _ _ _ | .tcMovhi _ _ _ | .tcMac _ _ _ | .tcMsu _ _ _ | .tcAclr _ _ _ | .tcAcld _ _ _ _ _ _ | .tcAccx _ _ _ _ _ _ _
    | .tcPset _ _ _ | .tcPget _ _ _ | .tcMset _ _ _ | .tcPstep _ _ _ _ | .tcIn _ _ _ _ | .tcOutRelease _ _ _ _ | .tcOutPush _ _ _ _
    | .tcOutSetPending _ _ _ | .tcOutPwrmode _ _ _ | .tcFget _ _ _ | .tcFset _ _ _ | .tcB _ _ _ _ | .tcBl _ _ _ _ | .tcBr _ _ _ _
    | .tcLoop _ _ _ _ _ | .tcWait _ _ _ _ | .tcSig _ _ _ _ | .tcSigr _ _ _ _ | .tcWaite _ _ _ | .tcHalt _ _ | .tcWaitp _ _ => true
  | _ => false

/-- The entry without the upsets that its reads meet, which no bit of an entry spells. -/
def bare (i : Instr) : Instr :=
  match i with
  | .mvm t f _ => .mvm t f []
  | .vld t rep f _ => .vld t rep f []
  | i => i

/-- The VEU entries that compute from the register file, each with its opcode of R74. -/
def veuOps (t : Nat) (rep : BitVec 10) (f : VeuFields) : List (Nat × Instr) :=
  [(0x03, .vadd t rep f), (0x04, .vmul t rep f), (0x05, .vfma t rep f), (0x06, .vcmp t rep f), (0x07, .vsel t rep f),
   (0x08, .vmax t rep f), (0x09, .vmin t rep f), (0x0A, .vexp2 t rep f), (0x0B, .vlog2 t rep f), (0x0C, .vrcp t rep f),
   (0x0D, .vrsq t rep f), (0x0E, .vexps t rep f), (0x0F, .vrmaxi t rep f), (0x10, .vrmini t rep f), (0x11, .vrsum t rep f),
   (0x12, .vrssq t rep f), (0x13, .vcvt t rep f), (0x14, .vqnt t rep f), (0x15, .vdqnt t rep f), (0x16, .vbcast t rep f)]

/-! Tile cores. -/

/-- A tile core that can issue its next instruction, on a tile in which nothing else is under way; its handshakes lie in the range of
`SEQ_HS`. -/
def TcIdle (s : State) (t : Nat) : Prop :=
  t < 128 ∧ s.tcReady t = true ∧ (s.tile t).evs = [] ∧ (s.tile t).flights = [] ∧ (s.tile t).mvu.ops = [] ∧
  (s.tile t).arr0.mmas = [] ∧ (s.tile t).arr1.mmas = [] ∧ (s.tile t).se.aborts = [] ∧
  (s.tile t).memUpsets = [] ∧ (s.tile t).tc.next < 2 ^ 20 - 4 ∧ s.hs t < 2 ^ 20 - 4 ∧
  ∀ k, SMap.get (s.tile t).tc.ready 0 k < 2 ^ 20 - 4

/-- The instruction has issued (R138): in an issue handshake, no earlier than the tile core may issue and than the registers of a
list hold their results, and at once where neither they nor a parallel move ask for more. -/
def TcIssued (s u : State) (t : Nat) (mv : Moves) (keys : List Nat) : Prop :=
  let m := max (s.tile t).tc.next (s.hs t)
  m ≤ u.hs t ∧ u.hs t % 5 ≠ 4 ∧ (∀ k ∈ keys, SMap.get (s.tile t).tc.ready 0 k ≤ u.hs t) ∧
  (mv.x.en = false → mv.y.en = false → m % 5 ≠ 4 → (∀ k, SMap.get (s.tile t).tc.ready 0 k ≤ m) → u.hs t = m)

/-- The instruction has issued and the tile core goes on behind it, or at the first instruction of the loop whose body it ends
(R138, R143). -/
def TcFell (s u : State) (t : Nat) (mv : Moves) (keys : List Nat) : Prop :=
  TcIssued s u t mv keys ∧ (u.tile t).tc.next = nextIssue (u.hs t) ∧ u.pc t = (loopEnd (s.pc t) (s.tile t).tc.loops).2 % 8192 ∧
  (u.tile t).tc.loops = (loopEnd (s.pc t) (s.tile t).tc.loops).1

/-- Neither move of an instruction takes place. -/
def noMoves (mv : Moves) : Prop := mv.x.en = false ∧ mv.y.en = false

/-- No move of an instruction loads a register (R139, R141). -/
def notLoaded (mv : Moves) (d : Nat) : Prop :=
  (mv.x.loads = true → mv.x.reg.toNat ≠ d ∧ (mv.x.size = 3 → mv.x.reg2 ≠ d)) ∧
  (mv.y.loads = true → mv.y.reg.toNat ≠ d ∧ (mv.y.size = 3 → mv.y.reg2 ≠ d))

/-- The registers of a tile that follow the issue of any instruction. -/
def tcRegs (t : Nat) : List Nat := [Reg.SEQ_HS t, Reg.VEU_STATUS t, Reg.TILE_STATUS t, Reg.TC_PC t, Reg.TC_STATUS t]

/-- The integer instructions of format T with one destination, and what each computes from ga and gb, with or without saturation
(R143). -/
def tcOpsT (t : Nat) (mv : Moves) (o : TcT) : List (Instr × (Bool → Word → Word → Word × FlagSet)) :=
  [(.tcAdd t mv o, aluAdd), (.tcSub t mv o, aluSub), (.tcNeg t mv o, fun q a _ => aluNeg q a), (.tcAbs t mv o, fun q a _ => aluAbs q a),
   (.tcMin t mv o, fun _ a b => aluNz (if b.toInt < a.toInt then b else a)),
   (.tcMax t mv o, fun _ a b => aluNz (if a.toInt < b.toInt then b else a)),
   (.tcMinu t mv o, fun _ a b => aluNz (if b.toNat < a.toNat then b else a)),
   (.tcMaxu t mv o, fun _ a b => aluNz (if a.toNat < b.toNat then b else a)),
   (.tcAnd t mv o, fun _ a b => aluNz (a &&& b)), (.tcOr t mv o, fun _ a b => aluNz (a ||| b)),
   (.tcXor t mv o, fun _ a b => aluNz (a ^^^ b)), (.tcNot t mv o, fun _ a _ => aluNz (~~~a)), (.tcMov t mv o, fun _ a _ => aluPlain a),
   (.tcShl t mv o, fun q a b => aluShl q a (b.toNat % 256)), (.tcShr t mv o, fun _ a b => aluShr a (b.toNat % 256)),
   (.tcSar t mv o, fun _ a b => aluSar a (b.toNat % 256)), (.tcRol t mv o, fun _ a b => aluNz (a.rotateLeft (b.toNat % 32))),
   (.tcRor t mv o, fun _ a b => aluNz (a.rotateRight (b.toNat % 32))), (.tcMul t mv o, aluMul),
   (.tcMulh t mv o, fun _ a b => aluNz (BitVec.ofInt 32 (a.toInt * b.toInt / 2 ^ 32))),
   (.tcMulhu t mv o, fun _ a b => aluNz (BitVec.ofNat 32 (a.toNat * b.toNat / 2 ^ 32))),
   (.tcFmin t mv o, fun _ a b => aluPlain (fpExtreme false a b)), (.tcFmax t mv o, fun _ a b => aluPlain (fpExtreme true a b)),
   (.tcFabs t mv o, fun _ a _ => aluPlain (a &&& 0x7FFFFFFF)), (.tcFneg t mv o, fun _ a _ => aluPlain (a ^^^ 0x80000000))]

/-- The integer instructions of format I with a destination, and what each computes from ga and the sign-extended immediate (R140,
R143). -/
def tcOpsI (t : Nat) (mv : Moves) (o : TcI) : List (Instr × (Bool → Word → Word → Word × FlagSet)) :=
  [(.tcAddi t mv o, aluAdd), (.tcAndi t mv o, fun _ a b => aluNz (a &&& b)), (.tcOri t mv o, fun _ a b => aluNz (a ||| b)),
   (.tcXori t mv o, fun _ a b => aluNz (a ^^^ b)), (.tcShli t mv o, fun q a b => aluShl q a (b.toNat % 256)),
   (.tcShri t mv o, fun _ a b => aluShr a (b.toNat % 256)), (.tcSari t mv o, fun _ a b => aluSar a (b.toNat % 256))]

/-- The FP32 instructions with one destination and sticky flags, and what each computes from the codes of ga, gb and gd (R148). -/
def tcOpsF (t : Nat) (mv : Moves) (o : TcT) : List (Instr × (Word → Word → Word → Word × Word)) :=
  let v (w : Word) : Fv := Fmt.fp32.decode w.toNat
  [(.tcFadd t mv o, fun a b _ => (Fmt.fp32.addV (v a) (v b)).pair), (.tcFsub t mv o, fun a b _ => (Fmt.fp32.addV (v a) (v b).negate).pair),
   (.tcFmul t mv o, fun a b _ => (Fmt.fp32.mulV (v a) (v b)).pair), (.tcFfma t mv o, fun a b d => (Fmt.fp32.fmaV (v a) (v b) (v d)).pair),
   (.tcFdiv t mv o, fun a b _ => (Fmt.fp32.divV (v a) (v b)).pair), (.tcFsqrt t mv o, fun a _ _ => (Fmt.fp32.sqrtV (v a)).pair),
   (.tcFcvtf t mv o, fun a _ _ => (fpFromInt a).pair), (.tcFcvti t mv o false, fun a _ _ => fpToInt false a),
   (.tcFcvti t mv o true, fun a _ _ => fpToInt true a)]

/-! Packets. -/

/-- A packet of a type that its tile takes: well formed, of the partition that owns the tile's router and of its generation, and not
of an attempt that the tile has abandoned (R175, R184, R188, R189). -/
def Taken (s : State) (p : Pkt) (type : Nat) : Prop :=
  p.type.toNat = type ∧ p.dkind = false ∧ p.formed = true ∧ s.ownsPkt p.dst.toNat p = true ∧
  p.gen.toNat = s.fld (Reg.TILE_PART p.dst.toNat) 8 8 ∧ (s.tile p.dst.toNat).abandoned.contains p.bt.toNat = false

/-- A packet of a type that its edge port takes: well formed, of the partition that owns the port and of its generation (R175, R188,
R189). -/
def TakenAtEdge (s : State) (p : Pkt) (type : Nat) : Prop :=
  p.type.toNat = type ∧ p.dkind = true ∧ p.dst.toNat < 32 ∧ p.formed = true ∧ s.edgeOwner p.dst.toNat = some p.part.toNat ∧
  p.gen.toNat = s.partGen (some p.part.toNat)

/-- A tile offers one packet to its router. -/
def Offers (s u : State) (t : Nat) (p : Pkt) : Prop := (u.router t).inject = (s.router t).inject ++ [p]

/-- An edge port offers one packet to the router at which it is attached (R172). -/
def OffersAtEdge (s u : State) (e : Nat) (p : Pkt) : Prop :=
  let port := if e < 32 then 5 else 6
  SMap.get (u.router (edgeRouter e)).injectEdge [] port = SMap.get (s.router (edgeRouter e)).injectEdge [] port ++ [p]

end Sys2Proof.Safety
end

