-- ==== Sys2Proof/Certificates/Slice0/Obligations.lean ====
section
/-!
DEFINITION. The statements: each says in its docstring what it states and which rules it rests on; OBLIGATIONS.json lists them.
-/
open Sys2Proof Sys2Proof.Machine Sys2Proof.Safety

/-- For every state whose queue holds a command c in front of a rest, a step is exec of c on the state with the rest as its
queue: the outcome, next state, fault or refusal, is that of exec. -/
def Obligations.StepRunsTheFrontCommand : Prop :=
  ∀ (c : Instr) (rest : List Instr) (s : State), s.pending = c :: rest → step s = exec c { s with pending := rest }

/-- The model's choice (log entries 6 and 23), read with R319 and R323: on an empty queue a step answers the next state. While the time
unit runs, Route time rises by 1 ns and by what is slewed, which is never more than `slew_ppm` of it, taken in whole units of 2^-16 ns (log entry 23), and what is slewed is
taken off the correction that is still to come; nothing else changes. While it does not run, nothing changes at all. -/
def Obligations.EmptyQueueLetsTimePass : Prop :=
  ∀ s : State, s.pending = [] → ∃ t, step s = .next t ∧
    (s.timeRuns = false → t = s) ∧
    (s.timeRuns = true →
      t = { s with time := t.time, timeUnit := { s.timeUnit with slew := t.timeUnit.slew } } ∧
      (t.timeUnit.slew - s.timeUnit.slew).natAbs ≤ s.slewStep ∧
      t.timeUnit.slew.natAbs ≤ s.timeUnit.slew.natAbs ∧
      (t.time : Int) = ((s.time : Int) + 65536 + (s.timeUnit.slew - t.timeUnit.slew)).toNat % 2 ^ 80)

/-- After reset every register that the map holds, at every address of every block, has the value of its Reset column (0, or the
model's choice of log entries 1, 2, 3, 4 and 20, where the spec gives none), but for those whose column names a value by tile, port, function
or rail, which have that value: `TILE_ID`, the latency targets, the rails' voltages, `MBX_ID` and the PCIe identity; the delay of the milestone
tree is the implementation's. Among them: the milestone period 250, the slip limit 4 of
every partition's `PART_BEAT_CTRL` (0x400), `TILE_ID` of every tile, `MBX_ID` of every function, the rails at their boot
voltages, the latency targets 2,000, 1,000 and 10,000; no register of a partition is armed; no partition exists; the alert mask
is 0x3F; no command waits; and the pins are as they are while `POR_N` is low: `DEV_OK`, `CFG_DONE` and the DRAM reset low,
`CFG_ERR_N` released, every GPIO pin on its pull-down. What the records of a tile and of a mailbox hold beyond their registers is zero or
empty (log entries 1 and 2, the model's choice). -/
def Obligations.ResetHoldsTheResetColumn : Prop :=
  let s := State.reset
  (∀ a b i r, RegMap.find a = some (b, i, r) → a ≠ Reg.TIME_MS_TREE_DELAY →
    (b.base, r.off) ∉ [(0x10000000, 0), (0x50000000, 0x10), (0x71000000, 0x300), (0x100000000, 0), (0x100000000, 0x3000)] →
    s.rd a = r.reset) ∧
  (∀ t, t < 144 → s.rd (Reg.TILE_ID t) = RegMap.tileId t) ∧ (∀ f, f < 17 → s.rd (Reg.PCI_ID f) = if f = 0 then 0x09600000 else 0x09610000) ∧
  s.rd Reg.TIME_MS_TREE_DELAY = Config.treeDelay.setWidth 32 ∧
  s.rd Reg.TIME_MS_PERIOD = 250 ∧ s.rd Reg.TIME_MS_PERIOD_NEXT = 250 ∧ s.msCount = 0 ∧
  (∀ p, p < 16 → s.rd (Reg.PART_BEAT_CTRL p) = 0x400 ∧ s.pstate p = psStopped ∧ s.part p = none ∧
    s.bit (Reg.PART_START_AT_HI p) 31 = false ∧ s.bit (Reg.PART_STOP_AT_HI p) 31 = false) ∧
  (∀ t, t < 128 → s.rd (Reg.TILE_ID t) = BitVec.ofNat 32 (t + t / 8 * 256 + t % 8 * 65536) ∧ s.tile t = Tile.reset) ∧
  (∀ f, f < 17 → s.fld (Reg.MBX_ID f) 0 8 = f ∧ s.fnMbx f = MbxFn.reset) ∧
  (∀ r, r < 6 → s.rd (Reg.PWR_RAIL_V r) = if r < 5 then 750 else 550) ∧
  (∀ ch, ch < 8 → s.rd (Reg.DDR_PORT_QOS ch 4) = 1000 ∧ s.rd (Reg.DDR_PORT_QOS ch 5) = 10000 ∧
    ∀ k, k < 4 → s.rd (Reg.DDR_PORT_QOS ch k) = 2000) ∧
  s.alertMask = 0x3F ∧ s.pending = [] ∧ s.log = [] ∧
  s.pin .devOk = .low ∧ s.pin .cfgDone = .low ∧ s.pin .cfgErrN = .released ∧ s.pin .ddrResetN = .low ∧ ∀ b i, s.pin (.gpio b i) = .pullDown

/-- The tile stores, the DRAM and the trace buffers of the state after reset are in canonical form (addresses strictly rising, no
listed byte equal to what an unlisted address reads as), and every byte of them reads as that byte (log entry 5, the model's
choice). -/
def Obligations.ResetMemoriesAreCanonical : Prop :=
  MemOk State.reset ∧ (∀ a, State.reset.store.read a = Memory.unlisted) ∧ (∀ a, State.reset.dram.read a = Memory.unlisted)

/-- For every state whose tile stores, DRAM and trace buffers are in canonical form, and for every command at the front of its
queue, or none: if the step answers a next state, then its tile stores, DRAM and trace buffers are in canonical form. -/
def Obligations.EveryStepKeepsMemoriesCanonical : Prop :=
  ∀ s t : State, MemOk s → step s = .next t → MemOk t

/-- For all 48-bit N and C: N is ahead of C when and only when (N − C) mod 2^48, computed in 48 bits, lies between 1 and
2^47 − 1; N has passed in every other case, among them N = C; and adding the same number to both, wrapping at 2^48, never
changes the outcome. -/
def Obligations.MilestoneAheadIsModular : Prop :=
  ∀ n c d : BitVec 48,
    (msAhead n.toNat c.toNat = true ↔ 1 ≤ (n - c).toNat ∧ (n - c).toNat ≤ 2 ^ 47 - 1) ∧
    msAhead n.toNat n.toNat = false ∧
    msAhead (n + d).toNat (c + d).toNat = msAhead n.toNat c.toNat

/-- While a function's rings run and it is not in D3hot, where its doorbells do nothing (log entry 20, the model's choice): a request doorbell at most 64 ahead of the requests taken, modulo 2^16, stores the tail, and
nothing else changes. One more than 64 ahead is ignored (the tail stays), `ring_err` is set, the three rings stop, the command in
progress goes on and its completion, whenever it comes, is not written (at an enable write too: log entry 93, deduced), and, while the firmware runs and the log has room, the last record
is MBX_OVERRUN, 0x0801, CONTAINED, with the function in byte 0 and the doorbell in bytes 2 and 1. Writing `enable` 1 with no
reserved bit set starts the rings again, with every count zero and `ring_err` clear. The completion and notice doorbells store
the consumed counts and change nothing else. -/
def Obligations.RequestDoorbellOverrun : Prop :=
  ∀ (s : State) (fn : Nat) (v : BitVec 16), fn < 17 →
    ((s.fnMbx fn).enabled = true → s.inD3 fn = false →
      ((v.toNat + 65536 - (s.fnMbx fn).taken) % 65536 ≤ 64 →
        exec (.mbxReqTail fn v) s = .next (s.setFnMbx fn { s.fnMbx fn with tail := v.toNat })) ∧
      (64 < (v.toNat + 65536 - (s.fnMbx fn).taken) % 65536 → ∃ t, exec (.mbxReqTail fn v) s = .next t ∧
        t.fnMbx fn = { s.fnMbx fn with enabled := false, running := (s.fnMbx fn).discarded } ∧
        t.bit (Reg.MBX_STATUS fn) 2 = true ∧ (∀ status results, (t.complete fn status results).out = t.out) ∧
        (s.fwLost = false → s.log.length < 4096 → ∃ r, t.log = s.log ++ [r] ∧ r.code = 0x0801 ∧ r.sev = sevContained ∧
          r.cls = 5 ∧ r.idx = fn ∧ r.detail = toBytes fn 1 ++ toBytes v.toNat 2)) ∧
      exec (.mbxCplHead fn v) s = .next (s.setFnMbx fn { s.fnMbx fn with cplHead := v.toNat }) ∧
      exec (.mbxNtcHead fn v) s = .next (s.setFnMbx fn { s.fnMbx fn with ntcHead := v.toNat })) ∧
    ((s.fnMbx fn).enabled = false ∨ s.inD3 fn = true → ∀ c ∈ [Instr.mbxReqTail fn v, .mbxCplHead fn v, .mbxNtcHead fn v], exec c s = .next s) ∧
    (∀ w : Word, w.toNat < 16 → w.bit 0 = true → ∃ t, exec (.mbxEnable fn w) s = .next t ∧
      (t.fnMbx fn).enabled = true ∧ (t.fnMbx fn).taken = 0 ∧ (t.fnMbx fn).written = 0 ∧ (t.fnMbx fn).notices = 0 ∧
      (t.fnMbx fn).tail = 0 ∧ (t.fnMbx fn).cplHead = 0 ∧ (t.fnMbx fn).ntcHead = 0 ∧
      (t.fnMbx fn).running = (s.fnMbx fn).discarded ∧ t.bit (Reg.MBX_STATUS fn) 2 = false ∧
      t.rd (Reg.MBX_COUNTS fn) = 0 ∧ t.rd (Reg.MBX_NTC_COUNT fn) = 0 ∧ t.rd (Reg.MBX_NTC_LOST fn) = 0)

/-- The engine takes the request of the function that is served next: one more request is counted, in `MBX_COUNTS` too, the
function is the last one served, and the request runs, unless R308 does not list its opcode: then it is answered at once, with
UNSUPPORTED for PF0 after B11. A command that names any other function than the one served next changes nothing (log entries 8 and 39, the model's choice). The oldest
waiting notice leaves for the next place of its function's notice ring, with its phase, while the firmware and the rings run and
fewer than 64 notices are not consumed and the function is not in D3hot; it is counted in `MBX_NTC_COUNT`, and vector 1 follows where it and MSI-X are
enabled, or is pending where it is held back (log entry 20, presumed); and no other register changes. -/
def Obligations.EngineTakesAndNotifies : Prop :=
  (∀ (s : State) (fn : Nat) (op tag : BitVec 16), s.nextServed = some fn → ∃ t, exec (.mbxRequestTake fn op tag) s = .next t ∧
    (t.fnMbx fn).taken = ((s.fnMbx fn).taken + 1) % 65536 ∧ t.lastServed = fn ∧
    (t.rd (Reg.MBX_COUNTS fn)).toNat % 65536 = ((s.fnMbx fn).taken + 1) % 65536 ∧
    (mbxOpcodes.contains op.toNat = true → (t.fnMbx fn).running = some ⟨op, tag, none, .fresh, false⟩ ∧
      RegsSameBut s t [Reg.MBX_COUNTS fn] ∧ BytesSame s t) ∧
    (mbxOpcodes.contains op.toNat = false → s.ready = true → fn = 0 → (t.fnMbx fn).running = none ∧
      Output.hostWrite fn (s.rd2 (Reg.MBX_CPL_BASE_LO fn) (Reg.MBX_CPL_BASE_HI fn) + (s.fnMbx fn).written % 64 * 64)
        (completionBytes op.toNat tag.toNat stUnsupported (s.fnMbx fn).written []) ∈ t.out)) ∧
  (∀ (s : State) (fn : Nat) (op tag : BitVec 16), s.nextServed ≠ some fn → exec (.mbxRequestTake fn op tag) s = .next s) ∧
  (∀ (s : State) (n : Notice) (rest : List Notice), s.notices = n :: rest → s.boot.fwUp = true → s.fwLost = false →
    (s.fnMbx n.fn).enabled = true → s.inD3 n.fn = false →
    ((s.fnMbx n.fn).notices + 65536 - (s.fnMbx n.fn).ntcHead) % 65536 < 64 → ∃ t, exec .noticeWrite s = .next t ∧ t.notices = rest ∧
      Output.hostWrite n.fn (s.rd2 (Reg.MBX_NTC_BASE_LO n.fn) (Reg.MBX_NTC_BASE_HI n.fn) + (s.fnMbx n.fn).notices % 64 * 64)
        (noticeBytes n (s.fnMbx n.fn).notices) ∈ t.out ∧
      t.rd (Reg.MBX_NTC_COUNT n.fn) = BitVec.ofNat 32 (((s.fnMbx n.fn).notices + 1) % 65536) ∧
      (s.bit (Reg.MBX_CTRL n.fn) 2 = true → s.bit (Reg.PCI_MSIX n.fn) 31 = true →
        (s.vectorHeld n.fn 1 = false → Output.irq n.fn 1 ∈ t.out) ∧
        (s.vectorHeld n.fn 1 = true → t.bit (Reg.MSIX_PBA n.fn 0) 1 = true)) ∧
      RegsSameBut s t [Reg.MBX_NTC_COUNT n.fn, Reg.MSIX_PBA n.fn 0] ∧ BytesSame s t)

/-- For POWER_LIMIT, START and PART_CREATE, each of a different issuer column: a request that runs before B11 is answered BUSY;
one after B11 that the issuer column bars (any function but PF0 for POWER_LIMIT and PART_CREATE; a function whose partition does
not exist for START) is answered DENIED; one on a fenced device BAD_STATE; and in each case nothing but the mailbox, the registers
of its completion and what leaves the device changes. -/
def Obligations.RefusedCommandsChangeNothing : Prop :=
  ∀ (s : State) (r : Req) (c : Instr) (op : Nat), Requested s r op →
    ((∃ w, c = .powerLimit r w ∧ op = 0x51) ∨ (∃ a b, c = .start r a b ∧ op = 0x30) ∨ (∃ tb, c = .partCreate r tb ∧ op = 0x10)) →
    (s.ready = false → ∃ t, exec c s = .next t ∧ Answered s t r op stBusy [] ∧ OnlyMailbox s t ∧ RegsSameBut s t (cplRegs r.fn)) ∧
    (s.ready = true → (op = 0x30 → s.part r.partition = none) → (op ≠ 0x30 → r.fn ≠ 0) →
      ∃ t, exec c s = .next t ∧ Answered s t r op stDenied [] ∧ OnlyMailbox s t ∧ RegsSameBut s t (cplRegs r.fn)) ∧
    (s.ready = true → s.bit Reg.TPL_FENCE 0 = true → (op = 0x30 → s.part r.partition ≠ none) → (op ≠ 0x30 → r.fn = 0) →
      ∃ t, exec c s = .next t ∧ Answered s t r op stBadState [] ∧ OnlyMailbox s t ∧ RegsSameBut s t (cplRegs r.fn))

/-- Each command completes, for every state in which its request runs and every operand: it is answered OK with the results of R308,
and nothing changes but the mailbox and the registers of its completion. HELLO at any time: interface version, firmware release,
function, its partition or 0xFF, and whether the device is ready. After B11, fenced or not: GET_INFO with all its fields (a lane is trained in UP and in LOW_POWER: log entry 96, the model's reading); PART_QUERY of a
partition that exists, or of a VF, with its state, last outcome, consecutive slips, generation, step, milestone, commits, slips, columns, and the
byte that tells of SEU-listed frames (bit 0) and of a tile with a semaphore residue (bit 1); TIME_READ of a function whose partition exists, or of PF0: Route time, fraction,
milestone, the PTM pair and the flags; LINK_STATUS for a lane, a port or a channel, of PF0 or of the VF that owns it, with its register images. While not fenced: ROUTE_NOTICE of
PF0 for any run of channels, with the mask of the partitions that own one, a notice to the functions of these and to PF0, and nothing else;
and BOOT_RECORD_CLEAR of PF0 outside TEST mode, after which the fallback state
holds no flag, no channel, no lane and no dead position, the record, where there is one, ends with a STATE entry of it, and no byte of memory has changed. -/
def Obligations.ReportsAnswerTheState : Prop :=
  ∀ (s : State) (r : Req),
    (∀ v, Requested s r 1 → ∃ t, exec (.hello r v) s = .next t ∧ Answered s t r 1 stOk
        (toBytes 0x0201 2 ++ toBytes 0x00030002 4 ++ toBytes r.fn 1 ++ toBytes (if r.fn = 0 then 0xFF else r.fn - 1) 1 ++
          toBytes s.ready.toNat 1) ∧
      OnlyMailbox s t ∧ RegsSameBut s t (cplRegs r.fn)) ∧
    (s.ready = true → Requested s r 2 → ∃ t, exec (.getInfo r) s = .next t ∧ Answered s t r 2 stOk
        (toBytes Config.binH.toNat 1 ++ toBytes Config.rangeI.toNat 1 ++ toBytes (s.fld Reg.CFG_IDCODE 28 4) 1 ++
          toBytes (maskOf 16 (fun c => s.colOk c)) 2 ++ toBytes (maskOf 16 (fun c => s.fld (Reg.TNOC_DETOUR c) 4 2 == 1)) 2 ++
          toBytes (maskOf 8 (fun ch => s.bit (Reg.DDR_CTRL ch) 0)) 1 ++
          (List.range 8).flatMap (fun ch => toBytes (s.fld (Reg.DDR_ORG ch) 16 7) 1) ++
          toBytes (maskOf 96 (fun n => s.laneState n == 4 || s.laneState n == 5)) 12 ++
          toBytes (maskOf 16 (fun p => (s.part p).isSome)) 2 ++ toBytes (s.fld Reg.TPL_EPOCH 0 16) 2 ++
          toBytes (s.fld Reg.DDR_MAP_CTRL 0 1) 1 ++ toBytes (s.fld Reg.PWR_LIMIT 0 8) 2) ∧
      OnlyMailbox s t ∧ RegsSameBut s t (cplRegs r.fn)) ∧
    (s.ready = true → Requested s r 0x13 → (r.fn = 0 → s.part r.partition ≠ none) → let x := s.part r.partition
      ∃ t, exec (.partQuery r) s = .next t ∧
      Answered s t r 0x13 stOk (toBytes (s.pstate r.partition) 1 ++ toBytes (s.fld (Reg.PART_BEAT_STATUS r.partition) 4 2) 1 ++
        toBytes (s.fld (Reg.PART_BEAT_STATUS r.partition) 8 8) 1 ++ toBytes ((x.map Part.gen).getD 0) 1 ++ toBytes (s.step48 r.partition) 6 ++
        toBytes s.msCount 6 ++ toBytes (s.rd (Reg.PART_COMMIT_COUNT r.partition)).toNat 4 ++
        toBytes (s.rd (Reg.PART_SLIP_COUNT r.partition)).toNat 4 ++ toBytes ((x.map (fun x => x.firstCol + 16 * x.lastCol)).getD 0) 1 ++
        toBytes ((x.any (fun x => s.ueSectors x.sectors)).toNat +
          2 * ((s.partTiles r.partition).any (fun k => s.rd (Reg.SEM_RESID_LO k) != 0 || s.rd (Reg.SEM_RESID_HI k) != 0)).toNat) 1) ∧
      OnlyMailbox s t ∧ RegsSameBut s t (cplRegs r.fn)) ∧
    (s.ready = true → Requested s r 0x61 → (r.fn = 0 ∨ s.part r.partition ≠ none) → ∃ t, exec (.timeRead r) s = .next t ∧
      Answered s t r 0x61 stOk (toBytes s.now 8 ++ toBytes (s.time % 65536) 2 ++ toBytes s.msCount 6 ++
        toBytes (s.rd2 Reg.TIME_PTM_HOST_LO Reg.TIME_PTM_HOST_HI) 8 ++ toBytes (s.rd2 Reg.TIME_PTM_ROUTE_LO Reg.TIME_PTM_ROUTE_HI) 8 ++
        toBytes s.timeUnit.ptmFrac 2 ++ toBytes ((decide (s.timeState = tsLocked)).toNat + 2 * (decide (s.timeState = tsHoldover)).toNat +
          4 * s.isHead.toNat + 8 * (s.bit Reg.TIME_PTM_CTRL 31).toNat) 1) ∧
      OnlyMailbox s t ∧ RegsSameBut s t (cplRegs r.fn)) ∧
    (∀ object index : BitVec 8, s.ready = true → Requested s r 0x41 → object.toNat < 3 → (object ≠ 2 → index.toNat < 96) →
      (r.fn = 0 ∨ (s.part r.partition ≠ none ∧ s.objOwner object.toNat index.toNat = some (r.fn - 1))) →
      ∃ t, exec (.linkStatus r object index) s = .next t ∧
        Answered s t r 0x41 stOk (s.linkImages object.toNat index.toNat) ∧
        OnlyMailbox s t ∧ RegsSameBut s t (cplRegs r.fn)) ∧
    (∀ k first count ep ms opq, Serves s → Requested s r 0x43 → r.fn = 0 →
      let owns (p : Nat) : Bool := (List.range 256).any (fun c =>
        decide (first.toNat ≤ c ∧ c < first.toNat + count.toNat) && s.chanHolder c == some p)
      let parts := (List.range 16).filter owns
      ∃ t, exec (.routeNotice r k first count ep ms opq) s = .next t ∧
        Answered s t r 0x43 stOk (toBytes (maskOf 16 owns) 2) ∧
        t.notices = s.notices ++ (if parts = [] then [] else
          (parts.map (fun p => p + 1) ++ [0]).map (fun f => ⟨f, 2, s.msCount, toBytes opq.toNat 32⟩)) ∧
        OnlyMailbox s { t with notices := s.notices } ∧ RegsSameBut s t (cplRegs r.fn)) ∧
    (Serves s → Requested s r 0x73 → r.fn = 0 → s.testMode = false → ∃ t, exec (.bootRecordClear r) s = .next t ∧
      Answered s t r 0x73 stOk [] ∧ t.boot.fall = ⟨0, 0, 0, 0xFFFFFFFFFFFFFFFF⟩ ∧ BytesSame s t ∧
      (s.hasRecord = true → ∃ e, t.boot.sector.getLast? = some e ∧ e.kind = 1 ∧ e.payload = t.boot.fall.payload))
/-- A request that runs on an unfenced device after B11. LOG_READ of PF0 or of a VF whose partition exists takes `logTake` of `logFrom`:
of the kept records from the start index on, in ascending order, those of the severity asked for and, for a VF, of its own partition, up
to the number asked for, and the index behind the last one looked at; with none it is answered OK at once, and otherwise exactly their
bytes leave for the buffer and the command waits for its DMA. BOOT_RECORD_READ of PF0: the entries' bytes, no more than asked for; in TEST
mode UNSUPPORTED. DUMP_READ of PF0 of a valid dump that is not being taken, at an offset past its end: answered OK with a count of 0, and
the dump is released where asked; inside it: the command waits, and the run of the dump's bytes that was asked for is read through the system
port as YMP requests, in pieces of at most 1,024 B; the answer of the last one sends them to the buffer, and the end of the DMA
then, and no earlier, completes the command and releases the dump where asked. FABRIC_READBACK of PF0 for a STOPPED partition, with
room for at least one byte: the frames of its sectors, as the code corrects them and captured, cut to the room, leave for the buffer, the command
waits with the count, and the spines of its sectors are gated; live, of a RUNNING one too, nothing is gated and the result says so. -/
def Obligations.DeliveriesWaitForTheirDma : Prop :=
  ∀ (s : State) (r : Req), Serves s →
    (∀ addr max start sev, Requested s r 0x70 → (r.fn = 0 ∨ s.part r.partition ≠ none) →
      let seen (x : LogRec) : Bool := (r.fn == 0 || x.part == some (r.fn - 1)) && decide (sev.toNat ≤ x.sev)
      let sel := logTake seen max.toNat start.toNat (logFrom s.log start.toNat)
      let l := sel.1
      let next := sel.2
      ∃ t, exec (.logRead r addr max start sev) s = .next t ∧
      (∀ x ∈ l, x ∈ s.log ∧ sev.toNat ≤ x.sev ∧ (r.fn ≠ 0 → x.part = some (r.fn - 1))) ∧ l.length ≤ max.toNat ∧
      (l = [] → Answered s t r 0x70 stOk (toBytes 0 2 ++ toBytes next 2 ++ toBytes (s.rd Reg.LOG_CORR_COUNTED).toNat 4)) ∧
      (l ≠ [] → Output.hostWrite r.fn addr.toNat (l.flatMap (fun x => x.bytes)) ∈ t.out ∧
        Waits s t r (.dma (toBytes l.length 2 ++ toBytes next 2 ++ toBytes (s.rd Reg.LOG_CORR_COUNTED).toNat 4)))) ∧
    (∀ addr len, Requested s r 0x72 → r.fn = 0 → s.testMode = false → ∃ t bytes, exec (.bootRecordRead r addr len) s = .next t ∧
      bytes = (s.bootEntries.flatMap (fun e => e.bytes)).take len.toNat ∧
      (bytes = [] → Answered s t r 0x72 stOk (toBytes 0 4)) ∧
      (bytes ≠ [] → Output.hostWrite r.fn addr.toNat bytes ∈ t.out ∧ Waits s t r (.dma (toBytes bytes.length 4)))) ∧
    (∀ addr len, Requested s r 0x72 → r.fn = 0 → s.testMode = true → ∃ t, exec (.bootRecordRead r addr len) s = .next t ∧
      Answered s t r 0x72 stUnsupported [] ∧ OnlyMailbox s t) ∧
    (∀ addr slot release offset len, Requested s r 0x71 → r.fn = 0 → slot.toNat < 4 → s.dumpFlag 0 slot.toNat = true →
      s.dumpFlag 8 slot.toNat = false →
      (s.dumpBytes slot.toNat ≤ offset.toNat → ∃ t, exec (.dumpRead r addr slot release offset len) s = .next t ∧
        Answered s t r 0x71 stOk (toBytes 0 4 ++ toBytes (s.dumpBytes slot.toNat) 4 ++ toBytes (s.dumpPart slot.toNat) 1) ∧
        (release = true → t.dumpFlag 4 slot.toNat = false)) ∧
      (let n := min len.toNat (s.dumpBytes slot.toNat - offset.toNat)
       let l := sysRequests (s.slotAddr slot.toNat + offset.toNat) n
       0 < n → ∃ t, exec (.dumpRead r addr slot release offset len) s = .next t ∧
        Waits s t r (.dump slot.toNat release (toBytes n 4 ++ toBytes (s.dumpBytes slot.toNat) 4 ++ toBytes (s.dumpPart slot.toNat) 1)) ∧
        ((∀ q ∈ l, s.ddrServes (s.dramLoc q.1).1 = true) → BytesSame s t ∧ t.out = s.out ∧
          t.hostReads = s.hostReads ++ [⟨s.reqNum, r.fn, l.length, [], false, false, some addr.toNat⟩] ∧
          ∀ i q, l[i]? = some q → ∃ x ∈ (t.dch (s.dramLoc q.1).1).queue, x.port = 5 ∧ x.src = 0 ∧ x.write = false ∧ x.addr = q.1 ∧
            x.len = q.2 ∧ x.to_ = .read s.reqNum i))) ∧
    (∀ (ch : Nat) (q : DramReq) (fn num host : Nat), (s.dch ch).queue.find? (fun r => r.id == q.id) = some q → q.issued = true →
      q.port = 5 → (∀ r ∈ (s.dch ch).queue, r.port = 5 → r.src = q.src → q.id ≤ r.id) → (s.dch ch).upsets = [] → q.len ≤ 1024 →
      q.write = false → q.to_ = .read num 0 → q.taken = none →
      s.hostReads.find? (fun h => h.num == num) = some ⟨num, fn, 1, [], false, false, some host⟩ →
      ∃ t, exec (.dramRequestComplete ch q.id []) s = .next t ∧ BytesSame s t ∧ Output.hostWrite fn host
        ((List.range q.len).map (fun i => s.dram.read (ch * 2 ^ 36 + (s.dramLoc q.addr).2 + i))) ∈ t.out) ∧
    (∀ (fn : Nat) (op tag : BitVec 16) (q : Option Req) (k : Nat) (release : Bool) (res : List Byte), fn < 17 →
      (s.fnMbx fn).running = some ⟨op, tag, q, .dump k release res, false⟩ → (s.fnMbx fn).enabled = true → s.fwLost = false →
      (s.ympReads fn = true → exec (.hostDmaCompletion fn true) s = .next s) ∧
      (s.ympReads fn = false → ∃ t, exec (.hostDmaCompletion fn true) s = .next t ∧ (t.fnMbx fn).running = none ∧
        Output.hostWrite fn (s.rd2 (Reg.MBX_CPL_BASE_LO fn) (Reg.MBX_CPL_BASE_HI fn) + (s.fnMbx fn).written % 64 * 64)
          (completionBytes op.toNat tag.toNat stOk (s.fnMbx fn).written res) ∈ t.out ∧
        (release = true → k < 4 → t.dumpFlag 4 k = false))) ∧
    (∀ (x : Part) addr len bram, Requested s r 0x23 → r.fn = 0 → s.part r.partition = some x → s.pstate r.partition = psStopped →
      x.cols ≠ [] → len ≠ 0 →
      let frames := ((List.range 32).filter (fun k => x.sectors.testBit k)).flatMap (fun k => readFrames k bram)
      let bytes := (frames.flatMap ((begun s r 0x23).fabRun r.partition).readCaptured).take len.toNat
      ∃ t, exec (.fabricReadback r addr len bram false) s = .next t ∧
        Output.hostWrite r.fn addr.toNat bytes ∈ t.out ∧ bytes.length ≤ len.toNat ∧ bytes ≠ [] ∧
        Waits s t r (.dma (toBytes bytes.length 4 ++ [0])) ∧
        (∀ k, k < 32 → x.sectors.testBit k = true → t.bit (Reg.FAB_SECT_STATUS k) 6 = true)) ∧
    (∀ (x : Part) addr len bram, Requested s r 0x23 → r.fn = 0 → s.part r.partition = some x →
      s.pstate r.partition = psStopped ∨ s.pstate r.partition = psRunning → x.cols ≠ [] → len ≠ 0 →
      ∃ t bytes, exec (.fabricReadback r addr len bram true) s = .next t ∧ Output.hostWrite r.fn addr.toNat bytes ∈ t.out ∧
        0 < bytes.length ∧ bytes.length ≤ len.toNat ∧ Waits s t r (.dma (toBytes bytes.length 4 ++ [1])) ∧
        ∀ k, k < 32 → t.bit (Reg.FAB_SECT_STATUS k) 6 = s.bit (Reg.FAB_SECT_STATUS k) 6)

/-- A function's command waits for its host DMA, its rings run, its completion is not discarded and the firmware runs, and it is no
FABRIC_READBACK. When the DMA ends without error the command completes with OK and the results it holds, in the next place of
the completion ring; when it ends with an error it completes with FAULTED, and, where the log has room, the last record is
HOST_DMA_ERROR, 0x0803, CONTAINED, of the PCIe unit with the function as its index. -/
def Obligations.DmaEndCompletesTheCommand : Prop :=
  ∀ (s : State) (fn : Nat) (op tag : BitVec 16) (q : Option Req) (res : List Byte), fn < 17 →
    (s.fnMbx fn).running = some ⟨op, tag, q, .dma res, false⟩ → op.toNat ≠ 0x23 → (s.fnMbx fn).enabled = true → s.fwLost = false →
    ∃ t, exec (.hostDmaCompletion fn true) s = .next t ∧ (t.fnMbx fn).running = none ∧
      (t.fnMbx fn).written = ((s.fnMbx fn).written + 1) % 65536 ∧
      Output.hostWrite fn (s.rd2 (Reg.MBX_CPL_BASE_LO fn) (Reg.MBX_CPL_BASE_HI fn) + (s.fnMbx fn).written % 64 * 64)
        (completionBytes op.toNat tag.toNat stOk (s.fnMbx fn).written res) ∈ t.out ∧ OnlyMailbox s t ∧
      ∃ u, exec (.hostDmaCompletion fn false) s = .next u ∧ (u.fnMbx fn).running = none ∧
        Output.hostWrite fn (s.rd2 (Reg.MBX_CPL_BASE_LO fn) (Reg.MBX_CPL_BASE_HI fn) + (s.fnMbx fn).written % 64 * 64)
          (completionBytes op.toNat tag.toNat stFaulted (s.fnMbx fn).written []) ∈ u.out ∧
        (s.log.length < 4096 → ∃ x, u.log = s.log ++ [x] ∧ x.code = 0x0803 ∧ x.sev = sevContained ∧ x.cls = 5 ∧ x.idx = fn)

/-- Requests that run on a device that serves. PART_CREATE of PF0, with a table that is possible, of free working columns, a free
number and free resources: the partition then exists, STOPPED, with those columns and generation 0, and the answer is OK with its
number and its function; no boundary switch between its columns is open, those at its ends are, and its banks are joined to them. With amend, of a STOPPED partition with its own columns and free resources: its lanes, channels and banks
are joined by those of the table and its share rises. PART_DESTROY of a STOPPED partition: the partition does not exist any more,
its range and its function's valid bit are clear, its tiles' stores and the frames of its sectors are zero, the DRAM is as before or, with wipe, zero
in its range where the channel serves, and no other byte changes, and the answer is OK. PART_RESET of a STOPPED partition: it becomes RECOVERING at
recovery step 4 and the command waits; of a RUNNING one without another reset: the reset is kept for the milestone, and the command
waits. -/
def Obligations.PartitionsComeAndGo : Prop :=
  ∀ (s : State) (r : Req), Serves s →
    (∀ tb : ResTable, Requested s r 0x10 → r.fn = 0 → tableBad tb = false → tb.columns.toNat % 16 ≤ tb.columns.toNat / 16 →
      s.part tb.partition.toNat = none → s.pstate tb.partition.toNat = psStopped →
      (∀ c, c < 16 → tb.columns.toNat % 16 ≤ c → c ≤ tb.columns.toNat / 16 → s.colPart c = none ∧ s.colOk c = true) →
      s.tableTaken tb.partition.toNat tb = false → ∃ t, exec (.partCreate r tb) s = .next t ∧
        Answered s t r 0x10 stOk (toBytes tb.partition.toNat 1 ++ toBytes (tb.partition.toNat + 1) 1) ∧
        t.part tb.partition.toNat = some (newPart tb) ∧ t.pstate tb.partition.toNat = psStopped ∧
        t.bit (Reg.MBX_ID (tb.partition.toNat + 1)) 12 = true ∧ BytesSame s t ∧
        ∀ c, c < 16 → tb.columns.toNat % 16 ≤ c → c ≤ tb.columns.toNat / 16 →
          (∀ d, d < 16 → t.colsJoined c d = decide (tb.columns.toNat % 16 ≤ d ∧ d ≤ tb.columns.toNat / 16)) ∧
          ∀ b, b < 4 → t.bankJoined b c = tb.gpio.getLsbD b) ∧
    (∀ (tb : ResTable) (x : Part), Requested s r 0x10 → r.fn = 0 → tableBad tb = false → s.part tb.partition.toNat = some x →
      s.pstate tb.partition.toNat = psStopped → tb.columns.toNat = x.firstCol + 16 * x.lastCol →
      (tableRange tb = true → s.rangeOf tb.partition.toNat = none) → s.tableTaken tb.partition.toNat tb = false →
      ∃ t y, exec (.partCreateAmend r tb) s = .next t ∧
        Answered s t r 0x10 stOk (toBytes tb.partition.toNat 1 ++ toBytes (tb.partition.toNat + 1) 1) ∧
        t.part tb.partition.toNat = some y ∧ y.lanes = (x.lanes ||| tb.lanes) ∧ y.chans = (x.chans ||| tableChans tb) ∧
        y.gpio = (x.gpio ||| tb.gpio.setWidth 4) ∧ y.share = x.share + tb.share.toNat ∧
        y.firstCol = x.firstCol ∧ y.lastCol = x.lastCol ∧ y.gen = x.gen ∧ BytesSame s t) ∧
    (∀ (x : Part) (wipe : Bool), Requested s r 0x11 → r.fn = 0 → s.part r.partition = some x → s.pstate r.partition = psStopped →
      ∃ t, exec (.partDestroy r wipe) s = .next t ∧ Answered s t r 0x11 stOk [] ∧ t.part r.partition = none ∧
        t.rangeOf r.partition = none ∧ t.bit (Reg.MBX_ID (r.partition + 1)) 12 = false ∧
        (∀ k ∈ x.tiles, ∀ i, i < 2 ^ 23 → t.store.read (s.storeBase k + i) = 0) ∧
        (∀ a, x.sectors.testBit (faSector a) = true → SMap.get t.cfg.frames 0 a = 0) ∧
        (∀ a, t.dram.read a = (match wipe, s.rangeOf r.partition with
          | true, some g => let d := s.dramAddr (a / 2 ^ 36) (a % 2 ^ 36)
            if g.1 ≤ d ∧ d < g.2 ∧ s.ddrServes (a / 2 ^ 36) = true then 0 else s.dram.read a
          | _, _ => s.dram.read a))) ∧
    (∀ (x : Part) (resume : Bool), Requested s r 0x12 → s.part r.partition = some x → r.partition < 16 →
      (s.pstate r.partition = psStopped → ∃ t y, exec (.partReset r resume) s = .next t ∧ Waits s t r .reset ∧
        t.pstate r.partition = psRecovering ∧ t.part r.partition = some y ∧ y.recov.step = 4 ∧ y.recov.resume = resume ∧
        y.recov.cmd = some r) ∧
      (s.pstate r.partition = psRunning → x.resetReq = none → ∃ t, exec (.partReset r resume) s = .next t ∧ Waits s t r .reset ∧
        t.part r.partition = some { x with resetReq := some (r, resume) } ∧ t.pstate r.partition = psRunning))

/-- Each command completes: requests that run on a device that serves, for a STOPPED partition that the issuer names. LOAD_TILE_PROGRAM of one record that
passes its CRC and is within its type's bounds, for a tile of the partition, whose DMA ended well: the answer is OK with one
record taken; every unit of the record stands in the partition's retained copy, in the tile's itinerary memory (type 0) or program
memory (type 1), and for the other types its words stand in their registers, as a write stores them; one whose CRC fails is answered
FAULTED with no record taken. LOAD_WEIGHTS of rows into a tile of the
partition: the answer is OK, each row's 1,024 bytes stand in the store at its place and every other byte reads as before; after a DMA that failed, FAULTED. FABRIC_LOAD while no load is under
way: `CFG_PERMIT` holds the partition's sectors, the release stage is 0, and the command waits for the stream. FW_UPDATE of a first
piece for a primary slot that the directory names, outside TEST mode: one that is not the last is answered OK and stands in the upload; the last
one replaces the slot's image and is answered OK, or, where a check fails, is answered FAULTED with the reason and the flash stays. Of
any other slot it is UNSUPPORTED (log entry 122). FW_ACTIVATE
without `now`: answered OK, nothing else changes. -/
def Obligations.LoadsTakeTheirData : Prop :=
  ∀ (s : State) (r : Req), Serves s →
    (∀ (x : Part) (c : LoadRec), Requested s r 0x20 → s.part r.partition = some x → s.pstate r.partition = psStopped →
      (c.type.toNat = 6 ∨ s.ownsTile r.partition c.tile.toNat = true) → crc32 c.data = c.crc.toNat →
      s.recGood r.partition c = true → ∃ t y, exec (.loadTileProgram r [c] true) s = .next t ∧
        Answered s t r 0x20 stOk (toBytes 1 4 ++ toBytes 0 4) ∧ t.part r.partition = some y ∧
        (∀ u ∈ recUnits c, SMap.find y.copy (copyKey c.type.toNat (recTile c) u.1) = some u.2 ∧
          (c.type = 0 → SMap.get (t.tile c.tile.toNat).imem 0 u.1 = BitVec.ofNat 128 u.2) ∧
          (c.type = 1 → SMap.get (t.tile c.tile.toNat).pmem 0 u.1 = BitVec.ofNat 64 u.2) ∧
          ∀ a ∈ unitRegs c.type.toNat r.partition (recTile c) u.1,
            t.rd a.1 = (s.regStore a.1 (unitWord u.2 a.2)).rd a.1) ∧
        y.gen = x.gen ∧ y.firstCol = x.firstCol ∧ y.lastCol = x.lastCol) ∧
    (∀ (x : Part) (c : LoadRec) (rest : List LoadRec) dma, Requested s r 0x20 → s.part r.partition = some x →
      s.pstate r.partition = psStopped → (∀ d ∈ c :: rest, d.type.toNat = 6 ∨ s.ownsTile r.partition d.tile.toNat = true) →
      crc32 c.data ≠ c.crc.toNat → ∃ t, exec (.loadTileProgram r (c :: rest) dma) s = .next t ∧
        Answered s t r 0x20 stFaulted (toBytes 0 4 ++ toBytes 0 4) ∧ OnlyMailbox s t) ∧
    (∀ (x : Part) (tile : Nat) (row : BitVec 13) (ws : List Row), row.toNat + ws.length ≤ 8192 → Requested s r 0x21 → s.part r.partition = some x →
      s.pstate r.partition = psStopped → s.ownsTile r.partition tile = true → (∃ u, exec (.loadWeights r tile row ws false) s = .next u ∧ Answered s u r 0x21 stFaulted []) ∧
      ∃ t, exec (.loadWeights r tile row ws true) s = .next t ∧
        Answered s t r 0x21 stOk [] ∧ OnlyMailbox s { t with store := s.store, upsets := s.upsets, tiles := s.tiles, free := s.free } ∧
        (∀ j w i, ws[j]? = some w → i < 1024 → t.store.read (s.storeBase tile + (row.toNat + j) * 1024 + i) = byteOf w.toNat i) ∧
        (∀ a, (a < s.storeBase tile + row.toNat * 1024 ∨ s.storeBase tile + (row.toNat + ws.length) * 1024 ≤ a) →
          t.store.read a = s.store.read a)) ∧
    (∀ (x : Part), Requested s r 0x22 → r.fn = 0 → s.part r.partition = some x → r.partition < 16 → s.pstate r.partition = psStopped →
      s.loaderBusy r.fn = false → ∃ t, exec (.fabricLoad r false) s = .next t ∧ Waits s t r .load ∧
        t.rd Reg.CFG_PERMIT = BitVec.ofNat 32 x.sectors ∧ t.fld (Reg.FAB_PART_RELCTL r.partition) 8 2 = 0 ∧
        t.cfg.load = s.cfg.load ∧ BytesSame s t) ∧
    (∀ (kind : BitVec 8) (piece : List Byte), Requested s r 0xF0 → r.fn = 0 → s.testMode = false → (kind = 0 ∨ kind = 2) → s.hasSlot kind.toNat = true →
      s.upload = (kind.toNat, []) → (∃ t, exec (.fwUpdate r 0 kind false piece) s = .next t ∧ Answered s t r 0xF0 stOk [] ∧ t.upload = (kind.toNat, piece) ∧
        t.flash = s.flash ∧ RegsSameBut s t (cplRegs r.fn)) ∧
      (imageReason s.fuses (s.rd Reg.CFG_IDCODE) (srcKinds (.slot kind)) piece = none → ∃ t,
        exec (.fwUpdate r 0 kind true piece) s = .next t ∧ Answered s t r 0xF0 stOk [] ∧ t.flash = SMap.set s.flash kind.toNat piece) ∧
      (∀ e, imageReason s.fuses (s.rd Reg.CFG_IDCODE) (srcKinds (.slot kind)) piece = some e → ∃ t,
        exec (.fwUpdate r 0 kind true piece) s = .next t ∧ Answered s t r 0xF0 stFaulted (toBytes e 1) ∧ t.flash = s.flash)) ∧
    (∀ offset (kind : BitVec 8) last piece, Requested s r 0xF0 → r.fn = 0 → s.testMode = true ∨ (kind ≠ 0 ∧ kind ≠ 2) ∨ s.hasSlot kind.toNat = false →
      ∃ t, exec (.fwUpdate r offset kind last piece) s = .next t ∧ Answered s t r 0xF0 stUnsupported [] ∧ OnlyMailbox s t) ∧
    (Requested s r 0xF1 → r.fn = 0 → ∃ t, exec (.fwActivate r false) s = .next t ∧ Answered s t r 0xF1 stOk [] ∧
      OnlyMailbox s t ∧ RegsSameBut s t (cplRegs r.fn))

/-- Requests that run on a device that serves. START of a STOPPED partition, with its milestone ahead and nothing lost: where it rests
in no rung and every rail holds what R53 asks of it, the partition is ARMED for that milestone with that step, and the answer
holds the milestone; where it does not, and the milestone is more than one ahead, the command waits for the raises and the exit.
STOP of a RUNNING partition without an armed STOP, at a milestone ahead: it is armed there and answered with it; of an ARMED one: its START is
cleared and it is STOPPED; of a STOPPED one: answered OK with the current milestone, and nothing else changes. SET_PERIOD of PF0 at least two milestones ahead: the period,
held between 63 and 8,000 units, is the next one, armed there, where every rail holds what R53 asks of it; otherwise the command
waits for the raises and nothing is armed. ROUTE_EPOCH of PF0 with a greater epoch two milestones ahead: it is
armed there; with rejoin on a fenced device whose partitions are STOPPED and reset: armed there as a rejoin. -/
def Obligations.MilestoneCommandsArm : Prop :=
  ∀ (s : State) (r : Req) (ms : BitVec 48),
    (∀ (x : Part) (step : BitVec 48), Serves s → Requested s r 0x30 → s.part r.partition = some x → r.partition < 16 →
      s.pstate r.partition = psStopped → msAhead ms.toNat s.msCount = true → s.bit (Reg.PART_STOP_AT_HI r.partition) 31 = false →
      s.timeFar = false → s.startWaits r.partition = false → s.devRung = 0 → s.pwr.phase = 0 → s.bit Reg.PWR_STATUS 8 = false →
      s.lostColumn x = false → s.ueSectors x.sectors = false → s.sectorOff x = false →
      (x.rung = 0 → s.raised (s.floorsFor r.partition) = true →
        ∃ t, exec (.start r ms step) s = .next t ∧ Answered s t r 0x30 stOk (toBytes ms.toNat 6) ∧
          t.pstate r.partition = psArmed ∧ t.step48 r.partition = step.toNat ∧
          t.rd2 (Reg.PART_START_AT_LO r.partition) (Reg.PART_START_AT_HI r.partition) = ms.toNat + 2 ^ 63) ∧
      ((x.rung ≠ 0 ∨ s.raised (s.floorsFor r.partition) = false) → msAhead ms.toNat ((s.msCount + 1) % 2 ^ 48) = true →
        ∃ t, exec (.start r ms step) s = .next t ∧ Waits s t r (.exit ms.toNat step.toNat (s.capped (s.floorsFor r.partition))) ∧
          t.pstate r.partition = psStopped)) ∧
    (∀ x, Serves s → Requested s r 0x31 → s.part r.partition = some x → r.partition < 16 → s.pstate r.partition = psRunning →
      msAhead ms.toNat s.msCount = true → s.bit (Reg.PART_STOP_AT_HI r.partition) 31 = false →
      ∃ t, exec (.stop r ms false) s = .next t ∧ Answered s t r 0x31 stOk (toBytes ms.toNat 6) ∧ OnlyMailbox s { t with parts := s.parts } ∧
        t.part r.partition = some { x with hushStop := [] } ∧
        t.rd2 (Reg.PART_STOP_AT_LO r.partition) (Reg.PART_STOP_AT_HI r.partition) = ms.toNat + 2 ^ 63 ∧
        RegsSameBut s t (cplRegs r.fn ++ [Reg.PART_STOP_AT_LO r.partition, Reg.PART_STOP_AT_HI r.partition])) ∧
    (∀ next, Serves s → Requested s r 0x31 → s.part r.partition ≠ none → r.partition < 16 → s.pstate r.partition = psArmed →
      ∃ t, exec (.stop r ms next) s = .next t ∧ Answered s t r 0x31 stOk (toBytes s.msCount 6) ∧ t.pstate r.partition = psStopped ∧
        t.bit (Reg.PART_START_AT_HI r.partition) 31 = false) ∧
    (∀ next, Serves s → Requested s r 0x31 → s.part r.partition ≠ none → s.pstate r.partition = psStopped →
      ∃ t, exec (.stop r ms next) s = .next t ∧ Answered s t r 0x31 stOk (toBytes s.msCount 6) ∧ OnlyMailbox s t ∧
        RegsSameBut s t (cplRegs r.fn)) ∧
    (∀ period : BitVec 16, Serves s → Requested s r 0x32 → r.fn = 0 → s.twoAhead ms.toNat = true →
      let units := max 63 (min 8000 period.toNat)
      (s.raised (s.floorsAt (8 * units)) = true →
        ∃ t, exec (.setPeriod r period ms) s = .next t ∧ Answered s t r 0x32 stOk ([0, 0] ++ toBytes ms.toNat 6) ∧
          t.fld Reg.TIME_MS_PERIOD_NEXT 0 13 = units ∧
          t.rd2 Reg.TIME_MS_CHANGE_LO Reg.TIME_MS_CHANGE_HI = ms.toNat + 2 ^ 63 ∧ t.rd Reg.TIME_MS_PERIOD = s.rd Reg.TIME_MS_PERIOD) ∧
      (s.raised (s.floorsAt (8 * units)) = false →
        ∃ t, exec (.setPeriod r period ms) s = .next t ∧ Waits s t r (.period ms.toNat units (s.capped (s.floorsAt (8 * units)))) ∧
          t.rd Reg.TIME_MS_PERIOD_NEXT = s.rd Reg.TIME_MS_PERIOD_NEXT)) ∧
    (∀ e : BitVec 16, s.ready = true → Requested s r 0x42 → r.fn = 0 → s.fld Reg.TPL_EPOCH 0 16 < e.toNat → s.twoAhead ms.toNat = true →
      ∃ t, exec (.routeEpoch r e ms) s = .next t ∧ Answered s t r 0x42 stOk (toBytes e.toNat 2) ∧ t.rejoin = false ∧
        t.rd Reg.TPL_EPOCH_NEXT = BitVec.ofNat 32 (e.toNat + 2 ^ 31) ∧ t.rd2 Reg.TPL_EPOCH_AT_LO Reg.TPL_EPOCH_AT_HI = ms.toNat ∧
        t.rd Reg.TPL_EPOCH = s.rd Reg.TPL_EPOCH) ∧
    (∀ e : BitVec 16, s.ready = true → Requested s r 0x42 → r.fn = 0 → s.fenced = true →
      (∀ p ∈ s.parts, s.pstate p.1 = psStopped ∧ p.2.fenceReset = true) → s.fld Reg.TPL_FENCE 16 16 ≤ e.toNat →
      s.twoAhead ms.toNat = true → ∃ t, exec (.routeEpochRejoin r e ms) s = .next t ∧ Answered s t r 0x42 stOk (toBytes e.toNat 2) ∧
        t.rejoin = true ∧ t.rd Reg.TPL_EPOCH_NEXT = BitVec.ofNat 32 (e.toNat + 2 ^ 31) ∧
        t.rd2 Reg.TPL_EPOCH_AT_LO Reg.TPL_EPOCH_AT_HI = ms.toNat)

/-- Requests of PF0 that run on a device that serves. POWER_LIMIT stores the limit, at most 250 W, and answers it. QOS_SET holds the
target between 100 ns and 10,000 ns and stores it for the named port of every channel of the mask, and no other register but
`MBX_COUNTS` changes. TIME_CONFIG with possible selections writes the role, the reference and the upstream port. DRAM_MAP while no partition holds a range: of the
mode in force it is answered OK and nothing else changes; of the other one the mode is in force, `DUMP_BASE` shows the top of the new map, and the bytes of the
firmware's 256 MiB stand at the top of the new map, in the channels that serve. LINK_CONFIG of a lane, port or channel of a STOPPED partition, with
possible images: its control register holds what the image stores, a channel's three registers too, with the partition as owner; a lane whose
enable or rate changes restarts, a port that is up closes where its enable or width changes, and a channel opens or closes with its enable. The decode of channel offsets (R276) gives no two of them the same byte, burst column, subchannel, bank, bank group, row and
rank, whatever the organisation; and eight consecutive KiB share a bank and row. -/
def Obligations.ConfigurationIsStored : Prop :=
  ∀ (s : State) (r : Req), Serves s → r.fn = 0 →
    (∀ w : BitVec 16, Requested s r 0x51 → ∃ t, exec (.powerLimit r w) s = .next t ∧
      Answered s t r 0x51 stOk (toBytes (min 250 w.toNat) 2) ∧ t.fld Reg.PWR_LIMIT 0 8 = min 250 w.toNat ∧
      RegsSameBut s t (cplRegs r.fn ++ [Reg.PWR_LIMIT]) ∧ OnlyMailbox s t) ∧
    (∀ (mask port : BitVec 8) (target : BitVec 16), Requested s r 0x81 → port.toNat < 6 → ∃ t, exec (.qosSet r mask port target) s = .next t ∧
      Answered s t r 0x81 stOk [] ∧ OnlyMailbox s t ∧
      (∀ ch, ch < 8 → t.fld (Reg.DDR_PORT_QOS ch port.toNat) 0 14 =
        if mask.getLsbD ch then max 100 (min 10000 target.toNat) else s.fld (Reg.DDR_PORT_QOS ch port.toNat) 0 14) ∧
      RegsSameBut s t (cplRegs r.fn ++ (List.range 8).map (fun ch => Reg.DDR_PORT_QOS ch port.toNat))) ∧
    (∀ (role ref pins port : BitVec 8) (ep : BitVec 16) (en : Bool), Requested s r 0x60 → role.toNat < 2 → ref.toNat < 3 →
      pins.toNat < 16 → port.toNat < 96 → ∃ t, exec (.timeConfig r role ref pins port ep en) s = .next t ∧
        Answered s t r 0x60 stOk [] ∧ t.fld Reg.TIME_CTRL 0 1 = role.toNat ∧ t.fld Reg.TIME_CTRL 1 2 = ref.toNat ∧
        t.upPort = port.toNat ∧ t.bit Reg.TIME_MS_CTRL 1 = pins.getLsbD 3 ∧
        t.fld Reg.TIME_EXCH_EP 0 16 = ep.toNat ∧ t.bit Reg.TIME_EXCH_EP 16 = en ∧ t.time = s.time) ∧
    (∀ mode : BitVec 8, Requested s r 0x80 → mode.toNat < 2 → (∀ p, p < 16 → s.rangeOf p = none) → (mode = 1 → s.bandOk = true) →
      let u := s.setFld Reg.DDR_MAP_CTRL 0 1 mode.toNat
      ∃ t, exec (.dramMap r mode) s = .next t ∧ Answered s t r 0x80 stOk [] ∧
        (mode.toNat = s.fld Reg.DDR_MAP_CTRL 0 1 → OnlyMailbox s t ∧ RegsSameBut s t (cplRegs r.fn)) ∧
        (mode.toNat ≠ s.fld Reg.DDR_MAP_CTRL 0 1 → t.fld Reg.DDR_MAP_CTRL 0 1 = mode.toNat ∧ t.store = s.store ∧
          t.rd2 Reg.DUMP_BASE_LO Reg.DUMP_BASE_HI = u.mapTop - 2 ^ 26 ∧
          (Memory.wf s.dram = true → 2 ^ 28 ≤ s.mapTop → 2 ^ 28 ≤ u.mapTop → (∀ k, k < 8 → s.dramCap k ≤ 64 * 2 ^ 30) →
            (∀ k ∈ s.dram, k.1 < 2 ^ 39 ∧ k.1 % 2 ^ 36 < s.dramCap (k.1 / 2 ^ 36)) →
            ∀ i, i < 2 ^ 28 → u.ddrServes (u.dramLoc (u.mapTop - 2 ^ 28 + i)).1 = true →
              t.dram.read (u.dramKey (u.mapTop - 2 ^ 28 + i)) = s.dram.read (s.dramKey (s.mapTop - 2 ^ 28 + i))))) ∧
    (∀ (x : Part) (i : BitVec 8) (a b c : Word), Requested s r 0x40 → s.part r.partition = some x → x.ownsLanes i.toNat 1 = true →
      s.pstate r.partition = psStopped → s.regBad (Reg.TPL_LANE_CTRL i.toNat) a = false → s.regBad (Reg.TPL_LANE_THRESH i.toNat) b = false →
      a.field 1 2 ≠ 3 → let new := (s.regStore (Reg.TPL_LANE_CTRL i.toNat) a).rd (Reg.TPL_LANE_CTRL i.toNat)
      let same := s.rd (Reg.TPL_LANE_CTRL i.toNat) &&& 7 = new &&& 7
      ∃ t, exec (.linkConfig r 0 i false a b c) s = .next t ∧ Answered s t r 0x40 stOk [] ∧
        t.rd (Reg.TPL_LANE_CTRL i.toNat) = new ∧
        (¬same → t.laneState i.toNat = if new.bit 0 && s.boot.refclk.getLsbD (i.toNat / 8) then 1 else 0) ∧
        (same → OnlyMailbox s t ∧
        t.rd (Reg.TPL_LANE_CTRL i.toNat) = (s.regStore (Reg.TPL_LANE_CTRL i.toNat) a).rd (Reg.TPL_LANE_CTRL i.toNat) ∧
        RegsSameBut s t (cplRegs r.fn ++ [Reg.TPL_LANE_CTRL i.toNat, Reg.TPL_LANE_THRESH i.toNat]))) ∧
    (∀ (x : Part) (i : BitVec 8) (a b c : Word), Requested s r 0x40 → s.part r.partition = some x →
      x.linkNamed 1 i.toNat a c = true → s.pstate r.partition = psStopped → s.laneOwner i.toNat = some r.partition →
      s.oneOwner i.toNat (2 ^ a.field 1 2) = true → s.regBad (Reg.TPL_PORT_CTRL i.toNat) a = false → i.toNat % 2 ^ a.field 1 2 = 0 →
      ∃ t, exec (.linkConfig r 1 i false a b c) s = .next t ∧ Answered s t r 0x40 stOk [] ∧
        t.rd (Reg.TPL_PORT_CTRL i.toNat) = (s.regStore (Reg.TPL_PORT_CTRL i.toNat) a).rd (Reg.TPL_PORT_CTRL i.toNat) ∧
        (s.portIsUp i.toNat = true → s.rd (Reg.TPL_PORT_CTRL i.toNat) &&& 7 ≠ a &&& 7 → t.portIsUp i.toNat = false)) ∧
    (∀ (x : Part) (i : BitVec 8) (a b c : Word), Requested s r 0x40 → s.part r.partition = some x → r.partition < 16 →
      x.linkNamed 2 i.toNat a c = true → s.chanHolder i.toNat = some r.partition → s.pstate r.partition = psStopped →
      s.linkBad 2 i.toNat a b c = false → s.chanState i.toNat ≠ 2 → ∃ t, exec (.linkConfig r 2 i false a b c) s = .next t ∧
        Answered s t r 0x40 stOk [] ∧ t.rd (Reg.CHN_REMOTE i.toNat) = (s.regStore (Reg.CHN_REMOTE i.toNat) b).rd (Reg.CHN_REMOTE i.toNat) ∧
        t.rd (Reg.CHN_LOCAL i.toNat) = (s.regStore (Reg.CHN_LOCAL i.toNat) c).rd (Reg.CHN_LOCAL i.toNat) ∧
        t.rd (Reg.CHN_CTRL i.toNat) =
          (s.regStore (Reg.CHN_CTRL i.toNat) (a.setField 16 4 (if a.bit 0 then r.partition else 0))).rd (Reg.CHN_CTRL i.toNat) ∧
        (s.chanOn i.toNat = false → t.chanOn i.toNat = true → t.chanState i.toNat = 1) ∧
        (s.chanOn i.toNat = true → t.chanOn i.toNat = false → t.chanState i.toNat = 0) ∧
        OnlyMailbox s { t with chans := s.chans }) ∧
    (∀ ch o q, s.ddrRow ch o = s.ddrRow ch q → s.ddrRank ch o = s.ddrRank ch q → ddrBankIdx o = ddrBankIdx q →
      s.ddrGroup ch o = s.ddrGroup ch q → s.ddrCol ch o = s.ddrCol ch q → ddrSub o = ddrSub q → ddrByte o = ddrByte q → o = q) ∧
    (∀ ch k i, i < 8192 → s.ddrRow ch (8192 * k + i) = s.ddrRow ch (8192 * k) ∧ s.ddrRank ch (8192 * k + i) = s.ddrRank ch (8192 * k) ∧
      ddrBankIdx (8192 * k + i) = ddrBankIdx (8192 * k) ∧ s.ddrGroup ch (8192 * k + i) = s.ddrGroup ch (8192 * k))

/-- POWER_STATE of PF0 for a STOPPED partition that is in no rung, with no lanes and no hold: the partition's rung is the one asked
for (0 to 3), it is entering it and the command waits; asked for rung 0, the command is answered OK. POWER_STATE_DEVICE of PF0 with
every partition STOPPED and the device awake: `PWR_DEV_RUNG` shows the rung and the entry of the device begins; rung 0 of an awake
device is answered OK. RUNG_ENTRY_COMPLETE of a partition that is entering its rung: it rests there, and a command that waits for that alone is over; of the
device that is entering a rung below L4: it is in it; L4: the rails' voltages are kept, and the rails that do not hold those of L4 are asked for them.
RUNG_EXIT_COMPLETE of a RUNNING partition that was woken: its exit is done. Of the device in its last exit phase: the device is in rung 0. A
POWER_STATE_TIMEOUT answers the command that waits with TIMEOUT, and nothing else changes. -/
def Obligations.PowerStatesAreEntered : Prop :=
  (∀ (s : State) (r : Req) (x : Part) (g : BitVec 8), Serves s → Requested s r 0x50 → r.fn = 0 → s.part r.partition = some x →
    s.pstate r.partition = psStopped → s.startWaits r.partition = false → x.rung = 0 → g.toNat < 4 →
    (g ≠ 0 → ∃ t y, exec (.powerState r g 0 0 0) s = .next t ∧ t.part r.partition = some y ∧ y.rung = g.toNat ∧ y.entering = true ∧
      Waits s t r (.power r.partition g.toNat 0 0 0)) ∧
    (g = 0 → x.entering = false → ∃ t, exec (.powerState r g 0 0 0) s = .next t ∧ Answered s t r 0x50 stOk [] ∧
      t.part r.partition = some x)) ∧
  (∀ (s : State) (r : Req) (g : BitVec 8), Serves s → Requested s r 0x50 → r.fn = 0 → g.toNat < 5 → s.devRung = 0 → s.pwr.phase = 0 →
    (∀ p ∈ s.parts, s.pstate p.1 = psStopped ∧ s.startWaits p.1 = false) →
    (g ≠ 0 → ∃ t, exec (.powerStateDevice r g 0 0 0) s = .next t ∧ t.rd Reg.PWR_DEV_RUNG = BitVec.ofNat 32 g.toNat ∧
      t.pwr.phase = 1 ∧ t.pwr.target = g.toNat ∧ t.bit Reg.PWR_STATUS 4 = true ∧ Waits s t r (.power 16 g.toNat 0 0 0)) ∧
    (g = 0 → ∃ t, exec (.powerStateDevice r g 0 0 0) s = .next t ∧ Answered s t r 0x50 stOk [] ∧ t.rd Reg.PWR_DEV_RUNG = 0)) ∧
  (∀ (s : State) (p : Nat) (x : Part), p < 16 → s.part p = some x → x.rung ≠ 0 → x.entering = true →
    ∃ t y, exec (.rungEntryComplete p) s = .next t ∧ t.part p = some y ∧ y.entering = false ∧ y.rung = x.rung ∧
      ∀ fn, fn < 17 → s.fwLost = false → s.waitOf fn = some (.power p x.rung 0 0 0) → x.wakeAt = none → (t.fnMbx fn).running = none) ∧
  (∀ s : State, s.pwr.phase = 1 →
    (s.pwr.target < 4 → ∃ t, exec (.rungEntryComplete 16) s = .next t ∧ t.devRung = s.pwr.target ∧ t.pwr.phase = 0 ∧
      t.bit Reg.PWR_STATUS 4 = false ∧ t.bit Reg.PWR_STATUS 5 = false) ∧
    (s.pwr.target = 4 → s.railsAt l4Low = false → ∃ t, exec (.rungEntryComplete 16) s = .next t ∧ t.pwr.phase = 2 ∧
      t.pwr.saved = (List.range 5).map (fun r => (r, s.railMv r)) ∧
      ∀ r mv, (r, mv) ∈ l4Low → s.railWaits r = false → s.railMv r ≠ mv → avsOut r (.write mv) ∈ t.out ∧ t.railWaits r = true)) ∧
  (∀ (s : State) (p : Nat) (x : Part), p < 16 → s.bit Reg.PWR_STATUS 8 = false → s.part p = some x → x.rung ≠ 0 → x.entering = false →
    x.wakeAt ≠ none → s.pstate p = psRunning → ∃ t y, exec (.rungExitComplete p) s = .next t ∧ t.part p = some y ∧ y.exitDone = true ∧
      y.rung = x.rung) ∧
  (∀ s : State, s.bit Reg.PWR_STATUS 8 = false → s.pwr.phase = 6 → ∃ t, exec (.rungExitComplete 16) s = .next t ∧ t.devRung = 0 ∧
    t.pwr.phase = 0) ∧
  (∀ (s : State) (fn a b : Nat) (l : BitVec 96) (c d : Nat) (op tag : BitVec 16) (q : Option Req), fn < 17 → s.fwLost = false →
    (s.fnMbx fn).running = some ⟨op, tag, q, .power a b l c d, false⟩ → (s.fnMbx fn).enabled = true →
    ∃ t, exec (.powerStateTimeout fn) s = .next t ∧ (t.fnMbx fn).running = none ∧ OnlyMailbox s t ∧
      Output.hostWrite fn (s.rd2 (Reg.MBX_CPL_BASE_LO fn) (Reg.MBX_CPL_BASE_HI fn) + (s.fnMbx fn).written % 64 * 64)
        (completionBytes op.toNat tag.toNat stTimeout (s.fnMbx fn).written []) ∈ t.out)
/-- Both commands complete. While the firmware runs and was not lost. A tick raises `MBX_HEARTBEAT` of every function by 1, wrapping, and changes no other
register, no memory and nothing else of the state. The watchdog sets `fw_lost` in every function's `MBX_STATUS` and in `ALERT_STATUS`,
raises vector 2 on every function that has MSI-X enabled, where a vector that is masked, or held in D3hot, becomes pending instead (log entry
20, the family's), and, where the log has room, writes FW_HEARTBEAT_LOST, 0x0802, DEVICE_FATAL, as its last record; after it no
mailbox command completes: a command that a function runs is answered by no completion, whatever status and results it would have
had. -/
def Obligations.HeartbeatAndItsLoss : Prop :=
  ∀ s : State, s.boot.fwUp = true → s.fwLost = false →
    (∃ t, exec .fwHeartbeatTick s = .next t ∧ (∀ f, f < 17 → t.rd (Reg.MBX_HEARTBEAT f) = s.rd (Reg.MBX_HEARTBEAT f) + 1) ∧
      RegsSameBut s t ((List.range 17).map Reg.MBX_HEARTBEAT) ∧ t = { s with regs := t.regs }) ∧
    (∃ t, exec .fwHeartbeatLost s = .next t ∧ t.fwLost = true ∧
      (∀ f, f < 17 → t.bit (Reg.MBX_STATUS f) 1 = true ∧ (s.bit (Reg.PCI_MSIX f) 31 = true →
        (s.vectorHeld f 2 = false → Output.irq f 2 ∈ t.out) ∧ (s.vectorHeld f 2 = true → t.bit (Reg.MSIX_PBA f 0) 2 = true))) ∧
      t.alertStatus.getLsbD 3 = true ∧ t.alertStatus.getLsbD 2 = true ∧
      (s.log.length < 4096 → ∃ r, t.log = s.log ++ [r] ∧ r.code = 0x0802 ∧ r.sev = sevDevice ∧ r.part = none) ∧
      (∀ fn status results, t.complete fn status results = t))

/-- BAR2 accesses of every function complete. Where the window gives no address (R298), or the run meets a hole, or the function is in D3hot
(log entry 20, the family's), a read is answered with an error, which AER records, and a write is discarded: no controller and no memory changes. A run in one block of 1,024 B of a channel that serves joins
the channel's queue as one request on the system port with the stream ID 1 + function, other channels as before: of a read, which
waits, and nothing else changes but the count of reads; of a write, nothing else changes. When such a read completes in a channel
without upsets, the function gets the bytes of the DRAM there; when such a write completes, the bytes of its run read as written and
every other byte of the DRAM reads as before. Outside owner debug mode a BAR4 read is refused and a BAR4 write is discarded, with no
register or memory changed; in owner debug mode a BAR4 read of a register that neither a read changes nor a buffer holds is answered
with its value, and a BAR4 write of one does what REGISTER_WRITE of its address does (log entry 48, the model's reading). -/
def Obligations.HostWindowsReachTheDram : Prop :=
  (∀ (s : State) (fn : Nat) (o : BitVec 40) (len : Nat) (data : List Byte),
    (s.inD3 fn = true ∨ ∀ n, n = len ∨ n = data.length → ∀ a, s.windowAddr fn o.toNat n = some a → s.noHole a n = false) →
    (∃ t, exec (.bar2Read fn o len) s = .next t ∧ Output.readError fn ∈ t.out ∧ t.bit (Reg.PCI_AER fn 0) 20 = true ∧
      t.dramCh = s.dramCh ∧ BytesSame s t) ∧
    (∃ t, exec (.bar2Write fn o data) s = .next t ∧ t.dramCh = s.dramCh ∧ BytesSame s t)) ∧
  (∀ (s : State) (fn : Nat) (o : BitVec 40) (len a : Nat), s.inD3 fn = false → s.windowAddr fn o.toNat len = some a → s.noHole a len = true → 0 < len →
    a % 1024 + len ≤ 1024 → s.ddrServes (s.dramLoc a).1 = true → ∃ t, exec (.bar2Read fn o len) s = .next t ∧
      (t.dch (s.dramLoc a).1).queue = (s.dch (s.dramLoc a).1).queue ++
        [{ s.hostReq fn false a len [] (.read s.reqNum 0) with id := (s.dch (s.dramLoc a).1).nextId }] ∧
      (∀ d, d ≠ (s.dramLoc a).1 → t.dch d = s.dch d) ∧
      t = { s with reqNum := s.reqNum + 1, hostReads := s.hostReads ++ [⟨s.reqNum, fn, 1, [], false, false, none⟩], dramCh := t.dramCh }) ∧
  (∀ (s : State) (fn : Nat) (o : BitVec 40) (data : List Byte) (a : Nat), s.inD3 fn = false → s.windowAddr fn o.toNat data.length = some a →
    s.noHole a data.length = true → data ≠ [] → a % 1024 + data.length ≤ 1024 → s.ddrServes (s.dramLoc a).1 = true →
    ∃ t, exec (.bar2Write fn o data) s = .next t ∧ (t.dch (s.dramLoc a).1).queue = (s.dch (s.dramLoc a).1).queue ++
        [{ s.hostReq fn true a data.length data .posted with id := (s.dch (s.dramLoc a).1).nextId }] ∧
      (∀ d, d ≠ (s.dramLoc a).1 → t.dch d = s.dch d) ∧ t = { s with dramCh := t.dramCh }) ∧
  (∀ (s : State) (ch : Nat) (q : DramReq) (fn num : Nat), (s.dch ch).queue.find? (fun r => r.id == q.id) = some q → q.issued = true →
    q.port = 5 → (∀ r ∈ (s.dch ch).queue, r.port = 5 → r.src = q.src → q.id ≤ r.id) → (s.dch ch).upsets = [] → q.len ≤ 1024 →
    (q.write = false → q.to_ = .read num 0 → q.taken = none →
      s.hostReads.find? (fun h => h.num == num) = some ⟨num, fn, 1, [], false, false, none⟩ →
      ∃ t, exec (.dramRequestComplete ch q.id []) s = .next t ∧ BytesSame s t ∧ Output.readReply fn
        ((List.range q.len).map (fun i => s.dram.read (ch * 2 ^ 36 + (s.dramLoc q.addr).2 + i))) ∈ t.out) ∧
    (q.write = true → q.to_ = .posted → ∃ t, exec (.dramRequestComplete ch q.id []) s = .next t ∧
      (∀ i, i < q.len → t.dram.read (ch * 2 ^ 36 + (s.dramLoc q.addr).2 + i) = q.data.extractLsb' (8 * i) 8) ∧
      (∀ k, (k < ch * 2 ^ 36 + (s.dramLoc q.addr).2 ∨ ch * 2 ^ 36 + (s.dramLoc q.addr).2 + q.len ≤ k) →
        t.dram.read k = s.dram.read k))) ∧
  (∀ (s : State) (o : BitVec 32) (w : Bool) (v : Word), (s.bit (Reg.MBX_CTRL 0) 3 = false ∨ s.inD3 0 = true) →
    exec (.bar4Access o w v) s = .next (if w then s else s.readRefused 0)) ∧
  (∀ (s : State) (o : BitVec 32) (v : Word), s.bit (Reg.MBX_CTRL 0) 3 = true → s.inD3 0 = false →
    exec (.bar4Access o true v) s = exec (.registerWrite (o.setWidth 40) v) s) ∧
  (∀ (s : State) (o : BitVec 32) (v : Word), s.bit (Reg.MBX_CTRL 0) 3 = true → s.inD3 0 = false → s.readBuffer (o.toNat / 4 * 4) = none →
    ¬ (0x10000000 ≤ o.toNat ∧ o.toNat < 0x10900000) → o.toNat / 4 * 4 ≠ Reg.TIME_NOW_LO →
    exec (.bar4Access o false v) s = .next (s.emit (.readReply 0 (toBytes (s.rd (o.toNat / 4 * 4)).toNat 4))))

/-- Each command completes. A function level reset of a VF whose function runs no command: its rings stop, its control and base registers
are 0, its MSI-X table and power state are those of reset (the model's choice, log entry 20), nothing of its notices and reads waits, no other
function's mailbox changes, no tile and no memory changes, and of a partition no more than that a START or STOP that is armed will post no notice to the
function. Of PF0, and at the reset
of the PCIe link: every function's rings stop and owner debug mode ends, and the latter makes the pair of host time and Route
time invalid; partitions, tiles and memories stay. A PTM exchange of a running time unit that is enabled captures Route time; its
response stores Route time in ns with the host time, less half the round trip, and makes the pair valid. -/
def Obligations.FunctionResetsAndPtm : Prop :=
  (∀ (s : State) (fn : Nat), 0 < fn → fn < 17 → (s.fnMbx fn).running = none → ∃ t, exec (.functionLevelReset fn) s = .next t ∧
    (t.fnMbx fn).enabled = false ∧ (t.fnMbx fn).tail = (s.fnMbx fn).taken ∧ t.rd (Reg.MBX_CTRL fn) = 0 ∧
    t.rd (Reg.MBX_CPL_BASE_LO fn) = 0 ∧ t.rd (Reg.MBX_REQ_BASE_LO fn) = 0 ∧ t.rd (Reg.MBX_NTC_BASE_LO fn) = 0 ∧
    t.rd (Reg.PCI_PM fn) = Reg.resetOf (Reg.PCI_PM fn) ∧
    (∀ n ∈ t.notices, n.fn ≠ fn) ∧ (∀ h ∈ t.hostReads, h.fn ≠ fn) ∧ (∀ g, g ≠ fn → t.fnMbx g = s.fnMbx g) ∧
    RegsSameBut s t ([Reg.MBX_CTRL fn, Reg.MBX_REQ_BASE_LO fn, Reg.MBX_REQ_BASE_HI fn, Reg.MBX_CPL_BASE_LO fn, Reg.MBX_CPL_BASE_HI fn,
      Reg.MBX_NTC_BASE_LO fn, Reg.MBX_NTC_BASE_HI fn, Reg.PCI_MSIX fn, Reg.PCI_PM fn, Reg.MSIX_PBA fn 0] ++ (List.range 12).map (fun i => Reg.MSIX_TABLE fn i)) ∧
    t.parts = (s.hushArmed fn).parts ∧
    t = { s with regs := t.regs, mbx := t.mbx, notices := t.notices, owed := t.owed, hostReads := t.hostReads, parts := t.parts }) ∧
  (∀ s : State, (∀ f, f < 17 → (s.fnMbx f).running = none) → ∃ t, exec (.functionLevelReset 0) s = .next t ∧
    (∀ f, f < 17 → (t.fnMbx f).enabled = false ∧ t.rd (Reg.MBX_CTRL f) = 0 ∧ t.bit (Reg.MBX_STATUS f) 3 = false) ∧
    t = { s with regs := t.regs, mbx := t.mbx, notices := t.notices, owed := t.owed, hostReads := t.hostReads, parts := t.parts } ∧
    t.parts.map (fun x => (x.1, { x.2 with hushStart := [], hushStop := [] })) =
      s.parts.map (fun x => (x.1, { x.2 with hushStart := [], hushStop := [] }))) ∧
  (∀ s : State, (∀ f, f < 17 → (s.fnMbx f).running = none) → ∃ t, exec .pcieLinkReset s = .next t ∧
    (∀ f, f < 17 → (t.fnMbx f).enabled = false ∧ t.rd (Reg.MBX_CTRL f) = 0) ∧ t.bit Reg.TIME_PTM_CTRL 31 = false ∧
    t = { s with regs := t.regs, mbx := t.mbx, notices := t.notices, owed := t.owed, hostReads := t.hostReads, parts := t.parts } ∧
    t.parts.map (fun x => (x.1, { x.2 with hushStart := [], hushStop := [] })) =
      s.parts.map (fun x => (x.1, { x.2 with hushStart := [], hushStop := [] }))) ∧
  (∀ s : State, s.timeRuns = true → s.fld Reg.TIME_PTM_CTRL 0 8 ≠ 0 →
    exec .ptmExchange s = .next { s with timeUnit := { s.timeUnit with ptmAt := some s.time } }) ∧
  (∀ (s : State) (h : BitVec 64) (rtt at_ : Nat), s.timeUnit.ptmAt = some at_ → rtt / 2 ≤ h.toNat → at_ < 2 ^ 80 →
    ∃ t, exec (.ptmResponse h rtt) s = .next t ∧
      t.rd2 Reg.TIME_PTM_HOST_LO Reg.TIME_PTM_HOST_HI = h.toNat - rtt / 2 ∧
      t.rd2 Reg.TIME_PTM_ROUTE_LO Reg.TIME_PTM_ROUTE_HI = at_ / 65536 ∧ t.timeUnit.ptmFrac = at_ % 65536 ∧
      t.timeUnit.ptmAt = none ∧ t.bit Reg.TIME_PTM_CTRL 31 = true)
/-- A milestone of a running time unit with milestones enabled, while no search runs. It completes. While every partition is STOPPED: the
milestone counter has risen by 1, wrapping at 2^48; Route time has gone on to the milestone's time of R29, where that lies ahead; every partition keeps its
state; every edge port that is connected to its sector shows the milestone, with the state and the last outcome of its partition (log entry 133 for one that closed no
beat); a period change that is armed for it, or for a milestone that has passed, is in force
with the base at this milestone and is no longer armed; and an epoch that is armed so is the device's epoch. Where one
partition alone is not STOPPED, and is ARMED or RUNNING, no tile holding an unrecorded stream fault: it becomes what `partMs` makes of it, in its state, step, counts, status and append pointers. Where its beat is open, and it rests in no rung and in no trial:
its beat closes; of the beat's tiles as they are sampled, the outcome is that of R39 by its fault line, its late tiles and its gap; the status, step and counts are
those of that outcome (`outcomeCount`); after a FAULT it is FROZEN; and after a COMMIT the append regions of each of its tiles that was
at rest have advanced (`appendAdvance`), and without a STOP, a reset or a rung that was asked for it goes on RUNNING. -/
def Obligations.MilestoneCountsAndAdopts : Prop :=
  ∀ (s : State) (e : MsEnv), s.timeRuns = true → s.bit Reg.TIME_MS_CTRL 0 = true → s.search = [] →
    (∀ k, (s.tile k).se.aborts = []) → ∃ t, exec (.milestone e) s = .next t ∧
    ((∀ p ∈ s.partList, p < 16 ∧ s.pstate p = psStopped) → t.msCount = (s.msCount + 1) % 2 ^ 48 ∧
      t.time = (s.timeTo (s.msTime ((s.msCount + 1) % 2 ^ 48) * 2 ^ 16)).time ∧
      (∀ p ∈ s.partList, t.pstate p = psStopped) ∧
      (∀ c p q, s.edgeConnected c = true → s.edgeOwner c = some p → s.part p = some q →
        Output.edgeMilestone c q.shown psStopped ∈ t.out) ∧
      (s.armDue Reg.TIME_MS_CHANGE_LO Reg.TIME_MS_CHANGE_HI ((s.msCount + 1) % 2 ^ 48) = true →
        t.rd Reg.TIME_MS_PERIOD = s.rd Reg.TIME_MS_PERIOD_NEXT ∧ t.bit Reg.TIME_MS_CHANGE_HI 31 = false ∧
        t.rd2 Reg.TIME_MS_BASE_N_LO Reg.TIME_MS_BASE_N_HI = (s.msCount + 1) % 2 ^ 48) ∧
      (s.bit Reg.TPL_EPOCH_NEXT 31 = true →
        msAhead (s.rd2 Reg.TPL_EPOCH_AT_LO Reg.TPL_EPOCH_AT_HI % 2 ^ 48) ((s.msCount + 1) % 2 ^ 48) = false →
        t.fld Reg.TPL_EPOCH 0 16 = s.fld Reg.TPL_EPOCH_NEXT 0 16 ∧ t.bit Reg.TPL_EPOCH_NEXT 31 = false)) ∧
    (∀ p q, p < 16 → s.part p = some q → s.partList.Nodup → (s.pstate p = psArmed ∨ s.pstate p = psRunning) →
      (∀ r ∈ s.partList, r ≠ p → r < 16 ∧ s.pstate r = psStopped) →
      (let u := s.countMs.partMs e s.countMs.msCount p
       t.pstate p = u.pstate p ∧ t.step48 p = u.step48 p ∧ t.rd (Reg.PART_BEAT_STATUS p) = u.rd (Reg.PART_BEAT_STATUS p) ∧
       t.rd (Reg.PART_COMMIT_COUNT p) = u.rd (Reg.PART_COMMIT_COUNT p) ∧ t.rd (Reg.PART_SLIP_COUNT p) = u.rd (Reg.PART_SLIP_COUNT p) ∧
       t.rd (Reg.PART_GAP_COUNT p) = u.rd (Reg.PART_GAP_COUNT p) ∧
       ∀ k i, k < 128 → i < 128 → t.rd (Reg.SEQ_APP_PTR k i) = u.rd (Reg.SEQ_APP_PTR k i)) ∧
      (s.pstate p = psRunning → q.beatOpen = true → q.rung = 0 → q.trial = none →
        let v := (s.beatTiles p).foldl (fun (v : State) k => v.sampleTile e k) s.countMs
        let o := outcomeOf ((v.part p).any Part.fault) ((s.beatTiles p).any (fun k => !(v.tile k).done)) ((v.part p).any Part.gapAbort)
        let c := v.outcomeCount p o
        (t.part p).any (fun y => !y.beatOpen) = true ∧ t.step48 p = c.step48 p ∧
        t.fld (Reg.PART_BEAT_STATUS p) 4 2 = o ∧ t.fld (Reg.PART_BEAT_STATUS p) 8 8 = c.fld (Reg.PART_BEAT_STATUS p) 8 8 ∧
        t.attempt p = c.attempt p ∧ t.rd (Reg.PART_COMMIT_COUNT p) = c.rd (Reg.PART_COMMIT_COUNT p) ∧
        t.rd (Reg.PART_SLIP_COUNT p) = c.rd (Reg.PART_SLIP_COUNT p) ∧ t.rd (Reg.PART_GAP_COUNT p) = c.rd (Reg.PART_GAP_COUNT p) ∧
        (o = 3 → t.pstate p = psFrozen) ∧
        (o = 0 → ∀ k i, k < 128 → i < 128 → k ∈ v.partTiles p → (v.tile k).evs = [] → (v.tile k).flights = [] →
          (v.tile k).mvu.ops = [] → (v.tile k).arr0.mmas = [] → (v.tile k).arr1.mmas = [] →
          t.rd (Reg.SEQ_APP_PTR k i) = (v.appendAdvance k i).rd (Reg.SEQ_APP_PTR k i)) ∧
        (o = 0 → (∀ k ∈ s.partTiles p, (v.tile k).tc.power = false) →
          (v.part p).any (fun y => y.resetReq.isSome) = false →
          s.armDue (Reg.PART_STOP_AT_LO p) (Reg.PART_STOP_AT_HI p) ((s.msCount + 1) % 2 ^ 48) = false → t.pstate p = psRunning)))

/-- For a partition that is RUNNING, in no rung and without an open beat, BEAT_START completes: the partition's beat is open, its
opening milestone is the current one, and the variant of R35 is the first of those it has run; and, where the partition holds no
channel, every enabled tile of it stands at handshake 0 at the first entry of that variant, neither stopped nor done, with its
milestone, step and attempt shown. -/
def Obligations.BeatOpensAtHandshakeZero : Prop :=
  ∀ (s : State) (p : Nat) (q : Part), p < 16 → s.part p = some q → s.pstate p = psRunning → q.rung = 0 → q.beatOpen = false →
    ∃ t y, exec (.beatStart p) s = .next t ∧ t.part p = some y ∧ y.beatOpen = true ∧ y.openMs = s.msCount ∧
      y.variants.head? = some (s.partVariant p) ∧
      (s.partChans p = [] → ∀ k ∈ s.beatTiles p, (t.tile k).nextHs = 0 ∧ (t.tile k).stopped = false ∧ (t.tile k).done = false ∧
        (t.tile k).nextK = s.fld (Reg.SEQ_VAR k (s.partVariant p)) 0 12 ∧ t.hs k = 0 ∧
        t.rd2 (Reg.SEQ_BEAT_MS_LO k) (Reg.SEQ_BEAT_MS_HI k) = s.msCount ∧
        t.rd2 (Reg.SEQ_STEP_LO k) (Reg.SEQ_STEP_HI k) = s.step48 p ∧
        t.rd (Reg.SEQ_ATTEMPT k) = BitVec.ofNat 32 (s.attempt p))

/-- A fault decides the outcome FAULT (3) whatever else holds; without one, a late tile gives SLIP (1); without either, a gap gives
GAP (2); with none, COMMIT (0). The outcome is shown in `PART_BEAT_STATUS`. A COMMIT raises the step by 1, wrapping at 2^48, and the
commit count, and clears `consec_slips` and the attempt; a SLIP leaves the step, raises the slip count and, up to 255,
`consec_slips` and the attempt; a GAP leaves the step and `consec_slips` and raises the gap count and, up to 255, the attempt; a FAULT leaves all of them. No
register outside the partition's status, step and three counts changes. -/
def Obligations.OutcomesCountAsTheyShould : Prop :=
  (∀ late gap, outcomeOf true late gap = 3) ∧ (∀ gap, outcomeOf false true gap = 1) ∧ outcomeOf false false true = 2 ∧
  outcomeOf false false false = 0 ∧
  ∀ (s : State) (p o : Nat), p < 16 → o < 4 →
    let t := s.outcomeCount p o
    t.fld (Reg.PART_BEAT_STATUS p) 4 2 = o ∧ t.pstate p = s.pstate p ∧
    t.step48 p = (if o = 0 then (s.step48 p + 1) % 2 ^ 48 else s.step48 p) ∧
    t.rd (Reg.PART_COMMIT_COUNT p) = s.rd (Reg.PART_COMMIT_COUNT p) + (if o = 0 then 1 else 0) ∧
    t.rd (Reg.PART_SLIP_COUNT p) = s.rd (Reg.PART_SLIP_COUNT p) + (if o = 1 then 1 else 0) ∧
    t.rd (Reg.PART_GAP_COUNT p) = s.rd (Reg.PART_GAP_COUNT p) + (if o = 2 then 1 else 0) ∧
    t.fld (Reg.PART_BEAT_STATUS p) 8 8 = (if o = 0 then 0 else if o = 1 then min 255 (s.fld (Reg.PART_BEAT_STATUS p) 8 8 + 1)
      else s.fld (Reg.PART_BEAT_STATUS p) 8 8) ∧
    t.attempt p = (if o = 0 then 0 else if o = 3 then s.attempt p else min 255 (s.attempt p + 1)) ∧
    RegsSameBut s t [Reg.PART_BEAT_STATUS p, Reg.PART_STEP_LO p, Reg.PART_STEP_HI p, Reg.PART_COMMIT_COUNT p,
      Reg.PART_SLIP_COUNT p, Reg.PART_GAP_COUNT p]

/-- For every region of every tile: where it is enabled and pending, the pointer advances by `step`; when it would reach or pass
`limit` it becomes base plus the overshoot and `wrapped` is set, so that, where the step is less than the length of the region and
the pointer lay below the limit, the pointer is below the limit afterwards. Otherwise nothing changes. No other register changes.
Clearing a tile's requests at a milestone leaves no region of the tile pending and no other bit changed. -/
def Obligations.AppendRegionsAdvance : Prop :=
  ∀ (s : State) (t i : Nat), t < 128 → i < 128 →
    let c := s.rd (Reg.SEQ_APP_CTRL t i)
    let q := s.fld (Reg.SEQ_APP_PTR t i) 0 23 + c.field 0 16
    let base := s.fld (Reg.SEQ_APP_BASE t i) 0 23
    let limit := s.fld (Reg.SEQ_APP_LIMIT t i) 0 23
    let u := s.appendAdvance t i
    (c.bit 30 = true → c.bit 31 = true → q < limit → u.fld (Reg.SEQ_APP_PTR t i) 0 23 = q ∧ u.rd (Reg.SEQ_APP_CTRL t i) = c) ∧
    (c.bit 30 = true → c.bit 31 = true → limit ≤ q → base + (q - limit) < 2 ^ 23 →
      u.fld (Reg.SEQ_APP_PTR t i) 0 23 = base + (q - limit) ∧ u.bit (Reg.SEQ_APP_CTRL t i) 29 = true) ∧
    (c.bit 30 = true → c.bit 31 = true → c.field 0 16 < limit - base → s.fld (Reg.SEQ_APP_PTR t i) 0 23 < limit →
      u.fld (Reg.SEQ_APP_PTR t i) 0 23 < limit) ∧
    (c.bit 30 = false ∨ c.bit 31 = false → u = s) ∧
    RegsSameBut s u [Reg.SEQ_APP_PTR t i, Reg.SEQ_APP_CTRL t i] ∧
    (s.clearPending (fun k => k == t)).bit (Reg.SEQ_APP_CTRL t i) 31 = false ∧
    (∀ b, b < 31 → (s.clearPending (fun k => k == t)).bit (Reg.SEQ_APP_CTRL t i) b = s.bit (Reg.SEQ_APP_CTRL t i) b)

/-- At a milestone, where no tile of the partition holds a stream fault that waits to be recorded: an ARMED partition without a fault whose START is due becomes RUNNING, its START is no longer armed, and its slip
and attempt counts are 0; an ARMED partition with a fault freezes with its recovery at step 2; a RUNNING partition in no rung and
without an open beat, without a fault, a trial or a reset that waits, whose STOP is due becomes STOPPED; and a STOPPED partition
stays as it is, whatever is armed. -/
def Obligations.TransitionsHappenAtMilestones : Prop :=
  ∀ (s : State) (e : MsEnv) (n p : Nat) (q : Part), p < 16 → s.part p = some q → (∀ t ∈ s.partTiles p, (s.tile t).se.aborts = []) →
    (s.pstate p = psArmed → q.fault = false → s.armDue (Reg.PART_START_AT_LO p) (Reg.PART_START_AT_HI p) n = true →
      (s.partMs e n p).pstate p = psRunning ∧ (s.partMs e n p).bit (Reg.PART_START_AT_HI p) 31 = false ∧
      (s.partMs e n p).fld (Reg.PART_BEAT_STATUS p) 8 8 = 0 ∧ (s.partMs e n p).fld (Reg.PART_BEAT_STATUS p) 16 8 = 0) ∧
    (s.pstate p = psArmed → q.fault = true → (s.partMs e n p).pstate p = psFrozen ∧
      ∃ y, (s.partMs e n p).part p = some y ∧ y.recov.step = 2 ∧ y.fault = false) ∧
    (s.pstate p = psRunning → q.rung = 0 → q.beatOpen = false → q.trial = none → q.fault = false → q.resetReq = none →
      s.armDue (Reg.PART_STOP_AT_LO p) (Reg.PART_STOP_AT_HI p) n = true → (s.partMs e n p).pstate p = psStopped ∧
      (s.partMs e n p).bit (Reg.PART_STOP_AT_HI p) 31 = false) ∧
    (s.pstate p = psStopped → s.partMs e n p = s)
/-- For every command that is an itinerary entry, of each of the 43 kinds, with every operand at every value its fields admit: the
command has a 128-bit word, no other command has one, and the word decodes, at some tile, to the same command with the same operands, the upsets that its reads meet left
aside, which no bit spells. -/
def Obligations.EntryDecodeOfEncode : Prop :=
  ∀ i : Instr, (encodeEntry i).isSome = isEntry i ∧ ∀ w, encodeEntry i = some w → ∃ t, decodeEntry t w = some (bare i)

/-- For every command that is a tile-core instruction, with its two parallel moves and every operand at every value its fields
admit: the command has a 64-bit word, no other command has one, and the word decodes, at some tile, to the same instruction with the same operands. -/
def Obligations.TcDecodeOfEncode : Prop :=
  ∀ i : Instr, (encodeTc i).isSome = isTc i ∧ ∀ w, encodeTc i = some w → ∃ t, decodeTc t w = some i

/-- On a quiet tile the entry issues in its slot and completes, with nothing but registers and the tile's record changed. NOP holds
the sequencer for repeat + 1 handshakes and changes no register beside those that follow every issue. APPADV sets `pending` of its
region and of the next `repeat`, modulo 128, and nothing else. TCGO of a halted tile core sets `TC_PC`, makes it run and lets it
issue from the next handshake on; of one that has not halted it is a clash, ENGINE_BUSY, and the tile core stays as it is. TCEV
sets its event bit, unless the tile core waits for that event: then the tile core goes on and the bit stays. END ends the walk: no
overrun falls due, `SEQ_STATUS` [18] is set and [16] clear. -/
def Obligations.ControlEntriesIssue : Prop :=
  ∀ (s : State) (t : Nat), Quiet s t →
    (∀ rep : BitVec 10, ∃ u, exec (.nop t rep) s = .next u ∧ Issued s u t (rep.toNat + 1) ∧ OnlyTile s u t ∧
      RegsSameBut s u (issueRegs t)) ∧
    (∀ (rep : BitVec 10) (region : BitVec 7), ∃ u, exec (.appadv t rep region) s = .next u ∧ Issued s u t 1 ∧ OnlyTile s u t ∧
      RegsSameBut s u (issueRegs t ++ (List.range 128).map (Reg.SEQ_APP_CTRL t)) ∧
      (∀ i, i ≤ rep.toNat → u.bit (Reg.SEQ_APP_CTRL t ((region.toNat + i) % 128)) 31 = true) ∧
      (∀ r, r < 128 → (∀ i, i ≤ rep.toNat → (region.toNat + i) % 128 ≠ r) →
        u.rd (Reg.SEQ_APP_CTRL t r) = s.rd (Reg.SEQ_APP_CTRL t r)) ∧
      (∀ r b, r < 128 → b < 31 → u.bit (Reg.SEQ_APP_CTRL t r) b = s.bit (Reg.SEQ_APP_CTRL t r) b)) ∧
    (∀ pc : BitVec 13, s.tcHalted t = true → ∃ u, exec (.tcgo t pc) s = .next u ∧ Issued s u t 1 ∧ OnlyTile s u t ∧
      RegsSameBut s u (issueRegs t ++ [Reg.TC_PC t, Reg.TC_STATUS t]) ∧ u.rd (Reg.TC_PC t) = pc.setWidth 32 ∧
      u.fld (Reg.TC_STATUS t) 0 2 = 1 ∧ (u.tile t).tc = { (s.tile t).tc with
        next := slotOf s t + 1, waitSem := none, waitEvent := none, startEntry := (s.tile t).nextK, power := false }) ∧
    (∀ pc : BitVec 13, s.tcHalted t = false → (s.tile t).tc.startEntry < 4096 → ∃ u, exec (.tcgo t pc) s = .next u ∧
      Issued s u t 1 ∧ Clashed s u t 1 (s.tile t).tc.startEntry (s.tile t).nextK (slotOf s t) ∧ BytesSame s u ∧
      (u.tile t).tc = (s.tile t).tc ∧ u.rd (Reg.TC_PC t) = s.rd (Reg.TC_PC t) ∧ u.rd (Reg.TC_STATUS t) = s.rd (Reg.TC_STATUS t)) ∧
    (∀ e : BitVec 4, (s.tile t).tc.waitEvent ≠ some e.toNat → ∃ u, exec (.tcev t e) s = .next u ∧ Issued s u t 1 ∧ OnlyTile s u t ∧
      RegsSameBut s u (issueRegs t ++ [Reg.TC_EVENT t]) ∧ u.rd (Reg.TC_EVENT t) = (s.rd (Reg.TC_EVENT t)).setBit e.toNat true ∧
      (u.tile t).tc = (s.tile t).tc) ∧
    (∀ e : BitVec 4, (s.tile t).tc.waitEvent = some e.toNat → ∃ u, exec (.tcev t e) s = .next u ∧ Issued s u t 1 ∧ OnlyTile s u t ∧
      RegsSameBut s u (issueRegs t ++ [Reg.TC_STATUS t]) ∧ u.fld (Reg.TC_STATUS t) 0 2 = 1 ∧
      (u.tile t).tc = { (s.tile t).tc with waitEvent := none, next := slotOf s t + 1 }) ∧
    (∃ u, exec (.endEntry t) s = .next u ∧ OnlyTile s u t ∧ RegsSameBut s u (issueRegs t) ∧ u.hs t = slotOf s t ∧
      (u.tile t).endAt = some (slotOf s t) ∧ (u.tile t).overrunAt = none ∧
      u.bit (Reg.SEQ_STATUS t) 18 = true ∧ u.bit (Reg.SEQ_STATUS t) 16 = false)

/-- On a quiet tile the entry issues in its slot and completes. A local SIGNAL changes nothing in its own handshake; by the next one,
on a semaphore that is not Broken, the count has risen by the amount where the capacity admits it, and otherwise it stays and
`SEM_FAULT` shows an overflow of that semaphore. TAKE is the same downward: at the next handshake the count has fallen by the amount,
or, where it is smaller, it stays and `SEM_FAULT` shows an underflow. GATE takes in its own handshake where the count covers the
amount, and the sequencer goes on; where it does not but the capacity would, the sequencer waits and `SEM_CNT` shows the waiter and
what it wants; where the capacity does not, it is an underflow and the tile issues nothing more in the beat. On a Broken semaphore (R167) a
local SIGNAL is discarded, without a fault; a TAKE and a GATE take nothing, the sequencer issues nothing more in the beat (for TAKE log entry 130, the model's choice), and
`SEM_FAULT` shows cause 2. A remote SIGNAL to a
tile of the own partition leaves for it through the tile's router, and waits for its acknowledgement; to another tile nothing
leaves, and the fault line rises. -/
def Obligations.SemaphoreEntriesIssue : Prop :=
  ∀ (s : State) (t : Nat) (k : BitVec 6) (n : BitVec 12), Quiet s t → 0 < n.toNat →
    let c := s.semCount t k.toNat
    let cap := s.semCap t k.toNat
    (∃ u, exec (.signal t k n) s = .next u ∧ Issued s u t 1 ∧ OnlyTile s u t ∧ RegsSameBut s u (issueRegs t) ∧
      (s.semBroken t k.toNat = false → c + n.toNat ≤ cap → (u.advanceTo t (slotOf s t + 1)).semCount t k.toNat = c + n.toNat) ∧
      (s.semBroken t k.toNat = false → cap < c + n.toNat → (u.advanceTo t (slotOf s t + 1)).semCount t k.toNat = c ∧
        (s.bit (Reg.SEM_FAULT t) 0 = false → (u.advanceTo t (slotOf s t + 1)).rd (Reg.SEM_FAULT t) =
          BitVec.ofNat 32 (1 + k.toNat * 2 ^ 8))) ∧
      (s.semBroken t k.toNat = true → (u.advanceTo t (slotOf s t + 1)).semCount t k.toNat = c ∧
        (u.advanceTo t (slotOf s t + 1)).rd (Reg.SEM_FAULT t) = s.rd (Reg.SEM_FAULT t))) ∧
    (∃ u, exec (.take t k n) s = .next u ∧ Issued s u t 1 ∧ OnlyTile s u t ∧ RegsSameBut s u (issueRegs t) ∧
      (s.semBroken t k.toNat = false → n.toNat ≤ c → (u.advanceTo t (slotOf s t + 1)).semCount t k.toNat = c - n.toNat) ∧
      (s.semBroken t k.toNat = false → c < n.toNat → (u.advanceTo t (slotOf s t + 1)).semCount t k.toNat = c ∧
        (s.bit (Reg.SEM_FAULT t) 0 = false → (u.advanceTo t (slotOf s t + 1)).rd (Reg.SEM_FAULT t) =
          BitVec.ofNat 32 (1 + k.toNat * 2 ^ 8 + 2 ^ 16))) ∧
      (s.semBroken t k.toNat = true → let v := u.advanceTo t (slotOf s t + 1)
        v.semCount t k.toNat = c ∧ (v.tile t).stopped = true ∧
        (s.bit (Reg.SEM_FAULT t) 0 = false → v.rd (Reg.SEM_FAULT t) = BitVec.ofNat 32 (1 + k.toNat * 2 ^ 8 + 2 * 2 ^ 16)))) ∧
    (s.semBroken t k.toNat = true → ∃ u, exec (.gate t k n) s = .next u ∧ OnlyTile s u t ∧
      RegsSameBut s u (issueRegs t ++ [Reg.SEM_FAULT t, Reg.SEM_FAULT_ARG t]) ∧ (u.tile t).stopped = true ∧ (u.tile t).gate = none ∧
      u.seqReady t = false ∧
      (s.bit (Reg.SEM_FAULT t) 0 = false → u.rd (Reg.SEM_FAULT t) = BitVec.ofNat 32 (1 + k.toNat * 2 ^ 8 + 2 * 2 ^ 16))) ∧
    (s.semBroken t k.toNat = false → n.toNat ≤ cap → n.toNat ≤ c → ∃ u, exec (.gate t k n) s = .next u ∧ Issued s u t 1 ∧
      OnlyTile s u t ∧ RegsSameBut s u (issueRegs t ++ [Reg.SEM_CNT t k.toNat]) ∧ u.semCount t k.toNat = c - n.toNat ∧
      (u.tile t).gate = none) ∧
    (s.semBroken t k.toNat = false → n.toNat ≤ cap → c < n.toNat → ∃ u, exec (.gate t k n) s = .next u ∧ OnlyTile s u t ∧
      RegsSameBut s u (issueRegs t ++ [Reg.SEM_CNT t k.toNat]) ∧ u.semCount t k.toNat = c ∧
      (u.tile t).gate = some (k.toNat, n.toNat, (s.tile t).nextK) ∧ u.bit (Reg.SEQ_STATUS t) 17 = true ∧
      u.bit (Reg.SEM_CNT t k.toNat) 17 = true ∧ u.fld (Reg.SEM_CNT t k.toNat) 20 12 = n.toNat ∧ u.seqReady t = false) ∧
    (s.semBroken t k.toNat = false → cap < n.toNat → ∃ u, exec (.gate t k n) s = .next u ∧ u.semCount t k.toNat = c ∧
      (u.tile t).stopped = true ∧ BytesSame s u ∧ u.bit (Reg.SEM_FAULT t) 0 = true) ∧
    (∀ (target : BitVec 7) (q : Nat) (x : Part), s.tilePart t = some q → s.part q = some x →
      (x.firstCol ≤ target.toNat / 8 → target.toNat / 8 ≤ x.lastCol → ∃ u p, exec (.signalRemote t k n target) s = .next u ∧
        Issued s u t 1 ∧ RegsSameBut s u (issueRegs t) ∧ BytesSame s u ∧ (u.router t).inject = (s.router t).inject ++ [p] ∧
        p.dst = target ∧ p.dkind = false ∧ p.src.toNat = t ∧ p.type.toNat = ptSignal ∧ p.arg.toNat % 2 ^ 16 = k.toNat ∧
        p.arg.toNat / 2 ^ 16 % 2 ^ 12 = n.toNat ∧
        (u.tile t).remoteOut = (s.tile t).remoteOut ++ [(target.toNat, k.toNat, false)]) ∧
      (¬ (x.firstCol ≤ target.toNat / 8 ∧ target.toNat / 8 ≤ x.lastCol) → ∃ u y, exec (.signalRemote t k n target) s = .next u ∧
        Issued s u t 1 ∧ (u.router t).inject = (s.router t).inject ∧ (u.tile t).remoteOut = (s.tile t).remoteOut ∧
        u.part q = some y ∧ y.fault = true))
/-- On a quiet tile the entry issues in its slot and completes. SWIN claims its slots: every later one of the window, `stride`
handshakes apart, is to come. SCTX acts on the open and paused contexts of its mask and on no other: pause makes them paused, resume
open, but for one whose close waits (log entry 33, the model's choice), and close marks them closing and pauses them. SREL of an
open or paused inbound context lowers `fill` by the rows, or to 0, and then its bit of `SE_REL_OVER` is set; the rows released are
counted where the context holds its releases (that `fill` falls there already: log entry 114, the model's choice), and raise `free` where
it does not. SPUSH of an open or paused outbound context raises
`fill` and lowers `free` by the rows, or by what is free, and then its bit of `SE_REL_OVER` is set. SREL and SPUSH of a context of
the other direction, or one that is closed or aborted, change nothing of it. No byte of memory changes. -/
def Obligations.StreamEntriesIssue : Prop :=
  ∀ (s : State) (t : Nat), Quiet s t →
    (∀ f : SwinFields, f.stride ≠ 0 → ∃ u, exec (.swin t f) s = .next u ∧
      Issued s u t 1 ∧ BytesSame s u ∧ ∀ i, 0 < i → i ≤ f.countM1.toNat →
        (⟨slotOf s t + i * f.stride.toNat, (s.tile t).order, (s.tile t).nextK, .seSlot f.dir f.mask⟩ : TileEv) ∈ (u.tile t).evs) ∧
    (∀ m : BitVec 8, ∃ u, exec (.sctxPause t m) s = .next u ∧ Issued s u t 1 ∧ OnlyTile s u t ∧
      RegsSameBut s u (issueRegs t ++ (List.range 8).map (Reg.SE_CTX_STATUS t)) ∧
      ∀ c, c < 8 → u.ctxState t c = (if m.getLsbD c && s.ctxLive t c then 2 else s.ctxState t c) ∧ u.seCtx t c = s.seCtx t c) ∧
    (∀ m : BitVec 8, ∃ u, exec (.sctxResume t m) s = .next u ∧ Issued s u t 1 ∧ BytesSame s u ∧
      ∀ c, c < 8 → u.ctxState t c = (if m.getLsbD c && s.ctxLive t c && !(s.seCtx t c).closing then 1 else s.ctxState t c)) ∧
    (∀ m : BitVec 8, ∃ u, exec (.sctxClose t m) s = .next u ∧ Issued s u t 1 ∧ OnlyTile s u t ∧
      RegsSameBut s u (issueRegs t ++ (List.range 8).map (Reg.SE_CTX_STATUS t)) ∧
      ∀ c, c < 8 → u.ctxState t c = (if m.getLsbD c && s.ctxLive t c then 2 else s.ctxState t c) ∧
        (u.seCtx t c).closing = ((m.getLsbD c && s.ctxLive t c) || (s.seCtx t c).closing)) ∧
    (∀ (c : BitVec 3) (n : BitVec 13), ∃ u, exec (.srel t c n) s = .next u ∧ Issued s u t 1 ∧ BytesSame s u ∧
      (s.ctxLive t c.toNat = true → s.ctxOut t c.toNat = false → s.ctxFree t c.toNat + s.ctxFill t c.toNat < 8192 →
        u.ctxFill t c.toNat = s.ctxFill t c.toNat - min n.toNat (s.ctxFill t c.toNat) ∧
        (s.ctxFill t c.toNat < n.toNat → u.bit (Reg.SE_REL_OVER t) c.toNat = true) ∧
        (s.ctxHeld t c.toNat = true → u.ctxFree t c.toNat = s.ctxFree t c.toNat ∧
          (u.seCtx t c.toNat).released = (s.seCtx t c.toNat).released + min n.toNat (s.ctxFill t c.toNat)) ∧
        (s.ctxHeld t c.toNat = false → u.ctxFree t c.toNat = s.ctxFree t c.toNat + min n.toNat (s.ctxFill t c.toNat))) ∧
      (s.ctxLive t c.toNat = false ∨ s.ctxOut t c.toNat = true → OnlyTile s u t ∧ RegsSameBut s u (issueRegs t) ∧
        u.seCtx t c.toNat = s.seCtx t c.toNat)) ∧
    (∀ (c : BitVec 3) (n : BitVec 13), ∃ u, exec (.spush t c n) s = .next u ∧ Issued s u t 1 ∧ OnlyTile s u t ∧
      RegsSameBut s u (issueRegs t ++ [Reg.SE_CTX_FILL t c.toNat, Reg.SE_REL_OVER t]) ∧
      (s.ctxLive t c.toNat = true → s.ctxOut t c.toNat = true → s.ctxFree t c.toNat + s.ctxFill t c.toNat < 8192 →
        u.ctxFill t c.toNat = s.ctxFill t c.toNat + min n.toNat (s.ctxFree t c.toNat) ∧
        u.ctxFree t c.toNat = s.ctxFree t c.toNat - min n.toNat (s.ctxFree t c.toNat) ∧
        (s.ctxFree t c.toNat < n.toNat → u.bit (Reg.SE_REL_OVER t) c.toNat = true)) ∧
      (s.ctxLive t c.toNat = false ∨ s.ctxOut t c.toNat = false → RegsSameBut s u (issueRegs t)))

/-- On a quiet tile a legal MMA on an array that accepts it in the slot, into a set that no drain holds when its first product
arrives: it is in progress with its fields and issue handshake, the array accepts the next one S = passes × K ÷ k_h handshakes
later, its accumulation is due S + 72 handshakes after the issue, and with `drain` set so is its capture. Before the array accepts,
it clashes with the entry in progress, ENGINE_BUSY. A DRAIN of a set that no drain holds and into which no MMA is under way captures
in its own handshake: the rows it will write are those of the set's accumulators, and each is due in its slot from D + 33, or from
D + 37 for FP8 output, on. A CLEAR of such a set leaves its 1,024 accumulators zero and its overflow mark clear; of a set that a drain
holds it is a clash, SET_BUSY, and the set stays; the array's record of how far its MMAs have counted follows the handshake. -/
def Obligations.ArrayEntriesIssue : Prop :=
  ∀ (s : State) (t : Nat) (a : BitVec 1),
    let x := (s.tile t).arr a.toNat
    let I := slotOf s t
    let k := (s.tile t).nextK
    let ord := (s.tile t).order
    (∀ (rep : BitVec 10) (f : MmaFields), Quiet s t → f.legal = true → f.inStore rep.toNat = true → x.accept ≤ I → x.holder f.accSet (I + 73) = none →
      ∃ u o, exec (.mma t a rep f) s = .next u ∧ Issued s u t 1 ∧ BytesSame s u ∧ o ∈ ((u.tile t).arr a.toNat).mmas ∧
        o.f = f ∧ o.issue = I ∧ o.entry = k ∧ ((u.tile t).arr a.toNat).accept = I + f.S ∧
        f.S = f.passes.toNat * (f.kLen.toNat + 1) * 32 ∧
        (⟨I + f.S + 72, ord, k, .arrDone a.toNat o.id⟩ : TileEv) ∈ (u.tile t).evs ∧
        (f.drain = true → (⟨I + f.S + 72, ord, k, .capture a.toNat o.id⟩ : TileEv) ∈ (u.tile t).evs) ∧
        (0 < rep.toNat → (⟨I + f.S, ord, k, .arrIssue a.toNat f.next (rep.toNat - 1)⟩ : TileEv) ∈ (u.tile t).evs) ∧
        u.bit (Reg.ARR_STATUS t a.toNat) 0 = true) ∧
    (∀ (rep : BitVec 10) (f : MmaFields) (o : MmaOp), Calm s t → f.legal = true → f.inStore rep.toNat = true → I < x.accept →
      x.mmas.getLast? = some o → o.entry < 4096 → ∃ u, exec (.mma t a rep f) s = .next u ∧ Issued s u t 1 ∧ BytesSame s u ∧
        Clashed s u t 1 o.entry k I ∧ (u.tile t).arr a.toNat = x.ticked I) ∧
    (∀ f : DrainFields, Quiet s t → f.outFmt ≠ 5 → f.outFmt ≠ 6 → f.cRow.toNat + drainRows f.outFmt ≤ 8192 → x.holder f.accSet I = none →
      (∀ o ∈ x.mmas, o.f.accSet ≠ f.accSet) → ∃ u, exec (.drain t a f) s = .next u ∧ Issued s u t 1 ∧ BytesSame s u ∧
        ((u.tile t).arr a.toNat).acc f.accSet = x.acc f.accSet ∧
        (f.outFmt ≠ 7 → (∀ d ∈ x.drains, d.id ≠ ord + 1) → ∃ d, d ∈ ((u.tile t).arr a.toNat).drains ∧ d.f = f ∧ d.at_ = I ∧
          d.rows = drainContents f (x.int f.accSet) (x.acc f.accSet) ∧
          ∀ j, j < drainRows f.outFmt →
            (⟨I + drainFirst f.outFmt + j, ord, k, .drainRow a.toNat d.id j (f.cRow.toNat + j)⟩ : TileEv) ∈ (u.tile t).evs)) ∧
    (∀ set : Bool, Quiet s t → x.holder set I = none → (∀ o ∈ x.mmas, o.f.accSet ≠ set) → ∃ u, exec (.clear t a set) s = .next u ∧
      Issued s u t 1 ∧ OnlyTile s u t ∧ RegsSameBut s u (issueRegs t) ∧
      (∀ i, (((u.tile t).arr a.toNat).acc set).getD i 0 = 0) ∧ ((u.tile t).arr a.toNat).ovf set = false ∧
      ((u.tile t).arr a.toNat).acc (!set) = x.acc (!set)) ∧
    (∀ (set : Bool) (d : DrainOp), Calm s t → x.holder set I = some d → d.entry < 4096 → ∃ u, exec (.clear t a set) s = .next u ∧
      Issued s u t 1 ∧ Clashed s u t 2 d.entry k I ∧ (u.tile t).arr a.toNat = x.ticked I ∧ BytesSame s u)

/-- A tile whose next event is the end of an MMA's accumulation, with no write on its way, no MVU operation, no stream fault to record
and every other event later: MMA_COMPLETE brings the tile to that handshake, the MMA is no longer in progress, its set holds what the set held with every
product of the MMA added, and `ARRn_OP_COUNT` has risen by 1. A tile whose next event is the capture of a drain that writes rows:
DRAIN_CAPTURE brings the tile to that handshake, and the drain holds the rows of its set; the set itself stays. With no such event
coming either command changes nothing. -/
def Obligations.ArrayEventsTakePlace : Prop :=
  ∀ (s : State) (t : Nat) (a : BitVec 1), t < 128 →
    (∀ (h ord k op : Nat) (rest : List TileEv) (o : MmaOp), (s.tile t).evs = ⟨h, ord, k, .arrDone a.toNat op⟩ :: rest →
      (∀ e ∈ rest, h < e.slot) → s.hs t ≤ h → h < 2 ^ 20 → (s.tile t).flights = [] → (s.tile t).mvu.ops = [] → (s.tile t).se.aborts = [] →
      ((s.tile t).arr a.toNat).findMma op = some o → ∃ u, exec (.mmaComplete t a) s = .next u ∧ u.hs t = h ∧
        ((u.tile t).arr a.toNat).findMma op = none ∧
        ((u.tile t).arr a.toNat).acc o.f.accSet = (((s.tile t).arr a.toNat).accumulate o o.f.S).acc o.f.accSet ∧
        u.rd (Reg.ARR_OP_COUNT t a.toNat) = s.rd (Reg.ARR_OP_COUNT t a.toNat) + 1 ∧ OnlyTile s u t) ∧
    (∀ (h ord k op : Nat) (rest : List TileEv) (d : DrainOp), (s.tile t).evs = ⟨h, ord, k, .capture a.toNat op⟩ :: rest →
      (∀ e ∈ rest, h < e.slot) → s.hs t ≤ h → h < 2 ^ 20 → (s.tile t).flights = [] → (s.tile t).mvu.ops = [] → (s.tile t).se.aborts = [] →
      ((s.tile t).arr a.toNat).findDrain op = some d → drainRows d.f.outFmt ≠ 0 → ∃ u y, exec (.drainCapture t a) s = .next u ∧
        u.hs t = h ∧ ((u.tile t).arr a.toNat).findDrain op = some y ∧
        y = { d with rows := drainContents d.f (((s.tile t).arr a.toNat).int d.f.accSet) (((s.tile t).arr a.toNat).acc d.f.accSet) } ∧
        (∀ set, ((u.tile t).arr a.toNat).acc set = ((s.tile t).arr a.toNat).acc set) ∧ BytesSame s u) ∧
    ((s.tile t).evs = [] → exec (.mmaComplete t a) s = .next s ∧ exec (.drainCapture t a) s = .next s)

/-- On a quiet tile whose MVU accepts an entry in the slot a legal entry starts its operation and completes. An MVM without scales
streams its weight rows, each against every vector of the batch, so that the MVU accepts again `rows` × `batch` handshakes later, and
later still where scale rows are read. A VLOAD takes a handshake a row, and more where scale rows are read. An MDRAIN captures the
accumulators in its own handshake, and each of its rows is due in its slot, two handshakes after the issue and on; the accumulators
stay. Before the MVU accepts, an entry clashes with the one that streams, ENGINE_BUSY, and changes nothing of the MVU. -/
def Obligations.MvuEntriesIssue : Prop :=
  ∀ (s : State) (t : Nat),
    let m := (s.tile t).mvu
    let I := slotOf s t
    let k := (s.tile t).nextK
    (Quiet s t → m.accept ≤ I →
      (∀ (f : MvmFields) (soft : List SoftErr), f.legal = true → ∃ u o extra, exec (.mvm t f soft) s = .next u ∧ Issued s u t 1 ∧
        BytesSame s u ∧ o ∈ (u.tile t).mvu.ops ∧ o.kind = .mvm f ∧ o.entry = k ∧
        (u.tile t).mvu.accept = I + (f.rows.toNat + 1) * (f.batch.toNat + 1) + extra ∧ (f.scale = 0 → extra = 0) ∧
        o.done = (u.tile t).mvu.accept + 12 ∧ (u.tile t).mvu.acc = m.acc ∧ u.bit (Reg.MVU_STATUS t) 0 = true) ∧
      (∀ f : VloadFields, f.legal = true → ∃ u o extra, exec (.vload t f) s = .next u ∧ Issued s u t 1 ∧ BytesSame s u ∧
        o ∈ (u.tile t).mvu.ops ∧ o.kind = .vload f ∧ o.entry = k ∧
        (u.tile t).mvu.accept = I + (f.rows.toNat + 1) + extra ∧ (f.scale = 0 → extra = 0) ∧
        o.done = (u.tile t).mvu.accept + 7 ∧ (u.tile t).mvu.vrf = m.vrf ∧ u.bit (Reg.MVU_STATUS t) 0 = true) ∧
      (∀ f : MdrainFields, f.legal = true → ∃ u o, exec (.mdrain t f) s = .next u ∧
        Issued s u t 1 ∧ BytesSame s u ∧ (u.tile t).mvu.ops = [o] ∧ o.kind = .mdrain f ∧ (u.tile t).mvu.acc = m.acc ∧
        (∀ j, j ≤ f.rows.toNat → SMap.get o.rows 0 j = (mdrainContents f m).getD j 0 ∧
          (⟨I + 2 + j, (s.tile t).order, k, .mdrainRow o.id j (f.cRow.toNat + j)⟩ : TileEv) ∈ (u.tile t).evs) ∧
        u.fld (Reg.MVU_STATUS t) 0 2 = 3)) ∧
    (Calm s t → I < m.accept → ∀ (c : Instr) (o : MvuOp), m.ops.getLast? = some o → o.entry < 4096 →
      ((∃ f soft, c = .mvm t f soft ∧ MvmFields.legal f = true) ∨ (∃ f, c = .vload t f ∧ VloadFields.legal f = true) ∨
        (∃ f, c = .mdrain t f ∧ MdrainFields.legal f = true)) → ∃ u, exec c s = .next u ∧ Issued s u t 1 ∧ BytesSame s u ∧
        Clashed s u t 1 o.entry k I ∧ (u.tile t).mvu = m)
/-- Of an entry whose operand values R74 admits. On a quiet tile whose VEU accepts it in its slot it completes: the VEU accepts again
4 × (repeat + 1) handshakes later. One that computes (VADD, VMUL, VFMA,
VCMP, VSEL, VMAX, VMIN, VEXP2, VLOG2, VRCP, VRSQ, VEXPS, VRMAXI, VRMINI, VRSUM, VRSSQ, VCVT, VQNT, VDQNT, VBCAST: each entry of
`veuOps` completes) has written its result registers, as `veuResult` of the registers before, and
added its flags to the sticky ones; every re-issue is to come, 4 handshakes apart, and nothing but registers and the tile changes.
VLD, where no word is upset and no wide access has taken the slot, has the 1,024 bytes of its row of the store in `vd`; VST has the
bytes of `va` on their way, so that 7 handshakes later they stand in the store at its row and every other byte of the store reads as
before. Before the VEU accepts, whatever else is to come, every VEU entry clashes with the one in progress, ENGINE_BUSY, and the
register file stays. -/
def Obligations.VeuEntriesIssue : Prop :=
  ∀ (s : State) (t : Nat) (rep : BitVec 10) (f : VeuFields),
    let v := (s.tile t).veu.v
    let I := slotOf s t
    let k := (s.tile t).nextK
    let base := s.storeBase t + f.row.toNat * 1024
    (Quiet s t → (s.tile t).veu.accept ≤ I → ∀ op c, (op, c) ∈ veuOps t rep f → veuLegal op f = true → ∃ u, exec c s = .next u ∧
      Issued s u t 1 ∧ OnlyTile s u t ∧ RegsSameBut s u (issueRegs t ++ [Reg.VEU_FLAGS t]) ∧
      (u.tile t).veu.v = (veuResult op f v).1.foldl (fun (m : SMap Row) p => SMap.set m p.1 p.2) v ∧
      u.rd (Reg.VEU_FLAGS t) = s.rd (Reg.VEU_FLAGS t) ||| BitVec.ofNat 32 (veuResult op f v).2 ∧
      (u.tile t).veu.accept = I + 4 * (rep.toNat + 1) ∧ u.rd (Reg.VEU_STATUS t) = 1 ∧
      ∀ i, 0 < i → i ≤ rep.toNat →
        (⟨I + 4 * i, (s.tile t).order, k, .veu op { f with row := f.row + BitVec.ofNat 13 i }⟩ : TileEv) ∈ (u.tile t).evs) ∧
    (Quiet s t → (s.tile t).veu.accept ≤ I → f.fmt.toNat ≤ 2 → f.row.toNat + rep.toNat < 8192 →
      (∀ soft, ∃ u, exec (.vld t rep f soft) s = .next u ∧ Issued s u t 1 ∧ BytesSame s u ∧
        (u.tile t).veu.accept = I + 4 * (rep.toNat + 1) ∧
        (soft = [] → s.upsets = [] → (∀ e, (s.tile t).lastWide ≠ some (I, e)) → OnlyTile s { u with free := s.free } t ∧
          RegsSameBut s u (issueRegs t) ∧
          (∀ i, i < 1024 → Row.byte (SMap.get (u.tile t).veu.v 0 f.vd.toNat) i = (s.store.read (base + i)).toNat) ∧
          ∀ r, r ≠ f.vd.toNat → SMap.get (u.tile t).veu.v 0 r = SMap.get v 0 r)) ∧
      (∃ u, exec (.vst t rep f) s = .next u ∧ Issued s u t 1 ∧ BytesSame s u ∧ (u.tile t).veu.v = v ∧
        (u.tile t).veu.accept = I + 4 * (rep.toNat + 1) ∧
        (rep = 0 → (∀ e, (s.tile t).lastWide ≠ some (I, e)) →
          (∀ i, i < 1024 → ((u.advanceTo t (I + 7)).store.read (base + i)).toNat = Row.byte (SMap.get v 0 f.va.toNat) i) ∧
          ∀ b, (b < base ∨ base + 1024 ≤ b) → (u.advanceTo t (I + 7)).store.read b = s.store.read b))) ∧
    (Calm s t → I < (s.tile t).veu.accept → (s.tile t).veu.entry < 4096 → ∀ c,
      ((∃ op, (op, c) ∈ veuOps t rep f ∧ veuLegal op f = true) ∨ (f.fmt.toNat ≤ 2 ∧ f.row.toNat + rep.toNat < 8192 ∧
        ((∃ soft, c = .vld t rep f soft) ∨ c = .vst t rep f))) →
      ∃ u, exec c s = .next u ∧ Issued s u t 1 ∧ BytesSame s u ∧ Clashed s u t 1 (s.tile t).veu.entry k I ∧
        (u.tile t).veu = (s.tile t).veu)

/-- For every VEU operation of an element format FP32, BF16 or FP16, on the 256 or 512 elements of its registers: VADD, VMUL and VFMA
put into each element the code of the sum, product or fused sum of the elements' values; VSEL takes the element of va, and that of vb
where the element of vc is zero; VCMP puts 1.0 where its comparison holds and 0 elsewhere; VBCAST puts the converted immediate into
every element; and each writes vd and nothing else, VSEL, VCMP and VBCAST raising no flag. That VSEL copies the codes of NaNs, and that VSEL and
VBCAST raise no flag, is log entry 128, the model's choice. -/
def Obligations.VeuResultsByElement : Prop :=
  ∀ (f : VeuFields) (v : SMap Row), f.fmt.toNat ≤ 2 →
    let F := veuFmt f.fmt.toNat
    let w := veuW f.fmt.toNat
    let n := veuN f.fmt.toNat
    let el (r : BitVec 4) (i : Nat) : Nat := (Row.elems (SMap.get v 0 r.toNat) w n).getD i 0
    let res (op i : Nat) : Nat := ((veuResult op f v).1.map (fun p => (Row.elems p.2 w n).getD i 0)).getD 0 0
    (∀ op, op ∈ [veAdd, veMul, veFma, veSel, veCmp, veBcast] → (veuResult op f v).1.map (fun p => p.1) = [f.vd.toNat]) ∧
    (∀ i, i < n →
      res veAdd i = (F.addV (F.decode (el f.va i)) (F.decode (el f.vb i))).code % 2 ^ (8 * w) ∧
      res veMul i = (F.mulV (F.decode (el f.va i)) (F.decode (el f.vb i))).code % 2 ^ (8 * w) ∧
      res veFma i = (F.fmaV (F.decode (el f.va i)) (F.decode (el f.vb i)) (F.decode (el f.vc i))).code % 2 ^ (8 * w) ∧
      res veSel i = (if (F.decode (el f.vc i)).isZero then el f.vb i else el f.va i) ∧
      res veCmp i = (if veuCmp F f.mode.toNat (el f.va i) (el f.vb i) then F.bias * 2 ^ F.mb else 0) % 2 ^ (8 * w) ∧
      res veBcast i = (F.ofV false (Fmt.fp32.decode f.imm.toNat)).code % 2 ^ (8 * w)) ∧
    (veuResult veSel f v).2 = 0 ∧ (veuResult veCmp f v).2 = 0 ∧ (veuResult veBcast f v).2 = 0

/-- The spec calls an array, MVU, VEU or stream entry with reserved or impossible operand values unpredictable within its partition:
an MMA with an undefined format pair, scale, pass count or output format or with rows outside the store; a DRAIN with output format
5 or 6; an MVM of 4-bit activations; a VLOAD or MDRAIN past its register file; a VEU entry with an element format above 2, 4 for
VQNT and VDQNT; an SWIN with stride 0. Each stops under its rule's number, in every state. -/
def Obligations.ImpossibleOperandsStop : Prop :=
  ∀ (s : State) (t : Nat),
    (∀ (a : BitVec 1) (rep : BitVec 10) (f : MmaFields), (f.legal && f.inStore rep.toNat) = false →
      exec (.mma t a rep f) s = .fault (.unpredictableInPartition 62)) ∧
    (∀ f : MmaFields, f.scale = 3 ∨ f.passes = 0 ∨ f.outFmt = 5 ∨ f.outFmt = 6 ∨ f.fmtA = 6 ∨ f.fmtA = 7 ∨
      (f.fmtA = 0 ∧ f.fmtB = 3) ∨ (f.fmtA = 5 ∧ f.scale = 0) ∨ (f.fmtA = 0 ∧ f.passes ≠ 1) → f.legal = false) ∧
    (∀ (a : BitVec 1) (f : DrainFields), f.outFmt = 5 ∨ f.outFmt = 6 ∨ 8192 < f.cRow.toNat + drainRows f.outFmt →
      exec (.drain t a f) s = .fault (.unpredictableInPartition 62)) ∧
    (∀ (f : MvmFields) (soft : List SoftErr), f.legal = false → exec (.mvm t f soft) s = .fault (.unpredictableInPartition 72)) ∧
    (∀ f : MvmFields, f.wFmt = 5 ∨ f.vFmt = 2 ∨ f.vFmt = 4 ∨ f.scale = 3 ∨ (f.batch ≠ 0 ∧ 128 ≤ f.vOff.toNat) → f.legal = false) ∧
    (∀ f : VloadFields, f.scale = 3 ∨ 16384 < f.vOff.toNat * 32 + (f.rows.toNat + 1) * 1024 →
      exec (.vload t f) s = .fault (.unpredictableInPartition 72)) ∧
    (∀ f : MdrainFields, 1024 < f.accBase.toNat + (f.rows.toNat + 1) * (if f.bf16 then 512 else 256) →
      exec (.mdrain t f) s = .fault (.unpredictableInPartition 72)) ∧
    (∀ (rep : BitVec 10) (f : VeuFields) (op : Nat) (c : Instr), (op, c) ∈ veuOps t rep f →
      (if op = 0x14 ∨ op = 0x15 then 4 < f.fmt.toNat ∨ 1 < f.mode.toNat else 2 < f.fmt.toNat) →
      exec c s = .fault (.unpredictableInPartition 74)) ∧
    (∀ f : SwinFields, f.stride = 0 → exec (.swin t f) s = .fault (.unpredictableInPartition 118))

/-- An overrun that falls due at a handshake stops the tile's issue and, while the firmware runs and the log has room, is recorded,
ITIN_OVERRUN, 0x0102; with none due nothing happens. A tile at a GATE whose work is over and whose tile core is halted or waits parks:
bit 2 of `SEQ_BEAT_STATUS` is set, and with nothing under way nothing else changes. A tile whose END has issued, whose tile core has
halted and whose remote signals are all acknowledged is done: bit 0 of `SEQ_BEAT_STATUS` is set; with nothing under way nothing else
changes, and while a remote signal is not acknowledged nothing happens at all. A GATE whose semaphore, not Broken, covers its amount
takes it at the next handshake, the sequencer goes on at the one after, and the tile is no longer parked; a WAIT likewise, and
the tile core runs on. A GATE or WAIT whose semaphore is Broken takes nothing, and
the sequencer or the tile core issues nothing more in the beat; every outbound context with a row that waits for its credit aborts (R167). -/
def Obligations.SequencerEventsTakePlace : Prop :=
  ∀ (s : State) (t : Nat), t < 128 →
    ((s.tile t).overrunAt = none → exec (.itinOverrun t) s = .next s) ∧
    (∀ h, (s.tile t).overrunAt = some h → ∃ u, exec (.itinOverrun t) s = .next u ∧ (u.tile t).stopped = true ∧
      (u.tile t).overrunAt = none ∧ ((s.tile t).evs = [] → (s.tile t).se.aborts = [] → s.fwLost = false → s.log.length < 4096 → ∃ r, u.log = s.log ++ [r] ∧
        r.code = 0x0102 ∧ r.sev = sevPartition ∧ r.cls = 0 ∧ r.idx = t ∧ r.part = s.tilePart t)) ∧
    ((s.tile t).gate.isSome = true → s.tcQuiet t = true → ∃ u, exec (.tilePark t) s = .next u ∧
      u.bit (Reg.SEQ_BEAT_STATUS t) 2 = true ∧
      (s.tileBusyWork t = false → u = s.setBit (Reg.SEQ_BEAT_STATUS t) 2 true)) ∧
    ((s.tile t).endAt.isSome = true → s.tcHalted t = true → (s.tile t).remoteWaits = false → ∃ u, exec (.tileDone t) s = .next u ∧
      u.bit (Reg.SEQ_BEAT_STATUS t) 0 = true ∧ (u.tile t).done = true ∧
      (s.tileBusyWork t = false → OnlyTile s u t ∧ RegsSameBut s u [Reg.SEQ_BEAT_STATUS t] ∧
        u.tile t = { s.tile t with done := true, doneHs := s.hs t })) ∧
    ((s.tile t).remoteWaits = true → exec (.tileDone t) s = .next s) ∧
    (∀ (k : BitVec 6) (n entry : Nat), (s.tile t).gate = some (k.toNat, n, entry) → (s.tile t).evs = [] → (s.tile t).flights = [] →
      (s.tile t).mvu.ops = [] → (s.tile t).se.aborts = [] → (s.tile t).tc.waitSem = none → s.hs t + 1 < 2 ^ 20 →
      s.semBroken t k.toNat = false → n ≤ s.semCount t k.toNat → 0 < n → ∃ u, exec (.waiterWake t k) s = .next u ∧
        u.semCount t k.toNat = s.semCount t k.toNat - n ∧ (u.tile t).gate = none ∧ (u.tile t).nextHs = s.hs t + 2 ∧
        u.hs t = s.hs t + 1 ∧ u.bit (Reg.SEQ_BEAT_STATUS t) 2 = false ∧ u.bit (Reg.SEQ_STATUS t) 17 = false ∧
        u.bit (Reg.SEM_CNT t k.toNat) 17 = false ∧ OnlyTile s u t) ∧
    (∀ (k : BitVec 6) (n : Nat), (s.tile t).tc.waitSem = some (k.toNat, n) → (s.tile t).evs = [] → (s.tile t).flights = [] →
      (s.tile t).mvu.ops = [] → (s.tile t).se.aborts = [] → (s.tile t).gate = none → s.hs t + 1 < 2 ^ 20 →
      s.semBroken t k.toNat = false → n ≤ s.semCount t k.toNat → 0 < n → ∃ u, exec (.waiterWake t k) s = .next u ∧
        u.semCount t k.toNat = s.semCount t k.toNat - n ∧ (u.tile t).tc.waitSem = none ∧ (u.tile t).tc.next = s.hs t + 2 ∧
        u.hs t = s.hs t + 1 ∧ u.fld (Reg.TC_STATUS t) 0 2 = 1 ∧ u.bit (Reg.SEQ_BEAT_STATUS t) 2 = false ∧
        u.bit (Reg.SEM_CNT t k.toNat) 18 = false ∧ OnlyTile s u t) ∧
    (∀ k : BitVec 6, s.semBroken t k.toNat = true → (s.tile t).evs = [] → s.hs t + 1 < 2 ^ 20 → ∃ u, exec (.waiterWake t k) s = .next u ∧
      u.semCount t k.toNat = s.semCount t k.toNat ∧
      (∀ c, c < 8 → s.ctxLive t c = true → s.ctxOut t c = true → s.ctxSem t c = k.toNat →
        (s.seCtx t c).reserved + (s.seCtx t c).granted < s.ctxFill t c → u.ctxState t c = 3) ∧
      (∀ n entry, (s.tile t).gate = some (k.toNat, n, entry) → 0 < n → (u.tile t).gate = none ∧ (u.tile t).stopped = true ∧
        u.bit (Reg.SEQ_STATUS t) 17 = false ∧ u.bit (Reg.SEM_CNT t k.toNat) 17 = false) ∧
      (∀ n, (s.tile t).tc.waitSem = some (k.toNat, n) → 0 < n → (u.tile t).tc.waitSem = none ∧ (u.tile t).tc.stopped = true ∧
        u.bit (Reg.SEM_CNT t k.toNat) 18 = false)) ∧
    (∀ k : BitVec 6, (s.tile t).gate = none → (s.tile t).tc.waitSem = none → s.semBroken t k.toNat = false →
      exec (.waiterWake t k) s = .next s)
/-- For every instruction of `tcOpsT` (ADD, SUB, NEG, ABS, MIN, MAX, MINU, MAXU, AND, OR, XOR, NOT, MOV, SHL, SHR, SAR, ROL, ROR, MUL,
MULH, MULHU, FMIN, FMAX, FABS, FNEG) and `tcOpsI` (ADDI, ANDI, ORI, XORI, SHLI, SHRI, SARI), and for MOVI and MOVHI, on a tile core that can issue, whatever its parallel
moves: it completes; it issues as R138 says and the program goes on behind it; gd holds the result of the operation on the registers
before it, unless a move loads gd; `TC_FLAGS` holds what the operation makes of it; and with no move nothing but gd, `TC_FLAGS` and
what follows every issue changes. A result saturates where `TC_FLAGS` [16] or the instruction's s bit says so. -/
def Obligations.TcIntegerInstructions : Prop :=
  ∀ (s : State) (t : Nat) (mv : Moves), TcIdle s t →
    let G (i : BitVec 5) : Word := s.g t i.toNat
    let flags := s.rd (Reg.TC_FLAGS t)
    let Wrote (u : State) (keys : List Nat) (d : BitVec 5) (r : Word × FlagSet) : Prop := TcFell s u t mv (d.toNat :: keys) ∧ (notLoaded mv d.toNat → u.g t d.toNat = r.1) ∧ u.rd (Reg.TC_FLAGS t) = r.2.apply flags ∧
      (noMoves mv → OnlyTile s u t ∧ RegsSameBut s u (tcRegs t ++ [Reg.TC_G t d.toNat, Reg.TC_FLAGS t]))
    (∀ (o : TcT) (c : Instr) (f : Bool → Word → Word → Word × FlagSet), (c, f) ∈ tcOpsT t mv o →
      (∃ u, exec c s = .next u ∧ Wrote u [o.a.toNat] o.d (f (flags.bit 16 || o.s) (G o.a) (G o.b)))) ∧
    (∀ (o : TcI) (c : Instr) (f : Bool → Word → Word → Word × FlagSet), (c, f) ∈ tcOpsI t mv o →
      (∃ u, exec c s = .next u ∧ Wrote u [o.a.toNat] o.d (f (flags.bit 16) (G o.a) (o.imm.signExtend 32)))) ∧
    (∀ o : TcL, (∃ u, exec (.tcMovi t mv o) s = .next u ∧ Wrote u [] o.d (o.imm.signExtend 32, {})) ∧
      (∃ u, exec (.tcMovhi t mv o) s = .next u ∧ Wrote u [] o.d (o.imm ++ (G o.d).extractLsb' 0 16, {})))

/-- For all operands: without saturation ADD, SUB, NEG, MUL and SHL give the result modulo 2^32; v is set exactly when the exact signed
result lies outside 32 bits, and with saturation the result is then the nearer bound, and otherwise the same. The carry of ADD is the
unsigned carry, that of SUB that no borrow occurs; a shift by 0 leaves c, and one by 33 or more clears it for SHL and SHR. n is the
sign bit of the result and z whether it is 0. A division by a divisor other than 0 gives quotient and remainder with
a = q × b + r, toward zero; by 0 it gives the bound of a's sign, or all ones, with the dividend as remainder, and dz.
A DSP slice adds a and d modulo 2^24 and says whether the sum fits; it adds the product to, or takes it from, its own accumulator or
that of the slice above, modulo 2^64 or saturated; its output is the accumulator divided by 2^sh to the nearest, ties to even, then
saturated or cut to its width. A block RAM in each of its seven modes reads back at an address the low bits that were written there,
and any other word as before; a port that reads gets what stood there before the edge; with its writes off nothing changes; and a
SECDED word reads back without a flag, with any one bit inverted reads back corrected, and with any two is flagged. A logic element's flip-flops take the initial value in reset, the LUT or the bypass when
enabled, and stay otherwise; its LUT looks up its table, or, used as a memory, what was written, and takes the bit at its address where it is written with the write enables released. -/
def Obligations.IntegerArithmetic : Prop :=
  ∀ a b : Word,
    (aluAdd false a b).1 = a + b ∧ (aluSub false a b).1 = a - b ∧ (aluNeg false a).1 = -a ∧ (aluMul false a b).1 = a * b ∧
    (∀ n, (aluShl false a n).1 = a <<< n) ∧
    (∀ q, (aluAdd q a b).2.v = some (decide ((a + b).toInt ≠ a.toInt + b.toInt)) ∧
      (aluSub q a b).2.v = some (decide ((a - b).toInt ≠ a.toInt - b.toInt)) ∧
      (aluMul q a b).2.v = some (decide ((a * b).toInt ≠ a.toInt * b.toInt)) ∧
      (aluNeg q a).2.v = some (decide (a = 0x80000000)) ∧ (aluAbs q a).2.v = some (decide (a = 0x80000000)) ∧
      (aluAdd q a b).2.c = some (decide ((a + b).toNat ≠ a.toNat + b.toNat)) ∧ (aluSub q a b).2.c = some (decide (b.toNat ≤ a.toNat)) ∧
      (aluAdd q a b).2.n = some ((aluAdd q a b).1.getLsbD 31) ∧ (aluAdd q a b).2.z = some ((aluAdd q a b).1 == 0)) ∧
    (aluAdd true a b).1 = (if (a + b).toInt = a.toInt + b.toInt then a + b else if a.getLsbD 31 then 0x80000000 else 0x7FFFFFFF) ∧
    (aluSub true a b).1 = (if (a - b).toInt = a.toInt - b.toInt then a - b else if a.getLsbD 31 then 0x80000000 else 0x7FFFFFFF) ∧
    (aluAbs false a).1 = (if a.getLsbD 31 then -a else a) ∧ (aluAbs true 0x80000000).1 = 0x7FFFFFFF ∧
    (∀ q, (aluShl q a 0).2.c = none ∧ (aluShr a 0).2.c = none ∧ (aluSar a 0).2.c = none) ∧
    (∀ q n, 32 < n → (aluShl q a n).2.c = some false ∧ (aluShr a n).2.c = some false ∧ (aluShr a n).1 = 0) ∧
    (∀ n, 0 < n → n ≤ 32 → (aluShl false a n).2.c = some (a.getLsbD (32 - n)) ∧ (aluShr a n).2.c = some (a.getLsbD (n - 1))) ∧
    (b ≠ 0 → ¬(a = 0x80000000 ∧ b = 0xFFFFFFFF) → ∀ q, (aluDivs q a b).1.toInt * b.toInt + (aluDivs q a b).2.1.toInt = a.toInt ∧
      (aluDivs q a b).2.1.toInt.natAbs < b.toInt.natAbs ∧ (0 ≤ a.toInt → 0 ≤ (aluDivs q a b).2.1.toInt) ∧
      (a.toInt ≤ 0 → (aluDivs q a b).2.1.toInt ≤ 0)) ∧
    (b ≠ 0 → (aluDivu a b).1.toNat * b.toNat + (aluDivu a b).2.1.toNat = a.toNat ∧ (aluDivu a b).2.1.toNat < b.toNat) ∧
    (∀ q, aluDivs q a 0 = (if a.getLsbD 31 then 0x80000000 else 0x7FFFFFFF, a,
      { n := some (a.getLsbD 31), z := some false, dz := true })) ∧
    (aluDivu a 0).1 = 0xFFFFFFFF ∧ (aluDivu a 0).2.1 = a ∧ (aluDivu a 0).2.2.dz = true ∧
    (∀ (f : DspIn) (above : BitVec 64) (x : DspSt),
      let m := f.preAdd.1.toInt * f.b.toInt
      let base := (if f.cascade then above else x.acc).toInt
      let y := f.next true above x
      (f.pre = true → f.preAdd.1.toNat = (f.a.toNat + f.d.toNat) % 2 ^ 24 ∧ (f.preAdd.2 = false ↔ f.preAdd.1.toInt = f.a.toInt + f.d.toInt)) ∧
      (f.pre = false → f.preAdd = (f.a, false)) ∧ y.preOvf = f.preAdd.2 ∧ (f.enable = false → y.acc = x.acc) ∧
      (f.enable = true → f.sat = false → y.acc.toInt % 2 ^ 64 = (if f.sub then base - m else base + m) % 2 ^ 64) ∧
      (f.enable = true → f.sat = true → y.acc.toInt = max (-(2 ^ 63)) (min (2 ^ 63 - 1) (if f.sub then base - m else base + m))) ∧
      (let w := dspConvergent y.acc.toInt f.sh;
        (2 * (w * 2 ^ f.sh - y.acc.toInt)).natAbs ≤ 2 ^ f.sh ∧ ((2 * (w * 2 ^ f.sh - y.acc.toInt)).natAbs = 2 ^ f.sh → 0 < f.sh → w % 2 = 0) ∧
        (0 < f.width → -(2 ^ (f.width - 1)) ≤ y.out ∧ y.out < 2 ^ (f.width - 1) ∧
          (-(2 ^ (f.width - 1)) ≤ w → w < 2 ^ (f.width - 1) → y.out = w) ∧
          (f.sat = false → y.out % 2 ^ f.width = w % 2 ^ f.width)))) ∧
    (∀ (mode i j : Nat) (v : BitVec 36864) (d clash : BitVec 72) (p q : Option BramReq) (old : BitVec 72 × Bool), mode < 7 →
      i < bramDepth mode → j < bramDepth mode →
      (bramRead mode (bramWrite mode v i d) i).toNat = d.toNat % 2 ^ bramWidth mode ∧
      (i ≠ j → bramRead mode (bramWrite mode v i d) j = bramRead mode v j) ∧
      bramPort mode false v (some ⟨false, i, d⟩) old = (bramRead mode v i, false) ∧ bramStore mode false false v p q clash = v) ∧
    (∀ d : BitVec 64, secdedRead (secdedWord d) = (secdedWord d, false) ∧ (secdedWord d).setWidth 64 = d ∧
      (∀ i, i < 72 → secdedRead (secdedWord d ^^^ BitVec.ofNat 72 (2 ^ i)) = (secdedWord d, false)) ∧
      (∀ i j, i < 72 → j < 72 → i ≠ j → (secdedRead (secdedWord d ^^^ BitVec.ofNat 72 (2 ^ i) ^^^ BitVec.ofNat 72 (2 ^ j))).2 = true)) ∧
    (∀ (f : LeIn) (held : Bool) (m : BitVec 64) (q : BitVec 2), (f.clear = true ∨ held = true → f.next held m q = f.init) ∧
      (f.clear = false → held = false → (f.enable = false → f.next held m q = q) ∧ (f.enable = true → ∀ i, i < 2 →
        (f.next held m q).getLsbD i = if f.useBypass.getLsbD i then f.bypass.getLsbD i else (f.lut m).getLsbD i)) ∧
      f.bits m = (if f.mem then m else f.table) ∧
      (f.split = false → (f.lut m).getLsbD 0 = (f.bits m).getLsbD f.x.toNat ∧ (f.lut m).getLsbD 1 = (f.bits m).getLsbD f.x.toNat) ∧
      (f.split = true → (f.lut m).getLsbD 0 = (f.bits m).getLsbD (f.x.toNat % 32) ∧ (f.lut m).getLsbD 1 = (f.bits m).getLsbD (32 + f.x.toNat % 32)) ∧
      (∀ i, i < 64 → (f.store true m).getLsbD i = (if f.mem && f.write && i == f.x.toNat then f.data else m.getLsbD i)) ∧
      f.store false m = m)

/-- On a tile core that can issue, whatever the parallel moves, each completes and the program goes on behind it. CMP and CMPI write the
flags of a − b. DIVS and DIVU write quotient and then remainder, to gd and the register after it, unless a move loads them, and a
division by 0 with its trap enabled stops the tile core. MAC and MSU add to or take from their accumulator the product of two signed
halves, doubled with `frac`, and ACLD loads it with ga × 2^sh: modulo 2^40, or saturated where asked, v saying whether it fits; ACLR
clears it; ACCX writes the accumulator divided by 2^sh, rounded to nearest even, in 32 or 16 bits. No other accumulator changes. A
search step replaces gd by ga, and the register after it by gb, exactly when ga wins, and changes no flag. -/
def Obligations.TcWideInstructions : Prop :=
  ∀ (s : State) (t : Nat) (mv : Moves), TcIdle s t →
    let G (i : BitVec 5) : Word := s.g t i.toNat
    let flags := s.rd (Reg.TC_FLAGS t)
    let next (d : BitVec 5) : Nat := (d.toNat + 1) % 32
    let Acc (u : State) (keys : List Nat) (k : BitVec 2) (v : BitVec 40) (f : FlagSet) : Prop := TcFell s u t mv ((32 + k.toNat) :: keys) ∧ u.acc40 t k.toNat = v ∧ u.rd (Reg.TC_FLAGS t) = f.apply flags ∧
      (∀ j, j < 4 → j ≠ k.toNat → u.acc40 t j = s.acc40 t j) ∧
      (noMoves mv → OnlyTile s u t ∧
        RegsSameBut s u (tcRegs t ++ [Reg.TC_ACC_LO t k.toNat, Reg.TC_ACC_HI t k.toNat, Reg.TC_FLAGS t]))
    (∀ o : TcT, ∃ u, exec (.tcCmp t mv o) s = .next u ∧ TcFell s u t mv [o.a.toNat, o.b.toNat] ∧
      u.rd (Reg.TC_FLAGS t) = (aluSub false (G o.a) (G o.b)).2.apply flags ∧
      (noMoves mv → OnlyTile s u t ∧ RegsSameBut s u (tcRegs t ++ [Reg.TC_FLAGS t]))) ∧
    (∀ o : TcI, ∃ u, exec (.tcCmpi t mv o) s = .next u ∧ TcFell s u t mv [o.a.toNat] ∧
      u.rd (Reg.TC_FLAGS t) = (aluSub false (G o.a) (o.imm.signExtend 32)).2.apply flags ∧
      (noMoves mv → OnlyTile s u t ∧ RegsSameBut s u (tcRegs t ++ [Reg.TC_FLAGS t]))) ∧
    let Div (u : State) (o : TcT) (r : Word × Word × FlagSet) : Prop :=
      TcFell s u t mv [o.a.toNat, o.b.toNat, o.d.toNat, next o.d, 53] ∧ (notLoaded mv o.d.toNat → u.g t o.d.toNat = r.1) ∧
      (notLoaded mv (next o.d) → u.g t (next o.d) = r.2.1) ∧ u.rd (Reg.TC_FLAGS t) = r.2.2.apply flags ∧
      (r.2.2.dz = true → s.bit (Reg.TC_CTRL t) 0 = true → (u.tile t).tc.stopped = true ∧ u.bit (Reg.TC_STATUS t) 8 = true) ∧
      (r.2.2.dz = false ∨ s.bit (Reg.TC_CTRL t) 0 = false → noMoves mv → OnlyTile s u t ∧
        RegsSameBut s u (tcRegs t ++ [Reg.TC_G t o.d.toNat, Reg.TC_G t (next o.d), Reg.TC_FLAGS t]))
    (∀ o : TcT, (∃ u, exec (.tcDivs t mv o) s = .next u ∧ Div u o (aluDivs (flags.bit 16 || o.s) (G o.a) (G o.b))) ∧
      (∃ u, exec (.tcDivu t mv o) s = .next u ∧ Div u o (aluDivu (G o.a) (G o.b)))) ∧
    (∀ o : TcA, let p := macProduct o.sel o.frac (G o.a) (G o.b)
      let x := (s.acc40 t o.acc.toNat).toInt
      let q := flags.bit 16 || o.s
      (∃ u, exec (.tcMac t mv o) s = .next u ∧ Acc u [o.a.toNat, o.b.toNat] o.acc (fit40 q (x + p)).1 { v := some (fit40 q (x + p)).2 }) ∧
      (∃ u, exec (.tcMsu t mv o) s = .next u ∧ Acc u [o.a.toNat, o.b.toNat] o.acc (fit40 q (x - p)).1 { v := some (fit40 q (x - p)).2 })) ∧
    (∀ k : BitVec 2, (∃ u, exec (.tcAclr t mv k) s = .next u ∧ Acc u [] k 0 {})) ∧
    (∀ (k : BitVec 2) (a sh : BitVec 5) (sb : Bool), let r := fit40 (flags.bit 16 || sb) ((G a).toInt * 2 ^ sh.toNat)
      (∃ u, exec (.tcAcld t mv k a sh sb) s = .next u ∧ Acc u [a.toNat] k r.1 { v := some r.2 })) ∧
    (∀ (k : BitVec 2) (d sh : BitVec 5) (w sb : Bool), let r := accExtract (flags.bit 17 || sb) w (s.acc40 t k.toNat) sh.toNat
      ∃ u, exec (.tcAccx t mv k d sh w sb) s = .next u ∧ TcFell s u t mv [32 + k.toNat, d.toNat] ∧
        (notLoaded mv d.toNat → u.g t d.toNat = r.1) ∧ u.rd (Reg.TC_FLAGS t) = { nz r.1 with v := some r.2 }.apply flags ∧
        (noMoves mv → OnlyTile s u t ∧ RegsSameBut s u (tcRegs t ++ [Reg.TC_G t d.toNat, Reg.TC_FLAGS t]))) ∧
    let Step (u : State) (o : TcT) (fp max : Bool) : Prop :=
      TcFell s u t mv [o.a.toNat, o.b.toNat, o.d.toNat, next o.d] ∧
      (notLoaded mv o.d.toNat → u.g t o.d.toNat = if searchWins fp max (G o.a) (G o.d) then G o.a else G o.d) ∧
      (notLoaded mv (next o.d) → u.g t (next o.d) = if searchWins fp max (G o.a) (G o.d) then G o.b else s.g t (next o.d)) ∧
      u.rd (Reg.TC_FLAGS t) = flags ∧ (noMoves mv → OnlyTile s u t ∧
        RegsSameBut s u (tcRegs t ++ [Reg.TC_G t o.d.toNat, Reg.TC_G t (next o.d)]))
    ∀ o : TcT, (∃ u, exec (.tcMaxi t mv o) s = .next u ∧ Step u o false true) ∧ (∃ u, exec (.tcMini t mv o) s = .next u ∧ Step u o false false) ∧
      (∃ u, exec (.tcFmaxi t mv o) s = .next u ∧ Step u o true true) ∧ (∃ u, exec (.tcFmini t mv o) s = .next u ∧ Step u o true false)

/-- On a tile core that can issue, whatever the parallel moves, each of FADD, FSUB, FMUL, FFMA, FDIV, FSQRT, FCVTF and FCVTI completes
and the program goes on behind it; gd holds the code of the result, unless a move loads it; the sticky flags of the result are added
to `TC_FLAGS` and no other flag changes. One that raises the invalid flag while its trap is enabled stops the tile core; otherwise,
with no move, nothing but gd, `TC_FLAGS` and what follows every issue changes. FCMP writes n where ga is less, z where they are equal,
v where they are unordered, and clears c. A NaN operand of FADD gives the NaN 0x7FC00000, as does the difference of two infinities,
which is invalid; the quotient of a number other than 0 by 0 is an infinity with the division flag. -/
def Obligations.TcFloatInstructions : Prop :=
  (∀ (s : State) (t : Nat) (mv : Moves) (o : TcT), TcIdle s t →
    let a := s.g t o.a.toNat
    let b := s.g t o.b.toNat
    let flags := s.rd (Reg.TC_FLAGS t)
    (∀ (c : Instr) (f : Word → Word → Word → Word × Word), (c, f) ∈ tcOpsF t mv o →
      let r := f a b (s.g t o.d.toNat)
      ∃ u, exec c s = .next u ∧ TcFell s u t mv [o.a.toNat, o.d.toNat, 55] ∧ (notLoaded mv o.d.toNat → u.g t o.d.toNat = r.1) ∧
        u.rd (Reg.TC_FLAGS t) = flags ||| r.2 ∧
        (r.2.getLsbD 8 = true → s.bit (Reg.TC_CTRL t) 1 = true → (u.tile t).tc.stopped = true ∧ u.bit (Reg.TC_STATUS t) 8 = true) ∧
        (r.2.getLsbD 8 = false ∨ s.bit (Reg.TC_CTRL t) 1 = false → noMoves mv → OnlyTile s u t ∧
          RegsSameBut s u (tcRegs t ++ [Reg.TC_G t o.d.toNat, Reg.TC_FLAGS t]))) ∧
    (∃ u, exec (.tcFcmp t mv o) s = .next u ∧ TcFell s u t mv [o.a.toNat, o.b.toNat] ∧
      u.rd (Reg.TC_FLAGS t) = (fpCompare a b).apply flags ∧
      (noMoves mv → OnlyTile s u t ∧ RegsSameBut s u (tcRegs t ++ [Reg.TC_FLAGS t])))) ∧
  (∀ a b : Word, let x := Fmt.fp32.decode a.toNat
    let y := Fmt.fp32.decode b.toNat
    ((fpCompare a b).v = some true ↔ (x.isNan = true ∨ y.isNan = true)) ∧ (fpCompare a b).c = some false ∧
    (x.isNan = true ∨ y.isNan = true → (fpCompare a b).n = some false ∧ (fpCompare a b).z = some false ∧
      (Fmt.fp32.addV x y).code = 0x7FC00000 ∧ (Fmt.fp32.mulV x y).code = 0x7FC00000)) ∧
  ((Fmt.fp32.addV (.inf false) (.inf true)).code = 0x7FC00000 ∧ (Fmt.fp32.addV (.inf false) (.inf true)).invalid = true ∧
    ∀ m e neg q, m ≠ 0 → (Fmt.fp32.divV (.fin neg m e) (.fin q 0 0)).divZero = true ∧
      (Fmt.fp32.divV (.fin neg m e) (.fin q 0 0)).code = if neg = q then 0x7F800000 else 0xFF800000)

/-- For every pointer p of 22 bits and every modifier, whose step s is its low 16 bits, signed, and whose L is 8 times its high 16 bits:
with L 0 the result is (p + s) mod 2^22; otherwise, with k the smallest integer with 2^k at least L and base p with its bits below k
cleared, the result is base + ((p − base + s) mod L), where the remainder lies from 0 to L − 1. The example: step 144, `len` 24 and
p 0x1140 give 0x1110. -/
def Obligations.ModstepIsCircular : Prop :=
  (∀ (p : BitVec 22) (st ln : BitVec 16),
    (ln = 0 → (modstep p.toNat (ln ++ st) : Int) = ((p.toNat : Int) + st.toInt) % 2 ^ 22) ∧
    (ln ≠ 0 → ∀ k, 8 * ln.toNat ≤ 2 ^ k → (∀ j, 8 * ln.toNat ≤ 2 ^ j → k ≤ j) →
      (modstep p.toNat (ln ++ st) : Int) = (p.toNat - p.toNat % 2 ^ k : Nat) +
        ((p.toNat : Int) - (p.toNat - p.toNat % 2 ^ k : Nat) + st.toInt) % (8 * ln.toNat : Nat) ∧
      0 ≤ ((p.toNat : Int) - (p.toNat - p.toNat % 2 ^ k : Nat) + st.toInt) % (8 * ln.toNat : Nat) ∧
      ((p.toNat : Int) - (p.toNat - p.toNat % 2 ^ k : Nat) + st.toInt) % (8 * ln.toNat : Nat) < (8 * ln.toNat : Nat))) ∧
  modstep 0x1140 (24#16 ++ 144#16) = 0x1110
/-- On a tile core that can issue, whatever the parallel moves, each completes and the program goes on behind it. PSET and PSTEP write
their pointer, modulo 2^22, over any move's value; PGET reads one and MSET writes a modifier. IN reads the step counter, attempt,
opening milestone, variant, tile number, handshake or the fill of a context, and 0 from any other port. OUT to a context's release
port lowers the fill of an open or paused inbound context by the rows in ga [12:0], or to 0 (for one that holds its releases the model's choice,
log entry 114), and OUT to its push port raises the fill
of an outbound one by them, or by what is free; OUT to port 0x10 sets `pending` of the region in ga [6:0], OUT to port 0x11 writes
`TC_PWRMODE`. FGET reads `TC_FLAGS`; FSET writes its defined fields. What IN, PGET and FGET read stands in gd unless a move loads gd. -/
def Obligations.TcPointersPortsFlags : Prop :=
  ∀ (s : State) (t : Nat) (mv : Moves), TcIdle s t →
    let G (i : BitVec 5) : Word := s.g t i.toNat
    let Put (u : State) (d : BitVec 5) (v : State → Word) : Prop := TcFell s u t mv [d.toNat] ∧
      (notLoaded mv d.toNat → u.g t d.toNat = v u) ∧ u.rd (Reg.TC_FLAGS t) = s.rd (Reg.TC_FLAGS t) ∧
      (noMoves mv → OnlyTile s u t ∧ RegsSameBut s u (tcRegs t ++ [Reg.TC_G t d.toNat]))
    let Set (u : State) (a : Nat) (v : Word) : Prop := TcFell s u t mv [] ∧ u.rd a = v ∧
      (noMoves mv → OnlyTile s u t ∧ RegsSameBut s u (tcRegs t ++ [a]))
    (∀ o : TcP, (∃ u, exec (.tcPset t mv o) s = .next u ∧ Set u (ptrReg t o.y o.p.toNat) (BitVec.ofNat 32 ((G o.r).toNat % 2 ^ 22))) ∧
      (∃ u, exec (.tcPget t mv o) s = .next u ∧ Put u o.r (fun _ => BitVec.ofNat 32 (s.ptr t o.y o.p.toNat))) ∧
      (∃ u, exec (.tcMset t mv o) s = .next u ∧ Set u (modReg t o.y o.p.toNat) (G o.r))) ∧
    (∀ (y : Bool) (p : BitVec 2), (∃ u, exec (.tcPstep t mv y p) s = .next u ∧ Set u (ptrReg t y p.toNat)
      (BitVec.ofNat 32 (modstep (s.ptr t y p.toNat) (s.rd (modReg t y p.toNat)) % 2 ^ 22)))) ∧
    (∀ (d : BitVec 5) (port : BitVec 8), (∃ u, exec (.tcIn t mv d port) s = .next u ∧ Put u d (fun u =>
      if port.toNat = 7 then BitVec.ofNat 32 (u.hs t) else s.inPort t port.toNat))) ∧
    (s.inPort t 0 = s.rd (Reg.SEQ_STEP_LO t) ∧ s.inPort t 2 = s.rd (Reg.SEQ_ATTEMPT t) ∧ s.inPort t 6 = BitVec.ofNat 32 t ∧
      s.inPort t 9 = BitVec.ofNat 32 (s.ctxFill t 1) ∧ ∀ p, 16 ≤ p → s.inPort t p = 0) ∧
    (∀ (a : BitVec 5) (c : BitVec 3), ∃ u, exec (.tcOutRelease t mv a c) s = .next u ∧ TcFell s u t mv [a.toNat] ∧
      (s.ctxLive t c.toNat = true → s.ctxOut t c.toNat = false → s.ctxFree t c.toNat + s.ctxFill t c.toNat < 8192 →
        u.ctxFill t c.toNat = s.ctxFill t c.toNat - min ((G a).toNat % 2 ^ 13) (s.ctxFill t c.toNat))) ∧
    (∀ (a : BitVec 5) (c : BitVec 3), ∃ u, exec (.tcOutPush t mv a c) s = .next u ∧ TcFell s u t mv [a.toNat] ∧
      (s.ctxLive t c.toNat = true → s.ctxOut t c.toNat = true → s.ctxFree t c.toNat + s.ctxFill t c.toNat < 8192 →
        u.ctxFill t c.toNat = s.ctxFill t c.toNat + min ((G a).toNat % 2 ^ 13) (s.ctxFree t c.toNat)) ∧
      (noMoves mv → OnlyTile s u t ∧ RegsSameBut s u (tcRegs t ++ [Reg.SE_CTX_FILL t c.toNat, Reg.SE_REL_OVER t]))) ∧
    (∀ a : BitVec 5, (∃ u, exec (.tcOutSetPending t mv a) s = .next u ∧ Set u (Reg.SEQ_APP_CTRL t ((G a).toNat % 128))
        ((s.rd (Reg.SEQ_APP_CTRL t ((G a).toNat % 128))).setBit 31 true)) ∧
      (∃ u, exec (.tcOutPwrmode t mv a) s = .next u ∧ Set u (Reg.TC_PWRMODE t) (BitVec.ofNat 32 ((G a).toNat % 4))) ∧
      (∃ u, exec (.tcFset t mv a) s = .next u ∧ Set u (Reg.TC_FLAGS t) (G a &&& 0x00031F3F))) ∧
    (∀ d : BitVec 5, (∃ u, exec (.tcFget t mv d) s = .next u ∧ Put u d (fun _ => s.rd (Reg.TC_FLAGS t))))

/-- On a tile core that can issue, whatever the parallel moves: a branch whose condition holds completes with its target as program
counter, the two instructions after it skipped in time, the loops kept that contain the target with every loop outside them, and, for
BL, the address behind the branch in g31; one whose condition does not hold goes on behind it. Conditions 0 to 7 are always, z, not z,
n unlike v, n like v, not c, c, and v. LOOP with a count that is not 0 and fewer than four active loops makes the next instruction the
first of a body that ends at `last` and is repeated count − 1 times; with a count of 0 it skips the body; a fifth nested loop is
unpredictable and stops. The last instruction of a body goes back to the first while iterations are left. -/
def Obligations.TcBranchesAndLoops : Prop :=
  (∀ (s : State) (t : Nat) (mv : Moves), TcIdle s t →
    let w := s.rd (Reg.TC_FLAGS t)
    let loops := (s.tile t).tc.loops
    let Taken (u : State) (target : Nat) : Prop := TcIssued s u t mv [] ∧ u.pc t = target ∧
      (u.tile t).tc.next = nextIssue (nextIssue (nextIssue (u.hs t))) ∧ (u.tile t).tc.loops = keepLoops target loops ∧
      (noMoves mv → OnlyTile s u t)
    (∀ (cond : BitVec 3) (target : BitVec 13),
      (condHolds cond w = true → ∃ u, exec (.tcB t mv cond target) s = .next u ∧ Taken u target.toNat ∧
        (noMoves mv → RegsSameBut s u (tcRegs t))) ∧
      (condHolds cond w = false → ∃ u, exec (.tcB t mv cond target) s = .next u ∧ TcFell s u t mv []) ∧
      (condHolds cond w = true → ∃ u, exec (.tcBl t mv cond target) s = .next u ∧ Taken u target.toNat ∧
        (notLoaded mv 31 → u.g t 31 = BitVec.ofNat 32 ((s.pc t + 1) % 8192)) ∧
        (noMoves mv → RegsSameBut s u (tcRegs t ++ [Reg.TC_G t 31]))) ∧
      (condHolds cond w = false → ∃ u, exec (.tcBl t mv cond target) s = .next u ∧ TcFell s u t mv [] ∧
        (noMoves mv → u.g t 31 = s.g t 31))) ∧
    (∀ (cond : BitVec 3) (a : BitVec 5),
      (condHolds cond w = true → ∃ u, exec (.tcBr t mv cond a) s = .next u ∧ Taken u ((s.g t a.toNat).toNat % 8192) ∧
        (noMoves mv → RegsSameBut s u (tcRegs t))) ∧
      (condHolds cond w = false → ∃ u, exec (.tcBr t mv cond a) s = .next u ∧ TcFell s u t mv [a.toNat])) ∧
    (∀ (src : Bool) (cnt : BitVec 10) (last : BitVec 13),
      let n := if src then (s.g t (cnt.toNat / 32)).toNat else cnt.toNat
      (n = 0 → ∃ u, exec (.tcLoop t mv src cnt last) s = .next u ∧ Taken u ((last.toNat + 1) % 8192)) ∧
      (n ≠ 0 → loops.length < 4 → ∃ u, exec (.tcLoop t mv src cnt last) s = .next u ∧ TcIssued s u t mv [] ∧
        u.pc t = (s.pc t + 1) % 8192 ∧ (u.tile t).tc.next = nextIssue (u.hs t) ∧
        (u.tile t).tc.loops = ⟨(s.pc t + 1) % 8192, last.toNat, n - 1⟩ :: loops ∧
        u.fld (Reg.TC_STATUS t) 4 3 = loops.length + 1 ∧ (noMoves mv → OnlyTile s u t ∧ RegsSameBut s u (tcRegs t))) ∧
      (n ≠ 0 → loops.length = 4 → exec (.tcLoop t mv src cnt last) s = .fault (.unpredictableInPartition 143)))) ∧
  (∀ w : Word, condHolds 0 w = true ∧ condHolds 1 w = w.bit 1 ∧ condHolds 2 w = !w.bit 1 ∧ condHolds 3 w = (w.bit 0 != w.bit 3) ∧
    condHolds 4 w = (w.bit 0 == w.bit 3) ∧ condHolds 5 w = !w.bit 2 ∧ condHolds 6 w = w.bit 2 ∧ condHolds 7 w = w.bit 3) ∧
  (∀ (pc : Nat) (l : TcLoop) (r : List TcLoop), loopEnd pc [] = ([], (pc + 1) % 8192) ∧
    (l.last ≠ pc → loopEnd pc (l :: r) = (l :: r, (pc + 1) % 8192)) ∧
    (l.last = pc → 0 < l.left → loopEnd pc (l :: r) = ({ l with left := l.left - 1 } :: r, l.first)) ∧
    (l.last = pc → l.left = 0 → loopEnd pc (l :: r) = loopEnd pc r)) ∧
  (∀ (target : Nat) (ls : List TcLoop), ∃ inner, ls = inner ++ keepLoops target ls ∧
    (∀ l ∈ keepLoops target ls, l.first ≤ target ∧ target ≤ l.last) ∧
    (∀ l, inner.getLast? = some l → ¬ (l.first ≤ target ∧ target ≤ l.last)))

/-- On a tile core that can issue, whatever the parallel moves, each completes. NOP changes nothing beside what follows every issue.
WAIT takes the amount where the count of its semaphore, not Broken, covers it; where it does not but the capacity would, the tile core
waits, and `SEM_CNT` shows it and what it wants; where the capacity does not, it issues nothing more. On a Broken semaphore WAIT takes
nothing, `SEM_FAULT` shows cause 2 and the tile core issues nothing more in the beat, and SIG is discarded (R167). SIG raises the count by the next
handshake, where the capacity admits it. SIGR sends ga [27:16] to the semaphore of tile ga [6:0] of the own partition. WAITE clears
its event bit where it is set and goes on; else the tile core waits for it. HALT halts the tile core with an empty loop stack, and
WAITP does the same, but asks for a rung where `TC_PWRMODE` is not 0. -/
def Obligations.TcWaitsAndHalts : Prop :=
  ∀ (s : State) (t : Nat) (mv : Moves), TcIdle s t →
    (∃ u, exec (.tcNop t mv) s = .next u ∧ TcFell s u t mv [] ∧ (noMoves mv → OnlyTile s u t ∧ RegsSameBut s u (tcRegs t))) ∧
    (∀ (k : BitVec 6) (n : BitVec 12), s.semBroken t k.toNat = false → 0 < n.toNat →
      (n.toNat ≤ s.semCap t k.toNat → n.toNat ≤ s.semCount t k.toNat → ∃ u, exec (.tcWait t mv k n) s = .next u ∧ TcFell s u t mv [] ∧
        u.semCount t k.toNat = s.semCount t k.toNat - n.toNat ∧ (u.tile t).tc.waitSem = (s.tile t).tc.waitSem ∧
        (noMoves mv → OnlyTile s u t ∧ RegsSameBut s u (tcRegs t ++ [Reg.SEM_CNT t k.toNat]))) ∧
      (n.toNat ≤ s.semCap t k.toNat → s.semCount t k.toNat < n.toNat → ∃ u, exec (.tcWait t mv k n) s = .next u ∧
        TcFell s u t mv [] ∧ u.semCount t k.toNat = s.semCount t k.toNat ∧ (u.tile t).tc.waitSem = some (k.toNat, n.toNat) ∧
        u.fld (Reg.TC_STATUS t) 0 2 = 2 ∧ u.bit (Reg.SEM_CNT t k.toNat) 18 = true ∧
        ((s.tile t).gate = none → u.fld (Reg.SEM_CNT t k.toNat) 20 12 = n.toNat) ∧ u.tcReady t = false) ∧
      (s.semCap t k.toNat < n.toNat → ∃ u, exec (.tcWait t mv k n) s = .next u ∧ (u.tile t).tc.stopped = true ∧
        u.semCount t k.toNat = s.semCount t k.toNat ∧ u.bit (Reg.SEM_FAULT t) 0 = true) ∧
      (∃ u, exec (.tcSig t mv k n) s = .next u ∧ TcFell s u t mv [] ∧ u.semCount t k.toNat = s.semCount t k.toNat ∧
        (s.semCount t k.toNat + n.toNat ≤ s.semCap t k.toNat →
          (u.advanceTo t (u.hs t + 1)).semCount t k.toNat = s.semCount t k.toNat + n.toNat))) ∧
    (∀ (k : BitVec 6) (n : BitVec 12), s.semBroken t k.toNat = true → 0 < n.toNat →
      (∃ u, exec (.tcWait t mv k n) s = .next u ∧ (u.tile t).tc.stopped = true ∧ (u.tile t).tc.waitSem = none ∧ u.tcReady t = false ∧
        u.semCount t k.toNat = s.semCount t k.toNat ∧
        (s.bit (Reg.SEM_FAULT t) 0 = false → u.rd (Reg.SEM_FAULT t) = BitVec.ofNat 32 (1 + k.toNat * 2 ^ 8 + 2 * 2 ^ 16 + 2 ^ 20)) ∧
        (noMoves mv → OnlyTile s u t ∧ RegsSameBut s u (tcRegs t ++ [Reg.SEM_FAULT t, Reg.SEM_FAULT_ARG t]))) ∧
      (∃ u, exec (.tcSig t mv k n) s = .next u ∧ TcFell s u t mv [] ∧
        (u.advanceTo t (u.hs t + 1)).semCount t k.toNat = s.semCount t k.toNat ∧
        (u.advanceTo t (u.hs t + 1)).rd (Reg.SEM_FAULT t) = s.rd (Reg.SEM_FAULT t))) ∧
    (∀ (k : BitVec 6) (a : BitVec 5) (q : Nat) (x : Part), s.tilePart t = some q → s.part q = some x →
      let v := (s.g t a.toNat).toNat
      0 < v / 2 ^ 16 % 2 ^ 12 → x.firstCol ≤ v % 128 / 8 → v % 128 / 8 ≤ x.lastCol → ∃ u p, exec (.tcSigr t mv k a) s = .next u ∧
        TcFell s u t mv [a.toNat] ∧ (u.router t).inject = (s.router t).inject ++ [p] ∧ p.dst.toNat = v % 128 ∧ p.dkind = false ∧
        p.src.toNat = t ∧ p.type.toNat = ptSignal ∧ p.arg.toNat % 2 ^ 16 = k.toNat ∧ p.arg.toNat / 2 ^ 16 % 2 ^ 12 = v / 2 ^ 16 % 2 ^ 12 ∧
        (u.tile t).remoteOut = (s.tile t).remoteOut ++ [(v % 128, k.toNat, false)]) ∧
    (∀ e : BitVec 4,
      (s.bit (Reg.TC_EVENT t) e.toNat = true → ∃ u, exec (.tcWaite t mv e) s = .next u ∧ TcFell s u t mv [] ∧
        u.bit (Reg.TC_EVENT t) e.toNat = false ∧ u.fld (Reg.TC_STATUS t) 0 2 = 1 ∧
        (noMoves mv → OnlyTile s u t ∧ RegsSameBut s u (tcRegs t ++ [Reg.TC_EVENT t]))) ∧
      (s.bit (Reg.TC_EVENT t) e.toNat = false → ∃ u, exec (.tcWaite t mv e) s = .next u ∧ TcFell s u t mv [] ∧
        (u.tile t).tc.waitEvent = some e.toNat ∧ u.fld (Reg.TC_STATUS t) 0 2 = 2 ∧
        (noMoves mv → OnlyTile s u t ∧ RegsSameBut s u (tcRegs t)))) ∧
    (∃ u, exec (.tcHalt t mv) s = .next u ∧ TcIssued s u t mv [] ∧ u.fld (Reg.TC_STATUS t) 0 2 = 0 ∧ u.fld (Reg.TC_STATUS t) 4 3 = 0 ∧
      (u.tile t).tc.loops = [] ∧ u.tcHalted t = true ∧ (noMoves mv → OnlyTile s u t ∧ RegsSameBut s u (tcRegs t))) ∧
    (∃ u, exec (.tcWaitp t mv) s = .next u ∧ TcIssued s u t mv [] ∧ (u.tile t).tc.loops = [] ∧ u.tcHalted t = true ∧
      u.fld (Reg.TC_STATUS t) 0 2 = (if s.fld (Reg.TC_PWRMODE t) 0 2 = 0 then 0 else 3) ∧
      (noMoves mv → OnlyTile s u t ∧ RegsSameBut s u (tcRegs t)))

/-- On a tile core that can issue, in a tile none of whose words is upset, an instruction with one parallel move, X or Y. The address
is the pointer, or in mode 3 the pointer plus the signed step of its modifier, modulo 2^22, with the bits below the access size
ignored, in the X or the Y half of the store. A load brings the bytes of the store there, zero-extended or, where asked, sign-extended,
into its register, 8 bytes into two. A store leaves the store as it is for 5 handshakes: then its bytes, taken from the registers
before the instruction, stand there, and every other byte reads as before. In mode 1 the pointer advances by the size, modulo 2^22, in
mode 2 it takes modstep, and in the others it stays. Of two loads into one register, the X move's value stands. -/
def Obligations.TcMovesReachTheStore : Prop :=
  ∀ (s : State) (t : Nat) (mv : Moves) (y : Bool), TcIdle s t → s.upsets = [] →
    let m := if y then mv.y else mv.x
    let p := s.ptr t y m.p.toNat
    let md := s.rd (modReg t y m.p.toNat)
    let n := 2 ^ m.size.toNat
    let a := (if m.mode = 3 then (((p : Int) + (md.extractLsb' 0 16).toInt) % 2 ^ 22).toNat else p) / n * n
    let base := s.storeBase t + a / 512 * 1024 + a % 512 + (if y then 512 else 0)
    let v := ofBytes ((List.range n).map (fun i => s.store.read (base + i)))
    m.en = true → (if y then mv.x.en else mv.y.en) = false → ∃ u, exec (.tcNop t mv) s = .next u ∧ TcFell s u t mv [m.reg.toNat] ∧
      (m.st = false → (∀ b, u.store.read b = s.store.read b) ∧
        (m.size = 3 → u.g t m.reg.toNat = BitVec.ofNat 32 v ∧ u.g t ((m.reg.toNat + 1) % 32) = BitVec.ofNat 32 (v / 2 ^ 32)) ∧
        (m.size ≠ 3 → m.sx = false ∨ m.size = 2 → u.g t m.reg.toNat = BitVec.ofNat 32 v) ∧
        (m.size = 0 → m.sx = true → u.g t m.reg.toNat = (BitVec.ofNat 8 v).signExtend 32) ∧
        (m.size = 1 → m.sx = true → u.g t m.reg.toNat = (BitVec.ofNat 16 v).signExtend 32)) ∧
      (m.st = true → (∀ b, u.store.read b = s.store.read b) ∧ (∀ i, i < 32 → u.g t i = s.g t i) ∧
        let z := u.advanceTo t (u.hs t + 5)
        (∀ i, i < n → z.store.read (base + i) = byteOf ((s.g t m.reg.toNat).toNat + 2 ^ 32 * (s.g t ((m.reg.toNat + 1) % 32)).toNat) i) ∧
        (∀ b, (b < base ∨ base + n ≤ b) → z.store.read b = s.store.read b)) ∧
      u.ptr t y m.p.toNat = (if m.mode = 1 then (p + n) % 2 ^ 22 else if m.mode = 2 then modstep p md % 2 ^ 22 else p) ∧
      (∀ q j, j < 4 → (q ≠ y ∨ j ≠ m.p.toNat) → u.ptr t q j = s.ptr t q j) ∧
      (∀ mv' : Moves, mv'.x = mv.x → y = false → m.st = false → m.size ≠ 3 → mv'.y.loads = true → mv'.y.reg = m.reg → mv'.y.size ≠ 3 →
        ∃ u', exec (.tcNop t mv') s = .next u' ∧ u'.g t m.reg.toNat = u.g t m.reg.toNat)
/-- The context a slot serves is one of the eligible, and none of them goes before it. A DRAM read that can issue leaves for its port
with the lowest free entry of the request table, its walk one row further. A RESERVE of up to 4 rows leaves while fewer than 2 wait,
and its rows leave the freed semaphore; a context that needs rows while that semaphore is Broken faults. The earliest RESERVE that can
be granted is, and its rows are landing rows from then on. A write slot puts the oldest landing row of its context on its way into the
ring, which 7 handshakes later holds it. A read slot sends the next ring row of its context, and gives its place and credit free. A
RESERVE that has waited is recorded once per task, 0x0403, CONTAINED. A step with nothing to do changes nothing. -/
def Obligations.StreamEngineSteps : Prop :=
  ∀ (s : State) (t : Nat), t < 128 →
    (∀ out cs c, s.seChoose t out cs = some c → c ∈ cs ∧ ∀ d ∈ cs,
      seBefore (if out then s.ctxFree t d else s.ctxFill t d) (s.ctxRate t d) d
        (if out then s.ctxFree t c else s.ctxFill t c) (s.ctxRate t c) c = false) ∧
    (∀ c id, s.seChoose t false (s.dramReady t) = some c → freeReq (s.tile t).se.reqs = some id →
      let a := s.walkAddr t c (s.seCtx t c).walk
      let p := Pkt.make (s.dramPort t a) true t false ptDrd c (a + id * 2 ^ 40) 0
      s.legalDst t p = true → ∃ u, exec (.seDramReadIssue t) s = .next u ∧ Offers s u t p ∧
        (u.tile t).se.reqs = (s.tile t).se.reqs ++ [⟨id, c, a, false, true⟩] ∧
        u.seCtx t c = { s.seCtx t c with walk := (s.seCtx t c).walk + 1, requested := (s.seCtx t c).requested + 1 } ∧
        BytesSame s u ∧ RegsSameBut s u (Reg.SE_STATUS t :: (List.range 8).map (Reg.SE_CTX_STATUS t))) ∧
    (s.dramReady t = [] → exec (.seDramReadIssue t) s = .next s) ∧
    (∀ c : BitVec 3, let k := c.toNat
      let v := s.seCtx t k
      let d := s.ctxDst t k (v.k + (v.reserved + v.granted))
      let n := s.reserveRows t k
      let p := Pkt.make d.1 d.2 t false ptReserve (s.ctxTag t k) (n - 1) 0
      s.ctxState t k = 1 → s.ctxOut t k = true → s.semBroken t (s.ctxSem t k) = false →
      (n ≤ 4 ∧ n ≤ s.semCount t (s.ctxSem t k) ∧ n + v.reserved + v.granted ≤ max (s.ctxFill t k) (v.reserved + v.granted)) ∧
      (0 < n → ((s.tile t).se.sent.filter (fun r => r.dst == d.1 + 128 * d.2.toNat)).length < 2 → s.legalDst t p = true →
        ∃ u, exec (.seReserveSend t c) s = .next u ∧ Offers s u t p ∧
          u.semCount t (s.ctxSem t k) = s.semCount t (s.ctxSem t k) - n ∧
          u.seCtx t k = { v with reserved := v.reserved + n, credited := v.credited + n } ∧
          (u.tile t).se.sent = (s.tile t).se.sent ++ [⟨k, d.1 + 128 * d.2.toNat, n, s.now⟩] ∧
          RegsSameBut s u [Reg.SEM_CNT t (s.ctxSem t k)] ∧ BytesSame s u)) ∧
    (∀ c : BitVec 3, s.ctxState t c.toNat = 1 → s.ctxOut t c.toNat = true →
      (s.seCtx t c.toNat).reserved + (s.seCtx t c.toNat).granted < s.ctxFill t c.toNat →
      s.semBroken t (s.ctxSem t c.toNat) = true → ∃ u, exec (.seReserveSend t c) s = .next u ∧ u.ctxState t c.toNat = 3 ∧
        BytesSame s u ∧ (u.router t).inject = (s.router t).inject) ∧
    (∀ r rest, takeFirst (fun r => s.grantable t r) (s.tile t).se.waiting = some (r, rest) →
      let p := Pkt.make r.src r.skind t false ptGrant r.ctx (r.rows - 1) 0
      s.legalDst t p = true → ∃ u, exec (.seGrantIssue t) s = .next u ∧ Offers s u t p ∧ (u.tile t).se.waiting = rest ∧
        u.seCtx t r.ctx = { s.seCtx t r.ctx with requested := (s.seCtx t r.ctx).requested + r.rows } ∧ BytesSame s u) ∧
    (∀ h ord k (m : BitVec 8) (l : Landing) rest, (s.tile t).evs = [⟨h, ord, k, .seSlot false m⟩] → (s.tile t).flights = [] →
      (s.tile t).mvu.ops = [] → s.hs t ≤ h → h + 7 < 2 ^ 20 → (s.tile t).se.landing = l :: rest → l.ctx < 8 →
      (∀ x ∈ rest, x.ctx = l.ctx) → m.getLsbD l.ctx = true → s.ctxLive t l.ctx = true → s.ctxOut t l.ctx = false →
      0 < s.ctxFree t l.ctx → s.ctxFill t l.ctx < 8191 → ∃ u, exec (.seWriteSlot t) s = .next u ∧ u.hs t = h ∧ BytesSame s u ∧
        (u.tile t).se.landing = rest ∧ u.ctxFill t l.ctx = s.ctxFill t l.ctx + 1 ∧ u.ctxFree t l.ctx = s.ctxFree t l.ctx - 1 ∧
        u.seCtx t l.ctx = { s.seCtx t l.ctx with k := (s.seCtx t l.ctx).k + 1, requested := (s.seCtx t l.ctx).requested - 1 } ∧
        ∀ i, i < 1024 → ((u.advanceTo t (h + 7)).store.read
          (s.storeBase t + s.ringRow t l.ctx (s.seCtx t l.ctx).k % 8192 * 1024 + i)).toNat = Row.byte l.data i) ∧
    (∀ h ord k (m : BitVec 8) c, (s.tile t).evs = [⟨h, ord, k, .seSlot true m⟩] → (s.tile t).flights = [] →
      (s.tile t).mvu.ops = [] → s.hs t ≤ h → h < 2 ^ 20 → s.upsets = [] → c < 8 → m.getLsbD c = true → s.ctxState t c = 1 →
      s.ctxOut t c = true → 0 < (s.seCtx t c).granted → (∀ d, d < 8 → d ≠ c → (s.seCtx t d).granted = 0) → s.ctxKind t c = 1 →
      0 < s.ctxFill t c → s.ctxFree t c < 8191 →
      (∀ v : Row, s.legalDst t (Pkt.make (s.ctxDst t c (s.seCtx t c).k).1 false t false ptPush (s.ctxTag t c) ((s.seCtx t c).k % 2 ^ 32) v) = true) →
      ∃ u v, exec (.seReadSlot t []) s = .next u ∧ u.hs t = h ∧ BytesSame s u ∧
        Offers s u t (Pkt.make (s.ctxDst t c (s.seCtx t c).k).1 false t false ptPush (s.ctxTag t c) ((s.seCtx t c).k % 2 ^ 32) v) ∧
        (∀ i, i < 1024 → Row.byte v i = (s.store.read (s.storeBase t + s.ringRow t c (s.seCtx t c).k % 8192 * 1024 + i)).toNat) ∧
        u.ctxFill t c = s.ctxFill t c - 1 ∧ u.ctxFree t c = s.ctxFree t c + 1 ∧ u.seCtx t c = { s.seCtx t c with
          k := (s.seCtx t c).k + 1, granted := (s.seCtx t c).granted - 1, credited := (s.seCtx t c).credited - 1 }) ∧
    (∀ c : BitVec 3, (∀ r ∈ (s.tile t).se.sent, r.ctx ≠ c.toNat) ∨ (s.tile t).se.timedOut.contains c.toNat = true →
      exec (.reserveTimeout t c) s = .next s) ∧
    (∀ (c : BitVec 3) (r : RsvSent), (s.tile t).se.sent.find? (fun r => r.ctx == c.toNat) = some r →
      (s.tile t).se.timedOut.contains c.toNat = false → ∃ u, exec (.reserveTimeout t c) s = .next u ∧
        (u.tile t).se.timedOut = (s.tile t).se.timedOut ++ [c.toNat] ∧ BytesSame s u ∧
        (s.fwLost = false → s.log.length < 4096 → ∃ x, u.log = s.log ++ [x] ∧ x.code = 0x0403 ∧ x.sev = sevContained ∧ x.idx = t))

/-- A packet that its tile takes. A RESERVE waits in the queue, whose length `RTR_STATUS` shows. A GRANT that answers the oldest RESERVE
makes its rows granted. A PUSH for a context with a reserved row lands; otherwise `SE_DISCARD` counts it. A SIGNAL that is not
stale raises the semaphore, if not Broken or beyond the capacity: in a tile that makes handshakes it is one of the signals of the next
handshake, otherwise at once; `SEM_STALE_SIG` counts a stale one. A SIGACK completes the remote signal
it answers. A DRDR fills its request's landing row, is discarded with a cancelled one, or with its error bit aborts the context. A
DWRA signals the semaphore of its context likewise. A DATA or CTRL packet that is malformed or of another partition is dropped and counted in
`RTR_DROP_PART`, one of another generation in `RTR_DROP_GEN`, where a DRDR still frees its entry of the request table; a RESERVE, GRANT or PUSH of an abandoned attempt in `SE_DISCARD`. An MREQ of the hub reads or
writes a row, and is answered, of a tile whose partition neither is ARMED nor RUNNING; the hub takes an MRSP. -/
def Obligations.PacketsReachATile : Prop :=
  ∀ (s : State) (p : Pkt), let t := p.dst.toNat
    let e := (s.tile t).se
    let rows := p.arg.toNat % 4 + 1
    (Taken s p ptReserve → ∃ u, exec (.reserve p) s = .next u ∧
      (u.tile t).se = { e with waiting := e.waiting ++ [⟨p.src.toNat, p.skind, p.ctx.toNat, rows, p.bt.toNat, true⟩] } ∧
      RegsSameBut s u [Reg.RTR_STATUS t] ∧ u.fld (Reg.RTR_STATUS t) 0 9 = (e.waiting.length + 1) % 512 ∧
      u = { s with regs := u.regs, tiles := u.tiles, delivered := u.delivered }) ∧
    (∀ r rest, Taken s p ptGrant → e.sent = r :: rest → r.dst = srcCode p → r.rows = rows → s.ctxTag t r.ctx = p.ctx.toNat →
      ∃ u, exec (.grant p) s = .next u ∧ (u.tile t).se.sent = rest ∧ RegsSameBut s u [] ∧ u.seCtx t r.ctx = { s.seCtx t r.ctx with
        reserved := (s.seCtx t r.ctx).reserved - rows, granted := (s.seCtx t r.ctx).granted + rows }) ∧
    (Taken s p ptPush →
      let room := s.ctxLive t p.ctx.toNat && !(s.ctxOut t p.ctx.toNat) &&
        decide ((e.landing.filter (fun l => l.ctx == p.ctx.toNat)).length < (s.seCtx t p.ctx.toNat).requested)
      ∃ u, exec (.push p) s = .next u ∧ BytesSame s u ∧
        (room = true → (u.tile t).se.landing = e.landing ++
          [⟨p.ctx.toNat, p.payload, p.bt.toNat == s.fld (Reg.SEQ_BEAT_MS_LO t) 0 2⟩]) ∧
        (room = false → (u.tile t).se = e ∧ u.rd (Reg.SE_DISCARD t) = s.rd (Reg.SE_DISCARD t) + 1)) ∧
    (Taken s p ptSignal →
      let k := p.arg.toNat % 64
      let n := p.arg.toNat / 2 ^ 16 % 2 ^ 12
      let stale := decide (p.arg.toNat / 2 ^ 36 % 2 = 1) && decide (p.arg.toNat / 2 ^ 32 % 16 ≠ s.fld (Reg.SEQ_BEAT_MS_LO t) 0 4)
      ∃ u, exec (.signalPacket p) s = .next u ∧ BytesSame s u ∧
        (stale = true → u.semCount t k = s.semCount t k ∧ u.rd (Reg.SEM_STALE_SIG t) = s.rd (Reg.SEM_STALE_SIG t) + 1) ∧
        (stale = false → s.inBeat t = false → s.semBroken t k = false → s.semCount t k + n ≤ s.semCap t k →
          u.semCount t k = s.semCount t k + n) ∧
        (stale = false → s.inBeat t = false → s.semBroken t k = false → s.semCap t k < s.semCount t k + n →
          u.semCount t k = s.semCount t k) ∧
        (stale = false → s.inBeat t = true → 0 < n → u.semCount t k = s.semCount t k ∧ (u.tile t).evs =
          ((s.tile t).addEv ⟨s.hs t + 1, (s.tile t).order, 0xFFFF, .semSignal k n srcRemote 0xFFFF⟩).evs)) ∧
    (∀ se rest, Taken s p ptSigack → (s.tile t).remoteOut = (p.src.toNat, p.arg.toNat % 64, se) :: rest →
      ∃ u, exec (.sigack p) s = .next u ∧ (u.tile t).remoteOut = rest ∧ RegsSameBut s u [] ∧
        u = { s with tiles := u.tiles, delivered := u.delivered }) ∧
    (∀ r rest, Taken s p ptDrdr → e.reqs = r :: rest → r.id = p.arg.toNat / 2 ^ 40 % 32 → ∃ u, exec (.drdr p) s = .next u ∧
      (u.tile t).se.reqs.length = rest.length ∧ BytesSame s u ∧
      (r.cancelled = false → p.arg.toNat / 2 ^ 47 % 2 = 0 → (u.tile t).se.reqs = rest ∧
        (u.tile t).se.landing = e.landing ++ [⟨r.ctx, p.payload, r.now⟩]) ∧
      (r.cancelled = true → (s.ctxLive t r.ctx = true ∨ s.ctxState t r.ctx = 0) → (u.tile t).se.landing = e.landing ∧
        u.rd (Reg.SE_DISCARD t) = s.rd (Reg.SE_DISCARD t) + 1) ∧
      (r.cancelled = false → p.arg.toNat / 2 ^ 47 % 2 = 1 → r.ctx < 8 → s.ctxLive t r.ctx = true → u.ctxState t r.ctx = 3)) ∧
    (∀ rest, Taken s p ptDwra → e.dwr = (p.ctx.toNat, p.arg.toNat % 2 ^ 40) :: rest → p.arg.toNat / 2 ^ 47 % 2 = 0 →
      let k := s.ctxSem t p.ctx.toNat
      s.ctxLive t p.ctx.toNat = true → s.semBroken t k = false → s.semCount t k < s.semCap t k →
      ∃ u, exec (.dwra p) s = .next u ∧ (u.tile t).se.dwr = rest ∧ BytesSame s u ∧
        (s.inBeat t = false → u.semCount t k = s.semCount t k + 1) ∧
        (s.inBeat t = true → u.semCount t k = s.semCount t k ∧ (u.tile t).evs =
          ((s.tile t).addEv ⟨s.hs t + 1, (s.tile t).order, 0xFFFF, .semSignal k 1 srcSe 0xFFFF⟩).evs)) ∧
    (∀ c ty, (c, ty) ∈ [(Instr.reserve p, ptReserve), (.grant p, ptGrant), (.push p, ptPush),
        (.signalPacket p, ptSignal), (.sigack p, ptSigack), (.drdr p, ptDrdr), (.dwra p, ptDwra)] →
      p.type.toNat = ty → p.dkind = false →
      ((p.formed = false ∨ s.ownsPkt t p = false) → ∃ u, exec c s = .next u ∧ u.tile t = s.tile t ∧ BytesSame s u ∧
        u.rd (Reg.RTR_DROP_PART t) = s.rd (Reg.RTR_DROP_PART t) + 1) ∧
      (p.formed = true → s.ownsPkt t p = true → p.gen.toNat ≠ s.fld (Reg.TILE_PART t) 8 8 → ∃ u, exec c s = .next u ∧
        (u.tile t).se = (if ty = ptDrdr then { e with reqs := e.reqs.filter (fun r => r.id != p.arg.toNat / 2 ^ 40 % 32) } else e) ∧
        BytesSame s u ∧ u.rd (Reg.RTR_DROP_GEN t) = s.rd (Reg.RTR_DROP_GEN t) + 1)) ∧
    (∀ c ty, (c, ty) ∈ [(Instr.reserve p, ptReserve), (.grant p, ptGrant), (.push p, ptPush)] → p.type.toNat = ty → p.dkind = false →
      p.formed = true → s.ownsPkt t p = true → p.gen.toNat = s.fld (Reg.TILE_PART t) 8 8 →
      (s.tile t).abandoned.contains p.bt.toNat = true → ∃ u, exec c s = .next u ∧ u.tile t = s.tile t ∧
        RegsSameBut s u [Reg.SE_DISCARD t] ∧ u.rd (Reg.SE_DISCARD t) = s.rd (Reg.SE_DISCARD t) + 1) ∧
    (∀ soft, p.type.toNat = ptMreq → p.dkind = false → p.formed = true → p.skind = true → p.src = 0x30 →
      let base := s.storeBase t + (Config.mreqRow (p.arg.toNat % 2 ^ 32)).toNat * 1024
      ∃ u r, exec (.mreq p soft) s = .next u ∧ Offers s u t r ∧ r.dst = 0x30 ∧ r.dkind = true ∧ r.src.toNat = t ∧
        r.type.toNat = ptMrsp ∧ r.arg.toNat % 2 ^ 32 = p.arg.toNat % 2 ^ 32 ∧
        (s.mgmtOpen t = false → BytesSame s u) ∧
        (s.mgmtOpen t = true → p.len = 0 → BytesSame s u ∧ (soft = [] → s.upsets = [] → ∀ i, i < 1024 →
          (∀ f ∈ (s.tile t).flights, f.addr + f.bytes.length ≤ base ∨ base + 1024 ≤ f.addr) →
          Row.byte r.payload i = (s.store.read (base + i)).toNat)) ∧
        (s.mgmtOpen t = true → p.len ≠ 0 → (∀ i, i < 1024 → (u.store.read (base + i)).toNat = Row.byte p.payload i) ∧
          ∀ b, (b < base ∨ base + 1024 ≤ b) → u.store.read b = s.store.read b)) ∧
    (exec (.mrsp p) s = .next (if p.type.toNat = ptMrsp ∧ p.dkind = true ∧ p.dst = 0x30 then
      { s with delivered := dropFirst p s.delivered } else s))
/-- Following the output ports of its packet from router to router, a packet for a tile reaches its router within 12 links where the
wraps of the torus may be used everywhere, and within 22 where it is a MGMT packet. Of the candidates of an output port the winner is
one that none goes before by priority and age. A router with nothing waiting changes nothing. A single-flit packet of a tile to
itself, of its own partition, is delivered in one handshake, stamped. A header at the head of the only queue in use moves to the queue
of the neighbour on its route while that has room, nothing else holds it and the neighbour's port is open and accepts the packet;
where the neighbour refuses it, it is dropped there and counted in `RTR_DROP_PART`; at a closed port it is dropped and counted in
`RTR_DROP_FENCED`, and so is what a position without a logical row presents. No probe counts or records here. Every case completes. -/
def Obligations.RoutersForward : Prop :=
  (∀ (s : State) (p : Pkt) (a : Nat), a < 128 → p.dkind = false →
    let next (x : Nat) : Nat := if x = p.dst.toNat then x else (neighbour x (s.routePort x p)).1
    ((∀ x, x < 128 → s.bit (Reg.RTR_PART x) 16 = true) → pktClass p.type.toNat ≠ 2 → next^[12] a = p.dst.toNat) ∧
    (pktClass p.type.toNat = 2 → next^[22] a = p.dst.toNat)) ∧
  (∀ ms ptr l c, pickCand ms ptr l = some c → c ∈ l ∧ ∀ d ∈ l, d.before ms c = false) ∧
  (∀ (s : State) (a : Nat), a < 128 → (∀ q ∈ (s.router a).queues, q.2 = []) → (s.router a).inject = [] → (s.router a).injectEdge = [] →
    (s.router a).entering = [] → exec (.routerFlit a) s = .next s) ∧
  (∀ (s : State) (a : Nat) (p : Pkt), a < 128 → s.router a = { Router.reset with inject := [p] } → p.dst.toNat = a → p.dkind = false →
    p.type.toNat < 10 → pktClass p.type.toNat = 0 → p.len = 0 → s.bit (Reg.RTR_STATUS a) 16 = false → s.bit (Reg.RTR_PART a) 4 = true →
    s.fld (Reg.RTR_PART a) 0 4 = s.fld (Reg.TILE_PART a) 0 4 → (∀ k, k < 4 → s.bit (Reg.PRB_CTRL a k) 0 = false ∧ s.bit (Reg.PRB_CTRL a k) 7 = false) →
    ∃ u, exec (.routerFlit a) s = .next u ∧ u.delivered = s.delivered ++ [s.stamp a 0 p] ∧ (u.router a).inject = [] ∧
      u = { s with routers := u.routers, delivered := u.delivered } ∧
      (s.stamp a 0 p).part.toNat = s.fld (Reg.TILE_PART a) 0 4 ∧ (s.stamp a 0 p).gen.toNat = s.fld (Reg.TILE_PART a) 8 8) ∧
  (∀ (s : State) (a key : Nat) (f : Flit) (rest : List Flit), a < 128 → key < 35 →
    s.router a = { Router.reset with queues := [(key, f :: rest)] } → f.i = 0 →
    let op := s.routePort a f.pkt
    let n := neighbour a op
    let vc := vcOf (pktClass f.pkt.type.toNat) (outB a (key / 5) op (key % 5 == 1 || key % 5 == 3))
    1 ≤ op → op ≤ 4 → (∀ k, k < 4 → ∀ b ∈ [0, 7], s.bit (Reg.PRB_CTRL a k) b = false ∧ s.bit (Reg.PRB_CTRL n.1 k) b = false) →
    (SMap.get (s.router n.1).queues [] (n.2 * 5 + vc)).length < vcRoom vc →
    let open_ := !(s.bit (Reg.RTR_STATUS n.1) (16 + n.2))
    ∃ u, exec (.routerFlit a) s = .next u ∧ SMap.get (u.router a).queues [] key = rest ∧ BytesSame s u ∧
      (open_ = true → s.routerRefuses n.1 f.pkt = false → RegsSameBut s u [] ∧
        SMap.get (u.router n.1).queues [] (n.2 * 5 + vc) = SMap.get (s.router n.1).queues [] (n.2 * 5 + vc) ++ [f]) ∧
      (open_ = true → s.routerRefuses n.1 f.pkt = true → (u.router n.1).queues = (s.router n.1).queues ∧
        u.rd (Reg.RTR_DROP_PART n.1) = s.rd (Reg.RTR_DROP_PART n.1) + 1) ∧
      (open_ = false → (u.router n.1).queues = (s.router n.1).queues ∧
        u.rd (Reg.RTR_DROP_FENCED n.1) = s.rd (Reg.RTR_DROP_FENCED n.1) + 1)) ∧
  (∀ (s : State) (a : Nat) (p : Pkt) (rest : List Pkt), 128 ≤ a → a < 144 → s.fld (Reg.RTR_STATUS a) 16 7 = 0x7F →
    (s.router a).inject = p :: rest → ∃ u, exec (.routerFlit a) s = .next u ∧ (u.router a).inject = rest ∧ BytesSame s u ∧
      u.delivered = s.delivered ∧ u.rd (Reg.RTR_DROP_FENCED a) = s.rd (Reg.RTR_DROP_FENCED a) + 1)

/-- Of every tile, those of the 16 positions without a logical row too: while the scrubber may make an access, with the patrol enabled and no correction queued, a visit moves the position of its half one
word on, from the last word to the first; every byte of the store reads as before; a correctable upset of the visited word is gone
and one of another word stays; and where no word is upset no count changes. A single upset data bit there counts in `ST_CE_COUNT`, an
uncorrectable word in `ST_UE_COUNT`, and it stays. While the patrol is disabled, or a correction is queued, a visit changes nothing.
The write-back rewrites the oldest queued word, whose correctable upsets are gone, and no other. -/
def Obligations.StorePatrol : Prop :=
  ∀ (s : State) (t : Nat), t < 144 →
    (∀ (y : Bool) (soft : List SoftErr), s.scrubAllowed t y = true → s.bit (Reg.ST_CTRL t) 0 = true → (s.tile t).ceQueue = [] →
      let w := s.fld (scrubReg t y) 0 19
      let key := (s.storeBase t + narrowAddr y (8 * w)) / 8
      ∃ u, exec (.storeScrubVisit t y soft) s = .next u ∧ u.fld (scrubReg t y) 0 19 = (w + 1) % 2 ^ 19 ∧ BytesSame s u ∧
        (∀ x ∈ u.upsets, x.word = key → 2 ≤ x.kind) ∧ (∀ x ∈ s.upsets, x.word ≠ key ∨ 2 ≤ x.kind → x ∈ u.upsets) ∧
        (s.upsets = [] → soft = [] → RegsSameBut s u [scrubReg t y, Reg.ST_SCRUB_PASSES t]) ∧
        (∀ x, s.upsets = [x] → soft = [] → x.word = key →
          (x.kind = 0 → u.rd (Reg.ST_CE_COUNT t) = s.rd (Reg.ST_CE_COUNT t) + 1) ∧
          (x.kind = 2 → u.rd (Reg.ST_UE_COUNT t) = s.rd (Reg.ST_UE_COUNT t) + 1 ∧ x ∈ u.upsets))) ∧
    (∀ y soft, s.bit (Reg.ST_CTRL t) 0 = false ∨ (s.tile t).ceQueue ≠ [] → exec (.storeScrubVisit t y soft) s = .next s) ∧
    (∀ w rest, (s.tile t).ceQueue = w :: rest → s.scrubAllowed t (w % 128 / 64 == 1) = true → ∃ u, exec (.storeCorrectionWriteback t) s = .next u ∧
      (u.tile t).ceQueue = rest ∧ (∀ x ∈ u.upsets, x.word = w → 2 ≤ x.kind) ∧
      (∀ x ∈ s.upsets, x.word ≠ w ∨ 2 ≤ x.kind → x ∈ u.upsets) ∧ u = { s with tiles := u.tiles, upsets := u.upsets })
/-- Each command completes; those of the fabric side where one of the sector's spines is not gated. Sixteen beats of a burst pair without bubbles, at a ready port that holds credit for their destination, are
pushed as one row, byte for byte, to the tile of that destination; without credit nothing is pushed. A row whose header leaves the
port is kept for the beat and counted. A pair whose second burst does not come is dropped, counted, and gives its credit back. After the
turnaround the oldest row that has not left the port, the rows to push again first, is offered without a credit. The sixteen beats of
the oldest released row leave for the fabric at clocks with `EP_OUT_READY` high, and none without. A RESERVE is granted while the
staging buffer has room and otherwise waits; a PUSH uses the room granted, and one that finds none is dropped,
as is one of a beat that closed without COMMIT; one of a beat that committed is released at once, and counted; CREDIT adds to its
destination and is reported to a port that is connected. A packet that is malformed, or of another partition, is dropped and counted
in `EDGE_DROP_PART`, one of another generation in `EDGE_DROP_GEN`. -/
def Obligations.EdgePortsPassRows : Prop :=
  ∀ (s : State),
    (∀ (e : Nat) (clocks : List EpClk) (dest : BitVec 6), e < 32 → s.edgeLive e = true → s.sectRuns e = true → (s.edge e).pair = none →
      s.edgeReady e = true → (s.edge e).rows = [] → (s.edge e).waits = false → (s.edge e).offered = false → clocks.length = 16 → (∀ i c, clocks[i]? = some c → c.valid = true ∧ c.sob = decide (i % 8 = 0)) →
      (∀ c, clocks[0]? = some c → c.dest = dest) → s.fld (Reg.EDGE_CTRL e) 0 16 ≠ 0 →
      let n := SMap.get (s.edge e).creditCnt 0 dest.toNat
      (0 < n → ∃ u p, exec (.edgeInPair e clocks) s = .next u ∧ OffersAtEdge s u e p ∧ p.dst.toNat = edgeTile e dest.toNat ∧
        p.dkind = false ∧ p.type.toNat = ptPush ∧ p.ctx.toNat = dest.toNat % 8 ∧
        (∀ i c j, clocks[i]? = some c → j < 512 → p.payload.getLsbD (512 * i + j) = c.data.getLsbD j) ∧
        (u.edge e).rows = [(p, false)] ∧ (u.edge e).offered = true ∧ (u.edge e).retained = (s.edge e).retained ∧ (u.edge e).pair = none ∧
        SMap.get (u.edge e).creditCnt 0 dest.toNat = n - 1 ∧ RegsSameBut s u [Reg.EDGE_STATUS e] ∧ BytesSame s u) ∧
      (n = 0 → ∃ u, exec (.edgeInPair e clocks) s = .next u ∧ u.routers = s.routers ∧ (u.edge e).pair = none ∧ BytesSame s u ∧
        u.rd (Reg.EDGE_NOCREDIT_COUNT e) = s.rd (Reg.EDGE_NOCREDIT_COUNT e) + 1)) ∧
    (∀ e q, e < 32 → (s.edge e).pair = some q → q.second = false → q.beats = 8 → s.bit (Reg.EDGE_CTRL e) 16 = false →
      ∃ u, exec (.edgePairTimeout e) s = .next u ∧ (u.edge e).pair = none ∧ u.routers = s.routers ∧ BytesSame s u ∧
        u.rd (Reg.EDGE_TIMEOUT_COUNT e) = s.rd (Reg.EDGE_TIMEOUT_COUNT e) + 1 ∧ u.bit (Reg.EDGE_ERR e) 1 = true ∧
        (q.credited = true → (s.edgeConnected e = true → Output.edgeCredit e q.dest 1 ∈ u.out) ∧
          SMap.get (u.edge e).creditCnt 0 q.dest = (SMap.get (s.edge e).creditCnt 0 q.dest + 1) % 8192)) ∧
    (∀ e, e < 32 → ∃ u, exec (.edgeRepush e) s = .next u ∧ RegsSameBut s u [] ∧ BytesSame s u ∧
      ((s.edge e).rows = [] → u.edge e = { s.edge e with waits := false } ∧ u.routers = s.routers) ∧
      (∀ r rest, (s.edge e).rows = r :: rest → (s.edge e).offered = false →
        u.edge e = { s.edge e with waits := false, offered := true } ∧ OffersAtEdge s u e r.1)) ∧
    (∀ e p again, e < 32 → (s.edge e).rows = [(p, again)] → (s.edge e).offered = true →
      let u := s.edgeLeft (edgeRouter e) p
      let a := if again then Reg.EDGE_REPUSH_ROWS e else Reg.EDGE_IN_ROWS e
      (u.edge e).retained = (s.edge e).retained ++ [p] ∧ (u.edge e).rows = [] ∧ (u.edge e).offered = false ∧
        u.rd a = s.rd a + 1 ∧ u.routers = s.routers ∧ RegsSameBut s u [a, Reg.EDGE_STATUS e] ∧ BytesSame s u) ∧
    (∀ e r rest, e < 32 → (s.edge e).released = r :: rest → s.edgeConnected e = true → s.sectRuns e = true → (s.edge e).waiting = [] → (s.edge e).outBeat = 0 →
      exec (.edgeOutPair e [false]) s = .next s ∧
      ∃ u, exec (.edgeOutPair e (List.replicate 16 true)) s = .next u ∧ (u.edge e).released = rest ∧ (u.edge e).outBeat = 0 ∧
        (∀ i, i < 16 → Output.edgeBeat e (i % 8 == 0) (r.src % 8) r.ctx (r.data.extractLsb' (512 * i) 512) ∈ u.out) ∧
        u.routers = s.routers ∧ RegsSameBut s u [Reg.EDGE_STATUS e] ∧ BytesSame s u) ∧
    (∀ p : Pkt, let e := p.dst.toNat
      let x := s.edge e
      let src := p.src.toNat
      let c := p.ctx.toNat
      let rows := p.arg.toNat % 4 + 1
      let g : EdgeGrant := ⟨src, c, rows, p.bt.toNat, false, p.gen.toNat⟩
      (TakenAtEdge s p ptReserve → x.waiting = [] → s.ctxKind src c ≠ 3 → s.ctxKind src c ≠ 0 →
        (rows ≤ EdgeSt_room x → ∃ u a, exec (.reserve p) s = .next u ∧ OffersAtEdge s u e a ∧ a.dst = p.src ∧ a.dkind = false ∧
          a.type.toNat = ptGrant ∧ a.ctx = p.ctx ∧ a.arg.toNat % 4 + 1 = rows ∧ (u.edge e).grants = x.grants ++ [g] ∧
          (u.edge e).waiting = [] ∧ RegsSameBut s u [] ∧ BytesSame s u) ∧
        (EdgeSt_room x < rows → ∃ u, exec (.reserve p) s = .next u ∧ u.edge e = { x with waiting := [g], late := (u.edge e).late } ∧ u.routers = s.routers ∧
          RegsSameBut s u [] ∧ BytesSame s u)) ∧
      (TakenAtEdge s p ptPush → x.waiting = [] → x.inLow = (!(s.edgeReady e)) → s.ctxKind src c ≠ 3 →
        (∀ rest, useGrant src c false x.grants = some rest → EdgeSt_outcome x p.bt.toNat = none → ∃ u, exec (.push p) s = .next u ∧
          u.edge e = { x with grants := rest, staged := x.staged ++ [⟨src, c, p.bt.toNat, p.payload⟩] } ∧
          RegsSameBut s u [Reg.EDGE_STATUS e] ∧ BytesSame s u) ∧
        (∀ rest, useGrant src c false x.grants = some rest → EdgeSt_outcome x p.bt.toNat = some 0 → ∃ u, exec (.push p) s = .next u ∧
          u.edge e = { x with grants := rest, released := x.released ++ [⟨src, c, p.bt.toNat, p.payload⟩] } ∧
          u.rd (Reg.EDGE_OUT_ROWS e) = s.rd (Reg.EDGE_OUT_ROWS e) + 1 ∧
          RegsSameBut s u [Reg.EDGE_STATUS e, Reg.EDGE_OUT_ROWS e] ∧ BytesSame s u) ∧
        (∀ o, EdgeSt_outcome x p.bt.toNat = some o → o ≠ 0 → ∃ u, exec (.push p) s = .next u ∧ u.edges = s.edges ∧
          RegsSameBut s u [] ∧ BytesSame s u) ∧
        (useGrant src c false x.grants = none → ∃ u, exec (.push p) s = .next u ∧ u.edges = s.edges ∧ RegsSameBut s u [] ∧
          BytesSame s u)) ∧
      (TakenAtEdge s p ptCredit → s.inChan e src c = none → ∃ u, exec (.credit p) s = .next u ∧
        SMap.get (u.edge e).creditCnt 0 (src % 8 * 8 + c) =
          (SMap.get x.creditCnt 0 (src % 8 * 8 + c) + p.arg.toNat % 8192) % 8192 ∧
        (s.edgeConnected e = true → Output.edgeCredit e (src % 8 * 8 + c) (p.arg.toNat % 8192) ∈ u.out) ∧ RegsSameBut s u [] ∧ BytesSame s u) ∧
      (∀ i ty, (i, ty) ∈ [(Instr.reserve p, ptReserve), (.push p, ptPush), (.credit p, ptCredit), (.drd p, ptDrd), (.dwr p, ptDwr)] →
        p.type.toNat = ty → p.dkind = true → e < 32 →
        ((p.formed = false ∨ s.edgeOwner e ≠ some p.part.toNat) → ∃ u, exec i s = .next u ∧ u.routers = s.routers ∧
          u.dramCh = s.dramCh ∧ BytesSame s u ∧ u.rd (Reg.EDGE_DROP_PART e) = s.rd (Reg.EDGE_DROP_PART e) + 1) ∧
        (p.formed = true → s.edgeOwner e = some p.part.toNat → p.gen.toNat ≠ s.partGen (some p.part.toNat) →
          ∃ u, exec i s = .next u ∧ u.routers = s.routers ∧ u.dramCh = s.dramCh ∧ BytesSame s u ∧
            u.rd (Reg.EDGE_DROP_GEN e) = s.rd (Reg.EDGE_DROP_GEN e) + 1)))

/-- Each command completes. A header that passes its checks opens a load with its permit mask; a bad one ends it with its reason. In a load, SYNC comes first;
WRITE_FRAME, WRITE_REPEAT and ZERO_FILL write their frames and no other; KEY_ROLL keeps the next key and IV; AUTH_TAG opens the next
segment; END, or the AUTH_TAG behind it, makes the sectors loaded. A wrong SYNC word, a segment length past its limit, a count of 0, an address outside R220, a sector
that is not permitted and a wrong tag or digest end the load with their reasons in `CFG_LOAD_ERR` drive CFG_ERR_N low and clear the permitted sectors. A
release passes stage after stage: outputs, then the sectors' write enables, then their resets; a stalled one stays. The scrubber reads the next frame of a loaded sector, and corrects one upset
data bit. The PLL of a column shows its lock in both of its sectors, where its
reference reaches it and no rung keeps it off (then it locks as the rung is left, R333), and the test port returns `CFG_IDCODE` and
writes the eFuse key once, the BBRAM key and the fuses. Chosen: that a header which passes marks its sectors not loaded (log entry 117),
what a design does between two looks at it (98), the reasons of segment lengths (123). -/
def Obligations.ImagesLoadAndStayIntact : Prop :=
  ∀ (s : State), let frame (u : State) (a : Nat) : BitVec 4096 := SMap.get u.cfg.frames 0 a
    let failed (u : State) (l : LoadSt) (r : Nat) : Prop := u.cfg.load = none ∧ u.fld Reg.CFG_LOAD_ERR 0 8 = r ∧ BytesSame s u ∧
      u.boot.cfgErr = true ∧ (∀ k, k < 32 → l.permit.testBit k = true → u.bit Reg.CFG_LOADED k = false) ∧
      ∀ a, frame u a = if l.permit.testBit (faSector a) = true then 0 else frame s a
    let loaded (u : State) (l : LoadSt) : Prop := u.cfg.load = none ∧ u.bit Reg.CFG_STATUS 8 = true ∧
      u.rd Reg.CFG_LOADED = s.rd Reg.CFG_LOADED ||| BitVec.ofNat 32 (hdrSectors l.hdr &&& l.permit) ∧ u.cfg.frames = s.cfg.frames ∧
      BytesSame s u
    (∀ src hdr, s.loadWanted src = true → s.hdrStands src hdr = true →
      (hdrReason s.fuses (s.rd Reg.CFG_IDCODE) (srcKinds src) hdr = none →
        (∀ k, src = .slot k → hdrKind hdr ≠ 0 → s.bootPermit hdr ≠ 0 ∧ hdrSectors hdr = s.bootPermit hdr) →
        ∃ u l, exec (.imageHeader src hdr) s = .next u ∧ u.cfg.load = some l ∧ l.hdr = hdr ∧ l.src = src ∧ l.sync = false ∧
          l.seg = 0 ∧ l.segLen = hdrSeg0 hdr ∧ l.bytes = [] ∧ u.bit Reg.CFG_STATUS 0 = true ∧ u.cfg.frames = s.cfg.frames ∧
          u.rd Reg.CFG_LOADED = s.rd Reg.CFG_LOADED &&& ~~~(BitVec.ofNat 32 (hdrSectors hdr &&& l.permit)) ∧
          (∀ p, src = .load p → l.permit = (s.rd Reg.CFG_PERMIT).toNat) ∧
          (∀ k, src = .slot k → l.permit = if hdrKind hdr = 0 then 0 else s.bootPermit hdr)) ∧
      (∀ k, src = .slot k → hdrReason s.fuses (s.rd Reg.CFG_IDCODE) (srcKinds src) hdr = none → hdrKind hdr ≠ 0 →
        (s.bootPermit hdr = 0 ∨ hdrSectors hdr ≠ s.bootPermit hdr) → ∃ u, exec (.imageHeader src hdr) s = .next u ∧
          u.cfg.load = none ∧ u.fld Reg.CFG_LOAD_ERR 0 8 = 11) ∧
      (∀ r, hdrReason s.fuses (s.rd Reg.CFG_IDCODE) (srcKinds src) hdr = some r → ∃ u, exec (.imageHeader src hdr) s = .next u ∧
        u.cfg.load = none ∧ u.fld Reg.CFG_LOAD_ERR 0 8 = r)) ∧
    (∀ l, s.cfg.load = some l → hdrKind l.hdr ≠ 0 →
      (l.sync = false → (hdrEnc l.hdr = true → segLenOk l.segLen = true) → exec (.sync 0x5AA53C01) s = .next (s.setLoad (some { l with
        sync := true, offset := l.offset + 4, bytes := if hdrEnc l.hdr then [] else l.bytes ++ cmdWord 1 0x5AA53C }))) ∧
      (∀ w, w ≠ 0x5AA53C01 ∨ l.sync = true → ∃ u, exec (.sync w) s = .next u ∧ failed u l 9) ∧
      (l.sync = true → l.ended = false → l.rolled = false →
        (∀ (n : BitVec 24) (addr : BitVec 32) (fs : List (BitVec 4096)), fs.length = n.toNat →
          (hdrEnc l.hdr = true → l.bytes.length + (8 + 512 * n.toNat) ≤ l.segLen) → let a := addr.toNat
          (n ≠ 0 → addrOk a n.toNat = true → l.permit.testBit (faSector a) = true → ∃ u m, exec (.writeFrame n addr fs) s = .next u ∧
            u.cfg.load = some m ∧ m.offset = l.offset + (8 + 512 * n.toNat) ∧ (∀ i f, fs[i]? = some f → frame u (a + i) = f) ∧
            (∀ b, (b < a ∨ a + n.toNat ≤ b) → frame u b = frame s b) ∧ u = { s with regs := u.regs, cfg := u.cfg } ∧
            RegsSameBut s u ((List.range 16).map Reg.CFG_UE_LIST)) ∧
          (n = 0 → ∃ u, exec (.writeFrame n addr fs) s = .next u ∧ failed u l 9) ∧ (n ≠ 0 → addrOk a n.toNat = false → ∃ u, exec (.writeFrame n addr fs) s = .next u ∧ failed u l 10) ∧
          (n ≠ 0 → addrOk a n.toNat = true → l.permit.testBit (faSector a) = false → ∃ u, exec (.writeFrame n addr fs) s = .next u ∧ failed u l 11)) ∧
        (∀ (n : BitVec 24) (f : BitVec 4096) (as : List (BitVec 32)), as.length = n.toNat → n ≠ 0 →
          (hdrEnc l.hdr = true → l.bytes.length + (516 + 4 * n.toNat) ≤ l.segLen) →
          (∀ a ∈ as, addrOk a.toNat 1 = true ∧ l.permit.testBit (faSector a.toNat) = true) →
          ∃ u, exec (.writeRepeat n f as) s = .next u ∧ (∀ a ∈ as, frame u a.toNat = f) ∧
            (∀ b, (∀ a ∈ as, a.toNat ≠ b) → frame u b = frame s b) ∧ u = { s with regs := u.regs, cfg := u.cfg } ∧
            RegsSameBut s u ((List.range 16).map Reg.CFG_UE_LIST)) ∧
        (∀ (n : BitVec 24) (addr : BitVec 32), n ≠ 0 → (hdrEnc l.hdr = true → l.bytes.length + 8 ≤ l.segLen) →
          addrOk addr.toNat n.toNat = true → l.permit.testBit (faSector addr.toNat) = true → ∃ u,
            exec (.zeroFill n addr) s = .next u ∧ u = { s with regs := u.regs, cfg := u.cfg } ∧
            RegsSameBut s u ((List.range 16).map Reg.CFG_UE_LIST) ∧
            ∀ b, frame u b = if addr.toNat ≤ b ∧ b < addr.toNat + n.toNat then 0 else frame s b) ∧
        (∀ key iv, hdrEnc l.hdr = true → l.bytes.length + 48 ≤ l.segLen → ∃ m, exec (.keyRoll 0 key iv) s = .next (s.setLoad (some m)) ∧
          m.rolled = true ∧ m.nextKey = key.toNat ∧ m.nextIv = iv.toNat ∧ m.seg = l.seg ∧ m.offset = l.offset + 48) ∧
        (∀ map, hdrEnc l.hdr = true → l.bytes.length + 4 ≤ l.segLen → ∃ m, exec (.imageEnd 0 [] map) s = .next (s.setLoad (some m)) ∧
          m.ended = true ∧ m.map = map ∧ m.offset = l.offset + 4) ∧
        (∀ map, hdrEnc l.hdr = false → hdrMapOff l.hdr = 0 → let body := l.bytes ++ cmdWord 7 0
          (sha384 body = hdrField l.hdr 112 48 → ∃ u, exec (.imageEnd 0 body map) s = .next u ∧ loaded u l) ∧
          (sha384 body ≠ hdrField l.hdr 112 48 → ∃ u, exec (.imageEnd 0 body map) s = .next u ∧ failed u l 7))) ∧
      (∀ (next : BitVec 24) (tag : BitVec 128) cipher, hdrEnc l.hdr = true → cipher.length = l.segLen →
        let good := gcmTag l.key l.iv (segAad l.hdr l.seg l.segLen) cipher = tag.toNat ∧ aesXor l.key l.iv cipher = l.bytes
        (good → l.rolled = true → l.ended = false → next ≠ 0 → segLenOk next.toNat = true → exec (.authTag next tag cipher) s = .next (s.setLoad (some { l with
          seg := l.seg + 1, key := l.nextKey, iv := l.nextIv, segLen := next.toNat, bytes := [], rolled := false,
          offset := l.offset + 20 }))) ∧
        (good → l.ended = true → hdrMapOff l.hdr = 0 → ∃ u, exec (.authTag 0 tag cipher) s = .next u ∧ loaded u l) ∧
        (good → l.rolled = true → l.ended = false → 2 ^ 20 < next.toNat → ∃ u, exec (.authTag next tag cipher) s = .next u ∧ failed u l 9) ∧
        (l.ended = true → gcmTag l.key l.iv (segAad l.hdr l.seg l.segLen) cipher ≠ tag.toNat → ∃ u, exec (.authTag 0 tag cipher) s = .next u ∧ failed u l 6))) ∧
    (∀ p x, p < 16 → s.part p = some x → x.releasing = true →
      (s.relStage p < 2 → ∃ u, exec (.fabricReleaseStage p) s = .next u ∧ u.relStage p = s.relStage p + 1 ∧
        RegsSameBut s u [Reg.FAB_PART_RELCTL p] ∧ BytesSame s u ∧ (∀ b, b < 4 → x.gpio.getLsbD b = true → u.gpioOn.getLsbD b = true) ∧
        ∀ c ∈ x.cols, ∀ k ∈ [c, 16 + c], (u.sect k).writes = decide (s.relStage p = 1) ∧ (u.sect k).live = false) ∧
      (2 ≤ s.relStage p → ∃ u y, exec (.fabricReleaseStage p) s = .next u ∧ u.relStage p = 3 ∧ u.part p = some y ∧
        y.releasing = false ∧ BytesSame s u ∧ (∀ c ∈ x.cols, ∀ k ∈ [c, 16 + c], (u.sect k).writes = true ∧ (u.sect k).live = true) ∧ ∀ fn, s.loadFn p = some fn → s.fwLost = false → (u.fnMbx fn).running = none) ∧
      (∃ u y, exec (.fabReleaseStall p) s = .next u ∧ u.relStage p = s.relStage p ∧ u.part p = some y ∧ y.releasing = false ∧
        BytesSame s u ∧ (s.fwLost = false → s.log.length < 4096 → ∃ r, u.log = s.log ++ [r] ∧ r.code = 0x0513 ∧
          r.sev = sevContained ∧ r.part = some p))) ∧
    (∀ flips, s.bit Reg.CFG_SCRUB_CTRL 0 = true → let k := s.fld Reg.CFG_SCRUB_POS 16 5
      let f := s.fld Reg.CFG_SCRUB_POS 0 12
      let a := k * 2 ^ 15 + f
      s.scrubReads k = true → s.frameFlips a = 0 → ∃ u, exec (.cfgScrubFrame flips) s = .next u ∧
        u.rd Reg.CFG_SCRUB_POS = BitVec.ofNat 32 (if f + 1 < 3840 then k * 65536 + f + 1 else (k + 1) % 32 * 65536) ∧
        (flips = 0 → RegsSameBut s u [Reg.CFG_SCRUB_POS, Reg.CFG_SCRUB_PASSES] ∧ u.cfg.frames = s.cfg.frames) ∧
        (∀ b, b < 4096 → flips = BitVec.ofNat 4384 (2 ^ b) → u.cfg.frames = s.cfg.frames ∧ u.frameFlips a = 0 ∧
          u.rd Reg.CFG_SEU_CE_COUNT = s.rd Reg.CFG_SEU_CE_COUNT + 1)) ∧
    (∀ k locked ref outs, k < 24 → let off := s.rungFrom (s.pllOwner k) 3
      (locked = false ∨ s.refReaches k ref = true → ∃ u, exec (.pllLock k locked ref outs) s = .next u ∧
        u = { s with regs := u.regs, plls := SMap.set s.plls k ⟨locked && !off, locked && off, ref, outs⟩ } ∧
        (k < 16 → u.bit (Reg.FAB_SECT_PLL k) 0 = (locked && !off) ∧ u.bit (Reg.FAB_SECT_PLL (16 + k)) 0 = (locked && !off)) ∧
        RegsSameBut s u (if k < 16 then [Reg.FAB_SECT_PLL k, Reg.FAB_SECT_PLL (16 + k)] else [])) ∧
      (locked = true → s.refReaches k ref = false → exec (.pllLock k locked ref outs) s = .next s)) ∧
    (∀ key, (s.fuses.efuseKey = none → ∃ u, exec (.testPortAccess (.fuseKey key)) s = .next u ∧
        u.fuses = { s.fuses with efuseKey := some key } ∧ u.bit Reg.CFG_KEY_STATUS 0 = true) ∧
      (s.fuses.efuseKey ≠ none → exec (.testPortAccess (.fuseKey key)) s = .next s) ∧
      ∃ u, exec (.testPortAccess (.bbramKey key)) s = .next u ∧ u.fuses = { s.fuses with bbramKey := some key } ∧
        u.bit Reg.CFG_KEY_STATUS 1 = true) ∧
    (∃ u, exec (.testPortAccess .idcode) s = .next u ∧ u = { s with out := s.out ++ [Output.tap (s.rd Reg.CFG_IDCODE)] }) ∧
    (∃ u, exec (.testPortAccess (.fuse 2)) s = .next u ∧ u.fuses = { s.fuses with encReq := true } ∧
      u.bit Reg.CFG_FUSE_POLICY 2 = true)

/-- Each command completes. A DRD or DWR that a hub takes, in its partition's range and of a channel that serves, queues at the controller
with its port and stream; outside the range it is answered with cause PARTITION, at a channel that does not serve with CHANNEL. A
sector's request queues likewise, its write takes effect at once, and a read that it overtook delivers the bytes and the upsets that stood
there. A DWR of a restarted attempt uses no new room (log entry 132). A slot serves a request that none goes before: it opens the row,
accesses it, or closes another. A forced refresh comes first. A completed read of a tile is answered with the bytes of the DRAM, a write
stores its row and nothing else; a sector's request is answered to the sector. Debts rise; self-refresh is entered, and left for a
request that waits, with a pause that is due first; a pause closes the rows and applies the strobe centre that it found, and one that
cannot start stays due; the patrol queues a read of its next burst, whose completion moves the position on, counts a finding and
corrects a correctable one; a queued correction is written back; idle pages close; a channel reset refuses until it is done, and the
channel then is disabled, held or active. -/
def Obligations.DramServesItsPorts : Prop :=
  ∀ (s : State),
    (∀ p : Pkt, let a := p.arg.toNat % 2 ^ 40
      let e := p.dst.toNat
      let ch := (s.dramLoc a).1
      let ok := s.inRange p.part.toNat a 1024 && a % 1024 == 0 && !(s.dramHole a) && ch / 4 == e / 16
      let queued (u : State) : Prop := (u.dch ch).nextId = (s.dch ch).nextId + 1 ∧
        (u.dch ch).queue = (s.dch ch).queue ++ [{ hubReq s.now p with id := (s.dch ch).nextId }] ∧ RegsSameBut s u [] ∧ BytesSame s u
      let refused (u : State) (cause : Nat) : Prop := ∃ r, u.dramCh = s.dramCh ∧ OffersAtEdge s u e r ∧ r.dst = p.src ∧
        r.dkind = p.skind ∧ r.type.toNat = (if p.type.toNat = ptDrd then ptDrdr else ptDwra) ∧ r.ctx = p.ctx ∧
        r.arg.toNat / 2 ^ 47 % 2 = 1 ∧ r.arg.toNat / 2 ^ 48 = cause ∧ BytesSame s u
      (TakenAtEdge s p ptDrd → ∃ u, exec (.drd p) s = .next u ∧ (ok = true → s.ddrServes ch = true → queued u) ∧
        (ok = false → refused u 2) ∧ (ok = true → s.ddrServes ch = false → refused u 3)) ∧
      (∀ rest, TakenAtEdge s p ptDwr → s.undone p = false → useGrant p.src.toNat p.ctx.toNat true (s.edge e).grants = some rest →
        ∃ u, exec (.dwr p) s = .next u ∧ (u.edge e).grants = rest ∧ (ok = true → s.ddrServes ch = true → queued u) ∧
          (ok = false → refused u 2) ∧ (ok = true → s.ddrServes ch = false → refused u 3)) ∧
      (TakenAtEdge s p ptDwr → s.undone p = true → ∃ u, exec (.dwr p) s = .next u ∧ (u.edge e).grants = (s.edge e).grants ∧
        (ok = true → s.ddrServes ch = true → queued u)) ∧
      (TakenAtEdge s p ptDwr → s.undone p = false → useGrant p.src.toNat p.ctx.toNat true (s.edge e).grants = none →
        ∃ u, exec (.dwr p) s = .next u ∧ u.dramCh = s.dramCh ∧ RegsSameBut s u [] ∧ BytesSame s u)) ∧
    (∀ k (addr : BitVec 40) (wide write : Bool) (stream : BitVec 4) data p, let len := if wide then 1024 else 64
      let ch := (s.dramLoc addr.toNat).1
      let ok := s.inRange p addr.toNat len && !(s.dramHole addr.toNat) && ch / 4 == k / 16
      k < 32 → s.colPart (k % 16) = some p → write.toNat + 1 ≤ s.relStage p → addr.toNat % len = 0 → s.fabOutstanding k < 64 → s.ddrServes ch = true →
      ∃ u, exec (.fabDramRequest k addr wide write stream data) s = .next u ∧ u.store = s.store ∧
        (ok = true → ∃ l q, (u.dch ch).queue = l ++ [q] ∧ l.length = (s.dch ch).queue.length ∧ q.port = 4 ∧
          q.src = k % 16 + 16 * stream.toNat ∧ q.write = write ∧ q.addr = addr.toNat ∧ q.len = len ∧ q.data = data ∧
          q.to_ = .fab s.reqNum ∧ u.fabReqs = s.fabReqs ++ [⟨k / 16, q.src, s.reqNum, none⟩] ∧
          (write = false → l = (s.dch ch).queue ∧ BytesSame s u ∧ RegsSameBut s u []) ∧
          (write = true → (s.dch ch).upsets = [] → let key := ch * 2 ^ 36 + (s.dramLoc addr.toNat).2
            (∀ i, i < len → (u.dram.read (key + i)).toNat = Row.byte data i) ∧
            ∀ a, (a < key ∨ key + len ≤ a) → u.dram.read a = s.dram.read a)) ∧
        (ok = false → u.dramCh = s.dramCh ∧ BytesSame s u ∧
          ((∀ r ∈ s.fabReqs, ¬ (r.hub = k / 16 ∧ r.src = k % 16 + 16 * stream.toNat)) →
            ∃ row, Output.fabricReply k stream.toNat true 2 row ∈ u.out))) ∧
    (∀ ch l q, s.pickReq ch l = some q → q ∈ l ∧ ∀ r ∈ l, s.reqBefore ch r q = false) ∧
    (∀ ch permits idle, s.ddrState ch = 2 → (s.dch ch).due = [] → let x := s.dch ch
      (∀ i, (s.forcedIdx ch).find? (fun i => idle.contains i) = some i → ∃ u, exec (.dramCommandSlot ch permits idle) s = .next u ∧
        SMap.get (u.dch ch).debt 0 i = SMap.get x.debt 0 i - 1 ∧ (∀ r ∈ (u.dch ch).rows, bankDebt r.1 ≠ i) ∧ BytesSame s u ∧
        (ch < 8 → u.rd (Reg.DDR_REF_FORCED ch) = s.rd (Reg.DDR_REF_FORCED ch) + 1)) ∧
      (∀ q, s.forcedIdx ch = [] → x.queue = [q] → q.issued = false → permits.contains q.id = true → let b := s.reqBank ch q
        ∃ u, exec (.dramCommandSlot ch permits idle) s = .next u ∧ u = { s with dramCh := u.dramCh } ∧
          (openRowOf x.rows b = none → u.dch ch = { x with rows := (b, s.reqRow ch q) :: x.rows, queue := [{ q with opened := true }] }) ∧
          (openRowOf x.rows b = some (s.reqRow ch q) → (u.dch ch).queue = [{ q with issued := true }] ∧
            SMap.get (u.dch ch).hist 0 b = (SMap.get x.hist 0 b * 2 + (!q.opened).toNat) % 16) ∧
          (∀ row, openRowOf x.rows b = some row → row ≠ s.reqRow ch q →
            u.dch ch = { x with rows := x.rows.filter (fun r => r.1 != b), queue := [{ q with opened := true }] }))) ∧
    (∀ ch q p, (s.dch ch).queue.find? (fun r => r.id == q.id) = some q → q.issued = true → q.to_ = .tile p → q.port < 4 → q.taken = none →
      (∀ r ∈ (s.dch ch).queue, r.port = q.port → r.src = q.src → q.id ≤ r.id) → q.len = 1024 → let o := (s.dramLoc q.addr).2
      let key := ch * 2 ^ 36 + o
      ∃ u r, exec (.dramRequestComplete ch q.id []) s = .next u ∧ OffersAtEdge s u p.dst.toNat r ∧ r.dst = p.src ∧ r.ctx = p.ctx ∧
        (u.dch ch).queue = (s.dch ch).queue.filter (fun r => r.id != q.id) ∧
        (q.write = false → (s.dch ch).upsets = [] → BytesSame s u ∧ RegsSameBut s u [Reg.DDR_PORT_MISS ch q.port] ∧
          ∀ i, i < 1024 → Row.byte r.payload i = (s.dram.read (key + i)).toNat) ∧
        (q.write = true → o % 64 = 0 → RegsSameBut s u [Reg.DDR_PORT_MISS ch q.port] ∧ u.store = s.store ∧
          (∀ i, i < 1024 → (u.dram.read (key + i)).toNat = Row.byte q.data i) ∧
          ∀ a, (a < key ∨ key + 1024 ≤ a) → u.dram.read a = s.dram.read a)) ∧
    (∀ ch q h src num, (s.dch ch).queue.find? (fun r => r.id == q.id) = some q → q.issued = true → q.to_ = .fab num → q.port = 4 →
      (∀ r ∈ (s.dch ch).queue, r.port = 4 → r.src = q.src → q.id ≤ r.id) → s.fabReqs = [⟨h, src, num, none⟩] →
      ((s.dch ch).upsets = [] → (∀ b v, q.taken = some (b, v) → v = []) → ∃ u row, exec (.dramRequestComplete ch q.id []) s = .next u ∧
        u.fabReqs = [] ∧ BytesSame s u ∧ Output.fabricReply (16 * h + src % 16) (src / 16) false 0 row ∈ u.out) ∧
      (∀ bs b y, q.write = false → q.taken = some (bs, [(b, 2, y)]) → b ∈ burstsOf (s.dramLoc q.addr).2 q.len →
        ∃ u, exec (.dramRequestComplete ch q.id []) s = .next u ∧ u.fabReqs = [] ∧ BytesSame s u ∧ (u.dch ch).upsets = (s.dch ch).upsets ∧
          u.rd (Reg.DDR_UE_COUNT ch) = s.rd (Reg.DDR_UE_COUNT ch) + 1 ∧
          Output.fabricReply (16 * h + src % 16) (src / 16) true 1 (BitVec.ofNat 8192 (ofBytes bs)) ∈ u.out)) ∧
    (∀ ch, ch < 8 → let x := s.dch ch
      let only (u : State) : Prop := u = { s with dramCh := u.dramCh }
      let toState (u : State) (v : Nat) : Prop := u.ddrState ch = v ∧ u = { s with regs := u.regs, dramCh := u.dramCh } ∧
        RegsSameBut s u [Reg.DDR_STATUS ch]
      (s.ddrState ch = 2 ∨ s.ddrState ch = 5 → ∃ u, exec (.refreshInterval ch) s = .next u ∧ only u ∧ (u.dch ch).queue = x.queue ∧
        ∀ i, SMap.get (u.dch ch).debt 0 i = SMap.get x.debt 0 i + (if i < 4 * s.ddrRanks ch then 1 else 0)) ∧
      (s.ddrState ch = 2 → x.waiting = [] → s.fld (Reg.DDR_SR_CTRL ch) 0 14 ≠ 0 → x.held = false → ∃ u,
        exec (.selfRefreshEntry ch) s = .next u ∧ toState u 3 ∧ (u.dch ch).rows = [] ∧ (u.dch ch).debt = [] ∧ (u.dch ch).queue = []) ∧
      (s.ddrState ch = 3 → x.held = false → x.waiting ≠ [] →
        (x.due = [] → ∃ u, exec (.selfRefreshExit ch) s = .next u ∧ toState u 2 ∧ u.dch ch = x) ∧
        (x.due ≠ [] → s.debtNear ch = false → ∃ u, exec (.selfRefreshExit ch) s = .next u ∧ u.ddrState ch = 5 ∧
          (u.dch ch).due = x.due.tail ∧ BytesSame s u)) ∧
      (∀ (rank sub lane : Nat) (margin : BitVec 8) (eye : Bool) (centre : BitVec 16),
        (s.ddrState ch = 2 → s.debtNear ch = false →
          ∃ u, exec (.retrainPause ch rank sub lane margin eye centre) s = .next u ∧ u.ddrState ch = 5 ∧ (u.dch ch).rows = [] ∧
            (u.dch ch).pauseAt = s.now ∧ (u.dch ch).queue = x.queue ∧ BytesSame s u ∧
            (u.dch ch).centre = (if eye then SMap.set x.centre (rank * 2 + sub) centre else x.centre) ∧
            (rank = 0 → sub = 0 → u.fld (Reg.DDR_TRAIN_STATUS ch) 0 8 = margin.toNat)) ∧
        (3 ≤ s.ddrState ch ∨ (s.ddrState ch = 2 ∧ s.debtNear ch = true) → ∃ u,
          exec (.retrainPause ch rank sub lane margin eye centre) s = .next u ∧ only u ∧
            u.dch ch = { x with due := x.due ++ [⟨rank, sub, lane, margin, eye, centre⟩] })) ∧
      (s.ddrState ch = 5 → x.due = [] → ∃ u, exec (.retrainPauseEnd ch) s = .next u ∧ toState u 2 ∧ (u.dch ch).rows = x.rows ∧
        (u.dch ch).queue = x.queue.map (fun q => { q with paused := q.paused + (s.now - max x.pauseAt q.at_) })) ∧
      (s.bit (Reg.DDR_SCRUB_CTRL ch) 31 = true → s.ddrState ch = 2 → x.queue = x.waiting → ∃ u q,
        exec (.dramPatrolRead ch) s = .next u ∧ only u ∧ (u.dch ch).queue = x.queue ++ [q] ∧ q.to_ = .patrol ∧ q.port = 5 ∧
          q.src = 18 ∧ q.write = false ∧ q.len = 64 ∧ q.addr = s.dramAddr ch (s.fld (Reg.DDR_SCRUB_POS ch) 0 30 * 64)) ∧
      (∀ q, x.queue.find? (fun r => r.id == q.id) = some q → q.issued = true → q.to_ = .patrol → q.write = false → q.taken = none → q.len = 64 →
        (∀ r ∈ x.queue, r.port = q.port → r.src = q.src → q.id ≤ r.id) → (s.dramLoc q.addr).2 % 64 = 0 →
        let b := (s.dramLoc q.addr).2 / 64
        (∀ v ∈ x.upsets, v.1 ≠ b) → (∃ u, exec (.dramRequestComplete ch q.id []) s = .next u ∧ BytesSame s u ∧
          u.rd (Reg.DDR_SCRUB_POS ch) = BitVec.ofNat 32 (if s.dramCap ch / 64 ≤ b + 1 then 0 else b + 1) ∧
          RegsSameBut s u [Reg.DDR_SCRUB_POS ch, Reg.DDR_SCRUB_PASSES ch, Reg.DDR_PORT_MISS ch q.port]) ∧
        ∀ f : DramFind, f.burst = 0 → ∃ u, exec (.dramRequestComplete ch q.id [f]) s = .next u ∧ BytesSame s u ∧
          (f.uncorrectable = false → (∀ v ∈ (u.dch ch).upsets, v.1 ≠ b) ∧
            (f.check = false → u.rd (Reg.DDR_CE_COUNT ch) = s.rd (Reg.DDR_CE_COUNT ch) + 1)) ∧
          (f.uncorrectable = true → u.rd (Reg.DDR_UE_COUNT ch) = s.rd (Reg.DDR_UE_COUNT ch) + 1)) ∧
      (∀ b rest, x.wb = b :: rest → s.ddrState ch = 2 → ∃ u, exec (.dramCeWriteback ch) s = .next u ∧ only u ∧
        (u.dch ch).wb = rest ∧ (u.dch ch).upsets = x.upsets.filter (fun v => v.1 != b || decide (2 ≤ v.2.1)) ∧
        (u.dch ch).queue = x.queue) ∧
      (∀ b, ∃ u, exec (.pageIdleClose ch b) s = .next u ∧ only u ∧ u.dch ch = { x with rows := x.rows.filter (fun r => r.1 != b) }) ∧
      (∃ u, exec (.channelReset ch) s = .next u ∧ u.ddrState ch = 6 ∧ u.ddrServes ch = false ∧
        u.bit (Reg.DDR_CTRL ch) 1 = true ∧ (u.dch ch).queue = [] ∧ (u.dch ch).rows = [] ∧ (u.dch ch).debt = [] ∧ BytesSame s u) ∧
      (s.ddrState ch = 6 → x.due = [] → ∃ u, exec (.channelResetDone ch) s = .next u ∧
        u.ddrState ch = (if s.bit (Reg.DDR_CTRL ch) 0 = false then 0 else if x.held then 4 else 2) ∧
        u.bit (Reg.DDR_CTRL ch) 1 = false ∧ BytesSame s u))

/-- Each command completes but where it stops by name. A lane that is not OFF sends its next frame: TRAIN with four copies of a training set whose CRC holds until 4 frames behind
`to_data`, then DATA with its 40 slots, and a lane that is UP bears its training set in an ADAPT flit. A comma lock leads from SEEK to TRAIN. A TRAIN frame with a good copy counts the partner's ready
frames, and takes a new tap request once; the reserved form stops by name; a frame without one begins the count anew. The slots of a DATA
frame reach the port, but for those of a reserved type; a slot that brings no flit makes the port ask for what it expects (log entry
125); a lane without `to_data` takes none, and its FEC counts. A lane that fails to train, and the lanes of a port that goes down, restart. A
port whose lanes are UP at one rate comes up. A good flit acknowledges flits and reports credit, one that fails its CRC
does neither; a NAK has the flits resent; an adaptation flit is taken once; heartbeats and NAKs wait to be sent. Chosen: the order of the
flits in a slot (log entry 35), a lane without reference clock (43), the number of a TRAIN frame's fault (the tap form R244 reserves). -/
def Obligations.LanesAndPortsWork : Prop :=
  ∀ (s : State) (n : Nat), n < 96 →
    let x := s.lane n
    let nrz := s.fld (Reg.TPL_LANE_CTRL n) 1 2 == 2
    let wire (pl : List Byte) : List (BitVec 2) := invertLevels (s.bit (Reg.TPL_LANE_CTRL n) 3) (frameSymbols nrz pl)
    let seqOf (t : List Byte) : Nat := ofBytes ((t.drop 2).take 1)
    let oneLog (u : State) (code : Nat) : Prop := s.fwLost = false → s.log.length < 4096 → ∃ r, r ∈ u.log ∧ r.code = code ∧
      r.sev = sevContained ∧ r.cls = 3 ∧ r.idx = n
    (s.laneState n ≠ 0 →
      (x.toData = none → ∃ u pl, exec (.frameTransmit n) s = .next u ∧ Output.frame n (wire pl) ∈ u.out ∧ pl.length = 5160 ∧
        pl.take 1 = [0] ∧ (pl.drop 2).take 2 = toBytes x.fcount 2 ∧ pl.drop 40 = List.replicate 5120 0 ∧
        (∀ i, i < 4 → let t := (pl.drop (8 + 8 * i)).take 8; ofBytes (t.drop 6) = crc16 (t.take 6)) ∧
        (u.lane n).fcount = (x.fcount + 1) % 65536 ∧ u = { s with lanes := u.lanes, out := u.out, free := u.free }) ∧
      (∀ k, x.toData = some k → 4 ≤ k → x.tx.length = 40 → ∃ u pl, exec (.frameTransmit n) s = .next u ∧
        Output.frame n (wire pl) ∈ u.out ∧ pl.take 1 = [1] ∧ pl.drop 40 = x.tx.flatMap id ∧ (u.lane n).tx = [] ∧
        (u.lane n).fcount = (x.fcount + 1) % 65536 ∧ u = { s with lanes := u.lanes, out := u.out, free := u.free })) ∧
    (∀ k, s.laneState n = 4 → x.toData = some k → 4 ≤ k → x.tx = [] → x.asked = true → s.lanePort n = some n → s.portIsUp n = true →
      s.fld (Reg.TPL_PORT_CTRL n) 1 2 = 0 → ∃ u pl, exec (.frameTransmit n) s = .next u ∧ Output.frame n (wire pl) ∈ u.out ∧
        (pl.drop 40).take 128 = flitBytes ftLctl (s.nextHeader n 0 0 (s.fld Reg.TPL_EPOCH 0 16)).1 (2 :: s.tosOut n)) ∧
    (s.laneState n = 1 → ∃ u, exec (.commaLock n) s = .next u ∧ u.laneState n = 2 ∧ u = { s with regs := u.regs } ∧
      RegsSameBut s u [Reg.TPL_LANE_STATUS n]) ∧
    (∀ f h t rest, (s.laneState n = 2 ∨ s.laneState n = 3) → payloadBytes (s.frameIn n f) 0 40 = some h → h.headD 1 = 0 →
      ([0, 1, 2, 3].map (fun i => (h.drop (8 + 8 * i)).take 8)).filter (fun t => ofBytes (t.drop 6) == crc16 (t.take 6)) = t :: rest →
      (tapReserved (t.headD 0) = true → exec (.trainFrame n f) s = .fault (.unpredictableInDevice 244)) ∧
      (tapReserved (t.headD 0) = false → let ready := decide (ofBytes ((t.drop 4).take 1) / 2 % 2 = 1)
        ∃ u, exec (.trainFrame n f) s = .next u ∧ (u.lane n).peerSeq = some (seqOf t) ∧ u.bit (Reg.TPL_LANE_STATUS n) 5 = ready ∧
          (u.lane n).readyRun = (if ready then x.readyRun + 1 else 0) ∧ BytesSame s u ∧
          (x.peerSeq ≠ some (seqOf t) → (u.lane n).ackSeq = seqOf t ∧ (u.lane n).resp = (s.applyTaps n (t.headD 0)).1 ∧
            u.rd (Reg.TPL_LANE_TAPS n) = (s.applyTaps n (t.headD 0)).2.rd (Reg.TPL_LANE_TAPS n)) ∧
          (x.peerSeq = some (seqOf t) → u.rd (Reg.TPL_LANE_TAPS n) = s.rd (Reg.TPL_LANE_TAPS n)) ∧
          (x.toData = none → ((u.lane n).toData = some 0 ↔ u.laneState n = 3 ∧ ready = true ∧ 15 ≤ x.readyRun)) ∧
          RegsSameBut s u [Reg.TPL_LANE_STATUS n, Reg.TPL_LANE_TAPS n, Reg.TPL_LANE_FEC_CORR n, Reg.TPL_LANE_FEC_UNC n])) ∧
    (∀ f, (s.laneState n = 2 ∨ s.laneState n = 3) → (payloadBytes (s.frameIn n f) 0 40 = none ∨
        ∃ h, payloadBytes (s.frameIn n f) 0 40 = some h ∧ (h.headD 1 ≠ 0 ∨ ∀ i, i < 4 → let t := (h.drop (8 + 8 * i)).take 8
          ofBytes (t.drop 6) ≠ crc16 (t.take 6))) →
      ∃ u, exec (.trainFrame n f) s = .next u ∧ (u.lane n).readyRun = 0 ∧ (u.lane n).peerSeq = x.peerSeq ∧ BytesSame s u ∧
        RegsSameBut s u [Reg.TPL_LANE_STATUS n, Reg.TPL_LANE_FEC_CORR n, Reg.TPL_LANE_FEC_UNC n]) ∧
    (∀ f h, s.laneState n = 4 → payloadBytes (s.frameIn n f) 0 40 = some h → h.headD 0 = 1 → x.rx = [] → s.lanePort n = some n →
      s.portIsUp n = true → s.fld (Reg.TPL_PORT_CTRL n) 1 2 = 0 →
      let slot (j : Nat) : Option (List Byte) := (payloadBytes (s.frameIn n f) (40 + 128 * j) 128).filter (fun b => decide (ofBytes (b.take 1) % 16 < 6))
      let came := (s.port n).rx ++ (List.range 40).filterMap slot
      let y := s.port n
      (∀ b, came.head? = some b → timeReserved b = false) → ∃ u, exec (.dataFrame n f) s = .next u ∧ (u.port n).rx = came ∧
        ((∀ j, j < 40 → slot j ≠ none) → (u.port n).ctl = y.ctl) ∧
        ((∃ j, j < 40 ∧ slot j = none) → (u.port n).nakFor = some y.rxNext ∧
          (u.port n).ctl = if y.nakFor = some y.rxNext then y.ctl else y.ctl ++ [1 :: toBytes (y.rxNext * 4) 2]) ∧
        (u.lane n).rx = [] ∧ (u.lane n).rxAt = ofBytes ((h.drop 2).take 2) ∧ BytesSame s u ∧
        RegsSameBut s u [Reg.TPL_LANE_STATUS n, Reg.TPL_LANE_FEC_CORR n, Reg.TPL_LANE_FEC_UNC n]) ∧
    (∀ f, (s.laneState n = 2 ∨ s.laneState n = 3) → x.toData = none → ∃ u, exec (.dataFrame n f) s = .next u ∧ (u.lane n).readyRun = 0 ∧
      u.rd (Reg.TPL_LANE_FEC_UNC n) = s.rd (Reg.TPL_LANE_FEC_UNC n) +
        BitVec.ofNat 32 ((s.frameIn n f).filter (fun w => w.1.isNone)).length ∧ u.ports = s.ports ∧ BytesSame s u ∧
      RegsSameBut s u [Reg.TPL_LANE_STATUS n, Reg.TPL_LANE_FEC_CORR n, Reg.TPL_LANE_FEC_UNC n]) ∧
    (s.laneState n = 2 ∨ s.laneState n = 3 → ∃ u, exec (.trainFail n) s = .next u ∧ BytesSame s u ∧
      u.laneState n = (if s.bit (Reg.TPL_LANE_CTRL n) 0 && s.boot.refclk.getLsbD (n / 8) then 1 else 0) ∧ u.rd (Reg.TPL_LANE_TAPS n) = tapPreset ∧
      (s.boot.steps.contains 8 = true → u.boot.failedLanes.getLsbD n = true) ∧
      (x.failLogged = false → oneLog u 0x0606)) ∧
    (s.bit (Reg.TPL_PORT_CTRL n) 0 = true → s.portIsUp n = false → s.oneRate n = true →
      (∀ k ∈ s.portLanes n, s.laneState k = 4 ∧ s.laneOwner k = s.laneOwner n) →
      ∃ u, exec (.portUp n) s = .next u ∧ u.portIsUp n = true ∧ u.rd (Reg.TPL_PORT_ACCEPT n) = BitVec.ofNat 32 (s.fld Reg.TPL_EPOCH 0 16) ∧
        u.port n = { PortSt.reset with logged := (s.port n).logged, downSince := none } ∧ BytesSame s u ∧
        RegsSameBut s u [Reg.TPL_PORT_STATUS n, Reg.TPL_PORT_ACCEPT n, Reg.TIME_STATUS]) ∧
    (s.portIsUp n = true → n % s.portWidth n = 0 → s.portChans n = [] → s.timeUp n = false → (∀ q ∈ (s.port n).waiting, ∀ f ∈ q.2, f.src = none) →
      (∀ c : BitVec 3, ∃ u, exec (.portDown n c) s = .next u ∧ u.rd (Reg.TPL_PORT_STATUS n) = BitVec.ofNat 32 (2 * c.toNat) ∧
        u.port n = { PortSt.reset with logged := (s.port n).logged, window := (s.port n).window, downSince := some s.now } ∧ oneLog u 0x0601 ∧ BytesSame s u ∧
        ∀ k ∈ s.portLanes n, u.laneState k = (if s.bit (Reg.TPL_LANE_CTRL k) 0 && s.boot.refclk.getLsbD (k / 8) then 1 else 0)) ∧
      (8 ≤ (s.port n).naks.2 → ∃ u, exec (.replayLimit n) s = .next u ∧ u.rd (Reg.TPL_PORT_STATUS n) = 6 ∧ BytesSame s u ∧
        (s.log.length < 4095 → oneLog u 0x0603))) ∧
    (s.portIsUp n = true → (∀ b ∈ (s.port n).rx, timeReserved b = false) → let y := s.port n
      let waits (u : State) (b : List Byte) : Prop := u = { s with ports := u.ports } ∧
        (u.port n).ctl = y.ctl ++ [b] ∧ (u.port n).replay = y.replay ∧ (u.port n).waiting = y.waiting
      let acked (u : State) (h : FlitHdr) : Prop := (u.port n).replay = ackReplay h.ack.toNat y.replay ∧
        SMap.get (u.port n).peerCrn 0 h.crvc.toNat = h.crn.toNat ∧ (u.port n).waiting = y.waiting ∧ BytesSame s u
      (∃ u, exec (.heartbeatSend n) s = .next u ∧ waits u [0]) ∧
      (y.nakFor = some y.rxNext → ∃ u, exec (.nakRepeat n) s = .next u ∧ waits u (1 :: toBytes (y.rxNext * 4) 2)) ∧
      (∀ h, ∃ u, exec (.idleFlit n h true) s = .next u ∧ acked u h ∧ u = { s with ports := u.ports }) ∧
      (∀ h, ∃ u, exec (.lctlHeartbeat n h true) s = .next u ∧ acked u h ∧ u = { s with ports := u.ports }) ∧
      (∀ h, ∃ u, exec (.idleFlit n h false) s = .next u ∧ u = { s with ports := u.ports } ∧ u.port n = { y with rx := (u.port n).rx }) ∧
      (∀ h, ∃ u, exec (.lctlHeartbeat n h false) s = .next u ∧ u = { s with ports := u.ports } ∧
        u.port n = { y with rx := (u.port n).rx }) ∧
      (∀ h (want : BitVec 12), let again := fromSeq want.toNat (ackReplay h.ack.toNat y.replay)
        ∃ u, exec (.lctlNak n h true want) s = .next u ∧ acked u h ∧ (u.port n).resend = again ∧
          (again = [] → u = { s with ports := u.ports }) ∧
          (again ≠ [] → u.rd (Reg.TPL_PORT_REPLAYS n) = s.rd (Reg.TPL_PORT_REPLAYS n) + 1)) ∧
      (∀ k h (tos : BitVec 64), let t := toBytes tos.toNat 8
        k ∈ s.portLanes n → s.laneState k = 4 → ofBytes (t.drop 6) = crc16 (t.take 6) →
        (tapReserved (t.headD 0) = true → exec (.lctlAdapt n k h true tos) s = .fault (.unpredictableInDevice 244)) ∧
        (tapReserved (t.headD 0) = false → ∃ u, exec (.lctlAdapt n k h true tos) s = .next u ∧ acked u h ∧
          (u.lane k).peerSeq = some (seqOf t) ∧ RegsSameBut s u [Reg.TPL_LANE_TAPS k] ∧
          (ofBytes ((t.drop 3).take 1) = (s.lane k).reqSeq → (u.lane k).asked = false) ∧
          ((s.lane k).peerSeq = some (seqOf t) → (u.lane k).resp = (s.lane k).resp ∧ RegsSameBut s u []) ∧
          ((s.lane k).peerSeq ≠ some (seqOf t) → (u.lane k).resp = (s.applyTaps k (t.headD 0)).1 ∧ (u.lane k).ackSeq = seqOf t))))

/-- Each command completes. A DATA flit, an HDATA flit with hops 0 and an EDATA flit of this endpoint, in order, good, of the current epoch, on an unfenced
device, are accepted: row data joins the channel's bytes, whole rows enter it, records wait; what names no such channel is dropped and
counted. With hops left an HDATA flit waits in its through-port, one hop less. A flit out of order or with a bad CRC reaches no
channel. COMMIT and GAP markers close items, and where the channel's partition then discards, the producer gets credit for a whole item (R48);
what a bridge may not move is dropped, counted and logged (R257). CREDIT, less rows that a restart took ahead of it (log entry 132), raises the producer's credit. A resolved channel consumes its data item, signals
the filled semaphore once every row is in the ring, and an expected gap aborts the beat of its partition. The accept window closes,
and the device fences itself when every upstream port has been down for the timeout. -/
def Obligations.ChannelsCarryRows : Prop :=
  ∀ (s : State),
    (∀ (n : Nat) (h : FlitHdr) (b : ChanBody), n < 96 → s.portIsUp n = true → h.epoch.toNat = s.fld Reg.TPL_EPOCH 0 16 →
      s.fenced = false → h.seq.toNat = (s.port n).rxNext → (∀ f ∈ (s.port n).rx, timeReserved f = false) →
      let c := b.chan.toNat
      let x := s.chan c
      let took (u : State) : Prop := (u.port n).rxNext = (h.seq.toNat + 1) % 4096 ∧ (u.port n).ack = h.seq.toNat ∧
        (u.port n).nakFor = none ∧ (u.port n).replay = ackReplay h.ack.toNat (s.port n).replay ∧ BytesSame s u
      let bound := s.chanOn c && s.chanPort c == n && s.chanState c != 2
      let accepted (u : State) : Prop := took u ∧
        SMap.get (u.port n).crn 0 h.vc.toNat = (SMap.get (s.port n).crn 0 h.vc.toNat + 1) % 4096 ∧
        (bound = true → s.chanOut c = false → b.marker = false → x.bytes.length + min b.len.toNat 112 < 1024 →
          u.chan c = { x with bytes := x.bytes ++ (toBytes b.data.toNat 112).take (min b.len.toNat 112) } ∧
          RegsSameBut s u [Reg.TPL_PORT_ACCEPT n]) ∧
        (∀ bytes, bytes = x.bytes ++ (toBytes b.data.toNat 112).take (min b.len.toNat 112) → bound = true → s.chanOut c = false →
          b.marker = false → 1024 ≤ bytes.length → (if x.rowsIn = 0 then s.discards c else x.skip) = false → s.chanOwned c = true →
          x.avail = 0 → (u.chan c).bytes = bytes.drop 1024 ∧ (u.chan c).rowsIn = x.rowsIn + 1 ∧
            (u.chan c).rows = x.rows ++ [(BitVec.ofNat 8192 (ofBytes (bytes.take 1024)), 0)] ∧
            u.rd (Reg.CHN_ROWS c) = s.rd (Reg.CHN_ROWS c) + 1) ∧
        (bound = true → b.marker = true → (recordOf b).1 ≤ 2 → s.chanOut c = decide ((recordOf b).1 = 2) →
          u.chan c = { x with inbox := x.inbox ++ [recordOf b] } ∧ RegsSameBut s u [Reg.TPL_PORT_ACCEPT n]) ∧
        (bound = false ∨ s.chanOut c ≠ (b.marker && (recordOf b).1 == 2) → u.chans = s.chans ∧
          u.rd (Reg.TPL_PORT_DROPS n) = s.rd (Reg.TPL_PORT_DROPS n) + 1)
      (∃ u, exec (.dataFlit n h true b) s = .next u ∧ accepted u) ∧
      (b.route.toNat % 256 = 0 → ∃ u, exec (.hdataFlit n h true b) s = .next u ∧ accepted u) ∧
      (b.route.toNat = s.fld Reg.TPL_EP_ID 0 16 → ∃ u, exec (.edataFlit n h true b) s = .next u ∧ accepted u) ∧
      (b.route.toNat ≠ s.fld Reg.TPL_EP_ID 0 16 → ∃ u, exec (.edataFlit n h true b) s = .next u ∧ took u ∧ u.chans = s.chans ∧
        u.rd (Reg.TPL_PORT_DROPS n) = s.rd (Reg.TPL_PORT_DROPS n) + 1) ∧
      (∀ q, b.route.toNat % 256 ≠ 0 → s.thruPort n = some q → q ≠ n → ∃ u f, exec (.hdataFlit n h true b) s = .next u ∧ took u ∧
        u.chans = s.chans ∧ SMap.get (u.port q).waiting [] h.vc.toNat = SMap.get (s.port q).waiting [] h.vc.toNat ++ [f] ∧
        f.type = ftHdata ∧ f.vc = h.vc.toNat ∧ f.epoch = h.epoch.toNat ∧ f.src = some n ∧
        f.body = chanBytes { b with route := BitVec.ofNat 16 (b.route.toNat % 256 - 1) }) ∧
      (b.route.toNat % 256 ≠ 0 → s.thruPort n = none → ∃ u, exec (.hdataFlit n h true b) s = .next u ∧ took u ∧
        u.chans = s.chans ∧ u.rd (Reg.TPL_PORT_DROPS n) = s.rd (Reg.TPL_PORT_DROPS n) + 1)) ∧
    (∀ (n : Nat) (h : FlitHdr) (b : ChanBody) (crc : Bool), n < 96 → (∀ f ∈ (s.port n).rx, timeReserved f = false) →
      crc = false ∨ h.seq.toNat ≠ (s.port n).rxNext →
      let dropped (u : State) : Prop := u = { s with ports := u.ports } ∧ (u.port n).rxNext = (s.port n).rxNext
      (∃ u, exec (.dataFlit n h crc b) s = .next u ∧ dropped u) ∧ (∃ u, exec (.hdataFlit n h crc b) s = .next u ∧ dropped u) ∧
      ∃ u, exec (.edataFlit n h crc b) s = .next u ∧ dropped u) ∧
    (∀ c (tag : BitVec 48) (rows : BitVec 13), c < 256 → let x := s.chan c
      let skips := if x.rowsIn = 0 then s.discards c else x.skip
      let closes (u : State) (gap : Bool) : Prop := (u.chan c).items = x.items ++ [⟨gap, tag.toNat, rows.toNat, false⟩] ∧
        (u.chan c).rowsIn = 0 ∧ (u.chan c).rows = x.rows ∧ (u.chan c).inbox = dropRecord (gap.toNat, tag.toNat, rows.toNat) x.inbox ∧
        (((s.pstate (s.chanOwner c) = psFrozen ∨ s.pstate (s.chanOwner c) = psRecovering) → 1 ≤ x.items.length → s.chanState c = 1 →
          (u.chan c).credited = max x.credited (s.chanItemRows c))) ∧ RegsSameBut s u [Reg.CHN_STATUS c] ∧ BytesSame s u
      let stopped (u : State) (kind : Nat) : Prop := (u.chan c) = { x with inbox := dropRecord (kind, (if kind = 2 then 0 else tag.toNat), rows.toNat) x.inbox } ∧
        (s.chanEdge c < 32 → u.rd (Reg.EDGE_DROP_PART (s.chanEdge c)) = s.rd (Reg.EDGE_DROP_PART (s.chanEdge c)) + 1) ∧
        (s.fwLost = false → s.log.length < 4096 → (s.edge (s.chanEdge c)).logged.contains 0x0401 = false → ∃ r ∈ u.log, r.code = 0x0401 ∧ r.idx = s.chanEdge c) ∧ BytesSame s u
      let discarded (u : State) : Prop := (u.chan c).items = x.items ∧
        u.rd (Reg.PART_HOLD_DROP (s.chanOwner c)) = s.rd (Reg.PART_HOLD_DROP (s.chanOwner c)) + 1 ∧ BytesSame s u
      (s.chanOn c = true → s.chanOwned c = false → (∃ u, exec (.commitMarker c tag rows) s = .next u ∧ stopped u 0) ∧
        (∃ u, exec (.gapMarker c tag rows) s = .next u ∧ stopped u 1) ∧ ∃ u, exec (.creditRecord c rows) s = .next u ∧ stopped u 2) ∧
      (s.takesMarker c = true → s.chanOwned c = true → s.isBeatIn c = false →
        (skips = false → ∃ u, exec (.commitMarker c tag rows) s = .next u ∧ closes u false) ∧
        (skips = false → s.rests (s.chanOwner c) = false → ∃ u, exec (.gapMarker c tag rows) s = .next u ∧ closes u true) ∧
        (skips = true → ∃ u, exec (.commitMarker c tag rows) s = .next u ∧ discarded u) ∧
        (skips = true → ∃ u, exec (.gapMarker c tag rows) s = .next u ∧ discarded u)) ∧
      (s.chanOwned c = true → s.chanOut c = true → s.chanState c ≠ 2 → (s.edge (s.chanEdge c)).waiting = [] →
        ∃ u, exec (.creditRecord c rows) s = .next u ∧ u.chanCredit c = (s.chanCredit c + (rows.toNat - x.debt)) % 8192 ∧
          (u.chan c).debt = x.debt - rows.toNat ∧ (u.chan c).inbox = dropRecord (2, 0, rows.toNat) x.inbox ∧ RegsSameBut s u [Reg.CHN_STATUS c] ∧ BytesSame s u) ∧
      (∀ q i rest, s.part (s.chanOwner c) = some q → s.pstate (s.chanOwner c) = psRunning → q.beatOpen = true → s.chanOn c = true →
        s.chanOut c = false → s.chanState c = 1 → s.isBeatIn c = true → x.resolved = false → x.items = i :: rest →
        let e := (q.openMs + 2 ^ 48 - 1) % 2 ^ 48
        let t := s.chanTile c
        let early := (s.seCtx t (s.chanCtx c)).early
        let k := s.ctxSem t (s.chanCtx c)
        (i.gap = false → ∃ u, exec (.channelItemConsume c) s = .next u ∧ (u.chan c).items = { i with consumed := true } :: rest ∧
          (u.chan c).resolved = true ∧ BytesSame s u ∧ (early < i.rows → RegsSameBut s u [Reg.CHN_STATUS c]) ∧
          (i.rows ≤ early → s.semBroken t k = false → s.semCount t k < s.semCap t k → u.semCount t k = s.semCount t k + 1 ∧
            RegsSameBut s u [Reg.CHN_STATUS c, Reg.SEM_CNT t k])) ∧
        (i.gap = true → i.tag = e →
          ∃ u y, exec (.channelItemConsume c) s = .next u ∧ (u.chan c).items = { i with consumed := true } :: rest ∧ (u.chan c).resolved = true ∧
            u.part (s.chanOwner c) = some y ∧ y.gapAbort = true ∧ (∀ a, u.dram.read a = s.dram.read a) ∧
            ∀ j ∈ s.partTiles (s.chanOwner c), (u.tile j).stopped = true ∧ (u.tile j).tc.stopped = true))) ∧
    (∀ n w, n < 96 → (s.port n).window = some w → ∃ u, exec (.acceptWindowClose n) s = .next u ∧
      u.fld (Reg.TPL_PORT_ACCEPT n) 0 16 = s.fld Reg.TPL_EPOCH 0 16 ∧ u.port n = { s.port n with window := none } ∧
      RegsSameBut s u [Reg.TPL_PORT_ACCEPT n] ∧ u = { s with regs := u.regs, ports := u.ports }) ∧
    (s.fenced = false → (∃ n, n < 96 ∧ s.bit (Reg.TPL_PORT_CTRL n) 0 = true ∧ s.bit (Reg.TPL_PORT_CTRL n) 3 = true) →
      (∀ n, n < 96 → s.bit (Reg.TPL_PORT_CTRL n) 0 = true → s.bit (Reg.TPL_PORT_CTRL n) 3 = true → s.portIsUp n = false) →
      ∃ u, exec .upstreamFenceTimeout s = .next u ∧ u.fenced = true ∧ u.fld Reg.TPL_FENCE 1 2 = 1 ∧
        (∀ n, (u.port n).waiting = []) ∧ BytesSame s u)

/-- A DELAY_REQ for this device, accepted as R252 says, is answered out of its port with the times, `corr`, `dist` and endpoints of R325
and R327; a TIME flit with hops left waits in the through-port, one hop less. A response to a request of a follower gives its offset
and delay by the formulas of R326; below 1 µs it slews; one replayed, or past 4 µs
of `t1`, counts as lost, and a fourth lost one in a row loses the source: LOCKED enters HOLDOVER at its averaged trim, any other state FREE.
A lost reference leads a head from LOCKED to HOLDOVER and from ACQUIRE to FREE, its return to ACQUIRE, eight seconds within 2 ns or a
locked frequency to LOCKED. An edge of `PPS_IN` comes at the Route time that its phase says, and in ACQUIRE and LOCKED it is slewed out, or
stepped where it is 1 µs or more and every partition is STOPPED; a unit in HOLDOVER keeps its trim.
Reading the low word latches the others; `PPS_OUT` pulses at whole seconds, and stays low while fenced or in reset. Chosen: the average's rounding (log entry 24), how Route time
follows commands that name an instant (138), a fence that keeps HOLDOVER (71). -/
def Obligations.TimeIsKept : Prop :=
  ∀ (s : State), let st (u : State) : Nat := u.fld Reg.TIME_STATUS 0 3
    (∀ (n : Nat) (h : FlitHdr) (m : TimeMsg) (now : Nat), n < 96 → s.portIsUp n = true → h.epoch.toNat = s.fld Reg.TPL_EPOCH 0 16 →
      s.fenced = false → h.seq.toNat = (s.port n).rxNext → (∀ f ∈ (s.port n).rx, timeReserved f = false) →
      let took (u : State) : Prop := (u.port n).rxNext = (h.seq.toNat + 1) % 4096 ∧ (u.port n).ack = h.seq.toNat ∧
        u.time = (s.timeTo now).time ∧ BytesSame s u
      (m.hops = 0 → (m.dstEp = 0xFFFF ∨ m.dstEp.toNat = s.fld Reg.TPL_EP_ID 0 16) → ∃ u f r, exec (.delayReq n h true m now) s = .next u ∧
        took u ∧ SMap.get (u.port n).waiting [] 1 = SMap.get (s.port n).waiting [] 1 ++ [f] ∧ f.type = ftTime ∧
        f.body = timeBytes 1 r ∧ r.hops = m.hops0 ∧ r.seq = m.seq ∧ r.ta.toNat = now / 65536 % 2 ^ 64 ∧ r.taFrac.toNat = now % 65536 ∧
        r.reqCorr = m.corr ∧ r.corr = 0 ∧ r.dstEp = m.srcEp ∧ r.flags.getLsbD 0 = (st s == 3) ∧ r.flags.getLsbD 2 = (st s == 2) ∧
        r.flags.getLsbD 1 = !(s.bit Reg.TIME_CTRL 0) ∧ (s.bit Reg.TIME_CTRL 0 = false → r.dist = 0) ∧
        RegsSameBut s u [Reg.TPL_PORT_ACCEPT n]) ∧
      (∀ q i kind, m.hops ≠ 0 → s.thruPort n = some q → q ≠ n →
        (i, kind) ∈ [(Instr.delayReq n h true m now, 0), (.delayResp n h true m now false, 1)] → ∃ u f, exec i s = .next u ∧ took u ∧
          SMap.get (u.port q).waiting [] h.vc.toNat = SMap.get (s.port q).waiting [] h.vc.toNat ++ [f] ∧ f.type = ftTime ∧
          f.src = some n ∧ f.body = timeBytes kind { m with hops := m.hops - 1 } ∧ u.timeUnit = s.timeUnit) ∧
      (∀ x, m.hops = 0 → m.dstEp = 0xFFFF → s.bit Reg.TIME_CTRL 0 = true → n = s.upPort →
        s.timeUnit.sent.find? (fun x => x.1 == m.seq.toNat) = some x →
        let t1 : Int := x.2
        let t4 : Int := now
        let t2 : Int := m.ta.toNat * 65536 + m.taFrac.toNat
        let t3 : Int := m.tb.toNat * 65536 + m.tbFrac.toNat
        let phi := (((t4 - t3) - (t2 - t1) - m.corr.toNat + m.reqCorr.toNat) * 1000 + (s.rd Reg.TIME_ASYM).toInt * 65536) / 2
        let delay := ((t2 - t1) + (t4 - t3) - m.reqCorr.toNat - m.corr.toNat) * 1000 / 2
        (phi.natAbs < 1000000 * 65536 → now ≤ x.2 + 4000 * 65536 → ∃ u, exec (.delayResp n h true m now false) s = .next u ∧ took u ∧
          u.timeUnit.slew = -(phi / 1000) ∧ u.timeUnit.lost = 0 ∧ (∀ y ∈ u.timeUnit.sent, y ≠ x) ∧
          (phi % 65536 = 0 → u.rd Reg.TIME_OFFSET = BitVec.ofInt 32 (phi / 65536)) ∧
          (delay % 65536 = 0 → u.rd Reg.TIME_DELAY = BitVec.ofInt 32 (delay / 65536)) ∧
          u.fld Reg.TIME_STATUS 8 8 = min 255 (m.dist.toNat + 1) ∧ u.bit Reg.TIME_STATUS 4 = m.flags.getLsbD 0) ∧
        ∀ late, (late = true ∨ x.2 + 4000 * 65536 < now) → ∃ u, exec (.delayResp n h true m now late) s = .next u ∧ took u ∧ u.timeUnit.lost = s.timeUnit.lost + 1 - (if 3 ≤ s.timeUnit.lost then
          s.timeUnit.lost + 1 else 0) ∧ u.timeUnit.slew = s.timeUnit.slew ∧ st u = (if s.timeUnit.lost < 3 then st s else if st s = 2 then 3 else 0))) ∧
    (s.bit Reg.TIME_CTRL 0 = true → s.fenced = false → s.timeRuns = true → s.portIsUp s.upPort = true → ∃ u f m,
      exec .timeExchangeSend s = .next u ∧ SMap.get (u.port s.upPort).waiting [] 1 = SMap.get (s.port s.upPort).waiting [] 1 ++ [f] ∧
      f.type = ftTime ∧ f.body = timeBytes 0 m ∧ m.seq = BitVec.ofNat 8 s.timeUnit.seqNo ∧
      m.hops = BitVec.ofNat 8 (s.fld Reg.TIME_EXCH_CTRL 24 8) ∧ m.hops0 = m.hops ∧
      (s.bit Reg.TIME_EXCH_EP 16 = false → m.dstEp = 0xFFFF ∧ m.srcEp = 0xFFFF) ∧
      u.timeUnit = { s.timeUnit with seqNo := (s.timeUnit.seqNo + 1) % 256 } ∧ u = { s with ports := u.ports, timeUnit := u.timeUnit }) ∧
    (∀ x rest, s.timeUnit.sent = x :: rest → ∃ u, exec .exchangeLost s = .next u ∧ u.timeUnit.sent = rest ∧ u.timeUnit.good = 0 ∧
      BytesSame s u ∧ (s.timeUnit.lost < 3 → u.timeUnit.lost = s.timeUnit.lost + 1 ∧ u = { s with timeUnit := u.timeUnit }) ∧
      (3 ≤ s.timeUnit.lost → st u = (if st s = 2 then 3 else 0) ∧ u.timeUnit.lost = 0 ∧ (st s = 2 → u.rd Reg.TIME_FREQ = s.meanTrim))) ∧
    (∀ pps : Bool, let b := if pps then 6 else 5
      (∃ u, exec (.refLost pps) s = .next u ∧ u.bit Reg.TIME_STATUS b = false ∧ BytesSame s u ∧ st u =
        (if s.usesRef pps = true ∧ st s = 2 then 3 else if s.usesRef pps = true ∧ st s = 1 then 0 else st s) ∧
        (s.usesRef pps = true → st s = 2 → s.fwLost = false → s.log.length < 4095 → ∃ x y, u.log = s.log ++ [x, y] ∧ x.code = 0x0A01 ∧
          y.code = 0x0A02 ∧ x.sev = sevContained ∧ y.sev = sevContained)) ∧
      (∃ u, exec (.refReturn pps) s = .next u ∧ u.bit Reg.TIME_STATUS b = true ∧ RegsSameBut s u [Reg.TIME_STATUS] ∧
        u = { s with regs := u.regs } ∧ st u = if s.usesRef pps = true ∧ s.fenced = false ∧ (st s = 0 ∨ st s = 3) then 1 else st s)) ∧
    (∀ phase : Int, s.usesRef true = true → s.timeRuns = true → s.bit Reg.TIME_STATUS 6 = true → s.boot.por = false → s.fenced = false →
      let edge := s.ppsTime phase
      (s.time ≤ edge ∧ edge < s.time + 65536000000000 ∧ ((edge : Int) - phase * 65536 / 1000) % 65536000000000 = 0) ∧
      (st s = 3 → ∃ u, exec (.ppsInEdge phase) s = .next u ∧ u = { s with time := edge % 2 ^ 80, regs := u.regs } ∧ RegsSameBut s u []) ∧
      (st s = 1 ∨ st s = 2 → phase.natAbs < 1000000 → ∃ u, exec (.ppsInEdge phase) s = .next u ∧ u.time = edge % 2 ^ 80 ∧ BytesSame s u ∧
        u.timeUnit = { s.timeUnit with slew := -(phase * 65536 / 1000), good := if phase.natAbs ≤ 2000 then s.timeUnit.good + 1 else 0, trims := u.timeUnit.trims } ∧
        u.rd Reg.TIME_OFFSET = BitVec.ofInt 32 phase ∧
        st u = (if st s = 1 ∧ phase.natAbs ≤ 2000 ∧ 7 ≤ s.timeUnit.good then 2 else st s) ∧
        RegsSameBut s u [Reg.TIME_STATUS, Reg.TIME_OFFSET, Reg.TIME_FREQ]) ∧
      (st s = 1 ∨ st s = 2 → 1000000 ≤ phase.natAbs → (∀ q ∈ s.parts, s.pstate q.1 = psStopped) → ∃ u, exec (.ppsInEdge phase) s = .next u ∧
        (u.time : Int) = ((edge % 2 ^ 80 : Nat) - phase * 65536 / 1000) % 2 ^ 80 ∧ u.timeUnit.slew = 0 ∧ u.msCount = u.msOfTime ∧
        (∀ p, p < 16 → u.bit (Reg.PART_START_AT_HI p) 31 = false ∧ u.bit (Reg.PART_STOP_AT_HI p) 31 = false) ∧
        u.bit Reg.TIME_MS_CHANGE_HI 31 = false ∧ u.bit Reg.TPL_EPOCH_NEXT 31 = false ∧ BytesSame s u)) ∧
    (s.usesRef false = true → s.usesRef true = false → st s = 1 → s.fenced = false → ∃ u, exec .refinFrequencyLock s = .next u ∧ st u = 2 ∧
      RegsSameBut s u [Reg.TIME_STATUS] ∧
      u = { s with regs := u.regs, timeUnit := { s.timeUnit with trims := [(s.now, trimOf (s.rd Reg.TIME_FREQ))] } }) ∧
    (∃ u, exec .timeNowLoRead s = .next u ∧ u.rd2 Reg.TIME_NOW_LO Reg.TIME_NOW_HI = s.now % 2 ^ 64 ∧
      (u.rd Reg.TIME_NOW_FRAC).toNat = s.time % 65536 ∧ u = { s with regs := u.regs } ∧
      RegsSameBut s u [Reg.TIME_NOW_LO, Reg.TIME_NOW_HI, Reg.TIME_NOW_FRAC]) ∧
    (s.timeRuns = true → ∃ u t, exec .ppsOutPulse s = .next u ∧ t % 1000000000 = 0 ∧ s.now ≤ t ∧ t < s.now + 1000000000 ∧
      u.time = (s.timeTo (t * 65536)).time ∧ u = { s with time := u.time, out := u.out } ∧
      u.out = if s.bit Reg.TIME_CTRL 4 = true ∧ s.fenced = false ∧ s.boot.sysRst = false ∧ s.boot.por = false then s.out ++ [Output.ppsOut (t % 2 ^ 64)] else s.out)

/-- While firmware runs and no rung transition is under way, a loop of the governor shows the power of the last ten loops and the
highest temperature, and asks no quarter's rail for more than that quarter's ceiling; while it is disabled it asks for nothing. The
ceilings move as R345 and R346 say, the partitions' power being a free value. A quarter's rail follows a falling ceiling, rises by 20 mV
after a late tile and 10 mV below the slack band, falls by 5 mV after enough loops above it, holds otherwise, and never stays below its
floor; what was read is re-armed (a beat's handshakes: log entry 26). A rail that
is acknowledged within 10 mV holds what was asked for; one that is not, by a timeout, holds what it held, and the timeout is counted and
logged. A completed ramp turns its domain on. A short one leaves it off, alerts and is logged, and of a tile it sets the fault bit and marks the tile dead once the map stands.
While `POR_N` is low nothing trips. The thermal trip opens every domain and drives `THERM_N`, which is not released while the trip stands. A BBRAM key is lost with its
supply. A floor lies between 0.60 and 0.85 V, and no higher than 0.75 V where the rated rate covers the budget. A rail out of tolerance while `POR_N` is high stops by name. -/
def Obligations.PowerActs : Prop :=
  ∀ (s : State),
    let logged (u : State) (code sev : Nat) : Prop := (selfLogged code = true ∨ s.fwLost = false) → s.log.length < 4096 →
      ∃ r, u.log = s.log ++ [r] ∧ r.code = code ∧ r.sev = sev
    let calm := (∀ f ∈ s.mbx, f.2.running = none) ∧ ∀ x ∈ s.parts, s.floorWaits x.1 = false
    (∀ m : GovEnv, s.boot.fwUp = true → s.fwLost = false → s.pwr.phase = 0 → s.devRung ≠ 4 → (∀ x ∈ s.parts, x.1 < 16) → calm →
      let rails := (List.range 6).foldl (fun n r => n + m.railV.getD r 0 * m.railI.getD r 0) 0
      let w := ((m.watts + rails / 1250) :: s.pwr.watts).take 10
      ∃ u, exec (.governorLoop m) s = .next u ∧ BytesSame s u ∧ u.pwr.watts = w ∧
        u.rd Reg.PWR_MEAS = BitVec.ofNat 32 (min 4095 (w.foldl (fun n x => n + x) 0 / w.length)) ∧
        (∀ t, (∀ x ∈ m.tj, x ≤ t) → t ∈ m.tj → u.fld Reg.PWR_TJ 0 12 = (BitVec.ofInt 12 t).toNat) ∧
        (∀ q mv, avsOut q (.write mv) ∈ u.out → avsOut q (.write mv) ∈ s.out ∨ (q < 4 ∧ mv ≤ 5 * (u.quarter q).ceil)) ∧
        (s.bit Reg.PWR_GOV_CTRL 0 = false → u.pwr.want = s.pwr.want ∧ ∀ r, r < 6 → u.rd (Reg.PWR_RAIL_V r) = s.rd (Reg.PWR_RAIL_V r)) ∧
        (s.pwr.quarters.length = 4 → ∀ q, q < 4 → let x := s.quarter q
          let tj := m.tj.getD q 0
          let limit := 8 * s.fld Reg.PWR_LIMIT 0 8
          let meas := (u.rd Reg.PWR_MEAS).toNat
          let greedy := (s.measure m).overShare
          let rests := if meas * 100 ≤ limit * 98 then s.pwr.below + 1 else 0
          (u.quarter q).tj = tj ∧ (u.quarter q).ceilT = (if ((8 * s.fld Reg.PWR_THERM_CTRL 0 8 : Nat) : Int) ≤ tj then max 120 (x.ceilT - 2)
            else if tj < ((8 * s.fld Reg.PWR_THERM_CTRL 8 8 : Nat) : Int) then min 170 (x.ceilT + 1) else x.ceilT) ∧
          (limit < meas → u.pwr.below = 0 ∧ (u.quarter q).ceilP = if greedy = [] ∨ q ∈ greedy then max 120 (x.ceilP - 1) else x.ceilP) ∧
          (meas ≤ limit → u.pwr.below = rests ∧ (u.quarter q).ceilP = if 10 ≤ rests then min 170 (x.ceilP + 1) else x.ceilP) ∧
          u.fld (Reg.PWR_CEIL q) 0 8 = (u.quarter q).ceil ∧
          (s.bit Reg.PWR_GOV_CTRL 0 = true → s.railWaits q = false →
            let ceil := (u.quarter q).ceil
            let floor := u.floorOf q
            let v := s.railMv q / 5
            let ran := s.ranTiles q
            let target := s.fld Reg.PWR_GOV_CTRL 8 4
            let band := s.fld Reg.PWR_GOV_CTRL 16 4
            let after := s.fld Reg.PWR_GOV_CTRL 24 4
            let under (t : Nat) : Prop := (s.slackOf t).1 * 100 + band * (s.slackOf t).2 < target * (s.slackOf t).2
            let above (t : Nat) : Prop := (target + band) * (s.slackOf t).2 < (s.slackOf t).1 * 100
            let late (t : Nat) : Prop := s.bit (Reg.SEQ_BEAT_MIN_SLACK t) 20 = true
            let asks (w n : Nat) : Prop := let w := if w < floor then min floor ceil else w
              (u.quarter q).above = n ∧ (s.railMv q ≠ 5 * w → SMap.get u.pwr.want 0 q = 5 * w ∧ u.railWaits q = true ∧ avsOut q (.write (5 * w)) ∈ u.out) ∧
              (s.railMv q = 5 * w → u.railWaits q = false)
            let down := if after ≤ x.above + 1 then max (v - 1) (min v (max 120 floor)) else v
            let waits := if after ≤ x.above + 1 then 0 else x.above + 1
            (ceil < v → asks ceil 0) ∧
            (v ≤ ceil → s.liveParts q = [] → asks down waits) ∧
            (v ≤ ceil → s.liveParts q ≠ [] → ran = [] → asks v 0) ∧
            (v ≤ ceil → s.liveParts q ≠ [] → ran ≠ [] →
              ((∃ t ∈ ran, late t) → asks (min (v + 4) ceil) 0) ∧
              ((∀ t ∈ ran, ¬ late t) → (∃ t ∈ ran, under t) → asks (min (v + 2) ceil) 0) ∧
              ((∀ t ∈ ran, ¬ late t) → (∀ t ∈ ran, ¬ under t) → (∀ t ∈ ran, above t) → asks down waits) ∧
              ((∀ t ∈ ran, ¬ late t) → (∀ t ∈ ran, ¬ under t) → (∃ t ∈ ran, ¬ above t) → asks v 0) ∧
              ∀ t ∈ ran, u.rd (Reg.SEQ_BEAT_MIN_SLACK t) = 0xFFFFF ∧ (u.tile t).ran = false)))) ∧
    (∀ q budget period, 120 ≤ s.floorFor q budget period ∧ s.floorFor q budget period ≤ 170 ∧
      (1000000 * budget ≤ ratedKhz * (period - 40) → s.floorFor q budget period ≤ 150)) ∧
    (∀ (r : Nat) (mv : BitVec 12), r < 6 → s.railWaits r = true → s.pwr.phase = 0 → calm → let want := SMap.get s.pwr.want 0 r
      want < 4096 →
      (want ≤ mv.toNat + 10 → mv.toNat ≤ want + 10 → ∃ u, exec (.avsAck r mv) s = .next u ∧ u.railMv r = want ∧ u.railWaits r = false ∧
        u = { s with regs := u.regs } ∧ RegsSameBut s u [Reg.PWR_RAIL_V r, Reg.PWR_GOV_VOLT r]) ∧
      (want + 10 < mv.toNat ∨ mv.toNat + 10 < want → exec (.avsAck r mv) s = .next s) ∧
      ∃ u, exec (.avsTimeout r) s = .next u ∧ u.railMv r = s.railMv r ∧ u.railWaits r = false ∧
        u.rd Reg.PWR_AVS_TIMEOUTS = s.rd Reg.PWR_AVS_TIMEOUTS + 1 ∧ logged u 0x0901 sevContained ∧ BytesSame s u) ∧
    (∀ d, (d < 144 ∨ (s.bit Reg.BOOT_STATUS 4 = false ∧ s.boot.warm = false) → ∃ u, exec (.rampComplete d) s = .next u ∧
      u.pwr = { s.pwr with off := s.pwr.off.filter (fun x => x != d) } ∧ u = { s with pwr := u.pwr }) ∧
      (144 ≤ d → s.bit Reg.BOOT_STATUS 4 = true ∨ s.boot.warm = true → exec (.rampComplete d) s = .next s)) ∧
    (∀ d (stage : BitVec 2) trip, d < 176 → let c := if d < 144 then d / 9 else (d - 144) % 16
      let live := match s.colPart c with
        | some p => s.pstate p == psArmed || s.pstate p == psRunning ||
          (match s.part p with | some x => x.rung != 0 | none => false)
        | none => false
      (144 ≤ d ∨ s.mapBuilt = false ∨ ∃ p x, s.colPart c = some p ∧ s.part p = some x ∧ s.pstate p ≠ psStopped) →
      ∃ u, exec (.rampShort d stage trip) s = .next u ∧ d ∈ u.pwr.off ∧ u.alertStatus = s.alertStatus ||| 0x20 ∧ BytesSame s u ∧
        logged u 0x0902 (if live then sevPartition else sevContained) ∧
        (d < 144 → ∀ t, s.tileAt c (d % 9) = some t → u.bit (Reg.TILE_FAULT t) 7 = true) ∧
        (d < 144 → s.tileAt c (d % 9) = none → u.bit (Reg.TILE_FAULT (128 + c)) 7 = true) ∧
        (d < 144 → s.mapBuilt = true → ∀ p, s.colPart c = some p → ∃ y, u.part p = some y ∧ (c, d % 9) ∈ y.recov.dead)) ∧
    (s.boot.por = true → exec .thermNAssert s = .next s ∧ exec .thermalTrip s = .next s) ∧
    (s.boot.por = false → ∃ u, exec .thermNAssert s = .next u ∧ u.bit Reg.PWR_STATUS 9 = true ∧ BytesSame s u ∧ RegsSameBut s u [Reg.PWR_STATUS] ∧
      (s.bit Reg.PWR_STATUS 9 = false → Output.pin 0 false ∈ u.out ∧ u.alertStatus = s.alertStatus ||| 1)) ∧
    (∃ u, exec .thermNRelease s = .next u ∧ u.bit Reg.PWR_STATUS 9 = (s.bit Reg.PWR_STATUS 9 && s.bit Reg.PWR_STATUS 8) ∧
      BytesSame s u ∧ RegsSameBut s u [Reg.PWR_STATUS] ∧ u.alertStatus = s.alertStatus) ∧
    (s.bit Reg.PWR_STATUS 8 = false → s.boot.por = false → ∃ u, exec .thermalTrip s = .next u ∧ u.bit Reg.PWR_STATUS 8 = true ∧
      u.bit Reg.PWR_STATUS 9 = true ∧ (∀ d, d < 176 → d ∈ u.pwr.off) ∧ logged u 0x0905 sevDevice ∧ BytesSame s u) ∧
    (∃ u, exec .vbatLoss s = .next u ∧ u.fuses = { s.fuses with bbramKey := none } ∧ u.bit Reg.CFG_KEY_STATUS 1 = false ∧
      u = { s with regs := u.regs, fuses := u.fuses }) ∧ (s.boot.por = true → ∀ r, exec (.railOutOfTolerance r) s = .next s) ∧
    (s.boot.por = false → ∀ r, exec (.railOutOfTolerance r) s = .fault (.unpredictableInDevice 381))

/-- Each command completes. While `POR_N` is high the always-on island answers STATUS, TEMP_MAX and ALERT_STATUS, and clears the status bits written as 1. While
firmware runs the target answers ID, TEMP_QUARTER, POWER, RAILS, LIMIT, ALERT_MASK, LOG_COUNT and LOG_LAST with the words of R349, and
takes a write of the mask, of 6 bits. A write whose PEC fails changes nothing, and neither does anything while `POR_N` is low or, but for
what the island serves, while firmware does not run. A target that drives `ALERT_N` answers the Alert Response Address with its
address. Nothing but what leaves the device differs after a read. Each read bears its PEC. What the words of R349 leave open is chosen: the order
in ID (log entry 25), STATUS bits, LOG_LAST without record, the code of a temperature (27); the PEC is that of SMBus 3.1 (137). -/
def Obligations.SmbusTargetAnswers : Prop :=
  ∀ (s : State),
    let answers (u : State) (cmd : Byte) (data : List Byte) : Prop := u = { s with out := u.out, free := u.free } ∧
      Output.smbus data (smbPec ([0xC4, cmd, 0xC5] ++ (if 2 < data.length then toBytes data.length 1 else []) ++ data)) ∈ u.out
    let status := s.boot.devOk.toNat + 2 * (s.bit Reg.TPL_FENCE 0).toNat + 4 * s.fwLost.toNat +
      8 * ((List.range 4).any (fun q => s.bit (Reg.PWR_CEIL q) 8)).toNat +
      16 * ((List.range 4).any (fun q => s.bit (Reg.PWR_CEIL q) 9)).toNat + 32 * (s.bit Reg.PWR_STATUS 8).toNat + 256 * s.devRung
    (s.boot.por = false → (∃ u, exec .smbStatus s = .next u ∧ answers u 0x02 (toBytes status 2)) ∧ (∃ u, exec .smbTempMax s = .next u ∧ answers u 0x10 (toBytes (s.fld Reg.PWR_TJ 0 12) 2)) ∧
      (∃ u, exec .smbAlertStatusRead s = .next u ∧ answers u 0x41 [s.alertStatus]) ∧
      (∀ v, ∃ u, exec (.smbAlertStatusClear v true) s = .next u ∧ u = { s with alertStatus := u.alertStatus } ∧
        ∀ i, u.alertStatus.getLsbD i = (s.alertStatus.getLsbD i && !(v.getLsbD i))) ∧
      (s.alertStatus &&& s.alertMask ≠ 0 → ∃ u a, exec .smbAlertResponse s = .next u ∧ a.toNat / 2 = 0x62 ∧
        u = { s with out := s.out ++ [Output.smbus [a] (smbPec [0x19, a])], free := u.free }) ∧
      (s.alertStatus &&& s.alertMask = 0 → exec .smbAlertResponse s = .next s)) ∧
    (s.boot.por = false → s.boot.fwUp = true → s.fwLost = false →
      (∃ u id, exec .smbId s = .next u ∧ answers u 0x01 id ∧ id.length = 8 ∧ id.take 2 = toBytes 0x0960 2 ∧ id[2]? = some (BitVec.ofNat 8 (s.fld Reg.CFG_IDCODE 28 4)) ∧
        id[3]? = some Config.binRange ∧ id.drop 4 = [0x02, 0x03, 0x01, 0x02]) ∧
      (∃ u t, exec .smbTempQuarter s = .next u ∧ answers u 0x11 t ∧ t.length = 8 ∧ ∀ q, q < 4 → (t.drop (2 * q)).take 2 = toBytes (BitVec.ofInt 12 (s.quarter q).tj).toNat 2) ∧
      (∃ u, exec .smbPower s = .next u ∧ answers u 0x20 (toBytes (s.fld Reg.PWR_MEAS 0 12) 2)) ∧
      (∃ u t, exec .smbRails s = .next u ∧ answers u 0x21 t ∧ t.length = 24 ∧ ∀ r, r < 6 → (t.drop (4 * r)).take 4 =
        toBytes (s.fld (Reg.PWR_RAIL_V r) 0 12) 2 ++ toBytes (s.fld (Reg.PWR_RAIL_I r) 0 16) 2) ∧
      (∃ u, exec .smbLimit s = .next u ∧ answers u 0x22 (toBytes (s.fld Reg.PWR_LIMIT 0 8) 2)) ∧ (∃ u, exec .smbAlertMaskRead s = .next u ∧ answers u 0x40 [s.alertMask]) ∧
      (∀ v, ∃ u, exec (.smbAlertMaskWrite v true) s = .next u ∧ u = { s with alertMask := v &&& 0x3F }) ∧
      (∃ u, exec .smbLogCount s = .next u ∧ answers u 0x50 (toBytes s.logHigh 2)) ∧
      (∀ r, s.logLast = some r → ∃ u, exec .smbLogLast s = .next u ∧ answers u 0x51 r.bytes) ∧ ∃ u t, exec .smbLogLast s = .next u ∧ answers u 0x51 t) ∧
    (∀ v, exec (.smbAlertStatusClear v false) s = .next s ∧ exec (.smbAlertMaskWrite v false) s = .next s) ∧
    (s.boot.por = true → ∀ c ∈ [Instr.smbStatus, .smbTempMax, .smbAlertStatusRead, .smbId, .smbPower, .smbRails, .smbLimit,
      .smbAlertMaskRead, .smbLogCount, .smbTempQuarter, .smbAlertResponse, .smbAlertStatusClear 0xFF true, .smbAlertMaskWrite 0 true],
      exec c s = .next s) ∧
    (s.boot.fwUp = false ∨ s.fwLost = true → ∀ c ∈ [Instr.smbId, .smbPower, .smbRails, .smbLimit, .smbAlertMaskRead, .smbLogCount,
      .smbTempQuarter, .smbAlertMaskWrite 0 true], exec c s = .next s)

/-- Each command completes. `POR_N` low resets all but the flash and the fuses; its release samples the mode and the reference clocks and starts boot step B0.
`SYS_RST_N` low stops the firmware and keeps the DRAM; its release starts a warm boot. A step that passes is followed by the next; Route
time starts at B3; B11 makes the device ready; a step that fails (B0 also where neither the directory nor its copy stands), or a fourth timeout in a row, ends the boot, a lesser timeout
retries it. B0's end reads the directory and the record and counts the boot; B1 takes the firmware, or goes on with FW_GOLDEN, and asks the
rails for their boot voltages, for which B2 waits; B4 shows BIST, B5 clears the stores, B6 trains or restores the channels, B8 the lanes, B9
ends with a loaded or a cleared image, B10 with stage 3. `PERST_N` ends B7. A recovery writes its dump at step 2, raises the generation at step 4, waiting where it was retired too lately, resets the tiles at
step 5, restores the retained copy at step 6, and at step 7 reopens broken channels and waits for ports, ends
STOPPED with the outcome of R362, or resumes two milestones later once its floors are raised; one that fails ends STOPPED. A stalled tile faults its partition; a hang
faults every partition that reaches the engine, a trial ends guilty or not. A tile reset loads the semaphores, keeps the memories and the store, to which accepted writes go (log entry 44). -/
def Obligations.BootAndRecoveryRun : Prop :=
  ∀ (s : State),
    (s.boot.por = false → ∃ u, exec .porAssert s = .next u ∧ u.boot.por = true ∧ u.boot.steps = [] ∧ u.flash = s.flash ∧
      u.fuses = s.fuses ∧ RegsSameBut State.reset u [Reg.CFG_FUSE_POLICY, Reg.CFG_KEY_STATUS] ∧
      u = { State.reset with pending := s.pending, flash := s.flash, fuses := s.fuses, trained := s.trained, out := u.out, free := s.free
                             regs := u.regs, boot := { BootSt.reset with
                               perst := s.boot.perst, mode := s.boot.mode, secA := s.boot.secA, secB := s.boot.secB
                               inB := s.boot.inB, seq := s.boot.seq, fall := s.boot.fall, refclk := s.boot.refclk } }) ∧
    (∀ (mode : BitVec 3) (refclk : BitVec 12), s.boot.por = true → ∃ u, exec (.porRelease mode refclk) s = .next u ∧
      u = { s with regs := u.regs, boot := { s.boot with
        por := false, mode := mode, refclk := refclk, warm := false, steps := [0], unfinished := [], seq := 0, loadEnd := none, layout := none
        fwUp := false, slots := [], failedLanes := 0 } } ∧ u.fld Reg.BOOT_STATUS 0 4 = 0 ∧ RegsSameBut s u [Reg.BOOT_STATUS]) ∧
    (s.boot.por = false → s.boot.sysRst = false → s.boot.dead = false → ∃ u, exec .sysRstAssert s = .next u ∧ u.boot.sysRst = true ∧
      u.boot.fwUp = false ∧ u.boot.devOk = false ∧ u.boot.steps = [] ∧ u.dram = s.dram ∧ u.flash = s.flash ∧ u.fuses = s.fuses ∧
      (∀ p x, p < 16 → s.part p = some x → u.pstate p = psStopped) ∧ (∀ n, n < 96 → u.laneState n = 0) ∧
      ∀ fn, fn < 17 → (u.fnMbx fn).enabled = false ∧ (u.fnMbx fn).running = none) ∧
    (s.boot.sysRst = true → ∃ u, exec .sysRstRelease s = .next u ∧ u.boot.sysRst = false ∧ u.boot.steps = [0] ∧ u.boot.warm = true ∧
      u = { s with regs := u.regs, boot := u.boot } ∧ RegsSameBut s u [Reg.BOOT_STATUS]) ∧
    (∃ u, exec .perstDeassert s = .next u ∧ u.boot.perst = false ∧ u.boot.steps = s.boot.steps.filter (fun k => k != 7) ∧ BytesSame s u) ∧
    (∀ (e : BootEnv) k, s.currentStep = some k → s.boot.por = false → s.boot.sysRst = false →
      let left := s.boot.steps.filter (fun j => j != k)
      (e.pass = true → k ∈ [0, 2, 3, 11] → (k = 2 → s.anyRailWaits = false) → (k = 0 → s.testMode = true ∨ dirOk e.dir = true ∨ dirOk e.copy = true) → ∃ u, exec (.bootStepComplete e) s = .next u ∧ BytesSame s u ∧
        (k < 11 → u.boot.steps = left ++ [k + 1] ∧ u.fld Reg.BOOT_STATUS 0 4 = k + 1) ∧
        (k = 3 → s.boot.warm = false → u.time = 0 ∧ u.timeRuns = true ∧ u.msCount = 0) ∧
        (k = 0 → let d := (s.readDir e).2
          (d.hasRecord = false → u.rd Reg.BOOT_COUNT = 1 ∧ u.boot.secA = s.boot.secA ∧ u.boot.secB = s.boot.secB) ∧
          (d.hasRecord = true → (∀ n, newestEntry s.bootEntries = some n → u.rd Reg.BOOT_COUNT = BitVec.ofNat 32 (n.boot + 1)) ∧
            (newestEntry s.bootEntries = none → u.rd Reg.BOOT_COUNT = 1) ∧ ∃ n, u.boot.sector.getLast? = some n ∧
              n.boot = (u.rd Reg.BOOT_COUNT).toNat ∧ n.kind = 0 ∧ n.step = 1 ∧ n.phase = 0) ∧
          u.boot.fwSlot = if u.boot.fall.flags.getLsbD 0 then 1 else 0) ∧
        (k = 11 → s.boot.warm = true → ∀ p x, p < 16 → s.part p = some x → u.pstate p = psRecovering ∧ ∃ y, u.part p = some y ∧
          y.recov.step = 4 ∧ y.recov.warm = true ∧ y.recov.dead = x.recov.dead) ∧
        (k = 11 → u.boot.steps = left ∧ u.bit Reg.BOOT_STATUS 4 = true ∧ ((∀ x ∈ s.parts, x.1 < 16) → ∀ fn, fn < 17 → u.bit (Reg.MBX_STATUS fn) 0 = true))) ∧
      (e.pass = true → k = 2 → s.anyRailWaits = true → exec (.bootStepComplete e) s = .next s) ∧
      (e.pass = true → k = 1 → 7 ∉ s.boot.steps →
        (s.boot.loadEnd = some none → ∃ u, exec (.bootStepComplete e) s = .next u ∧ u.boot.fwUp = true ∧ u.boot.devOk = true ∧
          u.boot.steps = left ++ (if s.boot.perst then [7] else []) ++ [2] ∧ BytesSame s u ∧ ∀ r, r < 6 → u.railWaits r = true ∧
            avsOut r (.write ((RegMap.railReset r).field 0 12)) ∈ u.out ∧ SMap.get u.pwr.want 0 r = (RegMap.railReset r).field 0 12) ∧
        (∀ code, s.boot.loadEnd = some (some code) → s.boot.fwSlot = 0 → s.testMode = false → ∃ u, exec (.bootStepComplete e) s = .next u ∧
          u.boot.fwSlot = 1 ∧ u.boot.loadEnd = none ∧ u.boot.steps = s.boot.steps ∧ u.boot.fall = s.boot.fall.setFlag 0 true ∧ BytesSame s u) ∧
        (∀ code, s.boot.loadEnd = some (some code) → s.boot.fwSlot ≠ 0 → ∃ u, exec (.bootStepComplete e) s = .next u ∧ u.boot.dead = true ∧
          u.boot.steps = [] ∧ u.boot.devOk = false ∧ u.boot.cfgErr = true)) ∧
      (e.pass = true → k = 4 → (∀ j ∈ s.boot.steps, j = 4 ∨ j = 7) → ∃ u, exec (.bootStepComplete e) s = .next u ∧
        u.boot.steps = left ++ (if s.boot.warm then [6, 8] else [5]) ∧ ∀ i, i < 144 → u.fld (Reg.TILE_STATUS i) 8 2 =
          if e.dead.contains (if i < 128 then i / 8 else i - 128, u.blockPos i) then 2 else 1) ∧
      (e.pass = true → k = 5 → ∃ u, exec (.bootStepComplete e) s = .next u ∧ u.boot.steps = left ++ [6, 8] ∧ u.store = [] ∧
        u.upsets = [] ∧ u.dram = s.dram ∧ (s.boot.warm = false → ∀ ch, ch < 8 → s.boot.fall.chan ch ≠ 2 → u.ddrState ch = 1) ∧
        ∀ n, n < 96 → u.laneState n = if s.boot.fall.lane n ≠ 2 ∧ s.boot.refclk.getLsbD (n / 8) = true then 1 else 0) ∧
      (k = 6 → 8 ∈ s.boot.steps → ∃ u, exec (.bootStepComplete e) s = .next u ∧ u.boot.steps = left ∧
        (s.boot.warm = true → BytesSame s u ∧ ∀ ch, ch < 8 → u.ddrState ch = if s.ddrState ch = 6 then 2 else s.ddrState ch) ∧
        (s.boot.warm = false → ∀ ch o, ch < 8 → e.org.find? (fun o => o.ch == ch) = some o →
          (orgSupported o = false ∨ s.boot.fall.chan ch = 2 ∨ o.fails = true → u.ddrState ch = 0 ∧ u.bit (Reg.DDR_CTRL ch) 0 = false) ∧
          (orgSupported o = true → s.boot.fall.chan ch ≠ 2 → o.fails = true → u.boot.fall.chan ch = min 2 (s.boot.fall.chan ch + 1)) ∧
          (orgSupported o = true → s.boot.fall.chan ch ≠ 2 → o.fails = false → u.ddrState ch = 2 ∧ u.bit (Reg.DDR_CTRL ch) 0 = true ∧
            ∀ a, ch * 2 ^ 36 ≤ a → a < (ch + 1) * 2 ^ 36 → u.dram.read a = State.reset.dram.read a))) ∧
      (k = 8 → 6 ∉ s.boot.steps → s.skipFab = false → ∃ u, exec (.bootStepComplete e) s = .next u ∧ BytesSame s u ∧
        u.boot.steps = left ++ [9] ∧ u.boot.fabSlot = (if s.boot.fall.flags.getLsbD 1 then 3 else 2) ∧ ∀ n, n < 96 →
          u.boot.fall.lane n = if s.boot.failedLanes.getLsbD n then min 2 (s.boot.fall.lane n + 1) else s.boot.fall.lane n) ∧
      (k = 9 → e.pass = true →
        (s.boot.loadEnd = some none → ∃ u, exec (.bootStepComplete e) s = .next u ∧ u.boot.steps = left ++ [10] ∧ BytesSame s u ∧
          ∀ p x, u.part p = some x → u.isLoaded x = true → x.releasing = true) ∧
        (∀ code, s.boot.loadEnd = some (some code) → ∃ u, exec (.bootStepComplete e) s = .next u ∧ u.boot.steps = left ++ [10] ∧
          u.boot.fall = s.boot.fall.fabFailed ∧ u.boot.cfgErr = true ∧ BytesSame s u)) ∧
      (k = 10 → (e.pass = true → ∃ u, exec (.bootStepComplete e) s = .next u ∧ u.boot.steps = left ++ [11] ∧ BytesSame s u ∧
          (∀ p x, p < 16 → s.part p = some x → s.isLoaded x = true → u.relStage p = 3 ∧ u.boot.cfgDone = true) ∧
          ∀ p x, u.part p = some x → x.releasing = false) ∧
        (e.pass = false → ∃ u, exec (.bootStepComplete e) s = .next u ∧ u.boot.steps = left ++ [11] ∧
          u.boot.fall = s.boot.fall.fabFailed ∧ BytesSame s u)) ∧
      (k ∈ [0, 2, 3, 4, 5, 11] → (e.pass = false ∨ (k = 0 ∧ s.testMode = false ∧ dirOk e.dir = false ∧ dirOk e.copy = false)) → ∃ u, exec (.bootStepComplete e) s = .next u ∧ u.boot.dead = true ∧
        u.boot.steps = [] ∧ u.boot.devOk = false ∧ u.boot.cfgErr = true ∧ BytesSame s u) ∧
      (s.fld Reg.BOOT_STATUS 8 3 < 3 → ∃ u, exec .bootStepTimeout s = .next u ∧ u.boot.steps = [0] ∧ u.log = s.log ∧
        u.bit Reg.PWR_STATUS 8 = s.bit Reg.PWR_STATUS 8 ∧ u.bit Reg.PWR_STATUS 9 = s.bit Reg.PWR_STATUS 9 ∧ u.fld Reg.BOOT_STATUS 8 3 = s.fld Reg.BOOT_STATUS 8 3 + 1 ∧ u.flash = s.flash ∧ u.fuses = s.fuses) ∧
      (3 ≤ s.fld Reg.BOOT_STATUS 8 3 → ∃ u, exec .bootStepTimeout s = .next u ∧ u.boot.dead = true ∧ u.boot.steps = [] ∧
        u.boot.devOk = false ∧ BytesSame s u)) ∧
    (∀ p x, p < 16 → s.part p = some x → s.inRecovery p x = true →
      let raised (u : State) : Prop := ∃ y, u.part p = some y ∧ y.gen = (x.gen + 1) % 256 ∧ y.recov.step = 5 ∧ y.recov.genWait = false ∧
        (∀ t ∈ x.tiles, u.fld (Reg.TILE_PART t) 8 8 = (x.gen + 1) % 256) ∧ BytesSame s u ∧
        RegsSameBut s u (x.tiles.map Reg.TILE_PART ++ (List.range 48).map Reg.EDGE_STATUS ++ (List.range 256).map Reg.CHN_STATUS)
      let stopped (u : State) (o : Nat) : Prop := u.pstate p = psStopped ∧ (∃ y, u.part p = some y ∧ y.outcome = o ∧ y.fault = false ∧
        y.recov = RecSt.none) ∧ BytesSame s u
      (x.recov.genWait = false →
        (∀ slot, x.recov.step = 2 → x.recov.slot = some slot → slot < 4 →
          (∀ q ∈ s.parts, q = (p, x) ∨ s.pstate q.1 ≠ psFrozen) → ∃ u y, exec (.recoveryStepComplete p []) s = .next u ∧ u.part p = some y ∧
          y.recov.step = 3 ∧ u.dumpFlag 0 slot = true ∧ u.dumpFlag 4 slot = true ∧
          (u.rd (Reg.DUMP_SLOT slot)).toNat = (p + dumpSize x.tiles.length / 1024 * 256) % 2 ^ 32) ∧
        (x.recov.step = 5 → x.recov.dead = [] → s.lostColumn x = false → ∃ u y, exec (.recoveryStepComplete p []) s = .next u ∧
          u.part p = some y ∧ y.recov.step = 6 ∧ u.dram = s.dram ∧ ∀ t ∈ x.tiles, (u.tile t).imem = (s.tile t).imem ∧
            (u.tile t).pmem = (s.tile t).pmem ∧ (u.tile t).evs = [] ∧ (u.tile t).flights = [] ∧ u.fld (Reg.TILE_STATUS t) 0 6 = 0 ∧
            ∀ i, i < 32 → u.rd (Reg.TC_G t i) = 0) ∧
        (x.recov.step = 6 → x.recov.dead = [] → s.lostColumn x = false → (x.copy.map (fun c => c.1)).Nodup →
          ∃ u y, exec (.recoveryStepComplete p []) s = .next u ∧ u.part p = some y ∧ y.recov.step = 7 ∧ BytesSame s u ∧
            ∀ c ∈ x.copy, let t := c.1 / 8192 % 128
              t ∈ x.tiles → (c.1 / 2 ^ 20 = 0 → SMap.get (u.tile t).imem 0 (c.1 % 8192) = BitVec.ofNat 128 c.2) ∧
                (c.1 / 2 ^ 20 = 1 → SMap.get (u.tile t).pmem 0 (c.1 % 8192) = BitVec.ofNat 64 c.2)) ∧
        (x.recov.step = 7 → x.recov.dead = [] → x.recov.floorWait = false → s.search = [] → let v := s.rollBack p
          (∀ c ∈ s.partChans p, s.chanState c = 2 → (s.chan c).unreset = [] → v.chanState c = if s.portIsUp (s.chanPort c) then 1 else 2) ∧
          (v.portsDown p = true → ∃ u y, exec (.recoveryStepComplete p []) s = .next u ∧ u.part p = some y ∧ y.recov.step = 7 ∧
            y.recov.linkWait = true ∧ BytesSame s u) ∧
          (v.portsDown p = false → v.recOutcome p x false ≠ 0 →
            ∃ u, exec (.recoveryStepComplete p []) s = .next u ∧ stopped u (v.recOutcome p x false))) ∧
        (x.recov.step = 3 → x.recov.device = 0 → ∃ u y, exec (.recoveryStepComplete p []) s = .next u ∧
          u.pstate p = psRecovering ∧ u.part p = some y ∧ y.recov.step = 4 ∧ BytesSame s u) ∧
        (x.recov.step = 4 → s.genBusy p x = false → ∃ u, exec (.recoveryStepComplete p []) s = .next u ∧ raised u) ∧
        (x.recov.step = 4 → s.genBusy p x = true → ∃ u y, exec (.recoveryStepComplete p []) s = .next u ∧
          u.part p = some y ∧ y.recov.genWait = true ∧ y.gen = x.gen ∧ RegsSameBut s u [] ∧ BytesSame s u) ∧
        (x.recov.step = 7 → x.recov.dead = [] → x.recov.floorWait = true → s.search = [] →
          (s.recOutcome p x false ≠ 0 → ∃ u, exec (.recoveryStepComplete p []) s = .next u ∧ stopped u (s.recOutcome p x false)) ∧
          (s.recOutcome p x false = 0 → ∃ u y, exec (.recoveryStepComplete p []) s = .next u ∧ u.part p = some y ∧ BytesSame s u ∧
            (s.raised (s.floorsFor p) = true → y.recov.step = 8 ∧ y.recov.resumeAt = some ((s.msCount + 2) % 2 ^ 48)) ∧
            (s.raised (s.floorsFor p) = false → y.recov.step = 7 ∧ y.recov.floorWait = true ∧ u.pstate p = s.pstate p)))) ∧
      (x.recov.step = 4 → x.recov.genWait = true → ∃ u, exec (.generationRetireWait p) s = .next u ∧ raised u) ∧
      (x.recov.step = 7 → x.recov.linkWait = true → x.recov.dead = [] → s.search = [] → let v := s.rollBack p
        let o := v.recOutcome p x (v.portsDown p)
        (o ≠ 0 → ∃ u, exec (.linkWaitExpiry p) s = .next u ∧ stopped u o) ∧
        (o = 0 → v.raised (v.floorsFor p) = true → ∃ u y, exec (.linkWaitExpiry p) s = .next u ∧ u.part p = some y ∧
          y.recov.resumeAt = some ((s.msCount + 2) % 2 ^ 48) ∧ BytesSame s u)) ∧
      (∀ cause, 2 ≤ x.recov.step → x.recov.step ≤ 7 → x.recov.dead = [] → s.search = [] → ∃ u, exec (.recoveryFailed p cause) s = .next u ∧
        stopped u (if x.recov.warm then 9 else 8) ∧ (s.log.length < 4090 → ∃ r ∈ u.log, r.code = 0x0B05 ∧ r.part = some p ∧
          r.detail = [BitVec.ofNat 8 x.recov.step, cause]))) ∧
    (∀ t p x, t < 128 → s.tilePart t = some p → s.part p = some x → (s.pstate p = psArmed ∨ s.pstate p = psRunning) →
      s.tileRests t = false → s.bit (Reg.SEQ_BEAT_STATUS t) 2 = false → ∃ u y, exec (.tileStall t) s = .next u ∧
        u.bit (Reg.TILE_FAULT t) 2 = true ∧ u.part p = some y ∧ y.fault = true ∧ BytesSame s u ∧
        (s.fwLost = false → s.log.length < 4096 → ∃ r, u.log = s.log ++ [r] ∧ r.code = 0x0103 ∧ r.sev = sevPartition)) ∧
    (∀ unit : BitVec 16, s.search = [] → let ps := s.reachEngine unit.toNat
      let sus := ps.flatMap (fun p => s.suspectsOf p unit.toNat)
      ∃ u, exec (.hangDetected unit) s = .next u ∧ u.search = [⟨unit.toNat, sus, ps, 0, false, false⟩] ∧ BytesSame s u ∧
        ∀ p ∈ ps, ∀ x, s.part p = some x → (s.pstate p = psArmed ∨ s.pstate p = psRunning) → ∃ y, u.part p = some y ∧ y.fault = true ∧ y.recov.hung = true) ∧
    (∀ h p v x, s.search = [h] → h.running = true → h.suspects = [(p, v)] → h.parts = [p] → p < 16 → s.part p = some x →
      x.beatOpen = false → x.recov.dead = [] →
      (h.unit / 4096 = 4 → ∃ u, exec (.trialEnd true) s = .next u ∧ u.search = [] ∧ u.pstate p = psStopped ∧ BytesSame s u) ∧
      ((s.setPstate p psRecovering).raised ((s.setPstate p psRecovering).floorsFor p) = true →
        ∃ u y, exec (.trialEnd false) s = .next u ∧ u.search = [] ∧ u.pstate p = psRecovering ∧ u.part p = some y ∧
        y.trial = none ∧ y.recov.resumeAt = some ((s.msCount + 2) % 2 ^ 48) ∧ BytesSame s u)) ∧
    (∀ t, t < 128 → (∃ u, exec (.tileReset t true) s = .next u ∧ (u.tile t).imem = (s.tile t).imem ∧ (u.tile t).pmem = (s.tile t).pmem ∧
        (u.tile t).evs = [] ∧ (u.tile t).flights = [] ∧ (u.router t).inject = [] ∧ u.fld (Reg.TILE_STATUS t) 0 6 = 0 ∧
        (∀ k, k < 64 → u.rd (Reg.SEM_CNT t k) = BitVec.ofNat 32 (s.fld (Reg.SEM_CFG t k) 16 12)) ∧
        (∀ i, i < 32 → u.rd (Reg.TC_G t i) = 0) ∧ u.dram = s.dram ∧ u.store = (s.landAll t).store ∧ u.rd (Reg.SE_DISCARD t) = s.rd (Reg.SE_DISCARD t) ∧
        ((s.tile t).flights = [] → u.store = s.store)) ∧
      (s.unlocked (s.tilePart t) = false → ∃ u, exec (.tileReset t false) s = .next u ∧ u.bit (Reg.TILE_CTRL t) 1 = true ∧
        u = { s with regs := u.regs } ∧ RegsSameBut s u [Reg.TILE_CTRL t]))

/-- A write of a register stores what its access types let it store: RW bits take the value (as the register holds it), RWL bits only
while the unit is not locked, RO bits stay, W1C bits clear, W1S bits set; no other register changes. A value that meets a reserved bit
is unpredictable (R16), an address without a register does nothing. A write of the last data register of a program memory
stores the whole entry or instruction at its index and moves the index on, unless the tile is locked; a read shows it and moves the
index on. `PRB_k_COUNT_HI` loads the whole count, `PRB_TRq_CTRL` restarts the record pointer, `PART_START_AT_HI` arms a STOPPED
partition of which no column is lost (R78) and is discarded while it is ARMED or RUNNING, an enable of `SE_CTXc_CTRL` in a STOPPED
partition ends a context's shutdown, `PART_STOP_AT_HI`, `TIME_MS_CHANGE_HI` and `TPL_EPOCH_NEXT` are armed,
0x0FFFFF re-arms the minimum slack; REGISTER_WRITE does the same at their addresses (log entry 46). -/
def Obligations.RegisterWrites : Prop :=
  ∀ (s : State) (v : Word),
    let stops (i : Instr) : Prop := exec i s = .fault (.unpredictableInDevice 16)
    (∀ t, t < 144 →
      let k := s.fld (Reg.SEQ_IMEM_ADDR t) 0 12
      let j := s.fld (Reg.TC_PMEM_ADDR t) 0 13
      (s.unlocked (s.tilePart t) = true →
        (∃ u, exec (.seqImemData3Write t v) s = .next u ∧ SMap.get (u.tile t).imem 0 k = v ++ s.rd (Reg.SEQ_IMEM_DATA2 t) ++
          s.rd (Reg.SEQ_IMEM_DATA1 t) ++ s.rd (Reg.SEQ_IMEM_DATA0 t) ∧
          (∀ i, i ≠ k → SMap.get (u.tile t).imem 0 i = SMap.get (s.tile t).imem 0 i) ∧ (u.tile t).pmem = (s.tile t).pmem ∧
          u.rd (Reg.SEQ_IMEM_ADDR t) = BitVec.ofNat 32 ((k + 1) % 4096) ∧ u.rd (Reg.SEQ_IMEM_DATA3 t) = v ∧
          RegsSameBut s u [Reg.SEQ_IMEM_ADDR t, Reg.SEQ_IMEM_DATA3 t] ∧ OnlyTile s u t) ∧
        (∃ u, exec (.tcPmemDataHiWrite t v) s = .next u ∧ SMap.get (u.tile t).pmem 0 j = v ++ s.rd (Reg.TC_PMEM_DATA_LO t) ∧
          (∀ i, i ≠ j → SMap.get (u.tile t).pmem 0 i = SMap.get (s.tile t).pmem 0 i) ∧ (u.tile t).imem = (s.tile t).imem ∧
          u.rd (Reg.TC_PMEM_ADDR t) = BitVec.ofNat 32 ((j + 1) % 8192) ∧ u.rd (Reg.TC_PMEM_DATA_HI t) = v ∧
          RegsSameBut s u [Reg.TC_PMEM_ADDR t, Reg.TC_PMEM_DATA_HI t] ∧ OnlyTile s u t)) ∧
      (s.unlocked (s.tilePart t) = false → exec (.seqImemData3Write t v) s = .next s ∧ exec (.tcPmemDataHiWrite t v) s = .next s) ∧
      ((s.tile t).memUpsets = [] →
        (∃ u, exec (.seqImemData3Read t) s = .next u ∧ u.rd (Reg.SEQ_IMEM_DATA3 t) ++ u.rd (Reg.SEQ_IMEM_DATA2 t) ++
          u.rd (Reg.SEQ_IMEM_DATA1 t) ++ u.rd (Reg.SEQ_IMEM_DATA0 t) = SMap.get (s.tile t).imem 0 k ∧
          u.rd (Reg.SEQ_IMEM_ADDR t) = BitVec.ofNat 32 ((k + 1) % 4096) ∧ u = { s with regs := u.regs } ∧
          RegsSameBut s u [Reg.SEQ_IMEM_ADDR t, Reg.SEQ_IMEM_DATA0 t, Reg.SEQ_IMEM_DATA1 t, Reg.SEQ_IMEM_DATA2 t, Reg.SEQ_IMEM_DATA3 t]) ∧
        (∃ u, exec (.tcPmemDataHiRead t) s = .next u ∧ u.rd (Reg.TC_PMEM_DATA_HI t) ++ u.rd (Reg.TC_PMEM_DATA_LO t) =
          SMap.get (s.tile t).pmem 0 j ∧ u.rd (Reg.TC_PMEM_ADDR t) = BitVec.ofNat 32 ((j + 1) % 8192) ∧ u = { s with regs := u.regs } ∧
          RegsSameBut s u [Reg.TC_PMEM_ADDR t, Reg.TC_PMEM_DATA_LO t, Reg.TC_PMEM_DATA_HI t])) ∧
      (v.toNat < 2 ^ 21 → ∃ u, exec (.minSlackRearm t v) s = .next u ∧ u.fld (Reg.SEQ_BEAT_MIN_SLACK t) 0 21 = v.toNat ∧
        RegsSameBut s u [Reg.SEQ_BEAT_MIN_SLACK t] ∧ OnlyTile s u t ∧ (v = 0x0FFFFF → (u.tile t).ran = false) ∧
        (v ≠ 0x0FFFFF → u.tiles = s.tiles)) ∧
      (2 ^ 21 ≤ v.toNat → stops (.minSlackRearm t v)) ∧
      (∀ b : BitVec 2,
        (v.toNat < 2 ^ 16 → ∃ u, exec (.prbCountHiWrite t b v) s = .next u ∧ u.rd (Reg.PRB_COUNT_HI t b.toNat) = v ∧
          u.rd (Reg.PRB_COUNT_LO t b.toNat) = SMap.get (s.router t).prbLo 0 b.toNat ∧ u = { s with regs := u.regs } ∧
          RegsSameBut s u [Reg.PRB_COUNT_HI t b.toNat, Reg.PRB_COUNT_LO t b.toNat]) ∧
        (2 ^ 16 ≤ v.toNat → stops (.prbCountHiWrite t b v)))) ∧
    (∀ q : BitVec 2,
      (v.toNat < 8 → ∃ u, exec (.traceEnable q v) s = .next u ∧ u.fld (Reg.PRB_TR_CTRL q.toNat) 0 3 = v.toNat ∧
        u.rd (Reg.PRB_TR_PTR q.toNat) = (if v.getLsbD 0 then 0 else s.rd (Reg.PRB_TR_PTR q.toNat)) ∧ u = { s with regs := u.regs } ∧
        RegsSameBut s u [Reg.PRB_TR_CTRL q.toNat, Reg.PRB_TR_PTR q.toNat]) ∧
      (8 ≤ v.toNat → stops (.traceEnable q v))) ∧
    (v.field 16 15 = 0 →
      (∃ u, exec (.periodChangeArm v) s = .next u ∧ u.fld Reg.TIME_MS_CHANGE_HI 0 16 = v.field 0 16 ∧
        u.bit Reg.TIME_MS_CHANGE_HI 31 = (v.getLsbD 31 || s.bit Reg.TIME_MS_CHANGE_HI 31) ∧ u = { s with regs := u.regs } ∧
        RegsSameBut s u [Reg.TIME_MS_CHANGE_HI]) ∧
      (∃ u, exec (.epochArm v) s = .next u ∧ u.fld Reg.TPL_EPOCH_NEXT 0 16 = v.field 0 16 ∧
        u.bit Reg.TPL_EPOCH_NEXT 31 = v.getLsbD 31 ∧ u = { s with regs := u.regs, rejoin := false } ∧ RegsSameBut s u [Reg.TPL_EPOCH_NEXT]) ∧
      (∀ p : BitVec 4, let a := Reg.PART_START_AT_HI p.toNat
        (∃ u, exec (.stopArm p v) s = .next u ∧ u.fld (Reg.PART_STOP_AT_HI p.toNat) 0 16 = v.field 0 16 ∧
          u.bit (Reg.PART_STOP_AT_HI p.toNat) 31 = v.getLsbD 31 ∧ u = { s with regs := u.regs } ∧
          RegsSameBut s u [Reg.PART_STOP_AT_HI p.toNat]) ∧
        (s.pstate p.toNat = psStopped → ∃ u, exec (.startArm p v) s = .next u ∧ u.fld a 0 16 = v.field 0 16 ∧
          u.bit a 31 = v.getLsbD 31 ∧ BytesSame s u ∧
          (∀ x, s.part p.toNat = some x → u.pstate p.toNat = (if v.getLsbD 31 && !(s.lostColumn x) then psArmed else psStopped)) ∧
          (s.part p.toNat = none → u.pstate p.toNat = psStopped) ∧
          (v.getLsbD 31 = false → RegsSameBut s u [a])) ∧
        ((s.part p.toNat).isSome = true → s.pstate p.toNat = psArmed ∨ s.pstate p.toNat = psRunning →
          ∃ u, exec (.startArm p v) s = .next u ∧ RegsSameBut s u [] ∧ u = { s with regs := u.regs }))) ∧
    (v.field 16 15 ≠ 0 → stops (.periodChangeArm v) ∧ stops (.epochArm v) ∧ ∀ p, stops (.stopArm p v) ∧ stops (.startArm p v)) ∧
    (∀ addr : BitVec 40, let a := addr.toNat
      (RegMap.find a = none → exec (.registerWrite addr v) s = .next s) ∧
      ∀ b i r, RegMap.find a = some (b, i, r) → let o := (a - b.base) % b.stride
        (v &&& ~~~(r.rw ||| r.rwl ||| r.w1c ||| r.w1s ||| r.ro) ≠ 0 → stops (.registerWrite addr v)) ∧
        (v &&& ~~~(r.rw ||| r.rwl ||| r.w1c ||| r.w1s ||| r.ro) = 0 → b.base ≠ 0x100000000 → a ≠ Reg.TPL_EPOCH_NEXT →
          (b.base, o) ∉ [(0x20001000, 0), (0x73008000, 0x14), (0x50000000, 0), (0x40000000, 0), (0x48000000, 0), (0x48010000, 0),
            (0x10000000, 0x8), (0x10000000, 0x110C), (0x10000000, 0x101C), (0x10000000, 0x2020)] →
          (b.base = 0x10000000 → ¬(0x3000 ≤ o ∧ o < 0x3400) ∧ ¬(0x9100 ≤ o ∧ o < 0x9180) ∧
            ¬(0x4100 ≤ o ∧ o < 0x4200 ∧ o % 32 = 0)) →
          ∃ u, exec (.registerWrite addr v) s = .next u ∧ u = { s with regs := u.regs } ∧ RegsSameBut s u [a] ∧
            ∀ k, k < 32 →
              let kinds := (r.rw.getLsbD k, r.rwl.getLsbD k, r.w1c.getLsbD k, r.w1s.getLsbD k)
              let old := (s.rd a).getLsbD k
              let set := (RegMap.stored a v).getLsbD k
              let new := (u.rd a).getLsbD k
              (kinds = (true, false, false, false) → new = set) ∧
              (kinds = (false, true, false, false) → new = if s.regOpen b.owner i (RegMap.place b r a) then set else old) ∧
              (kinds = (false, false, true, false) → new = (old && !set)) ∧
              (kinds = (false, false, false, true) → new = (old || set)) ∧
              (kinds = (false, false, false, false) → new = old))) ∧
    (∀ t c, t < 144 → c < 8 → let a := Reg.SE_CTX_CTRL t c
      s.regBad a v = false → ∃ u, exec (.registerWrite (BitVec.ofNat 40 a) v) s = .next u ∧ RegsSameBut s u [a] ∧ OnlyTile s u t ∧
        (v.getLsbD 0 = true → (s.tilePart t = none ∨ s.tileIn t psStopped = true) →
          (u.tile t).se.shut = (s.tile t).se.shut.filter (fun d => d != c)) ∧ (v.getLsbD 0 = false → u.tiles = s.tiles)) ∧
    (∀ (p : BitVec 4) (q b : BitVec 2) t, t < 144 →
      exec (.registerWrite (BitVec.ofNat 40 (Reg.PART_START_AT_HI p.toNat)) v) s = exec (.startArm p v) s ∧
      exec (.registerWrite (BitVec.ofNat 40 (Reg.PART_STOP_AT_HI p.toNat)) v) s = exec (.stopArm p v) s ∧
      exec (.registerWrite (BitVec.ofNat 40 Reg.TIME_MS_CHANGE_HI) v) s = exec (.periodChangeArm v) s ∧
      exec (.registerWrite (BitVec.ofNat 40 Reg.TPL_EPOCH_NEXT) v) s = exec (.epochArm v) s ∧
      exec (.registerWrite (BitVec.ofNat 40 (Reg.PRB_TR_CTRL q.toNat)) v) s = exec (.traceEnable q v) s ∧
      exec (.registerWrite (BitVec.ofNat 40 (Reg.SEQ_BEAT_MIN_SLACK t)) v) s = exec (.minSlackRearm t v) s ∧
      exec (.registerWrite (BitVec.ofNat 40 (Reg.PRB_COUNT_HI t b.toNat)) v) s = exec (.prbCountHiWrite t b v) s ∧
      exec (.registerWrite (BitVec.ofNat 40 (Reg.SEQ_IMEM_DATA3 t)) v) s = exec (.seqImemData3Write t v) s ∧
      exec (.registerWrite (BitVec.ofNat 40 (Reg.TC_PMEM_DATA_HI t)) v) s = exec (.tcPmemDataHiWrite t v) s)
end

