-- ==== Sys2Proof/Laws/Bits.lean ====
section
/-! SUPPORT. The laws of fields of a word: a field reads as what was written, and every field beside it as before. -/
namespace Sys2Proof

/-- The number that a word holds after a field is replaced. -/
theorem Word.toNat_setField (x : Word) (lo w v : Nat) (h : lo + w ≤ 32) :
    (x.setField lo w v).toNat = x.toNat % 2 ^ lo + (v % 2 ^ w) * 2 ^ lo + x.toNat / 2 ^ (lo + w) * 2 ^ (lo + w) := by
  have h1 : x.toNat % 2 ^ lo + (v % 2 ^ w) * 2 ^ lo < 2 ^ (lo + w) := by
    have a : x.toNat % 2 ^ lo < 2 ^ lo := Nat.mod_lt _ (by positivity)
    have b : v % 2 ^ w + 1 ≤ 2 ^ w := Nat.mod_lt _ (by positivity)
    calc _ < 2 ^ lo + (v % 2 ^ w) * 2 ^ lo := by omega
      _ = (v % 2 ^ w + 1) * 2 ^ lo := by ring
      _ ≤ 2 ^ w * 2 ^ lo := Nat.mul_le_mul_right _ b
      _ = 2 ^ (lo + w) := by rw [Nat.pow_add, Nat.mul_comm]
  have h2 : x.toNat / 2 ^ (lo + w) + 1 ≤ 2 ^ (32 - (lo + w)) := by
    have : x.toNat < 2 ^ (lo + w) * 2 ^ (32 - (lo + w)) := by
      rw [← Nat.pow_add, show lo + w + (32 - (lo + w)) = 32 by omega]; exact x.isLt
    exact Nat.div_lt_of_lt_mul this
  have h3 : x.toNat / 2 ^ (lo + w) * 2 ^ (lo + w) + 2 ^ (lo + w) ≤ 2 ^ 32 := by
    calc _ = (x.toNat / 2 ^ (lo + w) + 1) * 2 ^ (lo + w) := by ring
      _ ≤ 2 ^ (32 - (lo + w)) * 2 ^ (lo + w) := Nat.mul_le_mul_right _ h2
      _ = 2 ^ 32 := by rw [← Nat.pow_add]; congr 1; omega
  simp only [Word.setField, BitVec.toNat_ofNat]
  exact Nat.mod_eq_of_lt (by omega)

/-- A field reads as the low bits of what was written into it. -/
theorem Word.field_setField (x : Word) (lo w v : Nat) (h : lo + w ≤ 32) : (x.setField lo w v).field lo w = v % 2 ^ w := by
  simp only [Word.field, Word.toNat_setField x lo w v h]
  have e : x.toNat % 2 ^ lo + v % 2 ^ w * 2 ^ lo + x.toNat / 2 ^ (lo + w) * 2 ^ (lo + w) =
      x.toNat % 2 ^ lo + 2 ^ lo * (v % 2 ^ w + 2 ^ w * (x.toNat / 2 ^ (lo + w))) := by rw [Nat.pow_add]; ring
  rw [e, Nat.add_mul_div_left _ _ (by positivity), Nat.div_eq_of_lt (Nat.mod_lt _ (by positivity)), Nat.zero_add,
    Nat.add_mul_mod_self_left, Nat.mod_mod]

/-- A field below the written one reads as before. -/
theorem Word.field_setField_below (x : Word) (lo w v lo' w' : Nat) (h : lo + w ≤ 32) (hl : lo' + w' ≤ lo) :
    (x.setField lo w v).field lo' w' = x.field lo' w' := by
  simp only [Word.field, Word.toNat_setField x lo w v h]
  have e : ∀ y : Nat, y / 2 ^ lo' % 2 ^ w' = y % 2 ^ lo / 2 ^ lo' % 2 ^ w' := by
    intro y
    have : lo = lo' + (w' + (lo - (lo' + w'))) := by omega
    rw [this, Nat.pow_add, Nat.mod_mul_right_div_self, Nat.pow_add, Nat.mod_mul_right_mod]
  rw [e, e x.toNat]
  congr 2
  have : x.toNat / 2 ^ (lo + w) * 2 ^ (lo + w) = 2 ^ lo * (2 ^ w * (x.toNat / 2 ^ (lo + w))) := by rw [Nat.pow_add]; ring
  rw [this, Nat.add_mul_mod_self_left, Nat.mul_comm (v % 2 ^ w), Nat.add_mul_mod_self_left, Nat.mod_mod]

/-- A field above the written one reads as before. -/
theorem Word.field_setField_above (x : Word) (lo w v lo' w' : Nat) (h : lo + w ≤ 32) (hl : lo + w ≤ lo') :
    (x.setField lo w v).field lo' w' = x.field lo' w' := by
  simp only [Word.field, Word.toNat_setField x lo w v h]
  have h1 : x.toNat % 2 ^ lo + (v % 2 ^ w) * 2 ^ lo < 2 ^ (lo + w) := by
    have a : x.toNat % 2 ^ lo < 2 ^ lo := Nat.mod_lt _ (by positivity)
    have b : v % 2 ^ w + 1 ≤ 2 ^ w := Nat.mod_lt _ (by positivity)
    calc _ < 2 ^ lo + (v % 2 ^ w) * 2 ^ lo := by omega
      _ = (v % 2 ^ w + 1) * 2 ^ lo := by ring
      _ ≤ 2 ^ w * 2 ^ lo := Nat.mul_le_mul_right _ b
      _ = 2 ^ (lo + w) := by rw [Nat.pow_add, Nat.mul_comm]
  obtain ⟨d, rfl⟩ := Nat.exists_eq_add_of_le hl
  rw [Nat.pow_add 2 (lo + w) d, ← Nat.div_div_eq_div_mul, ← Nat.div_div_eq_div_mul]
  congr 2
  rw [Nat.add_mul_div_right _ _ (by positivity), Nat.div_eq_of_lt h1, Nat.zero_add]

/-- One bit of a word is the field of width 1. -/
theorem Word.bit_eq_field (x : Word) (i : Nat) : x.bit i = decide (x.field i 1 = 1) := by
  simp [Word.bit, Word.field, BitVec.getLsbD, Nat.testBit, Nat.shiftRight_eq_div_pow, Nat.one_and_eq_mod_two]
  rcases Nat.mod_two_eq_zero_or_one (x.toNat / 2 ^ i) with h | h <;> simp [h]

/-- A bit reads as what was written into it. -/
@[simp] theorem Word.bit_setBit (x : Word) (i : Nat) (b : Bool) (h : i < 32) : (x.setBit i b).bit i = b := by
  rw [Word.bit_eq_field, Word.setBit, Word.field_setField x i 1 _ (by omega)]
  cases b <;> rfl

/-- Every other bit reads as before. -/
theorem Word.bit_setBit_ne (x : Word) (i j : Nat) (b : Bool) (h : i < 32) (hn : i ≠ j) : (x.setBit i b).bit j = x.bit j := by
  rw [Word.bit_eq_field, Word.bit_eq_field, Word.setBit]
  rcases Nat.lt_or_gt_of_ne hn with hl | hl
  · rw [Word.field_setField_above x i 1 _ j 1 (by omega) (by omega)]
  · rw [Word.field_setField_below x i 1 _ j 1 (by omega) (by omega)]

/-- A number written as `n` bytes has `n` of them. -/
@[simp] theorem length_toBytes (v n : Nat) : (toBytes v n).length = n := by
  induction n generalizing v with
  | zero => rfl
  | succ n ih => simp [toBytes, ih]

/-- A number written as bytes reads back modulo what the bytes can hold. -/
theorem ofBytes_toBytes (v n : Nat) : ofBytes (toBytes v n) = v % 256 ^ n := by
  induction n generalizing v with
  | zero => simp [toBytes, ofBytes, Nat.mod_one]
  | succ n ih =>
    rw [toBytes, ofBytes, ih, BitVec.toNat_ofNat, show (2 : Nat) ^ 8 = 256 from rfl, show 256 ^ (n + 1) = 256 * 256 ^ n from Nat.pow_succ',
      Nat.mod_mul]

end Sys2Proof
end

