-- ==== Sys2Proof/Laws/Line.lean ====
section
/-! SUPPORT. The laws of the line code: scrambling, levels and stuffing are undone by the receiver, a word whose syndromes are 0 is
its own correction, and the bytes at the front of a frame of one codeword are read from that codeword (R237 to R242). -/
namespace Sys2Proof.Machine

/-- The scrambler undoes itself (R238). -/
theorem scrambleFrom_scrambleFrom (s : Nat) (l : List Bool) : scrambleFrom s (scrambleFrom s l) = l := by
  induction l generalizing s with
  | nil => rfl
  | cons b r ih =>
    have h (x y : Bool) : ((x ^^ y) ^^ y) = x := by cases x <;> cases y <;> rfl
    simp only [scrambleFrom, ih, h]

theorem scramble_scramble (l : List Bool) : scramble (scramble l) = l := scrambleFrom_scrambleFrom _ l

/-- A scrambled sequence is as long as the plain one. -/
@[simp] theorem length_scrambleFrom (s : Nat) (l : List Bool) : (scrambleFrom s l).length = l.length := by
  induction l generalizing s with
  | nil => rfl
  | cons b r ih => simp [scrambleFrom, ih]

/-- The levels of an even number of bits give the bits back (R239). -/
theorem ofLevels_toLevels (l : List Bool) (h : l.length % 2 = 0) : ofLevels false (toLevels false l) = l := by
  induction l using toLevels.induct (nrz := false) with
  | case1 => rfl
  | case2 b hb => simp at h
  | case3 b hb => simp at h
  | case4 a b r hn => simp at hn
  | case5 a b r hn ih =>
    have ih := ih (by simp at h; omega)
    have step (x : BitVec 2) (m : List (BitVec 2)) : ofLevels false (x :: m) = ofLevels false [x] ++ ofLevels false m := by
      simp [ofLevels]
    cases a <;> cases b <;> (simp only [toLevels]; rw [if_neg (by decide), step, ih]; rfl)

/-- The receiver removes exactly the stuff symbols (R240). -/
theorem unstuffFrom_stuffFrom (l : List (BitVec 2)) (lv : BitVec 2) (n : Nat) (out : List (BitVec 2)) (h : n < 16) :
    unstuffFrom lv n out (stuffFrom lv n l) = out.reverse ++ l := by
  induction l generalizing lv n out with
  | nil => simp [stuffFrom, unstuffFrom]
  | cons x r ih =>
    have hn : n ≠ 16 := by omega
    by_cases hk : (if x = lv then n + 1 else 1) = 16
    · simp only [stuffFrom, if_pos hk]
      rw [unstuffFrom, if_neg hn, hk, unstuffFrom, if_pos rfl]
      have hx : ¬((if 2 ≤ x.toNat then (0 : BitVec 2) else 3) = x ∧ x = 3) := by rintro ⟨h1, rfl⟩; revert h1; decide
      rw [if_neg hx]
      simp only
      rw [ih _ 1 _ (by omega)]
      simp
    · simp only [stuffFrom, if_neg hk]
      have hlt : (if x = lv then n + 1 else 1) < 16 := by
        by_cases hx : x = lv
        · rw [if_pos hx] at hk ⊢; omega
        · rw [if_neg hx]; decide
      rw [unstuffFrom, if_neg hn, ih _ _ _ hlt]
      simp

theorem unstuff_stuff (l : List (BitVec 2)) : unstuff (stuff l) = l := unstuffFrom_stuffFrom l 0 12 [] (by decide)

/-- A product with 0. -/
@[simp] theorem gfMul_zero (x : Nat) : gfMul 0 x = 0 := by
  rw [gfMul]
  generalize List.range 10 = l
  induction l with
  | nil => rfl
  | cons i r ih =>
    rw [List.foldl_cons]
    split <;> exact ih

/-- Coefficients of 0 around a polynomial that vanishes at a point leave it vanishing there. -/
theorem gfEval_zeros (a b : Nat) (c : List Nat) (x : Nat) (h : gfEval c x = 0) :
    gfEval (List.replicate a 0 ++ c ++ List.replicate b 0) x = 0 := by
  have z (n : Nat) : (List.replicate n 0).foldl (fun acc c => gfMul acc x ^^^ c) 0 = 0 := by
    induction n with
    | zero => rfl
    | succ n ih => simp [List.replicate_succ, ih]
  rw [gfEval] at h
  rw [gfEval, List.foldl_append, List.foldl_append, z, h, z]

/-- A word whose syndromes are 0 is its own correction (R237). -/
theorem rsDecode_codeword (w : List Nat) (h : ∀ x ∈ gfPowers 2 1 14, gfEval w x = 0) : rsDecode w = some (w, 0) := by
  have : (rsSyndromes w).all (· == 0) = true := by simp [rsSyndromes, List.all_eq_true]; exact h
  rw [rsDecode, if_pos this]

/-- Pieces of a sequence made of pieces. -/
theorem chunks_flatMap {α β : Type} (k : Nat) (f : α → List β) (l : List α) (h : ∀ x ∈ l, (f x).length = k) :
    chunks k l.length (l.flatMap f) = l.map f := by
  induction l with
  | nil => rfl
  | cons x r ih =>
    have hx := h x (by simp)
    rw [List.flatMap_cons, List.length_cons, chunks, List.take_left' hx, List.drop_left' hx, ih (fun y hy => h y (by simp [hy])),
      List.map_cons]

/-- The length of pieces of one length, joined. -/
theorem length_flatMap_const {α β : Type} (k : Nat) (f : α → List β) (l : List α) (h : ∀ x ∈ l, (f x).length = k) :
    (l.flatMap f).length = k * l.length := by
  induction l with
  | nil => rfl
  | cons x r ih =>
    rw [List.flatMap_cons, List.length_append, h x (by simp), ih (fun y hy => h y (by simp [hy])), List.length_cons,
      Nat.mul_succ, Nat.add_comm]

/-- A frame of one codeword, in four levels, as it arrives between two commas. -/
def frameOf (w : List Nat) : List (BitVec 2) := stuff (toLevels false (scramble (w.flatMap (fun x => bitsOf x 10))))

/-- The first bytes of such a frame are those of its codeword (R235, R242). -/
theorem payloadBytes_frameOf (w : List Nat) (n : Nat) (hl : w.length = 272) (hs : ∀ x ∈ gfPowers 2 1 14, gfEval w x = 0)
    (hb : w.map (fun x => ofBits (bitsOf x 10)) = w) (hn : 8 * n ≤ 2580) (h0 : 0 < n) :
    payloadBytes (frameWords false (frameOf w)) 0 n =
      some ((chunks 8 n (((w.take 258).flatMap (fun x => bitsOf x 10)).take (8 * n))).map (fun b => BitVec.ofNat 8 (ofBits b))) := by
  have len : (w.flatMap (fun x => bitsOf x 10)).length = 2720 := by
    rw [length_flatMap_const 10 _ w (by simp [bitsOf]), hl]
  have words : (chunks 10 272 (w.flatMap (fun x => bitsOf x 10))).map ofBits = w := by
    rw [← hl, chunks_flatMap 10 (fun x => bitsOf x 10) w (by simp [bitsOf]), List.map_map]; exact hb
  have front : (frameWords false (frameOf w)).head? = some (some ((w.take 258).flatMap (fun x => bitsOf x 10)), 0) := by
    rw [frameWords, frameOf, unstuff_stuff, ofLevels_toLevels _ (by simp [scramble, len]), scramble_scramble, chunks, List.map_cons,
      List.take_of_length_le (by omega), List.head?_cons]
    simp only [len, Nat.lt_irrefl, if_false, words, rsDecode_codeword w hs]
  obtain ⟨rest, hr⟩ := List.head?_eq_some_iff.mp front
  have hi : (8 * (0 + n) - 1) / 2580 = 0 := by omega
  rw [hr]
  simp only [payloadBytes, Nat.mul_zero, Nat.zero_div, hi]
  simp

/-- Behind its one codeword such a frame has lost every other (R242). -/
theorem frameWords_frameOf_rest (w : List Nat) (hl : w.length = 272) :
    (frameWords false (frameOf w)).drop 1 = List.replicate 15 (none, 0) := by
  have len : (w.flatMap (fun x => bitsOf x 10)).length = 2720 := by rw [length_flatMap_const 10 _ w (by simp [bitsOf]), hl]
  have lost (n : Nat) : chunks 2720 n ([] : List Bool) = List.replicate n [] := by
    induction n with
    | zero => rfl
    | succ n ih => rw [chunks, List.take_nil, List.drop_nil, ih, List.replicate_succ]
  rw [frameWords, frameOf, unstuff_stuff, ofLevels_toLevels _ (by simp [scramble, len]), scramble_scramble, chunks,
    List.drop_of_length_le (Nat.le_of_eq len), lost, List.map_cons, List.drop_one, List.tail_cons, List.map_replicate]
  rfl

/-- A frame of 16 codewords, in four levels, as it arrives between two commas. -/
def frameOfAll (ws : List (List Nat)) : List (BitVec 2) :=
  stuff (toLevels false (scramble (ws.flatMap (fun w => w.flatMap (fun x => bitsOf x 10)))))

/-- Such a frame gives back the information bits of its codewords (R235, R237 to R240). -/
theorem frameWords_frameOfAll (ws : List (List Nat)) (hn : ws.length = 16) (hl : ∀ w ∈ ws, w.length = 272)
    (hs : ∀ w ∈ ws, ∀ x ∈ gfPowers 2 1 14, gfEval w x = 0) (hb : ∀ w ∈ ws, w.map (fun x => ofBits (bitsOf x 10)) = w) :
    frameWords false (frameOfAll ws) = ws.map (fun w => (some ((w.take 258).flatMap (fun x => bitsOf x 10)), 0)) := by
  have len (w : List Nat) (h : w ∈ ws) : (w.flatMap (fun x => bitsOf x 10)).length = 2720 := by
    rw [length_flatMap_const 10 _ w (by simp [bitsOf]), hl w h]
  have all : (ws.flatMap (fun w => w.flatMap (fun x => bitsOf x 10))).length = 2720 * 16 := by
    rw [length_flatMap_const 2720 _ ws len, hn]
  have cut : chunks 2720 16 (ws.flatMap (fun w => w.flatMap (fun x => bitsOf x 10))) = ws.map (fun w => w.flatMap (fun x => bitsOf x 10)) := by
    rw [← hn]; exact chunks_flatMap 2720 _ ws len
  rw [frameWords, frameOfAll, unstuff_stuff, ofLevels_toLevels _ (by simp [scramble, all]), scramble_scramble, cut, List.map_map]
  refine List.map_congr_left (fun w h => ?_)
  have words : (chunks 10 272 (w.flatMap (fun x => bitsOf x 10))).map ofBits = w := by
    rw [← hl w h, chunks_flatMap 10 (fun x => bitsOf x 10) w (by simp [bitsOf]), List.map_map]; exact hb w h
  simp only [Function.comp, len w h, Nat.lt_irrefl, if_false, words, rsDecode_codeword w (hs w h)]

end Sys2Proof.Machine
end

