-- ==== Sys2Proof/Laws/Maps.lean ====
section
/-! SUPPORT. The laws of sparse maps: a read after a write. -/
namespace Sys2Proof.Machine

/-- A written key reads as what was written, every other key as before. -/
@[simp] theorem SMap.find_set {α : Type} (m : SMap α) (i j : Nat) (x : α) :
    SMap.find (SMap.set m i x) j = if i = j then some x else SMap.find m j := by
  induction m with
  | nil => rfl
  | cons h r ih =>
    obtain ⟨k, v⟩ := h
    by_cases hk : k = i
    · subst hk; by_cases hj : k = j <;> simp [SMap.set, SMap.find, hj]
    · by_cases hl : i < k
      · simp [SMap.set, SMap.find, hk, hl]
      · by_cases hj : k = j
        · have : ¬ i = j := fun e => hk (hj.trans e.symm)
          simp only [SMap.set, if_neg hk, if_neg hl, SMap.find, if_pos hj, if_neg this]
        · simp [SMap.set, SMap.find, hk, hl, hj, ih]

/-- The same for a read with a default. -/
@[simp] theorem SMap.get_set {α : Type} (m : SMap α) (d : α) (i j : Nat) (x : α) :
    SMap.get (SMap.set m i x) d j = if i = j then x else SMap.get m d j := by
  simp only [SMap.get, SMap.find_set]; split <;> rfl

/-- The second of two writes of one key stands. -/
@[simp] theorem SMap.set_set {α : Type} (m : SMap α) (i : Nat) (x y : α) :
    SMap.set (SMap.set m i x) i y = SMap.set m i y := by
  induction m with
  | nil => simp [SMap.set]
  | cons h r ih =>
    obtain ⟨k, v⟩ := h
    by_cases hk : k = i
    · simp [SMap.set, hk]
    · by_cases hl : i < k <;> simp [SMap.set, hk, hl, ih]

/-- Writing every key of a map with what it holds: a mapped map reads as the mapped value. -/
theorem SMap.find_map {α β : Type} (m : SMap α) (f : Nat → α → β) (i : Nat) :
    SMap.find (m.map (fun p => (p.1, f p.1 p.2))) i = (SMap.find m i).map (f i) := by
  induction m with
  | nil => rfl
  | cons h r ih =>
    obtain ⟨k, v⟩ := h
    by_cases hk : k = i <;> simp [SMap.find, hk, ih]

end Sys2Proof.Machine
end

