-- ==== Sys2Proof/Laws/State.lean ====
section
/-! SUPPORT. One lemma per field of the state and update of it: an update of one field leaves every other as it was, and a read
after a write gives what was written. -/
namespace Sys2Proof.Machine

@[simp] theorem State.wr_pending (s : State) (a : Nat) (v : Word) : (s.wr a v).pending = s.pending := rfl
@[simp] theorem State.wr_store (s : State) (a : Nat) (v : Word) : (s.wr a v).store = s.store := rfl
@[simp] theorem State.wr_upsets (s : State) (a : Nat) (v : Word) : (s.wr a v).upsets = s.upsets := rfl
@[simp] theorem State.wr_tiles (s : State) (a : Nat) (v : Word) : (s.wr a v).tiles = s.tiles := rfl
@[simp] theorem State.wr_routers (s : State) (a : Nat) (v : Word) : (s.wr a v).routers = s.routers := rfl
@[simp] theorem State.wr_delivered (s : State) (a : Nat) (v : Word) : (s.wr a v).delivered = s.delivered := rfl
@[simp] theorem State.wr_edges (s : State) (a : Nat) (v : Word) : (s.wr a v).edges = s.edges := rfl
@[simp] theorem State.wr_sects (s : State) (a : Nat) (v : Word) : (s.wr a v).sects = s.sects := rfl
@[simp] theorem State.wr_bands (s : State) (a : Nat) (v : Word) : (s.wr a v).bands = s.bands := rfl
@[simp] theorem State.wr_plls (s : State) (a : Nat) (v : Word) : (s.wr a v).plls = s.plls := rfl
@[simp] theorem State.wr_boundary (s : State) (a : Nat) (v : Word) : (s.wr a v).boundary = s.boundary := rfl
@[simp] theorem State.wr_ring (s : State) (a : Nat) (v : Word) : (s.wr a v).ring = s.ring := rfl
@[simp] theorem State.wr_gpioOn (s : State) (a : Nat) (v : Word) : (s.wr a v).gpioOn = s.gpioOn := rfl
@[simp] theorem State.wr_gpio (s : State) (a : Nat) (v : Word) : (s.wr a v).gpio = s.gpio := rfl
@[simp] theorem State.wr_traces (s : State) (a : Nat) (v : Word) : (s.wr a v).traces = s.traces := rfl
@[simp] theorem State.wr_traceTick (s : State) (a : Nat) (v : Word) : (s.wr a v).traceTick = s.traceTick := rfl
@[simp] theorem State.wr_dram (s : State) (a : Nat) (v : Word) : (s.wr a v).dram = s.dram := rfl
@[simp] theorem State.wr_dramCh (s : State) (a : Nat) (v : Word) : (s.wr a v).dramCh = s.dramCh := rfl
@[simp] theorem State.wr_hubLogged (s : State) (a : Nat) (v : Word) : (s.wr a v).hubLogged = s.hubLogged := rfl
@[simp] theorem State.wr_fabReqs (s : State) (a : Nat) (v : Word) : (s.wr a v).fabReqs = s.fabReqs := rfl
@[simp] theorem State.wr_hostReads (s : State) (a : Nat) (v : Word) : (s.wr a v).hostReads = s.hostReads := rfl
@[simp] theorem State.wr_reqNum (s : State) (a : Nat) (v : Word) : (s.wr a v).reqNum = s.reqNum := rfl
@[simp] theorem State.wr_lanes (s : State) (a : Nat) (v : Word) : (s.wr a v).lanes = s.lanes := rfl
@[simp] theorem State.wr_ports (s : State) (a : Nat) (v : Word) : (s.wr a v).ports = s.ports := rfl
@[simp] theorem State.wr_chans (s : State) (a : Nat) (v : Word) : (s.wr a v).chans = s.chans := rfl
@[simp] theorem State.wr_parts (s : State) (a : Nat) (v : Word) : (s.wr a v).parts = s.parts := rfl
@[simp] theorem State.wr_search (s : State) (a : Nat) (v : Word) : (s.wr a v).search = s.search := rfl
@[simp] theorem State.wr_retired (s : State) (a : Nat) (v : Word) : (s.wr a v).retired = s.retired := rfl
@[simp] theorem State.wr_log (s : State) (a : Nat) (v : Word) : (s.wr a v).log = s.log := rfl
@[simp] theorem State.wr_logHigh (s : State) (a : Nat) (v : Word) : (s.wr a v).logHigh = s.logHigh := rfl
@[simp] theorem State.wr_logLast (s : State) (a : Nat) (v : Word) : (s.wr a v).logLast = s.logLast := rfl
@[simp] theorem State.wr_alertStatus (s : State) (a : Nat) (v : Word) : (s.wr a v).alertStatus = s.alertStatus := rfl
@[simp] theorem State.wr_alertMask (s : State) (a : Nat) (v : Word) : (s.wr a v).alertMask = s.alertMask := rfl
@[simp] theorem State.wr_notices (s : State) (a : Nat) (v : Word) : (s.wr a v).notices = s.notices := rfl
@[simp] theorem State.wr_dumpOrder (s : State) (a : Nat) (v : Word) : (s.wr a v).dumpOrder = s.dumpOrder := rfl
@[simp] theorem State.wr_owed (s : State) (a : Nat) (v : Word) : (s.wr a v).owed = s.owed := rfl
@[simp] theorem State.wr_fwLost (s : State) (a : Nat) (v : Word) : (s.wr a v).fwLost = s.fwLost := rfl
@[simp] theorem State.wr_mbx (s : State) (a : Nat) (v : Word) : (s.wr a v).mbx = s.mbx := rfl
@[simp] theorem State.wr_rejoin (s : State) (a : Nat) (v : Word) : (s.wr a v).rejoin = s.rejoin := rfl
@[simp] theorem State.wr_lastServed (s : State) (a : Nat) (v : Word) : (s.wr a v).lastServed = s.lastServed := rfl
@[simp] theorem State.wr_time (s : State) (a : Nat) (v : Word) : (s.wr a v).time = s.time := rfl
@[simp] theorem State.wr_timeUnit (s : State) (a : Nat) (v : Word) : (s.wr a v).timeUnit = s.timeUnit := rfl
@[simp] theorem State.wr_timeRuns (s : State) (a : Nat) (v : Word) : (s.wr a v).timeRuns = s.timeRuns := rfl
@[simp] theorem State.wr_cfg (s : State) (a : Nat) (v : Word) : (s.wr a v).cfg = s.cfg := rfl
@[simp] theorem State.wr_fuses (s : State) (a : Nat) (v : Word) : (s.wr a v).fuses = s.fuses := rfl
@[simp] theorem State.wr_pwr (s : State) (a : Nat) (v : Word) : (s.wr a v).pwr = s.pwr := rfl
@[simp] theorem State.wr_boot (s : State) (a : Nat) (v : Word) : (s.wr a v).boot = s.boot := rfl
@[simp] theorem State.wr_flash (s : State) (a : Nat) (v : Word) : (s.wr a v).flash = s.flash := rfl
@[simp] theorem State.wr_upload (s : State) (a : Nat) (v : Word) : (s.wr a v).upload = s.upload := rfl
@[simp] theorem State.wr_trained (s : State) (a : Nat) (v : Word) : (s.wr a v).trained = s.trained := rfl
@[simp] theorem State.wr_out (s : State) (a : Nat) (v : Word) : (s.wr a v).out = s.out := rfl
@[simp] theorem State.wr_free (s : State) (a : Nat) (v : Word) : (s.wr a v).free = s.free := rfl

@[simp] theorem State.setTile_pending (s : State) (t : Nat) (x : Tile) : (s.setTile t x).pending = s.pending := rfl
@[simp] theorem State.setTile_regs (s : State) (t : Nat) (x : Tile) : (s.setTile t x).regs = s.regs := rfl
@[simp] theorem State.setTile_store (s : State) (t : Nat) (x : Tile) : (s.setTile t x).store = s.store := rfl
@[simp] theorem State.setTile_upsets (s : State) (t : Nat) (x : Tile) : (s.setTile t x).upsets = s.upsets := rfl
@[simp] theorem State.setTile_routers (s : State) (t : Nat) (x : Tile) : (s.setTile t x).routers = s.routers := rfl
@[simp] theorem State.setTile_delivered (s : State) (t : Nat) (x : Tile) : (s.setTile t x).delivered = s.delivered := rfl
@[simp] theorem State.setTile_edges (s : State) (t : Nat) (x : Tile) : (s.setTile t x).edges = s.edges := rfl
@[simp] theorem State.setTile_sects (s : State) (t : Nat) (x : Tile) : (s.setTile t x).sects = s.sects := rfl
@[simp] theorem State.setTile_bands (s : State) (t : Nat) (x : Tile) : (s.setTile t x).bands = s.bands := rfl
@[simp] theorem State.setTile_plls (s : State) (t : Nat) (x : Tile) : (s.setTile t x).plls = s.plls := rfl
@[simp] theorem State.setTile_boundary (s : State) (t : Nat) (x : Tile) : (s.setTile t x).boundary = s.boundary := rfl
@[simp] theorem State.setTile_ring (s : State) (t : Nat) (x : Tile) : (s.setTile t x).ring = s.ring := rfl
@[simp] theorem State.setTile_gpioOn (s : State) (t : Nat) (x : Tile) : (s.setTile t x).gpioOn = s.gpioOn := rfl
@[simp] theorem State.setTile_gpio (s : State) (t : Nat) (x : Tile) : (s.setTile t x).gpio = s.gpio := rfl
@[simp] theorem State.setTile_traces (s : State) (t : Nat) (x : Tile) : (s.setTile t x).traces = s.traces := rfl
@[simp] theorem State.setTile_traceTick (s : State) (t : Nat) (x : Tile) : (s.setTile t x).traceTick = s.traceTick := rfl
@[simp] theorem State.setTile_dram (s : State) (t : Nat) (x : Tile) : (s.setTile t x).dram = s.dram := rfl
@[simp] theorem State.setTile_dramCh (s : State) (t : Nat) (x : Tile) : (s.setTile t x).dramCh = s.dramCh := rfl
@[simp] theorem State.setTile_hubLogged (s : State) (t : Nat) (x : Tile) : (s.setTile t x).hubLogged = s.hubLogged := rfl
@[simp] theorem State.setTile_fabReqs (s : State) (t : Nat) (x : Tile) : (s.setTile t x).fabReqs = s.fabReqs := rfl
@[simp] theorem State.setTile_hostReads (s : State) (t : Nat) (x : Tile) : (s.setTile t x).hostReads = s.hostReads := rfl
@[simp] theorem State.setTile_reqNum (s : State) (t : Nat) (x : Tile) : (s.setTile t x).reqNum = s.reqNum := rfl
@[simp] theorem State.setTile_lanes (s : State) (t : Nat) (x : Tile) : (s.setTile t x).lanes = s.lanes := rfl
@[simp] theorem State.setTile_ports (s : State) (t : Nat) (x : Tile) : (s.setTile t x).ports = s.ports := rfl
@[simp] theorem State.setTile_chans (s : State) (t : Nat) (x : Tile) : (s.setTile t x).chans = s.chans := rfl
@[simp] theorem State.setTile_parts (s : State) (t : Nat) (x : Tile) : (s.setTile t x).parts = s.parts := rfl
@[simp] theorem State.setTile_search (s : State) (t : Nat) (x : Tile) : (s.setTile t x).search = s.search := rfl
@[simp] theorem State.setTile_retired (s : State) (t : Nat) (x : Tile) : (s.setTile t x).retired = s.retired := rfl
@[simp] theorem State.setTile_log (s : State) (t : Nat) (x : Tile) : (s.setTile t x).log = s.log := rfl
@[simp] theorem State.setTile_logHigh (s : State) (t : Nat) (x : Tile) : (s.setTile t x).logHigh = s.logHigh := rfl
@[simp] theorem State.setTile_logLast (s : State) (t : Nat) (x : Tile) : (s.setTile t x).logLast = s.logLast := rfl
@[simp] theorem State.setTile_alertStatus (s : State) (t : Nat) (x : Tile) : (s.setTile t x).alertStatus = s.alertStatus := rfl
@[simp] theorem State.setTile_alertMask (s : State) (t : Nat) (x : Tile) : (s.setTile t x).alertMask = s.alertMask := rfl
@[simp] theorem State.setTile_notices (s : State) (t : Nat) (x : Tile) : (s.setTile t x).notices = s.notices := rfl
@[simp] theorem State.setTile_dumpOrder (s : State) (t : Nat) (x : Tile) : (s.setTile t x).dumpOrder = s.dumpOrder := rfl
@[simp] theorem State.setTile_owed (s : State) (t : Nat) (x : Tile) : (s.setTile t x).owed = s.owed := rfl
@[simp] theorem State.setTile_fwLost (s : State) (t : Nat) (x : Tile) : (s.setTile t x).fwLost = s.fwLost := rfl
@[simp] theorem State.setTile_mbx (s : State) (t : Nat) (x : Tile) : (s.setTile t x).mbx = s.mbx := rfl
@[simp] theorem State.setTile_rejoin (s : State) (t : Nat) (x : Tile) : (s.setTile t x).rejoin = s.rejoin := rfl
@[simp] theorem State.setTile_lastServed (s : State) (t : Nat) (x : Tile) : (s.setTile t x).lastServed = s.lastServed := rfl
@[simp] theorem State.setTile_time (s : State) (t : Nat) (x : Tile) : (s.setTile t x).time = s.time := rfl
@[simp] theorem State.setTile_timeUnit (s : State) (t : Nat) (x : Tile) : (s.setTile t x).timeUnit = s.timeUnit := rfl
@[simp] theorem State.setTile_timeRuns (s : State) (t : Nat) (x : Tile) : (s.setTile t x).timeRuns = s.timeRuns := rfl
@[simp] theorem State.setTile_cfg (s : State) (t : Nat) (x : Tile) : (s.setTile t x).cfg = s.cfg := rfl
@[simp] theorem State.setTile_fuses (s : State) (t : Nat) (x : Tile) : (s.setTile t x).fuses = s.fuses := rfl
@[simp] theorem State.setTile_pwr (s : State) (t : Nat) (x : Tile) : (s.setTile t x).pwr = s.pwr := rfl
@[simp] theorem State.setTile_boot (s : State) (t : Nat) (x : Tile) : (s.setTile t x).boot = s.boot := rfl
@[simp] theorem State.setTile_flash (s : State) (t : Nat) (x : Tile) : (s.setTile t x).flash = s.flash := rfl
@[simp] theorem State.setTile_upload (s : State) (t : Nat) (x : Tile) : (s.setTile t x).upload = s.upload := rfl
@[simp] theorem State.setTile_trained (s : State) (t : Nat) (x : Tile) : (s.setTile t x).trained = s.trained := rfl
@[simp] theorem State.setTile_out (s : State) (t : Nat) (x : Tile) : (s.setTile t x).out = s.out := rfl
@[simp] theorem State.setTile_free (s : State) (t : Nat) (x : Tile) : (s.setTile t x).free = s.free := rfl

@[simp] theorem State.setRouter_pending (s : State) (r : Nat) (x : Router) : (s.setRouter r x).pending = s.pending := rfl
@[simp] theorem State.setRouter_regs (s : State) (r : Nat) (x : Router) : (s.setRouter r x).regs = s.regs := rfl
@[simp] theorem State.setRouter_store (s : State) (r : Nat) (x : Router) : (s.setRouter r x).store = s.store := rfl
@[simp] theorem State.setRouter_upsets (s : State) (r : Nat) (x : Router) : (s.setRouter r x).upsets = s.upsets := rfl
@[simp] theorem State.setRouter_tiles (s : State) (r : Nat) (x : Router) : (s.setRouter r x).tiles = s.tiles := rfl
@[simp] theorem State.setRouter_delivered (s : State) (r : Nat) (x : Router) : (s.setRouter r x).delivered = s.delivered := rfl
@[simp] theorem State.setRouter_edges (s : State) (r : Nat) (x : Router) : (s.setRouter r x).edges = s.edges := rfl
@[simp] theorem State.setRouter_sects (s : State) (r : Nat) (x : Router) : (s.setRouter r x).sects = s.sects := rfl
@[simp] theorem State.setRouter_bands (s : State) (r : Nat) (x : Router) : (s.setRouter r x).bands = s.bands := rfl
@[simp] theorem State.setRouter_plls (s : State) (r : Nat) (x : Router) : (s.setRouter r x).plls = s.plls := rfl
@[simp] theorem State.setRouter_boundary (s : State) (r : Nat) (x : Router) : (s.setRouter r x).boundary = s.boundary := rfl
@[simp] theorem State.setRouter_ring (s : State) (r : Nat) (x : Router) : (s.setRouter r x).ring = s.ring := rfl
@[simp] theorem State.setRouter_gpioOn (s : State) (r : Nat) (x : Router) : (s.setRouter r x).gpioOn = s.gpioOn := rfl
@[simp] theorem State.setRouter_gpio (s : State) (r : Nat) (x : Router) : (s.setRouter r x).gpio = s.gpio := rfl
@[simp] theorem State.setRouter_traces (s : State) (r : Nat) (x : Router) : (s.setRouter r x).traces = s.traces := rfl
@[simp] theorem State.setRouter_traceTick (s : State) (r : Nat) (x : Router) : (s.setRouter r x).traceTick = s.traceTick := rfl
@[simp] theorem State.setRouter_dram (s : State) (r : Nat) (x : Router) : (s.setRouter r x).dram = s.dram := rfl
@[simp] theorem State.setRouter_dramCh (s : State) (r : Nat) (x : Router) : (s.setRouter r x).dramCh = s.dramCh := rfl
@[simp] theorem State.setRouter_hubLogged (s : State) (r : Nat) (x : Router) : (s.setRouter r x).hubLogged = s.hubLogged := rfl
@[simp] theorem State.setRouter_fabReqs (s : State) (r : Nat) (x : Router) : (s.setRouter r x).fabReqs = s.fabReqs := rfl
@[simp] theorem State.setRouter_hostReads (s : State) (r : Nat) (x : Router) : (s.setRouter r x).hostReads = s.hostReads := rfl
@[simp] theorem State.setRouter_reqNum (s : State) (r : Nat) (x : Router) : (s.setRouter r x).reqNum = s.reqNum := rfl
@[simp] theorem State.setRouter_lanes (s : State) (r : Nat) (x : Router) : (s.setRouter r x).lanes = s.lanes := rfl
@[simp] theorem State.setRouter_ports (s : State) (r : Nat) (x : Router) : (s.setRouter r x).ports = s.ports := rfl
@[simp] theorem State.setRouter_chans (s : State) (r : Nat) (x : Router) : (s.setRouter r x).chans = s.chans := rfl
@[simp] theorem State.setRouter_parts (s : State) (r : Nat) (x : Router) : (s.setRouter r x).parts = s.parts := rfl
@[simp] theorem State.setRouter_search (s : State) (r : Nat) (x : Router) : (s.setRouter r x).search = s.search := rfl
@[simp] theorem State.setRouter_retired (s : State) (r : Nat) (x : Router) : (s.setRouter r x).retired = s.retired := rfl
@[simp] theorem State.setRouter_log (s : State) (r : Nat) (x : Router) : (s.setRouter r x).log = s.log := rfl
@[simp] theorem State.setRouter_logHigh (s : State) (r : Nat) (x : Router) : (s.setRouter r x).logHigh = s.logHigh := rfl
@[simp] theorem State.setRouter_logLast (s : State) (r : Nat) (x : Router) : (s.setRouter r x).logLast = s.logLast := rfl
@[simp] theorem State.setRouter_alertStatus (s : State) (r : Nat) (x : Router) : (s.setRouter r x).alertStatus = s.alertStatus := rfl
@[simp] theorem State.setRouter_alertMask (s : State) (r : Nat) (x : Router) : (s.setRouter r x).alertMask = s.alertMask := rfl
@[simp] theorem State.setRouter_notices (s : State) (r : Nat) (x : Router) : (s.setRouter r x).notices = s.notices := rfl
@[simp] theorem State.setRouter_dumpOrder (s : State) (r : Nat) (x : Router) : (s.setRouter r x).dumpOrder = s.dumpOrder := rfl
@[simp] theorem State.setRouter_owed (s : State) (r : Nat) (x : Router) : (s.setRouter r x).owed = s.owed := rfl
@[simp] theorem State.setRouter_fwLost (s : State) (r : Nat) (x : Router) : (s.setRouter r x).fwLost = s.fwLost := rfl
@[simp] theorem State.setRouter_mbx (s : State) (r : Nat) (x : Router) : (s.setRouter r x).mbx = s.mbx := rfl
@[simp] theorem State.setRouter_rejoin (s : State) (r : Nat) (x : Router) : (s.setRouter r x).rejoin = s.rejoin := rfl
@[simp] theorem State.setRouter_lastServed (s : State) (r : Nat) (x : Router) : (s.setRouter r x).lastServed = s.lastServed := rfl
@[simp] theorem State.setRouter_time (s : State) (r : Nat) (x : Router) : (s.setRouter r x).time = s.time := rfl
@[simp] theorem State.setRouter_timeUnit (s : State) (r : Nat) (x : Router) : (s.setRouter r x).timeUnit = s.timeUnit := rfl
@[simp] theorem State.setRouter_timeRuns (s : State) (r : Nat) (x : Router) : (s.setRouter r x).timeRuns = s.timeRuns := rfl
@[simp] theorem State.setRouter_cfg (s : State) (r : Nat) (x : Router) : (s.setRouter r x).cfg = s.cfg := rfl
@[simp] theorem State.setRouter_fuses (s : State) (r : Nat) (x : Router) : (s.setRouter r x).fuses = s.fuses := rfl
@[simp] theorem State.setRouter_pwr (s : State) (r : Nat) (x : Router) : (s.setRouter r x).pwr = s.pwr := rfl
@[simp] theorem State.setRouter_boot (s : State) (r : Nat) (x : Router) : (s.setRouter r x).boot = s.boot := rfl
@[simp] theorem State.setRouter_flash (s : State) (r : Nat) (x : Router) : (s.setRouter r x).flash = s.flash := rfl
@[simp] theorem State.setRouter_upload (s : State) (r : Nat) (x : Router) : (s.setRouter r x).upload = s.upload := rfl
@[simp] theorem State.setRouter_trained (s : State) (r : Nat) (x : Router) : (s.setRouter r x).trained = s.trained := rfl
@[simp] theorem State.setRouter_out (s : State) (r : Nat) (x : Router) : (s.setRouter r x).out = s.out := rfl
@[simp] theorem State.setRouter_free (s : State) (r : Nat) (x : Router) : (s.setRouter r x).free = s.free := rfl

@[simp] theorem State.setEdge_pending (s : State) (e : Nat) (x : EdgeSt) : (s.setEdge e x).pending = s.pending := rfl
@[simp] theorem State.setEdge_regs (s : State) (e : Nat) (x : EdgeSt) : (s.setEdge e x).regs = s.regs := rfl
@[simp] theorem State.setEdge_store (s : State) (e : Nat) (x : EdgeSt) : (s.setEdge e x).store = s.store := rfl
@[simp] theorem State.setEdge_upsets (s : State) (e : Nat) (x : EdgeSt) : (s.setEdge e x).upsets = s.upsets := rfl
@[simp] theorem State.setEdge_tiles (s : State) (e : Nat) (x : EdgeSt) : (s.setEdge e x).tiles = s.tiles := rfl
@[simp] theorem State.setEdge_routers (s : State) (e : Nat) (x : EdgeSt) : (s.setEdge e x).routers = s.routers := rfl
@[simp] theorem State.setEdge_delivered (s : State) (e : Nat) (x : EdgeSt) : (s.setEdge e x).delivered = s.delivered := rfl
@[simp] theorem State.setEdge_sects (s : State) (e : Nat) (x : EdgeSt) : (s.setEdge e x).sects = s.sects := rfl
@[simp] theorem State.setEdge_bands (s : State) (e : Nat) (x : EdgeSt) : (s.setEdge e x).bands = s.bands := rfl
@[simp] theorem State.setEdge_plls (s : State) (e : Nat) (x : EdgeSt) : (s.setEdge e x).plls = s.plls := rfl
@[simp] theorem State.setEdge_boundary (s : State) (e : Nat) (x : EdgeSt) : (s.setEdge e x).boundary = s.boundary := rfl
@[simp] theorem State.setEdge_ring (s : State) (e : Nat) (x : EdgeSt) : (s.setEdge e x).ring = s.ring := rfl
@[simp] theorem State.setEdge_gpioOn (s : State) (e : Nat) (x : EdgeSt) : (s.setEdge e x).gpioOn = s.gpioOn := rfl
@[simp] theorem State.setEdge_gpio (s : State) (e : Nat) (x : EdgeSt) : (s.setEdge e x).gpio = s.gpio := rfl
@[simp] theorem State.setEdge_traces (s : State) (e : Nat) (x : EdgeSt) : (s.setEdge e x).traces = s.traces := rfl
@[simp] theorem State.setEdge_traceTick (s : State) (e : Nat) (x : EdgeSt) : (s.setEdge e x).traceTick = s.traceTick := rfl
@[simp] theorem State.setEdge_dram (s : State) (e : Nat) (x : EdgeSt) : (s.setEdge e x).dram = s.dram := rfl
@[simp] theorem State.setEdge_dramCh (s : State) (e : Nat) (x : EdgeSt) : (s.setEdge e x).dramCh = s.dramCh := rfl
@[simp] theorem State.setEdge_hubLogged (s : State) (e : Nat) (x : EdgeSt) : (s.setEdge e x).hubLogged = s.hubLogged := rfl
@[simp] theorem State.setEdge_fabReqs (s : State) (e : Nat) (x : EdgeSt) : (s.setEdge e x).fabReqs = s.fabReqs := rfl
@[simp] theorem State.setEdge_hostReads (s : State) (e : Nat) (x : EdgeSt) : (s.setEdge e x).hostReads = s.hostReads := rfl
@[simp] theorem State.setEdge_reqNum (s : State) (e : Nat) (x : EdgeSt) : (s.setEdge e x).reqNum = s.reqNum := rfl
@[simp] theorem State.setEdge_lanes (s : State) (e : Nat) (x : EdgeSt) : (s.setEdge e x).lanes = s.lanes := rfl
@[simp] theorem State.setEdge_ports (s : State) (e : Nat) (x : EdgeSt) : (s.setEdge e x).ports = s.ports := rfl
@[simp] theorem State.setEdge_chans (s : State) (e : Nat) (x : EdgeSt) : (s.setEdge e x).chans = s.chans := rfl
@[simp] theorem State.setEdge_parts (s : State) (e : Nat) (x : EdgeSt) : (s.setEdge e x).parts = s.parts := rfl
@[simp] theorem State.setEdge_search (s : State) (e : Nat) (x : EdgeSt) : (s.setEdge e x).search = s.search := rfl
@[simp] theorem State.setEdge_retired (s : State) (e : Nat) (x : EdgeSt) : (s.setEdge e x).retired = s.retired := rfl
@[simp] theorem State.setEdge_log (s : State) (e : Nat) (x : EdgeSt) : (s.setEdge e x).log = s.log := rfl
@[simp] theorem State.setEdge_logHigh (s : State) (e : Nat) (x : EdgeSt) : (s.setEdge e x).logHigh = s.logHigh := rfl
@[simp] theorem State.setEdge_logLast (s : State) (e : Nat) (x : EdgeSt) : (s.setEdge e x).logLast = s.logLast := rfl
@[simp] theorem State.setEdge_alertStatus (s : State) (e : Nat) (x : EdgeSt) : (s.setEdge e x).alertStatus = s.alertStatus := rfl
@[simp] theorem State.setEdge_alertMask (s : State) (e : Nat) (x : EdgeSt) : (s.setEdge e x).alertMask = s.alertMask := rfl
@[simp] theorem State.setEdge_notices (s : State) (e : Nat) (x : EdgeSt) : (s.setEdge e x).notices = s.notices := rfl
@[simp] theorem State.setEdge_dumpOrder (s : State) (e : Nat) (x : EdgeSt) : (s.setEdge e x).dumpOrder = s.dumpOrder := rfl
@[simp] theorem State.setEdge_owed (s : State) (e : Nat) (x : EdgeSt) : (s.setEdge e x).owed = s.owed := rfl
@[simp] theorem State.setEdge_fwLost (s : State) (e : Nat) (x : EdgeSt) : (s.setEdge e x).fwLost = s.fwLost := rfl
@[simp] theorem State.setEdge_mbx (s : State) (e : Nat) (x : EdgeSt) : (s.setEdge e x).mbx = s.mbx := rfl
@[simp] theorem State.setEdge_rejoin (s : State) (e : Nat) (x : EdgeSt) : (s.setEdge e x).rejoin = s.rejoin := rfl
@[simp] theorem State.setEdge_lastServed (s : State) (e : Nat) (x : EdgeSt) : (s.setEdge e x).lastServed = s.lastServed := rfl
@[simp] theorem State.setEdge_time (s : State) (e : Nat) (x : EdgeSt) : (s.setEdge e x).time = s.time := rfl
@[simp] theorem State.setEdge_timeUnit (s : State) (e : Nat) (x : EdgeSt) : (s.setEdge e x).timeUnit = s.timeUnit := rfl
@[simp] theorem State.setEdge_timeRuns (s : State) (e : Nat) (x : EdgeSt) : (s.setEdge e x).timeRuns = s.timeRuns := rfl
@[simp] theorem State.setEdge_cfg (s : State) (e : Nat) (x : EdgeSt) : (s.setEdge e x).cfg = s.cfg := rfl
@[simp] theorem State.setEdge_fuses (s : State) (e : Nat) (x : EdgeSt) : (s.setEdge e x).fuses = s.fuses := rfl
@[simp] theorem State.setEdge_pwr (s : State) (e : Nat) (x : EdgeSt) : (s.setEdge e x).pwr = s.pwr := rfl
@[simp] theorem State.setEdge_boot (s : State) (e : Nat) (x : EdgeSt) : (s.setEdge e x).boot = s.boot := rfl
@[simp] theorem State.setEdge_flash (s : State) (e : Nat) (x : EdgeSt) : (s.setEdge e x).flash = s.flash := rfl
@[simp] theorem State.setEdge_upload (s : State) (e : Nat) (x : EdgeSt) : (s.setEdge e x).upload = s.upload := rfl
@[simp] theorem State.setEdge_trained (s : State) (e : Nat) (x : EdgeSt) : (s.setEdge e x).trained = s.trained := rfl
@[simp] theorem State.setEdge_out (s : State) (e : Nat) (x : EdgeSt) : (s.setEdge e x).out = s.out := rfl
@[simp] theorem State.setEdge_free (s : State) (e : Nat) (x : EdgeSt) : (s.setEdge e x).free = s.free := rfl

@[simp] theorem State.setPart_pending (s : State) (p : Nat) (x : Part) : (s.setPart p x).pending = s.pending := rfl
@[simp] theorem State.setPart_regs (s : State) (p : Nat) (x : Part) : (s.setPart p x).regs = s.regs := rfl
@[simp] theorem State.setPart_store (s : State) (p : Nat) (x : Part) : (s.setPart p x).store = s.store := rfl
@[simp] theorem State.setPart_upsets (s : State) (p : Nat) (x : Part) : (s.setPart p x).upsets = s.upsets := rfl
@[simp] theorem State.setPart_tiles (s : State) (p : Nat) (x : Part) : (s.setPart p x).tiles = s.tiles := rfl
@[simp] theorem State.setPart_routers (s : State) (p : Nat) (x : Part) : (s.setPart p x).routers = s.routers := rfl
@[simp] theorem State.setPart_delivered (s : State) (p : Nat) (x : Part) : (s.setPart p x).delivered = s.delivered := rfl
@[simp] theorem State.setPart_edges (s : State) (p : Nat) (x : Part) : (s.setPart p x).edges = s.edges := rfl
@[simp] theorem State.setPart_sects (s : State) (p : Nat) (x : Part) : (s.setPart p x).sects = s.sects := rfl
@[simp] theorem State.setPart_bands (s : State) (p : Nat) (x : Part) : (s.setPart p x).bands = s.bands := rfl
@[simp] theorem State.setPart_plls (s : State) (p : Nat) (x : Part) : (s.setPart p x).plls = s.plls := rfl
@[simp] theorem State.setPart_boundary (s : State) (p : Nat) (x : Part) : (s.setPart p x).boundary = s.boundary := rfl
@[simp] theorem State.setPart_ring (s : State) (p : Nat) (x : Part) : (s.setPart p x).ring = s.ring := rfl
@[simp] theorem State.setPart_gpioOn (s : State) (p : Nat) (x : Part) : (s.setPart p x).gpioOn = s.gpioOn := rfl
@[simp] theorem State.setPart_gpio (s : State) (p : Nat) (x : Part) : (s.setPart p x).gpio = s.gpio := rfl
@[simp] theorem State.setPart_traces (s : State) (p : Nat) (x : Part) : (s.setPart p x).traces = s.traces := rfl
@[simp] theorem State.setPart_traceTick (s : State) (p : Nat) (x : Part) : (s.setPart p x).traceTick = s.traceTick := rfl
@[simp] theorem State.setPart_dram (s : State) (p : Nat) (x : Part) : (s.setPart p x).dram = s.dram := rfl
@[simp] theorem State.setPart_dramCh (s : State) (p : Nat) (x : Part) : (s.setPart p x).dramCh = s.dramCh := rfl
@[simp] theorem State.setPart_hubLogged (s : State) (p : Nat) (x : Part) : (s.setPart p x).hubLogged = s.hubLogged := rfl
@[simp] theorem State.setPart_fabReqs (s : State) (p : Nat) (x : Part) : (s.setPart p x).fabReqs = s.fabReqs := rfl
@[simp] theorem State.setPart_hostReads (s : State) (p : Nat) (x : Part) : (s.setPart p x).hostReads = s.hostReads := rfl
@[simp] theorem State.setPart_reqNum (s : State) (p : Nat) (x : Part) : (s.setPart p x).reqNum = s.reqNum := rfl
@[simp] theorem State.setPart_lanes (s : State) (p : Nat) (x : Part) : (s.setPart p x).lanes = s.lanes := rfl
@[simp] theorem State.setPart_ports (s : State) (p : Nat) (x : Part) : (s.setPart p x).ports = s.ports := rfl
@[simp] theorem State.setPart_chans (s : State) (p : Nat) (x : Part) : (s.setPart p x).chans = s.chans := rfl
@[simp] theorem State.setPart_search (s : State) (p : Nat) (x : Part) : (s.setPart p x).search = s.search := rfl
@[simp] theorem State.setPart_retired (s : State) (p : Nat) (x : Part) : (s.setPart p x).retired = s.retired := rfl
@[simp] theorem State.setPart_log (s : State) (p : Nat) (x : Part) : (s.setPart p x).log = s.log := rfl
@[simp] theorem State.setPart_logHigh (s : State) (p : Nat) (x : Part) : (s.setPart p x).logHigh = s.logHigh := rfl
@[simp] theorem State.setPart_logLast (s : State) (p : Nat) (x : Part) : (s.setPart p x).logLast = s.logLast := rfl
@[simp] theorem State.setPart_alertStatus (s : State) (p : Nat) (x : Part) : (s.setPart p x).alertStatus = s.alertStatus := rfl
@[simp] theorem State.setPart_alertMask (s : State) (p : Nat) (x : Part) : (s.setPart p x).alertMask = s.alertMask := rfl
@[simp] theorem State.setPart_notices (s : State) (p : Nat) (x : Part) : (s.setPart p x).notices = s.notices := rfl
@[simp] theorem State.setPart_dumpOrder (s : State) (p : Nat) (x : Part) : (s.setPart p x).dumpOrder = s.dumpOrder := rfl
@[simp] theorem State.setPart_owed (s : State) (p : Nat) (x : Part) : (s.setPart p x).owed = s.owed := rfl
@[simp] theorem State.setPart_fwLost (s : State) (p : Nat) (x : Part) : (s.setPart p x).fwLost = s.fwLost := rfl
@[simp] theorem State.setPart_mbx (s : State) (p : Nat) (x : Part) : (s.setPart p x).mbx = s.mbx := rfl
@[simp] theorem State.setPart_rejoin (s : State) (p : Nat) (x : Part) : (s.setPart p x).rejoin = s.rejoin := rfl
@[simp] theorem State.setPart_lastServed (s : State) (p : Nat) (x : Part) : (s.setPart p x).lastServed = s.lastServed := rfl
@[simp] theorem State.setPart_time (s : State) (p : Nat) (x : Part) : (s.setPart p x).time = s.time := rfl
@[simp] theorem State.setPart_timeUnit (s : State) (p : Nat) (x : Part) : (s.setPart p x).timeUnit = s.timeUnit := rfl
@[simp] theorem State.setPart_timeRuns (s : State) (p : Nat) (x : Part) : (s.setPart p x).timeRuns = s.timeRuns := rfl
@[simp] theorem State.setPart_cfg (s : State) (p : Nat) (x : Part) : (s.setPart p x).cfg = s.cfg := rfl
@[simp] theorem State.setPart_fuses (s : State) (p : Nat) (x : Part) : (s.setPart p x).fuses = s.fuses := rfl
@[simp] theorem State.setPart_pwr (s : State) (p : Nat) (x : Part) : (s.setPart p x).pwr = s.pwr := rfl
@[simp] theorem State.setPart_boot (s : State) (p : Nat) (x : Part) : (s.setPart p x).boot = s.boot := rfl
@[simp] theorem State.setPart_flash (s : State) (p : Nat) (x : Part) : (s.setPart p x).flash = s.flash := rfl
@[simp] theorem State.setPart_upload (s : State) (p : Nat) (x : Part) : (s.setPart p x).upload = s.upload := rfl
@[simp] theorem State.setPart_trained (s : State) (p : Nat) (x : Part) : (s.setPart p x).trained = s.trained := rfl
@[simp] theorem State.setPart_out (s : State) (p : Nat) (x : Part) : (s.setPart p x).out = s.out := rfl
@[simp] theorem State.setPart_free (s : State) (p : Nat) (x : Part) : (s.setPart p x).free = s.free := rfl

@[simp] theorem State.setFnMbx_pending (s : State) (f : Nat) (x : MbxFn) : (s.setFnMbx f x).pending = s.pending := rfl
@[simp] theorem State.setFnMbx_regs (s : State) (f : Nat) (x : MbxFn) : (s.setFnMbx f x).regs = s.regs := rfl
@[simp] theorem State.setFnMbx_store (s : State) (f : Nat) (x : MbxFn) : (s.setFnMbx f x).store = s.store := rfl
@[simp] theorem State.setFnMbx_upsets (s : State) (f : Nat) (x : MbxFn) : (s.setFnMbx f x).upsets = s.upsets := rfl
@[simp] theorem State.setFnMbx_tiles (s : State) (f : Nat) (x : MbxFn) : (s.setFnMbx f x).tiles = s.tiles := rfl
@[simp] theorem State.setFnMbx_routers (s : State) (f : Nat) (x : MbxFn) : (s.setFnMbx f x).routers = s.routers := rfl
@[simp] theorem State.setFnMbx_delivered (s : State) (f : Nat) (x : MbxFn) : (s.setFnMbx f x).delivered = s.delivered := rfl
@[simp] theorem State.setFnMbx_edges (s : State) (f : Nat) (x : MbxFn) : (s.setFnMbx f x).edges = s.edges := rfl
@[simp] theorem State.setFnMbx_sects (s : State) (f : Nat) (x : MbxFn) : (s.setFnMbx f x).sects = s.sects := rfl
@[simp] theorem State.setFnMbx_bands (s : State) (f : Nat) (x : MbxFn) : (s.setFnMbx f x).bands = s.bands := rfl
@[simp] theorem State.setFnMbx_plls (s : State) (f : Nat) (x : MbxFn) : (s.setFnMbx f x).plls = s.plls := rfl
@[simp] theorem State.setFnMbx_boundary (s : State) (f : Nat) (x : MbxFn) : (s.setFnMbx f x).boundary = s.boundary := rfl
@[simp] theorem State.setFnMbx_ring (s : State) (f : Nat) (x : MbxFn) : (s.setFnMbx f x).ring = s.ring := rfl
@[simp] theorem State.setFnMbx_gpioOn (s : State) (f : Nat) (x : MbxFn) : (s.setFnMbx f x).gpioOn = s.gpioOn := rfl
@[simp] theorem State.setFnMbx_gpio (s : State) (f : Nat) (x : MbxFn) : (s.setFnMbx f x).gpio = s.gpio := rfl
@[simp] theorem State.setFnMbx_traces (s : State) (f : Nat) (x : MbxFn) : (s.setFnMbx f x).traces = s.traces := rfl
@[simp] theorem State.setFnMbx_traceTick (s : State) (f : Nat) (x : MbxFn) : (s.setFnMbx f x).traceTick = s.traceTick := rfl
@[simp] theorem State.setFnMbx_dram (s : State) (f : Nat) (x : MbxFn) : (s.setFnMbx f x).dram = s.dram := rfl
@[simp] theorem State.setFnMbx_dramCh (s : State) (f : Nat) (x : MbxFn) : (s.setFnMbx f x).dramCh = s.dramCh := rfl
@[simp] theorem State.setFnMbx_hubLogged (s : State) (f : Nat) (x : MbxFn) : (s.setFnMbx f x).hubLogged = s.hubLogged := rfl
@[simp] theorem State.setFnMbx_fabReqs (s : State) (f : Nat) (x : MbxFn) : (s.setFnMbx f x).fabReqs = s.fabReqs := rfl
@[simp] theorem State.setFnMbx_hostReads (s : State) (f : Nat) (x : MbxFn) : (s.setFnMbx f x).hostReads = s.hostReads := rfl
@[simp] theorem State.setFnMbx_reqNum (s : State) (f : Nat) (x : MbxFn) : (s.setFnMbx f x).reqNum = s.reqNum := rfl
@[simp] theorem State.setFnMbx_lanes (s : State) (f : Nat) (x : MbxFn) : (s.setFnMbx f x).lanes = s.lanes := rfl
@[simp] theorem State.setFnMbx_ports (s : State) (f : Nat) (x : MbxFn) : (s.setFnMbx f x).ports = s.ports := rfl
@[simp] theorem State.setFnMbx_chans (s : State) (f : Nat) (x : MbxFn) : (s.setFnMbx f x).chans = s.chans := rfl
@[simp] theorem State.setFnMbx_parts (s : State) (f : Nat) (x : MbxFn) : (s.setFnMbx f x).parts = s.parts := rfl
@[simp] theorem State.setFnMbx_search (s : State) (f : Nat) (x : MbxFn) : (s.setFnMbx f x).search = s.search := rfl
@[simp] theorem State.setFnMbx_retired (s : State) (f : Nat) (x : MbxFn) : (s.setFnMbx f x).retired = s.retired := rfl
@[simp] theorem State.setFnMbx_log (s : State) (f : Nat) (x : MbxFn) : (s.setFnMbx f x).log = s.log := rfl
@[simp] theorem State.setFnMbx_logHigh (s : State) (f : Nat) (x : MbxFn) : (s.setFnMbx f x).logHigh = s.logHigh := rfl
@[simp] theorem State.setFnMbx_logLast (s : State) (f : Nat) (x : MbxFn) : (s.setFnMbx f x).logLast = s.logLast := rfl
@[simp] theorem State.setFnMbx_alertStatus (s : State) (f : Nat) (x : MbxFn) : (s.setFnMbx f x).alertStatus = s.alertStatus := rfl
@[simp] theorem State.setFnMbx_alertMask (s : State) (f : Nat) (x : MbxFn) : (s.setFnMbx f x).alertMask = s.alertMask := rfl
@[simp] theorem State.setFnMbx_notices (s : State) (f : Nat) (x : MbxFn) : (s.setFnMbx f x).notices = s.notices := rfl
@[simp] theorem State.setFnMbx_dumpOrder (s : State) (f : Nat) (x : MbxFn) : (s.setFnMbx f x).dumpOrder = s.dumpOrder := rfl
@[simp] theorem State.setFnMbx_owed (s : State) (f : Nat) (x : MbxFn) : (s.setFnMbx f x).owed = s.owed := rfl
@[simp] theorem State.setFnMbx_fwLost (s : State) (f : Nat) (x : MbxFn) : (s.setFnMbx f x).fwLost = s.fwLost := rfl
@[simp] theorem State.setFnMbx_rejoin (s : State) (f : Nat) (x : MbxFn) : (s.setFnMbx f x).rejoin = s.rejoin := rfl
@[simp] theorem State.setFnMbx_lastServed (s : State) (f : Nat) (x : MbxFn) : (s.setFnMbx f x).lastServed = s.lastServed := rfl
@[simp] theorem State.setFnMbx_time (s : State) (f : Nat) (x : MbxFn) : (s.setFnMbx f x).time = s.time := rfl
@[simp] theorem State.setFnMbx_timeUnit (s : State) (f : Nat) (x : MbxFn) : (s.setFnMbx f x).timeUnit = s.timeUnit := rfl
@[simp] theorem State.setFnMbx_timeRuns (s : State) (f : Nat) (x : MbxFn) : (s.setFnMbx f x).timeRuns = s.timeRuns := rfl
@[simp] theorem State.setFnMbx_cfg (s : State) (f : Nat) (x : MbxFn) : (s.setFnMbx f x).cfg = s.cfg := rfl
@[simp] theorem State.setFnMbx_fuses (s : State) (f : Nat) (x : MbxFn) : (s.setFnMbx f x).fuses = s.fuses := rfl
@[simp] theorem State.setFnMbx_pwr (s : State) (f : Nat) (x : MbxFn) : (s.setFnMbx f x).pwr = s.pwr := rfl
@[simp] theorem State.setFnMbx_boot (s : State) (f : Nat) (x : MbxFn) : (s.setFnMbx f x).boot = s.boot := rfl
@[simp] theorem State.setFnMbx_flash (s : State) (f : Nat) (x : MbxFn) : (s.setFnMbx f x).flash = s.flash := rfl
@[simp] theorem State.setFnMbx_upload (s : State) (f : Nat) (x : MbxFn) : (s.setFnMbx f x).upload = s.upload := rfl
@[simp] theorem State.setFnMbx_trained (s : State) (f : Nat) (x : MbxFn) : (s.setFnMbx f x).trained = s.trained := rfl
@[simp] theorem State.setFnMbx_out (s : State) (f : Nat) (x : MbxFn) : (s.setFnMbx f x).out = s.out := rfl
@[simp] theorem State.setFnMbx_free (s : State) (f : Nat) (x : MbxFn) : (s.setFnMbx f x).free = s.free := rfl

@[simp] theorem State.setPort_pending (s : State) (p : Nat) (x : PortSt) : (s.setPort p x).pending = s.pending := rfl
@[simp] theorem State.setPort_regs (s : State) (p : Nat) (x : PortSt) : (s.setPort p x).regs = s.regs := rfl
@[simp] theorem State.setPort_store (s : State) (p : Nat) (x : PortSt) : (s.setPort p x).store = s.store := rfl
@[simp] theorem State.setPort_upsets (s : State) (p : Nat) (x : PortSt) : (s.setPort p x).upsets = s.upsets := rfl
@[simp] theorem State.setPort_tiles (s : State) (p : Nat) (x : PortSt) : (s.setPort p x).tiles = s.tiles := rfl
@[simp] theorem State.setPort_routers (s : State) (p : Nat) (x : PortSt) : (s.setPort p x).routers = s.routers := rfl
@[simp] theorem State.setPort_delivered (s : State) (p : Nat) (x : PortSt) : (s.setPort p x).delivered = s.delivered := rfl
@[simp] theorem State.setPort_edges (s : State) (p : Nat) (x : PortSt) : (s.setPort p x).edges = s.edges := rfl
@[simp] theorem State.setPort_sects (s : State) (p : Nat) (x : PortSt) : (s.setPort p x).sects = s.sects := rfl
@[simp] theorem State.setPort_bands (s : State) (p : Nat) (x : PortSt) : (s.setPort p x).bands = s.bands := rfl
@[simp] theorem State.setPort_plls (s : State) (p : Nat) (x : PortSt) : (s.setPort p x).plls = s.plls := rfl
@[simp] theorem State.setPort_boundary (s : State) (p : Nat) (x : PortSt) : (s.setPort p x).boundary = s.boundary := rfl
@[simp] theorem State.setPort_ring (s : State) (p : Nat) (x : PortSt) : (s.setPort p x).ring = s.ring := rfl
@[simp] theorem State.setPort_gpioOn (s : State) (p : Nat) (x : PortSt) : (s.setPort p x).gpioOn = s.gpioOn := rfl
@[simp] theorem State.setPort_gpio (s : State) (p : Nat) (x : PortSt) : (s.setPort p x).gpio = s.gpio := rfl
@[simp] theorem State.setPort_traces (s : State) (p : Nat) (x : PortSt) : (s.setPort p x).traces = s.traces := rfl
@[simp] theorem State.setPort_traceTick (s : State) (p : Nat) (x : PortSt) : (s.setPort p x).traceTick = s.traceTick := rfl
@[simp] theorem State.setPort_dram (s : State) (p : Nat) (x : PortSt) : (s.setPort p x).dram = s.dram := rfl
@[simp] theorem State.setPort_dramCh (s : State) (p : Nat) (x : PortSt) : (s.setPort p x).dramCh = s.dramCh := rfl
@[simp] theorem State.setPort_hubLogged (s : State) (p : Nat) (x : PortSt) : (s.setPort p x).hubLogged = s.hubLogged := rfl
@[simp] theorem State.setPort_fabReqs (s : State) (p : Nat) (x : PortSt) : (s.setPort p x).fabReqs = s.fabReqs := rfl
@[simp] theorem State.setPort_hostReads (s : State) (p : Nat) (x : PortSt) : (s.setPort p x).hostReads = s.hostReads := rfl
@[simp] theorem State.setPort_reqNum (s : State) (p : Nat) (x : PortSt) : (s.setPort p x).reqNum = s.reqNum := rfl
@[simp] theorem State.setPort_lanes (s : State) (p : Nat) (x : PortSt) : (s.setPort p x).lanes = s.lanes := rfl
@[simp] theorem State.setPort_chans (s : State) (p : Nat) (x : PortSt) : (s.setPort p x).chans = s.chans := rfl
@[simp] theorem State.setPort_parts (s : State) (p : Nat) (x : PortSt) : (s.setPort p x).parts = s.parts := rfl
@[simp] theorem State.setPort_search (s : State) (p : Nat) (x : PortSt) : (s.setPort p x).search = s.search := rfl
@[simp] theorem State.setPort_retired (s : State) (p : Nat) (x : PortSt) : (s.setPort p x).retired = s.retired := rfl
@[simp] theorem State.setPort_log (s : State) (p : Nat) (x : PortSt) : (s.setPort p x).log = s.log := rfl
@[simp] theorem State.setPort_logHigh (s : State) (p : Nat) (x : PortSt) : (s.setPort p x).logHigh = s.logHigh := rfl
@[simp] theorem State.setPort_logLast (s : State) (p : Nat) (x : PortSt) : (s.setPort p x).logLast = s.logLast := rfl
@[simp] theorem State.setPort_alertStatus (s : State) (p : Nat) (x : PortSt) : (s.setPort p x).alertStatus = s.alertStatus := rfl
@[simp] theorem State.setPort_alertMask (s : State) (p : Nat) (x : PortSt) : (s.setPort p x).alertMask = s.alertMask := rfl
@[simp] theorem State.setPort_notices (s : State) (p : Nat) (x : PortSt) : (s.setPort p x).notices = s.notices := rfl
@[simp] theorem State.setPort_dumpOrder (s : State) (p : Nat) (x : PortSt) : (s.setPort p x).dumpOrder = s.dumpOrder := rfl
@[simp] theorem State.setPort_owed (s : State) (p : Nat) (x : PortSt) : (s.setPort p x).owed = s.owed := rfl
@[simp] theorem State.setPort_fwLost (s : State) (p : Nat) (x : PortSt) : (s.setPort p x).fwLost = s.fwLost := rfl
@[simp] theorem State.setPort_mbx (s : State) (p : Nat) (x : PortSt) : (s.setPort p x).mbx = s.mbx := rfl
@[simp] theorem State.setPort_rejoin (s : State) (p : Nat) (x : PortSt) : (s.setPort p x).rejoin = s.rejoin := rfl
@[simp] theorem State.setPort_lastServed (s : State) (p : Nat) (x : PortSt) : (s.setPort p x).lastServed = s.lastServed := rfl
@[simp] theorem State.setPort_time (s : State) (p : Nat) (x : PortSt) : (s.setPort p x).time = s.time := rfl
@[simp] theorem State.setPort_timeUnit (s : State) (p : Nat) (x : PortSt) : (s.setPort p x).timeUnit = s.timeUnit := rfl
@[simp] theorem State.setPort_timeRuns (s : State) (p : Nat) (x : PortSt) : (s.setPort p x).timeRuns = s.timeRuns := rfl
@[simp] theorem State.setPort_cfg (s : State) (p : Nat) (x : PortSt) : (s.setPort p x).cfg = s.cfg := rfl
@[simp] theorem State.setPort_fuses (s : State) (p : Nat) (x : PortSt) : (s.setPort p x).fuses = s.fuses := rfl
@[simp] theorem State.setPort_pwr (s : State) (p : Nat) (x : PortSt) : (s.setPort p x).pwr = s.pwr := rfl
@[simp] theorem State.setPort_boot (s : State) (p : Nat) (x : PortSt) : (s.setPort p x).boot = s.boot := rfl
@[simp] theorem State.setPort_flash (s : State) (p : Nat) (x : PortSt) : (s.setPort p x).flash = s.flash := rfl
@[simp] theorem State.setPort_upload (s : State) (p : Nat) (x : PortSt) : (s.setPort p x).upload = s.upload := rfl
@[simp] theorem State.setPort_trained (s : State) (p : Nat) (x : PortSt) : (s.setPort p x).trained = s.trained := rfl
@[simp] theorem State.setPort_out (s : State) (p : Nat) (x : PortSt) : (s.setPort p x).out = s.out := rfl
@[simp] theorem State.setPort_free (s : State) (p : Nat) (x : PortSt) : (s.setPort p x).free = s.free := rfl

@[simp] theorem State.setLane_pending (s : State) (n : Nat) (x : Lane) : (s.setLane n x).pending = s.pending := rfl
@[simp] theorem State.setLane_regs (s : State) (n : Nat) (x : Lane) : (s.setLane n x).regs = s.regs := rfl
@[simp] theorem State.setLane_store (s : State) (n : Nat) (x : Lane) : (s.setLane n x).store = s.store := rfl
@[simp] theorem State.setLane_upsets (s : State) (n : Nat) (x : Lane) : (s.setLane n x).upsets = s.upsets := rfl
@[simp] theorem State.setLane_tiles (s : State) (n : Nat) (x : Lane) : (s.setLane n x).tiles = s.tiles := rfl
@[simp] theorem State.setLane_routers (s : State) (n : Nat) (x : Lane) : (s.setLane n x).routers = s.routers := rfl
@[simp] theorem State.setLane_delivered (s : State) (n : Nat) (x : Lane) : (s.setLane n x).delivered = s.delivered := rfl
@[simp] theorem State.setLane_edges (s : State) (n : Nat) (x : Lane) : (s.setLane n x).edges = s.edges := rfl
@[simp] theorem State.setLane_sects (s : State) (n : Nat) (x : Lane) : (s.setLane n x).sects = s.sects := rfl
@[simp] theorem State.setLane_bands (s : State) (n : Nat) (x : Lane) : (s.setLane n x).bands = s.bands := rfl
@[simp] theorem State.setLane_plls (s : State) (n : Nat) (x : Lane) : (s.setLane n x).plls = s.plls := rfl
@[simp] theorem State.setLane_boundary (s : State) (n : Nat) (x : Lane) : (s.setLane n x).boundary = s.boundary := rfl
@[simp] theorem State.setLane_ring (s : State) (n : Nat) (x : Lane) : (s.setLane n x).ring = s.ring := rfl
@[simp] theorem State.setLane_gpioOn (s : State) (n : Nat) (x : Lane) : (s.setLane n x).gpioOn = s.gpioOn := rfl
@[simp] theorem State.setLane_gpio (s : State) (n : Nat) (x : Lane) : (s.setLane n x).gpio = s.gpio := rfl
@[simp] theorem State.setLane_traces (s : State) (n : Nat) (x : Lane) : (s.setLane n x).traces = s.traces := rfl
@[simp] theorem State.setLane_traceTick (s : State) (n : Nat) (x : Lane) : (s.setLane n x).traceTick = s.traceTick := rfl
@[simp] theorem State.setLane_dram (s : State) (n : Nat) (x : Lane) : (s.setLane n x).dram = s.dram := rfl
@[simp] theorem State.setLane_dramCh (s : State) (n : Nat) (x : Lane) : (s.setLane n x).dramCh = s.dramCh := rfl
@[simp] theorem State.setLane_hubLogged (s : State) (n : Nat) (x : Lane) : (s.setLane n x).hubLogged = s.hubLogged := rfl
@[simp] theorem State.setLane_fabReqs (s : State) (n : Nat) (x : Lane) : (s.setLane n x).fabReqs = s.fabReqs := rfl
@[simp] theorem State.setLane_hostReads (s : State) (n : Nat) (x : Lane) : (s.setLane n x).hostReads = s.hostReads := rfl
@[simp] theorem State.setLane_reqNum (s : State) (n : Nat) (x : Lane) : (s.setLane n x).reqNum = s.reqNum := rfl
@[simp] theorem State.setLane_ports (s : State) (n : Nat) (x : Lane) : (s.setLane n x).ports = s.ports := rfl
@[simp] theorem State.setLane_chans (s : State) (n : Nat) (x : Lane) : (s.setLane n x).chans = s.chans := rfl
@[simp] theorem State.setLane_parts (s : State) (n : Nat) (x : Lane) : (s.setLane n x).parts = s.parts := rfl
@[simp] theorem State.setLane_search (s : State) (n : Nat) (x : Lane) : (s.setLane n x).search = s.search := rfl
@[simp] theorem State.setLane_retired (s : State) (n : Nat) (x : Lane) : (s.setLane n x).retired = s.retired := rfl
@[simp] theorem State.setLane_log (s : State) (n : Nat) (x : Lane) : (s.setLane n x).log = s.log := rfl
@[simp] theorem State.setLane_logHigh (s : State) (n : Nat) (x : Lane) : (s.setLane n x).logHigh = s.logHigh := rfl
@[simp] theorem State.setLane_logLast (s : State) (n : Nat) (x : Lane) : (s.setLane n x).logLast = s.logLast := rfl
@[simp] theorem State.setLane_alertStatus (s : State) (n : Nat) (x : Lane) : (s.setLane n x).alertStatus = s.alertStatus := rfl
@[simp] theorem State.setLane_alertMask (s : State) (n : Nat) (x : Lane) : (s.setLane n x).alertMask = s.alertMask := rfl
@[simp] theorem State.setLane_notices (s : State) (n : Nat) (x : Lane) : (s.setLane n x).notices = s.notices := rfl
@[simp] theorem State.setLane_dumpOrder (s : State) (n : Nat) (x : Lane) : (s.setLane n x).dumpOrder = s.dumpOrder := rfl
@[simp] theorem State.setLane_owed (s : State) (n : Nat) (x : Lane) : (s.setLane n x).owed = s.owed := rfl
@[simp] theorem State.setLane_fwLost (s : State) (n : Nat) (x : Lane) : (s.setLane n x).fwLost = s.fwLost := rfl
@[simp] theorem State.setLane_mbx (s : State) (n : Nat) (x : Lane) : (s.setLane n x).mbx = s.mbx := rfl
@[simp] theorem State.setLane_rejoin (s : State) (n : Nat) (x : Lane) : (s.setLane n x).rejoin = s.rejoin := rfl
@[simp] theorem State.setLane_lastServed (s : State) (n : Nat) (x : Lane) : (s.setLane n x).lastServed = s.lastServed := rfl
@[simp] theorem State.setLane_time (s : State) (n : Nat) (x : Lane) : (s.setLane n x).time = s.time := rfl
@[simp] theorem State.setLane_timeUnit (s : State) (n : Nat) (x : Lane) : (s.setLane n x).timeUnit = s.timeUnit := rfl
@[simp] theorem State.setLane_timeRuns (s : State) (n : Nat) (x : Lane) : (s.setLane n x).timeRuns = s.timeRuns := rfl
@[simp] theorem State.setLane_cfg (s : State) (n : Nat) (x : Lane) : (s.setLane n x).cfg = s.cfg := rfl
@[simp] theorem State.setLane_fuses (s : State) (n : Nat) (x : Lane) : (s.setLane n x).fuses = s.fuses := rfl
@[simp] theorem State.setLane_pwr (s : State) (n : Nat) (x : Lane) : (s.setLane n x).pwr = s.pwr := rfl
@[simp] theorem State.setLane_boot (s : State) (n : Nat) (x : Lane) : (s.setLane n x).boot = s.boot := rfl
@[simp] theorem State.setLane_flash (s : State) (n : Nat) (x : Lane) : (s.setLane n x).flash = s.flash := rfl
@[simp] theorem State.setLane_upload (s : State) (n : Nat) (x : Lane) : (s.setLane n x).upload = s.upload := rfl
@[simp] theorem State.setLane_trained (s : State) (n : Nat) (x : Lane) : (s.setLane n x).trained = s.trained := rfl
@[simp] theorem State.setLane_out (s : State) (n : Nat) (x : Lane) : (s.setLane n x).out = s.out := rfl
@[simp] theorem State.setLane_free (s : State) (n : Nat) (x : Lane) : (s.setLane n x).free = s.free := rfl

@[simp] theorem State.setChan_pending (s : State) (c : Nat) (x : Chan) : (s.setChan c x).pending = s.pending := rfl
@[simp] theorem State.setChan_regs (s : State) (c : Nat) (x : Chan) : (s.setChan c x).regs = s.regs := rfl
@[simp] theorem State.setChan_store (s : State) (c : Nat) (x : Chan) : (s.setChan c x).store = s.store := rfl
@[simp] theorem State.setChan_upsets (s : State) (c : Nat) (x : Chan) : (s.setChan c x).upsets = s.upsets := rfl
@[simp] theorem State.setChan_tiles (s : State) (c : Nat) (x : Chan) : (s.setChan c x).tiles = s.tiles := rfl
@[simp] theorem State.setChan_routers (s : State) (c : Nat) (x : Chan) : (s.setChan c x).routers = s.routers := rfl
@[simp] theorem State.setChan_delivered (s : State) (c : Nat) (x : Chan) : (s.setChan c x).delivered = s.delivered := rfl
@[simp] theorem State.setChan_edges (s : State) (c : Nat) (x : Chan) : (s.setChan c x).edges = s.edges := rfl
@[simp] theorem State.setChan_sects (s : State) (c : Nat) (x : Chan) : (s.setChan c x).sects = s.sects := rfl
@[simp] theorem State.setChan_bands (s : State) (c : Nat) (x : Chan) : (s.setChan c x).bands = s.bands := rfl
@[simp] theorem State.setChan_plls (s : State) (c : Nat) (x : Chan) : (s.setChan c x).plls = s.plls := rfl
@[simp] theorem State.setChan_boundary (s : State) (c : Nat) (x : Chan) : (s.setChan c x).boundary = s.boundary := rfl
@[simp] theorem State.setChan_ring (s : State) (c : Nat) (x : Chan) : (s.setChan c x).ring = s.ring := rfl
@[simp] theorem State.setChan_gpioOn (s : State) (c : Nat) (x : Chan) : (s.setChan c x).gpioOn = s.gpioOn := rfl
@[simp] theorem State.setChan_gpio (s : State) (c : Nat) (x : Chan) : (s.setChan c x).gpio = s.gpio := rfl
@[simp] theorem State.setChan_traces (s : State) (c : Nat) (x : Chan) : (s.setChan c x).traces = s.traces := rfl
@[simp] theorem State.setChan_traceTick (s : State) (c : Nat) (x : Chan) : (s.setChan c x).traceTick = s.traceTick := rfl
@[simp] theorem State.setChan_dram (s : State) (c : Nat) (x : Chan) : (s.setChan c x).dram = s.dram := rfl
@[simp] theorem State.setChan_dramCh (s : State) (c : Nat) (x : Chan) : (s.setChan c x).dramCh = s.dramCh := rfl
@[simp] theorem State.setChan_hubLogged (s : State) (c : Nat) (x : Chan) : (s.setChan c x).hubLogged = s.hubLogged := rfl
@[simp] theorem State.setChan_fabReqs (s : State) (c : Nat) (x : Chan) : (s.setChan c x).fabReqs = s.fabReqs := rfl
@[simp] theorem State.setChan_hostReads (s : State) (c : Nat) (x : Chan) : (s.setChan c x).hostReads = s.hostReads := rfl
@[simp] theorem State.setChan_reqNum (s : State) (c : Nat) (x : Chan) : (s.setChan c x).reqNum = s.reqNum := rfl
@[simp] theorem State.setChan_lanes (s : State) (c : Nat) (x : Chan) : (s.setChan c x).lanes = s.lanes := rfl
@[simp] theorem State.setChan_ports (s : State) (c : Nat) (x : Chan) : (s.setChan c x).ports = s.ports := rfl
@[simp] theorem State.setChan_parts (s : State) (c : Nat) (x : Chan) : (s.setChan c x).parts = s.parts := rfl
@[simp] theorem State.setChan_search (s : State) (c : Nat) (x : Chan) : (s.setChan c x).search = s.search := rfl
@[simp] theorem State.setChan_retired (s : State) (c : Nat) (x : Chan) : (s.setChan c x).retired = s.retired := rfl
@[simp] theorem State.setChan_log (s : State) (c : Nat) (x : Chan) : (s.setChan c x).log = s.log := rfl
@[simp] theorem State.setChan_logHigh (s : State) (c : Nat) (x : Chan) : (s.setChan c x).logHigh = s.logHigh := rfl
@[simp] theorem State.setChan_logLast (s : State) (c : Nat) (x : Chan) : (s.setChan c x).logLast = s.logLast := rfl
@[simp] theorem State.setChan_alertStatus (s : State) (c : Nat) (x : Chan) : (s.setChan c x).alertStatus = s.alertStatus := rfl
@[simp] theorem State.setChan_alertMask (s : State) (c : Nat) (x : Chan) : (s.setChan c x).alertMask = s.alertMask := rfl
@[simp] theorem State.setChan_notices (s : State) (c : Nat) (x : Chan) : (s.setChan c x).notices = s.notices := rfl
@[simp] theorem State.setChan_dumpOrder (s : State) (c : Nat) (x : Chan) : (s.setChan c x).dumpOrder = s.dumpOrder := rfl
@[simp] theorem State.setChan_owed (s : State) (c : Nat) (x : Chan) : (s.setChan c x).owed = s.owed := rfl
@[simp] theorem State.setChan_fwLost (s : State) (c : Nat) (x : Chan) : (s.setChan c x).fwLost = s.fwLost := rfl
@[simp] theorem State.setChan_mbx (s : State) (c : Nat) (x : Chan) : (s.setChan c x).mbx = s.mbx := rfl
@[simp] theorem State.setChan_rejoin (s : State) (c : Nat) (x : Chan) : (s.setChan c x).rejoin = s.rejoin := rfl
@[simp] theorem State.setChan_lastServed (s : State) (c : Nat) (x : Chan) : (s.setChan c x).lastServed = s.lastServed := rfl
@[simp] theorem State.setChan_time (s : State) (c : Nat) (x : Chan) : (s.setChan c x).time = s.time := rfl
@[simp] theorem State.setChan_timeUnit (s : State) (c : Nat) (x : Chan) : (s.setChan c x).timeUnit = s.timeUnit := rfl
@[simp] theorem State.setChan_timeRuns (s : State) (c : Nat) (x : Chan) : (s.setChan c x).timeRuns = s.timeRuns := rfl
@[simp] theorem State.setChan_cfg (s : State) (c : Nat) (x : Chan) : (s.setChan c x).cfg = s.cfg := rfl
@[simp] theorem State.setChan_fuses (s : State) (c : Nat) (x : Chan) : (s.setChan c x).fuses = s.fuses := rfl
@[simp] theorem State.setChan_pwr (s : State) (c : Nat) (x : Chan) : (s.setChan c x).pwr = s.pwr := rfl
@[simp] theorem State.setChan_boot (s : State) (c : Nat) (x : Chan) : (s.setChan c x).boot = s.boot := rfl
@[simp] theorem State.setChan_flash (s : State) (c : Nat) (x : Chan) : (s.setChan c x).flash = s.flash := rfl
@[simp] theorem State.setChan_upload (s : State) (c : Nat) (x : Chan) : (s.setChan c x).upload = s.upload := rfl
@[simp] theorem State.setChan_trained (s : State) (c : Nat) (x : Chan) : (s.setChan c x).trained = s.trained := rfl
@[simp] theorem State.setChan_out (s : State) (c : Nat) (x : Chan) : (s.setChan c x).out = s.out := rfl
@[simp] theorem State.setChan_free (s : State) (c : Nat) (x : Chan) : (s.setChan c x).free = s.free := rfl

@[simp] theorem State.setDch_pending (s : State) (ch : Nat) (x : DramCh) : (s.setDch ch x).pending = s.pending := rfl
@[simp] theorem State.setDch_regs (s : State) (ch : Nat) (x : DramCh) : (s.setDch ch x).regs = s.regs := rfl
@[simp] theorem State.setDch_store (s : State) (ch : Nat) (x : DramCh) : (s.setDch ch x).store = s.store := rfl
@[simp] theorem State.setDch_upsets (s : State) (ch : Nat) (x : DramCh) : (s.setDch ch x).upsets = s.upsets := rfl
@[simp] theorem State.setDch_tiles (s : State) (ch : Nat) (x : DramCh) : (s.setDch ch x).tiles = s.tiles := rfl
@[simp] theorem State.setDch_routers (s : State) (ch : Nat) (x : DramCh) : (s.setDch ch x).routers = s.routers := rfl
@[simp] theorem State.setDch_delivered (s : State) (ch : Nat) (x : DramCh) : (s.setDch ch x).delivered = s.delivered := rfl
@[simp] theorem State.setDch_edges (s : State) (ch : Nat) (x : DramCh) : (s.setDch ch x).edges = s.edges := rfl
@[simp] theorem State.setDch_sects (s : State) (ch : Nat) (x : DramCh) : (s.setDch ch x).sects = s.sects := rfl
@[simp] theorem State.setDch_bands (s : State) (ch : Nat) (x : DramCh) : (s.setDch ch x).bands = s.bands := rfl
@[simp] theorem State.setDch_plls (s : State) (ch : Nat) (x : DramCh) : (s.setDch ch x).plls = s.plls := rfl
@[simp] theorem State.setDch_boundary (s : State) (ch : Nat) (x : DramCh) : (s.setDch ch x).boundary = s.boundary := rfl
@[simp] theorem State.setDch_ring (s : State) (ch : Nat) (x : DramCh) : (s.setDch ch x).ring = s.ring := rfl
@[simp] theorem State.setDch_gpioOn (s : State) (ch : Nat) (x : DramCh) : (s.setDch ch x).gpioOn = s.gpioOn := rfl
@[simp] theorem State.setDch_gpio (s : State) (ch : Nat) (x : DramCh) : (s.setDch ch x).gpio = s.gpio := rfl
@[simp] theorem State.setDch_traces (s : State) (ch : Nat) (x : DramCh) : (s.setDch ch x).traces = s.traces := rfl
@[simp] theorem State.setDch_traceTick (s : State) (ch : Nat) (x : DramCh) : (s.setDch ch x).traceTick = s.traceTick := rfl
@[simp] theorem State.setDch_dram (s : State) (ch : Nat) (x : DramCh) : (s.setDch ch x).dram = s.dram := rfl
@[simp] theorem State.setDch_hubLogged (s : State) (ch : Nat) (x : DramCh) : (s.setDch ch x).hubLogged = s.hubLogged := rfl
@[simp] theorem State.setDch_fabReqs (s : State) (ch : Nat) (x : DramCh) : (s.setDch ch x).fabReqs = s.fabReqs := rfl
@[simp] theorem State.setDch_hostReads (s : State) (ch : Nat) (x : DramCh) : (s.setDch ch x).hostReads = s.hostReads := rfl
@[simp] theorem State.setDch_reqNum (s : State) (ch : Nat) (x : DramCh) : (s.setDch ch x).reqNum = s.reqNum := rfl
@[simp] theorem State.setDch_lanes (s : State) (ch : Nat) (x : DramCh) : (s.setDch ch x).lanes = s.lanes := rfl
@[simp] theorem State.setDch_ports (s : State) (ch : Nat) (x : DramCh) : (s.setDch ch x).ports = s.ports := rfl
@[simp] theorem State.setDch_chans (s : State) (ch : Nat) (x : DramCh) : (s.setDch ch x).chans = s.chans := rfl
@[simp] theorem State.setDch_parts (s : State) (ch : Nat) (x : DramCh) : (s.setDch ch x).parts = s.parts := rfl
@[simp] theorem State.setDch_search (s : State) (ch : Nat) (x : DramCh) : (s.setDch ch x).search = s.search := rfl
@[simp] theorem State.setDch_retired (s : State) (ch : Nat) (x : DramCh) : (s.setDch ch x).retired = s.retired := rfl
@[simp] theorem State.setDch_log (s : State) (ch : Nat) (x : DramCh) : (s.setDch ch x).log = s.log := rfl
@[simp] theorem State.setDch_logHigh (s : State) (ch : Nat) (x : DramCh) : (s.setDch ch x).logHigh = s.logHigh := rfl
@[simp] theorem State.setDch_logLast (s : State) (ch : Nat) (x : DramCh) : (s.setDch ch x).logLast = s.logLast := rfl
@[simp] theorem State.setDch_alertStatus (s : State) (ch : Nat) (x : DramCh) : (s.setDch ch x).alertStatus = s.alertStatus := rfl
@[simp] theorem State.setDch_alertMask (s : State) (ch : Nat) (x : DramCh) : (s.setDch ch x).alertMask = s.alertMask := rfl
@[simp] theorem State.setDch_notices (s : State) (ch : Nat) (x : DramCh) : (s.setDch ch x).notices = s.notices := rfl
@[simp] theorem State.setDch_dumpOrder (s : State) (ch : Nat) (x : DramCh) : (s.setDch ch x).dumpOrder = s.dumpOrder := rfl
@[simp] theorem State.setDch_owed (s : State) (ch : Nat) (x : DramCh) : (s.setDch ch x).owed = s.owed := rfl
@[simp] theorem State.setDch_fwLost (s : State) (ch : Nat) (x : DramCh) : (s.setDch ch x).fwLost = s.fwLost := rfl
@[simp] theorem State.setDch_mbx (s : State) (ch : Nat) (x : DramCh) : (s.setDch ch x).mbx = s.mbx := rfl
@[simp] theorem State.setDch_rejoin (s : State) (ch : Nat) (x : DramCh) : (s.setDch ch x).rejoin = s.rejoin := rfl
@[simp] theorem State.setDch_lastServed (s : State) (ch : Nat) (x : DramCh) : (s.setDch ch x).lastServed = s.lastServed := rfl
@[simp] theorem State.setDch_time (s : State) (ch : Nat) (x : DramCh) : (s.setDch ch x).time = s.time := rfl
@[simp] theorem State.setDch_timeUnit (s : State) (ch : Nat) (x : DramCh) : (s.setDch ch x).timeUnit = s.timeUnit := rfl
@[simp] theorem State.setDch_timeRuns (s : State) (ch : Nat) (x : DramCh) : (s.setDch ch x).timeRuns = s.timeRuns := rfl
@[simp] theorem State.setDch_cfg (s : State) (ch : Nat) (x : DramCh) : (s.setDch ch x).cfg = s.cfg := rfl
@[simp] theorem State.setDch_fuses (s : State) (ch : Nat) (x : DramCh) : (s.setDch ch x).fuses = s.fuses := rfl
@[simp] theorem State.setDch_pwr (s : State) (ch : Nat) (x : DramCh) : (s.setDch ch x).pwr = s.pwr := rfl
@[simp] theorem State.setDch_boot (s : State) (ch : Nat) (x : DramCh) : (s.setDch ch x).boot = s.boot := rfl
@[simp] theorem State.setDch_flash (s : State) (ch : Nat) (x : DramCh) : (s.setDch ch x).flash = s.flash := rfl
@[simp] theorem State.setDch_upload (s : State) (ch : Nat) (x : DramCh) : (s.setDch ch x).upload = s.upload := rfl
@[simp] theorem State.setDch_trained (s : State) (ch : Nat) (x : DramCh) : (s.setDch ch x).trained = s.trained := rfl
@[simp] theorem State.setDch_out (s : State) (ch : Nat) (x : DramCh) : (s.setDch ch x).out = s.out := rfl
@[simp] theorem State.setDch_free (s : State) (ch : Nat) (x : DramCh) : (s.setDch ch x).free = s.free := rfl

@[simp] theorem State.emit_pending (s : State) (o : Output) : (s.emit o).pending = s.pending := rfl
@[simp] theorem State.emit_regs (s : State) (o : Output) : (s.emit o).regs = s.regs := rfl
@[simp] theorem State.emit_store (s : State) (o : Output) : (s.emit o).store = s.store := rfl
@[simp] theorem State.emit_upsets (s : State) (o : Output) : (s.emit o).upsets = s.upsets := rfl
@[simp] theorem State.emit_tiles (s : State) (o : Output) : (s.emit o).tiles = s.tiles := rfl
@[simp] theorem State.emit_routers (s : State) (o : Output) : (s.emit o).routers = s.routers := rfl
@[simp] theorem State.emit_delivered (s : State) (o : Output) : (s.emit o).delivered = s.delivered := rfl
@[simp] theorem State.emit_edges (s : State) (o : Output) : (s.emit o).edges = s.edges := rfl
@[simp] theorem State.emit_sects (s : State) (o : Output) : (s.emit o).sects = s.sects := rfl
@[simp] theorem State.emit_bands (s : State) (o : Output) : (s.emit o).bands = s.bands := rfl
@[simp] theorem State.emit_plls (s : State) (o : Output) : (s.emit o).plls = s.plls := rfl
@[simp] theorem State.emit_boundary (s : State) (o : Output) : (s.emit o).boundary = s.boundary := rfl
@[simp] theorem State.emit_ring (s : State) (o : Output) : (s.emit o).ring = s.ring := rfl
@[simp] theorem State.emit_gpioOn (s : State) (o : Output) : (s.emit o).gpioOn = s.gpioOn := rfl
@[simp] theorem State.emit_gpio (s : State) (o : Output) : (s.emit o).gpio = s.gpio := rfl
@[simp] theorem State.emit_traces (s : State) (o : Output) : (s.emit o).traces = s.traces := rfl
@[simp] theorem State.emit_traceTick (s : State) (o : Output) : (s.emit o).traceTick = s.traceTick := rfl
@[simp] theorem State.emit_dram (s : State) (o : Output) : (s.emit o).dram = s.dram := rfl
@[simp] theorem State.emit_dramCh (s : State) (o : Output) : (s.emit o).dramCh = s.dramCh := rfl
@[simp] theorem State.emit_hubLogged (s : State) (o : Output) : (s.emit o).hubLogged = s.hubLogged := rfl
@[simp] theorem State.emit_fabReqs (s : State) (o : Output) : (s.emit o).fabReqs = s.fabReqs := rfl
@[simp] theorem State.emit_hostReads (s : State) (o : Output) : (s.emit o).hostReads = s.hostReads := rfl
@[simp] theorem State.emit_reqNum (s : State) (o : Output) : (s.emit o).reqNum = s.reqNum := rfl
@[simp] theorem State.emit_lanes (s : State) (o : Output) : (s.emit o).lanes = s.lanes := rfl
@[simp] theorem State.emit_ports (s : State) (o : Output) : (s.emit o).ports = s.ports := rfl
@[simp] theorem State.emit_chans (s : State) (o : Output) : (s.emit o).chans = s.chans := rfl
@[simp] theorem State.emit_parts (s : State) (o : Output) : (s.emit o).parts = s.parts := rfl
@[simp] theorem State.emit_search (s : State) (o : Output) : (s.emit o).search = s.search := rfl
@[simp] theorem State.emit_retired (s : State) (o : Output) : (s.emit o).retired = s.retired := rfl
@[simp] theorem State.emit_log (s : State) (o : Output) : (s.emit o).log = s.log := rfl
@[simp] theorem State.emit_logHigh (s : State) (o : Output) : (s.emit o).logHigh = s.logHigh := rfl
@[simp] theorem State.emit_logLast (s : State) (o : Output) : (s.emit o).logLast = s.logLast := rfl
@[simp] theorem State.emit_alertStatus (s : State) (o : Output) : (s.emit o).alertStatus = s.alertStatus := rfl
@[simp] theorem State.emit_alertMask (s : State) (o : Output) : (s.emit o).alertMask = s.alertMask := rfl
@[simp] theorem State.emit_notices (s : State) (o : Output) : (s.emit o).notices = s.notices := rfl
@[simp] theorem State.emit_dumpOrder (s : State) (o : Output) : (s.emit o).dumpOrder = s.dumpOrder := rfl
@[simp] theorem State.emit_owed (s : State) (o : Output) : (s.emit o).owed = s.owed := rfl
@[simp] theorem State.emit_fwLost (s : State) (o : Output) : (s.emit o).fwLost = s.fwLost := rfl
@[simp] theorem State.emit_mbx (s : State) (o : Output) : (s.emit o).mbx = s.mbx := rfl
@[simp] theorem State.emit_rejoin (s : State) (o : Output) : (s.emit o).rejoin = s.rejoin := rfl
@[simp] theorem State.emit_lastServed (s : State) (o : Output) : (s.emit o).lastServed = s.lastServed := rfl
@[simp] theorem State.emit_time (s : State) (o : Output) : (s.emit o).time = s.time := rfl
@[simp] theorem State.emit_timeUnit (s : State) (o : Output) : (s.emit o).timeUnit = s.timeUnit := rfl
@[simp] theorem State.emit_timeRuns (s : State) (o : Output) : (s.emit o).timeRuns = s.timeRuns := rfl
@[simp] theorem State.emit_cfg (s : State) (o : Output) : (s.emit o).cfg = s.cfg := rfl
@[simp] theorem State.emit_fuses (s : State) (o : Output) : (s.emit o).fuses = s.fuses := rfl
@[simp] theorem State.emit_pwr (s : State) (o : Output) : (s.emit o).pwr = s.pwr := rfl
@[simp] theorem State.emit_boot (s : State) (o : Output) : (s.emit o).boot = s.boot := rfl
@[simp] theorem State.emit_flash (s : State) (o : Output) : (s.emit o).flash = s.flash := rfl
@[simp] theorem State.emit_upload (s : State) (o : Output) : (s.emit o).upload = s.upload := rfl
@[simp] theorem State.emit_trained (s : State) (o : Output) : (s.emit o).trained = s.trained := rfl
@[simp] theorem State.emit_free (s : State) (o : Output) : (s.emit o).free = s.free := rfl

@[simp] theorem State.stepFree_pending (s : State) : (s.stepFree).pending = s.pending := rfl
@[simp] theorem State.stepFree_regs (s : State) : (s.stepFree).regs = s.regs := rfl
@[simp] theorem State.stepFree_store (s : State) : (s.stepFree).store = s.store := rfl
@[simp] theorem State.stepFree_upsets (s : State) : (s.stepFree).upsets = s.upsets := rfl
@[simp] theorem State.stepFree_tiles (s : State) : (s.stepFree).tiles = s.tiles := rfl
@[simp] theorem State.stepFree_routers (s : State) : (s.stepFree).routers = s.routers := rfl
@[simp] theorem State.stepFree_delivered (s : State) : (s.stepFree).delivered = s.delivered := rfl
@[simp] theorem State.stepFree_edges (s : State) : (s.stepFree).edges = s.edges := rfl
@[simp] theorem State.stepFree_sects (s : State) : (s.stepFree).sects = s.sects := rfl
@[simp] theorem State.stepFree_bands (s : State) : (s.stepFree).bands = s.bands := rfl
@[simp] theorem State.stepFree_plls (s : State) : (s.stepFree).plls = s.plls := rfl
@[simp] theorem State.stepFree_boundary (s : State) : (s.stepFree).boundary = s.boundary := rfl
@[simp] theorem State.stepFree_ring (s : State) : (s.stepFree).ring = s.ring := rfl
@[simp] theorem State.stepFree_gpioOn (s : State) : (s.stepFree).gpioOn = s.gpioOn := rfl
@[simp] theorem State.stepFree_gpio (s : State) : (s.stepFree).gpio = s.gpio := rfl
@[simp] theorem State.stepFree_traces (s : State) : (s.stepFree).traces = s.traces := rfl
@[simp] theorem State.stepFree_traceTick (s : State) : (s.stepFree).traceTick = s.traceTick := rfl
@[simp] theorem State.stepFree_dram (s : State) : (s.stepFree).dram = s.dram := rfl
@[simp] theorem State.stepFree_dramCh (s : State) : (s.stepFree).dramCh = s.dramCh := rfl
@[simp] theorem State.stepFree_hubLogged (s : State) : (s.stepFree).hubLogged = s.hubLogged := rfl
@[simp] theorem State.stepFree_fabReqs (s : State) : (s.stepFree).fabReqs = s.fabReqs := rfl
@[simp] theorem State.stepFree_hostReads (s : State) : (s.stepFree).hostReads = s.hostReads := rfl
@[simp] theorem State.stepFree_reqNum (s : State) : (s.stepFree).reqNum = s.reqNum := rfl
@[simp] theorem State.stepFree_lanes (s : State) : (s.stepFree).lanes = s.lanes := rfl
@[simp] theorem State.stepFree_ports (s : State) : (s.stepFree).ports = s.ports := rfl
@[simp] theorem State.stepFree_chans (s : State) : (s.stepFree).chans = s.chans := rfl
@[simp] theorem State.stepFree_parts (s : State) : (s.stepFree).parts = s.parts := rfl
@[simp] theorem State.stepFree_search (s : State) : (s.stepFree).search = s.search := rfl
@[simp] theorem State.stepFree_retired (s : State) : (s.stepFree).retired = s.retired := rfl
@[simp] theorem State.stepFree_log (s : State) : (s.stepFree).log = s.log := rfl
@[simp] theorem State.stepFree_logHigh (s : State) : (s.stepFree).logHigh = s.logHigh := rfl
@[simp] theorem State.stepFree_logLast (s : State) : (s.stepFree).logLast = s.logLast := rfl
@[simp] theorem State.stepFree_alertStatus (s : State) : (s.stepFree).alertStatus = s.alertStatus := rfl
@[simp] theorem State.stepFree_alertMask (s : State) : (s.stepFree).alertMask = s.alertMask := rfl
@[simp] theorem State.stepFree_notices (s : State) : (s.stepFree).notices = s.notices := rfl
@[simp] theorem State.stepFree_dumpOrder (s : State) : (s.stepFree).dumpOrder = s.dumpOrder := rfl
@[simp] theorem State.stepFree_owed (s : State) : (s.stepFree).owed = s.owed := rfl
@[simp] theorem State.stepFree_fwLost (s : State) : (s.stepFree).fwLost = s.fwLost := rfl
@[simp] theorem State.stepFree_mbx (s : State) : (s.stepFree).mbx = s.mbx := rfl
@[simp] theorem State.stepFree_rejoin (s : State) : (s.stepFree).rejoin = s.rejoin := rfl
@[simp] theorem State.stepFree_lastServed (s : State) : (s.stepFree).lastServed = s.lastServed := rfl
@[simp] theorem State.stepFree_time (s : State) : (s.stepFree).time = s.time := rfl
@[simp] theorem State.stepFree_timeUnit (s : State) : (s.stepFree).timeUnit = s.timeUnit := rfl
@[simp] theorem State.stepFree_timeRuns (s : State) : (s.stepFree).timeRuns = s.timeRuns := rfl
@[simp] theorem State.stepFree_cfg (s : State) : (s.stepFree).cfg = s.cfg := rfl
@[simp] theorem State.stepFree_fuses (s : State) : (s.stepFree).fuses = s.fuses := rfl
@[simp] theorem State.stepFree_pwr (s : State) : (s.stepFree).pwr = s.pwr := rfl
@[simp] theorem State.stepFree_boot (s : State) : (s.stepFree).boot = s.boot := rfl
@[simp] theorem State.stepFree_flash (s : State) : (s.stepFree).flash = s.flash := rfl
@[simp] theorem State.stepFree_upload (s : State) : (s.stepFree).upload = s.upload := rfl
@[simp] theorem State.stepFree_trained (s : State) : (s.stepFree).trained = s.trained := rfl
@[simp] theorem State.stepFree_out (s : State) : (s.stepFree).out = s.out := rfl

@[simp] theorem State.setFld_pending (s : State) (a lo w v : Nat) : (s.setFld a lo w v).pending = s.pending := rfl
@[simp] theorem State.setFld_store (s : State) (a lo w v : Nat) : (s.setFld a lo w v).store = s.store := rfl
@[simp] theorem State.setFld_upsets (s : State) (a lo w v : Nat) : (s.setFld a lo w v).upsets = s.upsets := rfl
@[simp] theorem State.setFld_tiles (s : State) (a lo w v : Nat) : (s.setFld a lo w v).tiles = s.tiles := rfl
@[simp] theorem State.setFld_routers (s : State) (a lo w v : Nat) : (s.setFld a lo w v).routers = s.routers := rfl
@[simp] theorem State.setFld_delivered (s : State) (a lo w v : Nat) : (s.setFld a lo w v).delivered = s.delivered := rfl
@[simp] theorem State.setFld_edges (s : State) (a lo w v : Nat) : (s.setFld a lo w v).edges = s.edges := rfl
@[simp] theorem State.setFld_sects (s : State) (a lo w v : Nat) : (s.setFld a lo w v).sects = s.sects := rfl
@[simp] theorem State.setFld_bands (s : State) (a lo w v : Nat) : (s.setFld a lo w v).bands = s.bands := rfl
@[simp] theorem State.setFld_plls (s : State) (a lo w v : Nat) : (s.setFld a lo w v).plls = s.plls := rfl
@[simp] theorem State.setFld_boundary (s : State) (a lo w v : Nat) : (s.setFld a lo w v).boundary = s.boundary := rfl
@[simp] theorem State.setFld_ring (s : State) (a lo w v : Nat) : (s.setFld a lo w v).ring = s.ring := rfl
@[simp] theorem State.setFld_gpioOn (s : State) (a lo w v : Nat) : (s.setFld a lo w v).gpioOn = s.gpioOn := rfl
@[simp] theorem State.setFld_gpio (s : State) (a lo w v : Nat) : (s.setFld a lo w v).gpio = s.gpio := rfl
@[simp] theorem State.setFld_traces (s : State) (a lo w v : Nat) : (s.setFld a lo w v).traces = s.traces := rfl
@[simp] theorem State.setFld_traceTick (s : State) (a lo w v : Nat) : (s.setFld a lo w v).traceTick = s.traceTick := rfl
@[simp] theorem State.setFld_dram (s : State) (a lo w v : Nat) : (s.setFld a lo w v).dram = s.dram := rfl
@[simp] theorem State.setFld_dramCh (s : State) (a lo w v : Nat) : (s.setFld a lo w v).dramCh = s.dramCh := rfl
@[simp] theorem State.setFld_hubLogged (s : State) (a lo w v : Nat) : (s.setFld a lo w v).hubLogged = s.hubLogged := rfl
@[simp] theorem State.setFld_fabReqs (s : State) (a lo w v : Nat) : (s.setFld a lo w v).fabReqs = s.fabReqs := rfl
@[simp] theorem State.setFld_hostReads (s : State) (a lo w v : Nat) : (s.setFld a lo w v).hostReads = s.hostReads := rfl
@[simp] theorem State.setFld_reqNum (s : State) (a lo w v : Nat) : (s.setFld a lo w v).reqNum = s.reqNum := rfl
@[simp] theorem State.setFld_lanes (s : State) (a lo w v : Nat) : (s.setFld a lo w v).lanes = s.lanes := rfl
@[simp] theorem State.setFld_ports (s : State) (a lo w v : Nat) : (s.setFld a lo w v).ports = s.ports := rfl
@[simp] theorem State.setFld_chans (s : State) (a lo w v : Nat) : (s.setFld a lo w v).chans = s.chans := rfl
@[simp] theorem State.setFld_parts (s : State) (a lo w v : Nat) : (s.setFld a lo w v).parts = s.parts := rfl
@[simp] theorem State.setFld_search (s : State) (a lo w v : Nat) : (s.setFld a lo w v).search = s.search := rfl
@[simp] theorem State.setFld_retired (s : State) (a lo w v : Nat) : (s.setFld a lo w v).retired = s.retired := rfl
@[simp] theorem State.setFld_log (s : State) (a lo w v : Nat) : (s.setFld a lo w v).log = s.log := rfl
@[simp] theorem State.setFld_logHigh (s : State) (a lo w v : Nat) : (s.setFld a lo w v).logHigh = s.logHigh := rfl
@[simp] theorem State.setFld_logLast (s : State) (a lo w v : Nat) : (s.setFld a lo w v).logLast = s.logLast := rfl
@[simp] theorem State.setFld_alertStatus (s : State) (a lo w v : Nat) : (s.setFld a lo w v).alertStatus = s.alertStatus := rfl
@[simp] theorem State.setFld_alertMask (s : State) (a lo w v : Nat) : (s.setFld a lo w v).alertMask = s.alertMask := rfl
@[simp] theorem State.setFld_notices (s : State) (a lo w v : Nat) : (s.setFld a lo w v).notices = s.notices := rfl
@[simp] theorem State.setFld_dumpOrder (s : State) (a lo w v : Nat) : (s.setFld a lo w v).dumpOrder = s.dumpOrder := rfl
@[simp] theorem State.setFld_owed (s : State) (a lo w v : Nat) : (s.setFld a lo w v).owed = s.owed := rfl
@[simp] theorem State.setFld_fwLost (s : State) (a lo w v : Nat) : (s.setFld a lo w v).fwLost = s.fwLost := rfl
@[simp] theorem State.setFld_mbx (s : State) (a lo w v : Nat) : (s.setFld a lo w v).mbx = s.mbx := rfl
@[simp] theorem State.setFld_rejoin (s : State) (a lo w v : Nat) : (s.setFld a lo w v).rejoin = s.rejoin := rfl
@[simp] theorem State.setFld_lastServed (s : State) (a lo w v : Nat) : (s.setFld a lo w v).lastServed = s.lastServed := rfl
@[simp] theorem State.setFld_time (s : State) (a lo w v : Nat) : (s.setFld a lo w v).time = s.time := rfl
@[simp] theorem State.setFld_timeUnit (s : State) (a lo w v : Nat) : (s.setFld a lo w v).timeUnit = s.timeUnit := rfl
@[simp] theorem State.setFld_timeRuns (s : State) (a lo w v : Nat) : (s.setFld a lo w v).timeRuns = s.timeRuns := rfl
@[simp] theorem State.setFld_cfg (s : State) (a lo w v : Nat) : (s.setFld a lo w v).cfg = s.cfg := rfl
@[simp] theorem State.setFld_fuses (s : State) (a lo w v : Nat) : (s.setFld a lo w v).fuses = s.fuses := rfl
@[simp] theorem State.setFld_pwr (s : State) (a lo w v : Nat) : (s.setFld a lo w v).pwr = s.pwr := rfl
@[simp] theorem State.setFld_boot (s : State) (a lo w v : Nat) : (s.setFld a lo w v).boot = s.boot := rfl
@[simp] theorem State.setFld_flash (s : State) (a lo w v : Nat) : (s.setFld a lo w v).flash = s.flash := rfl
@[simp] theorem State.setFld_upload (s : State) (a lo w v : Nat) : (s.setFld a lo w v).upload = s.upload := rfl
@[simp] theorem State.setFld_trained (s : State) (a lo w v : Nat) : (s.setFld a lo w v).trained = s.trained := rfl
@[simp] theorem State.setFld_out (s : State) (a lo w v : Nat) : (s.setFld a lo w v).out = s.out := rfl
@[simp] theorem State.setFld_free (s : State) (a lo w v : Nat) : (s.setFld a lo w v).free = s.free := rfl

@[simp] theorem State.setBit_pending (s : State) (a i : Nat) (b : Bool) : (s.setBit a i b).pending = s.pending := rfl
@[simp] theorem State.setBit_store (s : State) (a i : Nat) (b : Bool) : (s.setBit a i b).store = s.store := rfl
@[simp] theorem State.setBit_upsets (s : State) (a i : Nat) (b : Bool) : (s.setBit a i b).upsets = s.upsets := rfl
@[simp] theorem State.setBit_tiles (s : State) (a i : Nat) (b : Bool) : (s.setBit a i b).tiles = s.tiles := rfl
@[simp] theorem State.setBit_routers (s : State) (a i : Nat) (b : Bool) : (s.setBit a i b).routers = s.routers := rfl
@[simp] theorem State.setBit_delivered (s : State) (a i : Nat) (b : Bool) : (s.setBit a i b).delivered = s.delivered := rfl
@[simp] theorem State.setBit_edges (s : State) (a i : Nat) (b : Bool) : (s.setBit a i b).edges = s.edges := rfl
@[simp] theorem State.setBit_sects (s : State) (a i : Nat) (b : Bool) : (s.setBit a i b).sects = s.sects := rfl
@[simp] theorem State.setBit_bands (s : State) (a i : Nat) (b : Bool) : (s.setBit a i b).bands = s.bands := rfl
@[simp] theorem State.setBit_plls (s : State) (a i : Nat) (b : Bool) : (s.setBit a i b).plls = s.plls := rfl
@[simp] theorem State.setBit_boundary (s : State) (a i : Nat) (b : Bool) : (s.setBit a i b).boundary = s.boundary := rfl
@[simp] theorem State.setBit_ring (s : State) (a i : Nat) (b : Bool) : (s.setBit a i b).ring = s.ring := rfl
@[simp] theorem State.setBit_gpioOn (s : State) (a i : Nat) (b : Bool) : (s.setBit a i b).gpioOn = s.gpioOn := rfl
@[simp] theorem State.setBit_gpio (s : State) (a i : Nat) (b : Bool) : (s.setBit a i b).gpio = s.gpio := rfl
@[simp] theorem State.setBit_traces (s : State) (a i : Nat) (b : Bool) : (s.setBit a i b).traces = s.traces := rfl
@[simp] theorem State.setBit_traceTick (s : State) (a i : Nat) (b : Bool) : (s.setBit a i b).traceTick = s.traceTick := rfl
@[simp] theorem State.setBit_dram (s : State) (a i : Nat) (b : Bool) : (s.setBit a i b).dram = s.dram := rfl
@[simp] theorem State.setBit_dramCh (s : State) (a i : Nat) (b : Bool) : (s.setBit a i b).dramCh = s.dramCh := rfl
@[simp] theorem State.setBit_hubLogged (s : State) (a i : Nat) (b : Bool) : (s.setBit a i b).hubLogged = s.hubLogged := rfl
@[simp] theorem State.setBit_fabReqs (s : State) (a i : Nat) (b : Bool) : (s.setBit a i b).fabReqs = s.fabReqs := rfl
@[simp] theorem State.setBit_hostReads (s : State) (a i : Nat) (b : Bool) : (s.setBit a i b).hostReads = s.hostReads := rfl
@[simp] theorem State.setBit_reqNum (s : State) (a i : Nat) (b : Bool) : (s.setBit a i b).reqNum = s.reqNum := rfl
@[simp] theorem State.setBit_lanes (s : State) (a i : Nat) (b : Bool) : (s.setBit a i b).lanes = s.lanes := rfl
@[simp] theorem State.setBit_ports (s : State) (a i : Nat) (b : Bool) : (s.setBit a i b).ports = s.ports := rfl
@[simp] theorem State.setBit_chans (s : State) (a i : Nat) (b : Bool) : (s.setBit a i b).chans = s.chans := rfl
@[simp] theorem State.setBit_parts (s : State) (a i : Nat) (b : Bool) : (s.setBit a i b).parts = s.parts := rfl
@[simp] theorem State.setBit_search (s : State) (a i : Nat) (b : Bool) : (s.setBit a i b).search = s.search := rfl
@[simp] theorem State.setBit_retired (s : State) (a i : Nat) (b : Bool) : (s.setBit a i b).retired = s.retired := rfl
@[simp] theorem State.setBit_log (s : State) (a i : Nat) (b : Bool) : (s.setBit a i b).log = s.log := rfl
@[simp] theorem State.setBit_logHigh (s : State) (a i : Nat) (b : Bool) : (s.setBit a i b).logHigh = s.logHigh := rfl
@[simp] theorem State.setBit_logLast (s : State) (a i : Nat) (b : Bool) : (s.setBit a i b).logLast = s.logLast := rfl
@[simp] theorem State.setBit_alertStatus (s : State) (a i : Nat) (b : Bool) : (s.setBit a i b).alertStatus = s.alertStatus := rfl
@[simp] theorem State.setBit_alertMask (s : State) (a i : Nat) (b : Bool) : (s.setBit a i b).alertMask = s.alertMask := rfl
@[simp] theorem State.setBit_notices (s : State) (a i : Nat) (b : Bool) : (s.setBit a i b).notices = s.notices := rfl
@[simp] theorem State.setBit_dumpOrder (s : State) (a i : Nat) (b : Bool) : (s.setBit a i b).dumpOrder = s.dumpOrder := rfl
@[simp] theorem State.setBit_owed (s : State) (a i : Nat) (b : Bool) : (s.setBit a i b).owed = s.owed := rfl
@[simp] theorem State.setBit_fwLost (s : State) (a i : Nat) (b : Bool) : (s.setBit a i b).fwLost = s.fwLost := rfl
@[simp] theorem State.setBit_mbx (s : State) (a i : Nat) (b : Bool) : (s.setBit a i b).mbx = s.mbx := rfl
@[simp] theorem State.setBit_rejoin (s : State) (a i : Nat) (b : Bool) : (s.setBit a i b).rejoin = s.rejoin := rfl
@[simp] theorem State.setBit_lastServed (s : State) (a i : Nat) (b : Bool) : (s.setBit a i b).lastServed = s.lastServed := rfl
@[simp] theorem State.setBit_time (s : State) (a i : Nat) (b : Bool) : (s.setBit a i b).time = s.time := rfl
@[simp] theorem State.setBit_timeUnit (s : State) (a i : Nat) (b : Bool) : (s.setBit a i b).timeUnit = s.timeUnit := rfl
@[simp] theorem State.setBit_timeRuns (s : State) (a i : Nat) (b : Bool) : (s.setBit a i b).timeRuns = s.timeRuns := rfl
@[simp] theorem State.setBit_cfg (s : State) (a i : Nat) (b : Bool) : (s.setBit a i b).cfg = s.cfg := rfl
@[simp] theorem State.setBit_fuses (s : State) (a i : Nat) (b : Bool) : (s.setBit a i b).fuses = s.fuses := rfl
@[simp] theorem State.setBit_pwr (s : State) (a i : Nat) (b : Bool) : (s.setBit a i b).pwr = s.pwr := rfl
@[simp] theorem State.setBit_boot (s : State) (a i : Nat) (b : Bool) : (s.setBit a i b).boot = s.boot := rfl
@[simp] theorem State.setBit_flash (s : State) (a i : Nat) (b : Bool) : (s.setBit a i b).flash = s.flash := rfl
@[simp] theorem State.setBit_upload (s : State) (a i : Nat) (b : Bool) : (s.setBit a i b).upload = s.upload := rfl
@[simp] theorem State.setBit_trained (s : State) (a i : Nat) (b : Bool) : (s.setBit a i b).trained = s.trained := rfl
@[simp] theorem State.setBit_out (s : State) (a i : Nat) (b : Bool) : (s.setBit a i b).out = s.out := rfl
@[simp] theorem State.setBit_free (s : State) (a i : Nat) (b : Bool) : (s.setBit a i b).free = s.free := rfl

@[simp] theorem State.orReg_pending (s : State) (a : Nat) (v : Word) : (s.orReg a v).pending = s.pending := rfl
@[simp] theorem State.orReg_store (s : State) (a : Nat) (v : Word) : (s.orReg a v).store = s.store := rfl
@[simp] theorem State.orReg_upsets (s : State) (a : Nat) (v : Word) : (s.orReg a v).upsets = s.upsets := rfl
@[simp] theorem State.orReg_tiles (s : State) (a : Nat) (v : Word) : (s.orReg a v).tiles = s.tiles := rfl
@[simp] theorem State.orReg_routers (s : State) (a : Nat) (v : Word) : (s.orReg a v).routers = s.routers := rfl
@[simp] theorem State.orReg_delivered (s : State) (a : Nat) (v : Word) : (s.orReg a v).delivered = s.delivered := rfl
@[simp] theorem State.orReg_edges (s : State) (a : Nat) (v : Word) : (s.orReg a v).edges = s.edges := rfl
@[simp] theorem State.orReg_sects (s : State) (a : Nat) (v : Word) : (s.orReg a v).sects = s.sects := rfl
@[simp] theorem State.orReg_bands (s : State) (a : Nat) (v : Word) : (s.orReg a v).bands = s.bands := rfl
@[simp] theorem State.orReg_plls (s : State) (a : Nat) (v : Word) : (s.orReg a v).plls = s.plls := rfl
@[simp] theorem State.orReg_boundary (s : State) (a : Nat) (v : Word) : (s.orReg a v).boundary = s.boundary := rfl
@[simp] theorem State.orReg_ring (s : State) (a : Nat) (v : Word) : (s.orReg a v).ring = s.ring := rfl
@[simp] theorem State.orReg_gpioOn (s : State) (a : Nat) (v : Word) : (s.orReg a v).gpioOn = s.gpioOn := rfl
@[simp] theorem State.orReg_gpio (s : State) (a : Nat) (v : Word) : (s.orReg a v).gpio = s.gpio := rfl
@[simp] theorem State.orReg_traces (s : State) (a : Nat) (v : Word) : (s.orReg a v).traces = s.traces := rfl
@[simp] theorem State.orReg_traceTick (s : State) (a : Nat) (v : Word) : (s.orReg a v).traceTick = s.traceTick := rfl
@[simp] theorem State.orReg_dram (s : State) (a : Nat) (v : Word) : (s.orReg a v).dram = s.dram := rfl
@[simp] theorem State.orReg_dramCh (s : State) (a : Nat) (v : Word) : (s.orReg a v).dramCh = s.dramCh := rfl
@[simp] theorem State.orReg_hubLogged (s : State) (a : Nat) (v : Word) : (s.orReg a v).hubLogged = s.hubLogged := rfl
@[simp] theorem State.orReg_fabReqs (s : State) (a : Nat) (v : Word) : (s.orReg a v).fabReqs = s.fabReqs := rfl
@[simp] theorem State.orReg_hostReads (s : State) (a : Nat) (v : Word) : (s.orReg a v).hostReads = s.hostReads := rfl
@[simp] theorem State.orReg_reqNum (s : State) (a : Nat) (v : Word) : (s.orReg a v).reqNum = s.reqNum := rfl
@[simp] theorem State.orReg_lanes (s : State) (a : Nat) (v : Word) : (s.orReg a v).lanes = s.lanes := rfl
@[simp] theorem State.orReg_ports (s : State) (a : Nat) (v : Word) : (s.orReg a v).ports = s.ports := rfl
@[simp] theorem State.orReg_chans (s : State) (a : Nat) (v : Word) : (s.orReg a v).chans = s.chans := rfl
@[simp] theorem State.orReg_parts (s : State) (a : Nat) (v : Word) : (s.orReg a v).parts = s.parts := rfl
@[simp] theorem State.orReg_search (s : State) (a : Nat) (v : Word) : (s.orReg a v).search = s.search := rfl
@[simp] theorem State.orReg_retired (s : State) (a : Nat) (v : Word) : (s.orReg a v).retired = s.retired := rfl
@[simp] theorem State.orReg_log (s : State) (a : Nat) (v : Word) : (s.orReg a v).log = s.log := rfl
@[simp] theorem State.orReg_logHigh (s : State) (a : Nat) (v : Word) : (s.orReg a v).logHigh = s.logHigh := rfl
@[simp] theorem State.orReg_logLast (s : State) (a : Nat) (v : Word) : (s.orReg a v).logLast = s.logLast := rfl
@[simp] theorem State.orReg_alertStatus (s : State) (a : Nat) (v : Word) : (s.orReg a v).alertStatus = s.alertStatus := rfl
@[simp] theorem State.orReg_alertMask (s : State) (a : Nat) (v : Word) : (s.orReg a v).alertMask = s.alertMask := rfl
@[simp] theorem State.orReg_notices (s : State) (a : Nat) (v : Word) : (s.orReg a v).notices = s.notices := rfl
@[simp] theorem State.orReg_dumpOrder (s : State) (a : Nat) (v : Word) : (s.orReg a v).dumpOrder = s.dumpOrder := rfl
@[simp] theorem State.orReg_owed (s : State) (a : Nat) (v : Word) : (s.orReg a v).owed = s.owed := rfl
@[simp] theorem State.orReg_fwLost (s : State) (a : Nat) (v : Word) : (s.orReg a v).fwLost = s.fwLost := rfl
@[simp] theorem State.orReg_mbx (s : State) (a : Nat) (v : Word) : (s.orReg a v).mbx = s.mbx := rfl
@[simp] theorem State.orReg_rejoin (s : State) (a : Nat) (v : Word) : (s.orReg a v).rejoin = s.rejoin := rfl
@[simp] theorem State.orReg_lastServed (s : State) (a : Nat) (v : Word) : (s.orReg a v).lastServed = s.lastServed := rfl
@[simp] theorem State.orReg_time (s : State) (a : Nat) (v : Word) : (s.orReg a v).time = s.time := rfl
@[simp] theorem State.orReg_timeUnit (s : State) (a : Nat) (v : Word) : (s.orReg a v).timeUnit = s.timeUnit := rfl
@[simp] theorem State.orReg_timeRuns (s : State) (a : Nat) (v : Word) : (s.orReg a v).timeRuns = s.timeRuns := rfl
@[simp] theorem State.orReg_cfg (s : State) (a : Nat) (v : Word) : (s.orReg a v).cfg = s.cfg := rfl
@[simp] theorem State.orReg_fuses (s : State) (a : Nat) (v : Word) : (s.orReg a v).fuses = s.fuses := rfl
@[simp] theorem State.orReg_pwr (s : State) (a : Nat) (v : Word) : (s.orReg a v).pwr = s.pwr := rfl
@[simp] theorem State.orReg_boot (s : State) (a : Nat) (v : Word) : (s.orReg a v).boot = s.boot := rfl
@[simp] theorem State.orReg_flash (s : State) (a : Nat) (v : Word) : (s.orReg a v).flash = s.flash := rfl
@[simp] theorem State.orReg_upload (s : State) (a : Nat) (v : Word) : (s.orReg a v).upload = s.upload := rfl
@[simp] theorem State.orReg_trained (s : State) (a : Nat) (v : Word) : (s.orReg a v).trained = s.trained := rfl
@[simp] theorem State.orReg_out (s : State) (a : Nat) (v : Word) : (s.orReg a v).out = s.out := rfl
@[simp] theorem State.orReg_free (s : State) (a : Nat) (v : Word) : (s.orReg a v).free = s.free := rfl

@[simp] theorem State.addReg_pending (s : State) (a n : Nat) : (s.addReg a n).pending = s.pending := rfl
@[simp] theorem State.addReg_store (s : State) (a n : Nat) : (s.addReg a n).store = s.store := rfl
@[simp] theorem State.addReg_upsets (s : State) (a n : Nat) : (s.addReg a n).upsets = s.upsets := rfl
@[simp] theorem State.addReg_tiles (s : State) (a n : Nat) : (s.addReg a n).tiles = s.tiles := rfl
@[simp] theorem State.addReg_routers (s : State) (a n : Nat) : (s.addReg a n).routers = s.routers := rfl
@[simp] theorem State.addReg_delivered (s : State) (a n : Nat) : (s.addReg a n).delivered = s.delivered := rfl
@[simp] theorem State.addReg_edges (s : State) (a n : Nat) : (s.addReg a n).edges = s.edges := rfl
@[simp] theorem State.addReg_sects (s : State) (a n : Nat) : (s.addReg a n).sects = s.sects := rfl
@[simp] theorem State.addReg_bands (s : State) (a n : Nat) : (s.addReg a n).bands = s.bands := rfl
@[simp] theorem State.addReg_plls (s : State) (a n : Nat) : (s.addReg a n).plls = s.plls := rfl
@[simp] theorem State.addReg_boundary (s : State) (a n : Nat) : (s.addReg a n).boundary = s.boundary := rfl
@[simp] theorem State.addReg_ring (s : State) (a n : Nat) : (s.addReg a n).ring = s.ring := rfl
@[simp] theorem State.addReg_gpioOn (s : State) (a n : Nat) : (s.addReg a n).gpioOn = s.gpioOn := rfl
@[simp] theorem State.addReg_gpio (s : State) (a n : Nat) : (s.addReg a n).gpio = s.gpio := rfl
@[simp] theorem State.addReg_traces (s : State) (a n : Nat) : (s.addReg a n).traces = s.traces := rfl
@[simp] theorem State.addReg_traceTick (s : State) (a n : Nat) : (s.addReg a n).traceTick = s.traceTick := rfl
@[simp] theorem State.addReg_dram (s : State) (a n : Nat) : (s.addReg a n).dram = s.dram := rfl
@[simp] theorem State.addReg_dramCh (s : State) (a n : Nat) : (s.addReg a n).dramCh = s.dramCh := rfl
@[simp] theorem State.addReg_hubLogged (s : State) (a n : Nat) : (s.addReg a n).hubLogged = s.hubLogged := rfl
@[simp] theorem State.addReg_fabReqs (s : State) (a n : Nat) : (s.addReg a n).fabReqs = s.fabReqs := rfl
@[simp] theorem State.addReg_hostReads (s : State) (a n : Nat) : (s.addReg a n).hostReads = s.hostReads := rfl
@[simp] theorem State.addReg_reqNum (s : State) (a n : Nat) : (s.addReg a n).reqNum = s.reqNum := rfl
@[simp] theorem State.addReg_lanes (s : State) (a n : Nat) : (s.addReg a n).lanes = s.lanes := rfl
@[simp] theorem State.addReg_ports (s : State) (a n : Nat) : (s.addReg a n).ports = s.ports := rfl
@[simp] theorem State.addReg_chans (s : State) (a n : Nat) : (s.addReg a n).chans = s.chans := rfl
@[simp] theorem State.addReg_parts (s : State) (a n : Nat) : (s.addReg a n).parts = s.parts := rfl
@[simp] theorem State.addReg_search (s : State) (a n : Nat) : (s.addReg a n).search = s.search := rfl
@[simp] theorem State.addReg_retired (s : State) (a n : Nat) : (s.addReg a n).retired = s.retired := rfl
@[simp] theorem State.addReg_log (s : State) (a n : Nat) : (s.addReg a n).log = s.log := rfl
@[simp] theorem State.addReg_logHigh (s : State) (a n : Nat) : (s.addReg a n).logHigh = s.logHigh := rfl
@[simp] theorem State.addReg_logLast (s : State) (a n : Nat) : (s.addReg a n).logLast = s.logLast := rfl
@[simp] theorem State.addReg_alertStatus (s : State) (a n : Nat) : (s.addReg a n).alertStatus = s.alertStatus := rfl
@[simp] theorem State.addReg_alertMask (s : State) (a n : Nat) : (s.addReg a n).alertMask = s.alertMask := rfl
@[simp] theorem State.addReg_notices (s : State) (a n : Nat) : (s.addReg a n).notices = s.notices := rfl
@[simp] theorem State.addReg_dumpOrder (s : State) (a n : Nat) : (s.addReg a n).dumpOrder = s.dumpOrder := rfl
@[simp] theorem State.addReg_owed (s : State) (a n : Nat) : (s.addReg a n).owed = s.owed := rfl
@[simp] theorem State.addReg_fwLost (s : State) (a n : Nat) : (s.addReg a n).fwLost = s.fwLost := rfl
@[simp] theorem State.addReg_mbx (s : State) (a n : Nat) : (s.addReg a n).mbx = s.mbx := rfl
@[simp] theorem State.addReg_rejoin (s : State) (a n : Nat) : (s.addReg a n).rejoin = s.rejoin := rfl
@[simp] theorem State.addReg_lastServed (s : State) (a n : Nat) : (s.addReg a n).lastServed = s.lastServed := rfl
@[simp] theorem State.addReg_time (s : State) (a n : Nat) : (s.addReg a n).time = s.time := rfl
@[simp] theorem State.addReg_timeUnit (s : State) (a n : Nat) : (s.addReg a n).timeUnit = s.timeUnit := rfl
@[simp] theorem State.addReg_timeRuns (s : State) (a n : Nat) : (s.addReg a n).timeRuns = s.timeRuns := rfl
@[simp] theorem State.addReg_cfg (s : State) (a n : Nat) : (s.addReg a n).cfg = s.cfg := rfl
@[simp] theorem State.addReg_fuses (s : State) (a n : Nat) : (s.addReg a n).fuses = s.fuses := rfl
@[simp] theorem State.addReg_pwr (s : State) (a n : Nat) : (s.addReg a n).pwr = s.pwr := rfl
@[simp] theorem State.addReg_boot (s : State) (a n : Nat) : (s.addReg a n).boot = s.boot := rfl
@[simp] theorem State.addReg_flash (s : State) (a n : Nat) : (s.addReg a n).flash = s.flash := rfl
@[simp] theorem State.addReg_upload (s : State) (a n : Nat) : (s.addReg a n).upload = s.upload := rfl
@[simp] theorem State.addReg_trained (s : State) (a n : Nat) : (s.addReg a n).trained = s.trained := rfl
@[simp] theorem State.addReg_out (s : State) (a n : Nat) : (s.addReg a n).out = s.out := rfl
@[simp] theorem State.addReg_free (s : State) (a n : Nat) : (s.addReg a n).free = s.free := rfl

@[simp] theorem State.wr2_pending (s : State) (lo hi v : Nat) : (s.wr2 lo hi v).pending = s.pending := rfl
@[simp] theorem State.wr2_store (s : State) (lo hi v : Nat) : (s.wr2 lo hi v).store = s.store := rfl
@[simp] theorem State.wr2_upsets (s : State) (lo hi v : Nat) : (s.wr2 lo hi v).upsets = s.upsets := rfl
@[simp] theorem State.wr2_tiles (s : State) (lo hi v : Nat) : (s.wr2 lo hi v).tiles = s.tiles := rfl
@[simp] theorem State.wr2_routers (s : State) (lo hi v : Nat) : (s.wr2 lo hi v).routers = s.routers := rfl
@[simp] theorem State.wr2_delivered (s : State) (lo hi v : Nat) : (s.wr2 lo hi v).delivered = s.delivered := rfl
@[simp] theorem State.wr2_edges (s : State) (lo hi v : Nat) : (s.wr2 lo hi v).edges = s.edges := rfl
@[simp] theorem State.wr2_sects (s : State) (lo hi v : Nat) : (s.wr2 lo hi v).sects = s.sects := rfl
@[simp] theorem State.wr2_bands (s : State) (lo hi v : Nat) : (s.wr2 lo hi v).bands = s.bands := rfl
@[simp] theorem State.wr2_plls (s : State) (lo hi v : Nat) : (s.wr2 lo hi v).plls = s.plls := rfl
@[simp] theorem State.wr2_boundary (s : State) (lo hi v : Nat) : (s.wr2 lo hi v).boundary = s.boundary := rfl
@[simp] theorem State.wr2_ring (s : State) (lo hi v : Nat) : (s.wr2 lo hi v).ring = s.ring := rfl
@[simp] theorem State.wr2_gpioOn (s : State) (lo hi v : Nat) : (s.wr2 lo hi v).gpioOn = s.gpioOn := rfl
@[simp] theorem State.wr2_gpio (s : State) (lo hi v : Nat) : (s.wr2 lo hi v).gpio = s.gpio := rfl
@[simp] theorem State.wr2_traces (s : State) (lo hi v : Nat) : (s.wr2 lo hi v).traces = s.traces := rfl
@[simp] theorem State.wr2_traceTick (s : State) (lo hi v : Nat) : (s.wr2 lo hi v).traceTick = s.traceTick := rfl
@[simp] theorem State.wr2_dram (s : State) (lo hi v : Nat) : (s.wr2 lo hi v).dram = s.dram := rfl
@[simp] theorem State.wr2_dramCh (s : State) (lo hi v : Nat) : (s.wr2 lo hi v).dramCh = s.dramCh := rfl
@[simp] theorem State.wr2_hubLogged (s : State) (lo hi v : Nat) : (s.wr2 lo hi v).hubLogged = s.hubLogged := rfl
@[simp] theorem State.wr2_fabReqs (s : State) (lo hi v : Nat) : (s.wr2 lo hi v).fabReqs = s.fabReqs := rfl
@[simp] theorem State.wr2_hostReads (s : State) (lo hi v : Nat) : (s.wr2 lo hi v).hostReads = s.hostReads := rfl
@[simp] theorem State.wr2_reqNum (s : State) (lo hi v : Nat) : (s.wr2 lo hi v).reqNum = s.reqNum := rfl
@[simp] theorem State.wr2_lanes (s : State) (lo hi v : Nat) : (s.wr2 lo hi v).lanes = s.lanes := rfl
@[simp] theorem State.wr2_ports (s : State) (lo hi v : Nat) : (s.wr2 lo hi v).ports = s.ports := rfl
@[simp] theorem State.wr2_chans (s : State) (lo hi v : Nat) : (s.wr2 lo hi v).chans = s.chans := rfl
@[simp] theorem State.wr2_parts (s : State) (lo hi v : Nat) : (s.wr2 lo hi v).parts = s.parts := rfl
@[simp] theorem State.wr2_search (s : State) (lo hi v : Nat) : (s.wr2 lo hi v).search = s.search := rfl
@[simp] theorem State.wr2_retired (s : State) (lo hi v : Nat) : (s.wr2 lo hi v).retired = s.retired := rfl
@[simp] theorem State.wr2_log (s : State) (lo hi v : Nat) : (s.wr2 lo hi v).log = s.log := rfl
@[simp] theorem State.wr2_logHigh (s : State) (lo hi v : Nat) : (s.wr2 lo hi v).logHigh = s.logHigh := rfl
@[simp] theorem State.wr2_logLast (s : State) (lo hi v : Nat) : (s.wr2 lo hi v).logLast = s.logLast := rfl
@[simp] theorem State.wr2_alertStatus (s : State) (lo hi v : Nat) : (s.wr2 lo hi v).alertStatus = s.alertStatus := rfl
@[simp] theorem State.wr2_alertMask (s : State) (lo hi v : Nat) : (s.wr2 lo hi v).alertMask = s.alertMask := rfl
@[simp] theorem State.wr2_notices (s : State) (lo hi v : Nat) : (s.wr2 lo hi v).notices = s.notices := rfl
@[simp] theorem State.wr2_dumpOrder (s : State) (lo hi v : Nat) : (s.wr2 lo hi v).dumpOrder = s.dumpOrder := rfl
@[simp] theorem State.wr2_owed (s : State) (lo hi v : Nat) : (s.wr2 lo hi v).owed = s.owed := rfl
@[simp] theorem State.wr2_fwLost (s : State) (lo hi v : Nat) : (s.wr2 lo hi v).fwLost = s.fwLost := rfl
@[simp] theorem State.wr2_mbx (s : State) (lo hi v : Nat) : (s.wr2 lo hi v).mbx = s.mbx := rfl
@[simp] theorem State.wr2_rejoin (s : State) (lo hi v : Nat) : (s.wr2 lo hi v).rejoin = s.rejoin := rfl
@[simp] theorem State.wr2_lastServed (s : State) (lo hi v : Nat) : (s.wr2 lo hi v).lastServed = s.lastServed := rfl
@[simp] theorem State.wr2_time (s : State) (lo hi v : Nat) : (s.wr2 lo hi v).time = s.time := rfl
@[simp] theorem State.wr2_timeUnit (s : State) (lo hi v : Nat) : (s.wr2 lo hi v).timeUnit = s.timeUnit := rfl
@[simp] theorem State.wr2_timeRuns (s : State) (lo hi v : Nat) : (s.wr2 lo hi v).timeRuns = s.timeRuns := rfl
@[simp] theorem State.wr2_cfg (s : State) (lo hi v : Nat) : (s.wr2 lo hi v).cfg = s.cfg := rfl
@[simp] theorem State.wr2_fuses (s : State) (lo hi v : Nat) : (s.wr2 lo hi v).fuses = s.fuses := rfl
@[simp] theorem State.wr2_pwr (s : State) (lo hi v : Nat) : (s.wr2 lo hi v).pwr = s.pwr := rfl
@[simp] theorem State.wr2_boot (s : State) (lo hi v : Nat) : (s.wr2 lo hi v).boot = s.boot := rfl
@[simp] theorem State.wr2_flash (s : State) (lo hi v : Nat) : (s.wr2 lo hi v).flash = s.flash := rfl
@[simp] theorem State.wr2_upload (s : State) (lo hi v : Nat) : (s.wr2 lo hi v).upload = s.upload := rfl
@[simp] theorem State.wr2_trained (s : State) (lo hi v : Nat) : (s.wr2 lo hi v).trained = s.trained := rfl
@[simp] theorem State.wr2_out (s : State) (lo hi v : Nat) : (s.wr2 lo hi v).out = s.out := rfl
@[simp] theorem State.wr2_free (s : State) (lo hi v : Nat) : (s.wr2 lo hi v).free = s.free := rfl

@[simp] theorem State.notify_pending (s : State) (fn kind : Nat) (body : List Byte) : (s.notify fn kind body).pending = s.pending := rfl
@[simp] theorem State.notify_regs (s : State) (fn kind : Nat) (body : List Byte) : (s.notify fn kind body).regs = s.regs := rfl
@[simp] theorem State.notify_store (s : State) (fn kind : Nat) (body : List Byte) : (s.notify fn kind body).store = s.store := rfl
@[simp] theorem State.notify_upsets (s : State) (fn kind : Nat) (body : List Byte) : (s.notify fn kind body).upsets = s.upsets := rfl
@[simp] theorem State.notify_tiles (s : State) (fn kind : Nat) (body : List Byte) : (s.notify fn kind body).tiles = s.tiles := rfl
@[simp] theorem State.notify_routers (s : State) (fn kind : Nat) (body : List Byte) : (s.notify fn kind body).routers = s.routers := rfl
@[simp] theorem State.notify_delivered (s : State) (fn kind : Nat) (body : List Byte) : (s.notify fn kind body).delivered = s.delivered := rfl
@[simp] theorem State.notify_edges (s : State) (fn kind : Nat) (body : List Byte) : (s.notify fn kind body).edges = s.edges := rfl
@[simp] theorem State.notify_sects (s : State) (fn kind : Nat) (body : List Byte) : (s.notify fn kind body).sects = s.sects := rfl
@[simp] theorem State.notify_bands (s : State) (fn kind : Nat) (body : List Byte) : (s.notify fn kind body).bands = s.bands := rfl
@[simp] theorem State.notify_plls (s : State) (fn kind : Nat) (body : List Byte) : (s.notify fn kind body).plls = s.plls := rfl
@[simp] theorem State.notify_boundary (s : State) (fn kind : Nat) (body : List Byte) : (s.notify fn kind body).boundary = s.boundary := rfl
@[simp] theorem State.notify_ring (s : State) (fn kind : Nat) (body : List Byte) : (s.notify fn kind body).ring = s.ring := rfl
@[simp] theorem State.notify_gpioOn (s : State) (fn kind : Nat) (body : List Byte) : (s.notify fn kind body).gpioOn = s.gpioOn := rfl
@[simp] theorem State.notify_gpio (s : State) (fn kind : Nat) (body : List Byte) : (s.notify fn kind body).gpio = s.gpio := rfl
@[simp] theorem State.notify_traces (s : State) (fn kind : Nat) (body : List Byte) : (s.notify fn kind body).traces = s.traces := rfl
@[simp] theorem State.notify_traceTick (s : State) (fn kind : Nat) (body : List Byte) : (s.notify fn kind body).traceTick = s.traceTick := rfl
@[simp] theorem State.notify_dram (s : State) (fn kind : Nat) (body : List Byte) : (s.notify fn kind body).dram = s.dram := rfl
@[simp] theorem State.notify_dramCh (s : State) (fn kind : Nat) (body : List Byte) : (s.notify fn kind body).dramCh = s.dramCh := rfl
@[simp] theorem State.notify_hubLogged (s : State) (fn kind : Nat) (body : List Byte) : (s.notify fn kind body).hubLogged = s.hubLogged := rfl
@[simp] theorem State.notify_fabReqs (s : State) (fn kind : Nat) (body : List Byte) : (s.notify fn kind body).fabReqs = s.fabReqs := rfl
@[simp] theorem State.notify_hostReads (s : State) (fn kind : Nat) (body : List Byte) : (s.notify fn kind body).hostReads = s.hostReads := rfl
@[simp] theorem State.notify_reqNum (s : State) (fn kind : Nat) (body : List Byte) : (s.notify fn kind body).reqNum = s.reqNum := rfl
@[simp] theorem State.notify_lanes (s : State) (fn kind : Nat) (body : List Byte) : (s.notify fn kind body).lanes = s.lanes := rfl
@[simp] theorem State.notify_ports (s : State) (fn kind : Nat) (body : List Byte) : (s.notify fn kind body).ports = s.ports := rfl
@[simp] theorem State.notify_chans (s : State) (fn kind : Nat) (body : List Byte) : (s.notify fn kind body).chans = s.chans := rfl
@[simp] theorem State.notify_parts (s : State) (fn kind : Nat) (body : List Byte) : (s.notify fn kind body).parts = s.parts := rfl
@[simp] theorem State.notify_search (s : State) (fn kind : Nat) (body : List Byte) : (s.notify fn kind body).search = s.search := rfl
@[simp] theorem State.notify_retired (s : State) (fn kind : Nat) (body : List Byte) : (s.notify fn kind body).retired = s.retired := rfl
@[simp] theorem State.notify_log (s : State) (fn kind : Nat) (body : List Byte) : (s.notify fn kind body).log = s.log := rfl
@[simp] theorem State.notify_logHigh (s : State) (fn kind : Nat) (body : List Byte) : (s.notify fn kind body).logHigh = s.logHigh := rfl
@[simp] theorem State.notify_logLast (s : State) (fn kind : Nat) (body : List Byte) : (s.notify fn kind body).logLast = s.logLast := rfl
@[simp] theorem State.notify_alertStatus (s : State) (fn kind : Nat) (body : List Byte) : (s.notify fn kind body).alertStatus = s.alertStatus := rfl
@[simp] theorem State.notify_alertMask (s : State) (fn kind : Nat) (body : List Byte) : (s.notify fn kind body).alertMask = s.alertMask := rfl
@[simp] theorem State.notify_dumpOrder (s : State) (fn kind : Nat) (body : List Byte) : (s.notify fn kind body).dumpOrder = s.dumpOrder := rfl
@[simp] theorem State.notify_owed (s : State) (fn kind : Nat) (body : List Byte) : (s.notify fn kind body).owed = s.owed := rfl
@[simp] theorem State.notify_fwLost (s : State) (fn kind : Nat) (body : List Byte) : (s.notify fn kind body).fwLost = s.fwLost := rfl
@[simp] theorem State.notify_mbx (s : State) (fn kind : Nat) (body : List Byte) : (s.notify fn kind body).mbx = s.mbx := rfl
@[simp] theorem State.notify_rejoin (s : State) (fn kind : Nat) (body : List Byte) : (s.notify fn kind body).rejoin = s.rejoin := rfl
@[simp] theorem State.notify_lastServed (s : State) (fn kind : Nat) (body : List Byte) : (s.notify fn kind body).lastServed = s.lastServed := rfl
@[simp] theorem State.notify_time (s : State) (fn kind : Nat) (body : List Byte) : (s.notify fn kind body).time = s.time := rfl
@[simp] theorem State.notify_timeUnit (s : State) (fn kind : Nat) (body : List Byte) : (s.notify fn kind body).timeUnit = s.timeUnit := rfl
@[simp] theorem State.notify_timeRuns (s : State) (fn kind : Nat) (body : List Byte) : (s.notify fn kind body).timeRuns = s.timeRuns := rfl
@[simp] theorem State.notify_cfg (s : State) (fn kind : Nat) (body : List Byte) : (s.notify fn kind body).cfg = s.cfg := rfl
@[simp] theorem State.notify_fuses (s : State) (fn kind : Nat) (body : List Byte) : (s.notify fn kind body).fuses = s.fuses := rfl
@[simp] theorem State.notify_pwr (s : State) (fn kind : Nat) (body : List Byte) : (s.notify fn kind body).pwr = s.pwr := rfl
@[simp] theorem State.notify_boot (s : State) (fn kind : Nat) (body : List Byte) : (s.notify fn kind body).boot = s.boot := rfl
@[simp] theorem State.notify_flash (s : State) (fn kind : Nat) (body : List Byte) : (s.notify fn kind body).flash = s.flash := rfl
@[simp] theorem State.notify_upload (s : State) (fn kind : Nat) (body : List Byte) : (s.notify fn kind body).upload = s.upload := rfl
@[simp] theorem State.notify_trained (s : State) (fn kind : Nat) (body : List Byte) : (s.notify fn kind body).trained = s.trained := rfl
@[simp] theorem State.notify_out (s : State) (fn kind : Nat) (body : List Byte) : (s.notify fn kind body).out = s.out := rfl
@[simp] theorem State.notify_free (s : State) (fn kind : Nat) (body : List Byte) : (s.notify fn kind body).free = s.free := rfl

/-- A read of a unit's record after a write of one. -/
@[simp] theorem State.tile_setTile (s : State) (i j : Nat) (x : Tile) :
    (s.setTile i x).tile j = if i = j then x else s.tile j := by
  simp [State.tile, State.setTile]

/-- A read of a unit's record after a write of one. -/
@[simp] theorem State.router_setRouter (s : State) (i j : Nat) (x : Router) :
    (s.setRouter i x).router j = if i = j then x else s.router j := by
  simp [State.router, State.setRouter]

/-- A read of a unit's record after a write of one. -/
@[simp] theorem State.edge_setEdge (s : State) (i j : Nat) (x : EdgeSt) :
    (s.setEdge i x).edge j = if i = j then x else s.edge j := by
  simp [State.edge, State.setEdge]

/-- A read of a unit's record after a write of one. -/
@[simp] theorem State.fnMbx_setFnMbx (s : State) (i j : Nat) (x : MbxFn) :
    (s.setFnMbx i x).fnMbx j = if i = j then x else s.fnMbx j := by
  simp [State.fnMbx, State.setFnMbx]

/-- A read of a unit's record after a write of one. -/
@[simp] theorem State.port_setPort (s : State) (i j : Nat) (x : PortSt) :
    (s.setPort i x).port j = if i = j then x else s.port j := by
  simp [State.port, State.setPort]

/-- A read of a unit's record after a write of one. -/
@[simp] theorem State.lane_setLane (s : State) (i j : Nat) (x : Lane) :
    (s.setLane i x).lane j = if i = j then x else s.lane j := by
  simp [State.lane, State.setLane]

/-- A read of a unit's record after a write of one. -/
@[simp] theorem State.chan_setChan (s : State) (i j : Nat) (x : Chan) :
    (s.setChan i x).chan j = if i = j then x else s.chan j := by
  simp [State.chan, State.setChan]

/-- A read of a unit's record after a write of one. -/
@[simp] theorem State.dch_setDch (s : State) (i j : Nat) (x : DramCh) :
    (s.setDch i x).dch j = if i = j then x else s.dch j := by
  simp [State.dch, State.setDch]

/-- A read of a partition's record after a write of one. -/
@[simp] theorem State.part_setPart (s : State) (i j : Nat) (x : Part) :
    (s.setPart i x).part j = if i = j then some x else s.part j := by
  simp [State.part, State.setPart]

/-- A read of a register after a write of one. -/
@[simp] theorem State.rd_wr (s : State) (a b : Nat) (v : Word) : (s.wr a v).rd b = if a = b then v else s.rd b := by
  simp [State.rd, State.wr]

/-- A read of a register after a write of a field. -/
@[simp] theorem State.rd_setFld (s : State) (a lo w v b : Nat) :
    (s.setFld a lo w v).rd b = if a = b then (s.rd a).setField lo w v else s.rd b := by
  simp [State.setFld]

/-- A read of a register after a write of a bit. -/
@[simp] theorem State.rd_setBit (s : State) (a i b : Nat) (v : Bool) :
    (s.setBit a i v).rd b = if a = b then (s.rd a).setBit i v else s.rd b := by
  simp [State.setBit]

/-- A read of a register after bits were set. -/
@[simp] theorem State.rd_orReg (s : State) (a b : Nat) (v : Word) :
    (s.orReg a v).rd b = if a = b then s.rd a ||| v else s.rd b := by
  simp [State.orReg]

/-- A read of a register after a counter was raised. -/
@[simp] theorem State.rd_addReg (s : State) (a n b : Nat) :
    (s.addReg a n).rd b = if a = b then s.rd a + BitVec.ofNat 32 n else s.rd b := by
  simp [State.addReg]

/-- A read of a register after a number was written into two. -/
theorem State.rd_wr2 (s : State) (lo hi v b : Nat) :
    (s.wr2 lo hi v).rd b =
      if hi = b then BitVec.ofNat 32 (v / 2 ^ 32) else if lo = b then BitVec.ofNat 32 v else s.rd b := by
  simp [State.wr2]

@[simp] theorem State.wr_tile_of (s : State) (a : Nat) (v : Word) (j : Nat) : (s.wr a v).tile j = s.tile j := rfl
@[simp] theorem State.wr_router_of (s : State) (a : Nat) (v : Word) (j : Nat) : (s.wr a v).router j = s.router j := rfl
@[simp] theorem State.wr_edge_of (s : State) (a : Nat) (v : Word) (j : Nat) : (s.wr a v).edge j = s.edge j := rfl
@[simp] theorem State.wr_fnMbx_of (s : State) (a : Nat) (v : Word) (j : Nat) : (s.wr a v).fnMbx j = s.fnMbx j := rfl
@[simp] theorem State.wr_port_of (s : State) (a : Nat) (v : Word) (j : Nat) : (s.wr a v).port j = s.port j := rfl
@[simp] theorem State.wr_lane_of (s : State) (a : Nat) (v : Word) (j : Nat) : (s.wr a v).lane j = s.lane j := rfl
@[simp] theorem State.wr_chan_of (s : State) (a : Nat) (v : Word) (j : Nat) : (s.wr a v).chan j = s.chan j := rfl
@[simp] theorem State.wr_dch_of (s : State) (a : Nat) (v : Word) (j : Nat) : (s.wr a v).dch j = s.dch j := rfl
@[simp] theorem State.wr_part_of (s : State) (a : Nat) (v : Word) (j : Nat) : (s.wr a v).part j = s.part j := rfl
@[simp] theorem State.setTile_rd (s : State) (t : Nat) (x : Tile) (j : Nat) : (s.setTile t x).rd j = s.rd j := rfl
@[simp] theorem State.setTile_router_of (s : State) (t : Nat) (x : Tile) (j : Nat) : (s.setTile t x).router j = s.router j := rfl
@[simp] theorem State.setTile_edge_of (s : State) (t : Nat) (x : Tile) (j : Nat) : (s.setTile t x).edge j = s.edge j := rfl
@[simp] theorem State.setTile_fnMbx_of (s : State) (t : Nat) (x : Tile) (j : Nat) : (s.setTile t x).fnMbx j = s.fnMbx j := rfl
@[simp] theorem State.setTile_port_of (s : State) (t : Nat) (x : Tile) (j : Nat) : (s.setTile t x).port j = s.port j := rfl
@[simp] theorem State.setTile_lane_of (s : State) (t : Nat) (x : Tile) (j : Nat) : (s.setTile t x).lane j = s.lane j := rfl
@[simp] theorem State.setTile_chan_of (s : State) (t : Nat) (x : Tile) (j : Nat) : (s.setTile t x).chan j = s.chan j := rfl
@[simp] theorem State.setTile_dch_of (s : State) (t : Nat) (x : Tile) (j : Nat) : (s.setTile t x).dch j = s.dch j := rfl
@[simp] theorem State.setTile_part_of (s : State) (t : Nat) (x : Tile) (j : Nat) : (s.setTile t x).part j = s.part j := rfl
@[simp] theorem State.setRouter_rd (s : State) (r : Nat) (x : Router) (j : Nat) : (s.setRouter r x).rd j = s.rd j := rfl
@[simp] theorem State.setRouter_tile_of (s : State) (r : Nat) (x : Router) (j : Nat) : (s.setRouter r x).tile j = s.tile j := rfl
@[simp] theorem State.setRouter_edge_of (s : State) (r : Nat) (x : Router) (j : Nat) : (s.setRouter r x).edge j = s.edge j := rfl
@[simp] theorem State.setRouter_fnMbx_of (s : State) (r : Nat) (x : Router) (j : Nat) : (s.setRouter r x).fnMbx j = s.fnMbx j := rfl
@[simp] theorem State.setRouter_port_of (s : State) (r : Nat) (x : Router) (j : Nat) : (s.setRouter r x).port j = s.port j := rfl
@[simp] theorem State.setRouter_lane_of (s : State) (r : Nat) (x : Router) (j : Nat) : (s.setRouter r x).lane j = s.lane j := rfl
@[simp] theorem State.setRouter_chan_of (s : State) (r : Nat) (x : Router) (j : Nat) : (s.setRouter r x).chan j = s.chan j := rfl
@[simp] theorem State.setRouter_dch_of (s : State) (r : Nat) (x : Router) (j : Nat) : (s.setRouter r x).dch j = s.dch j := rfl
@[simp] theorem State.setRouter_part_of (s : State) (r : Nat) (x : Router) (j : Nat) : (s.setRouter r x).part j = s.part j := rfl
@[simp] theorem State.setEdge_rd (s : State) (e : Nat) (x : EdgeSt) (j : Nat) : (s.setEdge e x).rd j = s.rd j := rfl
@[simp] theorem State.setEdge_tile_of (s : State) (e : Nat) (x : EdgeSt) (j : Nat) : (s.setEdge e x).tile j = s.tile j := rfl
@[simp] theorem State.setEdge_router_of (s : State) (e : Nat) (x : EdgeSt) (j : Nat) : (s.setEdge e x).router j = s.router j := rfl
@[simp] theorem State.setEdge_fnMbx_of (s : State) (e : Nat) (x : EdgeSt) (j : Nat) : (s.setEdge e x).fnMbx j = s.fnMbx j := rfl
@[simp] theorem State.setEdge_port_of (s : State) (e : Nat) (x : EdgeSt) (j : Nat) : (s.setEdge e x).port j = s.port j := rfl
@[simp] theorem State.setEdge_lane_of (s : State) (e : Nat) (x : EdgeSt) (j : Nat) : (s.setEdge e x).lane j = s.lane j := rfl
@[simp] theorem State.setEdge_chan_of (s : State) (e : Nat) (x : EdgeSt) (j : Nat) : (s.setEdge e x).chan j = s.chan j := rfl
@[simp] theorem State.setEdge_dch_of (s : State) (e : Nat) (x : EdgeSt) (j : Nat) : (s.setEdge e x).dch j = s.dch j := rfl
@[simp] theorem State.setEdge_part_of (s : State) (e : Nat) (x : EdgeSt) (j : Nat) : (s.setEdge e x).part j = s.part j := rfl
@[simp] theorem State.setPart_rd (s : State) (p : Nat) (x : Part) (j : Nat) : (s.setPart p x).rd j = s.rd j := rfl
@[simp] theorem State.setPart_tile_of (s : State) (p : Nat) (x : Part) (j : Nat) : (s.setPart p x).tile j = s.tile j := rfl
@[simp] theorem State.setPart_router_of (s : State) (p : Nat) (x : Part) (j : Nat) : (s.setPart p x).router j = s.router j := rfl
@[simp] theorem State.setPart_edge_of (s : State) (p : Nat) (x : Part) (j : Nat) : (s.setPart p x).edge j = s.edge j := rfl
@[simp] theorem State.setPart_fnMbx_of (s : State) (p : Nat) (x : Part) (j : Nat) : (s.setPart p x).fnMbx j = s.fnMbx j := rfl
@[simp] theorem State.setPart_port_of (s : State) (p : Nat) (x : Part) (j : Nat) : (s.setPart p x).port j = s.port j := rfl
@[simp] theorem State.setPart_lane_of (s : State) (p : Nat) (x : Part) (j : Nat) : (s.setPart p x).lane j = s.lane j := rfl
@[simp] theorem State.setPart_chan_of (s : State) (p : Nat) (x : Part) (j : Nat) : (s.setPart p x).chan j = s.chan j := rfl
@[simp] theorem State.setPart_dch_of (s : State) (p : Nat) (x : Part) (j : Nat) : (s.setPart p x).dch j = s.dch j := rfl
@[simp] theorem State.setFnMbx_rd (s : State) (f : Nat) (x : MbxFn) (j : Nat) : (s.setFnMbx f x).rd j = s.rd j := rfl
@[simp] theorem State.setFnMbx_tile_of (s : State) (f : Nat) (x : MbxFn) (j : Nat) : (s.setFnMbx f x).tile j = s.tile j := rfl
@[simp] theorem State.setFnMbx_router_of (s : State) (f : Nat) (x : MbxFn) (j : Nat) : (s.setFnMbx f x).router j = s.router j := rfl
@[simp] theorem State.setFnMbx_edge_of (s : State) (f : Nat) (x : MbxFn) (j : Nat) : (s.setFnMbx f x).edge j = s.edge j := rfl
@[simp] theorem State.setFnMbx_port_of (s : State) (f : Nat) (x : MbxFn) (j : Nat) : (s.setFnMbx f x).port j = s.port j := rfl
@[simp] theorem State.setFnMbx_lane_of (s : State) (f : Nat) (x : MbxFn) (j : Nat) : (s.setFnMbx f x).lane j = s.lane j := rfl
@[simp] theorem State.setFnMbx_chan_of (s : State) (f : Nat) (x : MbxFn) (j : Nat) : (s.setFnMbx f x).chan j = s.chan j := rfl
@[simp] theorem State.setFnMbx_dch_of (s : State) (f : Nat) (x : MbxFn) (j : Nat) : (s.setFnMbx f x).dch j = s.dch j := rfl
@[simp] theorem State.setFnMbx_part_of (s : State) (f : Nat) (x : MbxFn) (j : Nat) : (s.setFnMbx f x).part j = s.part j := rfl
@[simp] theorem State.setPort_rd (s : State) (p : Nat) (x : PortSt) (j : Nat) : (s.setPort p x).rd j = s.rd j := rfl
@[simp] theorem State.setPort_tile_of (s : State) (p : Nat) (x : PortSt) (j : Nat) : (s.setPort p x).tile j = s.tile j := rfl
@[simp] theorem State.setPort_router_of (s : State) (p : Nat) (x : PortSt) (j : Nat) : (s.setPort p x).router j = s.router j := rfl
@[simp] theorem State.setPort_edge_of (s : State) (p : Nat) (x : PortSt) (j : Nat) : (s.setPort p x).edge j = s.edge j := rfl
@[simp] theorem State.setPort_fnMbx_of (s : State) (p : Nat) (x : PortSt) (j : Nat) : (s.setPort p x).fnMbx j = s.fnMbx j := rfl
@[simp] theorem State.setPort_lane_of (s : State) (p : Nat) (x : PortSt) (j : Nat) : (s.setPort p x).lane j = s.lane j := rfl
@[simp] theorem State.setPort_chan_of (s : State) (p : Nat) (x : PortSt) (j : Nat) : (s.setPort p x).chan j = s.chan j := rfl
@[simp] theorem State.setPort_dch_of (s : State) (p : Nat) (x : PortSt) (j : Nat) : (s.setPort p x).dch j = s.dch j := rfl
@[simp] theorem State.setPort_part_of (s : State) (p : Nat) (x : PortSt) (j : Nat) : (s.setPort p x).part j = s.part j := rfl
@[simp] theorem State.setLane_rd (s : State) (n : Nat) (x : Lane) (j : Nat) : (s.setLane n x).rd j = s.rd j := rfl
@[simp] theorem State.setLane_tile_of (s : State) (n : Nat) (x : Lane) (j : Nat) : (s.setLane n x).tile j = s.tile j := rfl
@[simp] theorem State.setLane_router_of (s : State) (n : Nat) (x : Lane) (j : Nat) : (s.setLane n x).router j = s.router j := rfl
@[simp] theorem State.setLane_edge_of (s : State) (n : Nat) (x : Lane) (j : Nat) : (s.setLane n x).edge j = s.edge j := rfl
@[simp] theorem State.setLane_fnMbx_of (s : State) (n : Nat) (x : Lane) (j : Nat) : (s.setLane n x).fnMbx j = s.fnMbx j := rfl
@[simp] theorem State.setLane_port_of (s : State) (n : Nat) (x : Lane) (j : Nat) : (s.setLane n x).port j = s.port j := rfl
@[simp] theorem State.setLane_chan_of (s : State) (n : Nat) (x : Lane) (j : Nat) : (s.setLane n x).chan j = s.chan j := rfl
@[simp] theorem State.setLane_dch_of (s : State) (n : Nat) (x : Lane) (j : Nat) : (s.setLane n x).dch j = s.dch j := rfl
@[simp] theorem State.setLane_part_of (s : State) (n : Nat) (x : Lane) (j : Nat) : (s.setLane n x).part j = s.part j := rfl
@[simp] theorem State.setChan_rd (s : State) (c : Nat) (x : Chan) (j : Nat) : (s.setChan c x).rd j = s.rd j := rfl
@[simp] theorem State.setChan_tile_of (s : State) (c : Nat) (x : Chan) (j : Nat) : (s.setChan c x).tile j = s.tile j := rfl
@[simp] theorem State.setChan_router_of (s : State) (c : Nat) (x : Chan) (j : Nat) : (s.setChan c x).router j = s.router j := rfl
@[simp] theorem State.setChan_edge_of (s : State) (c : Nat) (x : Chan) (j : Nat) : (s.setChan c x).edge j = s.edge j := rfl
@[simp] theorem State.setChan_fnMbx_of (s : State) (c : Nat) (x : Chan) (j : Nat) : (s.setChan c x).fnMbx j = s.fnMbx j := rfl
@[simp] theorem State.setChan_port_of (s : State) (c : Nat) (x : Chan) (j : Nat) : (s.setChan c x).port j = s.port j := rfl
@[simp] theorem State.setChan_lane_of (s : State) (c : Nat) (x : Chan) (j : Nat) : (s.setChan c x).lane j = s.lane j := rfl
@[simp] theorem State.setChan_dch_of (s : State) (c : Nat) (x : Chan) (j : Nat) : (s.setChan c x).dch j = s.dch j := rfl
@[simp] theorem State.setChan_part_of (s : State) (c : Nat) (x : Chan) (j : Nat) : (s.setChan c x).part j = s.part j := rfl
@[simp] theorem State.setDch_rd (s : State) (ch : Nat) (x : DramCh) (j : Nat) : (s.setDch ch x).rd j = s.rd j := rfl
@[simp] theorem State.setDch_tile_of (s : State) (ch : Nat) (x : DramCh) (j : Nat) : (s.setDch ch x).tile j = s.tile j := rfl
@[simp] theorem State.setDch_router_of (s : State) (ch : Nat) (x : DramCh) (j : Nat) : (s.setDch ch x).router j = s.router j := rfl
@[simp] theorem State.setDch_edge_of (s : State) (ch : Nat) (x : DramCh) (j : Nat) : (s.setDch ch x).edge j = s.edge j := rfl
@[simp] theorem State.setDch_fnMbx_of (s : State) (ch : Nat) (x : DramCh) (j : Nat) : (s.setDch ch x).fnMbx j = s.fnMbx j := rfl
@[simp] theorem State.setDch_port_of (s : State) (ch : Nat) (x : DramCh) (j : Nat) : (s.setDch ch x).port j = s.port j := rfl
@[simp] theorem State.setDch_lane_of (s : State) (ch : Nat) (x : DramCh) (j : Nat) : (s.setDch ch x).lane j = s.lane j := rfl
@[simp] theorem State.setDch_chan_of (s : State) (ch : Nat) (x : DramCh) (j : Nat) : (s.setDch ch x).chan j = s.chan j := rfl
@[simp] theorem State.setDch_part_of (s : State) (ch : Nat) (x : DramCh) (j : Nat) : (s.setDch ch x).part j = s.part j := rfl
@[simp] theorem State.emit_rd (s : State) (o : Output) (j : Nat) : (s.emit o).rd j = s.rd j := rfl
@[simp] theorem State.emit_tile_of (s : State) (o : Output) (j : Nat) : (s.emit o).tile j = s.tile j := rfl
@[simp] theorem State.emit_router_of (s : State) (o : Output) (j : Nat) : (s.emit o).router j = s.router j := rfl
@[simp] theorem State.emit_edge_of (s : State) (o : Output) (j : Nat) : (s.emit o).edge j = s.edge j := rfl
@[simp] theorem State.emit_fnMbx_of (s : State) (o : Output) (j : Nat) : (s.emit o).fnMbx j = s.fnMbx j := rfl
@[simp] theorem State.emit_port_of (s : State) (o : Output) (j : Nat) : (s.emit o).port j = s.port j := rfl
@[simp] theorem State.emit_lane_of (s : State) (o : Output) (j : Nat) : (s.emit o).lane j = s.lane j := rfl
@[simp] theorem State.emit_chan_of (s : State) (o : Output) (j : Nat) : (s.emit o).chan j = s.chan j := rfl
@[simp] theorem State.emit_dch_of (s : State) (o : Output) (j : Nat) : (s.emit o).dch j = s.dch j := rfl
@[simp] theorem State.emit_part_of (s : State) (o : Output) (j : Nat) : (s.emit o).part j = s.part j := rfl
@[simp] theorem State.stepFree_rd (s : State) (j : Nat) : (s.stepFree).rd j = s.rd j := rfl
@[simp] theorem State.stepFree_tile_of (s : State) (j : Nat) : (s.stepFree).tile j = s.tile j := rfl
@[simp] theorem State.stepFree_router_of (s : State) (j : Nat) : (s.stepFree).router j = s.router j := rfl
@[simp] theorem State.stepFree_edge_of (s : State) (j : Nat) : (s.stepFree).edge j = s.edge j := rfl
@[simp] theorem State.stepFree_fnMbx_of (s : State) (j : Nat) : (s.stepFree).fnMbx j = s.fnMbx j := rfl
@[simp] theorem State.stepFree_port_of (s : State) (j : Nat) : (s.stepFree).port j = s.port j := rfl
@[simp] theorem State.stepFree_lane_of (s : State) (j : Nat) : (s.stepFree).lane j = s.lane j := rfl
@[simp] theorem State.stepFree_chan_of (s : State) (j : Nat) : (s.stepFree).chan j = s.chan j := rfl
@[simp] theorem State.stepFree_dch_of (s : State) (j : Nat) : (s.stepFree).dch j = s.dch j := rfl
@[simp] theorem State.stepFree_part_of (s : State) (j : Nat) : (s.stepFree).part j = s.part j := rfl
@[simp] theorem State.setFld_tile_of (s : State) (a lo w v : Nat) (j : Nat) : (s.setFld a lo w v).tile j = s.tile j := rfl
@[simp] theorem State.setFld_router_of (s : State) (a lo w v : Nat) (j : Nat) : (s.setFld a lo w v).router j = s.router j := rfl
@[simp] theorem State.setFld_edge_of (s : State) (a lo w v : Nat) (j : Nat) : (s.setFld a lo w v).edge j = s.edge j := rfl
@[simp] theorem State.setFld_fnMbx_of (s : State) (a lo w v : Nat) (j : Nat) : (s.setFld a lo w v).fnMbx j = s.fnMbx j := rfl
@[simp] theorem State.setFld_port_of (s : State) (a lo w v : Nat) (j : Nat) : (s.setFld a lo w v).port j = s.port j := rfl
@[simp] theorem State.setFld_lane_of (s : State) (a lo w v : Nat) (j : Nat) : (s.setFld a lo w v).lane j = s.lane j := rfl
@[simp] theorem State.setFld_chan_of (s : State) (a lo w v : Nat) (j : Nat) : (s.setFld a lo w v).chan j = s.chan j := rfl
@[simp] theorem State.setFld_dch_of (s : State) (a lo w v : Nat) (j : Nat) : (s.setFld a lo w v).dch j = s.dch j := rfl
@[simp] theorem State.setFld_part_of (s : State) (a lo w v : Nat) (j : Nat) : (s.setFld a lo w v).part j = s.part j := rfl
@[simp] theorem State.setBit_tile_of (s : State) (a i : Nat) (b : Bool) (j : Nat) : (s.setBit a i b).tile j = s.tile j := rfl
@[simp] theorem State.setBit_router_of (s : State) (a i : Nat) (b : Bool) (j : Nat) : (s.setBit a i b).router j = s.router j := rfl
@[simp] theorem State.setBit_edge_of (s : State) (a i : Nat) (b : Bool) (j : Nat) : (s.setBit a i b).edge j = s.edge j := rfl
@[simp] theorem State.setBit_fnMbx_of (s : State) (a i : Nat) (b : Bool) (j : Nat) : (s.setBit a i b).fnMbx j = s.fnMbx j := rfl
@[simp] theorem State.setBit_port_of (s : State) (a i : Nat) (b : Bool) (j : Nat) : (s.setBit a i b).port j = s.port j := rfl
@[simp] theorem State.setBit_lane_of (s : State) (a i : Nat) (b : Bool) (j : Nat) : (s.setBit a i b).lane j = s.lane j := rfl
@[simp] theorem State.setBit_chan_of (s : State) (a i : Nat) (b : Bool) (j : Nat) : (s.setBit a i b).chan j = s.chan j := rfl
@[simp] theorem State.setBit_dch_of (s : State) (a i : Nat) (b : Bool) (j : Nat) : (s.setBit a i b).dch j = s.dch j := rfl
@[simp] theorem State.setBit_part_of (s : State) (a i : Nat) (b : Bool) (j : Nat) : (s.setBit a i b).part j = s.part j := rfl
@[simp] theorem State.orReg_tile_of (s : State) (a : Nat) (v : Word) (j : Nat) : (s.orReg a v).tile j = s.tile j := rfl
@[simp] theorem State.orReg_router_of (s : State) (a : Nat) (v : Word) (j : Nat) : (s.orReg a v).router j = s.router j := rfl
@[simp] theorem State.orReg_edge_of (s : State) (a : Nat) (v : Word) (j : Nat) : (s.orReg a v).edge j = s.edge j := rfl
@[simp] theorem State.orReg_fnMbx_of (s : State) (a : Nat) (v : Word) (j : Nat) : (s.orReg a v).fnMbx j = s.fnMbx j := rfl
@[simp] theorem State.orReg_port_of (s : State) (a : Nat) (v : Word) (j : Nat) : (s.orReg a v).port j = s.port j := rfl
@[simp] theorem State.orReg_lane_of (s : State) (a : Nat) (v : Word) (j : Nat) : (s.orReg a v).lane j = s.lane j := rfl
@[simp] theorem State.orReg_chan_of (s : State) (a : Nat) (v : Word) (j : Nat) : (s.orReg a v).chan j = s.chan j := rfl
@[simp] theorem State.orReg_dch_of (s : State) (a : Nat) (v : Word) (j : Nat) : (s.orReg a v).dch j = s.dch j := rfl
@[simp] theorem State.orReg_part_of (s : State) (a : Nat) (v : Word) (j : Nat) : (s.orReg a v).part j = s.part j := rfl
@[simp] theorem State.addReg_tile_of (s : State) (a n : Nat) (j : Nat) : (s.addReg a n).tile j = s.tile j := rfl
@[simp] theorem State.addReg_router_of (s : State) (a n : Nat) (j : Nat) : (s.addReg a n).router j = s.router j := rfl
@[simp] theorem State.addReg_edge_of (s : State) (a n : Nat) (j : Nat) : (s.addReg a n).edge j = s.edge j := rfl
@[simp] theorem State.addReg_fnMbx_of (s : State) (a n : Nat) (j : Nat) : (s.addReg a n).fnMbx j = s.fnMbx j := rfl
@[simp] theorem State.addReg_port_of (s : State) (a n : Nat) (j : Nat) : (s.addReg a n).port j = s.port j := rfl
@[simp] theorem State.addReg_lane_of (s : State) (a n : Nat) (j : Nat) : (s.addReg a n).lane j = s.lane j := rfl
@[simp] theorem State.addReg_chan_of (s : State) (a n : Nat) (j : Nat) : (s.addReg a n).chan j = s.chan j := rfl
@[simp] theorem State.addReg_dch_of (s : State) (a n : Nat) (j : Nat) : (s.addReg a n).dch j = s.dch j := rfl
@[simp] theorem State.addReg_part_of (s : State) (a n : Nat) (j : Nat) : (s.addReg a n).part j = s.part j := rfl
@[simp] theorem State.wr2_tile_of (s : State) (lo hi v : Nat) (j : Nat) : (s.wr2 lo hi v).tile j = s.tile j := rfl
@[simp] theorem State.wr2_router_of (s : State) (lo hi v : Nat) (j : Nat) : (s.wr2 lo hi v).router j = s.router j := rfl
@[simp] theorem State.wr2_edge_of (s : State) (lo hi v : Nat) (j : Nat) : (s.wr2 lo hi v).edge j = s.edge j := rfl
@[simp] theorem State.wr2_fnMbx_of (s : State) (lo hi v : Nat) (j : Nat) : (s.wr2 lo hi v).fnMbx j = s.fnMbx j := rfl
@[simp] theorem State.wr2_port_of (s : State) (lo hi v : Nat) (j : Nat) : (s.wr2 lo hi v).port j = s.port j := rfl
@[simp] theorem State.wr2_lane_of (s : State) (lo hi v : Nat) (j : Nat) : (s.wr2 lo hi v).lane j = s.lane j := rfl
@[simp] theorem State.wr2_chan_of (s : State) (lo hi v : Nat) (j : Nat) : (s.wr2 lo hi v).chan j = s.chan j := rfl
@[simp] theorem State.wr2_dch_of (s : State) (lo hi v : Nat) (j : Nat) : (s.wr2 lo hi v).dch j = s.dch j := rfl
@[simp] theorem State.wr2_part_of (s : State) (lo hi v : Nat) (j : Nat) : (s.wr2 lo hi v).part j = s.part j := rfl
@[simp] theorem State.notify_rd (s : State) (fn kind : Nat) (body : List Byte) (j : Nat) : (s.notify fn kind body).rd j = s.rd j := rfl
@[simp] theorem State.notify_tile_of (s : State) (fn kind : Nat) (body : List Byte) (j : Nat) : (s.notify fn kind body).tile j = s.tile j := rfl
@[simp] theorem State.notify_router_of (s : State) (fn kind : Nat) (body : List Byte) (j : Nat) : (s.notify fn kind body).router j = s.router j := rfl
@[simp] theorem State.notify_edge_of (s : State) (fn kind : Nat) (body : List Byte) (j : Nat) : (s.notify fn kind body).edge j = s.edge j := rfl
@[simp] theorem State.notify_fnMbx_of (s : State) (fn kind : Nat) (body : List Byte) (j : Nat) : (s.notify fn kind body).fnMbx j = s.fnMbx j := rfl
@[simp] theorem State.notify_port_of (s : State) (fn kind : Nat) (body : List Byte) (j : Nat) : (s.notify fn kind body).port j = s.port j := rfl
@[simp] theorem State.notify_lane_of (s : State) (fn kind : Nat) (body : List Byte) (j : Nat) : (s.notify fn kind body).lane j = s.lane j := rfl
@[simp] theorem State.notify_chan_of (s : State) (fn kind : Nat) (body : List Byte) (j : Nat) : (s.notify fn kind body).chan j = s.chan j := rfl
@[simp] theorem State.notify_dch_of (s : State) (fn kind : Nat) (body : List Byte) (j : Nat) : (s.notify fn kind body).dch j = s.dch j := rfl
@[simp] theorem State.notify_part_of (s : State) (fn kind : Nat) (body : List Byte) (j : Nat) : (s.notify fn kind body).part j = s.part j := rfl

end Sys2Proof.Machine
end

