-- ==== Sys2Proof/Laws/Mailbox.lean ====
section
/-! SUPPORT. What the shared operations of the mailbox do: how a taken request begins, which checks it passes, and what its
completion changes. -/
namespace Sys2Proof.Machine
open Sys2Proof.Safety

/-- A taken request begins. -/
theorem State.begins_taken {s : State} {r : Req} {op : Nat} (h : Requested s r op) (hop : op < 65536) :
    s.begins r op = some (begun s r op) := by
  obtain ⟨_, _, h3, h4⟩ := h
  simp [State.begins, h4, h3, begun, Nat.mod_eq_of_lt hop]

/-- A request that the engine has not taken changes nothing. -/
theorem State.runCmd_idle (s : State) (q : Req) (op : Nat) (who : Issuer) (named ok : Bool)
    (act : State → Host.Outcome State Fault Refusal) (h : s.begins q op = none) : s.runCmd q op who named ok act = .next s := by
  simp [State.runCmd, h]

/-- The checks of R309 on a taken request, in their order. -/
theorem State.runCmd_taken {s : State} {r : Req} {op : Nat} (h : Requested s r op) (hop : op < 65536) (who : Issuer) (named ok : Bool)
    (act : State → Host.Outcome State Fault Refusal) :
    s.runCmd r op who named ok act =
      if !s.ready then .next ((begun s r op).complete r.fn stBusy [])
      else if !(s.mayIssue r who && named) then .next ((begun s r op).complete r.fn stDenied [])
      else if s.bit Reg.TPL_FENCE 0 && !ok then .next ((begun s r op).complete r.fn stBadState [])
      else act (begun s r op) := by
  simp only [State.runCmd, State.begins_taken h hop]; rfl

/-- A taken request of a device that serves, whose issuer may issue it, acts. -/
theorem State.runCmd_acts {s : State} {r : Req} {op : Nat} (h : Requested s r op) (hop : op < 65536) (hs : Serves s) (who : Issuer)
    (named ok : Bool) (hw : s.mayIssue r who = true) (hn : named = true) (act : State → Host.Outcome State Fault Refusal) :
    s.runCmd r op who named ok act = act (begun s r op) := by
  obtain ⟨h1, h2⟩ := hs
  simp [State.runCmd_taken h hop, h1, h2, hw, hn]

/-- What a completion of a function's running command is: the counts, the entry and vector 0. -/
theorem State.complete_eq {s : State} {fn status : Nat} {results : List Byte} {k : Taken}
    (hr : (s.fnMbx fn).running = some k) (hf : s.fwLost = false) (he : (s.fnMbx fn).enabled = true) (hd : k.discard = false) :
    s.complete fn status results =
      (let m := s.fnMbx fn
       let base := s.rd2 (Reg.MBX_CPL_BASE_LO fn) (Reg.MBX_CPL_BASE_HI fn)
       let t := (s.setFnMbx fn { m with running := none }).emit
         (.hostWrite fn (base + m.written % 64 * 64) (completionBytes k.opcode.toNat k.tag.toNat status m.written results))
       let t := (t.setFnMbx fn { m with running := none, written := (m.written + 1) % 65536 }).showCounts fn
       if t.bit (Reg.MBX_CTRL fn) 1 then t.sendVector fn 0 else t) := by
  simp only [State.complete, hr, hf, he, hd, Bool.or_false, Bool.not_true, Bool.false_eq_true, if_false]; rfl

/-- What the sending of a vector changes: it leaves, or its pending bit is set, or nothing happens (R295). -/
theorem State.sendVector_cases (s : State) (f v : Nat) :
    s.sendVector f v = s ∨ s.sendVector f v = s.setBit (Reg.MSIX_PBA f 0) v true ∨ s.sendVector f v = s.emit (.irq f v) := by
  unfold State.sendVector; split
  · exact .inl rfl
  · split
    · exact .inr (.inl rfl)
    · exact .inr (.inr rfl)

/-- The completion of a request that has begun answers it, and changes only the mailbox, its counts, the pending vectors and what
leaves. -/
theorem State.complete_answers {s : State} {r : Req} {op st : Nat} {res : List Byte} (h : Requested s r op) :
    Answered s ((begun s r op).complete r.fn st res) r op st res ∧
    OnlyMailbox s ((begun s r op).complete r.fn st res) ∧
    RegsSameBut s ((begun s r op).complete r.fn st res) (cplRegs r.fn) := by
  obtain ⟨_, h2, h3, _⟩ := h
  have e : (begun s r op).complete r.fn st res = _ :=
    State.complete_eq (s := begun s r op) (k := ⟨BitVec.ofNat 16 op, r.tag, some r, .fresh, false⟩) (fn := r.fn)
      (by simp [begun]) h3 (by simpa [begun] using h2) rfl
  have hm : (begun s r op).fnMbx r.fn =
      { s.fnMbx r.fn with running := some ⟨BitVec.ofNat 16 op, r.tag, some r, .fresh, false⟩ } := by simp [begun]
  have h2' : ∀ a, (begun s r op).rd a = s.rd a := fun _ => rfl
  have ans (t : State) (ht : t.fnMbx r.fn = { s.fnMbx r.fn with running := none, written := ((s.fnMbx r.fn).written + 1) % 65536 })
      (ho : entryOf s r op st res ∈ t.out) (hl : t = { s with regs := t.regs, mbx := t.mbx, out := t.out })
      (hr : ∀ a, a ≠ Reg.MBX_COUNTS r.fn → t.rd a = s.rd a) (u : State)
      (hu : u = t ∨ u = t.setBit (Reg.MSIX_PBA r.fn 0) 0 true ∨ u = t.emit (.irq r.fn 0)) :
      Answered s u r op st res ∧ OnlyMailbox s u ∧ RegsSameBut s u (cplRegs r.fn) := by
    have base : Answered s t r op st res := ⟨by rw [ht], by rw [ht], ho⟩
    have regs (a : Nat) (ha : a ∉ cplRegs r.fn) : a ≠ Reg.MBX_COUNTS r.fn ∧ a ≠ Reg.MSIX_PBA r.fn 0 := by
      simpa [cplRegs, not_or] using ha
    obtain rfl | rfl | rfl := hu
    · exact ⟨base, hl, fun a ha => hr a (regs a ha).1⟩
    · refine ⟨base, ?_, fun a ha => ?_⟩
      · rw [OnlyMailbox]; rw [hl]; rfl
      · simpa [State.setBit, Ne.symm (regs a ha).2] using hr a (regs a ha).1
    · refine ⟨⟨base.1, base.2.1, ?_⟩, ?_, fun a ha => hr a (regs a ha).1⟩
      · simp [State.emit, ho]
      · rw [OnlyMailbox]; rw [hl]; rfl
  rw [e]
  dsimp only
  split
  · refine ans _ ?_ ?_ ?_ ?_ _ (State.sendVector_cases _ _ _)
    · simp [State.showCounts, hm]
    · simp [State.showCounts, hm, entryOf, State.rd2, h2', State.emit, State.wr, State.setFnMbx]
    · simp [State.showCounts, State.emit, State.wr, State.setFnMbx, begun]
    · intro a ha; simp [State.showCounts, Ne.symm ha, h2']
  · refine ans _ ?_ ?_ ?_ ?_ _ (.inl rfl)
    · simp [State.showCounts, hm]
    · simp [State.showCounts, hm, entryOf, State.rd2, h2', State.emit, State.wr, State.setFnMbx]
    · simp [State.showCounts, State.emit, State.wr, State.setFnMbx, begun]
    · intro a ha; simp [State.showCounts, Ne.symm ha, h2']

end Sys2Proof.Machine
end

