-- ==== Sys2Proof/Laws/Mem.lean ====
section
/-! SUPPORT. The laws of byte memories: every operation keeps the canonical form, and what a read after it gives. -/
namespace Sys2Proof.Machine

/-- A canonical memory from `lo` lists no address below `lo`. -/
theorem Memory.le_of_mem {lo : Nat} {m : Memory} (h : Memory.wfFrom lo m = true) : ∀ c ∈ m, lo ≤ c.1 := by
  induction m generalizing lo with
  | nil => simp
  | cons c r ih =>
    obtain ⟨k, v⟩ := c
    simp only [Memory.wfFrom, Bool.and_eq_true, decide_eq_true_eq] at h
    intro d hd
    rcases List.mem_cons.mp hd with rfl | hd
    · exact h.1.1
    · exact le_trans (by omega) (ih h.2 d hd)

/-- The canonical form from a higher bound is that from a lower one. -/
theorem Memory.wfFrom_mono {lo hi : Nat} {m : Memory} (hl : lo ≤ hi) (h : Memory.wfFrom hi m = true) :
    Memory.wfFrom lo m = true := by
  cases m with
  | nil => rfl
  | cons c r =>
    obtain ⟨k, v⟩ := c
    simp only [Memory.wfFrom, Bool.and_eq_true, decide_eq_true_eq] at h ⊢
    exact ⟨⟨by omega, h.1.2⟩, h.2⟩

/-- Leaving cells out keeps the canonical form. -/
theorem Memory.wfFrom_filter {lo : Nat} {m : Memory} (f : Host.Cell → Bool) (h : Memory.wfFrom lo m = true) :
    Memory.wfFrom lo (m.filter f) = true := by
  induction m generalizing lo with
  | nil => rfl
  | cons c r ih =>
    obtain ⟨k, v⟩ := c
    simp only [Memory.wfFrom, Bool.and_eq_true, decide_eq_true_eq] at h
    by_cases hf : f (k, v) = true
    · simp only [List.filter_cons, hf, if_true, Memory.wfFrom, Bool.and_eq_true, decide_eq_true_eq]
      exact ⟨h.1, ih h.2⟩
    · simp only [List.filter_cons, hf]
      exact Memory.wfFrom_mono (by omega) (ih h.2)

/-- Two canonical memories, one below a bound and one from it on, make a canonical memory. -/
theorem Memory.wfFrom_append {lo mid : Nat} {m n : Memory} (hlm : lo ≤ mid) (h : Memory.wfFrom lo m = true)
    (hb : ∀ c ∈ m, c.1 < mid) (h2 : Memory.wfFrom mid n = true) : Memory.wfFrom lo (m ++ n) = true := by
  induction m generalizing lo with
  | nil => exact Memory.wfFrom_mono hlm h2
  | cons c r ih =>
    obtain ⟨k, v⟩ := c
    simp only [Memory.wfFrom, Bool.and_eq_true, decide_eq_true_eq, List.cons_append] at h ⊢
    have hk : k < mid := hb (k, v) (by simp)
    exact ⟨h.1, ih (by omega) h.2 (fun d hd => hb d (by simp [hd]))⟩

/-- The cells of a run are canonical from its first address. -/
theorem Memory.wfFrom_cells (a : Nat) (bs : List Byte) : Memory.wfFrom a (Memory.cells a bs) = true := by
  induction bs generalizing a with
  | nil => rfl
  | cons b r ih =>
    simp only [Memory.cells]
    split
    · exact Memory.wfFrom_mono (by omega) (ih (a + 1))
    · rename_i hb
      simp only [Memory.wfFrom, Bool.and_eq_true, decide_eq_true_eq]
      exact ⟨⟨le_refl _, hb⟩, ih (a + 1)⟩

/-- The cells of a run lie in it. -/
theorem Memory.cells_lt (a : Nat) (bs : List Byte) : ∀ c ∈ Memory.cells a bs, c.1 < a + bs.length := by
  induction bs generalizing a with
  | nil => simp [Memory.cells]
  | cons b r ih =>
    intro c hc
    simp only [Memory.cells] at hc
    simp only [List.length_cons]
    split at hc
    · have := ih (a + 1) c hc; omega
    · rcases List.mem_cons.mp hc with rfl | hc
      · simp
      · have := ih (a + 1) c hc; omega

/-- The part of a canonical memory from an address on is canonical from there. -/
theorem Memory.wfFrom_above {lo : Nat} {m : Memory} (b : Nat) (h : Memory.wfFrom lo m = true) :
    Memory.wfFrom b (m.filter (fun c => decide (b ≤ c.1))) = true := by
  induction m generalizing lo with
  | nil => rfl
  | cons c r ih =>
    obtain ⟨k, v⟩ := c
    simp only [Memory.wfFrom, Bool.and_eq_true, decide_eq_true_eq] at h
    by_cases hb : b ≤ k
    · have hall : r.filter (fun c => decide (b ≤ c.1)) = r :=
        List.filter_eq_self.mpr (fun d hd => by
          have := Memory.le_of_mem h.2 d hd
          simp only [decide_eq_true_eq]; omega)
      simp only [List.filter_cons, hb, decide_true, if_true, hall, Memory.wfFrom, Bool.and_eq_true, decide_eq_true_eq]
      exact ⟨⟨trivial, h.1.2⟩, h.2⟩
    · simp only [List.filter_cons, hb, decide_false, Bool.false_eq_true, if_false]
      exact ih h.2

/-- A write keeps the canonical form. -/
theorem Memory.wf_write (m : Memory) (a : Nat) (bs : List Byte) (h : Memory.wf m = true) : Memory.wf (m.write a bs) = true := by
  have h1 := Memory.wfFrom_filter (fun c => decide (c.1 < a)) h
  have h2 := Memory.wfFrom_above (a + bs.length) h
  have b1 : ∀ c ∈ m.filter (fun c => decide (c.1 < a)), c.1 < a := fun c hc => by simpa using (List.mem_filter.mp hc).2
  have h3 := Memory.wfFrom_append (Nat.zero_le a) h1 b1 (Memory.wfFrom_cells a bs)
  refine Memory.wfFrom_append (Nat.zero_le (a + bs.length)) h3 (fun c hc => ?_) h2
  rcases List.mem_append.mp hc with hc | hc
  · have := b1 c hc; omega
  · exact Memory.cells_lt a bs c hc

/-- Writing a number keeps the canonical form. -/
theorem Memory.wf_writeNat (m : Memory) (a n v : Nat) (h : Memory.wf m = true) : Memory.wf (m.writeNat a n v) = true :=
  Memory.wf_write m a _ h

/-- Making a run zero keeps the canonical form. -/
theorem Memory.wf_zero (m : Memory) (a n : Nat) (h : Memory.wf m = true) : Memory.wf (m.zero a n) = true := by
  refine Memory.wfFrom_append (Nat.zero_le (a + n)) (Memory.wfFrom_filter _ h) (fun c hc => ?_) (Memory.wfFrom_above (a + n) h)
  have : c.1 < a := by simpa using (List.mem_filter.mp hc).2
  omega

/-- Leaving cells out keeps the canonical form. -/
theorem Memory.wf_filter (m : Memory) (f : Host.Cell → Bool) (h : Memory.wf m = true) : Memory.wf (m.filter f) = true :=
  Memory.wfFrom_filter f h

/-! Reads. -/

/-- An address that no cell of a list has reads as the unlisted byte. -/
theorem Memory.read_none {m : Memory} {x : Nat} (h : ∀ c ∈ m, c.1 ≠ x) : m.read x = Memory.unlisted := by
  induction m with
  | nil => rfl
  | cons c r ih =>
    obtain ⟨k, v⟩ := c
    have hk : k ≠ x := h (k, v) (by simp)
    simp only [Memory.read, if_neg hk]
    exact ih (fun d hd => h d (by simp [hd]))

/-- A read of two lists in a row: the first that lists the address. -/
theorem Memory.read_append (m n : Memory) (x : Nat) :
    (m ++ n).read x = if ∃ c ∈ m, c.1 = x then m.read x else n.read x := by
  induction m with
  | nil => simp
  | cons c r ih =>
    obtain ⟨k, v⟩ := c
    by_cases hk : k = x
    · simp [Memory.read, hk]
    · simp [Memory.read, ih, hk]

/-- A read of a filtered memory, for an address that the filter keeps. -/
theorem Memory.read_filter (m : Memory) (f : Nat → Bool) (x : Nat) :
    Memory.read (m.filter (fun c => f c.1)) x = if f x = true then m.read x else Memory.unlisted := by
  induction m with
  | nil => simp [Memory.read]
  | cons c r ih =>
    obtain ⟨k, v⟩ := c
    by_cases hf : f k = true
    · by_cases hk : k = x
      · subst hk; simp [List.filter_cons, hf, Memory.read]
      · simp [List.filter_cons, hf, Memory.read, hk, ih]
    · by_cases hk : k = x
      · subst hk; simp [List.filter_cons, hf, Memory.read, ih]
      · simp [List.filter_cons, hf, Memory.read, hk, ih]

/-- The cells of a run read as its bytes. -/
theorem Memory.read_cells (a : Nat) (bs : List Byte) (x : Nat) :
    (Memory.cells a bs).read x = if a ≤ x ∧ x < a + bs.length then bs.getD (x - a) Memory.unlisted else Memory.unlisted := by
  induction bs generalizing a with
  | nil => simp [Memory.cells, Memory.read]
  | cons b r ih =>
    by_cases hx : x = a
    · subst hx
      simp only [Memory.cells, List.length_cons, Nat.sub_self]
      split
      · rename_i hb
        rw [ih, if_neg (by omega), if_pos (by omega)]; simp [hb]
      · simp [Memory.read]
    · have hc : (Memory.cells a (b :: r)).read x = (Memory.cells (a + 1) r).read x := by
        simp only [Memory.cells]
        split
        · rfl
        · simp [Memory.read, Ne.symm hx]
      rw [hc, ih]
      by_cases hin : a ≤ x ∧ x < a + (b :: r).length
      · simp only [List.length_cons] at hin
        rw [if_pos (by omega), if_pos (by simp only [List.length_cons]; omega)]
        have : x - a = (x - (a + 1)) + 1 := by omega
        rw [this]; simp
      · simp only [List.length_cons] at hin
        rw [if_neg (by omega), if_neg (by simp only [List.length_cons]; omega)]

/-- A read after a write: the bytes written where they were written, every other byte as before. -/
theorem Memory.read_write (m : Memory) (a : Nat) (bs : List Byte) (x : Nat) :
    (m.write a bs).read x =
      if a ≤ x ∧ x < a + bs.length then bs.getD (x - a) Memory.unlisted else m.read x := by
  have low := Memory.read_filter m (fun k => decide (k < a)) x
  have high := Memory.read_filter m (fun k => decide (a + bs.length ≤ k)) x
  have cells := Memory.read_cells a bs x
  simp only [Memory.write]
  by_cases hlow : x < a
  · have hn : ¬ (a ≤ x ∧ x < a + bs.length) := by omega
    have nc : ∀ c ∈ Memory.cells a bs, c.1 ≠ x := fun c hc e => by
      have := Memory.le_of_mem (Memory.wfFrom_cells a bs) c hc; omega
    have nh : ∀ c ∈ m.filter (fun c => decide (a + bs.length ≤ c.1)), c.1 ≠ x := fun c hc e => by
      have : a + bs.length ≤ c.1 := by simpa using (List.mem_filter.mp hc).2
      omega
    simp only [hlow, decide_true, if_true] at low
    rw [if_neg hn, ← low, Memory.read_append, Memory.read_append]
    by_cases h1 : ∃ c ∈ m.filter (fun c => decide (c.1 < a)), c.1 = x
    · rw [if_pos h1, if_pos]
      obtain ⟨c, hc, e⟩ := h1
      exact ⟨c, List.mem_append_left _ hc, e⟩
    · rw [if_neg h1, Memory.read_none nc, Memory.read_none nh, ite_self]
      exact (Memory.read_none (fun c hc e => h1 ⟨c, hc, e⟩)).symm
  · have nl : ¬ ∃ c ∈ m.filter (fun c => decide (c.1 < a)), c.1 = x := fun ⟨c, hc, e⟩ => by
      have : c.1 < a := by simpa using (List.mem_filter.mp hc).2
      omega
    have low2 : Memory.read (m.filter (fun c => decide (c.1 < a)) ++ Memory.cells a bs) x = (Memory.cells a bs).read x := by
      rw [Memory.read_append, if_neg nl]
    rw [Memory.read_append, low2]
    by_cases hin : x < a + bs.length
    · have nh : ∀ c ∈ m.filter (fun c => decide (a + bs.length ≤ c.1)), c.1 ≠ x := fun c hc e => by
        have : a + bs.length ≤ c.1 := by simpa using (List.mem_filter.mp hc).2
        omega
      have hb : a ≤ x ∧ x < a + bs.length := by omega
      rw [if_pos hb] at cells
      rw [if_pos hb, ← cells, Memory.read_none nh]
      by_cases h1 : ∃ c ∈ m.filter (fun c => decide (c.1 < a)) ++ Memory.cells a bs, c.1 = x
      · rw [if_pos h1]
      · rw [if_neg h1]
        exact (Memory.read_none (fun c hc e => h1 ⟨c, List.mem_append_right _ hc, e⟩)).symm
    · have hb : ¬ (a ≤ x ∧ x < a + bs.length) := by omega
      have nc : ¬ ∃ c ∈ m.filter (fun c => decide (c.1 < a)) ++ Memory.cells a bs, c.1 = x := fun ⟨c, hc, e⟩ => by
        rcases List.mem_append.mp hc with hc | hc
        · exact nl ⟨c, hc, e⟩
        · have := Memory.cells_lt a bs c hc; omega
      have hh : a + bs.length ≤ x := by omega
      simp only [hh, decide_true, if_true] at high
      rw [if_neg hb, if_neg nc, high]

/-- A read after a run was made zero. -/
theorem Memory.read_zero (m : Memory) (a n : Nat) (x : Nat) :
    (m.zero a n).read x = if a ≤ x ∧ x < a + n then Memory.unlisted else m.read x := by
  have e : m.zero a n = m.write a (List.replicate n Memory.unlisted) := by
    have : ∀ (k b : Nat), Memory.cells b (List.replicate k Memory.unlisted) = [] := by
      intro k
      induction k with
      | zero => intro b; rfl
      | succ k ih => intro b; simp [List.replicate_succ, Memory.cells, ih]
    simp only [Memory.zero, Memory.write, this, List.length_replicate, List.append_nil]
  rw [e, Memory.read_write]
  simp only [List.length_replicate]
  split
  · rename_i h
    rw [List.getD_eq_getElem?_getD, List.getElem?_replicate]
    split <;> rfl
  · rfl

end Sys2Proof.Machine
end

