-- ==== Sys2Proof/Laws/Tile.lean ====
section
/-! SUPPORT. What the shared operations of a tile do when little is under way: the advance of a tile, and the issue of an entry. -/
namespace Sys2Proof.Machine
open Sys2Proof.Safety

/-- With no coming event nothing happens. -/
theorem State.runEvents_nil (s : State) (t h n : Nat) (he : (s.tile t).evs = []) : State.runEvents t h n s = s := by
  cases n <;> simp [State.runEvents, he]

/-- While the first coming event lies later nothing happens. -/
theorem State.runEvents_later (s : State) (t h n : Nat) (e : TileEv) (r : List TileEv) (he : (s.tile t).evs = e :: r)
    (hl : h < e.slot) : State.runEvents t h n s = s := by
  cases n <;> simp [State.runEvents, he, hl]

/-- One round of the events of a tile, whatever the bound on their number. -/
theorem State.runEvents_fuel (s : State) (t h : Nat) :
    State.runEvents t h eventFuel s = State.runEvents t h (2 ^ 40 - 1 + 1) s := rfl

/-- With no stream fault that waits for its record none is written. -/
theorem State.settleAborts_nil (s : State) (t : Nat) (ha : (s.tile t).se.aborts = []) : s.settleAborts t = s := by
  simp [State.settleAborts, ha, lowestAbort]

/-- With no MMA in progress the counters of the arrays stay. -/
theorem State.arrTick_nil (s : State) (t h : Nat) (h0 : (s.tile t).arr0.mmas = []) (h1 : (s.tile t).arr1.mmas = []) : s.arrTick t h = s := by
  simp [State.arrTick, State.arrTickOne, Tile.arr, h0, h1]

/-- An advance of a tile with no write on its way, no operation of the MVU, no MMA and no stream fault to record, past no event. -/
theorem State.advanceTo_calm (s : State) (t h : Nat) (he : State.runEvents t h eventFuel s = s) (hf : (s.tile t).flights = [])
    (hm : (s.tile t).mvu.ops = []) (h0 : (s.tile t).arr0.mmas = []) (h1 : (s.tile t).arr1.mmas = []) (ha : (s.tile t).se.aborts = []) :
    s.advanceTo t h = (((s.setHs t h).veuStatus t).tileBusy t) := by
  simp [State.advanceTo, s.settleAborts_nil t ha, he, State.landFlights, hf, landed, State.mvuRetire, hm, s.arrTick_nil t h h0 h1]

/-- The state in which an entry of a quiet tile takes its effect. -/
def issued (s : State) (t hold : Nat) : State :=
  let I := slotOf s t
  let k := (s.tile t).nextK
  let s1 := ((((s.setHs t I).veuStatus t).tileBusy t).setFld (Reg.SEQ_STATUS t) 0 12 k)
  (s1.setTile t { s1.tile t with order := (s1.tile t).order + 1 }).seqNext t k (I + hold)

/-- The first write on its way lands later than a handshake. -/
theorem landed_later {h : Nat} {l : List Flight} (hl : ∀ f ∈ l, h < f.slot + f.lat) : landed h l = ([], l) := by
  cases l with
  | nil => rfl
  | cons f r => have := hl f (List.mem_cons_self ..); simp [landed, Nat.not_le.mpr this]

/-- What the issue of an entry of a quiet tile is (R129). -/
theorem State.issueEntry_quiet {s : State} {t : Nat} (q : Quiet s t) (hold : Nat) (body : State → Nat → Nat → Nat → State) :
    s.issueEntry t hold body =
      (body (issued s t hold) (slotOf s t) (s.tile t).nextK (s.tile t).order).advanceTo t (slotOf s t) := by
  obtain ⟨⟨_, q1, _, _, _, q5, qa, _, _⟩, q2, q3, q4, q6, q7⟩ := q
  have ha := State.advanceTo_calm s t (slotOf s t) (State.runEvents_nil _ _ _ _ q2) q3 q4 q6 q7 qa
  simp only [slotOf] at ha
  simp only [State.issueEntry, q1, if_true, ha, State.fetchCheck]
  have : ((((s.setHs t (slotOf s t)).veuStatus t).tileBusy t).tile t) = s.tile t := rfl
  simp only [slotOf] at this
  simp only [this, q5, List.filter_nil, List.any_nil, List.foldl_nil, Bool.false_eq_true, if_false]
  rfl

end Sys2Proof.Machine
end

