-- ==== Sys2Proof/WellFormed.lean ====
section
/-!
DEFINITION. Which commands are well formed: every number names a unit that the part has, and a list has the length that its
command gives. The meanings are total: a command that is not well formed changes nothing that the spec names.
-/
namespace Sys2Proof

/-- A request comes from one of the 17 functions (R296). -/
def Req.wf (r : Req) : Bool := decide (r.fn < 17)

/-- Reports come from tiles, and findings of the patrol lie in their memories (R37, R135). -/
def MsEnv.wf (e : MsEnv) : Bool :=
  e.reports.all (fun r => decide (r.tile < 128)) &&
  e.patrol.all (fun f => decide (f.1 < 128) && decide (f.2.1 < 2) && decide (f.2.2.1 < 8192) && decide (f.2.2.2 < 3))

/-- A physical position: a column and one of its nine positions (R18). -/
def deadOk (d : Nat × Nat) : Bool := decide (d.1 < 16) && decide (d.2 < 9)

/-- Dead positions exist, and images are of channels (R351). -/
def BootEnv.wf (e : BootEnv) : Bool :=
  e.dead.all deadOk && e.org.all (fun o => decide (o.ch < 8)) && e.repair.all (fun r => decide (r.1 < 144))

/-- A packet of a defined type names edge codes that R172 lists where its kind bits say so (R172, R174, R175). -/
def Pkt.wf (p : Pkt) : Bool :=
  decide (p.type.toNat < 12) && (!p.dkind || decide (p.dst.toNat < 49)) && (!p.skind || decide (p.src.toNat < 49))

/-- An upset lies in the store and is of a kind that R112 names. -/
def SoftErr.wf (e : SoftErr) : Bool := decide (e.word < 1048576) && decide (e.kind < 4)

/-- A fuse that exists (R217). -/
def TestOp.wf (op : TestOp) : Bool :=
  match op with
  | .fuse i => decide (i < 387)
  | _ => true

/-- A load serves a partition (R225). -/
def ImgSrc.wf (src : ImgSrc) : Bool :=
  match src with
  | .load p => decide (p < 16)
  | .slot _ => true

/-- The operands of a command name units that exist. -/
def Instr.wellFormed (i : Instr) : Bool :=
  match i with
  | .mbxReqTail fn _ => decide (fn < 17)
  | .mbxCplHead fn _ => decide (fn < 17)
  | .mbxNtcHead fn _ => decide (fn < 17)
  | .mbxEnable fn _ => decide (fn < 17)
  | .mbxRequestTake fn _ _ => decide (fn < 17)
  | .noticeWrite => true
  | .hello r _ => r.wf
  | .getInfo r => r.wf
  | .partCreate r _ => r.wf
  | .partCreateAmend r _ => r.wf
  | .partDestroy r _ => r.wf
  | .partReset r _ => r.wf
  | .partQuery r => r.wf
  | .loadTileProgram r _ _ => r.wf
  | .loadWeights r tile _ rows _ => r.wf && decide (tile < 128) && decide (rows.length ≤ 8192)
  | .fabricLoad r _ => r.wf
  | .fabricReadback r _ _ _ _ => r.wf
  | .start r _ _ => r.wf
  | .stop r _ _ => r.wf
  | .setPeriod r _ _ => r.wf
  | .linkConfig r _ _ _ _ _ _ => r.wf
  | .linkStatus r _ _ => r.wf
  | .routeEpoch r _ _ => r.wf
  | .routeEpochRejoin r _ _ => r.wf
  | .routeNotice r _ _ _ _ _ _ => r.wf
  | .powerState r _ _ _ _ => r.wf
  | .powerStateDevice r _ _ _ _ => r.wf
  | .powerLimit r _ => r.wf
  | .timeConfig r _ _ _ _ _ _ => r.wf
  | .timeRead r => r.wf
  | .logRead r _ _ _ _ => r.wf
  | .dumpRead r _ _ _ _ _ => r.wf
  | .bootRecordRead r _ _ => r.wf
  | .bootRecordClear r => r.wf
  | .dramMap r _ => r.wf
  | .qosSet r _ _ _ => r.wf
  | .fwUpdate r _ _ _ _ => r.wf
  | .fwActivate r _ => r.wf
  | .fwHeartbeatTick => true
  | .fwHeartbeatLost => true
  | .bar2Read fn _ len => decide (fn < 17) && decide (0 < len)
  | .bar2Write fn _ data => decide (fn < 17) && decide (0 < data.length)
  | .bar4Access _ _ _ => true
  | .functionLevelReset fn => decide (fn < 17)
  | .pcieLinkReset => true
  | .ptmExchange => true
  | .ptmResponse _ _ => true
  | .milestone e => e.wf
  | .beatStart partition => decide (partition < 16)
  | .mma tile _ _ _ => decide (tile < 128)
  | .drain tile _ _ => decide (tile < 128)
  | .clear tile _ _ => decide (tile < 128)
  | .mmaComplete tile _ => decide (tile < 128)
  | .drainCapture tile _ => decide (tile < 128)
  | .mvm tile _ soft => decide (tile < 128) && soft.all SoftErr.wf
  | .vload tile _ => decide (tile < 128)
  | .mdrain tile _ => decide (tile < 128)
  | .vld tile _ _ soft => decide (tile < 128) && soft.all SoftErr.wf
  | .vst tile _ _ => decide (tile < 128)
  | .vadd tile _ _ => decide (tile < 128)
  | .vmul tile _ _ => decide (tile < 128)
  | .vfma tile _ _ => decide (tile < 128)
  | .vcmp tile _ _ => decide (tile < 128)
  | .vsel tile _ _ => decide (tile < 128)
  | .vmax tile _ _ => decide (tile < 128)
  | .vmin tile _ _ => decide (tile < 128)
  | .vexp2 tile _ _ => decide (tile < 128)
  | .vlog2 tile _ _ => decide (tile < 128)
  | .vrcp tile _ _ => decide (tile < 128)
  | .vrsq tile _ _ => decide (tile < 128)
  | .vexps tile _ _ => decide (tile < 128)
  | .vrmaxi tile _ _ => decide (tile < 128)
  | .vrmini tile _ _ => decide (tile < 128)
  | .vrsum tile _ _ => decide (tile < 128)
  | .vrssq tile _ _ => decide (tile < 128)
  | .vcvt tile _ _ => decide (tile < 128)
  | .vqnt tile _ _ => decide (tile < 128)
  | .vdqnt tile _ _ => decide (tile < 128)
  | .vbcast tile _ _ => decide (tile < 128)
  | .swin tile _ => decide (tile < 128)
  | .sctxPause tile _ => decide (tile < 128)
  | .sctxResume tile _ => decide (tile < 128)
  | .sctxClose tile _ => decide (tile < 128)
  | .srel tile _ _ => decide (tile < 128)
  | .spush tile _ _ => decide (tile < 128)
  | .tcgo tile _ => decide (tile < 128)
  | .tcev tile _ => decide (tile < 128)
  | .signal tile _ _ => decide (tile < 128)
  | .signalRemote tile _ _ _ => decide (tile < 128)
  | .take tile _ _ => decide (tile < 128)
  | .gate tile _ _ => decide (tile < 128)
  | .endEntry tile => decide (tile < 128)
  | .nop tile _ => decide (tile < 128)
  | .appadv tile _ _ => decide (tile < 128)
  | .itinOverrun tile => decide (tile < 128)
  | .tilePark tile => decide (tile < 128)
  | .tileDone tile => decide (tile < 128)
  | .waiterWake tile _ => decide (tile < 128)
  | .tcNop tile _ => decide (tile < 128)
  | .tcAdd tile _ _ => decide (tile < 128)
  | .tcSub tile _ _ => decide (tile < 128)
  | .tcNeg tile _ _ => decide (tile < 128)
  | .tcAbs tile _ _ => decide (tile < 128)
  | .tcMin tile _ _ => decide (tile < 128)
  | .tcMax tile _ _ => decide (tile < 128)
  | .tcMinu tile _ _ => decide (tile < 128)
  | .tcMaxu tile _ _ => decide (tile < 128)
  | .tcAnd tile _ _ => decide (tile < 128)
  | .tcOr tile _ _ => decide (tile < 128)
  | .tcXor tile _ _ => decide (tile < 128)
  | .tcNot tile _ _ => decide (tile < 128)
  | .tcMov tile _ _ => decide (tile < 128)
  | .tcCmp tile _ _ => decide (tile < 128)
  | .tcShl tile _ _ => decide (tile < 128)
  | .tcShr tile _ _ => decide (tile < 128)
  | .tcSar tile _ _ => decide (tile < 128)
  | .tcRol tile _ _ => decide (tile < 128)
  | .tcRor tile _ _ => decide (tile < 128)
  | .tcMul tile _ _ => decide (tile < 128)
  | .tcMulh tile _ _ => decide (tile < 128)
  | .tcMulhu tile _ _ => decide (tile < 128)
  | .tcDivs tile _ _ => decide (tile < 128)
  | .tcDivu tile _ _ => decide (tile < 128)
  | .tcAddi tile _ _ => decide (tile < 128)
  | .tcAndi tile _ _ => decide (tile < 128)
  | .tcOri tile _ _ => decide (tile < 128)
  | .tcXori tile _ _ => decide (tile < 128)
  | .tcShli tile _ _ => decide (tile < 128)
  | .tcShri tile _ _ => decide (tile < 128)
  | .tcSari tile _ _ => decide (tile < 128)
  | .tcCmpi tile _ _ => decide (tile < 128)
  | .tcMovi tile _ _ => decide (tile < 128)
  | .tcMovhi tile _ _ => decide (tile < 128)
  | .tcMac tile _ _ => decide (tile < 128)
  | .tcMsu tile _ _ => decide (tile < 128)
  | .tcAclr tile _ _ => decide (tile < 128)
  | .tcAcld tile _ _ _ _ _ => decide (tile < 128)
  | .tcAccx tile _ _ _ _ _ _ => decide (tile < 128)
  | .tcMaxi tile _ _ => decide (tile < 128)
  | .tcMini tile _ _ => decide (tile < 128)
  | .tcFmaxi tile _ _ => decide (tile < 128)
  | .tcFmini tile _ _ => decide (tile < 128)
  | .tcFadd tile _ _ => decide (tile < 128)
  | .tcFsub tile _ _ => decide (tile < 128)
  | .tcFmul tile _ _ => decide (tile < 128)
  | .tcFfma tile _ _ => decide (tile < 128)
  | .tcFdiv tile _ _ => decide (tile < 128)
  | .tcFsqrt tile _ _ => decide (tile < 128)
  | .tcFmin tile _ _ => decide (tile < 128)
  | .tcFmax tile _ _ => decide (tile < 128)
  | .tcFcmp tile _ _ => decide (tile < 128)
  | .tcFabs tile _ _ => decide (tile < 128)
  | .tcFneg tile _ _ => decide (tile < 128)
  | .tcFcvtf tile _ _ => decide (tile < 128)
  | .tcFcvti tile _ _ _ => decide (tile < 128)
  | .tcPset tile _ _ => decide (tile < 128)
  | .tcPget tile _ _ => decide (tile < 128)
  | .tcMset tile _ _ => decide (tile < 128)
  | .tcPstep tile _ _ _ => decide (tile < 128)
  | .tcIn tile _ _ _ => decide (tile < 128)
  | .tcOutRelease tile _ _ _ => decide (tile < 128)
  | .tcOutPush tile _ _ _ => decide (tile < 128)
  | .tcOutSetPending tile _ _ => decide (tile < 128)
  | .tcOutPwrmode tile _ _ => decide (tile < 128)
  | .tcFget tile _ _ => decide (tile < 128)
  | .tcFset tile _ _ => decide (tile < 128)
  | .tcB tile _ _ _ => decide (tile < 128)
  | .tcBl tile _ _ _ => decide (tile < 128)
  | .tcBr tile _ _ _ => decide (tile < 128)
  | .tcLoop tile _ _ _ _ => decide (tile < 128)
  | .tcWait tile _ _ _ => decide (tile < 128)
  | .tcSig tile _ _ _ => decide (tile < 128)
  | .tcSigr tile _ _ _ => decide (tile < 128)
  | .tcWaite tile _ _ => decide (tile < 128)
  | .tcHalt tile _ => decide (tile < 128)
  | .tcWaitp tile _ => decide (tile < 128)
  | .seDramReadIssue tile => decide (tile < 128)
  | .seReserveSend tile _ => decide (tile < 128)
  | .seGrantIssue tile => decide (tile < 128)
  | .seWriteSlot tile => decide (tile < 128)
  | .seReadSlot tile soft => decide (tile < 128) && soft.all SoftErr.wf
  | .routerFlit router => decide (router < 144)
  | .reserve p => p.wf
  | .grant p => p.wf
  | .push p => p.wf
  | .signalPacket p => p.wf
  | .sigack p => p.wf
  | .drd p => p.wf
  | .drdr p => p.wf
  | .dwr p => p.wf
  | .dwra p => p.wf
  | .credit p => p.wf
  | .mreq p soft => p.wf && soft.all SoftErr.wf
  | .mrsp p => p.wf
  | .reserveTimeout tile _ => decide (tile < 128)
  | .storeScrubVisit tile _ soft => decide (tile < 144) && soft.all SoftErr.wf
  | .storeCorrectionWriteback tile => decide (tile < 144)
  | .edgeInPair edge _ => decide (edge < 32)
  | .edgePairTimeout edge => decide (edge < 32)
  | .edgeRepush edge => decide (edge < 32)
  | .edgeOutPair edge _ => decide (edge < 32)
  | .fabDramRequest sector _ _ _ _ _ => decide (sector < 32)
  | .fabricReleaseStage partition => decide (partition < 16)
  | .fabReleaseStall partition => decide (partition < 16)
  | .imageHeader src _ => src.wf
  | .sync _ => true
  | .writeFrame n _ frames => decide (frames.length = n.toNat)
  | .writeRepeat n _ addrs => decide (addrs.length = n.toNat)
  | .zeroFill _ _ => true
  | .keyRoll _ _ _ => true
  | .authTag _ _ _ => true
  | .imageEnd _ _ _ => true
  | .cfgScrubFrame _ => true
  | .dramCommandSlot ch _ idle => decide (ch < 8) && idle.all (fun i => decide (i < 8))
  | .dramRequestComplete ch _ _ => decide (ch < 8)
  | .refreshInterval ch => decide (ch < 8)
  | .selfRefreshEntry ch => decide (ch < 8)
  | .selfRefreshExit ch => decide (ch < 8)
  | .retrainPause ch rank sub lane _ _ _ => decide (ch < 8) && decide (rank < 2) && decide (sub < 2) && decide (lane < 40)
  | .dramPatrolRead ch => decide (ch < 8)
  | .dramCeWriteback ch => decide (ch < 8)
  | .pageIdleClose ch bank => decide (ch < 8) && decide (bank < 64)
  | .channelReset ch => decide (ch < 8)
  | .frameTransmit lane => decide (lane < 96)
  | .trainFrame lane _ => decide (lane < 96)
  | .dataFrame lane _ => decide (lane < 96)
  | .commaLock lane => decide (lane < 96)
  | .trainFail lane => decide (lane < 96)
  | .portUp port => decide (port < 96)
  | .portDown port _ => decide (port < 96)
  | .heartbeatSend port => decide (port < 96)
  | .idleFlit port _ _ => decide (port < 96)
  | .lctlHeartbeat port _ _ => decide (port < 96)
  | .lctlNak port _ _ _ => decide (port < 96)
  | .lctlAdapt port lane _ _ _ => decide (port < 96) && decide (lane < 96)
  | .nakRepeat port => decide (port < 96)
  | .replayLimit port => decide (port < 96)
  | .dataFlit port _ _ _ => decide (port < 96)
  | .hdataFlit port _ _ _ => decide (port < 96)
  | .edataFlit port _ _ _ => decide (port < 96)
  | .commitMarker chan _ _ => decide (chan < 256)
  | .gapMarker chan _ _ => decide (chan < 256)
  | .creditRecord chan _ => decide (chan < 256)
  | .channelItemConsume chan => decide (chan < 256)
  | .upstreamFenceTimeout => true
  | .acceptWindowClose port => decide (port < 96)
  | .delayReq port _ _ _ _ => decide (port < 96)
  | .delayResp port _ _ _ _ _ => decide (port < 96)
  | .timeExchangeSend => true
  | .exchangeLost => true
  | .refLost _ => true
  | .refReturn _ => true
  | .ppsInEdge phase => decide (-500000000000 < phase) && decide (phase ≤ 500000000000)
  | .governorLoop _ => true
  | .avsAck rail _ => decide (rail < 6)
  | .avsTimeout rail => decide (rail < 6)
  | .thermalTrip => true
  | .rungExitComplete scope => decide (scope < 17)
  | .rampComplete domain => decide (domain < 176)
  | .rampShort domain _ _ => decide (domain < 176)
  | .smbId => true
  | .smbStatus => true
  | .smbTempMax => true
  | .smbTempQuarter => true
  | .smbPower => true
  | .smbRails => true
  | .smbLimit => true
  | .smbAlertMaskRead => true
  | .smbAlertMaskWrite _ _ => true
  | .smbAlertStatusRead => true
  | .smbAlertStatusClear _ _ => true
  | .smbAlertResponse => true
  | .smbLogCount => true
  | .smbLogLast => true
  | .porAssert => true
  | .porRelease _ _ => true
  | .sysRstAssert => true
  | .sysRstRelease => true
  | .perstDeassert => true
  | .bootStepComplete e => e.wf
  | .bootStepTimeout => true
  | .recoveryStepComplete partition dead => decide (partition < 16) && dead.all deadOk
  | .generationRetireWait partition => decide (partition < 16)
  | .linkWaitExpiry partition => decide (partition < 16)
  | .recoveryFailed partition _ => decide (partition < 16)
  | .tileStall tile => decide (tile < 128)
  | .hangDetected _ => true
  | .trialEnd _ => true
  | .tileReset tile _ => decide (tile < 128)
  | .seqImemData3Write tile _ => decide (tile < 144)
  | .seqImemData3Read tile => decide (tile < 144)
  | .tcPmemDataHiWrite tile _ => decide (tile < 144)
  | .tcPmemDataHiRead tile => decide (tile < 144)
  | .timeNowLoRead => true
  | .prbCountHiWrite tile _ _ => decide (tile < 144)
  | .traceEnable _ _ => true
  | .periodChangeArm _ => true
  | .startArm _ _ => true
  | .stopArm _ _ => true
  | .epochArm _ => true
  | .minSlackRearm tile _ => decide (tile < 144)
  | .registerWrite _ _ => true
  | .hostDmaCompletion fn _ => decide (fn < 17)
  | .powerStateTimeout fn => decide (fn < 17)
  | .rungEntryComplete scope => decide (scope < 17)
  | .thermNAssert => true
  | .thermNRelease => true
  | .pllLock pll _ ref outs => decide (pll < 24) && decide (outs.length = 4) && outs.all (fun f => decide (10 ≤ f ∧ f ≤ 800)) && (match ref with | .pin b i => decide (b < 4) && decide (i < 60) | .time => true)
  | .refinFrequencyLock => true
  | .ppsOutPulse => true
  | .vbatLoss => true
  | .railOutOfTolerance rail => decide (rail < 16)
  | .testPortAccess op => op.wf
  | .retrainPauseEnd ch => decide (ch < 8)
  | .channelResetDone ch => decide (ch < 8)

end Sys2Proof
end

