-- ==== Sys2Proof/Tests/Slice0.lean ====
section
/-!
SUPPORT. Tests: ill-formed commands that the check refuses, written words that decode, and for every statement with hypotheses a
state and operands that meet them, clause by clause. The values are worked out from the rules that each test names.
-/
namespace Sys2Proof.Tests
open Sys2Proof.Machine Sys2Proof.Safety

set_option Elab.async false

/-! Small states. -/

/-- A request of PF0 for partition 0. -/
def r0 : Req := ⟨0, 7, 0, 0⟩

/-- A resource table of partition 0: column 0, and nothing else. -/
def tb0 : ResTable := ⟨0, 0, 0, 0, 0, 0, 0, 0, 0, 0⟩

/-- Partition 0 with column 0. -/
def x0 : Part := newPart tb0

/-- A state in which partition 0 is in a state of R34, with further registers. -/
def sp (x : Part) (st : Nat) (regs : SMap Word) : State :=
  { State.reset with regs := (Reg.PART_BEAT_STATUS 0, BitVec.ofNat 32 st) :: regs, parts := [(0, x)] }

/-- The same, with the firmware serving and a request of PF0 for an opcode under way. -/
def on (x : Part) (st op : Nat) (regs : SMap Word) : State :=
  { sp x st ((Reg.MBX_STATUS 0, 1) :: regs) with
    boot := { BootSt.reset with por := false, perst := false, fwUp := true },
    mbx := [(0, { MbxFn.reset with enabled := true, running := some ⟨BitVec.ofNat 16 op, 7, none, .fresh, false⟩ })] }

/-- Eight channels of 16 GiB that serve. -/
def dramRegs : SMap Word :=
  (List.range 8).flatMap (fun c => [(Reg.DDR_CTRL c, 1), (Reg.DDR_STATUS c, 2), (Reg.DDR_ORG c, 0x100000)])

/-! What the hypotheses of the statements ask can be met. -/

theorem witness_StepRunsTheFrontCommand : ({ State.reset with pending := [.noticeWrite] } : State).pending = .noticeWrite :: [] := rfl

theorem witness_EmptyQueueLetsTimePass :
    State.reset.pending = [] ∧ State.reset.timeRuns = false ∧ ({ State.reset with timeRuns := true } : State).pending = [] ∧
    ({ State.reset with timeRuns := true } : State).timeRuns = true := by decide

theorem witness_EveryStepKeepsMemoriesCanonical : MemOk State.reset ∧ step State.reset = .next State.reset :=
  ⟨by unfold MemOk; decide, rfl⟩

theorem witness_RequestDoorbellOverrun : let s := on x0 0 1 []
    (s.fnMbx 0).enabled = true ∧ ((64 : BitVec 16).toNat + 65536 - (s.fnMbx 0).taken) % 65536 ≤ 64 ∧
    64 < ((65 : BitVec 16).toNat + 65536 - (s.fnMbx 0).taken) % 65536 ∧ s.fwLost = false ∧ s.log.length < 4096 ∧
    (15 : Word).toNat < 16 ∧ (15 : Word).bit 0 = true ∧ s.inD3 0 = false ∧ (on x0 0 1 [(Reg.PCI_PM 0, 3)]).inD3 0 = true := by decide +kernel

theorem witness_ResetHoldsTheResetColumn :
    (∃ b i r, RegMap.find Reg.TIME_MS_PERIOD = some (b, i, r) ∧ r.reset = 250 ∧ (b.base, r.off) ∉
      [(0x10000000, 0), (0x50000000, 0x10), (0x71000000, 0x300), (0x100000000, 0), (0x100000000, 0x3000)]) ∧
    Reg.TIME_MS_PERIOD ≠ Reg.TIME_MS_TREE_DELAY := by
  refine ⟨⟨_, _, _, rfl, ?_, ?_⟩, by decide⟩ <;> decide +kernel

/-- PF0 with a request posted and the firmware up. -/
def posted : State := { on x0 0 1 [] with mbx := [(0, { MbxFn.reset with enabled := true, tail := 1 })], notices := [⟨0, 0, 0, []⟩] }

theorem witness_EngineTakesAndNotifies :
    posted.nextServed = some 0 ∧ mbxOpcodes.contains 0x51 = true ∧ mbxOpcodes.contains 0x99 = false ∧ posted.ready = true ∧
    State.reset.nextServed ≠ some 0 ∧ posted.notices = ⟨0, 0, 0, []⟩ :: [] ∧ posted.boot.fwUp = true ∧ posted.fwLost = false ∧
    (posted.fnMbx 0).enabled = true ∧ ((posted.fnMbx 0).notices + 65536 - (posted.fnMbx 0).ntcHead) % 65536 < 64 ∧
    posted.inD3 0 = false ∧ (let s (m : Word) := on x0 0 1 [(Reg.MBX_CTRL 0, 7), (Reg.PCI_MSIX 0, 0x80000000), (Reg.MSIX_TABLE 0 7, m)]
      (s 0).bit (Reg.MBX_CTRL 0) 2 = true ∧ (s 0).bit (Reg.PCI_MSIX 0) 31 = true ∧ (s 0).vectorHeld 0 1 = false ∧
      (s 1).vectorHeld 0 1 = true) := by decide +kernel

theorem witness_RefusedCommandsChangeNothing :
    let busy := { on x0 0 0x51 [] with regs := [] }
    let vf := { on x0 0 0x51 [] with mbx := [(3, { MbxFn.reset with enabled := true, running := some ⟨0x51, 7, none, .fresh, false⟩ })] }
    (Requested busy r0 0x51 ∧ busy.ready = false) ∧ (Requested vf { r0 with fn := 3 } 0x51 ∧ vf.ready = true) ∧
    (Requested (on x0 0 0x30 []) { r0 with target := 5 } 0x30 ∧ (on x0 0 0x30 []).part 5 = none) ∧
    (Requested (on x0 0 0x10 [(Reg.TPL_FENCE, 1)]) r0 0x10 ∧ (on x0 0 0x10 [(Reg.TPL_FENCE, 1)]).ready = true ∧
      (on x0 0 0x10 [(Reg.TPL_FENCE, 1)]).bit Reg.TPL_FENCE 0 = true) := by unfold Requested; decide +kernel

/-- The same device with every slot in its flash directory. -/
def flashed (s : State) : State := { s with boot := { s.boot with slots := (List.range 7).map (fun k => ⟨k, 0x10000 * (k + 1), 0x10000, 0⟩) } }

theorem witness_ReportsAnswerTheState :
    (∀ op ∈ [1, 2, 0x13, 0x61, 0x41, 0x43, 0x73], Serves (on x0 0 op []) ∧ Requested (on x0 0 op []) r0 op) ∧ r0.fn = 0 ∧
    (on x0 0 0x13 []).part r0.partition ≠ none ∧ (2 : BitVec 8).toNat < 3 ∧ (95 : BitVec 8).toNat < 96 ∧
    (on x0 0 0x73 []).testMode = false ∧ (flashed (on x0 0 0x73 [])).hasRecord = true ∧
    (let s := { sp { x0 with lanes := 2 ^ 96 - 1 } 0 [(Reg.MBX_STATUS 0, 1)] with
        boot := { BootSt.reset with por := false, perst := false, fwUp := true },
        mbx := [(1, { MbxFn.reset with enabled := true, running := some ⟨0x41, 7, none, .fresh, false⟩ })] }
     s.ready = true ∧ Requested s { r0 with fn := 1 } 0x41 ∧ s.part 0 ≠ none ∧ s.objOwner 0 95 = some 0) := by
  unfold Serves Requested; decide +kernel

/-! The same for the mailbox commands. -/

/-- A record of severity 1 of partition 0. -/
def rec0 : LogRec := ⟨0, 0, some 0, 1, 0, 0, 0, 0, 0x0100, []⟩

theorem witness_DeliveriesWaitForTheirDma :
    let dump := on x0 0 0x71 [(Reg.DUMP_STATUS, 0x11), (Reg.DUMP_SLOT 0, 0)]
    (∀ op ∈ [0x70, 0x72, 0x71, 0x23], Serves (on x0 0 op []) ∧ Requested (on x0 0 op []) r0 op) ∧
    Serves { on x0 0 0x70 [] with log := [rec0] } ∧ (Requested dump r0 0x71 ∧ Serves dump ∧ dump.dumpFlag 0 0 = true ∧
      dump.dumpFlag 8 0 = false ∧ dump.dumpBytes 0 ≤ (0xFFFFFFFF : BitVec 32).toNat) ∧
    ((on x0 0 0x23 []).part 0 = some x0 ∧ (on x0 0 0x23 []).pstate 0 = psStopped ∧ x0.cols ≠ [] ∧
      (Serves (on x0 2 0x23 []) ∧ Requested (on x0 2 0x23 []) r0 0x23 ∧ (on x0 2 0x23 []).pstate 0 = psRunning)) ∧
    ((on x0 0 0x72 []).testMode = false ∧ (let s := on x0 0 0x72 []
      let t := { s with boot := { s.boot with mode := 3 } }
      t.testMode = true ∧ Serves t ∧ Requested t r0 0x72)) ∧
    (let s := on x0 0 0x71 (dramRegs ++ [(Reg.DUMP_STATUS, 0x11), (Reg.DUMP_SLOT 0, 0x4800)])
     Serves s ∧ Requested s r0 0x71 ∧ s.dumpFlag 0 0 = true ∧ s.dumpFlag 8 0 = false ∧ 0 < min 100 (s.dumpBytes 0 - 0) ∧
      ∀ q ∈ sysRequests (s.slotAddr 0) 100, s.ddrServes (s.dramLoc q.1).1 = true) ∧
    (let q : DramReq := ⟨5, 5, 0, false, 128, 64, 0, true, true, 0, 0, none, .read 9 0, none⟩
     let s := { sp x0 0 dramRegs with dramCh := [(0, { DramCh.reset with queue := [q] })], hostReads := [⟨9, 0, 1, [], false, false, some 64⟩] }
     (s.dch 0).queue.find? (fun r => r.id == q.id) = some q ∧ (∀ r ∈ (s.dch 0).queue, r.port = 5 → r.src = q.src → q.id ≤ r.id) ∧
      (s.dch 0).upsets = [] ∧ s.hostReads.find? (fun h => h.num == 9) = some ⟨9, 0, 1, [], false, false, some 64⟩) ∧
    (let s := { on x0 0 0x71 [] with mbx := [(0, { MbxFn.reset with enabled := true, running := some ⟨0x71, 7, none, .dump 3 true [], false⟩ })] }
     (s.fnMbx 0).running = some ⟨0x71, 7, none, .dump 3 true [], false⟩ ∧ (s.fnMbx 0).enabled = true ∧ s.fwLost = false ∧
      s.ympReads 0 = false ∧ ({ s with hostReads := [⟨9, 0, 1, [], false, false, some 64⟩] } : State).ympReads 0 = true) := by
  unfold Serves Requested; decide +kernel

theorem witness_DmaEndCompletesTheCommand :
    let s := { on x0 0 0x70 [] with mbx := [(0, { MbxFn.reset with enabled := true, running := some ⟨0x70, 7, some r0, .dma [1], false⟩ })] }
    (s.fnMbx 0).running = some ⟨0x70, 7, some r0, .dma [1], false⟩ ∧ (0x70 : BitVec 16).toNat ≠ 0x23 ∧ (s.fnMbx 0).enabled = true ∧
    s.fwLost = false ∧ s.log.length < 4096 := by decide +kernel

theorem witness_PartitionsComeAndGo :
    let tb1 := { tb0 with partition := 1, columns := 0xF1 }
    let s := on x0 0 0x10 []
    (Serves s ∧ Requested s r0 0x10 ∧ tableBad tb1 = false ∧ tb1.columns.toNat % 16 ≤ tb1.columns.toNat / 16 ∧ s.part 1 = none ∧
      s.pstate 1 = psStopped ∧ (∀ c, c < 16 → 1 ≤ c → c ≤ 15 → s.colPart c = none ∧ s.colOk c = true) ∧ s.tableTaken 1 tb1 = false) ∧
    (tableBad tb0 = false ∧ s.part 0 = some x0 ∧ s.pstate 0 = psStopped ∧ tb0.columns.toNat = x0.firstCol + 16 * x0.lastCol ∧
      s.rangeOf 0 = none ∧ s.tableTaken 0 tb0 = false) ∧
    (∀ op ∈ [0x11, 0x12], Serves (on x0 0 op []) ∧ Requested (on x0 0 op []) r0 op ∧ (on x0 0 op []).pstate 0 = psStopped) ∧
    tableRange tb0 = false ∧ (on x0 0 0x11 [(Reg.DDR_PART_RANGE 0, 0x80000001), (Reg.DDR_PART_LIMIT 0, 2)]).rangeOf 0 = some (2 ^ 20, 2 ^ 21) ∧
    (Requested (on x0 2 0x12 []) r0 0x12 ∧ (on x0 2 0x12 []).pstate 0 = psRunning ∧ x0.resetReq = none) := by
  unfold Serves Requested; decide +kernel

/-- A load record of one instruction of tile 7. -/
def rec1 : LoadRec := ⟨1, 7, 8191, [0, 0, 0, 0, 0, 0, 0, 0], BitVec.ofNat 32 (crc32 [0, 0, 0, 0, 0, 0, 0, 0])⟩

theorem witness_LoadsTakeTheirData :
    (∀ op ∈ [0x20, 0x21, 0x22, 0xF0, 0xF1], Serves (on x0 0 op []) ∧ Requested (on x0 0 op []) r0 op ∧ (on x0 0 op []).pstate 0 = psStopped) ∧
    (on x0 0 0x20 []).part 0 = some x0 ∧ (on x0 0 0x20 []).ownsTile 0 7 = true ∧ crc32 rec1.data = rec1.crc.toNat ∧
    (on x0 0 0x20 []).recGood 0 rec1 = true ∧ crc32 rec1.data ≠ ({ rec1 with crc := 0 } : LoadRec).crc.toNat ∧
    (8190 : BitVec 13).toNat + [(0 : Row), 1].length ≤ 8192 ∧
    (on x0 0 0x22 []).loaderBusy 0 = false ∧ (on x0 0 0xF0 []).upload = (0, []) ∧ (on x0 0 0xF0 []).testMode = false ∧
    (let s := flashed (on x0 0 0xF0 [])
     Serves s ∧ Requested s r0 0xF0 ∧ s.hasSlot 0 = true ∧ s.upload = (0, []) ∧
      imageReason s.fuses (s.rd Reg.CFG_IDCODE) (srcKinds (.slot 0)) [] = some 0) ∧ (on x0 0 0xF0 []).hasSlot 0 = false := by
  unfold Serves Requested; decide +kernel

/-- The first 480 bytes of a header of a kind with flags: one column, one segment of 16 bytes, and a body digest. -/
def front (kind flags digest : Nat) : List Byte :=
  (toBytes 0x36395444 4 ++ toBytes 1 2 ++ toBytes kind 1 ++ toBytes flags 1 ++ toBytes (State.reset.rd Reg.CFG_IDCODE).toNat 4 ++
    toBytes 0x00010001 4 ++ toBytes 0 4 ++ toBytes 16 4 ++ List.replicate 88 0) ++ (toBytes digest 48 ++ List.replicate 320 0)

/-- The header with its CRC. -/
def hdrOf (kind flags digest : Nat) : List Byte :=
  front kind flags digest ++ (toBytes (crc32 (front kind flags digest)) 4 ++ List.replicate 28 0)

theorem front_length (kind flags digest : Nat) : (front kind flags digest).length = 480 := by
  simp only [front, List.length_append, length_toBytes, List.length_replicate]

theorem hdrOf_length (kind flags digest : Nat) : (hdrOf kind flags digest).length = 512 := by
  simp only [hdrOf, List.length_append, length_toBytes, List.length_replicate, front_length]

theorem crc32_lt (bs : List Byte) : crc32 bs < 2 ^ 32 := by
  have inner (n c : Nat) (h : c < 2 ^ 32) :
      (List.range n).foldl (fun c _ => if c.testBit 0 then (c / 2) ^^^ 0xEDB88320 else c / 2) c < 2 ^ 32 := by
    induction n with
    | zero => exact h
    | succ n ih =>
      rw [List.range_succ, List.foldl_append]
      simp only [List.foldl_cons, List.foldl_nil]
      split
      · exact Nat.xor_lt_two_pow (Nat.lt_of_le_of_lt (Nat.div_le_self _ _) ih) (by decide)
      · exact Nat.lt_of_le_of_lt (Nat.div_le_self _ _) ih
  have outer (l : List Byte) (c : Nat) (h : c < 2 ^ 32) : l.foldl (fun c b =>
      (List.range 8).foldl (fun c _ => if c.testBit 0 then (c / 2) ^^^ 0xEDB88320 else c / 2) (c ^^^ b.toNat)) c < 2 ^ 32 := by
    induction l generalizing c with
    | nil => exact h
    | cons b r ih => exact ih _ (inner 8 _ (Nat.xor_lt_two_pow h (Nat.lt_of_lt_of_le b.isLt (by decide))))
  exact Nat.xor_lt_two_pow (outer bs _ (by decide)) (by decide)

theorem hdrOf_crc (kind flags digest : Nat) : crc32 ((hdrOf kind flags digest).take 480) = hdrField (hdrOf kind flags digest) 480 4 := by
  have h := front_length kind flags digest
  rw [hdrOf, List.take_left' h, hdrField, List.drop_left' h, List.take_left' (length_toBytes _ _), ofBytes_toBytes]
  exact (Nat.mod_eq_of_lt (crc32_lt _)).symm

theorem hdrOf_field (kind flags digest lo n : Nat) (h : lo + n ≤ 480) :
    hdrField (hdrOf kind flags digest) lo n = hdrField (front kind flags digest) lo n := by
  have hl := front_length kind flags digest
  rw [hdrOf, hdrField, hdrField, List.drop_append_of_le_length (by omega), List.take_append_of_le_length (by simp; omega)]

theorem hdrOf_digest (kind flags digest : Nat) : hdrField (hdrOf kind flags digest) 112 48 = digest % 256 ^ 48 := by
  rw [hdrOf_field _ _ _ _ _ (by decide), hdrField, front, List.drop_left' (by simp), List.take_left' (by simp), ofBytes_toBytes]

/-- Every check of an unencrypted firmware image without a body passes on a part whose fuses hold no key hash (R217 to R222). -/
theorem witness_LoadsTakeTheirData_image :
    imageReason (flashed (on x0 0 0xF0 [])).fuses ((flashed (on x0 0 0xF0 [])).rd Reg.CFG_IDCODE) (srcKinds (.slot 0))
      (hdrOf 0 0 (sha384 [])) = none := by
  have hl := hdrOf_length 0 0 (sha384 []); have hc := hdrOf_crc 0 0 (sha384 [])
  have hd : hdrField (hdrOf 0 0 (sha384 [])) 112 48 = sha384 [] :=
    (hdrOf_digest 0 0 (sha384 [])).trans (Nat.mod_eq_of_lt (Config.sha384 []).isLt)
  have hg : hdrField (hdrOf 0 0 (sha384 [])) 0 4 = 0x36395444 ∧ hdrField (hdrOf 0 0 (sha384 [])) 4 2 = 1 ∧
      hdrField (hdrOf 0 0 (sha384 [])) 8 4 = ((flashed (on x0 0 0xF0 [])).rd Reg.CFG_IDCODE).toNat ∧
      hdrField (hdrOf 0 0 (sha384 [])) 6 1 = 0 ∧ hdrField (hdrOf 0 0 (sha384 [])) 7 1 = 0 ∧ hdrField (hdrOf 0 0 (sha384 [])) 24 4 = 0 ∧
      hdrField (hdrOf 0 0 (sha384 [])) 16 4 = 0 := by
    rw [hdrOf_field 0 0 _ 0 4 (by decide), hdrOf_field 0 0 _ 4 2 (by decide), hdrOf_field 0 0 _ 8 4 (by decide),
      hdrOf_field 0 0 _ 6 1 (by decide), hdrOf_field 0 0 _ 7 1 (by decide), hdrOf_field 0 0 _ 24 4 (by decide),
      hdrOf_field 0 0 _ 16 4 (by decide)]
    decide +kernel
  generalize hdrOf 0 0 (sha384 []) = h at hl hc hd hg ⊢
  obtain ⟨f0, f1, f2, f3, f4, f5, f6⟩ := hg
  have key : hdrReason (flashed (on x0 0 0xF0 [])).fuses ((flashed (on x0 0 0xF0 [])).rd Reg.CFG_IDCODE) [0] h = none := by
    rw [hdrReason, if_neg (by simp [hl, hc]), if_neg (by simp [hdrKind, f0, f1, f2, f3]), if_neg (fun h => h.1 rfl),
      if_neg (fun h => h.1 rfl), hdrEnc, f4]
    rfl
  rw [show srcKinds (.slot 0) = [0] from rfl, imageReason, List.take_of_length_le (Nat.le_of_eq hl), key]
  simp only [hdrEnc, hdrMapOff, f4, f5, f6, hd, List.take_zero, Nat.zero_testBit, Bool.false_eq_true, if_false, ne_eq,
    not_true_eq_false, false_and]

theorem witness_MilestoneCommandsArm :
    let s := on x0 0 0x30 []
    let two := on x0 0 0x42 [(Reg.TPL_FENCE, 0x10001)]
    (Serves s ∧ Requested s r0 0x30 ∧ s.part 0 = some x0 ∧ s.pstate 0 = psStopped ∧ msAhead (2 ^ 47 - 1) s.msCount = true ∧
      s.bit (Reg.PART_STOP_AT_HI 0) 31 = false ∧ s.timeFar = false ∧ s.startWaits 0 = false ∧ s.devRung = 0 ∧ s.pwr.phase = 0 ∧
      s.bit Reg.PWR_STATUS 8 = false ∧ s.lostColumn x0 = false ∧ s.ueSectors x0.sectors = false ∧ s.sectorOff x0 = false ∧ x0.rung = 0) ∧
    (Serves (on x0 2 0x31 []) ∧ Requested (on x0 2 0x31 []) r0 0x31 ∧ (on x0 2 0x31 []).pstate 0 = psRunning ∧
      msAhead 1 (on x0 2 0x31 []).msCount = true ∧ (on x0 2 0x31 []).bit (Reg.PART_STOP_AT_HI 0) 31 = false) ∧
    (Serves (on x0 0 0x31 []) ∧ Requested (on x0 0 0x31 []) r0 0x31 ∧ (on x0 0 0x31 []).pstate 0 = psStopped) ∧
    (Serves (on x0 0 0x32 []) ∧ Requested (on x0 0 0x32 []) r0 0x32 ∧ (on x0 0 0x32 []).twoAhead 2 = true) ∧
    ((on x0 0 0x42 []).ready = true ∧ Requested (on x0 0 0x42 []) r0 0x42 ∧ (on x0 0 0x42 []).fld Reg.TPL_EPOCH 0 16 < (1 : BitVec 16).toNat) ∧
    ((on { x0 with fenceReset := true } 0 0x42 [(Reg.TPL_FENCE, 0x10001)]).fenced = true ∧
      (∀ p ∈ (on { x0 with fenceReset := true } 0 0x42 [(Reg.TPL_FENCE, 0x10001)]).parts,
        (on { x0 with fenceReset := true } 0 0x42 []).pstate p.1 = psStopped ∧ p.2.fenceReset = true) ∧
      two.fld Reg.TPL_FENCE 16 16 ≤ (1 : BitVec 16).toNat ∧ two.twoAhead 2 = true) := by
  unfold Serves Requested; decide +kernel

/-- No rate of the calibration is past 24 bits, and at 0.75 V none is below the rated one (R4, R52). -/
theorem calibrated_le (q v : Nat) (tj : Int) : calibrated q v tj ≤ 16777215 := by
  have h := (Config.calibRate q v tj).isLt
  have rated : ratedKhz ≤ 16777215 := by unfold ratedKhz; split <;> decide
  unfold calibrated; split <;> omega

theorem rated_le (q : Nat) (tj : Int) : ratedKhz ≤ calibrated q (120 + 30) tj := by
  rw [calibrated, if_pos rfl]; exact Nat.le_max_left _ _

/-- Where no rate of 24 bits covers a budget, the floor is 0.85 V; where the rated rate covers it, the floor is not above 0.75 V (R52). -/
theorem floorFor_cases (s : State) (q b period : Nat) :
    (16777215 * (period - 40) < 1000000 * b → s.floorFor q b period = 170) ∧
    (1000000 * b ≤ ratedKhz * (period - 40) → s.floorFor q b period ≤ 150) := by
  unfold State.floorFor
  dsimp only
  generalize 1000000 * b = n
  constructor
  · intro h
    split
    · rename_i i e
      have := Nat.mul_le_mul_right (period - 40) (calibrated_le q (120 + i) (min ((s.quarter q).tj + 80) 800))
      have hit := List.find?_some e
      rw [decide_eq_true_eq] at hit
      omega
    · rfl
  · intro h
    have hit : n ≤ calibrated q (120 + 30) (min ((s.quarter q).tj + 80) 800) * (period - 40) :=
      Nat.le_trans h (Nat.mul_le_mul_right _ (rated_le _ _))
    split
    · rename_i i e
      by_contra hn
      have late := (List.find?_range_eq_some.1 e).2.2 30 (by omega)
      rw [Bool.not_eq_true', decide_eq_false_iff_not] at late
      exact late hit
    · rename_i e
      exact absurd (decide_eq_true hit) (List.find?_eq_none.1 e 30 (by decide))

/-- A partition with the largest budget, STOPPED, needs its rail raised; one that RUNS with 50,000 handshakes in a long beat needs it
where the beat becomes the shortest. -/
theorem witness_MilestoneCommandsArm_raises :
    let start := on x0 0 0x30 [(Reg.PART_VAR_BUDGET 0 7, 0xFFFFF)]
    let period := on x0 2 0x32 [(Reg.PART_VAR_BUDGET 0 7, 50000), (Reg.TIME_MS_PERIOD, 8191)]
    start.raised (start.floorsFor 0) = false ∧ (on x0 0 0x30 []).raised ((on x0 0 0x30 []).floorsFor 0) = true ∧
    period.raised (period.floorsAt (8 * max 63 (min 8000 (0 : BitVec 16).toNat))) = false ∧
    (on x0 0 0x32 []).raised ((on x0 0 0x32 []).floorsAt 504) = true ∧ msAhead 2 (((on x0 0 0x30 []).msCount + 1) % 2 ^ 48) = true := by
  intro start period
  have one (q b p : Nat) := floorFor_cases start q b p
  have two (q b p : Nat) := floorFor_cases period q b p
  have rated : 1400000 ≤ ratedKhz := by unfold ratedKhz; split <;> decide
  refine ⟨?_, by decide +kernel, ?_, by decide +kernel, by decide +kernel⟩
  · have hp : start.part 0 = some x0 := rfl
    have hq : x0.quarters = [0] := by decide
    have hb : start.budgetOf 0 = 0xFFFFF := by decide +kernel
    have hn : start.periodNs = 2000 := by decide +kernel
    have ho : start.floorOf 0 = 120 := by decide +kernel
    have hm : start.raiseMv (0, 170) = 850 ∧ start.railMv 0 = 750 := by decide +kernel
    have hf : start.floorsFor 0 = [(0, 170)] := by
      rw [State.floorsFor, hp]
      simp [hq, hb, hn, ho, (one 0 0xFFFFF 2000).1 (by decide)]
    rw [State.raised, hf]
    simp [hm.1, hm.2]
  · have hl : period.liveParts 0 = [0] ∧ period.liveParts 1 = [] ∧ period.liveParts 2 = [] ∧ period.liveParts 3 = [] := by decide +kernel
    have hb : period.budgetOf 0 = 50000 := by decide +kernel
    have hn : period.periodNs = 65528 := by decide +kernel
    have ho : period.floorOf 0 ≤ 150 := by
      rw [State.floorOf, hl.1]
      simp only [List.foldl_cons, List.foldl_nil, hb, hn]
      exact (two 0 50000 65528).2 (by omega)
    have hm : period.raiseMv (0, 170) = 850 ∧ period.railMv 0 = 750 := by decide +kernel
    have hf : (0, 170) ∈ period.floorsAt (8 * max 63 (min 8000 (0 : BitVec 16).toNat)) := by
      rw [State.floorsAt, List.mem_filter]
      refine ⟨List.mem_map.2 ⟨0, by decide, ?_⟩, by simpa using Nat.lt_of_le_of_lt ho (by decide)⟩
      simp only [hl.1, List.foldl_cons, List.foldl_nil, hb]
      rw [(two 0 (max 0 50000) _).1 (by decide)]
      rfl
    rw [State.raised, List.all_eq_false]
    exact ⟨_, hf, by simp [hm.1, hm.2]⟩

theorem witness_ConfigurationIsStored :
    let x := { x0 with lanes := 15 <<< 92, chans := 1 <<< 255 }
    let s := on x 0 0x40 []
    let dram := on x 0 0x80 dramRegs
    (∀ op ∈ [0x51, 0x81, 0x60, 0x80, 0x40], Serves (on x 0 op []) ∧ Requested (on x 0 op []) r0 op) ∧
    (∀ p, p < 16 → (on x 0 0x80 []).rangeOf p = none) ∧ (0 : BitVec 8).toNat = (on x 0 0x80 []).fld Reg.DDR_MAP_CTRL 0 1 ∧
    (Serves dram ∧ Requested dram r0 0x80 ∧ (∀ p, p < 16 → dram.rangeOf p = none) ∧ dram.bandOk = true ∧
      (1 : BitVec 8).toNat ≠ dram.fld Reg.DDR_MAP_CTRL 0 1 ∧ Memory.wf dram.dram = true ∧ 2 ^ 28 ≤ dram.mapTop ∧
      2 ^ 28 ≤ (dram.setFld Reg.DDR_MAP_CTRL 0 1 1).mapTop ∧ (∀ k, k < 8 → dram.dramCap k ≤ 64 * 2 ^ 30) ∧
      (let u := dram.setFld Reg.DDR_MAP_CTRL 0 1 1
       u.ddrServes (u.dramLoc (u.mapTop - 1)).1 = true)) ∧
    (x.ownsLanes 95 1 = true ∧ s.part 0 = some x ∧ s.pstate 0 = psStopped ∧ s.regBad (Reg.TPL_LANE_CTRL 95) 0 = false ∧
      s.regBad (Reg.TPL_LANE_THRESH 95) 0 = false ∧ s.rd (Reg.TPL_LANE_CTRL 95) &&& 7 = 0 &&& 7 ∧
      s.regBad (Reg.TPL_LANE_CTRL 95) 3 = false ∧
      s.rd (Reg.TPL_LANE_CTRL 95) &&& 7 ≠ (s.regStore (Reg.TPL_LANE_CTRL 95) 3).rd (Reg.TPL_LANE_CTRL 95) &&& 7) ∧
    (let up := on x 0 0x40 [(Reg.TPL_PORT_CTRL 92, 5), (Reg.TPL_PORT_STATUS 92, 1)]
     x.linkNamed 1 92 4 0 = true ∧ s.laneOwner 92 = some 0 ∧ s.oneOwner 92 4 = true ∧ s.regBad (Reg.TPL_PORT_CTRL 92) 4 = false ∧
      92 % 4 = 0 ∧ up.portIsUp 92 = true ∧ up.rd (Reg.TPL_PORT_CTRL 92) &&& 7 ≠ 4 &&& 7) ∧
    (let img : Word := BitVec.ofNat 32 (1 + 92 * 16)
     let open_ := on x 0 0x40 [(Reg.CHN_CTRL 255, img), (Reg.CHN_STATUS 255, 1)]
     x.linkNamed 2 255 img 0x00100000 = true ∧ s.chanHolder 255 = some 0 ∧ s.linkBad 2 255 img 0 0x00100000 = false ∧
      s.chanState 255 ≠ 2 ∧ s.chanOn 255 = false ∧ x.linkNamed 2 255 (img - 1) 0x00100000 = true ∧
      open_.linkBad 2 255 (img - 1) 0 0x00100000 = false ∧ open_.chanOn 255 = true ∧ open_.chanState 255 ≠ 2) := by
  unfold Serves Requested; decide +kernel

theorem witness_PowerStatesAreEntered :
    let s := on x0 0 0x50 []
    let resting := { x0 with rung := 1, entering := true }
    let woken := { x0 with rung := 1, wakeAt := some 0 }
    let waits := { s with mbx := [(0, { MbxFn.reset with enabled := true, running := some ⟨0x50, 7, some r0, .power 0 1 0 0 0, false⟩ })] }
    (Serves s ∧ Requested s r0 0x50 ∧ s.part 0 = some x0 ∧ s.pstate 0 = psStopped ∧ s.startWaits 0 = false ∧ x0.rung = 0 ∧
      x0.entering = false) ∧ (s.devRung = 0 ∧ s.pwr.phase = 0 ∧ ∀ p ∈ s.parts, s.pstate p.1 = psStopped ∧ s.startWaits p.1 = false) ∧
    ((sp resting 0 []).part 0 = some resting ∧ resting.rung ≠ 0 ∧ resting.entering = true) ∧
    ((sp woken 2 []).part 0 = some woken ∧ woken.wakeAt ≠ none ∧ (sp woken 2 []).pstate 0 = psRunning ∧
      (sp woken 2 []).bit Reg.PWR_STATUS 8 = false) ∧
    (let t (n g : Nat) : State := { s with pwr := { s.pwr with phase := n, target := g } }
     (t 6 0).pwr.phase = 6 ∧ (t 1 3).pwr.phase = 1 ∧ (t 1 3).pwr.target < 4 ∧ (t 1 4).pwr.target = 4 ∧ (t 1 4).railsAt l4Low = false ∧
      ((4, 700) ∈ l4Low ∧ (t 1 4).railWaits 4 = false ∧ (t 1 4).railMv 4 ≠ 700)) ∧ s.bit Reg.PWR_STATUS 8 = false ∧
    (waits.waitOf 0 = some (.power 0 1 0 0 0) ∧ waits.fwLost = false ∧ (waits.fnMbx 0).enabled = true ∧ resting.wakeAt = none) := by
  unfold Serves Requested; decide +kernel

theorem witness_HeartbeatAndItsLoss : (on x0 0 1 []).boot.fwUp = true ∧ (on x0 0 1 []).fwLost = false ∧ (on x0 0 1 []).log.length < 4096 ∧
    (let s (m : Word) := on x0 0 1 [(Reg.PCI_MSIX 16, 0x80000000), (Reg.MSIX_TABLE 16 11, m)]
     (s 0).bit (Reg.PCI_MSIX 16) 31 = true ∧ (s 0).vectorHeld 16 2 = false ∧ (s 1).vectorHeld 16 2 = true) := by
  decide +kernel

/-- A read and a write of PF0's window, taken up, as the only request of channel 0. -/
def hostQ (w : Bool) : DramReq := ⟨5, 5, 1, w, 128, 64, 7, true, true, 0, 0, none, if w then .posted else .read 9 0, none⟩
def hostS (w : Bool) : State :=
  { sp x0 0 dramRegs with dramCh := [(0, { DramCh.reset with queue := [hostQ w] })], hostReads := [⟨9, 0, 1, [], false, false, none⟩] }

theorem witness_HostWindowsReachTheDram :
    let s := sp x0 0 dramRegs
    let up := sp x0 0 [(Reg.MBX_CTRL 0, 8)]
    ((s.setFld (Reg.PCI_PM 16) 0 2 3).inD3 16 = true ∧ (∀ n ∈ [64, 0], s.windowAddr 1 64 n = none)) ∧
    (s.inD3 0 = false ∧ s.windowAddr 0 64 960 = some 64 ∧ s.noHole 64 960 = true ∧ 0 < 960 ∧ 64 % 1024 + 960 ≤ 1024 ∧
      s.ddrServes (s.dramLoc 64).1 = true) ∧
    (∀ w, ((hostS w).dch 0).queue.find? (fun r => r.id == (hostQ w).id) = some (hostQ w) ∧
      (∀ r ∈ ((hostS w).dch 0).queue, (hostQ w).id ≤ r.id) ∧ ((hostS w).dch 0).upsets = [] ∧ (hostQ w).issued = true ∧ (hostQ w).len ≤ 1024) ∧
    (hostS false).hostReads.find? (fun h => h.num == 9) = some ⟨9, 0, 1, [], false, false, none⟩ ∧
    s.bit (Reg.MBX_CTRL 0) 3 = false ∧ up.bit (Reg.MBX_CTRL 0) 3 = true ∧ up.inD3 0 = false ∧
    up.readBuffer ((0x70000100 : BitVec 32).toNat / 4 * 4) = none := by decide +kernel

theorem witness_FunctionResetsAndPtm :
    (∀ f, f < 17 → (State.reset.fnMbx f).running = none) ∧
    (let s := { State.reset with timeRuns := true, regs := [(Reg.TIME_PTM_CTRL, 1)] }
     s.timeRuns = true ∧ s.fld Reg.TIME_PTM_CTRL 0 8 ≠ 0) ∧
    (let s := { State.reset with timeUnit := { State.reset.timeUnit with ptmAt := some (2 ^ 80 - 1) } }
     s.timeUnit.ptmAt = some (2 ^ 80 - 1) ∧ 1001 / 2 ≤ (500 : BitVec 64).toNat ∧ 2 ^ 80 - 1 < 2 ^ 80) := by decide +kernel

theorem witness_MilestoneCountsAndAdopts :
    let s := { sp x0 0 [(Reg.TIME_MS_CTRL, 1), (Reg.TIME_MS_CHANGE_HI, 0x80000000), (Reg.TIME_MS_CHANGE_LO, 1), (Reg.TPL_EPOCH_NEXT, 0x80000001),
      (Reg.FAB_PART_RELCTL 0, 0x300), (Reg.EDGE_CTRL 0, 0x30001)] with timeRuns := true }
    let y := { x0 with beatOpen := true }
    let u := { sp y 2 [(Reg.TIME_MS_CTRL, 1)] with timeRuns := true }
    let v := (u.beatTiles 0).foldl (fun (v : State) k => v.sampleTile ⟨[], []⟩ k) u.countMs
    s.timeRuns = true ∧ s.bit Reg.TIME_MS_CTRL 0 = true ∧ s.search = [] ∧ (∀ k, k < 128 → (s.tile k).se.aborts = []) ∧
    (∀ p ∈ s.partList, p < 16 ∧ s.pstate p = psStopped) ∧ s.edgeConnected 0 = true ∧ s.edgeOwner 0 = some 0 ∧ s.part 0 = some x0 ∧
    s.armDue Reg.TIME_MS_CHANGE_LO Reg.TIME_MS_CHANGE_HI ((s.msCount + 1) % 2 ^ 48) = true ∧ s.bit Reg.TPL_EPOCH_NEXT 31 = true ∧
    msAhead (s.rd2 Reg.TPL_EPOCH_AT_LO Reg.TPL_EPOCH_AT_HI % 2 ^ 48) ((s.msCount + 1) % 2 ^ 48) = false ∧
    (u.part 0 = some y ∧ u.partList = [0] ∧ u.pstate 0 = psRunning ∧ y.rung = 0 ∧ y.trial = none ∧
      outcomeOf ((v.part 0).any Part.fault) ((u.beatTiles 0).any (fun k => !(v.tile k).done)) ((v.part 0).any Part.gapAbort) = 0 ∧
      (∀ k ∈ u.partTiles 0, (v.tile k).tc.power = false) ∧ (v.part 0).any (fun y => y.resetReq.isSome) = false ∧
      u.armDue (Reg.PART_STOP_AT_LO 0) (Reg.PART_STOP_AT_HI 0) ((u.msCount + 1) % 2 ^ 48) = false ∧ 7 ∈ v.partTiles 0 ∧
      (v.tile 7).evs = [] ∧ (v.tile 7).flights = [] ∧ (v.tile 7).mvu.ops = [] ∧ (v.tile 7).arr0.mmas = [] ∧ (v.tile 7).arr1.mmas = []) := by
  decide +kernel

theorem witness_BeatOpensAtHandshakeZero :
    (sp x0 2 []).part 0 = some x0 ∧ (sp x0 2 []).pstate 0 = psRunning ∧ x0.rung = 0 ∧ x0.beatOpen = false ∧ (sp x0 2 []).partChans 0 = [] ∧
    (sp x0 2 [(Reg.TILE_CTRL 7, 1)]).beatTiles 0 = [7] := by decide +kernel

theorem witness_AppendRegionsAdvance :
    let s (ptr : Word) := { State.reset with regs := [(Reg.SEQ_APP_CTRL 0 127, 0xC0000010), (Reg.SEQ_APP_PTR 0 127, ptr),
      (Reg.SEQ_APP_BASE 0 127, 0x100), (Reg.SEQ_APP_LIMIT 0 127, 0x200)] }
    (s 0x1EF).bit (Reg.SEQ_APP_CTRL 0 127) 30 = true ∧ (s 0x1EF).bit (Reg.SEQ_APP_CTRL 0 127) 31 = true ∧
    (s 0x1EF).fld (Reg.SEQ_APP_PTR 0 127) 0 23 + 0x10 < 0x200 ∧ (s 0x1F0).fld (Reg.SEQ_APP_PTR 0 127) 0 23 + 0x10 = 0x200 ∧
    (s 0x1F0).fld (Reg.SEQ_APP_LIMIT 0 127) 0 23 = 0x200 ∧ State.reset.bit (Reg.SEQ_APP_CTRL 0 127) 30 = false := by decide +kernel

theorem witness_TransitionsHappenAtMilestones :
    let start := sp x0 1 [(Reg.PART_START_AT_HI 0, 0x80000000)]
    let stop := sp x0 2 [(Reg.PART_STOP_AT_HI 0, 0x80000000)]
    (start.part 0 = some x0 ∧ start.pstate 0 = psArmed ∧ x0.fault = false ∧
      start.armDue (Reg.PART_START_AT_LO 0) (Reg.PART_START_AT_HI 0) 1 = true) ∧
    ((sp { x0 with fault := true } 1 []).pstate 0 = psArmed ∧ ({ x0 with fault := true } : Part).fault = true) ∧
    (stop.pstate 0 = psRunning ∧ x0.rung = 0 ∧ x0.beatOpen = false ∧ x0.trial = none ∧ x0.resetReq = none ∧
      stop.armDue (Reg.PART_STOP_AT_LO 0) (Reg.PART_STOP_AT_HI 0) 1 = true) ∧ (sp x0 0 []).pstate 0 = psStopped := by decide +kernel

/-! Tiles. -/

/-- Tile 0 of RUNNING partition 0, its sequencer running, with a record and further registers. -/
def st (x : Tile) (regs : SMap Word) : State :=
  { sp x0 2 ((Reg.SEQ_STATUS 0, 0x10000) :: regs) with tiles := [(0, { x with stopped := false })] }

theorem calm_of {s : State} {t : Nat} (hw : (s.tile t).lastWide = none)
    (h : t < 128 ∧ s.seqReady t = true ∧ (∀ e ∈ (s.tile t).evs, slotOf s t < e.slot) ∧
      (∀ f ∈ (s.tile t).flights, slotOf s t < f.slot + f.lat) ∧ (∀ o ∈ (s.tile t).mvu.ops, slotOf s t < o.done) ∧
      (s.tile t).memUpsets = [] ∧ (s.tile t).se.aborts = [] ∧ (s.tile t).nextHs < 2 ^ 20 ∧ (s.tile t).nextK < 4096) : Calm s t :=
  ⟨h.1, h.2.1, h.2.2.1, h.2.2.2.1, h.2.2.2.2.1, h.2.2.2.2.2.1, h.2.2.2.2.2.2.1, h.2.2.2.2.2.2.2.1, h.2.2.2.2.2.2.2.2,
    fun w hs => by rw [hw] at hs; cases hs⟩

theorem quiet_of {s : State} {t : Nat} (hw : (s.tile t).lastWide = none)
    (h : t < 128 ∧ s.seqReady t = true ∧ (s.tile t).evs = [] ∧ (s.tile t).flights = [] ∧ (s.tile t).mvu.ops = [] ∧
      (s.tile t).arr0.mmas = [] ∧ (s.tile t).arr1.mmas = [] ∧ (s.tile t).memUpsets = [] ∧ (s.tile t).se.aborts = [] ∧
      (s.tile t).nextHs < 2 ^ 20 ∧ (s.tile t).nextK < 4096) : Quiet s t := by
  obtain ⟨a, b, c, d, e, m, n, f, z, g, i⟩ := h
  exact ⟨calm_of hw ⟨a, b, by simp [c], by simp [d], by simp [e], f, z, g, i⟩, c, d, e, m, n⟩

theorem tcIdle_of {s : State} {t : Nat} (hr : (s.tile t).tc.ready = [])
    (h : t < 128 ∧ s.tcReady t = true ∧ (s.tile t).evs = [] ∧ (s.tile t).flights = [] ∧ (s.tile t).mvu.ops = [] ∧
      (s.tile t).arr0.mmas = [] ∧ (s.tile t).arr1.mmas = [] ∧ (s.tile t).se.aborts = [] ∧ (s.tile t).memUpsets = [] ∧
      (s.tile t).tc.next < 2 ^ 20 - 4 ∧ s.hs t < 2 ^ 20 - 4) : TcIdle s t := by
  obtain ⟨a, b, c, d, e, m, n, z, f, g, i⟩ := h
  exact ⟨a, b, c, d, e, m, n, z, f, g, i, fun k => by rw [hr]; exact (by decide : (0 : Nat) < 2 ^ 20 - 4)⟩

theorem witness_EntryDecodeOfEncode :
    (encodeEntry (.nop 0 1023)).isSome = true ∧ (encodeEntry (.mvm 127 ⟨0, 0, 0, 0, 0, 0, 0, 0, 0, 0, 0, true⟩ [⟨0, 0, 0⟩])).isSome = true := by
  decide +kernel

theorem witness_TcDecodeOfEncode : (encodeTc (.tcNop 0 (decodeMoves 0))).isSome = true := by decide +kernel

theorem witness_ControlEntriesIssue :
    let halted := st Tile.reset []
    let running := st Tile.reset [(Reg.TC_STATUS 0, 1)]
    let waits := st { Tile.reset with tc := { Tile.reset.tc with waitEvent := some 15 } } [(Reg.TC_STATUS 0, 2)]
    (Quiet halted 0 ∧ halted.tcHalted 0 = true ∧ (halted.tile 0).tc.waitEvent ≠ some (15 : BitVec 4).toNat) ∧
    (Quiet running 0 ∧ running.tcHalted 0 = false ∧ (running.tile 0).tc.startEntry < 4096) ∧
    (Quiet waits 0 ∧ (waits.tile 0).tc.waitEvent = some (15 : BitVec 4).toNat) :=
  ⟨⟨quiet_of rfl (by decide +kernel), by decide +kernel⟩, ⟨quiet_of rfl (by decide +kernel), by decide +kernel⟩,
    quiet_of rfl (by decide +kernel), by decide +kernel⟩

theorem witness_SemaphoreEntriesIssue :
    let s := st Tile.reset [(Reg.SEM_CFG 0 63, 5), (Reg.SEM_CNT 0 63, 4)]
    let broken := st Tile.reset [(Reg.SEM_CFG 0 63, 5), (Reg.SEM_CNT 0 63, 0x10004)]
    Quiet s 0 ∧ Quiet broken 0 ∧ (broken.semBroken 0 63 = true ∧ broken.bit (Reg.SEM_FAULT 0) 0 = false) ∧ (0 < (1 : BitVec 12).toNat ∧ s.semBroken 0 63 = false ∧
      s.semCount 0 63 + 1 = s.semCap 0 63 ∧ s.semCap 0 63 < s.semCount 0 63 + 2 ∧ 4 ≤ s.semCount 0 63 ∧ s.semCount 0 63 < 5 ∧
      5 ≤ s.semCap 0 63 ∧ s.semCap 0 63 < 6 ∧ s.bit (Reg.SEM_FAULT 0) 0 = false ∧ s.tilePart 0 = some 0 ∧ s.part 0 = some x0 ∧
      x0.firstCol ≤ (7 : BitVec 7).toNat / 8 ∧ (7 : BitVec 7).toNat / 8 ≤ x0.lastCol ∧ ¬ (8 : BitVec 7).toNat / 8 ≤ x0.lastCol) :=
  ⟨quiet_of rfl (by decide +kernel), quiet_of rfl (by decide +kernel), by decide +kernel⟩

theorem witness_StreamEntriesIssue :
    let inb := st Tile.reset [(Reg.SE_CTX_STATUS 0 7, 1), (Reg.SE_CTX_CTRL 0 7, 1), (Reg.SE_CTX_FILL 0 7, 3)]
    let held := st Tile.reset [(Reg.SE_CTX_STATUS 0 7, 1), (Reg.SE_CTX_CTRL 0 7, 0x11), (Reg.SE_CTX_FILL 0 7, 3)]
    let outb := st Tile.reset [(Reg.SE_CTX_STATUS 0 7, 2), (Reg.SE_CTX_CTRL 0 7, 3), (Reg.SE_CTX_FILL 0 7, 0x30000)]
    (1 : BitVec 6) ≠ 0 ∧
    (Quiet inb 0 ∧ inb.ctxLive 0 7 = true ∧ inb.ctxOut 0 7 = false ∧ inb.ctxHeld 0 7 = false ∧ inb.ctxFree 0 7 + inb.ctxFill 0 7 < 8192 ∧
      inb.ctxFill 0 7 < (4 : BitVec 13).toNat ∧ inb.ctxLive 0 6 = false) ∧
    (Quiet held 0 ∧ held.ctxLive 0 7 = true ∧ held.ctxOut 0 7 = false ∧ held.ctxHeld 0 7 = true) ∧
    (Quiet outb 0 ∧ outb.ctxLive 0 7 = true ∧ outb.ctxOut 0 7 = true ∧ outb.ctxFree 0 7 < (4 : BitVec 13).toNat) :=
  ⟨by decide, ⟨quiet_of rfl (by decide +kernel), by decide +kernel⟩, ⟨quiet_of rfl (by decide +kernel), by decide +kernel⟩,
    quiet_of rfl (by decide +kernel), by decide +kernel⟩

/-- A legal MMA of FP8 with one K block, which drains. -/
def mma0 : MmaFields := ⟨0, 0, 0, 0, 0, 0, 0, 0, 0, 1, 0, true, true, false, false, false⟩

/-- An MMA in progress, and a drain that holds set 0 until handshake 9. -/
def op0 : MmaOp := ⟨1, mma0, 4095, 0, [], [], [], [], 0, 0⟩
def drain0 : DrainOp := ⟨1, ⟨0, 0, false, false, false⟩, 4095, 0, 9, []⟩

theorem witness_ArrayEntriesIssue :
    let free := st Tile.reset []
    let busy := st { Tile.reset with arr0 := { ArrSt.reset with accept := 9, mmas := [op0] } } []
    let held := st { Tile.reset with arr0 := { ArrSt.reset with drains := [drain0] } } []
    (Quiet free 0 ∧ mma0.legal = true ∧ mma0.inStore 1 = true ∧
      ((free.tile 0).arr 0).accept ≤ slotOf free 0 ∧ ((free.tile 0).arr 0).holder false (slotOf free 0 + 73) = none ∧
      ((free.tile 0).arr 0).holder false (slotOf free 0) = none ∧ (∀ o ∈ ((free.tile 0).arr 0).mmas, o.f.accSet ≠ false) ∧
      (0 : BitVec 3) ≠ 5 ∧ 0 + drainRows 0 ≤ 8192) ∧
    (Calm busy 0 ∧ slotOf busy 0 < ((busy.tile 0).arr 0).accept ∧ ((busy.tile 0).arr 0).mmas.getLast? = some op0 ∧ op0.entry < 4096) ∧
    (Calm held 0 ∧ ((held.tile 0).arr 0).holder false (slotOf held 0) = some drain0 ∧ drain0.entry < 4096) :=
  ⟨⟨quiet_of rfl (by decide +kernel), by decide +kernel⟩, ⟨calm_of rfl (by decide +kernel), by decide +kernel⟩,
    calm_of rfl (by decide +kernel), by decide +kernel⟩

theorem witness_ArrayEventsTakePlace :
    let ev (a : TileAct) : TileEv := ⟨2 ^ 20 - 1, 0, 0, a⟩
    let mm := st { Tile.reset with evs := [ev (.arrDone 0 1)], arr0 := { ArrSt.reset with mmas := [op0] } } []
    let dr := st { Tile.reset with evs := [ev (.capture 0 1)], arr0 := { ArrSt.reset with drains := [drain0] } } []
    ((mm.tile 0).evs = ⟨2 ^ 20 - 1, 0, 0, .arrDone 0 1⟩ :: [] ∧ mm.hs 0 ≤ 2 ^ 20 - 1 ∧ (mm.tile 0).flights = [] ∧ (mm.tile 0).mvu.ops = [] ∧
      (mm.tile 0).se.aborts = [] ∧ ((mm.tile 0).arr 0).findMma 1 = some op0) ∧
    ((dr.tile 0).evs = ⟨2 ^ 20 - 1, 0, 0, .capture 0 1⟩ :: [] ∧ dr.hs 0 ≤ 2 ^ 20 - 1 ∧ ((dr.tile 0).arr 0).findDrain 1 = some drain0 ∧
      drainRows drain0.f.outFmt ≠ 0) ∧ (State.reset.tile 0).evs = [] := by decide +kernel

theorem witness_MvuEntriesIssue :
    let free := st Tile.reset []
    let m : MvuOp := ⟨1, .vload ⟨0, 0, 0, 0, 0⟩, 4095, 9, [], []⟩
    let busy := st { Tile.reset with mvu := ⟨[], false, 0, 0, 0, 9, [m]⟩ } []
    (Quiet free 0 ∧ (free.tile 0).mvu.accept ≤ slotOf free 0 ∧ MvmFields.legal ⟨0, 0, 0, 0, 0, 0, 0, 0, 0, 0, 0, true⟩ = true ∧
      VloadFields.legal ⟨0, 0, 15, 0, 0⟩ = true ∧ MdrainFields.legal ⟨3, 0, 8188, false⟩ = true) ∧
    (Calm busy 0 ∧ slotOf busy 0 < (busy.tile 0).mvu.accept ∧ (busy.tile 0).mvu.ops.getLast? = some m ∧ m.entry < 4096) :=
  ⟨⟨quiet_of rfl (by decide +kernel), by decide +kernel⟩, calm_of rfl (by decide +kernel), by decide +kernel⟩

/-- A VEU entry on FP32 elements of row 0. -/
def veu0 : VeuFields := ⟨0, 1, 2, 3, 0, 0, 0, 0⟩

theorem witness_VeuEntriesIssue :
    let free := st Tile.reset []
    let busy := st { Tile.reset with veu := ⟨[], 4, 4095⟩ } []
    Quiet free 0 ∧ Calm busy 0 ∧ (((free.tile 0).veu.accept ≤ slotOf free 0 ∧
      (∀ c ∈ veuOps 0 1023 { veu0 with fmt := 2 }, veuLegal c.1 { veu0 with fmt := 2 } = true) ∧
      (2 : BitVec 3).toNat ≤ 2 ∧ (7168 : BitVec 13).toNat + (1023 : BitVec 10).toNat < 8192 ∧ free.upsets = []) ∧
    slotOf busy 0 < (busy.tile 0).veu.accept ∧ (busy.tile 0).veu.entry < 4096) ∧ (∀ e, (free.tile 0).lastWide ≠ some (slotOf free 0, e)) :=
  ⟨quiet_of rfl (by decide +kernel), calm_of rfl (by decide +kernel), by decide +kernel, fun e h => by cases h⟩

theorem witness_VeuResultsByElement : veu0.fmt.toNat ≤ 2 := by decide

theorem witness_ImpossibleOperandsStop :
    (∀ f ∈ [{ mma0 with scale := 3 }, { mma0 with passes := 0 }, { mma0 with outFmt := 5 }, { mma0 with outFmt := 6 }, { mma0 with fmtA := 6 },
      { mma0 with fmtA := 7 }, { mma0 with fmtB := 3 }, { mma0 with fmtA := 5, fmtB := 5 }, { mma0 with passes := 2 }], f.legal = false) ∧
    8192 < (8191 : BitVec 13).toNat + drainRows 0 ∧ 16384 < 0 * 32 + (16 + 1) * 1024 ∧ 1024 < 0 + (4 + 1) * 256 ∧ 1024 < 1 + (1 + 1) * 512 ∧
    MvmFields.legal ⟨0, 0, 0, 0, 0, 5, 0, 0, 0, 0, 0, true⟩ = false ∧ (128 : BitVec 9).toNat ≥ 128 ∧ 2 < (3 : BitVec 3).toNat ∧
    4 < (5 : BitVec 3).toNat := by decide +kernel

theorem witness_SequencerEventsTakePlace :
    let ovr := st { Tile.reset with overrunAt := some 5 } []
    let gate := st { Tile.reset with gate := some (63, 1, 0) } [(Reg.SEM_CNT 0 63, 0x101001)]
    let ended := st { Tile.reset with endAt := some 5 } []
    let waits := st { Tile.reset with endAt := some 5, remoteOut := [(1, 0, false)] } []
    ((State.reset.tile 0).overrunAt = none ∧ (ovr.tile 0).overrunAt = some 5 ∧ (ovr.tile 0).evs = [] ∧ ovr.fwLost = false ∧
      ovr.log.length < 4096) ∧
    ((gate.tile 0).gate.isSome = true ∧ gate.tcQuiet 0 = true ∧ gate.tileBusyWork 0 = false) ∧
    ((ended.tile 0).endAt.isSome = true ∧ ended.tcHalted 0 = true ∧ (ended.tile 0).remoteWaits = false ∧ ended.tileBusyWork 0 = false ∧
      (waits.tile 0).remoteWaits = true) ∧
    ((gate.tile 0).gate = some ((63 : BitVec 6).toNat, 1, 0) ∧ (gate.tile 0).evs = [] ∧ (gate.tile 0).flights = [] ∧ (gate.tile 0).mvu.ops = [] ∧
      (gate.tile 0).se.aborts = [] ∧ (gate.tile 0).tc.waitSem = none ∧ gate.hs 0 + 1 < 2 ^ 20 ∧ gate.semBroken 0 63 = false ∧
      1 ≤ gate.semCount 0 63) ∧ ((ended.tile 0).gate = none ∧ (ended.tile 0).tc.waitSem = none ∧ ended.semBroken 0 63 = false) ∧
    (let wait := st { Tile.reset with tc := { Tile.reset.tc with waitSem := some (63, 1) } } [(Reg.SEM_CNT 0 63, 0x1001)]
     (wait.tile 0).tc.waitSem = some ((63 : BitVec 6).toNat, 1) ∧ (wait.tile 0).evs = [] ∧ (wait.tile 0).flights = [] ∧
      (wait.tile 0).mvu.ops = [] ∧ (wait.tile 0).gate = none ∧ wait.hs 0 + 1 < 2 ^ 20 ∧ wait.semBroken 0 63 = false ∧ 1 ≤ wait.semCount 0 63) ∧
    (let both := st { Tile.reset with gate := some (63, 1, 0), tc := { Tile.reset.tc with waitSem := some (63, 1) } }
       [(Reg.SEM_CNT 0 63, 0x10000), (Reg.SE_CTX_STATUS 0 7, 1), (Reg.SE_CTX_CTRL 0 7, 3), (Reg.SE_CTX_FILL 0 7, 1), (Reg.SE_CTX_SEM 0 7, 63)]
     both.semBroken 0 63 = true ∧ (both.tile 0).evs = [] ∧ both.hs 0 + 1 < 2 ^ 20 ∧ (both.tile 0).gate = some ((63 : BitVec 6).toNat, 1, 0) ∧
      (both.tile 0).tc.waitSem = some ((63 : BitVec 6).toNat, 1) ∧ both.ctxLive 0 7 = true ∧ both.ctxOut 0 7 = true ∧ both.ctxSem 0 7 = 63 ∧
      (both.seCtx 0 7).reserved + (both.seCtx 0 7).granted < both.ctxFill 0 7) := by
  decide +kernel

/-! Tile cores. -/

/-- Tile core 0 of RUNNING partition 0, running at instruction 0, with further registers. -/
def tc (c : TcSt) (regs : SMap Word) : State := st { Tile.reset with tc := c } ((Reg.TC_STATUS 0, 1) :: regs)

/-- A tile core that waits for nothing. -/
def c0 : TcSt := Tile.reset.tc

theorem witness_TcIdle : TcIdle (tc c0 []) 0 ∧ noMoves (decodeMoves 0) ∧ notLoaded (decodeMoves 0) 31 :=
  ⟨tcIdle_of rfl (by decide +kernel), by unfold noMoves; decide, by unfold notLoaded; decide⟩

theorem witness_TcIntegerInstructions : TcIdle (tc c0 []) 0 ∧ (tcOpsT 0 (decodeMoves 0) ⟨31, 0, 0, true⟩).length = 25 ∧
    (tcOpsI 0 (decodeMoves 0) ⟨31, 0, 0⟩).length = 7 := ⟨witness_TcIdle.1, rfl, rfl⟩

theorem witness_IntegerArithmetic : (1 : Word) ≠ 0 ∧ ¬((0x80000000 : Word) = 0x80000000 ∧ (0xFFFFFFFE : Word) = 0xFFFFFFFF) ∧ 32 < 33 ∧
    0 < 32 ∧ 32 ≤ 32 := by decide

/-- A slice that adds with its pre-adder, and a logic element that takes its LUT. -/
def dsp0 : DspIn := ⟨0x7FFFFF, 3, 1, true, false, true, false, true, 1, 18⟩
def le0 : LeIn := ⟨0x8000000000000000, false, 63, 0, 0, true, false, 0, true, true, true⟩

theorem witness_IntegerArithmetic_fabric : dsp0.pre = true ∧ ({ dsp0 with pre := false } : DspIn).pre = false ∧ dsp0.enable = true ∧
    ({ dsp0 with enable := false } : DspIn).enable = false ∧ dsp0.sat = true ∧ ({ dsp0 with sat := false } : DspIn).sat = false ∧
    0 < dsp0.sh ∧ 0 < dsp0.width ∧ 6 < 7 ∧ 511 < bramDepth 6 ∧ 510 < bramDepth 6 ∧ 511 ≠ 510 ∧ 32767 < bramDepth 0 ∧
    le0.enable = true ∧ le0.clear = false ∧ le0.split = false ∧ ({ le0 with split := true } : LeIn).split = true ∧
    ({ le0 with enable := false } : LeIn).enable = false ∧ ({ le0 with clear := true } : LeIn).clear = true := by decide

theorem witness_TcWideInstructions : let trap := tc c0 [(Reg.TC_CTRL 0, 1)]
    TcIdle trap 0 ∧ (aluDivs false 1 0).2.2.dz = true ∧ trap.bit (Reg.TC_CTRL 0) 0 = true ∧ (aluDivu 1 1).2.2.dz = false ∧
    (tc c0 []).bit (Reg.TC_CTRL 0) 0 = false := ⟨tcIdle_of rfl (by decide +kernel), by decide +kernel⟩

theorem witness_TcFloatInstructions : let trap := tc c0 [(Reg.TC_CTRL 0, 2)]
    TcIdle trap 0 ∧ trap.bit (Reg.TC_CTRL 0) 1 = true ∧ (Fmt.fp32.addV (.inf false) (.inf true)).pair.2.getLsbD 8 = true ∧
    (Fmt.fp32.addV (.fin false 1 0) (.fin false 1 0)).pair.2.getLsbD 8 = false ∧
    (Fmt.fp32.decode 0x7FC00000).isNan = true ∧ (1 : Nat) ≠ 0 := ⟨tcIdle_of rfl (by decide +kernel), by decide +kernel⟩

theorem witness_ModstepIsCircular : (0 : BitVec 16) = 0 ∧ (24 : BitVec 16) ≠ 0 ∧ 8 * (24 : BitVec 16).toNat ≤ 2 ^ 8 ∧
    ∀ j, 8 * (24 : BitVec 16).toNat ≤ 2 ^ j → 8 ≤ j := by
  refine ⟨rfl, by decide, by decide, fun j h => ?_⟩
  by_contra hj
  have : 2 ^ j ≤ 2 ^ 7 := Nat.pow_le_pow_right (by decide) (by omega)
  simp at h; omega

theorem witness_TcPointersPortsFlags :
    let inb := tc c0 [(Reg.SE_CTX_STATUS 0 7, 1), (Reg.SE_CTX_CTRL 0 7, 1), (Reg.SE_CTX_FILL 0 7, 3)]
    let outb := tc c0 [(Reg.SE_CTX_STATUS 0 7, 1), (Reg.SE_CTX_CTRL 0 7, 3), (Reg.SE_CTX_FILL 0 7, 0x30000)]
    (TcIdle inb 0 ∧ inb.ctxLive 0 7 = true ∧ inb.ctxOut 0 7 = false ∧ inb.ctxFree 0 7 + inb.ctxFill 0 7 < 8192) ∧
    (TcIdle outb 0 ∧ outb.ctxLive 0 7 = true ∧ outb.ctxOut 0 7 = true ∧ outb.ctxFree 0 7 + outb.ctxFill 0 7 < 8192) ∧ 16 ≤ 16 :=
  ⟨⟨tcIdle_of rfl (by decide +kernel), by decide +kernel⟩, ⟨tcIdle_of rfl (by decide +kernel), by decide +kernel⟩, by decide⟩

theorem witness_TcBranchesAndLoops :
    let l : TcLoop := ⟨0, 9, 1⟩
    let three := tc { c0 with loops := [l, l, l] } []
    let four := tc { c0 with loops := [l, l, l, l] } []
    let zero := tc c0 [(Reg.TC_FLAGS 0, 2)]
    (TcIdle zero 0 ∧ condHolds 1 (zero.rd (Reg.TC_FLAGS 0)) = true ∧ condHolds 2 (zero.rd (Reg.TC_FLAGS 0)) = false) ∧
    (TcIdle three 0 ∧ (1023 : BitVec 10).toNat ≠ 0 ∧ (three.tile 0).tc.loops.length < 4) ∧
    (TcIdle four 0 ∧ (four.tile 0).tc.loops.length = 4 ∧ (0 : BitVec 10).toNat = 0) ∧ l.last ≠ 8 ∧ 0 < l.left :=
  ⟨⟨tcIdle_of rfl (by decide +kernel), by decide +kernel⟩, ⟨tcIdle_of rfl (by decide +kernel), by decide +kernel⟩,
    ⟨tcIdle_of rfl (by decide +kernel), by decide +kernel⟩, by decide⟩

theorem witness_TcWaitsAndHalts :
    let s := tc c0 [(Reg.SEM_CFG 0 63, 5), (Reg.SEM_CNT 0 63, 4), (Reg.TC_G 0 1, 0x00010007), (Reg.TC_EVENT 0, 0x8000)]
    let broken := tc c0 [(Reg.SEM_CFG 0 63, 5), (Reg.SEM_CNT 0 63, 0x10004)]
    TcIdle s 0 ∧ TcIdle broken 0 ∧ (broken.semBroken 0 63 = true ∧ broken.bit (Reg.SEM_FAULT 0) 0 = false) ∧ (s.semBroken 0 63 = false ∧ 0 < (4 : BitVec 12).toNat ∧ 4 ≤ s.semCount 0 63 ∧ s.semCount 0 63 < 5 ∧ 5 ≤ s.semCap 0 63 ∧
      s.semCap 0 63 < 6 ∧ s.semCount 0 63 + 1 ≤ s.semCap 0 63 ∧ (s.tile 0).gate = none ∧ s.tilePart 0 = some 0 ∧ s.part 0 = some x0 ∧
      0 < (s.g 0 1).toNat / 2 ^ 16 % 2 ^ 12 ∧ x0.firstCol ≤ (s.g 0 1).toNat % 128 / 8 ∧ (s.g 0 1).toNat % 128 / 8 ≤ x0.lastCol ∧
      s.bit (Reg.TC_EVENT 0) (15 : BitVec 4).toNat = true ∧ s.bit (Reg.TC_EVENT 0) (14 : BitVec 4).toNat = false) :=
  ⟨tcIdle_of rfl (by decide +kernel), tcIdle_of rfl (by decide +kernel), by decide +kernel⟩

theorem witness_TcMovesReachTheStore :
    let off := decodeMove 0
    let ld (size : BitVec 2) (sx : Bool) : Move := { off with en := true, size := size, sx := sx, mode := 3 }
    TcIdle (tc c0 []) 0 ∧ (tc c0 []).upsets = [] ∧ (off.en = false ∧ (ld 3 false).en = true ∧ (ld 0 true).st = false ∧ (ld 1 true).sx = true ∧
      (ld 2 false).size ≠ 3 ∧ { ld 3 false with st := true }.st = true ∧ (ld 2 false).loads = true ∧
      (let mv : Moves := ⟨ld 2 false, off⟩
       let two : Moves := ⟨ld 2 false, ld 1 true⟩
       two.x = mv.x ∧ mv.x.st = false ∧ mv.x.size ≠ 3 ∧ two.y.loads = true ∧ two.y.reg = mv.x.reg ∧ two.y.size ≠ 3)) :=
  ⟨tcIdle_of rfl (by decide +kernel), rfl, by decide +kernel⟩

/-! The stream engine. -/

/-- A tile record with the stream engine of a test. -/
def se (e : SeSt) (evs : List TileEv) : Tile := { Tile.reset with se := e, evs := evs }

/-- Rows and credits of a context. -/
def ctx (requested granted : Nat) : SeCtx := ⟨0, 0, requested, 0, granted, 0, granted, false, 0⟩

theorem witness_StreamEngineSteps :
    let dram := { st Tile.reset (dramRegs ++ [(Reg.SE_CTX_STATUS 0 7, 1), (Reg.SE_CTX_CTRL 0 7, 1), (Reg.SE_CTX_FILL 0 7, 0x30000)]) with routers := [] }
    let outb := st (se SeSt.reset []) [(Reg.SE_CTX_STATUS 0 7, 1), (Reg.SE_CTX_CTRL 0 7, 7), (Reg.SE_CTX_FILL 0 7, 9), (Reg.SEM_CNT 0 0, 9)]
    let broken := st (se SeSt.reset []) [(Reg.SE_CTX_STATUS 0 7, 1), (Reg.SE_CTX_CTRL 0 7, 7), (Reg.SE_CTX_FILL 0 7, 9), (Reg.SEM_CNT 0 0, 0x10009)]
    let w : RsvWait := ⟨1, false, 7, 4, 0, true⟩
    let grants := st (se { SeSt.reset with waiting := [w] } []) [(Reg.SE_CTX_STATUS 0 7, 1), (Reg.SE_CTX_CTRL 0 7, 5), (Reg.SE_CTX_FILL 0 7, 0x40000)]
    let l : Landing := ⟨7, 5, true⟩
    let wr : TileEv := ⟨2 ^ 20 - 8, 0, 0, .seSlot false 0x80⟩
    let write := st (se { SeSt.reset with landing := [l] } [wr]) [(Reg.SE_CTX_STATUS 0 7, 1), (Reg.SE_CTX_CTRL 0 7, 5), (Reg.SE_CTX_FILL 0 7, 0x10000)]
    let rd : TileEv := ⟨2 ^ 20 - 1, 0, 0, .seSlot true 0x80⟩
    let read := st (se { SeSt.reset with ctx := [(7, ctx 0 1)] } [rd]) [(Reg.SE_CTX_STATUS 0 7, 1), (Reg.SE_CTX_CTRL 0 7, 7), (Reg.SE_CTX_FILL 0 7, 1)]
    let r : RsvSent := ⟨7, 1, 4, 0⟩
    let sent := st (se { SeSt.reset with sent := [r] } []) []
    (dram.seChoose 0 false [7] = some 7 ∧ dram.dramReady 0 = [7] ∧ freeReq (dram.tile 0).se.reqs = some 0 ∧
      dram.legalDst 0 (Pkt.make (dram.dramPort 0 0) true 0 false ptDrd 7 0 0) = true ∧ (outb.dramReady 0 = [])) ∧
    (outb.ctxState 0 7 = 1 ∧ outb.ctxOut 0 7 = true ∧ outb.semBroken 0 (outb.ctxSem 0 7) = false ∧ outb.reserveRows 0 7 = 4 ∧
      ((outb.tile 0).se.sent.filter (fun r => r.dst == 0)).length < 2 ∧
      outb.legalDst 0 (Pkt.make 0 false 0 false ptReserve 0 3 0) = true) ∧
    ((broken.seCtx 0 7).reserved + (broken.seCtx 0 7).granted < broken.ctxFill 0 7 ∧ broken.semBroken 0 (broken.ctxSem 0 7) = true) ∧
    (takeFirst (fun r => grants.grantable 0 r) (grants.tile 0).se.waiting = some (w, []) ∧
      grants.legalDst 0 (Pkt.make 1 false 0 false ptGrant 7 3 0) = true) ∧
    ((write.tile 0).evs = [wr] ∧ (write.tile 0).se.landing = l :: [] ∧ (0x80 : BitVec 8).getLsbD 7 = true ∧ write.ctxLive 0 7 = true ∧
      write.ctxOut 0 7 = false ∧ 0 < write.ctxFree 0 7 ∧ write.ctxFill 0 7 < 8191 ∧ write.hs 0 ≤ 2 ^ 20 - 8) ∧
    ((read.tile 0).evs = [rd] ∧ read.ctxState 0 7 = 1 ∧ read.ctxOut 0 7 = true ∧ 0 < (read.seCtx 0 7).granted ∧
      (∀ d, d < 8 → d ≠ 7 → (read.seCtx 0 d).granted = 0) ∧ read.ctxKind 0 7 = 1 ∧ 0 < read.ctxFill 0 7 ∧ read.ctxFree 0 7 < 8191 ∧
      read.ctxDst 0 7 0 = (0, false) ∧ read.upsets = []) ∧
    ((sent.tile 0).se.sent.find? (fun r => r.ctx == 7) = some r ∧ (sent.tile 0).se.timedOut.contains 7 = false ∧
      (∀ r ∈ (sent.tile 0).se.sent, r.ctx ≠ 6) ∧ sent.fwLost = false ∧ sent.log.length < 4096) := by decide +kernel

/-- In the read slot of the witness the packet is legal whatever its row. -/
theorem witness_StreamEngineSteps_row (v : Row) :
    (st (se SeSt.reset []) []).legalDst 0 (Pkt.make 0 false 0 false ptPush 0 0 v) = true := by
  have h : (st (se SeSt.reset []) []).legalDst 0 (Pkt.make 0 false 0 false ptPush 0 0 0) = true := by decide +kernel
  exact h

/-- A packet for tile 0 from tile 1 of partition 0. -/
def pkt (ty arg : Nat) : Pkt := { Pkt.make 0 false 1 false ty 7 arg 0 with part := 0, len := if pktClass ty = 1 then 16 else 0 }

/-- The router of tile 0 belongs to partition 0. -/
def own : SMap Word := [(Reg.RTR_PART 0, 0x10)]

theorem witness_PacketsReachATile :
    let s := st Tile.reset own
    let granted := st (se { SeSt.reset with sent := [⟨7, 1, 4, 0⟩] } []) (own ++ [(Reg.SE_CTX_CTRL 0 7, 3)])
    let room := st (se { SeSt.reset with ctx := [(7, ctx 1 0)] } []) (own ++ [(Reg.SE_CTX_STATUS 0 7, 1), (Reg.SE_CTX_CTRL 0 7, 5)])
    (∀ ty ∈ [ptReserve, ptGrant, ptPush, ptSignal, ptSigack, ptDrdr, ptDwra], Safety.Taken s (pkt ty 3) ty) ∧
    (Safety.Taken granted (pkt ptGrant 3) ptGrant ∧ (granted.tile 0).se.sent = ⟨7, 1, 4, 0⟩ :: [] ∧ srcCode (pkt ptGrant 3) = 1 ∧
      granted.ctxTag 0 7 = (pkt ptGrant 3).ctx.toNat) ∧
    (Safety.Taken room (pkt ptPush 0) ptPush ∧ room.ctxLive 0 7 = true ∧ room.ctxOut 0 7 = false ∧ (room.tile 0).se.landing = [] ∧
      0 < (room.seCtx 0 7).requested ∧ s.ctxLive 0 7 = false) := by unfold Safety.Taken; decide +kernel

theorem witness_PacketsReachATile_signals :
    let sem := st Tile.reset (own ++ [(Reg.SEM_CFG 0 63, 5), (Reg.SEM_CNT 0 63, 4)])
    let acks := st { Tile.reset with remoteOut := [(1, 63, false)] } own
    (Safety.Taken sem (pkt ptSignal (63 + 2 ^ 16)) ptSignal ∧ sem.semBroken 0 63 = false ∧ sem.semCount 0 63 + 1 ≤ sem.semCap 0 63 ∧
      sem.semCap 0 63 < sem.semCount 0 63 + 2 ∧ sem.inBeat 0 = false ∧
      ({ sem with parts := [(0, { x0 with beatOpen := true })] } : State).inBeat 0 = true ∧ (2 ^ 36 + 2 ^ 32) / 2 ^ 36 % 2 = 1 ∧ (2 ^ 36 + 2 ^ 32) / 2 ^ 32 % 16 ≠ sem.fld (Reg.SEQ_BEAT_MS_LO 0) 0 4) ∧
    (Safety.Taken acks (pkt ptSigack 63) ptSigack ∧ (acks.tile 0).remoteOut = ((pkt ptSigack 63).src.toNat, 63, false) :: []) := by
  unfold Safety.Taken; decide +kernel

theorem witness_PacketsReachATile_dram :
    let req (c : Bool) := st (se { SeSt.reset with reqs := [⟨31, 7, 0, c, true⟩] } []) (own ++ [(Reg.SE_CTX_STATUS 0 7, 1)])
    let dwr := st (se { SeSt.reset with dwr := [(7, 5)] } []) (own ++ [(Reg.SE_CTX_STATUS 0 7, 1), (Reg.SE_CTX_CTRL 0 7, 3), (Reg.SEM_CFG 0 0, 5)])
    (Safety.Taken (req false) (pkt ptDrdr (31 * 2 ^ 40)) ptDrdr ∧ ((req true).tile 0).se.reqs = ⟨31, 7, 0, true, true⟩ :: [] ∧
      (pkt ptDrdr (31 * 2 ^ 40)).arg.toNat / 2 ^ 40 % 32 = 31 ∧ (pkt ptDrdr (2 ^ 47 + 31 * 2 ^ 40)).arg.toNat / 2 ^ 47 % 2 = 1 ∧
      (req false).ctxLive 0 7 = true ∧ (req false).inBeat 0 = false) ∧
    (Safety.Taken dwr (pkt ptDwra 5) ptDwra ∧ (dwr.tile 0).se.dwr = (7, 5) :: [] ∧ dwr.ctxLive 0 7 = true ∧
      dwr.semCount 0 (dwr.ctxSem 0 7) < dwr.semCap 0 (dwr.ctxSem 0 7) ∧ dwr.semBroken 0 (dwr.ctxSem 0 7) = false) := by
  unfold Safety.Taken; decide +kernel

theorem witness_PacketsReachATile_dropped :
    let s := st Tile.reset own
    let hub : Pkt := { Pkt.make 0 false 0x30 true ptMreq 0 8191 0 with part := 0 }
    ((pkt ptPush 0).dkind = false ∧ { pkt ptPush 0 with len := 0 }.formed = false ∧ s.ownsPkt 0 { pkt ptPush 0 with part := 1 } = false ∧
      { pkt ptPush 0 with gen := 1 }.gen.toNat ≠ s.fld (Reg.TILE_PART 0) 8 8) ∧
    ((st { Tile.reset with abandoned := [0] } own).tile 0).abandoned.contains (pkt ptPush 0).bt.toNat = true ∧
    (hub.formed = true ∧ { hub with len := 16 }.formed = true ∧ s.mgmtOpen 0 = false ∧ (sp x0 0 []).mgmtOpen 0 = true ∧ s.upsets = [] ∧
      (s.tile 0).flights = []) := by decide +kernel

theorem witness_RoutersForward :
    let p : Pkt := Pkt.make 5 false 5 false ptReserve 0 0 0
    let q : Pkt := { Pkt.make 1 false 0 false ptReserve 0 0 0 with part := 0 }
    let own := [(Reg.RTR_PART 5, 0x10)]
    let s := { sp x0 2 own with routers := [(5, { Router.reset with inject := [p] })] }
    let f : Flit := ⟨q, 0⟩
    let fw (regs : SMap Word) := { sp x0 2 regs with routers := [(0, { Router.reset with queues := [(34, [f])] })] }
    let wraps := { State.reset with regs := (List.range 128).map (fun a => (Reg.RTR_PART a, 0x10000)) }
    ((∀ x, x < 128 → wraps.bit (Reg.RTR_PART x) 16 = true) ∧ pktClass p.type.toNat ≠ 2 ∧ pktClass ptMreq = 2) ∧
    ((∀ q ∈ (State.reset.router 0).queues, q.2 = []) ∧ (State.reset.router 0).inject = [] ∧ (State.reset.router 0).injectEdge = [] ∧
      (State.reset.router 0).entering = []) ∧
    (s.router 5 = { Router.reset with inject := [p] } ∧ p.dst.toNat = 5 ∧ p.dkind = false ∧ p.type.toNat < 10 ∧ p.len = 0 ∧
      s.bit (Reg.RTR_STATUS 5) 16 = false ∧ s.bit (Reg.RTR_PART 5) 4 = true ∧ s.fld (Reg.RTR_PART 5) 0 4 = s.fld (Reg.TILE_PART 5) 0 4 ∧
      (∀ k, k < 4 → s.bit (Reg.PRB_CTRL 5 k) 0 = false ∧ s.bit (Reg.PRB_CTRL 5 k) 7 = false)) ∧
    ((fw []).router 0 = { Router.reset with queues := [(34, [f])] } ∧ f.i = 0 ∧ 1 ≤ (fw []).routePort 0 q ∧ (fw []).routePort 0 q ≤ 4 ∧
      (∀ k, k < 4 → ∀ b ∈ [0, 7], (fw []).bit (Reg.PRB_CTRL 0 k) b = false ∧
        (fw []).bit (Reg.PRB_CTRL (neighbour 0 ((fw []).routePort 0 q)).1 k) b = false) ∧
      (∀ vc, vc < 5 → (SMap.get ((fw []).router (neighbour 0 ((fw []).routePort 0 q)).1).queues []
        ((neighbour 0 ((fw []).routePort 0 q)).2 * 5 + vc)).length < vcRoom vc) ∧
      (fw []).bit (Reg.RTR_STATUS (neighbour 0 ((fw []).routePort 0 q)).1) (16 + (neighbour 0 ((fw []).routePort 0 q)).2) = false ∧
      (fw []).routerRefuses (neighbour 0 ((fw []).routePort 0 q)).1 q = true ∧
      (fw [(Reg.RTR_PART 1, 0x10)]).routerRefuses 1 q = false ∧ (neighbour 0 ((fw []).routePort 0 q)).1 = 1) ∧
    (let closed := { sp x0 2 [(Reg.RTR_STATUS 143, 0x7F0000)] with routers := [(143, { Router.reset with inject := [p] })] };
      closed.fld (Reg.RTR_STATUS 143) 16 7 = 0x7F ∧ (closed.router 143).inject = p :: []) := by decide +kernel

theorem witness_StorePatrol :
    let e (kind : Nat) : Upset := ⟨0, kind, 1⟩
    let s := sp x0 0 [(Reg.ST_CTRL 0, 1), (Reg.ST_SCRUB_POS_Y 0, 0x7FFFF)]
    let up (k : Nat) : State := { s with upsets := [e k] }
    let wb := { sp x0 0 [] with tiles := [(0, { Tile.reset with ceQueue := [0] })] }
    (s.scrubAllowed 0 true = true ∧ s.scrubAllowed 0 false = true ∧ s.bit (Reg.ST_CTRL 0) 0 = true ∧ (s.tile 0).ceQueue = [] ∧ s.upsets = [] ∧
      s.fld (scrubReg 0 true) 0 19 = 2 ^ 19 - 1 ∧ s.fld (scrubReg 0 false) 0 19 = 0) ∧
    (s.scrubAllowed 143 true = true ∧ (sp x0 0 [(Reg.ST_CTRL 143, 1)]).bit (Reg.ST_CTRL 143) 0 = true ∧ (s.tile 143).ceQueue = []) ∧
    (∀ k ∈ [0, 2], (up k).upsets = [e k] ∧ (e k).word = ((up k).storeBase 0 + narrowAddr false (8 * (up k).fld (scrubReg 0 false) 0 19)) / 8) ∧
    ((sp x0 0 [(Reg.ST_CTRL 0, 0)]).bit (Reg.ST_CTRL 0) 0 = false ∧ (wb.tile 0).ceQueue = 0 :: [] ∧ wb.scrubAllowed 0 false = true) := by
  decide +kernel

/-! Edge ports, configuration, DRAM. -/

/-- A state in which partition 0's north edge port 0 is live, with an edge record. -/
def ed (x : EdgeSt) : State :=
  { sp x0 0 [(Reg.EDGE_CTRL 0, 0x20040), (Reg.FAB_PART_RELCTL 0, 0x200)] with edges := [(0, x)] }

/-- Sixteen beats of a burst pair for destination 63, without bubbles. -/
def beats : List EpClk := (List.range 16).map (fun i => ⟨true, i % 8 == 0, 63, 0⟩)

/-- A packet of tile 0 for edge port 0. -/
def epkt (ty arg : Nat) : Pkt := { Pkt.make 0 true 0 false ty 7 arg 0 with part := 0, len := if pktClass ty = 1 then 16 else 0 }

/-- A row of tile 7 bound for a tile, as an edge port sends it. -/
def rowPkt : Pkt := { Pkt.make 0 false 0 true ptPush 7 0 5 with part := 0, len := 16 }

theorem witness_EdgePortsPassRows :
    let idle := ed { EdgeSt.reset with creditCnt := [(63, 1)] }
    let open_ := ed { EdgeSt.reset with pair := some ⟨63, true, false, 8, 0, 0⟩ }
    let rel := ed { EdgeSt.reset with released := [⟨0, 7, 0, 5⟩] }
    let left (again : Bool) := ed { EdgeSt.reset with rows := [(rowPkt, again)], offered := true }
    let again := ed { EdgeSt.reset with rows := [(rowPkt, true), (rowPkt, false)], waits := true }
    (idle.edgeLive 0 = true ∧ idle.sectRuns 0 = true ∧ (idle.edge 0).pair = none ∧ idle.edgeReady 0 = true ∧ (idle.edge 0).rows = [] ∧ (idle.edge 0).waits = false ∧
      (idle.edge 0).offered = false ∧ beats.length = 16 ∧
      (∀ i, i < 16 → (beats[i]?).map (fun c => (c.valid, c.sob, c.dest)) = some (true, decide (i % 8 = 0), 63)) ∧
      idle.fld (Reg.EDGE_CTRL 0) 0 16 ≠ 0 ∧ 0 < SMap.get (idle.edge 0).creditCnt 0 63 ∧ SMap.get (rel.edge 0).creditCnt 0 63 = 0) ∧
    ((open_.edge 0).pair = some ⟨63, true, false, 8, 0, 0⟩ ∧ open_.bit (Reg.EDGE_CTRL 0) 16 = false ∧ open_.edgeConnected 0 = true) ∧
    ((idle.edge 0).rows = [] ∧ (again.edge 0).rows = (rowPkt, true) :: [(rowPkt, false)] ∧ (again.edge 0).offered = false) ∧
    (∀ b ∈ [true, false], ((left b).edge 0).rows = [(rowPkt, b)] ∧ ((left b).edge 0).offered = true) ∧
    ((rel.edge 0).released = ⟨0, 7, 0, 5⟩ :: [] ∧ rel.edgeConnected 0 = true ∧ rel.sectRuns 0 = true ∧ (rel.edge 0).waiting = [] ∧ (rel.edge 0).outBeat = 0) := by
  decide +kernel

theorem witness_EdgePortsPassRows_packets :
    let s := { ed EdgeSt.reset with regs := (Reg.SE_CTX_CTRL 0 7, 11) :: (ed EdgeSt.reset).regs }
    let full := { s with edges := [(0, { EdgeSt.reset with staged := List.replicate 62 ⟨0, 7, 0, 5⟩ })] }
    let granted := { s with edges := [(0, { EdgeSt.reset with grants := [⟨0, 7, 4, 0, false, 0⟩] })] }
    (∀ ty ∈ [ptReserve, ptPush, ptCredit], TakenAtEdge s (epkt ty 3) ty) ∧
    ((s.edge 0).waiting = [] ∧ s.ctxKind 0 7 ≠ 3 ∧ s.ctxKind 0 7 ≠ 0 ∧ 4 ≤ EdgeSt_room (s.edge 0) ∧ EdgeSt_room (full.edge 0) < 4 ∧
      (s.edge 0).inLow = (!(s.edgeReady 0)) ∧ s.edgeConnected 0 = true) ∧
    (useGrant 0 7 false (granted.edge 0).grants = some [⟨0, 7, 3, 0, false, 0⟩] ∧ EdgeSt_outcome (granted.edge 0) 0 = none ∧
      (∀ o ∈ [0, 1], EdgeSt_outcome ({ granted.edge 0 with outcomes := [(4, o)] } : EdgeSt) 0 = some o) ∧
      useGrant 0 7 false (s.edge 0).grants = none ∧ s.inChan 0 0 7 = none) ∧
    ({ epkt ptPush 0 with len := 0 }.formed = false ∧ s.edgeOwner 0 ≠ some { epkt ptPush 0 with part := 1 }.part.toNat ∧
      { epkt ptPush 0 with gen := 1 }.gen.toNat ≠ s.partGen (some 0)) := by unfold TakenAtEdge; decide +kernel

/-- A load of the fabric slot or of partition 0 under way. -/
def ld (hdr : List Byte) (sync : Bool) : LoadSt :=
  ⟨.load 0, 1, hdr, sync, 0, 0, 0, 16, [], 0, false, 0, 0, false, []⟩

/-- The commands of a load that waits. -/
def ldState (l : Option LoadSt) : State :=
  { on x0 0 0x22 [(Reg.CFG_PERMIT, 0x10001)] with
    mbx := [(0, { MbxFn.reset with enabled := true, running := some ⟨0x22, 7, some r0, .load, false⟩ })]
    cfg := { State.reset.cfg with load := l } }

/-- The fabric slot is in the directory, and B9 uses it. -/
def slotState (s : State) : State := { s with boot := { BootSt.reset with steps := [9], slots := [⟨2, 0, 0, 0⟩] } }

theorem witness_ImagesLoadAndStayIntact_header :
    let slot := slotState (ldState none)
    let taken := slotState { ldState none with parts := [(3, x0)] }
    ((ldState none).loadWanted (.load 0) = true ∧ (ldState none).hdrStands (.load 0) (hdrOf 2 0 0) = true ∧
      slot.loadWanted (.slot 2) = true ∧ slot.hdrStands (.slot 2) (hdrOf 3 0 0) = true ∧ taken.loadWanted (.slot 2) = true) ∧
    (hdrReason (ldState none).fuses ((ldState none).rd Reg.CFG_IDCODE) (srcKinds (.load 0)) (hdrOf 2 0 0) = none ∧
      hdrReason (ldState none).fuses ((ldState none).rd Reg.CFG_IDCODE) (srcKinds (.load 0)) (hdrOf 1 0 0) = some 1 ∧
      hdrReason slot.fuses (slot.rd Reg.CFG_IDCODE) (srcKinds (.slot 2)) (hdrOf 3 0 0) = none ∧
      slot.bootPermit (hdrOf 3 0 0) ≠ 0 ∧ hdrSectors (hdrOf 3 0 0) = slot.bootPermit (hdrOf 3 0 0) ∧ hdrKind (hdrOf 3 0 0) ≠ 0 ∧
      taken.bootPermit (hdrOf 3 0 0) = 0) := by
  have f (k lo n : Nat) (h : lo + n ≤ 480) := hdrOf_field k 0 0 lo n h
  refine ⟨⟨by decide +kernel, rfl, by decide +kernel, by decide +kernel, by decide +kernel⟩, ?_⟩
  simp only [State.bootPermit, hdrReason, hdrOf_length, hdrOf_crc, hdrKind, hdrEnc, hdrSectors, hdrLayoutSectors, f _ 0 4 (by decide),
    f _ 4 2 (by decide), f _ 8 4 (by decide), f _ 6 1 (by decide), f _ 7 1 (by decide), f _ 12 4 (by decide), f _ 32 1 (by decide),
    f _ 32 2 (by decide), ne_eq, not_true_eq_false, or_self, if_false]
  decide +kernel

theorem witness_ImagesLoadAndStayIntact_body :
    let plain := hdrOf 2 0 0
    let enc := hdrOf 2 1 0
    let room := { ld enc true with segLen := 2 ^ 20 }
    (hdrKind plain ≠ 0 ∧ hdrEnc plain = false ∧ (ld plain false).sync = false ∧ (ld plain true).sync = true ∧
      (ld plain true).ended = false ∧ (ld plain true).rolled = false ∧ hdrMapOff plain = 0) ∧
    (hdrKind enc ≠ 0 ∧ hdrEnc enc = true ∧ segLenOk (ld enc false).segLen = true ∧ segLenOk (2 ^ 20) = true) ∧
    (addrOk 3839 1 = true ∧ addrOk 3840 1 = false ∧ (ld plain true).permit.testBit (faSector 3839) = true ∧
      (ld plain true).permit.testBit (faSector (2 ^ 15)) = false ∧ addrOk (2 ^ 15) 1 = true) ∧
    (room.bytes.length + (8 + 512 * 1) ≤ room.segLen ∧ room.bytes.length + 48 ≤ room.segLen) := by decide +kernel

/-- A header that holds the digest of a body, and one that does not; a tag of a segment, and one that is none. -/
theorem witness_ImagesLoadAndStayIntact_digests (body : List Byte) (key iv : Nat) (aad cipher : List Byte) :
    sha384 body = hdrField (hdrOf 2 0 (sha384 body)) 112 48 ∧ sha384 body ≠ hdrField (hdrOf 2 0 (sha384 body + 1)) 112 48 ∧
    gcmTag key iv aad cipher = (Config.gcmTag key iv aad cipher).toNat ∧
    gcmTag key iv aad cipher ≠ (Config.gcmTag key iv aad cipher + 1).toNat := by
  refine ⟨?_, ?_, rfl, ?_⟩
  · rw [hdrOf_digest]; exact (Nat.mod_eq_of_lt (Config.sha384 body).isLt).symm
  · rw [hdrOf_digest]
    have lt : sha384 body < 256 ^ 48 := (Config.sha384 body).isLt
    have big : 1 < 256 ^ 48 := Nat.one_lt_pow (by decide) (by decide)
    generalize 256 ^ 48 = m at lt big ⊢
    intro h
    by_cases hm : sha384 body + 1 < m
    · rw [Nat.mod_eq_of_lt hm] at h; omega
    · have e : sha384 body + 1 = m := by omega
      rw [e, Nat.mod_self] at h; omega
  · have h : ∀ x : BitVec 128, x.toNat ≠ (x + 1).toNat := fun x => by
      have lt := x.isLt
      rw [BitVec.toNat_add, show (1 : BitVec 128).toNat = 1 from rfl]
      have big : 1 < 2 ^ 128 := by decide
      generalize 2 ^ 128 = m at lt big ⊢
      intro h
      by_cases hm : x.toNat + 1 < m
      · rw [Nat.mod_eq_of_lt hm] at h; omega
      · have e : x.toNat + 1 = m := by omega
        rw [e, Nat.mod_self] at h; omega
    exact h _

theorem witness_ImagesLoadAndStayIntact_tail :
    let rel (stage : Word) := sp { x0 with releasing := true } 0 [(Reg.FAB_PART_RELCTL 0, stage)]
    let scrub := sp x0 0 [(Reg.CFG_SCRUB_CTRL, 1), (Reg.CFG_LOADED, 0xFFFFFFFF), (Reg.CFG_SCRUB_POS, 0x1F0EFF)]
    ((rel 0x100).part 0 = some { x0 with releasing := true } ∧ (rel 0x100).relStage 0 < 2 ∧ 2 ≤ (rel 0x200).relStage 0 ∧
      (ldState none).loadFn 0 = some 0 ∧ (ldState none).fwLost = false) ∧
    (scrub.bit Reg.CFG_SCRUB_CTRL 0 = true ∧ scrub.fld Reg.CFG_SCRUB_POS 16 5 = 31 ∧ scrub.fld Reg.CFG_SCRUB_POS 0 12 = 3839 ∧
      scrub.scrubReads 31 = true ∧ scrub.frameFlips (31 * 2 ^ 15 + 3839) = 0) ∧
    (State.reset.refReaches 23 .time = true ∧ State.reset.refReaches 0 (.pin 0 0) = false ∧ State.reset.rungFrom (State.reset.pllOwner 0) 3 = false ∧
      (let s := sp { x0 with rung := 3 } 0 []
       s.rungFrom (s.pllOwner 0) 3 = true)) ∧
    (State.reset.fuses.efuseKey = none ∧ ({ State.reset.fuses with efuseKey := some 1 } : FuseSt).efuseKey ≠ none) := by decide +kernel

/-- A state in which partition 0 holds the first 16 GiB of the DRAM, and hub port 0 room that it granted. -/
def dr (x : DramCh) (regs : SMap Word) : State :=
  { sp x0 0 (regs ++ dramRegs ++ [(Reg.DDR_PART_RANGE 0, 0x80000000), (Reg.DDR_PART_LIMIT 0, 0x4000), (Reg.FAB_PART_RELCTL 0, 0x200)]) with
    dramCh := [(0, x)], edges := [(0, { EdgeSt.reset with grants := [⟨0, 7, 1, 0, true, 0⟩] })] }

/-- A request at address 0, in a state of its service. -/
def rq (write issued : Bool) (to_ : DramTo) : DramReq := ⟨1, 0, 0, write, 0, 1024, 5, issued, false, 0, 0, some 0, to_, none⟩

theorem witness_DramServesItsPorts :
    let s := dr DramCh.reset []
    let off := dr DramCh.reset [(Reg.DDR_CTRL 0, 0)]
    let forced := dr { DramCh.reset with debt := [(7, 8)] } [(Reg.DDR_REF_CTRL 0, 8)]
    let r := rq false false (.tile (epkt ptDrd 0))
    let row := s.reqRow 0 r
    let b := s.reqBank 0 r
    let q (rows : List (Nat × Nat)) := dr { DramCh.reset with queue := [r], rows := rows } []
    let done (w : Bool) := rq w true (.tile (epkt (if w then ptDwr else ptDrd) 0))
    let comp (w : Bool) := dr { DramCh.reset with queue := [done w] } []
    (TakenAtEdge s (epkt ptDrd 0) ptDrd ∧ TakenAtEdge s (epkt ptDwr 0) ptDwr ∧ s.inRange 0 0 1024 = true ∧ s.inRange 0 (2 ^ 34) 1024 = false ∧
      s.dramHole 0 = false ∧ (s.dramLoc 0).1 / 4 = 0 ∧ s.ddrServes 0 = true ∧ off.ddrServes 0 = false ∧
      useGrant 0 7 true (s.edge 0).grants = some [] ∧ useGrant 0 7 true [] = none ∧
      s.undone (epkt ptDwr 0) = false ∧ (let u := { s with edges := [(0, { EdgeSt.reset with outcomes := [(4, 1)] })] }
        TakenAtEdge u (epkt ptDwr 0) ptDwr ∧ u.undone (epkt ptDwr 0) = true)) ∧
    (s.colPart 0 = some 0 ∧ 2 ≤ s.relStage 0 ∧ s.fabOutstanding 0 < 64 ∧ (s.dch 0).upsets = [] ∧ (∀ r ∈ s.fabReqs, ¬ (r.hub = 0 ∧ r.src = 0))) ∧
    (s.pickReq 0 [r] = some r ∧ s.ddrState 0 = 2 ∧ (s.dch 0).due = [] ∧ (forced.forcedIdx 0).find? (fun i => ([7] : List Nat).contains i) = some 7) ∧
    ((q []).forcedIdx 0 = [] ∧ ((q []).dch 0).queue = [r] ∧ openRowOf ((q []).dch 0).rows b = none ∧
      openRowOf ((q [(b, row)]).dch 0).rows b = some row ∧ openRowOf ((q [(b, row + 1)]).dch 0).rows b = some (row + 1) ∧ row + 1 ≠ row) ∧
    (∀ w ∈ [true, false], ((comp w).dch 0).queue.find? (fun r => r.id == (done w).id) = some (done w) ∧ (done w).port < 4 ∧ (done w).taken = none ∧
      (∀ r ∈ ((comp w).dch 0).queue, r.port = 0 → r.src = 0 → 1 ≤ r.id) ∧ ((comp w).dch 0).upsets = [] ∧ ((comp w).dramLoc 0).2 % 64 = 0) := by
  unfold TakenAtEdge; refine ⟨?_, ?_, ?_, ?_, ?_⟩ <;> decide +kernel

theorem witness_DramServesItsPorts_others :
    let f : DramReq := { rq false true (.fab 9) with port := 4 }
    let p : DramReq := { rq false true .patrol with port := 5, src := 18, len := 64 }
    let fab := { dr { DramCh.reset with queue := [f] } [] with fabReqs := [⟨0, 0, 9, none⟩] }
    let pat := dr { DramCh.reset with queue := [p] } []
    let find (u : Bool) : DramFind := ⟨0, u, false, 0⟩
    ((fab.dch 0).queue.find? (fun r => r.id == f.id) = some f ∧ f.port = 4 ∧ (∀ r ∈ (fab.dch 0).queue, r.port = 4 → r.src = f.src → f.id ≤ r.id) ∧
      fab.fabReqs = [⟨0, 0, 9, none⟩] ∧ (fab.dch 0).upsets = [] ∧
      f.taken = none ∧ f.write = false ∧ (fab.dramLoc f.addr).2 = 0 ∧ (0 : Nat) ∈ burstsOf 0 f.len) ∧
    ((pat.dch 0).queue.find? (fun r => r.id == p.id) = some p ∧ p.issued = true ∧ (∀ r ∈ (pat.dch 0).queue, r.port = p.port → r.src = p.src → p.id ≤ r.id) ∧
      (pat.dramLoc p.addr).2 % 64 = 0 ∧ (pat.dch 0).upsets = [] ∧ p.taken = none ∧ p.len = 64) ∧
    (∀ u ∈ [true, false], (find u).burst = 0 ∧ (find u).uncorrectable = u ∧ (find u).check = false) := by decide +kernel

theorem witness_DramServesItsPorts_states :
    let in_ (st : Word) (due : List Pause) (queue : List DramReq) := dr { DramCh.reset with wb := [5], upsets := [(5, 0, 0)], due := due, queue := queue }
      [(Reg.DDR_STATUS 0, st), (Reg.DDR_SR_CTRL 0, 1), (Reg.DDR_REF_CTRL 0, 8), (Reg.DDR_SCRUB_CTRL 0, 0x80000000)]
    let near := dr { DramCh.reset with debt := [(7, 7)] } [(Reg.DDR_REF_CTRL 0, 8)]
    ((in_ 2 [] []).ddrState 0 = 2 ∧ (in_ 3 [] []).ddrState 0 = 3 ∧ (in_ 5 [] []).ddrState 0 = 5 ∧ (in_ 6 [] []).ddrState 0 = 6) ∧
    ((in_ 2 [] []).dch 0).queue = [] ∧ ((in_ 2 [] []).dch 0).waiting = [] ∧ (in_ 2 [] []).fld (Reg.DDR_SR_CTRL 0) 0 14 ≠ 0 ∧
    ((in_ 2 [] []).dch 0).held = false ∧ (in_ 2 [] []).debtNear 0 = false ∧ near.debtNear 0 = true ∧ near.ddrState 0 = 2 ∧
    (((in_ 3 [⟨0, 0, 0, 0, true, 0⟩] [rq false false .posted]).dch 0).waiting ≠ [] ∧ ((in_ 3 [⟨0, 0, 0, 0, true, 0⟩] []).dch 0).due ≠ [] ∧
      (in_ 3 [⟨0, 0, 0, 0, true, 0⟩] []).debtNear 0 = false ∧ ((in_ 3 [] [rq false false .posted]).dch 0).due = []) ∧
    (in_ 2 [] []).bit (Reg.DDR_SCRUB_CTRL 0) 31 = true ∧ ((in_ 2 [] []).dch 0).wb = 5 :: [] ∧ (in_ 2 [] []).bit (Reg.DDR_CTRL 0) 0 = true := by
  decide +kernel
/-! Links. -/

/-- Partition 0 RUNNING, with a lane in a state of R243 and further registers; lane and port `n` alike. -/
def ln (n : Nat) (st : Word) (x : Lane) (regs : SMap Word) : State :=
  { sp x0 2 ((Reg.TPL_LANE_STATUS n, st) :: regs) with lanes := [(n, x)] }

/-- Port `n` of one lane, up, with a record. -/
def pt (n : Nat) (y : PortSt) (regs : SMap Word) : State :=
  { ln n 4 Lane.reset ([(Reg.TPL_PORT_CTRL n, 1), (Reg.TPL_PORT_STATUS n, 1)] ++ regs) with ports := [(n, y)] }

/-- A header. -/
def hd (vc seq : Nat) : FlitHdr := ⟨BitVec.ofNat 4 vc, BitVec.ofNat 12 seq, 0xFFF, 0, 1, 0⟩

/-- A codeword whose symbols from place `a` are these, 0 elsewhere. -/
def wordAt (a : Nat) (c : List Nat) : List Nat := List.replicate a 0 ++ c ++ List.replicate (272 - a - c.length) 0

theorem frameIn_of (s : State) (n : Nat) (f : List (BitVec 2)) (h : (s.fld (Reg.TPL_LANE_CTRL n) 1 2 == 2) = false)
    (i : s.bit (Reg.TPL_LANE_CTRL n) 4 = false) : s.frameIn n ⟨f⟩ = frameWords false f := by
  rw [State.frameIn, h, i]; rfl

/-- What the first bytes of a frame of one codeword are. -/
theorem frame_bytes (s : State) (n a k : Nat) (c : List Nat) (bs : List Byte)
    (hc : (s.fld (Reg.TPL_LANE_CTRL n) 1 2 == 2) = false ∧ s.bit (Reg.TPL_LANE_CTRL n) 4 = false)
    (hs : ∀ x ∈ gfPowers 2 1 14, gfEval c x = 0)
    (h : (wordAt a c).length = 272 ∧ (wordAt a c).map (fun x => ofBits (bitsOf x 10)) = wordAt a c ∧ 8 * k ≤ 2580 ∧ 0 < k)
    (hb : (chunks 8 k ((((wordAt a c).take 258).flatMap (fun x => bitsOf x 10)).take (8 * k))).map (fun b => BitVec.ofNat 8 (ofBits b)) = bs) :
    payloadBytes (s.frameIn n ⟨frameOf (wordAt a c)⟩) 0 k = some bs := by
  rw [frameIn_of s n _ hc.1 hc.2, payloadBytes_frameOf _ _ h.1 (fun x hx => gfEval_zeros _ _ _ _ (hs x hx)) h.2.1 h.2.2.1 h.2.2.2, hb]

/-- A training set with a request that is allowed, one with the reserved form, and the coefficients of frames that carry them;
each frame's symbols are a multiple of the generator polynomial of R237. -/
def tosGood : List Byte := [37, 129, 117, 176, 116, 219, 220, 78]
def tosBad : List Byte := [206, 254, 165, 28, 78, 122, 82, 81]
def codeGood : List Nat := [9, 385, 470, 775, 310, 988, 314, 228, 198, 712, 36, 449, 281, 914, 668, 449, 592]
def codeBad : List Nat := [51, 766, 660, 452, 926, 594, 326, 917, 313, 300, 745, 44, 536, 687, 393, 278, 122]
def codeData : List Nat := [4, 571, 24, 742, 128, 594, 623, 523, 394, 533, 338, 45, 735, 129, 713]

theorem witness_LanesAndPortsWork_send :
    let done := ln 95 3 { Lane.reset with toData := some 4, tx := List.replicate 40 (List.replicate 128 7) } []
    (∀ n ∈ [0, 95], (ln n 5 Lane.reset []).laneState n ≠ 0 ∧ ((ln n 5 Lane.reset []).lane n).toData = none ∧
      (ln n 1 Lane.reset []).laneState n = 1) ∧
    (done.laneState 95 ≠ 0 ∧ (done.lane 95).toData = some 4 ∧ (4 : Nat) ≤ 4 ∧ (done.lane 95).tx.length = 40) ∧
    (∀ n ∈ [0, 95], let s := { pt n PortSt.reset [] with lanes := [(n, { Lane.reset with toData := some 4, asked := true })] }
      s.laneState n = 4 ∧ (s.lane n).toData = some 4 ∧ (s.lane n).tx = [] ∧ (s.lane n).asked = true ∧ s.lanePort n = some n ∧
      s.portIsUp n = true ∧ s.fld (Reg.TPL_PORT_CTRL n) 1 2 = 0) := by decide +kernel

/-- The first bytes of the frames: a good training set, a reserved one, and a DATA frame. -/
theorem witness_LanesAndPortsWork_frames (n : Nat) (hn : n = 0 ∨ n = 95) :
    let s := ln n 2 Lane.reset []
    let d := pt n PortSt.reset []
    (∃ h, payloadBytes (s.frameIn n ⟨frameOf (wordAt 6 codeGood)⟩) 0 40 = some h ∧ h.headD 1 = 0 ∧
      ([0, 1, 2, 3].map (fun i => (h.drop (8 + 8 * i)).take 8)).filter (fun t => ofBytes (t.drop 6) == crc16 (t.take 6)) = [tosGood]) ∧
    (∃ h, payloadBytes (s.frameIn n ⟨frameOf (wordAt 6 codeBad)⟩) 0 40 = some h ∧ h.headD 1 = 0 ∧
      ([0, 1, 2, 3].map (fun i => (h.drop (8 + 8 * i)).take 8)).filter (fun t => ofBytes (t.drop 6) == crc16 (t.take 6)) = [tosBad]) ∧
    (∃ h, payloadBytes (d.frameIn n ⟨frameOf (wordAt 0 codeData)⟩) 0 40 = some h ∧ h.headD 0 = 1) ∧
    (∃ h, payloadBytes (s.frameIn n ⟨frameOf (wordAt 0 codeData)⟩) 0 40 = some h ∧ h.headD 1 ≠ 0) := by
  have hc : ((ln n 2 Lane.reset []).fld (Reg.TPL_LANE_CTRL n) 1 2 == 2) = false ∧ (ln n 2 Lane.reset []).bit (Reg.TPL_LANE_CTRL n) 4 = false := by
    rcases hn with rfl | rfl <;> decide +kernel
  have hd : ((pt n PortSt.reset []).fld (Reg.TPL_LANE_CTRL n) 1 2 == 2) = false ∧ (pt n PortSt.reset []).bit (Reg.TPL_LANE_CTRL n) 4 = false := by
    rcases hn with rfl | rfl <;> decide +kernel
  refine ⟨⟨_, frame_bytes _ _ _ _ _ _ hc ?_ (by decide +kernel) rfl, ?_⟩, ⟨_, frame_bytes _ _ _ _ _ _ hc ?_ (by decide +kernel) rfl, ?_⟩,
    ⟨_, frame_bytes _ _ _ _ _ _ hd ?_ (by decide +kernel) rfl, ?_⟩, ⟨_, frame_bytes _ _ _ _ _ _ hc ?_ (by decide +kernel) rfl, ?_⟩⟩ <;> decide +kernel

/-- A DATA frame with 40 idle slots, and one whose other codewords are lost. -/
def idleFrame : List (List Nat) := wordAt 0 codeData :: List.replicate 15 (List.replicate 272 0)

theorem idleFrame_words : frameWords false (frameOfAll idleFrame) =
    idleFrame.map (fun w => (some ((w.take 258).flatMap (fun x => bitsOf x 10)), 0)) := by
  have z : ∀ x ∈ gfPowers 2 1 14, gfEval (List.replicate 272 0) x = 0 := fun x _ => by
    have h := gfEval_zeros 272 0 [] x rfl
    rw [List.append_nil, List.replicate_zero, List.append_nil] at h; exact h
  have d : ∀ x ∈ gfPowers 2 1 14, gfEval (wordAt 0 codeData) x = 0 := fun x h =>
    gfEval_zeros _ _ _ _ ((by decide +kernel : ∀ x ∈ gfPowers 2 1 14, gfEval codeData x = 0) x h)
  refine frameWords_frameOfAll _ rfl ?_ (fun w hw => ?_) ?_
  · decide +kernel
  · rcases List.mem_cons.1 hw with rfl | h
    · exact d
    · rw [List.eq_of_mem_replicate h]; exact z
  · decide +kernel

theorem witness_LanesAndPortsWork_slots (n : Nat) (hn : n = 0 ∨ n = 95) :
    let d := pt n PortSt.reset []
    let slot (f : List (BitVec 2)) (j : Nat) : Option (List Byte) :=
      (payloadBytes (d.frameIn n ⟨f⟩) (40 + 128 * j) 128).filter (fun b => decide (ofBytes (b.take 1) % 16 < 6))
    (∃ h, payloadBytes (d.frameIn n ⟨frameOfAll idleFrame⟩) 0 40 = some h ∧ h.headD 0 = 1) ∧
    (∀ j, j < 40 → slot (frameOfAll idleFrame) j ≠ none) ∧
    (∀ b, slot (frameOfAll idleFrame) 0 = some b → timeReserved b = false) ∧
    ((∃ h, payloadBytes (d.frameIn n ⟨frameOf (wordAt 0 codeData)⟩) 0 40 = some h ∧ h.headD 0 = 1) ∧
      slot (frameOf (wordAt 0 codeData)) 39 = none) := by
  have hd : ((pt n PortSt.reset []).fld (Reg.TPL_LANE_CTRL n) 1 2 == 2) = false ∧ (pt n PortSt.reset []).bit (Reg.TPL_LANE_CTRL n) 4 = false := by
    rcases hn with rfl | rfl <;> decide +kernel
  dsimp only
  rw [frameIn_of _ _ _ hd.1 hd.2, idleFrame_words]
  refine ⟨⟨_, rfl, by decide +kernel⟩, by decide +kernel, fun b hb => ?_, ⟨_, frame_bytes _ _ _ _ _ _ hd ?_ (by decide +kernel) rfl, ?_⟩, ?_⟩
  · have : (payloadBytes (idleFrame.map (fun w => (some ((w.take 258).flatMap (fun x => bitsOf x 10)), 0))) 40 128).all
        (fun b => !(timeReserved b)) = true := by decide +kernel
    rw [Option.filter_eq_some_iff] at hb
    rw [hb.1] at this
    simpa using this
  · decide +kernel
  · decide +kernel
  · have lost := frameWords_frameOf_rest (wordAt 0 codeData) (by decide +kernel)
    have : (frameWords false (frameOf (wordAt 0 codeData))).drop 15 = [(none, 0)] := by
      rw [← List.drop_drop (i := 14) (j := 1), lost]; rfl
    rw [frameIn_of _ _ _ hd.1 hd.2, payloadBytes, show 8 * (40 + 128 * 39) / 2580 = 15 from rfl, this]
    rfl

theorem witness_LanesAndPortsWork_training :
    tapReserved (tosGood.headD 0) = false ∧ tapReserved (tosBad.headD 0) = true ∧ (∀ n ∈ [0, 95],
      (ln n 2 Lane.reset []).laneState n = 2 ∧ (ln n 3 Lane.reset []).laneState n = 3 ∧
      ((ln n 2 Lane.reset []).lane n).peerSeq ≠ some (ofBytes ((tosGood.drop 2).take 1)) ∧
      ((ln n 3 { Lane.reset with peerSeq := some 117 } []).lane n).peerSeq = some (ofBytes ((tosGood.drop 2).take 1)) ∧
      ((ln n 3 Lane.reset []).lane n).failLogged = false ∧ ((ln n 3 Lane.reset []).lane n).toData = none ∧
      payloadBytes ((ln n 2 Lane.reset []).frameIn n ⟨[]⟩) 0 40 = none ∧
      ({ ln n 2 Lane.reset [] with boot := { BootSt.reset with steps := [8] } } : State).boot.steps.contains 8 = true) ∧
    (∀ n ∈ [0, 95], let s := pt n PortSt.reset []
      s.laneState n = 4 ∧ (s.lane n).rx = [] ∧ s.portIsUp n = true ∧ s.fld (Reg.TPL_PORT_CTRL n) 1 2 = 0 ∧ s.lanePort n = some n) := by
  decide +kernel

theorem witness_LanesAndPortsWork_portOf : (pt 0 PortSt.reset []).lanePort 0 = some 0 ∧ (pt 95 PortSt.reset []).lanePort 95 = some 95 := by
  decide +kernel

theorem witness_LanesAndPortsWork_ports :
    let down := ln 95 4 Lane.reset [(Reg.TPL_PORT_CTRL 95, 1)]
    let wide := { sp x0 2 [(Reg.TPL_PORT_CTRL 88, 7), (Reg.TPL_LANE_STATUS 88, 4), (Reg.TPL_LANE_STATUS 95, 4)] with ports := [] }
    (down.bit (Reg.TPL_PORT_CTRL 95) 0 = true ∧ down.portIsUp 95 = false ∧ down.oneRate 95 = true ∧ (∀ k ∈ down.portLanes 95, down.laneState k = 4 ∧ down.laneOwner k = down.laneOwner 95)) ∧
    wide.portLanes 88 = [88, 89, 90, 91, 92, 93, 94, 95] ∧
    (∀ n ∈ [0, 95], let s := pt n { PortSt.reset with naks := (5, 8) } []
      s.portIsUp n = true ∧ n % s.portWidth n = 0 ∧ s.portChans n = [] ∧ s.timeUp n = false ∧ (∀ q ∈ (s.port n).waiting, ∀ f ∈ q.2, f.src = none) ∧ 8 ≤ (s.port n).naks.2 ∧ s.fwLost = false ∧ s.log.length < 4095) := by
  decide +kernel

theorem witness_LanesAndPortsWork_flits :
    let y := { PortSt.reset with nakFor := some 0, replay := [(4094, [1]), (4095, [2]), (0, [3])] }
    let s := pt 95 y []
    let again := { pt 95 y [] with lanes := [(95, { Lane.reset with peerSeq := some 117 })] }
    let tos (t : List Byte) : BitVec 64 := BitVec.ofNat 64 (ofBytes t)
    (s.portIsUp 95 = true ∧ (s.port 95).nakFor = some (s.port 95).rxNext) ∧
    fromSeq (0 : BitVec 12).toNat (ackReplay (hd 1 0).ack.toNat (s.port 95).replay) ≠ [] ∧
    fromSeq (0 : BitVec 12).toNat (ackReplay (hd 1 0).ack.toNat ((pt 95 PortSt.reset []).port 95).replay) = [] ∧
    (95 ∈ s.portLanes 95 ∧ s.laneState 95 = 4 ∧ toBytes (tos tosGood).toNat 8 = tosGood ∧ toBytes (tos tosBad).toNat 8 = tosBad ∧
      ofBytes (tosGood.drop 6) = crc16 (tosGood.take 6) ∧ ofBytes (tosBad.drop 6) = crc16 (tosBad.take 6)) ∧
    ((∀ f ∈ (s.port 95).rx, timeReserved f = false) ∧ (again.lane 95).peerSeq = some (ofBytes ((tosGood.drop 2).take 1)) ∧
      ofBytes ((tosGood.drop 3).take 1) = (({ s with lanes := [(95, { Lane.reset with reqSeq := 176 })] } : State).lane 95).reqSeq ∧ (s.lane 95).peerSeq ≠ some (ofBytes ((tosGood.drop 2).take 1))) := by
  decide +kernel

/-- Channel 255 at port 95, bound to tile 0, context 0 by edge 0, with a record. -/
def ch (ctrl : Word) (x : Chan) (regs : SMap Word) : State :=
  { pt 95 PortSt.reset ([(Reg.CHN_CTRL 255, ctrl ||| 0x5F0), (Reg.CHN_STATUS 255, 1)] ++ regs) with chans := [(255, x)] }

/-- A body for channel 255. -/
def bd (marker : Bool) (len route kind : Nat) : ChanBody := ⟨255, marker, BitVec.ofNat 7 len, BitVec.ofNat 16 route, BitVec.ofNat 896 kind⟩

theorem witness_ChannelsCarryRows_flits :
    let s := ch 1 { Chan.reset with bytes := List.replicate 911 0 } []
    let full := ch 1 { Chan.reset with bytes := List.replicate 912 0 } []
    let out := ch 3 Chan.reset []
    let h := hd 2 0
    (s.portIsUp 95 = true ∧ h.epoch.toNat = s.fld Reg.TPL_EPOCH 0 16 ∧ s.fenced = false ∧ h.seq.toNat = (s.port 95).rxNext ∧
      ∀ f ∈ (s.port 95).rx, timeReserved f = false) ∧
    ((bd false 112 0 0).route.toNat % 256 = 0 ∧ (bd false 112 (s.fld Reg.TPL_EP_ID 0 16) 0).route.toNat = s.fld Reg.TPL_EP_ID 0 16 ∧
      (bd false 112 77 0).route.toNat ≠ s.fld Reg.TPL_EP_ID 0 16) ∧
    ((s.chanOn 255 && s.chanPort 255 == 95 && s.chanState 255 != 2) = true ∧ s.chanOut 255 = false ∧
      (s.chan 255).bytes.length + min (bd false 112 0 0).len.toNat 112 < 1024 ∧
      1024 ≤ ((full.chan 255).bytes ++ (toBytes (bd false 127 0 0).data.toNat 112).take (min (bd false 127 0 0).len.toNat 112)).length ∧
      (full.chan 255).rowsIn = 0 ∧ full.discards 255 = false ∧ full.chanOwned 255 = true ∧ (full.chan 255).avail = 0) ∧
    ((recordOf (bd true 0 0 0)).1 ≤ 2 ∧ s.chanOut 255 = decide ((recordOf (bd true 0 0 0)).1 = 2) ∧ (recordOf (bd true 0 0 2)).1 ≤ 2 ∧
      out.chanOut 255 = decide ((recordOf (bd true 0 0 2)).1 = 2) ∧ out.chanOut 255 ≠ ((bd false 0 0 0).marker && (recordOf (bd false 0 0 0)).1 == 2) ∧
      (s.chanOn 254 && s.chanPort 254 == 95 && s.chanState 254 != 2) = false) := by decide +kernel

theorem witness_ChannelsCarryRows_through :
    let s := { sp x0 2 [(Reg.TPL_PORT_CTRL 95, 0xDE01), (Reg.TPL_PORT_STATUS 95, 1), (Reg.TPL_PORT_CTRL 94, 1), (Reg.TPL_PORT_STATUS 94, 1)] with
      ports := [(94, PortSt.reset), (95, PortSt.reset)] }
    ((bd false 0 1 0).route.toNat % 256 ≠ 0 ∧ s.thruPort 95 = some 94 ∧ s.portIsUp 95 = true ∧ (hd 2 0).seq.toNat = (s.port 95).rxNext) ∧
    (pt 95 PortSt.reset []).thruPort 95 = none ∧ (hd 2 1).seq.toNat ≠ (s.port 95).rxNext := by decide +kernel

theorem witness_ChannelsCarryRows_items :
    let item (gap : Bool) (tag rows : Nat) : Chan := { Chan.reset with items := [⟨gap, tag, rows, false⟩] }
    let s := ch 1 Chan.reset []
    let held := { ch 1 { Chan.reset with items := [⟨false, 1, 1, false⟩, ⟨false, 2, 1, false⟩] } [] with
      regs := (Reg.PART_BEAT_STATUS 0, 3) :: (ch 1 Chan.reset []).regs }
    let beat (x : Chan) (rows : Nat) := { ch 1 x [(Reg.PART_BEAT_IN 0 7, 0x80000000), (Reg.SEM_CFG 0 0, 5), (Reg.SEM_CNT 0 0, 4)] with
      parts := [(0, { x0 with beatOpen := true, openMs := 1 })]
      tiles := [(0, { Tile.reset with se := { SeSt.reset with ctx := [(0, { SeCtx.reset with early := rows })] } })] }
    let short := beat (item false 0 3) 2
    let ready := beat (item false 0 3) 3
    let gap := beat (item true 0 3) 0
    let other := { s with parts := [] }
    (s.takesMarker 255 = true ∧ s.chanOwned 255 = true ∧ (s.chan 255).rowsIn = 0 ∧ s.discards 255 = false ∧ s.isBeatIn 255 = false ∧ s.rests (s.chanOwner 255) = false) ∧
    (held.takesMarker 255 = true ∧ held.chanOwned 255 = true ∧ held.discards 255 = true ∧ held.isBeatIn 255 = false) ∧
    (∀ st ∈ [psFrozen, psRecovering], let one := { ch 1 (item false 1 1) [] with regs := (Reg.PART_BEAT_STATUS 0, BitVec.ofNat 32 st) :: (ch 1 Chan.reset []).regs }
      one.takesMarker 255 = true ∧ one.chanOwned 255 = true ∧ one.isBeatIn 255 = false ∧ one.pstate (one.chanOwner 255) = st ∧
      1 ≤ (one.chan 255).items.length ∧ one.chanState 255 = 1) ∧
    (other.chanOn 255 = true ∧ other.chanOwned 255 = false ∧ other.chanEdge 255 < 32 ∧ other.fwLost = false ∧ other.log.length < 4096 ∧
      (other.edge (other.chanEdge 255)).logged.contains 0x0401 = false) ∧
    (∀ x ∈ [Chan.reset, { Chan.reset with debt := 5 }], let out := ch 3 x []; out.chanOwned 255 = true ∧ out.chanOut 255 = true ∧ out.chanState 255 ≠ 2 ∧ (out.edge (out.chanEdge 255)).waiting = []) ∧
    (∀ s ∈ [short, ready, gap], (∃ q, s.part (s.chanOwner 255) = some q ∧ q.beatOpen = true ∧ (q.openMs + 2 ^ 48 - 1) % 2 ^ 48 = 0) ∧
      s.pstate (s.chanOwner 255) = psRunning ∧ s.chanOn 255 = true ∧ s.chanOut 255 = false ∧ s.chanState 255 = 1 ∧ s.isBeatIn 255 = true ∧
      (s.chan 255).resolved = false) ∧
    ((short.seCtx (short.chanTile 255) (short.chanCtx 255)).early < 3 ∧ 3 ≤ (ready.seCtx (ready.chanTile 255) (ready.chanCtx 255)).early ∧
      ready.ctxSem 0 0 = 0 ∧ ready.semBroken 0 0 = false ∧ ready.semCount 0 0 < ready.semCap 0 0) ∧
    ((∃ i, (gap.chan 255).items = [i] ∧ i.gap = true ∧ i.tag = (1 + 2 ^ 48 - 1) % 2 ^ 48) ∧ (gap.seCtx (gap.chanTile 255) (gap.chanCtx 255)).early = 0 ∧
      ∀ j ∈ gap.partTiles 0, ∀ k, k < 64 → gap.bit (Reg.SEM_CNT j k) 17 = false ∧ gap.bit (Reg.SEM_CNT j k) 18 = false) := by
  refine ⟨by decide +kernel, by decide +kernel, by decide +kernel, by decide +kernel, by decide +kernel, ?_, by decide +kernel, ⟨_, rfl, by decide +kernel⟩,
    by decide +kernel⟩
  intro s hs
  simp only [List.mem_cons, List.not_mem_nil, or_false] at hs
  rcases hs with rfl | rfl | rfl <;> exact ⟨⟨_, rfl, by decide +kernel⟩, by decide +kernel⟩

theorem witness_ChannelsCarryRows_ends :
    let s := pt 95 { PortSt.reset with window := some 8 } []
    let up := { sp x0 2 [(Reg.TPL_PORT_CTRL 0, 9), (Reg.TPL_PORT_CTRL 95, 9)] with ports := [] }
    (s.port 95).window = some 8 ∧ up.fenced = false ∧
    (up.bit (Reg.TPL_PORT_CTRL 95) 0 = true ∧ up.bit (Reg.TPL_PORT_CTRL 95) 3 = true) ∧
    (∀ n, n < 96 → up.bit (Reg.TPL_PORT_CTRL n) 0 = true → up.bit (Reg.TPL_PORT_CTRL n) 3 = true → up.portIsUp n = false) := by
  decide +kernel

/-! Time, power, SMBus. -/

/-- Port 95 up, Route time running, a time unit, and further registers; 95 is the upstream port. -/
def tu (status ctrl : Word) (u : TimeSt) (regs : SMap Word) : State :=
  { pt 95 PortSt.reset ([(Reg.TIME_STATUS, status), (Reg.TIME_CTRL, ctrl), (Reg.TIME_EXCH_CTRL, 0x5F0000)] ++ regs) with
    timeUnit := u, timeRuns := true, boot := { BootSt.reset with por := false } }

/-- A TIME message for every device, with the number of an exchange. -/
def tmsg (hops : BitVec 8) (ta tb : BitVec 64) : TimeMsg := ⟨hops, 0, 7, ta, 0, tb, 0, 0, 0, 3, 0, 0xFFFF, 0⟩

theorem witness_TimeIsKept_flits :
    let u0 := State.reset.timeUnit
    let s := tu 0 1 { u0 with sent := [(7, 0)] } []
    let h := hd 1 0
    let thru := { pt 95 PortSt.reset [] with regs := [(Reg.TPL_PORT_CTRL 95, 0xDE01), (Reg.TPL_PORT_STATUS 95, 1), (Reg.TPL_PORT_CTRL 94, 1),
      (Reg.TPL_PORT_STATUS 94, 1)] }
    let phi (m : TimeMsg) (t4 : Int) : Int :=
      (((t4 - (m.tb.toNat * 65536 + m.tbFrac.toNat)) - ((m.ta.toNat * 65536 + m.taFrac.toNat) - 0) - m.corr.toNat + m.reqCorr.toNat) * 1000 +
        (s.rd Reg.TIME_ASYM).toInt * 65536) / 2
    (s.portIsUp 95 = true ∧ h.epoch.toNat = s.fld Reg.TPL_EPOCH 0 16 ∧ s.fenced = false ∧ h.seq.toNat = (s.port 95).rxNext ∧
      (tmsg 0 0 0).hops = 0 ∧ (tmsg 0 0 0).dstEp = 0xFFFF) ∧
    (s.bit Reg.TIME_CTRL 0 = true ∧ s.timeRuns = true ∧ s.portIsUp s.upPort = true ∧ 95 = s.upPort ∧
      s.timeUnit.sent.find? (fun x => x.1 == (tmsg 0 0 0).seq.toNat) = some (7, 0) ∧ s.timeUnit.lost < 3 ∧ (s.port 95).rx = [] ∧
      s.bit Reg.TIME_EXCH_EP 16 = false) ∧
    (phi (tmsg 0 1 0) (-65536 + 131072) = 0 ∧ (phi (tmsg 0 1 1) (2 * 65536)).natAbs < 1000000 * 65536 ∧
      (phi (tmsg 0 1998 0) 0).natAbs < 1000000 * 65536 ∧ ¬ (phi (tmsg 0 2000 0) 0).natAbs < 1000000 * 65536) ∧
    ((tmsg 1 0 0).hops ≠ 0 ∧ thru.thruPort 95 = some 94) ∧
    ((262144000 : Nat) ≤ 0 + 4000 * 65536 ∧ 0 + 4000 * 65536 < (262144001 : Nat)) ∧
    (tu 2 0 u0 []).bit Reg.TIME_CTRL 0 = false := by decide +kernel

theorem witness_TimeIsKept_lost :
    let third (st : Word) : State := tu st 1 { State.reset.timeUnit with sent := [(7, 0)], lost := 3 } []
    (third 0).timeUnit.lost = 3 ∧ (third 0).timeUnit.sent = [(7, 0)] ∧ (third 0).upPort = 95 ∧
    [0, 1, 2, 3].map (fun st => (third st).fld Reg.TIME_STATUS 0 3) = [0, 1, 2, 3] := by decide +kernel

theorem witness_TimeIsKept_references :
    let u0 := State.reset.timeUnit
    let pps (status : Word) := tu status 8 { u0 with good := 7 } []
    let ref (status : Word) := tu status 2 u0 []
    let stopped := { pps 0x42 with parts := [(0, x0), (15, x0)], regs := (Reg.PART_BEAT_STATUS 0, 0) :: (pps 0x42).regs }
    ((pps 0x42).usesRef true = true ∧ (pps 0x42).timeRuns = true ∧ (pps 0x42).bit Reg.TIME_STATUS 6 = true ∧
      (pps 0x42).boot.por = false ∧ (pps 0x42).fenced = false ∧ (pps 0x43).bit Reg.TIME_STATUS 6 = true ∧ (pps 0x43).fld Reg.TIME_STATUS 0 3 = 3 ∧
      (pps 0x42).fld Reg.TIME_STATUS 0 3 = 2 ∧ (pps 0x42).fwLost = false ∧ (pps 0x42).log.length < 4095) ∧
    ((pps 0x41).fld Reg.TIME_STATUS 0 3 = 1 ∧ 7 ≤ (pps 0x41).timeUnit.good) ∧
    ((999999 : Int).natAbs < 1000000 ∧ (-2000 : Int).natAbs ≤ 2000 ∧ ¬ (2001 : Int).natAbs ≤ 2000 ∧ 1000000 ≤ (-1000000 : Int).natAbs) ∧
    (∀ q ∈ stopped.parts, stopped.pstate q.1 = psStopped) ∧
    ((ref 2).usesRef false = true ∧ (ref 2).usesRef true = false ∧ (ref 1).fld Reg.TIME_STATUS 0 3 = 1 ∧ (ref 1).fenced = false) ∧
    ((tu 0 16 u0 []).timeRuns = true ∧ (tu 0 16 u0 []).bit Reg.TIME_CTRL 4 = true ∧ (tu 0 16 u0 []).fenced = false ∧ (tu 0 16 u0 []).boot.sysRst = false ∧ (tu 0 16 u0 []).boot.por = false) := by decide +kernel

/-- The firmware serves; `POR_N` is high. -/
def up (st : Nat) (regs : SMap Word) : State :=
  { sp x0 st regs with boot := { BootSt.reset with por := false, perst := false, fwUp := true, devOk := true } }

/-- Tiles 0 and 1 ran; their minimum slacks, of 1,000 handshakes. -/
def slack (a b : Word) : State :=
  { up 2 [(Reg.PWR_GOV_CTRL, 0x04020A01), (Reg.SEQ_BEAT_MIN_SLACK 0, a), (Reg.SEQ_BEAT_MIN_SLACK 1, b),
      (Reg.SEQ_BEAT_USED 0, 900), (Reg.SEQ_BEAT_SLACK 0, 100), (Reg.SEQ_BEAT_USED 1, 900), (Reg.SEQ_BEAT_SLACK 1, 100)] with
    tiles := [(0, { Tile.reset with ran := true }), (1, { Tile.reset with ran := true })] }

theorem witness_PowerActs :
    let gov := up 2 []
    let rail := { up 2 [(Reg.PWR_RAIL_V 5, 0x80000000)] with pwr := { PwrSt.reset with want := [(5, 1200)] } }
    let boot := up 0 [(Reg.BOOT_STATUS, 0)]
    let ready := up 0 [(Reg.BOOT_STATUS, 16)]
    let live := up 2 [(Reg.BOOT_STATUS, 16)]
    let tj : List Int := [-40, 125, 85]
    (gov.boot.fwUp = true ∧ gov.fwLost = false ∧ gov.pwr.phase = 0 ∧ gov.devRung ≠ 4 ∧ (∀ x ∈ gov.parts, x.1 < 16) ∧
      (∀ x ∈ tj, x ≤ 125) ∧ 125 ∈ tj ∧ ((∀ f ∈ gov.mbx, f.2.running = none) ∧ ∀ x ∈ gov.parts, gov.floorWaits x.1 = false) ∧
      gov.pwr.quarters.length = 4) ∧
    (rail.railWaits 5 = true ∧ (∀ f ∈ rail.mbx, f.2.running = none) ∧ (∀ x ∈ rail.parts, rail.floorWaits x.1 = false) ∧ rail.pwr.phase = 0 ∧ SMap.get rail.pwr.want 0 5 = 1200 ∧ 1200 ≤ (1190 : BitVec 12).toNat + 10 ∧
      (1210 : BitVec 12).toNat ≤ 1200 + 10 ∧ 1200 + 10 < (1211 : BitVec 12).toNat ∧ (1189 : BitVec 12).toNat + 10 < 1200 ∧
      rail.fwLost = false ∧ rail.log.length < 4096) ∧
    (boot.bit Reg.BOOT_STATUS 4 = false ∧ boot.boot.warm = false ∧ boot.mapBuilt = false ∧ live.mapBuilt = true ∧ ready.bit Reg.BOOT_STATUS 4 = true) ∧
    (live.colPart (8 / 9) = some 0 ∧ live.part 0 = some x0 ∧ live.pstate 0 ≠ psStopped ∧ live.tileAt 0 7 = some 7 ∧
      live.colPart 15 = none ∧ (175 - 144) % 16 = 15) ∧
    (gov.bit Reg.PWR_STATUS 9 = false ∧ gov.bit Reg.PWR_STATUS 8 = false) ∧
    (State.reset.boot.por = true ∧ gov.boot.por = false) := by decide +kernel

theorem witness_PowerActs_steering :
    let gov := up 2 []
    let late := slack 0x100000 10
    ((up 2 [(Reg.PWR_GOV_CTRL, 0)]).bit Reg.PWR_GOV_CTRL 0 = false) ∧
    (late.bit Reg.PWR_GOV_CTRL 0 = true ∧ late.railWaits 0 = false ∧ late.railWaits 3 = false) ∧
    ({ gov with parts := [] }.liveParts 0 = [] ∧ late.liveParts 0 ≠ [] ∧ gov.liveParts 0 ≠ [] ∧ gov.ranTiles 0 = []) ∧
    (late.ranTiles 0 = [0, 1] ∧ late.bit (Reg.SEQ_BEAT_MIN_SLACK 0) 20 = true) ∧
    ((slack 10 10).ranTiles 0 = [0, 1] ∧ (slack 10 10).bit (Reg.SEQ_BEAT_MIN_SLACK 0) 20 = false ∧
      (slack 10 10).bit (Reg.SEQ_BEAT_MIN_SLACK 1) 20 = false ∧ (slack 10 10).slackOf 0 = (10, 1000)) := by decide +kernel

theorem witness_PowerActs_heat :
    let hot := up 2 [(Reg.PWR_THERM_CTRL, 0x0A0F)]
    (8 * hot.fld Reg.PWR_THERM_CTRL 0 8, 8 * hot.fld Reg.PWR_THERM_CTRL 8 8) = (120, 80) ∧ (-40 : Int) < 80 ∧ ¬ (85 : Int) < 80 ∧
    ¬ (120 : Int) ≤ 85 ∧ (120 : Int) ≤ 125 := by decide +kernel

/-- The three cases of the slack band about 10 % ± 2 %, of 1,000 handshakes: below, within and above. -/
theorem witness_PowerActs_slack :
    let under (x : Nat × Nat) : Bool := decide (x.1 * 100 + 2 * x.2 < 10 * x.2)
    let above (x : Nat × Nat) : Bool := decide ((10 + 2) * x.2 < x.1 * 100)
    [79, 80, 120, 121].map (fun m => (under (m, 1000), above (m, 1000))) = [(true, false), (false, false), (false, false), (false, true)] := by
  decide

theorem witness_SmbusTargetAnswers :
    let s := up 2 []
    let alert := { s with alertStatus := 0x20 }
    let masked := { alert with alertMask := 0x1F }
    (s.boot.por = false ∧ s.boot.fwUp = true ∧ s.fwLost = false ∧ alert.alertStatus &&& alert.alertMask ≠ 0 ∧
      masked.alertStatus &&& masked.alertMask = 0) ∧
    ({ s with logLast := some ⟨0, 0, none, 1, 0, 0, 0, 0, 0, []⟩ } : State).logLast = some ⟨0, 0, none, 1, 0, 0, 0, 0, 0, []⟩ ∧
    (State.reset.boot.por = true ∧ State.reset.boot.fwUp = false ∧ { s with fwLost := true }.fwLost = true) := by decide +kernel


/-- The check value of the CRC-8 of SMBus 3.1 (polynomial 0x07, initial 0) over the digits 1 to 9. -/
theorem test_pec : smbPec [0x31, 0x32, 0x33, 0x34, 0x35, 0x36, 0x37, 0x38, 0x39] = 0xF4 := by decide +kernel
/-! Boot and recovery, register writes. -/

theorem witness_BootAndRecoveryRun_pins :
    let s := up 0 []
    let entry (n : Nat) : BootEntry := ⟨n, 0, 0, 0, 0, 0, 0, []⟩
    let flown := { State.reset with boot := { BootSt.reset with secB := [entry 1, entry 3] } }
    let held := { s with boot := { s.boot with sysRst := true } }
    (s.boot.por = false ∧ s.boot.sysRst = false ∧ s.boot.dead = false ∧ held.boot.sysRst = true) ∧
    (State.reset.boot.por = true ∧ State.reset.bootEntries = [] ∧ newestEntry flown.bootEntries = some (entry 3) ∧ (2 : BitVec 3).toNat < 3) := by
  decide +kernel

/-- A directory of no entries, with its CRC. -/
def dir0 : List Byte :=
  let front := toBytes 0x44465444 4 ++ toBytes 1 2 ++ [0, 0]
  front ++ toBytes (crc32 (front ++ List.replicate 24 0)) 4 ++ List.replicate 20 0

/-- A directory whose entries are the two sectors of the boot record, each with its CRC. -/
def dir1 : List Byte :=
  let entry (k : Byte) (at_ : Nat) : List Byte :=
    let e := [k, 0, 0, 0] ++ toBytes at_ 4 ++ toBytes 4096 4 ++ toBytes 0 4
    e ++ toBytes (crc32 e) 4 ++ List.replicate 12 0
  let body := entry 4 0x1000 ++ entry 5 0x2000
  let front := toBytes 0x44465444 4 ++ toBytes 1 2 ++ [2, 0]
  front ++ toBytes (crc32 (front ++ List.replicate 24 0 ++ body)) 4 ++ List.replicate 20 0 ++ body

/-- A boot in a step, with B7 open or not, after a cold or a warm reset. -/
def atStep (steps : List Nat) (warm : Bool) (n : Word) : State :=
  { State.reset with regs := [(Reg.BOOT_STATUS, n)], boot := { BootSt.reset with por := false, steps := steps, warm := warm } }

/-- The same with the outcome of a load. -/
def loadEnds (steps : List Nat) (slot : Nat) (o : Option Nat) : State :=
  let s := atStep steps false 0
  { s with boot := { s.boot with loadEnd := some o, fwSlot := slot } }

/-- What a step found, with a directory, and channels. -/
def envOf (pass : Bool) (dir : List Byte) (org : List ChanEnv) : BootEnv := ⟨pass, 1, dir, [], [], org, []⟩

theorem witness_BootAndRecoveryRun_steps :
    let env := envOf true dir0 []
    (∀ k ∈ [0, 2, 3, 4, 5, 6, 8, 9, 10, 11], (atStep [7, k] false 0).currentStep = some k) ∧
    ((atStep [0] false 0).boot.por = false ∧ (atStep [0] false 0).boot.sysRst = false ∧ (atStep [2] false 0).anyRailWaits = false) ∧
    (env.pass = true ∧ (envOf false dir0 []).pass = false ∧ dirOk env.dir = true ∧ dirOk env.copy = false ∧ (atStep [0] false 0).testMode = false ∧
      ((atStep [0] false 0).readDir env).2.hasRecord = false) ∧
    ((atStep [3] false 0).boot.warm = false ∧ (atStep [11] true 0).boot.warm = true) ∧
    ((atStep [0] false 0x200).fld Reg.BOOT_STATUS 8 3 < 3 ∧ 3 ≤ (atStep [0] false 0x300).fld Reg.BOOT_STATUS 8 3) ∧ (∀ x ∈ (up 0 []).parts, x.1 < 16) := by
  decide +kernel

/-- B0 with a boot record: one of no entry, and one whose newest entry is of boot 3. -/
theorem witness_BootAndRecoveryRun_record :
    let env := envOf true dir1 []
    let entry (n : Nat) : BootEntry := ⟨n, 0, 0, 0, 0, 0, 0, []⟩
    let s := atStep [0] false 0
    let old : State := { s with boot := { s.boot with secB := [entry 1, entry 3] } }
    dirOk dir1 = true ∧ (s.readDir env).2.hasRecord = true ∧ newestEntry s.bootEntries = none ∧
    (old.readDir env).2.hasRecord = true ∧ newestEntry old.bootEntries = some (entry 3) := by decide +kernel

theorem witness_BootAndRecoveryRun_firmware :
    let rails : State := { atStep [2] false 0 with regs := [(Reg.PWR_RAIL_V 0, 0x80000000)] }
    (rails.anyRailWaits = true ∧ rails.currentStep = some 2) ∧
    (∀ s ∈ [loadEnds [1] 0 none, loadEnds [1] 0 (some 6), loadEnds [1] 1 (some 6)], s.currentStep = some 1 ∧ 7 ∉ s.boot.steps) ∧
    ((loadEnds [1] 0 none).boot.loadEnd = some none ∧ (loadEnds [1] 0 (some 6)).boot.loadEnd = some (some 6) ∧
      (loadEnds [1] 0 (some 6)).boot.fwSlot = 0 ∧ (loadEnds [1] 0 (some 6)).testMode = false ∧ (loadEnds [1] 1 (some 6)).boot.fwSlot ≠ 0) := by
  decide +kernel

theorem witness_BootAndRecoveryRun_memory :
    let good : ChanEnv := ⟨7, 6400, true, 8, 16, 1, 16, false, true, false, 0⟩
    let env := envOf true dir0 [good, { good with ch := 0, fails := true }, { good with ch := 3, check := false }]
    let both := atStep [6, 8] false 0
    let gone : State := { both with boot := { both.boot with fall := { both.boot.fall with chans := 2 } } }
    let kept : State := { atStep [6, 8] true 0 with regs := [(Reg.DDR_STATUS 7, 6)] }
    let lanes : State := { atStep [8] false 0 with boot := { (atStep [8] false 0).boot with failedLanes := 1 } }
    ((∀ j ∈ (atStep [7, 4] true 0).boot.steps, j = 4 ∨ j = 7) ∧ 8 ∈ both.boot.steps ∧ both.currentStep = some 6) ∧
    (env.org.find? (fun o => o.ch == 7) = some good ∧ orgSupported good = true ∧ good.fails = false ∧ both.boot.fall.chan 7 ≠ 2 ∧
      env.org.find? (fun o => o.ch == 0) = some { good with ch := 0, fails := true } ∧ orgSupported { good with ch := 0, fails := true } = true ∧
      orgSupported { good with ch := 3, check := false } = false ∧ gone.boot.fall.chan 0 = 2) ∧
    (kept.ddrState 7 = 6 ∧ kept.ddrState 0 ≠ 6) ∧
    (6 ∉ lanes.boot.steps ∧ lanes.skipFab = false ∧ lanes.boot.failedLanes.getLsbD 0 = true ∧ lanes.boot.failedLanes.getLsbD 95 = false ∧
      both.boot.fall.lane 95 ≠ 2 ∧ both.boot.refclk.getLsbD 11 = true ∧
      ({ both with boot := { both.boot with refclk := 0 } } : State).boot.refclk.getLsbD 11 = false) := by decide +kernel

theorem witness_BootAndRecoveryRun_fabric :
    let loaded : State := { sp x0 0 [(Reg.CFG_LOADED, 0x00010001)] with boot := { BootSt.reset with por := false, steps := [10] } }
    ((loadEnds [9] 0 none).currentStep = some 9 ∧ (loadEnds [9] 0 none).boot.loadEnd = some none ∧
      (loadEnds [9] 0 (some 6)).boot.loadEnd = some (some 6)) ∧
    (loaded.currentStep = some 10 ∧ loaded.part 0 = some x0 ∧ loaded.isLoaded x0 = true) ∧
    (∃ y, ((loadEnds [9] 0 none).bootStep 9 (envOf true dir0 [])).boot.steps = y) := ⟨by decide +kernel, by decide +kernel, _, rfl⟩

/-- Partition 15 in a recovery at a step, with an old generation. -/
def recAt (st : Nat) (r : RecSt) (x : Part) (old : List (Nat × Nat)) : State :=
  { up st [] with parts := [(15, { x with recov := r })], regs := [(Reg.PART_BEAT_STATUS 15, BitVec.ofNat 32 st)], retired := [(15, old)] }

def recStep (k : Nat) : RecSt := { RecSt.none with step := k, resume := true }

theorem witness_BootAndRecoveryRun_recovery :
    let r := recStep
    let s (k : Nat) := recAt 4 (r k) x0 []
    (∀ k ∈ [2, 3, 4, 5, 6, 7], (s k).part 15 = some { x0 with recov := r k } ∧ (s k).inRecovery 15 { x0 with recov := r k } = true) ∧
    (∀ k ∈ [2, 3, 4, 5, 6, 7], (r k).genWait = false ∧ (r k).device = 0 ∧ (r k).dead = []) ∧
    (let f := recAt 3 { r 2 with slot := some 3 } x0 [];
      f.part 15 = some { x0 with recov := { r 2 with slot := some 3 } } ∧
      ∀ q ∈ f.parts, q = (15, { x0 with recov := { r 2 with slot := some 3 } }) ∨ f.pstate q.1 ≠ psFrozen) ∧
    ((s 4).genBusy 15 { x0 with recov := r 4 } = false ∧ (recAt 4 (r 4) x0 [(1, 0)]).genBusy 15 { x0 with recov := r 4 } = true) ∧
    ((s 5).lostColumn { x0 with recov := r 5 } = false) ∧
    ((2 : Nat) ≤ (r 2).step ∧ (r 7).step ≤ 7 ∧ (s 2).log.length < 4090 ∧ (s 7).search = []) := by decide +kernel

theorem witness_BootAndRecoveryRun_ends :
    let x (r : RecSt) : Part := { x0 with recov := r }
    let fl := { recStep 7 with floorWait := true }
    let s := recAt 4 (recStep 7) x0 []
    let w := recAt 4 fl x0 []
    (fl.floorWait = true ∧ w.recOutcome 15 (x fl) false = 0 ∧ w.raised (w.floorsFor 15) = true ∧
      w.recOutcome 15 (x { fl with resume := false }) false ≠ 0) ∧
    ((s.rollBack 15).portsDown 15 = false ∧ (s.rollBack 15).recOutcome 15 (x { recStep 7 with resume := false }) false ≠ 0) ∧
    (let l := { recStep 7 with linkWait := true };
      l.linkWait = true ∧ (s.rollBack 15).recOutcome 15 (x l) ((s.rollBack 15).portsDown 15) = 0 ∧
      (s.rollBack 15).raised ((s.rollBack 15).floorsFor 15) = true ∧ (s.rollBack 15).recOutcome 15 (x l) true ≠ 0) := by decide +kernel

/-- A floor that is not yet raised: the quarter of column 0, with a budget that no voltage covers. -/
theorem witness_BootAndRecoveryRun_raise :
    let r := { recStep 7 with floorWait := true }
    let s : State := { recAt 4 r x0 [] with regs := [(Reg.PART_BEAT_STATUS 15, 4), (Reg.PART_VAR_BUDGET 15 7, 0xFFFFF), (Reg.PWR_RAIL_V 0, 700), (Reg.TIME_MS_PERIOD, 5)] }
    s.recOutcome 15 { x0 with recov := r } false = 0 ∧ s.raised (s.floorsFor 15) = false := by decide +kernel

/-- A retained copy: an itinerary entry and an instruction of tile 0. -/
theorem witness_BootAndRecoveryRun_copy :
    let x : Part := { x0 with recov := recStep 6, copy := [(5, 77), (2 ^ 20 + 6, 78)] }
    (x.copy.map (fun c => c.1)).Nodup ∧ (∀ c ∈ x.copy, c.1 / 8192 % 128 ∈ x.tiles) ∧ x.copy.map (fun c => c.1 / 2 ^ 20) = [0, 1] := by decide

theorem witness_BootAndRecoveryRun_link :
    let x : Part := { x0 with recov := { RecSt.none with step := 7, resume := true, linkWait := true } }
    let s := { up 4 [] with parts := [(0, x)], regs := [(Reg.PART_BEAT_STATUS 0, 4), (Reg.CHN_CTRL 255, 0x5F1), (Reg.CHN_STATUS 255, 2)] }
    (s.rollBack 0).portsDown 0 = true ∧ (s.rollBack 0).recOutcome 0 x ((s.rollBack 0).portsDown 0) ≠ 0 ∧ s.inRecovery 0 x = true ∧
    (255 ∈ s.partChans 0 ∧ s.chanState 255 = 2 ∧ (s.chan 255).unreset = []) := by decide +kernel

theorem witness_BootAndRecoveryRun_hangs :
    let s := up 2 []
    let x : Part := { x0 with variants := [0] }
    let h (u : Nat) : HangSearch := ⟨u, [(0, 0)], [0], 0, true, false⟩
    let trial := { up 2 [] with parts := [(0, x)], search := [h 0x9000] }
    (s.tilePart 0 = some 0 ∧ s.tilePart 7 = some 0 ∧ s.part 0 = some x0 ∧ s.pstate 0 = psRunning ∧ s.tileRests 7 = false ∧
      s.bit (Reg.SEQ_BEAT_STATUS 7) 2 = false ∧ s.fwLost = false ∧ s.log.length < 4096) ∧
    (s.search = [] ∧ s.reachEngine 0x9000 = [0] ∧ s.reachEngine 0x900F = []) ∧
    (trial.search = [h 0x9000] ∧ (h 0x9000).running = true ∧ (h 0x9000).suspects = [(0, 0)] ∧ (h 0x9000).parts = [0] ∧ trial.part 0 = some x ∧
      x.beatOpen = false ∧ x.recov.dead = [] ∧
      (trial.setPstate 0 psRecovering).raised ((trial.setPstate 0 psRecovering).floorsFor 0) = true ∧ (h 0x9000).unit / 4096 ≠ 4 ∧ (h 0x4007).unit / 4096 = 4) ∧
    (s.unlocked (s.tilePart 0) = false ∧ s.unlocked (s.tilePart 127) = true) := by decide +kernel

theorem witness_RegisterWrites :
    let s := up 2 []
    let stop := up 0 []
    (s.unlocked (s.tilePart 143) = true ∧ s.unlocked (s.tilePart 0) = false ∧ stop.unlocked (stop.tilePart 0) = true ∧ (s.tile 143).memUpsets = []) ∧
    ((0x1FFFFF : Word).toNat < 2 ^ 21 ∧ 2 ^ 21 ≤ (0x200000 : Word).toNat ∧ (0xFFFF : Word).toNat < 2 ^ 16 ∧ 2 ^ 16 ≤ (0x10000 : Word).toNat ∧
      (7 : Word).toNat < 8 ∧ 8 ≤ (8 : Word).toNat ∧ (0x8000FFFF : Word).field 16 15 = 0 ∧ (0x00010000 : Word).field 16 15 ≠ 0) ∧
    (s.regBad (Reg.SE_CTX_CTRL 143 7) 1 = false ∧ s.tilePart 143 = none ∧ stop.tileIn 0 psStopped = true ∧ s.regBad (Reg.SE_CTX_CTRL 0 0) 0 = false) ∧
    ((stop.pstate 0 = psStopped ∧ (stop.part 0).isSome = true) ∧ (up 1 []).pstate 0 = psArmed ∧ s.pstate 0 = psRunning) := by decide +kernel

/-- Registers of each access type that have no command of their own; of the first, a value with a reserved bit and one without. -/
theorem witness_RegisterWrites_registers :
    let row (a : Nat) (f : RegRow → Bool) : Bool :=
      match RegMap.find a with
      | some (b, _, r) => f r && b.base != 0x100000000 && a != Reg.TPL_EPOCH_NEXT &&
        !([(0x20001000, 0), (0x73008000, 0x14), (0x50000000, 0), (0x40000000, 0), (0x48000000, 0), (0x48010000, 0), (0x10000000, 0x8),
          (0x10000000, 0x110C), (0x10000000, 0x101C), (0x10000000, 0x2020)].contains (b.base, (a - b.base) % b.stride))
      | none => false
    let tile := Reg.tileBase 143
    row (tile + 0x2010) (fun r => r.rw == 3 && (7 &&& ~~~(r.rw ||| r.rwl ||| r.w1c ||| r.w1s ||| r.ro)) != 0) = true ∧
    row (tile + 0x2010) (fun r => (3 &&& ~~~(r.rw ||| r.rwl ||| r.w1c ||| r.w1s ||| r.ro)) == 0) = true ∧
    row (tile + 0x21DC) (fun r => r.rwl == 0xFFFFFFFF) = true ∧
    row (tile + 0x187C) (fun r => r.w1s == 0x80000000 && r.w1c == 0x20000000) = true ∧ row (tile + 0x7008) (fun r => r.w1c == 0x1F) = true ∧
    row (tile + 0x2024) (fun r => r.ro == 0xFFFFFFFF) = true ∧ RegMap.find 4 = none ∧ RegMap.find (2 ^ 40 - 4) = none := by decide +kernel

/-! Ill-formed commands: for each check, one that it refuses. -/

/-- A packet of a type that R174 does not define. -/
def badPkt : Pkt := { epkt ptPush 0 with type := 12 }

/-- A packet that is well formed. -/
def goodPkt : Pkt := epkt ptPush 0

/-- A function that does not exist (R296). -/
theorem test_illFormed_function :
    (∀ a, (Instr.mbxReqTail 17 a).wellFormed = false) ∧
    (∀ a, (Instr.mbxCplHead 17 a).wellFormed = false) ∧
    (∀ a, (Instr.mbxNtcHead 17 a).wellFormed = false) ∧
    (∀ a, (Instr.mbxEnable 17 a).wellFormed = false) ∧
    (∀ a b, (Instr.mbxRequestTake 17 a b).wellFormed = false) ∧
    (∀ a, (Instr.hello ⟨17, 0, 0, 0⟩ a).wellFormed = false) ∧
    (Instr.getInfo ⟨17, 0, 0, 0⟩).wellFormed = false ∧
    (∀ a, (Instr.partCreate ⟨17, 0, 0, 0⟩ a).wellFormed = false) ∧
    (∀ a, (Instr.partCreateAmend ⟨17, 0, 0, 0⟩ a).wellFormed = false) ∧
    (∀ a, (Instr.partDestroy ⟨17, 0, 0, 0⟩ a).wellFormed = false) ∧
    (∀ a, (Instr.partReset ⟨17, 0, 0, 0⟩ a).wellFormed = false) ∧
    (Instr.partQuery ⟨17, 0, 0, 0⟩).wellFormed = false ∧
    (∀ a b, (Instr.loadTileProgram ⟨17, 0, 0, 0⟩ a b).wellFormed = false) ∧
    (∀ a b c d, (Instr.loadWeights ⟨17, 0, 0, 0⟩ a b c d).wellFormed = false) ∧
    (∀ a, (Instr.fabricLoad ⟨17, 0, 0, 0⟩ a).wellFormed = false) ∧
    (∀ a b c d, (Instr.fabricReadback ⟨17, 0, 0, 0⟩ a b c d).wellFormed = false) ∧
    (∀ a b, (Instr.start ⟨17, 0, 0, 0⟩ a b).wellFormed = false) ∧
    (∀ a b, (Instr.stop ⟨17, 0, 0, 0⟩ a b).wellFormed = false) ∧
    (∀ a b, (Instr.setPeriod ⟨17, 0, 0, 0⟩ a b).wellFormed = false) ∧
    (∀ a b c d e f, (Instr.linkConfig ⟨17, 0, 0, 0⟩ a b c d e f).wellFormed = false) ∧
    (∀ a b, (Instr.linkStatus ⟨17, 0, 0, 0⟩ a b).wellFormed = false) ∧
    (∀ a b, (Instr.routeEpoch ⟨17, 0, 0, 0⟩ a b).wellFormed = false) ∧
    (∀ a b, (Instr.routeEpochRejoin ⟨17, 0, 0, 0⟩ a b).wellFormed = false) ∧
    (∀ a b c d e f, (Instr.routeNotice ⟨17, 0, 0, 0⟩ a b c d e f).wellFormed = false) ∧
    (∀ a b c d, (Instr.powerState ⟨17, 0, 0, 0⟩ a b c d).wellFormed = false) ∧
    (∀ a b c d, (Instr.powerStateDevice ⟨17, 0, 0, 0⟩ a b c d).wellFormed = false) ∧
    (∀ a, (Instr.powerLimit ⟨17, 0, 0, 0⟩ a).wellFormed = false) ∧
    (∀ a b c d e f, (Instr.timeConfig ⟨17, 0, 0, 0⟩ a b c d e f).wellFormed = false) ∧
    (Instr.timeRead ⟨17, 0, 0, 0⟩).wellFormed = false ∧
    (∀ a b c d, (Instr.logRead ⟨17, 0, 0, 0⟩ a b c d).wellFormed = false) ∧
    (∀ a b c d e, (Instr.dumpRead ⟨17, 0, 0, 0⟩ a b c d e).wellFormed = false) ∧
    (∀ a b, (Instr.bootRecordRead ⟨17, 0, 0, 0⟩ a b).wellFormed = false) ∧
    (Instr.bootRecordClear ⟨17, 0, 0, 0⟩).wellFormed = false ∧
    (∀ a, (Instr.dramMap ⟨17, 0, 0, 0⟩ a).wellFormed = false) ∧
    (∀ a b c, (Instr.qosSet ⟨17, 0, 0, 0⟩ a b c).wellFormed = false) ∧
    (∀ a b c d, (Instr.fwUpdate ⟨17, 0, 0, 0⟩ a b c d).wellFormed = false) ∧
    (∀ a, (Instr.fwActivate ⟨17, 0, 0, 0⟩ a).wellFormed = false) ∧
    (∀ a b, (Instr.bar2Read 17 a b).wellFormed = false) ∧
    (∀ a b, (Instr.bar2Write 17 a b).wellFormed = false) ∧
    (Instr.functionLevelReset 17).wellFormed = false := by
  simp [Instr.wellFormed, Req.wf]

/-- A function that does not exist (R296). -/
theorem test_illFormed_function2 :
    (∀ a, (Instr.hostDmaCompletion 17 a).wellFormed = false) ∧
    (Instr.powerStateTimeout 17).wellFormed = false := by
  simp [Instr.wellFormed]

/-- A tile or router that does not exist (R18). -/
theorem test_illFormed_tile :
    (∀ a b c d, (Instr.loadWeights a 128 b c d).wellFormed = false) ∧
    (∀ a b c, (Instr.mma 128 a b c).wellFormed = false) ∧
    (∀ a b, (Instr.drain 128 a b).wellFormed = false) ∧
    (∀ a b, (Instr.clear 128 a b).wellFormed = false) ∧
    (∀ a, (Instr.mmaComplete 128 a).wellFormed = false) ∧
    (∀ a, (Instr.drainCapture 128 a).wellFormed = false) ∧
    (∀ a b, (Instr.mvm 128 a b).wellFormed = false) ∧
    (∀ a, (Instr.vload 128 a).wellFormed = false) ∧
    (∀ a, (Instr.mdrain 128 a).wellFormed = false) ∧
    (∀ a b c, (Instr.vld 128 a b c).wellFormed = false) ∧
    (∀ a b, (Instr.vst 128 a b).wellFormed = false) ∧
    (∀ a b, (Instr.vadd 128 a b).wellFormed = false) ∧
    (∀ a b, (Instr.vmul 128 a b).wellFormed = false) ∧
    (∀ a b, (Instr.vfma 128 a b).wellFormed = false) ∧
    (∀ a b, (Instr.vcmp 128 a b).wellFormed = false) ∧
    (∀ a b, (Instr.vsel 128 a b).wellFormed = false) ∧
    (∀ a b, (Instr.vmax 128 a b).wellFormed = false) ∧
    (∀ a b, (Instr.vmin 128 a b).wellFormed = false) ∧
    (∀ a b, (Instr.vexp2 128 a b).wellFormed = false) ∧
    (∀ a b, (Instr.vlog2 128 a b).wellFormed = false) ∧
    (∀ a b, (Instr.vrcp 128 a b).wellFormed = false) ∧
    (∀ a b, (Instr.vrsq 128 a b).wellFormed = false) ∧
    (∀ a b, (Instr.vexps 128 a b).wellFormed = false) ∧
    (∀ a b, (Instr.vrmaxi 128 a b).wellFormed = false) ∧
    (∀ a b, (Instr.vrmini 128 a b).wellFormed = false) ∧
    (∀ a b, (Instr.vrsum 128 a b).wellFormed = false) ∧
    (∀ a b, (Instr.vrssq 128 a b).wellFormed = false) ∧
    (∀ a b, (Instr.vcvt 128 a b).wellFormed = false) ∧
    (∀ a b, (Instr.vqnt 128 a b).wellFormed = false) ∧
    (∀ a b, (Instr.vdqnt 128 a b).wellFormed = false) ∧
    (∀ a b, (Instr.vbcast 128 a b).wellFormed = false) ∧
    (∀ a, (Instr.swin 128 a).wellFormed = false) ∧
    (∀ a, (Instr.sctxPause 128 a).wellFormed = false) ∧
    (∀ a, (Instr.sctxResume 128 a).wellFormed = false) ∧
    (∀ a, (Instr.sctxClose 128 a).wellFormed = false) ∧
    (∀ a b, (Instr.srel 128 a b).wellFormed = false) ∧
    (∀ a b, (Instr.spush 128 a b).wellFormed = false) ∧
    (∀ a, (Instr.tcgo 128 a).wellFormed = false) ∧
    (∀ a, (Instr.tcev 128 a).wellFormed = false) ∧
    (∀ a b, (Instr.signal 128 a b).wellFormed = false) := by
  simp [Instr.wellFormed]

/-- A tile or router that does not exist (R18). -/
theorem test_illFormed_tile2 :
    (∀ a b c, (Instr.signalRemote 128 a b c).wellFormed = false) ∧
    (∀ a b, (Instr.take 128 a b).wellFormed = false) ∧
    (∀ a b, (Instr.gate 128 a b).wellFormed = false) ∧
    (Instr.endEntry 128).wellFormed = false ∧
    (∀ a, (Instr.nop 128 a).wellFormed = false) ∧
    (∀ a b, (Instr.appadv 128 a b).wellFormed = false) ∧
    (Instr.itinOverrun 128).wellFormed = false ∧
    (Instr.tilePark 128).wellFormed = false ∧
    (Instr.tileDone 128).wellFormed = false ∧
    (∀ a, (Instr.waiterWake 128 a).wellFormed = false) ∧
    (∀ a, (Instr.tcNop 128 a).wellFormed = false) ∧
    (∀ a b, (Instr.tcAdd 128 a b).wellFormed = false) ∧
    (∀ a b, (Instr.tcSub 128 a b).wellFormed = false) ∧
    (∀ a b, (Instr.tcNeg 128 a b).wellFormed = false) ∧
    (∀ a b, (Instr.tcAbs 128 a b).wellFormed = false) ∧
    (∀ a b, (Instr.tcMin 128 a b).wellFormed = false) ∧
    (∀ a b, (Instr.tcMax 128 a b).wellFormed = false) ∧
    (∀ a b, (Instr.tcMinu 128 a b).wellFormed = false) ∧
    (∀ a b, (Instr.tcMaxu 128 a b).wellFormed = false) ∧
    (∀ a b, (Instr.tcAnd 128 a b).wellFormed = false) ∧
    (∀ a b, (Instr.tcOr 128 a b).wellFormed = false) ∧
    (∀ a b, (Instr.tcXor 128 a b).wellFormed = false) ∧
    (∀ a b, (Instr.tcNot 128 a b).wellFormed = false) ∧
    (∀ a b, (Instr.tcMov 128 a b).wellFormed = false) ∧
    (∀ a b, (Instr.tcCmp 128 a b).wellFormed = false) ∧
    (∀ a b, (Instr.tcShl 128 a b).wellFormed = false) ∧
    (∀ a b, (Instr.tcShr 128 a b).wellFormed = false) ∧
    (∀ a b, (Instr.tcSar 128 a b).wellFormed = false) ∧
    (∀ a b, (Instr.tcRol 128 a b).wellFormed = false) ∧
    (∀ a b, (Instr.tcRor 128 a b).wellFormed = false) ∧
    (∀ a b, (Instr.tcMul 128 a b).wellFormed = false) ∧
    (∀ a b, (Instr.tcMulh 128 a b).wellFormed = false) ∧
    (∀ a b, (Instr.tcMulhu 128 a b).wellFormed = false) ∧
    (∀ a b, (Instr.tcDivs 128 a b).wellFormed = false) ∧
    (∀ a b, (Instr.tcDivu 128 a b).wellFormed = false) ∧
    (∀ a b, (Instr.tcAddi 128 a b).wellFormed = false) ∧
    (∀ a b, (Instr.tcAndi 128 a b).wellFormed = false) ∧
    (∀ a b, (Instr.tcOri 128 a b).wellFormed = false) ∧
    (∀ a b, (Instr.tcXori 128 a b).wellFormed = false) ∧
    (∀ a b, (Instr.tcShli 128 a b).wellFormed = false) := by
  simp [Instr.wellFormed]

/-- A tile or router that does not exist (R18). -/
theorem test_illFormed_tile3 :
    (∀ a b, (Instr.tcShri 128 a b).wellFormed = false) ∧
    (∀ a b, (Instr.tcSari 128 a b).wellFormed = false) ∧
    (∀ a b, (Instr.tcCmpi 128 a b).wellFormed = false) ∧
    (∀ a b, (Instr.tcMovi 128 a b).wellFormed = false) ∧
    (∀ a b, (Instr.tcMovhi 128 a b).wellFormed = false) ∧
    (∀ a b, (Instr.tcMac 128 a b).wellFormed = false) ∧
    (∀ a b, (Instr.tcMsu 128 a b).wellFormed = false) ∧
    (∀ a b, (Instr.tcAclr 128 a b).wellFormed = false) ∧
    (∀ a b c d e, (Instr.tcAcld 128 a b c d e).wellFormed = false) ∧
    (∀ a b c d e f, (Instr.tcAccx 128 a b c d e f).wellFormed = false) ∧
    (∀ a b, (Instr.tcMaxi 128 a b).wellFormed = false) ∧
    (∀ a b, (Instr.tcMini 128 a b).wellFormed = false) ∧
    (∀ a b, (Instr.tcFmaxi 128 a b).wellFormed = false) ∧
    (∀ a b, (Instr.tcFmini 128 a b).wellFormed = false) ∧
    (∀ a b, (Instr.tcFadd 128 a b).wellFormed = false) ∧
    (∀ a b, (Instr.tcFsub 128 a b).wellFormed = false) ∧
    (∀ a b, (Instr.tcFmul 128 a b).wellFormed = false) ∧
    (∀ a b, (Instr.tcFfma 128 a b).wellFormed = false) ∧
    (∀ a b, (Instr.tcFdiv 128 a b).wellFormed = false) ∧
    (∀ a b, (Instr.tcFsqrt 128 a b).wellFormed = false) ∧
    (∀ a b, (Instr.tcFmin 128 a b).wellFormed = false) ∧
    (∀ a b, (Instr.tcFmax 128 a b).wellFormed = false) ∧
    (∀ a b, (Instr.tcFcmp 128 a b).wellFormed = false) ∧
    (∀ a b, (Instr.tcFabs 128 a b).wellFormed = false) ∧
    (∀ a b, (Instr.tcFneg 128 a b).wellFormed = false) ∧
    (∀ a b, (Instr.tcFcvtf 128 a b).wellFormed = false) ∧
    (∀ a b c, (Instr.tcFcvti 128 a b c).wellFormed = false) ∧
    (∀ a b, (Instr.tcPset 128 a b).wellFormed = false) ∧
    (∀ a b, (Instr.tcPget 128 a b).wellFormed = false) ∧
    (∀ a b, (Instr.tcMset 128 a b).wellFormed = false) ∧
    (∀ a b c, (Instr.tcPstep 128 a b c).wellFormed = false) ∧
    (∀ a b c, (Instr.tcIn 128 a b c).wellFormed = false) ∧
    (∀ a b c, (Instr.tcOutRelease 128 a b c).wellFormed = false) ∧
    (∀ a b c, (Instr.tcOutPush 128 a b c).wellFormed = false) ∧
    (∀ a b, (Instr.tcOutSetPending 128 a b).wellFormed = false) ∧
    (∀ a b, (Instr.tcOutPwrmode 128 a b).wellFormed = false) ∧
    (∀ a b, (Instr.tcFget 128 a b).wellFormed = false) ∧
    (∀ a b, (Instr.tcFset 128 a b).wellFormed = false) ∧
    (∀ a b c, (Instr.tcB 128 a b c).wellFormed = false) ∧
    (∀ a b c, (Instr.tcBl 128 a b c).wellFormed = false) := by
  simp [Instr.wellFormed]

/-- A tile or router that does not exist (R18). -/
theorem test_illFormed_tile4 :
    (∀ a b c, (Instr.tcBr 128 a b c).wellFormed = false) ∧
    (∀ a b c d, (Instr.tcLoop 128 a b c d).wellFormed = false) ∧
    (∀ a b c, (Instr.tcWait 128 a b c).wellFormed = false) ∧
    (∀ a b c, (Instr.tcSig 128 a b c).wellFormed = false) ∧
    (∀ a b c, (Instr.tcSigr 128 a b c).wellFormed = false) ∧
    (∀ a b, (Instr.tcWaite 128 a b).wellFormed = false) ∧
    (∀ a, (Instr.tcHalt 128 a).wellFormed = false) ∧
    (∀ a, (Instr.tcWaitp 128 a).wellFormed = false) ∧
    (Instr.seDramReadIssue 128).wellFormed = false ∧
    (∀ a, (Instr.seReserveSend 128 a).wellFormed = false) ∧
    (Instr.seGrantIssue 128).wellFormed = false ∧
    (Instr.seWriteSlot 128).wellFormed = false ∧
    (∀ a, (Instr.seReadSlot 128 a).wellFormed = false) ∧
    (Instr.routerFlit 144).wellFormed = false ∧
    (∀ a, (Instr.reserveTimeout 128 a).wellFormed = false) ∧
    (∀ a b, (Instr.storeScrubVisit 144 a b).wellFormed = false) ∧
    (Instr.storeCorrectionWriteback 144).wellFormed = false ∧
    (Instr.tileStall 128).wellFormed = false ∧
    (∀ a, (Instr.tileReset 128 a).wellFormed = false) ∧
    (∀ a, (Instr.seqImemData3Write 144 a).wellFormed = false) ∧
    (Instr.seqImemData3Read 144).wellFormed = false ∧
    (∀ a, (Instr.tcPmemDataHiWrite 144 a).wellFormed = false) ∧
    (Instr.tcPmemDataHiRead 144).wellFormed = false ∧
    (∀ a b, (Instr.prbCountHiWrite 144 a b).wellFormed = false) ∧
    (∀ a, (Instr.minSlackRearm 144 a).wellFormed = false) := by
  simp [Instr.wellFormed]

/-- A partition that does not exist (R11). -/
theorem test_illFormed_partition :
    (Instr.beatStart 16).wellFormed = false ∧
    (Instr.fabricReleaseStage 16).wellFormed = false ∧
    (Instr.fabReleaseStall 16).wellFormed = false ∧
    (∀ a, (Instr.recoveryStepComplete 16 a).wellFormed = false) ∧
    (Instr.generationRetireWait 16).wellFormed = false ∧
    (Instr.linkWaitExpiry 16).wellFormed = false ∧
    (∀ a, (Instr.recoveryFailed 16 a).wellFormed = false) := by
  simp [Instr.wellFormed]

/-- Operands past their range. -/
theorem test_illFormed_operand :
    (∀ a, (Instr.mvm 0 a [⟨1048576, 0, 0⟩]).wellFormed = false) ∧
    (∀ a b, (Instr.vld 0 a b [⟨1048576, 0, 0⟩]).wellFormed = false) ∧
    (Instr.seReadSlot 0 [⟨1048576, 0, 0⟩]).wellFormed = false ∧
    (Instr.mreq goodPkt [⟨1048576, 0, 0⟩]).wellFormed = false ∧
    (∀ a, (Instr.storeScrubVisit 0 a [⟨1048576, 0, 0⟩]).wellFormed = false) ∧
    (∀ a b c d e f, (Instr.retrainPause a 2 b c d e f).wellFormed = false) ∧
    (∀ a b c d e f, (Instr.retrainPause a b 2 c d e f).wellFormed = false) ∧
    (∀ a, (Instr.pageIdleClose a 64).wellFormed = false) := by
  simp [Instr.wellFormed, SoftErr.wf]

/-- A packet of no defined type (R174). -/
theorem test_illFormed_packet :
    (Instr.reserve badPkt).wellFormed = false ∧
    (Instr.grant badPkt).wellFormed = false ∧
    (Instr.push badPkt).wellFormed = false ∧
    (Instr.signalPacket badPkt).wellFormed = false ∧
    (Instr.sigack badPkt).wellFormed = false ∧
    (Instr.drd badPkt).wellFormed = false ∧
    (Instr.drdr badPkt).wellFormed = false ∧
    (Instr.dwr badPkt).wellFormed = false ∧
    (Instr.dwra badPkt).wellFormed = false ∧
    (Instr.credit badPkt).wellFormed = false ∧
    (∀ a, (Instr.mreq badPkt a).wellFormed = false) ∧
    (Instr.mrsp badPkt).wellFormed = false := by
  simp [Instr.wellFormed, Pkt.wf, badPkt]

/-- An edge port that does not exist (R186). -/
theorem test_illFormed_edge :
    (∀ a, (Instr.edgeInPair 32 a).wellFormed = false) ∧
    (Instr.edgePairTimeout 32).wellFormed = false ∧
    (Instr.edgeRepush 32).wellFormed = false ∧
    (∀ a, (Instr.edgeOutPair 32 a).wellFormed = false) := by
  simp [Instr.wellFormed]

/-- A sector that does not exist (R194). -/
theorem test_illFormed_sector :
    (∀ a b c d e, (Instr.fabDramRequest 32 a b c d e).wellFormed = false) ∧
    (∀ a b c, (Instr.pllLock 24 a b c).wellFormed = false) := by
  simp [Instr.wellFormed]

/-- A DRAM channel that does not exist (R272). -/
theorem test_illFormed_dram :
    (∀ a b, (Instr.dramCommandSlot 8 a b).wellFormed = false) ∧
    (∀ a b, (Instr.dramRequestComplete 8 a b).wellFormed = false) ∧
    (Instr.refreshInterval 8).wellFormed = false ∧
    (Instr.selfRefreshEntry 8).wellFormed = false ∧
    (Instr.selfRefreshExit 8).wellFormed = false ∧
    (∀ a b c d e f, (Instr.retrainPause 8 a b c d e f).wellFormed = false) ∧
    (Instr.dramPatrolRead 8).wellFormed = false ∧
    (Instr.dramCeWriteback 8).wellFormed = false ∧
    (∀ a, (Instr.pageIdleClose 8 a).wellFormed = false) ∧
    (Instr.channelReset 8).wellFormed = false ∧
    (Instr.retrainPauseEnd 8).wellFormed = false ∧
    (Instr.channelResetDone 8).wellFormed = false := by
  simp [Instr.wellFormed]

/-- A lane or port that does not exist (R233). -/
theorem test_illFormed_lane :
    (∀ a b c d e f, (Instr.retrainPause a b c 40 d e f).wellFormed = false) ∧
    (Instr.frameTransmit 96).wellFormed = false ∧
    (∀ a, (Instr.trainFrame 96 a).wellFormed = false) ∧
    (∀ a, (Instr.dataFrame 96 a).wellFormed = false) ∧
    (Instr.commaLock 96).wellFormed = false ∧
    (Instr.trainFail 96).wellFormed = false ∧
    (Instr.portUp 96).wellFormed = false ∧
    (∀ a, (Instr.portDown 96 a).wellFormed = false) ∧
    (Instr.heartbeatSend 96).wellFormed = false ∧
    (∀ a b, (Instr.idleFlit 96 a b).wellFormed = false) ∧
    (∀ a b, (Instr.lctlHeartbeat 96 a b).wellFormed = false) ∧
    (∀ a b c, (Instr.lctlNak 96 a b c).wellFormed = false) ∧
    (∀ a b c d, (Instr.lctlAdapt 96 a b c d).wellFormed = false) ∧
    (∀ a b c d, (Instr.lctlAdapt a 96 b c d).wellFormed = false) ∧
    (Instr.nakRepeat 96).wellFormed = false ∧
    (Instr.replayLimit 96).wellFormed = false ∧
    (∀ a b c, (Instr.dataFlit 96 a b c).wellFormed = false) ∧
    (∀ a b c, (Instr.hdataFlit 96 a b c).wellFormed = false) ∧
    (∀ a b c, (Instr.edataFlit 96 a b c).wellFormed = false) ∧
    (Instr.acceptWindowClose 96).wellFormed = false ∧
    (∀ a b c d, (Instr.delayReq 96 a b c d).wellFormed = false) ∧
    (∀ a b c d e, (Instr.delayResp 96 a b c d e).wellFormed = false) := by
  simp [Instr.wellFormed]

/-- A channel that does not exist (R256). -/
theorem test_illFormed_channel :
    (∀ a b, (Instr.commitMarker 256 a b).wellFormed = false) ∧
    (∀ a b, (Instr.gapMarker 256 a b).wellFormed = false) ∧
    (∀ a, (Instr.creditRecord 256 a).wellFormed = false) ∧
    (Instr.channelItemConsume 256).wellFormed = false := by
  simp [Instr.wellFormed]

/-- A rail, scope or domain that does not exist (R341, R343). -/
theorem test_illFormed_power :
    (∀ a, (Instr.avsAck 6 a).wellFormed = false) ∧
    (Instr.avsTimeout 6).wellFormed = false ∧
    (Instr.rungExitComplete 17).wellFormed = false ∧
    (Instr.rampComplete 176).wellFormed = false ∧
    (∀ a b, (Instr.rampShort 176 a b).wellFormed = false) ∧
    (Instr.rungEntryComplete 17).wellFormed = false ∧
    (Instr.railOutOfTolerance 16).wellFormed = false := by
  simp [Instr.wellFormed]

/-- The other checks: lengths, list elements, the phase, and fuses that do not exist. -/
theorem test_illFormed_lists :
    (Instr.loadWeights r0 0 0 (List.replicate 8193 0) 0).wellFormed = false ∧ (Instr.bar2Read 0 0 0).wellFormed = false ∧
    (Instr.bar2Write 0 0 []).wellFormed = false ∧ (Instr.imageHeader (.load 16) []).wellFormed = false ∧
    (Instr.writeFrame 1 0 []).wellFormed = false ∧ (Instr.writeRepeat 1 0 []).wellFormed = false ∧
    (Instr.dramCommandSlot 0 [] [8]).wellFormed = false ∧ (Instr.ppsInEdge (-500000000000)).wellFormed = false ∧
    (Instr.ppsInEdge 500000000001).wellFormed = false ∧ (Instr.ppsInEdge 500000000000).wellFormed = true ∧
    (Instr.recoveryStepComplete 0 [(16, 0)]).wellFormed = false ∧ (Instr.recoveryStepComplete 0 [(0, 9)]).wellFormed = false ∧
    (Instr.testPortAccess (.fuse 387)).wellFormed = false ∧ (Instr.pllLock 0 true .time [10, 10, 10]).wellFormed = false ∧
    (Instr.pllLock 0 true .time [10, 10, 10, 9]).wellFormed = false ∧ (Instr.pllLock 0 true (.pin 4 0) [10, 10, 10, 10]).wellFormed = false ∧
    (Instr.pllLock 0 true (.pin 3 60) [10, 10, 10, 10]).wellFormed = false ∧
    (Instr.pllLock 23 true (.pin 3 0) [10, 800, 10, 10]).wellFormed = true := by decide +kernel

theorem test_illFormed_environments :
    (∀ f ∈ [(128, 0, 0, 0), (0, 2, 0, 0), (0, 0, 8192, 0), (0, 0, 0, 3)], (Instr.milestone ⟨[], [f]⟩).wellFormed = false) ∧
    (Instr.bootStepComplete ⟨true, 0, [], [], [(16, 0)], [], []⟩).wellFormed = false ∧
    (Instr.bootStepComplete ⟨true, 0, [], [], [], [⟨8, 4800, true, 8, 16, 1, 16, false, true, false, 0⟩], []⟩).wellFormed = false ∧
    (Instr.bootStepComplete ⟨true, 0, [], [], [], [], [(144, 0)]⟩).wellFormed = false := by decide +kernel

theorem test_illFormed_packets :
    ({ goodPkt with dkind := true, dst := 49 }).wf = false ∧ ({ goodPkt with skind := true, src := 49 }).wf = false ∧ goodPkt.wf = true ∧
    (⟨0, 4, 0⟩ : SoftErr).wf = false ∧ (⟨1048575, 3, 0⟩ : SoftErr).wf = true := by decide +kernel

/-! The worked examples of the spec. -/

/-- Whether a command answers a next state of which something holds. -/
def answers (o : Host.Outcome State Fault Refusal) (p : State → Bool) : Bool :=
  match o with
  | .next u => p u
  | _ => false

/-- X byte address 0x12345 has wide-view byte address 0x24545, in row 0x91; the same offset in Y has 0x24745 (R106). -/
theorem test_narrowViews : narrowAddr false 0x12345 = 0x24545 ∧ narrowAddr true 0x12345 = 0x24745 ∧ 0x24545 / 1024 = 0x91 := by decide

/-- Step 144 and len 24: 0x1140 becomes 0x1110 (R142). -/
theorem test_modstep : modstep 0x1140 (BitVec.ofNat 32 (144 + 24 * 2 ^ 16)) = 0x1110 := by decide +kernel

/-- The group of 32 B8e4 pairs with three that are not zero: 0x3F80_0000 becomes 0x3F80_0010, +0 becomes 2^-19 (R88 to R91). -/
theorem test_groupFloat :
    let codes := [(0x7E, 0x7E), (0x01, 0x01), (0xFE, 0x7E)] ++ List.replicate 29 (0, 0)
    groupFloat 0 0 true codes 0x7C 0x81 0x3F800000 = 0x3F800010 ∧ groupFloat 0 0 true codes 0x7C 0x81 0 = 0x36000000 := by decide +kernel

/-- Block P, amax 470, in saturating and non-saturating mode (R96). -/
theorem test_quantBlock_P :
    let p := [0x43EB0000, 0x43E80000, 0x40533333, 0x3F400000, 0xBA800000].map Fmt.fp32.decode
    quantBlock 0 true p = (0x7F, [0x7E, 0x7E, 0x45, 0x34, 0x80]) ∧ quantBlock 0 false p = (0x7F, [0x7F, 0x7E, 0x45, 0x34, 0x80]) := by
  decide +kernel

/-- Block Q, amax 0.03, and its residual; a B8e5 block with amax 61,440 and a B4e2 block with amax 7 (R96, R100). -/
theorem test_quantBlock_Q :
    quantBlock 0 true [Fmt.fp32.decode 0x3CF5C28F] = (0x71, [0x7E]) ∧ (expandElem 0 0x7E 0x71).code = 0x3CE00000 ∧
    quantBlock 0 true [Fmt.fp32.decode 0x3B2E1478] = (0x6E, [0x7B]) ∧
    quantBlock 1 true [Fmt.fp32.decode 0x47700000] = (0x7F, [0x7B]) ∧ quantBlock 1 false [Fmt.fp32.decode 0x47700000] = (0x7F, [0x7C]) ∧
    quantBlock 2 false [Fmt.fp32.decode 0x40E00000] = (0x7F, [7]) := by decide +kernel

/-- ACCX with sh 16 and w 16 (R146). -/
theorem test_accExtract :
    [0x0000018000, 0x0000028000, 0x0000028001, 0xFFFFFE8000, 0x0080000000].map (fun a => accExtract false false a 16) =
      [(2, false), (2, false), (3, false), (0xFFFFFFFE, false), (0xFFFF8000, true)] ∧
    [0x0000018000, 0x0000028000, 0x0000028001, 0xFFFFFE8000, 0x0080000000].map (fun a => accExtract true false a 16) =
      [(2, false), (2, false), (3, false), (0xFFFFFFFE, false), (0x7FFF, true)] := by decide +kernel

/-- DIVU and DIVS by 0 (R145). -/
theorem test_divideByZero :
    (aluDivu 9 0).1 = 0xFFFFFFFF ∧ (aluDivu 9 0).2.1 = 9 ∧ (aluDivs false 9 0).1 = 0x7FFFFFFF ∧
    (aluDivs false 0xFFFFFFF7 0).1 = 0x80000000 ∧ (aluDivs false 0xFFFFFFF7 0).2.1 = 0xFFFFFFF7 := by decide +kernel

/-- The prefill tile: K = 5,120 in B4e2 takes 2,560 handshakes, 160 data reads, 10 scale reads and 2 writes (R64, R66, R67). -/
theorem test_mma_slots :
    let f : MmaFields := ⟨0, 80, 0, 160, 0, 79, 2, 2, 1, 1, 1, true, true, false, false, false⟩
    f.S = 2560 ∧ (mmaReads 0 0 0 f).length = 170 ∧ drainRows 1 = 2 := by decide +kernel

/-- The MMA of 512 B8e4 pairs: A rows at 0, 32, …, 480, B rows at 1, 33, …, 481, scale rows at 2 and 3 (R66). -/
theorem test_mma_claims :
    let f : MmaFields := ⟨0, 16, 0, 32, 0, 15, 0, 0, 1, 1, 1, true, true, false, false, false⟩
    let l := (mmaReads 0 0 0 f).map (fun r => r.1)
    f.S = 512 ∧ l.length = 34 ∧ (∀ k, k < 16 → 32 * k ∈ l ∧ 32 * k + 1 ∈ l) ∧ 2 ∈ l ∧ 3 ∈ l := by decide +kernel

/-- BAND mode: 0x40_0123_5A40 is channel F, offset 0x48_DA40: subchannel 1, burst column 52, row 18, bank group 4, bank 0 (R275, R276). -/
theorem test_bandMap :
    let s := { State.reset with regs := [(Reg.DDR_MAP_CTRL, 1)] }
    let o := 0x48DA40
    s.dramLoc 0x4001235A40 = (5, o) ∧ o / 64 % 2 = 1 ∧ o / 128 % 64 = 52 ∧ s.ddrRow 5 o = 18 ∧ s.ddrRank 5 o = 0 ∧ s.ddrGroup 5 o = 4 ∧
    ddrBankIdx o = 0 := by decide +kernel

/-- The exchange of the follower: delay 170 ns, offset −10 ns (R326). -/
theorem test_exchange :
    let s := tu 0 1 { State.reset.timeUnit with sent := [(7, 1000000 * 65536)] } []
    let m : TimeMsg := ⟨0, 0, 7, 1000180, 0, 1000400, 0, 0, 0, 0, 0, 0xFFFF, 0xFFFF⟩
    answers (exec (.delayResp 95 (hd 1 0) true m (1000560 * 65536) false) s)
      (fun u => u.rd Reg.TIME_DELAY == 170000 && (u.rd Reg.TIME_OFFSET).toInt == -10000) = true := by decide +kernel

/-! Effects, one step each. -/

theorem witness_OutcomesCountAsTheyShould : (15 : Nat) < 16 ∧ (3 : Nat) < 4 ∧ ({ sp x0 2 [] with parts := [(15, x0)] }).step48 15 = 0 := by
  decide +kernel

/-- GATE of 3 on a semaphore of 4 leaves 1 (R158). -/
theorem test_gate :
    answers (exec (.gate 0 5 3) (st Tile.reset [(Reg.SEM_CFG 0 5, 4), (Reg.SEM_CNT 0 5, 4)])) (fun u => u.semCount 0 5 == 1) = true := by
  decide +kernel

/-- A signal past the capacity is not applied, and raises the fault one handshake later (R155, R156). -/
theorem test_overflow :
    answers (exec (.signal 0 5 1) (st Tile.reset [(Reg.SEM_CFG 0 5, 3), (Reg.SEM_CNT 0 5, 3)]))
      (fun u => (u.advanceTo 0 1).bit (Reg.SEM_FAULT 0) 0 && (u.advanceTo 0 1).semCount 0 5 == 3) = true := by decide +kernel

/-- 5 − 7 is −2; with saturation the extremes stay (R144). -/
theorem test_sub : (aluSub false 5 7).1 = 0xFFFFFFFE ∧ (aluSub true 0x80000000 1).1 = 0x80000000 ∧
    (aluAdd true 0x7FFFFFFF 1).1 = 0x7FFFFFFF ∧ (aluAdd false 0x7FFFFFFF 1).1 = 0x80000000 := by decide +kernel

/-- The release of `POR_N` starts step B0 (R351); at its end, without a boot record, the boot is the first (R354). -/
theorem test_porRelease : answers (exec (.porRelease 0 0xFFF) State.reset) (fun u => u.boot.steps == [0]) = true ∧
    answers (exec (.bootStepComplete (envOf true dir0 [])) (atStep [0] false 0)) (fun u => u.boot.steps == [1] && u.rd Reg.BOOT_COUNT == 1) = true := by
  decide +kernel

/-- A write of a reserved bit is unpredictable within the device (R16). -/
theorem test_reservedBit :
    exec (.registerWrite (BitVec.ofNat 40 (Reg.tileBase 143 + 0x2010)) 4) State.reset = .fault (.unpredictableInDevice 16) := rfl

/-- The first command that waits is taken; the rest stays. -/
theorem test_step_front :
    answers (step { State.reset with pending := [.perstDeassert, .vbatLoss] }) (fun u => u.pending.length == 1 && !u.boot.perst) = true := by
  decide +kernel

/-! Written words. -/

/-- Words written out bit by bit from the tables: NOP with repeat 5, GATE of semaphore 3 by 2, remote SIGNAL of semaphore 63 by 4,095
to tile 100, SWIN of 8 read slots every 4 handshakes for context 2, VBCAST of 1.0 to v7 in FP32, ADD g3, g1, g2 with saturation and
no moves, MOVI g31 with 0x8001, LOOP of 10 iterations up to instruction 0x123, and ADDI g1, g2, −1 with an X load of 4 bytes
through xp1 into g9, post-incremented. A reserved bit that is set, an unknown engine and an unknown opcode decode to nothing. -/
theorem test_written_entries :
    decodeEntry 4 (0b1111_00000000_0000000101#22 ++ 0#106) = some (.nop 4 5) ∧
    decodeEntry 4 (0b0111_00000001_0000000000_000011_000000000010#40 ++ 0#88) = some (.gate 4 3 2) ∧
    decodeEntry 4 (0b0110_00000001_0000000000_111111_111111111111_1_1100100#48 ++ 0#80) = some (.signalRemote 4 63 4095 100) ∧
    decodeEntry 4 (0b0100_00000001_0000000000_0000000000111_000100_1_00000100#50 ++ 0#78) =
      some (.swin 4 { countM1 := 7, stride := 4, dir := true, mask := 4 }) ∧
    decodeEntry 4 (0b0011_00010110_0000000000_0111_0000_0000_0000_0000000000000_000_00111111100000000000000000000000_0000#90 ++ 0#38) =
      some (.vbcast 4 0 { vd := 7, va := 0, vb := 0, vc := 0, row := 0, fmt := 0, imm := 0x3F800000, mode := 0 }) := by decide +kernel

theorem test_written_tc :
    decodeTc 4 (0b00000001_00011_00001_00010_1_00000000#32 ++ 0#32) = some (.tcAdd 4 (decodeMoves 0) { d := 3, a := 1, b := 2, s := true }) ∧
    decodeTc 4 (0b00101000_11111_000_1000000000000001#32 ++ 0#32) = some (.tcMovi 4 (decodeMoves 0) { d := 31, imm := 0x8001 }) ∧
    decodeTc 4 (0b01100011_0_0000001010_0000100100011#32 ++ 0#32) = some (.tcLoop 4 (decodeMoves 0) false 10 0x123) ∧
    decodeTc 4 (0b00100000_00001_00010_11111111111111#32 ++ 0b1_0_01_01_10_0_01001_00#16 ++ 0#16) =
      some (.tcAddi 4 { x := { en := true, st := false, p := 1, mode := 1, size := 2, sx := false, reg := 9 }, y := decodeMove 0 }
        { d := 1, a := 2, imm := 0x3FFF }) := by decide +kernel

/-- Reserved bits and unknown engines and opcodes decode to nothing (R127, R143). -/
theorem test_written_none :
    decodeEntry 4 (0b1111_00000000_0000000101#22 ++ 1#106) = none ∧ decodeEntry 4 (0b1000_00000000_0000000000#22 ++ 0#106) = none ∧
    decodeEntry 4 (0b1110_00000001_0000000000#22 ++ 0#106) = none ∧ decodeTc 4 (0b11111111#8 ++ 0#56) = none ∧
    decodeTc 4 (0b00000000#8 ++ 1#56) = none := by decide +kernel

end Sys2Proof.Tests
end

section
/-! The register map after reset: where a copy of a block decodes to, and the value that its Reset column gives. -/
namespace Sys2Proof.Machine

/-- No two blocks of the register map overlap. -/
theorem RegMap.blocks_disjoint :
    RegMap.blocks.Pairwise (fun b c => b.base + b.n * b.stride ≤ c.base ∨ c.base + c.n * c.stride ≤ b.base) := by decide

/-- A test that no two elements of a list pass finds the element that passes it. -/
theorem find?_eq_of_exclusive {α : Type} {p : α → Bool} {b : α} {l : List α} (hl : l.Pairwise (fun x y => ¬(p x = true ∧ p y = true)))
    (hb : b ∈ l) (hp : p b = true) : l.find? p = some b := by
  induction l with
  | nil => cases hb
  | cons x r ih =>
    obtain ⟨hx, hr⟩ := List.pairwise_cons.mp hl
    rcases List.mem_cons.mp hb with rfl | hm
    · simp [hp]
    · have : p x ≠ true := fun e => hx b hm ⟨e, hp⟩
      simp [this, ih hr hm]

/-- An offset within a copy of a block decodes to that block and copy, and to the row that holds the offset (R14). -/
theorem RegMap.find_copy {b : RegBlock} (hb : b ∈ RegMap.blocks) {i o : Nat} (hi : i < b.n) (ho : o < b.stride) :
    RegMap.find (b.base + i * b.stride + o) = (b.rowAt o).map (fun r => (b, i, r)) := by
  have hle : (i + 1) * b.stride ≤ b.n * b.stride := Nat.mul_le_mul_right _ hi
  rw [Nat.add_mul, Nat.one_mul] at hle
  have hf : RegMap.blocks.find? (fun c => c.base ≤ b.base + i * b.stride + o && b.base + i * b.stride + o < c.base + c.n * c.stride) = some b := by
    refine find?_eq_of_exclusive (RegMap.blocks_disjoint.imp fun {c d} h => ?_) hb ?_
    · simp only [Bool.and_eq_true, decide_eq_true_eq]; omega
    · simp only [Bool.and_eq_true, decide_eq_true_eq]; omega
  have hsub : b.base + i * b.stride + o - b.base = o + b.stride * i := by rw [Nat.mul_comm b.stride]; omega
  simp only [RegMap.find, hf, hsub, Nat.add_mul_mod_self_left, Nat.mod_eq_of_lt ho,
    Nat.add_mul_div_left _ _ (show 0 < b.stride by omega), Nat.div_eq_of_lt ho, Nat.zero_add]
  cases b.rowAt o <;> rfl

/-- A decoded address lies in a copy of a block of the map, at an offset that the decoded row holds. -/
theorem RegMap.find_some {a i : Nat} {b : RegBlock} {r : RegRow} (h : RegMap.find a = some (b, i, r)) :
    b ∈ RegMap.blocks ∧ b.rowAt ((a - b.base) % b.stride) = some r := by
  unfold RegMap.find at h
  split at h
  · cases h
  · next c hc =>
    split at h
    · cases h
    · next q hq =>
      obtain ⟨rfl, -, rfl⟩ : c = b ∧ _ = i ∧ q = r := by simpa using h
      exact ⟨List.mem_of_find?_eq_some hc, hq⟩

/-- A row holds no offset below its own. -/
theorem RegBlock.rowAt_off_le {b : RegBlock} {o : Nat} {r : RegRow} (h : b.rowAt o = some r) : r.off ≤ o := by
  have := List.find?_some h
  simp only [Bool.and_eq_true, decide_eq_true_eq] at this
  exact this.1.1

/-- The rows (base of the block, offset) whose Reset column names a value by tile, port, rail or function: `TILE_ID`, the latency
targets, the voltages of the rails, `MBX_ID` and the PCIe identity. -/
def Reg.rowsByUnit : List (Nat × Nat) :=
  [(0x10000000, 0), (0x50000000, 0x10), (0x71000000, 0x300), (0x100000000, 0), (0x100000000, 0x3000)]

/-- The only block at the mailboxes' base is theirs. -/
theorem RegMap.eq_mbx_of_base {b : RegBlock} (hb : b ∈ RegMap.blocks) (h : b.base = 0x100000000) : b = RegMap.mbx := by
  have : ∀ c ∈ RegMap.blocks, c.base = 0x100000000 → c = RegMap.mbx := by decide
  exact this b hb h

/-- A register of any other row has the value of its Reset column. -/
theorem Reg.resetOf_plain {a i : Nat} {b : RegBlock} {r : RegRow} (h : RegMap.find a = some (b, i, r)) (hd : a ≠ Reg.TIME_MS_TREE_DELAY)
    (hn : (b.base, r.off) ∉ Reg.rowsByUnit) : Reg.resetOf a = r.reset := by
  obtain ⟨hb, hr⟩ := RegMap.find_some h
  have hle := RegBlock.rowAt_off_le hr
  simp only [Reg.rowsByUnit, List.mem_cons, Prod.mk.injEq, List.not_mem_nil, or_false, not_or] at hn
  obtain ⟨htile, hqos, hrail, hmbx, hpci⟩ := hn
  have h3000 : ¬(b.base = 0x100000000 ∧ (a - b.base) % b.stride = 0x3000) := by
    rintro ⟨hbase, ho⟩
    obtain rfl := RegMap.eq_mbx_of_base hb hbase
    rw [ho, show RegMap.mbx.rowAt 0x3000 = some ⟨0x3000, 1, 0x4, 0x0, 0x0, 0x0, 0x0, 0xFFFFFFFF, 0x0⟩ by decide] at hr
    obtain rfl := Option.some.inj hr
    exact hpci ⟨hbase, rfl⟩
  simp only [Reg.resetOf, h]
  rw [if_neg (by omega), if_neg hqos, if_neg hrail, if_neg (by omega), if_neg h3000, if_neg hd]

/-- After reset a register reads as the map's reset value. -/
@[simp] theorem State.reset_rd (a : Nat) : State.reset.rd a = Reg.resetOf a := rfl

/-- The reset value at an offset of a copy of a block: that of the unit where the Reset column names one, and otherwise the
row's. -/
theorem Reg.resetOf_copy {b : RegBlock} (hb : b ∈ RegMap.blocks) {i o : Nat} {r : RegRow} (hi : i < b.n) (ho : o < b.stride)
    (hr : b.rowAt o = some r) :
    Reg.resetOf (b.base + i * b.stride + o) =
      if b.base = 0x10000000 ∧ o = 0 then RegMap.tileId i
      else if b.base = 0x50000000 ∧ r.off = 0x10 then RegMap.qosReset ((o - 0x10) / 4)
      else if b.base = 0x71000000 ∧ r.off = 0x300 then RegMap.railReset ((o - 0x300) / 8)
      else if b.base = 0x100000000 ∧ o = 0 then RegMap.mbxId i
      else if b.base = 0x100000000 ∧ o = 0x3000 then RegMap.pciId i
      else if b.base + i * b.stride + o = Reg.TIME_MS_TREE_DELAY then Config.treeDelay.setWidth 32
      else r.reset := by
  have hsub : (b.base + i * b.stride + o - b.base) % b.stride = o := by
    rw [show b.base + i * b.stride + o - b.base = o + b.stride * i by rw [Nat.mul_comm b.stride]; omega, Nat.add_mul_mod_self_left,
      Nat.mod_eq_of_lt ho]
  simp only [Reg.resetOf, RegMap.find_copy hb hi ho, hr, Option.map_some, hsub]

/-- `TILE_ID` of a tile block. -/
theorem Reg.resetOf_TILE_ID {t : Nat} (ht : t < 144) : Reg.resetOf (Reg.TILE_ID t) = RegMap.tileId t :=
  (Reg.resetOf_copy (b := RegMap.tile) (i := t) (o := 0) (r := ⟨0x0, 1, 0x4, 0x0, 0x0, 0x0, 0x0, 0xFFFFFFFF, 0x0⟩)
    (by decide) ht (by decide) (by decide)).trans (if_pos ⟨rfl, rfl⟩)

/-- `MBX_ID` of a function. -/
theorem Reg.resetOf_MBX_ID {f : Nat} (hf : f < 17) : Reg.resetOf (Reg.MBX_ID f) = RegMap.mbxId f :=
  (Reg.resetOf_copy (b := RegMap.mbx) (i := f) (o := 0) (r := ⟨0x0, 1, 0x4, 0x0, 0x0, 0x0, 0x0, 0xFFFFFFFF, 0x0⟩)
    (by decide) hf (by decide) (by decide)).trans rfl

/-- The PCIe identity of a function. -/
theorem Reg.resetOf_PCI_ID {f : Nat} (hf : f < 17) : Reg.resetOf (Reg.PCI_ID f) = RegMap.pciId f :=
  (Reg.resetOf_copy (b := RegMap.mbx) (i := f) (o := 0x3000) (r := ⟨0x3000, 1, 0x4, 0x0, 0x0, 0x0, 0x0, 0xFFFFFFFF, 0x0⟩)
    (by decide) hf (by decide) (by decide)).trans rfl

/-- The latency target of a port of a DRAM channel. -/
theorem Reg.resetOf_DDR_PORT_QOS {ch k : Nat} (hc : ch < 8) (hk : k < 6) :
    Reg.resetOf (Reg.DDR_PORT_QOS ch k) = RegMap.qosReset k := by
  have hr : ∀ k < 6, RegMap.ddr.rowAt (0x10 + k * 4) = some ⟨0x10, 6, 0x4, 0x3FFF, 0x0, 0x0, 0x0, 0x0, 0x0⟩ := by decide
  have h := Reg.resetOf_copy (b := RegMap.ddr) (i := ch) (by decide) hc (by simp only [RegMap.ddr]; omega) (hr k hk)
  rw [← Nat.add_assoc] at h
  exact h.trans (by rw [show (0x10 + k * 4 - 0x10) / 4 = k by omega]; rfl)

/-- The voltage of a rail. -/
theorem Reg.resetOf_PWR_RAIL_V {k : Nat} (hk : k < 6) : Reg.resetOf (Reg.PWR_RAIL_V k) = RegMap.railReset k := by
  have hr : ∀ k < 6, RegMap.pwr.rowAt (0x300 + k * 8) = some ⟨0x300, 6, 0x8, 0x0, 0x0, 0x0, 0x0, 0xFFFFFFFF, 0x0⟩ := by decide
  have h := Reg.resetOf_copy (b := RegMap.pwr) (i := 0) (by decide) (by decide) (by simp only [RegMap.pwr]; omega) (hr k hk)
  rw [show RegMap.pwr.base + 0 * RegMap.pwr.stride + (0x300 + k * 8) = Reg.PWR_RAIL_V k from (Nat.add_assoc _ _ _).symm,
    Nat.add_sub_cancel_left, Nat.mul_div_cancel _ (by decide)] at h
  exact h

/-- A register of a partition's block has the value of its Reset column. -/
theorem Reg.resetOf_beat {p o : Nat} {v : Word} (hp : p < 16) (ho : o < 0x100)
    (hv : (RegMap.beat.rowAt o).map RegRow.reset = some v) : Reg.resetOf (Reg.beatBase p + o) = v := by
  obtain ⟨r, hr, rfl⟩ := Option.map_eq_some_iff.mp hv
  have h := RegMap.find_copy (b := RegMap.beat) (by decide) (i := p) hp ho
  rw [hr, show RegMap.beat.base + p * RegMap.beat.stride + o = Reg.beatBase p + o from rfl] at h
  refine Reg.resetOf_plain h ?_ (by simp [Reg.rowsByUnit, RegMap.beat])
  have hbase : Reg.beatBase p = 0x73008000 + p * 0x100 := rfl
  have hdelay : Reg.TIME_MS_TREE_DELAY = 0x7000012C := rfl
  omega

/-- At reset no partition exists or is armed, each is STOPPED, and its slip limit is 4. -/
theorem State.reset_partition {p : Nat} (hp : p < 16) :
    State.reset.rd (Reg.PART_BEAT_CTRL p) = 0x400 ∧ State.reset.pstate p = psStopped ∧ State.reset.part p = none ∧
    State.reset.bit (Reg.PART_START_AT_HI p) 31 = false ∧ State.reset.bit (Reg.PART_STOP_AT_HI p) 31 = false := by
  have hctrl : Reg.resetOf (Reg.PART_BEAT_CTRL p) = 0x400 := Reg.resetOf_beat (o := 0) hp (by decide) (by decide)
  have hstat : Reg.resetOf (Reg.PART_BEAT_STATUS p) = 0 := Reg.resetOf_beat hp (by decide) (by decide)
  have hstart : Reg.resetOf (Reg.PART_START_AT_HI p) = 0 := Reg.resetOf_beat hp (by decide) (by decide)
  have hstop : Reg.resetOf (Reg.PART_STOP_AT_HI p) = 0 := Reg.resetOf_beat hp (by decide) (by decide)
  refine ⟨hctrl, ?_, rfl, ?_, ?_⟩
  · simp only [State.pstate, State.fld, State.reset_rd, hstat]; decide
  · simp only [State.bit, State.reset_rd, hstart]; decide
  · simp only [State.bit, State.reset_rd, hstop]; decide

/-- Settles O3: every register decodes to a row of a block, and its reset value is the row's but for the rows that name a unit. -/
theorem resetHoldsTheResetColumn : Obligations.ResetHoldsTheResetColumn := by
  refine ⟨fun a b i r h hd hn => Reg.resetOf_plain h hd hn, fun t ht => Reg.resetOf_TILE_ID ht, fun f hf => ?_,
    by rfl, by decide, by decide, by decide, fun p hp => State.reset_partition hp, fun t ht => ⟨?_, rfl⟩, fun f hf => ⟨?_, rfl⟩,
    fun r hr => Reg.resetOf_PWR_RAIL_V hr, fun ch hc => ⟨Reg.resetOf_DDR_PORT_QOS hc (by decide),
      Reg.resetOf_DDR_PORT_QOS hc (by decide), fun k hk => ?_⟩, rfl, rfl, rfl, rfl, rfl, rfl, rfl, fun _ _ => rfl⟩
  · rw [State.reset_rd, Reg.resetOf_PCI_ID hf, RegMap.pciId]
  · rw [State.reset_rd, Reg.resetOf_TILE_ID (by omega), RegMap.tileId, if_pos ht]
  · rw [State.fld, State.reset_rd, Reg.resetOf_MBX_ID hf]
    have : ∀ f < 17, (RegMap.mbxId f).field 0 8 = f := by decide
    exact this f hf
  · have : ∀ k < 4, RegMap.qosReset k = 2000 := by decide
    rw [State.reset_rd, Reg.resetOf_DDR_PORT_QOS hc (by omega), this k hk]

end Sys2Proof.Machine
end

section
/-! The commands that report: what their completion answers where the command itself changed the state first, and the results of each
(R308, R357, R373). -/
namespace Sys2Proof.Machine
open Sys2Proof.Safety

/-- A command that keeps the mailboxes, the firmware and the place of the completion ring, and sends nothing, answers its request. -/
theorem State.complete_answers_after {s u : State} {r : Req} {op st : Nat} {res : List Byte} (h : Requested s r op)
    (hm : u.mbx = s.mbx) (hf : u.fwLost = s.fwLost) (hlo : u.rd (Reg.MBX_CPL_BASE_LO r.fn) = s.rd (Reg.MBX_CPL_BASE_LO r.fn))
    (hhi : u.rd (Reg.MBX_CPL_BASE_HI r.fn) = s.rd (Reg.MBX_CPL_BASE_HI r.fn)) :
    Answered s ((begun u r op).complete r.fn st res) r op st res ∧
    OnlyMailbox u ((begun u r op).complete r.fn st res) ∧
    RegsSameBut u ((begun u r op).complete r.fn st res) (cplRegs r.fn) := by
  have hfn : u.fnMbx r.fn = s.fnMbx r.fn := by simp only [State.fnMbx, hm]
  have hu : Requested u r op := by unfold Requested at h ⊢; rwa [hfn, hf]
  obtain ⟨ha, ho, hr⟩ := State.complete_answers (st := st) (res := res) hu
  refine ⟨?_, ho, hr⟩
  unfold Answered entryOf State.rd2 at ha ⊢
  rwa [hfn, hlo, hhi] at ha

/-- A command without the self-fence's check that passes R309 and reports: it is answered OK, and only the mailbox changes. -/
theorem State.runCmd_reports {s : State} {r : Req} {op : Nat} (h : Requested s r op) (hop : op < 65536) (hr : s.ready = true)
    {who : Issuer} {named : Bool} (hw : s.mayIssue r who = true) (hn : named = true)
    {act : State → Host.Outcome State Fault Refusal} {res : List Byte}
    (ha : act (begun s r op) = (begun s r op).reply r stOk res) :
    ∃ t, s.runCmd r op who named true act = .next t ∧ Answered s t r op stOk res ∧ OnlyMailbox s t ∧
      RegsSameBut s t (cplRegs r.fn) :=
  ⟨_, by simp [State.runCmd_taken h hop, hr, hw, hn, ha, State.reply], State.complete_answers h⟩

/-- HELLO is answered at any time (R2). -/
theorem exec_hello {s : State} {r : Req} (v : BitVec 16) (h : Requested s r 1) : ∃ t, exec (.hello r v) s = .next t ∧
    Answered s t r 1 stOk (toBytes 0x0201 2 ++ toBytes 0x00030002 4 ++ toBytes r.fn 1 ++
      toBytes (if r.fn = 0 then 0xFF else r.fn - 1) 1 ++ toBytes s.ready.toNat 1) ∧
    OnlyMailbox s t ∧ RegsSameBut s t (cplRegs r.fn) := by
  refine ⟨_, ?_, State.complete_answers h⟩
  show execHello r v s = _
  simp only [execHello, State.begins_taken h (by decide), State.reply]
  rfl

/-- What PART_QUERY shows of a partition's record, where there is one. -/
theorem State.queryBytes_eq (s : State) (p : Nat) : s.queryBytes p =
    toBytes (s.pstate p) 1 ++ toBytes (s.fld (Reg.PART_BEAT_STATUS p) 4 2) 1 ++
    toBytes (s.fld (Reg.PART_BEAT_STATUS p) 8 8) 1 ++ toBytes (((s.part p).map Part.gen).getD 0) 1 ++ toBytes (s.step48 p) 6 ++
    toBytes s.msCount 6 ++ toBytes (s.rd (Reg.PART_COMMIT_COUNT p)).toNat 4 ++ toBytes (s.rd (Reg.PART_SLIP_COUNT p)).toNat 4 ++
    toBytes (((s.part p).map (fun x => x.firstCol + 16 * x.lastCol)).getD 0) 1 ++
    toBytes (((s.part p).any (fun x => s.ueSectors x.sectors)).toNat +
      2 * ((s.partTiles p).any (fun k => s.rd (Reg.SEM_RESID_LO k) != 0 || s.rd (Reg.SEM_RESID_HI k) != 0)).toNat) 1 := by
  unfold State.queryBytes State.pstate
  cases s.part p <;> rfl

/-- PART_QUERY of a partition that exists, or of a VF. -/
theorem exec_partQuery {s : State} {r : Req} (hr : s.ready = true) (h : Requested s r 0x13) (hp : r.fn = 0 → s.part r.partition ≠ none) :
    ∃ t, exec (.partQuery r) s = .next t ∧ Answered s t r 0x13 stOk (s.queryBytes r.partition) ∧
    OnlyMailbox s t ∧ RegsSameBut s t (cplRegs r.fn) := by
  refine State.runCmd_reports h (by decide) hr ?_ rfl rfl
  by_cases h0 : r.fn = 0
  · simpa [h0, State.mayIssue, Option.isSome_iff_ne_none] using hp h0
  · simp [h0, State.mayIssue]

/-- LINK_STATUS of PF0 or of the VF that owns the object. -/
theorem exec_linkStatus {s : State} {r : Req} {object index : BitVec 8} (hr : s.ready = true) (h : Requested s r 0x41)
    (ho : object.toNat < 3) (hi : object ≠ 2 → index.toNat < 96)
    (hw : r.fn = 0 ∨ (s.part r.partition ≠ none ∧ s.objOwner object.toNat index.toNat = some (r.fn - 1))) :
    ∃ t, exec (.linkStatus r object index) s = .next t ∧ Answered s t r 0x41 stOk (s.linkImages object.toNat index.toNat) ∧
    OnlyMailbox s t ∧ RegsSameBut s t (cplRegs r.fn) := by
  refine State.runCmd_reports h (by decide) hr ?_ ?_ ?_
  · rcases hw with h0 | ⟨hp, -⟩
    · simp [State.mayIssue, h0]
    · simp [State.mayIssue, Option.isSome_iff_ne_none, hp]
  · have hidx : object = 2#8 ∨ index.toNat < 96 := or_iff_not_imp_left.mpr hi
    rcases hw with h0 | ⟨-, hown⟩
    · simpa [h0] using hidx
    · simpa [hown] using hidx
  · exact if_neg (by omega)

/-! ROUTE_NOTICE. -/

/-- Notices to a list of functions wait behind those that wait already, and nothing else changes. -/
theorem State.notifyAll_eq (s : State) (fns : List Nat) (kind : Nat) (body : List Byte) :
    s.notifyAll fns kind body = { s with notices := s.notices ++ fns.map (fun f => ⟨f, kind, s.msCount, body⟩) } := by
  induction fns generalizing s with
  | nil => simp [State.notifyAll]
  | cons f r ih =>
    show (s.notify f kind body).notifyAll r kind body = _
    rw [ih, show (s.notify f kind body).msCount = s.msCount from rfl]
    simp [State.notify]

/-- A mask depends on the tests below its bound alone. -/
theorem maskOf_congr {n : Nat} {f g : Nat → Bool} (h : ∀ i < n, f i = g i) : maskOf n f = maskOf n g := by
  unfold maskOf
  refine List.foldl_ext _ _ _ fun m i hi => ?_
  rw [h i (List.mem_range.mp hi)]

/-- The state in which a request has begun, with other notices. -/
theorem begun_notices (s : State) (r : Req) (op : Nat) (l : List Notice) :
    { begun s r op with notices := l } = begun { s with notices := l } r op := rfl

/-- Whether a partition owns a channel of a run (R373). -/
def State.ownsChanOf (s : State) (first count : BitVec 16) (p : Nat) : Bool :=
  (List.range 256).any (fun c => decide (first.toNat ≤ c ∧ c < first.toNat + count.toNat) && s.chanHolder c == some p)

/-- The partitions that own a channel of a run. -/
def State.chanOwners (s : State) (first count : BitVec 16) : List Nat := (List.range 16).filter (s.ownsChanOf first count)

/-- The notices of a ROUTE_NOTICE to the functions of a list of partitions and to PF0; none where the list is empty (R373). -/
def State.routeNotices (s : State) (parts : List Nat) (opq : BitVec 256) : List Notice :=
  if parts = [] then [] else (parts.map (fun p => p + 1) ++ [0]).map (fun f => ⟨f, 2, s.msCount, toBytes opq.toNat 32⟩)

/-- ROUTE_NOTICE posts its notices before it completes. -/
theorem State.routeNotices_posted (s : State) (r : Req) (op : Nat) (parts : List Nat) (opq : BitVec 256) :
    (if parts.isEmpty then begun s r op else (begun s r op).notifyAll (parts.map (fun p => p + 1) ++ [0]) 2 (toBytes opq.toNat 32)) =
      begun { s with notices := s.notices ++ s.routeNotices parts opq } r op := by
  by_cases hp : parts = []
  · simp [hp, State.routeNotices]
  · rw [if_neg (by simpa using hp), State.notifyAll_eq, State.routeNotices, if_neg hp]; rfl

/-- The mask of the owners' list is the mask of the test. -/
theorem State.maskOf_chanOwners (s : State) (first count : BitVec 16) :
    maskOf 16 (fun p => (s.chanOwners first count).contains p) = maskOf 16 (s.ownsChanOf first count) :=
  maskOf_congr fun i hi => by
    rw [Bool.eq_iff_iff, List.contains_iff_mem]
    simp [State.chanOwners, hi]

/-- ROUTE_NOTICE of PF0 is answered with the mask of the partitions that own a named channel, after a notice to their functions. -/
theorem exec_routeNotice {s : State} {r : Req} {k : BitVec 8} {first count ep : BitVec 16} {ms : BitVec 48} {opq : BitVec 256}
    (hs : Serves s) (h : Requested s r 0x43) (h0 : r.fn = 0) :
    ∃ t, exec (.routeNotice r k first count ep ms opq) s = .next t ∧
      Answered s t r 0x43 stOk (toBytes (maskOf 16 (s.ownsChanOf first count)) 2) ∧
      t.notices = s.notices ++ s.routeNotices (s.chanOwners first count) opq ∧
      OnlyMailbox s { t with notices := s.notices } ∧ RegsSameBut s t (cplRegs r.fn) := by
  obtain ⟨hans, honly, hregs⟩ := State.complete_answers_after
    (u := { s with notices := s.notices ++ s.routeNotices (s.chanOwners first count) opq })
    (st := stOk) (res := toBytes (maskOf 16 (s.ownsChanOf first count)) 2) h rfl rfl rfl rfl
  refine ⟨_, ?_, hans, by rw [honly], by unfold OnlyMailbox at honly ⊢; rw [honly], hregs⟩
  show State.runCmd s r 0x43 _ _ _ _ = _
  rw [State.runCmd_acts h (by decide) hs _ _ _ (by simp [State.mayIssue, h0]) rfl]
  exact congrArg₂ (fun u m => State.reply u r stOk (toBytes m 2))
    (State.routeNotices_posted s r 0x43 (s.chanOwners first count) opq) (s.maskOf_chanOwners first count)

/-! BOOT_RECORD_CLEAR. -/

/-- An entry goes to the end of the sector that is being written. -/
theorem State.pushEntry_sector (s : State) (kind step phase result code : Nat) (payload : List Byte) :
    (s.pushEntry kind step phase result code payload).boot.sector =
      s.boot.sector ++ [⟨(s.rd Reg.BOOT_COUNT).toNat, s.boot.seq, kind, step, phase, result, code, payload⟩] := by
  unfold State.pushEntry BootSt.sector
  cases h : s.boot.inB <;> simp [h]

/-- An entry of the boot record changes nothing but the record. -/
theorem State.bootEntry_only (s : State) (kind step phase result code : Nat) (payload : List Byte) :
    s.bootEntry kind step phase result code payload =
        { s with boot := (s.bootEntry kind step phase result code payload).boot } ∧
      (s.bootEntry kind step phase result code payload).boot.fall = s.boot.fall := by
  unfold State.bootEntry
  split
  · exact ⟨rfl, rfl⟩
  · split <;> exact ⟨rfl, rfl⟩

/-- A written entry is the last of the record. -/
theorem State.bootEntry_last {s : State} (h : s.hasRecord = true) (kind step phase result code : Nat) (payload : List Byte) :
    ∃ e, (s.bootEntry kind step phase result code payload).boot.sector.getLast? = some e ∧ e.kind = kind ∧ e.payload = payload := by
  simp only [State.bootEntry, h, Bool.not_true, Bool.false_eq_true, if_false, State.pushEntry_sector, List.getLast?_concat]
  exact ⟨_, rfl, rfl, rfl⟩

/-- An entry of the boot record and the beginning of a request do not meet. -/
theorem begun_bootEntry (s : State) (r : Req) (op kind step phase result code : Nat) (payload : List Byte) :
    (begun s r op).bootEntry kind step phase result code payload = begun (s.bootEntry kind step phase result code payload) r op := by
  have hrec : (begun s r op).hasRecord = s.hasRecord := rfl
  have hboot : (begun s r op).boot = s.boot := rfl
  unfold State.bootEntry
  rw [hrec, hboot]
  split
  · rfl
  · split <;> rfl

/-- The change of the fallback state and the beginning of a request do not meet. -/
theorem begun_setFall (s : State) (r : Req) (op : Nat) (f : FallSt) : (begun s r op).setFall f = begun (s.setFall f) r op := by
  have hb := begun_bootEntry { s with boot := { s.boot with fall := f } } r op 1 0 0 0 0 f.payload
  exact congrArg (fun u : State => u.wr Reg.BOOT_STATE (f.flags.setWidth 32)) hb

/-- A change of the fallback state changes the record and `BOOT_STATE`. -/
theorem State.setFall_only (s : State) (f : FallSt) :
    s.setFall f = { s with regs := (s.setFall f).regs, boot := (s.setFall f).boot } ∧ (s.setFall f).boot.fall = f ∧
      ∀ a, a ≠ Reg.BOOT_STATE → (s.setFall f).rd a = s.rd a := by
  obtain ⟨honly, hfall⟩ := State.bootEntry_only { s with boot := { s.boot with fall := f } } 1 0 0 0 0 f.payload
  refine ⟨?_, hfall, fun a ha => ?_⟩
  · unfold State.setFall
    dsimp only
    rw [honly]; rfl
  · unfold State.setFall
    dsimp only
    rw [honly]
    simp [Ne.symm ha]; rfl

/-- BOOT_RECORD_CLEAR of PF0 outside TEST mode: nothing falls back any more, and the record says so (R357). -/
theorem exec_bootRecordClear {s : State} {r : Req} (hs : Serves s) (h : Requested s r 0x73) (h0 : r.fn = 0) (ht : s.testMode = false) :
    ∃ t, exec (.bootRecordClear r) s = .next t ∧ Answered s t r 0x73 stOk [] ∧ t.boot.fall = FallSt.none ∧ BytesSame s t ∧
      (s.hasRecord = true → ∃ e, t.boot.sector.getLast? = some e ∧ e.kind = 1 ∧ e.payload = t.boot.fall.payload) := by
  obtain ⟨honly, hfall, hregs⟩ := s.setFall_only FallSt.none
  have hstate : Reg.BOOT_STATE = 0x72002008 := rfl
  have hbase : Reg.mbxBase r.fn = 0x100000000 + r.fn * 0x4000 := rfl
  obtain ⟨hans, hmbx, -⟩ := State.complete_answers_after (u := s.setFall FallSt.none) (st := stOk) (res := []) h
    (by rw [honly]) (by rw [honly]) (hregs _ (by rw [Reg.MBX_CPL_BASE_LO]; omega))
    (hregs _ (by rw [Reg.MBX_CPL_BASE_HI]; omega))
  unfold OnlyMailbox at hmbx
  refine ⟨_, ?_, hans, by rw [hmbx]; exact hfall, ?_, fun hr => ?_⟩
  · show State.runCmd s r 0x73 _ _ _ _ = _
    rw [State.runCmd_acts h (by decide) hs _ _ _ (by simp [State.mayIssue, h0]) rfl]
    rw [show (begun s r 0x73).testMode = false from ht, if_neg Bool.false_ne_true, begun_setFall, State.reply]
  · rw [hmbx, honly]; exact ⟨fun _ => rfl, fun _ => rfl⟩
  · rw [hmbx]
    show ∃ e : BootEntry, (s.setFall FallSt.none).boot.sector.getLast? = _ ∧ _ ∧ e.payload = (s.setFall FallSt.none).boot.fall.payload
    rw [hfall]
    exact State.bootEntry_last (s := { s with boot := { s.boot with fall := FallSt.none } }) hr 1 0 0 0 0 FallSt.none.payload

/-- Settles O10: each report is the completion of a request that passes R309's checks. -/
theorem reportsAnswerTheState : Obligations.ReportsAnswerTheState := by
  refine fun s r => ⟨fun v h => exec_hello v h, fun hr h => State.runCmd_reports h (by decide) hr rfl rfl rfl,
    fun hr h hp => ?_, fun hr h hp => ?_, fun object index hr h => exec_linkStatus hr h,
    fun k first count ep ms opq hs h h0 => exec_routeNotice hs h h0, fun hs h h0 ht => exec_bootRecordClear hs h h0 ht⟩
  · have hq := exec_partQuery hr h hp
    rwa [State.queryBytes_eq] at hq
  · refine State.runCmd_reports h (by decide) hr ?_ rfl ?_
    · rcases hp with h0 | hp
      · simp [State.mayIssue, h0]
      · simp [State.mayIssue, Option.isSome_iff_ne_none, hp]
    · rfl

end Sys2Proof.Machine
end

section
/-! A register write that meets a reserved bit: the scope of what it makes unpredictable (R6, R16). -/
namespace Sys2Proof.Machine

/-- `MBX_CTRL` of the first VF, whose bits from 4 on are reserved (R300). -/
def vfMbxCtrl : BitVec 40 := 0x10000400C

/-- A reserved bit in a mailbox register of a VF is unpredictable within the VF's partition, not within the device. -/
theorem registerWrite_vf_reserved :
    exec (.registerWrite vfMbxCtrl 0x10) State.reset = .fault (.unpredictableInPartition 16) := rfl

/-- Refutes O60: the statement has every write that meets a reserved bit stop as unpredictable within the device, the mailbox registers
of a VF included, and there the model stops as unpredictable within the partition. -/
theorem not_registerWrites : ¬ Obligations.RegisterWrites := by
  intro h
  obtain ⟨-, -, -, -, hwrite, -⟩ := h State.reset 0x10
  obtain ⟨-, hrow⟩ := hwrite vfMbxCtrl
  have hstops : exec (.registerWrite vfMbxCtrl 0x10) State.reset = .fault (.unpredictableInDevice 16) :=
    (hrow RegMap.mbx 1 ⟨0xC, 1, 0x4, 0xF, 0x0, 0x0, 0x0, 0x0, 0x0⟩ (by decide)).1 (by decide)
  rw [registerWrite_vf_reserved] at hstops
  cases hstops

end Sys2Proof.Machine
end


section
/-! The error log (R305, R306, R370 to R372): what a record changes, and what it leaves alone. -/
namespace Sys2Proof.Machine

/-- The registers of the log that a record may write (R372). -/
def logRegs : List Nat := [Reg.LOG_NEXT, Reg.LOG_STATUS, Reg.LOG_LOST, Reg.LOG_CORR_COUNTED]

/-- A vector that is sent, pending or dropped changes its function's pending bits and what leaves, and nothing else (R295). -/
theorem State.sendVector_only (s : State) (f v : Nat) :
    s.sendVector f v = { s with regs := (s.sendVector f v).regs, out := (s.sendVector f v).out } ∧
      (∀ a, a ≠ Reg.MSIX_PBA f 0 → (s.sendVector f v).rd a = s.rd a) ∧ ∀ o ∈ s.out, o ∈ (s.sendVector f v).out := by
  rcases State.sendVector_cases s f v with h | h | h <;> rw [h]
  · exact ⟨rfl, fun _ _ => rfl, fun _ h => h⟩
  · exact ⟨rfl, fun a ha => by rw [State.rd_setBit, if_neg ha.symm], fun _ h => h⟩
  · exact ⟨rfl, fun _ _ => rfl, fun o h => List.mem_append_left _ h⟩

/-- A vector of each of some functions. -/
theorem State.sendVectors_only (v : Nat) (l : List Nat) (s : State) (hl : ∀ f ∈ l, f < 17) :
    let u := l.foldl (fun (s : State) f => s.sendVector f v) s
    u = { s with regs := u.regs, out := u.out } ∧ (∀ a, (∀ f < 17, a ≠ Reg.MSIX_PBA f 0) → u.rd a = s.rd a) ∧ ∀ o ∈ s.out, o ∈ u.out := by
  induction l generalizing s with
  | nil => exact ⟨rfl, fun _ _ => rfl, fun _ h => h⟩
  | cons f r ih =>
    obtain ⟨h1, hr1, ho1⟩ := s.sendVector_only f v
    obtain ⟨h2, hr2, ho2⟩ := ih (s.sendVector f v) (fun g hg => hl g (List.mem_cons_of_mem _ hg))
    refine ⟨?_, fun a ha => (hr2 a ha).trans (hr1 a (ha f (hl f (List.mem_cons_self ..)))), fun o ho => ho2 o (ho1 o ho)⟩
    simp only [List.foldl_cons]
    rw [h2, h1]

/-- Vector 2 changes the pending bits and what leaves, and nothing else (R306). -/
theorem State.vector2_only (s : State) :
    s.vector2 = { s with regs := s.vector2.regs, out := s.vector2.out } ∧
      (∀ a, (∀ f < 17, a ≠ Reg.MSIX_PBA f 0) → s.vector2.rd a = s.rd a) ∧ ∀ o ∈ s.out, o ∈ s.vector2.out :=
  State.sendVectors_only 2 (List.range 17) s (fun _ h => List.mem_range.mp h)

/-- What a severity below DEVICE_FATAL does beside the record changes the partitions alone (R41). -/
theorem State.logEffect_parts (s : State) {sev : Nat} (part : Option Nat) (h : sev ≠ sevDevice) :
    s.logEffect sev part = { s with parts := (s.logEffect sev part).parts } := by
  unfold State.logEffect
  by_cases hp : sev = sevPartition
  · simp only [hp, if_true]
    cases part with
    | none => rfl
    | some p =>
      simp only [State.raiseFault, State.updPart]
      cases s.part p <;> rfl
  · simp only [hp, if_false, h]

/-- What a severity does beside the record changes the partitions, the alert, the pending bits and what leaves (R41, R306, R349). -/
theorem State.logEffect_only (s : State) (sev : Nat) (part : Option Nat) :
    let u := s.logEffect sev part
    u = { s with regs := u.regs, parts := u.parts, alertStatus := u.alertStatus, out := u.out } ∧
      (∀ a, (∀ f < 17, a ≠ Reg.MSIX_PBA f 0) → u.rd a = s.rd a) ∧ ∀ o ∈ s.out, o ∈ u.out := by
  by_cases h : sev = sevDevice
  · subst h
    simp only [State.logEffect, show ¬ sevDevice = sevPartition by decide, if_false, if_true]
    obtain ⟨hv, hr, ho⟩ := State.vector2_only { s with
      parts := s.parts.map (fun (px : Nat × Part) =>
        if s.pstate px.1 = psArmed ∨ s.pstate px.1 = psRunning then (px.1, { s.faulted px.1 px.2 with devFatal := 2 })
        else if s.pstate px.1 = psStopped then px
        else (px.1, { px.2 with devFatal := 2 })),
      alertStatus := s.alertStatus ||| 4 }
    refine ⟨?_, hr, ho⟩
    rw [hv]
  · intro u
    have hu : u = { s with parts := u.parts } := s.logEffect_parts part h
    rw [hu]
    exact ⟨rfl, fun _ _ => rfl, fun _ h => h⟩

/-- The cause of a fault line is kept with the partitions. -/
theorem State.keepCause_only (s : State) (sev : Nat) (part : Option Nat) (r : LogRec) :
    s.keepCause sev part r = { s with parts := (s.keepCause sev part r).parts } := by
  unfold State.keepCause; split <;> rfl

/-- The state in which a record is written: its severity has taken effect, and its cause is kept (R41, R369). -/
def State.beforeRec (s : State) (cls idx code sev : Nat) (part : Option Nat) (detail : List Byte) : State :=
  let t := s.logEffect sev part
  t.keepCause sev part ⟨t.now, t.logMs part, part, sev, t.fld Reg.LOG_NEXT 16 16, 0, cls, idx, code, detail⟩

/-- A record enters the log, where it is kept, and is counted where it is not (R372). -/
def State.enterRec (t : State) (next cls idx code sev : Nat) (part : Option Nat) (detail : List Byte) : State :=
  match logSlot t.log sev with
  | none => if sev = 0 then t.addReg Reg.LOG_CORR_COUNTED 1 else t.addReg Reg.LOG_LOST 1
  | some (slot, rest) =>
    let r : LogRec := ⟨t.now, t.logMs part, part, sev, next, slot, cls, idx, code, detail⟩
    let log := rest ++ [r]
    let t := { t with log := log }
    let t := t.wr Reg.LOG_NEXT (BitVec.ofNat 32 (slot + 65536 * ((next + 1) % 65536)))
    let t := t.wr Reg.LOG_STATUS (BitVec.ofNat 32 (log.length + (if log.length = 4096 then 65536 else 0)))
    if sev = 0 then t
    else
      let t := { t with logHigh := min (t.logHigh + 1) 65535, logLast := some r }
      t.notifyAll (match part with | some p => [p + 1, 0] | none => [0]) 0 r.bytes

/-- Lost firmware writes no record (R370). -/
theorem State.logRec_eq (s : State) (cls idx code sev : Nat) (part : Option Nat) (detail : List Byte) :
    s.logRec cls idx code sev part detail =
      if (s.beforeRec cls idx code sev part detail).fwLost && !selfLogged code then s.beforeRec cls idx code sev part detail
      else (s.beforeRec cls idx code sev part detail).enterRec ((s.logEffect sev part).fld Reg.LOG_NEXT 16 16) cls idx code sev part
        detail := by rfl

/-- A record changes the log, its registers and the notices, and nothing else. -/
theorem State.enterRec_only (t : State) (next cls idx code sev : Nat) (part : Option Nat) (detail : List Byte) :
    let u := t.enterRec next cls idx code sev part detail
    u = { t with regs := u.regs, log := u.log, logHigh := u.logHigh, logLast := u.logLast, notices := u.notices } ∧
      ∀ a, a ∉ logRegs → u.rd a = t.rd a := by
  have hlost (a : Nat) (ha : a ∉ logRegs) : a ≠ Reg.LOG_NEXT ∧ a ≠ Reg.LOG_STATUS ∧ a ≠ Reg.LOG_LOST ∧ a ≠ Reg.LOG_CORR_COUNTED := by
    simpa [logRegs] using ha
  unfold State.enterRec
  cases logSlot t.log sev with
  | none =>
    dsimp only
    split
    · exact ⟨rfl, fun a ha => by rw [State.rd_addReg, if_neg (hlost a ha).2.2.2.symm]⟩
    · exact ⟨rfl, fun a ha => by rw [State.rd_addReg, if_neg (hlost a ha).2.2.1.symm]⟩
  | some p =>
    obtain ⟨slot, rest⟩ := p
    dsimp only
    rw [State.notifyAll_eq]
    have hrd (t : State) (v w : Word) (a : Nat) (ha : a ∉ logRegs) : ((t.wr Reg.LOG_NEXT v).wr Reg.LOG_STATUS w).rd a = t.rd a := by
      rw [State.rd_wr, State.rd_wr, if_neg (hlost a ha).2.1.symm, if_neg (hlost a ha).1.symm]
    split
    · exact ⟨rfl, fun a ha => hrd _ _ _ a ha⟩
    · exact ⟨rfl, fun a ha => hrd _ _ _ a ha⟩

/-- While the log has room, a record joins it. -/
theorem State.enterRec_log {t : State} (h : t.log.length < 4096) (next cls idx code sev : Nat) (part : Option Nat) (detail : List Byte) :
    ∃ r, (t.enterRec next cls idx code sev part detail).log = t.log ++ [r] ∧ r.code = code ∧ r.sev = sev := by
  refine ⟨⟨t.now, t.logMs part, part, sev, next, t.log.length, cls, idx, code, detail⟩, ?_, rfl, rfl⟩
  have hslot : logSlot t.log sev = some (t.log.length, t.log) := if_pos h
  simp only [State.enterRec, hslot, State.notifyAll_eq]
  split <;> rfl

/-- The effect of a severity and the kept cause change the partitions, the alert, the pending bits and what leaves. -/
theorem State.beforeRec_only (s : State) (cls idx code sev : Nat) (part : Option Nat) (detail : List Byte) :
    let t := s.beforeRec cls idx code sev part detail
    t = { s with regs := t.regs, parts := t.parts, alertStatus := t.alertStatus, out := t.out } ∧
      (∀ a, t.rd a = (s.logEffect sev part).rd a) ∧ t.out = (s.logEffect sev part).out ∧
      t.alertStatus = (s.logEffect sev part).alertStatus := by
  intro t
  have hk : t = { s.logEffect sev part with parts := t.parts } := State.keepCause_only _ _ _ _
  obtain ⟨he, -, -⟩ := s.logEffect_only sev part
  refine ⟨?_, fun a => by rw [hk]; rfl, by rw [hk], by rw [hk]⟩
  rw [hk, he]

/-- What a record changes (R41, R305, R306, R349, R370 to R372). -/
theorem State.logRec_only (s : State) (cls idx code sev : Nat) (part : Option Nat) (detail : List Byte) :
    let u := s.logRec cls idx code sev part detail
    u = { s with regs := u.regs, parts := u.parts, alertStatus := u.alertStatus, out := u.out, log := u.log, logHigh := u.logHigh,
                 logLast := u.logLast, notices := u.notices } ∧
      u.parts = (s.beforeRec cls idx code sev part detail).parts ∧ u.alertStatus = (s.logEffect sev part).alertStatus ∧
      u.out = (s.logEffect sev part).out ∧ ∀ a, a ∉ logRegs → u.rd a = (s.logEffect sev part).rd a := by
  obtain ⟨hb, hrd, hout, halert⟩ := s.beforeRec_only cls idx code sev part detail
  rw [State.logRec_eq]
  split
  · refine ⟨?_, rfl, halert, hout, fun a _ => hrd a⟩
    rw [hb]
  · obtain ⟨he, her⟩ := (s.beforeRec cls idx code sev part detail).enterRec_only ((s.logEffect sev part).fld Reg.LOG_NEXT 16 16)
      cls idx code sev part detail
    refine ⟨?_, by rw [he], by rw [he]; exact halert, by rw [he]; exact hout, fun a ha => (her a ha).trans (hrd a)⟩
    rw [he, hb]

/-- While the log has room and the record is written, it joins the log. -/
theorem State.logRec_log {s : State} {code : Nat} (hw : selfLogged code = true ∨ s.fwLost = false) (h : s.log.length < 4096)
    (cls idx sev : Nat) (part : Option Nat) (detail : List Byte) :
    ∃ r, (s.logRec cls idx code sev part detail).log = s.log ++ [r] ∧ r.code = code ∧ r.sev = sev := by
  obtain ⟨hb, -⟩ := s.beforeRec_only cls idx code sev part detail
  have hlog : (s.beforeRec cls idx code sev part detail).log = s.log := by rw [hb]
  have hlost : (s.beforeRec cls idx code sev part detail).fwLost = s.fwLost := by rw [hb]
  rw [State.logRec_eq, if_neg (by rw [hlost]; rcases hw with h | h <;> simp [h]), ← hlog]
  exact State.enterRec_log (by rwa [hlog]) _ _ _ _ _ _ _

/-- A record below DEVICE_FATAL writes the registers of the log alone, sends nothing and leaves the alert. -/
theorem State.logRec_below_device (s : State) (cls idx code : Nat) {sev : Nat} (part : Option Nat) (detail : List Byte) (h : sev ≠ sevDevice) :
    let u := s.logRec cls idx code sev part detail
    (∀ a, a ∉ logRegs → u.rd a = s.rd a) ∧ u.out = s.out ∧ u.alertStatus = s.alertStatus := by
  obtain ⟨-, -, halert, hout, hrd⟩ := s.logRec_only cls idx code sev part detail
  have he := s.logEffect_parts part h
  exact ⟨fun a ha => (hrd a ha).trans (by rw [he]; rfl), hout.trans (by rw [he]), halert.trans (by rw [he])⟩

/-- A record below PARTITION_FATAL leaves the partitions as they are. -/
theorem State.logRec_contained_parts (s : State) (cls idx code : Nat) {sev : Nat} (part : Option Nat) (detail : List Byte)
    (h : sev < sevPartition) : (s.logRec cls idx code sev part detail).parts = s.parts := by
  obtain ⟨-, hparts, -⟩ := s.logRec_only cls idx code sev part detail
  have hp : sev ≠ sevPartition := by omega
  have hd : sev ≠ sevDevice := by unfold sevPartition at h; unfold sevDevice; omega
  have he : s.logEffect sev part = s := by simp only [State.logEffect, hp, hd, if_false]
  rw [hparts, State.beforeRec, State.keepCause, if_pos h, he]

end Sys2Proof.Machine
end

section
/-! Power (R340 to R346, R381): AVSBus answers, ramps, the thermal limits and floors. -/
namespace Sys2Proof.Machine
open Sys2Proof.Safety

/-! Addresses. -/

theorem Reg.PWR_STATUS_eq : Reg.PWR_STATUS = 0x71000000 := rfl
theorem Reg.PWR_AVS_TIMEOUTS_eq : Reg.PWR_AVS_TIMEOUTS = 0x71000028 := rfl
theorem Reg.PWR_RAIL_V_eq (r : Nat) : Reg.PWR_RAIL_V r = 0x71000300 + r * 8 := rfl
theorem Reg.PWR_GOV_VOLT_eq (q : Nat) : Reg.PWR_GOV_VOLT q = 0x71000104 + q * 4 := rfl
theorem Reg.PART_BEAT_STATUS_eq (p : Nat) : Reg.PART_BEAT_STATUS p = 0x73008004 + p * 0x100 := by
  have : Reg.PART_BEAT_STATUS p = 0x73008000 + p * 0x100 + 4 := rfl
  omega

/-- The registers of the log lie in a block of four words. -/
theorem notMem_logRegs {a : Nat} (h : a < 0x72000000 ∨ 0x72000010 ≤ a) : a ∉ logRegs := by
  have h1 : Reg.LOG_NEXT = 0x72000004 := rfl
  have h2 : Reg.LOG_STATUS = 0x72000000 := rfl
  have h3 : Reg.LOG_LOST = 0x7200000C := rfl
  have h4 : Reg.LOG_CORR_COUNTED = 0x72000008 := rfl
  simp only [logRegs, List.mem_cons, List.not_mem_nil, or_false, not_or]
  omega

/-- The pending bits of the functions lie above the management map. -/
theorem ne_MSIX_PBA {a : Nat} (h : a < 0x100000000) : ∀ f < 17, a ≠ Reg.MSIX_PBA f 0 := by
  intro f _
  have : Reg.MSIX_PBA f 0 = 0x100000000 + f * 0x4000 + 0x1800 := rfl
  omega

/-! Calm: no command waits for a raise, and no recovery for its floors. -/

/-- No command is under way, and no partition's recovery waits for its floors. -/
def State.Calm (s : State) : Prop := (∀ f ∈ s.mbx, f.2.running = none) ∧ ∀ x ∈ s.parts, s.floorWaits x.1 = false

/-- A fold whose steps change nothing changes nothing. -/
theorem foldl_eq_self {α β : Type} {f : β → α → β} {b : β} {l : List α} (h : ∀ a ∈ l, f b a = b) : l.foldl f b = b := by
  induction l with
  | nil => rfl
  | cons a r ih => rw [List.foldl_cons, h a (List.mem_cons_self ..), ih fun c hc => h c (List.mem_cons_of_mem _ hc)]

/-- A found value is listed. -/
theorem SMap.mem_of_find {α : Type} {m : SMap α} {i : Nat} {x : α} (h : SMap.find m i = some x) : (i, x) ∈ m := by
  induction m with
  | nil => cases h
  | cons c r ih =>
    obtain ⟨k, v⟩ := c
    unfold SMap.find at h
    split at h
    · next hk => simp_all
    · exact List.mem_cons_of_mem _ (ih h)

/-- A calm device runs no command. -/
theorem State.Calm.running {s : State} (h : s.Calm) (fn : Nat) : (s.fnMbx fn).running = none := by
  unfold State.fnMbx SMap.get
  cases hf : SMap.find s.mbx fn with
  | none => rfl
  | some m => exact h.1 (fn, m) (SMap.mem_of_find hf)

/-- A calm device has no command that waits for a raise. -/
theorem State.Calm.raiseChecks {s : State} (h : s.Calm) : s.raiseChecks = s :=
  foldl_eq_self fun fn _ => by unfold State.raiseCheck; rw [h.running fn]

/-- A calm device has no recovery that waits for its floors. -/
theorem State.Calm.floorChecks {s : State} (h : s.Calm) : s.floorChecks = s := by
  refine foldl_eq_self fun p hp => ?_
  obtain ⟨x, hx, rfl⟩ := List.mem_map.mp hp
  exact if_neg (by simp [h.2 x hx])

/-- Calm depends on the mailboxes, the partitions and their states. -/
theorem State.Calm.congr {s u : State} (h : s.Calm) (hm : u.mbx = s.mbx) (hp : u.parts = s.parts)
    (hst : ∀ p, u.rd (Reg.PART_BEAT_STATUS p) = s.rd (Reg.PART_BEAT_STATUS p)) : u.Calm := by
  refine ⟨by rw [hm]; exact h.1, fun x hx => ?_⟩
  have := h.2 x (hp ▸ hx)
  unfold State.floorWaits State.part State.pstate State.fld at this ⊢
  rwa [hp, hst]

/-! Bits of registers. -/

/-- A bit of a register after it was set. -/
theorem State.bit_setBit_self (s : State) (a : Nat) {i : Nat} (b : Bool) (h : i < 32) : (s.setBit a i b).bit a i = b := by
  rw [State.bit, State.rd_setBit, if_pos rfl, Word.bit_setBit _ _ _ h]

/-- Another bit of the register. -/
theorem State.bit_setBit_other (s : State) (a : Nat) {i j : Nat} (b : Bool) (h : i < 32) (hn : i ≠ j) : (s.setBit a i b).bit a j = s.bit a j := by
  rw [State.bit, State.rd_setBit, if_pos rfl, Word.bit_setBit_ne _ _ _ _ h hn]; rfl

/-! AVSBus. -/

/-- While no transition of the device is under way nothing drives its rails on. -/
theorem State.l4Push_idle {s : State} (h : s.pwr.phase = 0) : s.l4Push = s := by simp only [State.l4Push, h]

/-- A rail that is acknowledged. -/
theorem State.railMv_of_rd {s : State} {r n : Nat} (h : s.rd (Reg.PWR_RAIL_V r) = BitVec.ofNat 32 n) (hn : n < 4096) :
    s.railMv r = n ∧ s.railWaits r = false := by
  constructor
  · simp only [State.railMv, State.fld, Word.field, h, BitVec.toNat_ofNat]; omega
  · rw [State.railWaits, State.bit, Word.bit_eq_field, h]
    simp only [Word.field, BitVec.toNat_ofNat, decide_eq_false_iff_not]; omega

/-- `PWR_GOV_Qq_VOLT` follows a tile rail, and nothing else changes. -/
theorem State.showVolt_only (s : State) (r : Nat) : s.showVolt r = { s with regs := (s.showVolt r).regs } ∧
    ∀ a, a ≠ Reg.PWR_GOV_VOLT r → (s.showVolt r).rd a = s.rd a := by
  unfold State.showVolt
  split
  · exact ⟨rfl, fun a ha => by rw [State.rd_setFld, if_neg ha.symm]⟩
  · exact ⟨rfl, fun _ _ => rfl⟩

/-- A rail that reads back within 10 mV of what was asked holds it (R341). -/
theorem exec_avsAck {s : State} {r : Nat} {mv : BitVec 12} (hr : r < 6) (hw : s.railWaits r = true) (hp : s.pwr.phase = 0) (hc : s.Calm)
    (hwant : SMap.get s.pwr.want 0 r < 4096) (hlo : SMap.get s.pwr.want 0 r ≤ mv.toNat + 10) (hhi : mv.toNat ≤ SMap.get s.pwr.want 0 r + 10) :
    ∃ u, exec (.avsAck r mv) s = .next u ∧ u.railMv r = SMap.get s.pwr.want 0 r ∧ u.railWaits r = false ∧
      u = { s with regs := u.regs } ∧ RegsSameBut s u [Reg.PWR_RAIL_V r, Reg.PWR_GOV_VOLT r] := by
  obtain ⟨honly, hrd⟩ := (s.wr (Reg.PWR_RAIL_V r) (BitVec.ofNat 32 (SMap.get s.pwr.want 0 r))).showVolt_only r
  generalize hu : (s.wr (Reg.PWR_RAIL_V r) (BitVec.ofNat 32 (SMap.get s.pwr.want 0 r))).showVolt r = u at honly hrd
  have hsame : RegsSameBut s u [Reg.PWR_RAIL_V r, Reg.PWR_GOV_VOLT r] := fun a ha => by
    obtain ⟨hv, hg⟩ : a ≠ Reg.PWR_RAIL_V r ∧ a ≠ Reg.PWR_GOV_VOLT r := by simpa using ha
    rw [hrd a hg, State.rd_wr, if_neg hv.symm]
  have hrail : u.rd (Reg.PWR_RAIL_V r) = BitVec.ofNat 32 (SMap.get s.pwr.want 0 r) := by
    have h1 := Reg.PWR_RAIL_V_eq r
    have h2 := Reg.PWR_GOV_VOLT_eq r
    rw [hrd _ (by omega), State.rd_wr, if_pos rfl]
  have hcalm : u.Calm := hc.congr (by rw [honly]; rfl) (by rw [honly]; rfl) fun p => hsame _ (by
    have h1 := Reg.PWR_RAIL_V_eq r
    have h2 := Reg.PWR_GOV_VOLT_eq r
    have h3 := Reg.PART_BEAT_STATUS_eq p
    simp only [List.mem_cons, List.not_mem_nil, or_false, not_or]
    omega)
  refine ⟨u, ?_, (State.railMv_of_rd hrail hwant).1, (State.railMv_of_rd hrail hwant).2, honly, hsame⟩
  show execAvsAck r mv s = _
  simp only [execAvsAck]
  rw [if_pos ⟨hr, hw, hlo, hhi⟩, hu, State.l4Push_idle (by rw [honly]; exact hp), hcalm.raiseChecks, hcalm.floorChecks]

/-- A rail that reads back elsewhere is not acknowledged. -/
theorem exec_avsAck_off {s : State} {r : Nat} {mv : BitVec 12}
    (h : SMap.get s.pwr.want 0 r + 10 < mv.toNat ∨ mv.toNat + 10 < SMap.get s.pwr.want 0 r) : exec (.avsAck r mv) s = .next s := by
  show execAvsAck r mv s = _
  simp only [execAvsAck]
  exact if_neg (by omega)

/-- A rail that is not acknowledged in time holds what it held; the timeout is counted and logged (R341, R350). -/
theorem exec_avsTimeout {s : State} {r : Nat} (hr : r < 6) (hw : s.railWaits r = true) (hp : s.pwr.phase = 0) :
    ∃ u, exec (.avsTimeout r) s = .next u ∧ u.railMv r = s.railMv r ∧ u.railWaits r = false ∧
      u.rd Reg.PWR_AVS_TIMEOUTS = s.rd Reg.PWR_AVS_TIMEOUTS + 1 ∧
      ((selfLogged 0x0901 = true ∨ s.fwLost = false) → s.log.length < 4096 →
        ∃ x, u.log = s.log ++ [x] ∧ x.code = 0x0901 ∧ x.sev = sevContained) ∧ BytesSame s u := by
  have hrail := Reg.PWR_RAIL_V_eq r
  have hcount := Reg.PWR_AVS_TIMEOUTS_eq
  let t : State := (s.setBit (Reg.PWR_RAIL_V r) 31 false).addReg Reg.PWR_AVS_TIMEOUTS 1
  have hrd : t.rd (Reg.PWR_RAIL_V r) = (s.rd (Reg.PWR_RAIL_V r)).setBit 31 false := by
    rw [State.rd_addReg, if_neg (by omega), State.rd_setBit, if_pos rfl]
  obtain ⟨honly, -⟩ := t.logRec_only 7 r 0x0901 sevContained none (t.openDetail 0x0901)
  obtain ⟨hregs, -, -⟩ := t.logRec_below_device 7 r 0x0901 none (t.openDetail 0x0901) (show sevContained ≠ sevDevice by decide)
  have hu : (t.logRec 7 r 0x0901 sevContained none (t.openDetail 0x0901)).stepFree.rd (Reg.PWR_RAIL_V r) = _ :=
    (hregs _ (notMem_logRegs (by omega))).trans hrd
  refine ⟨(t.logRec 7 r 0x0901 sevContained none (t.openDetail 0x0901)).stepFree, ?_, ?_, ?_, ?_, fun hl hn => ?_, ?_⟩
  · show execAvsTimeout r s = _
    have hphase : (t.logRec 7 r 0x0901 sevContained none (t.openDetail 0x0901)).stepFree.pwr.phase = 0 := by
      rw [State.stepFree_pwr, honly]; exact hp
    simp only [execAvsTimeout]
    rw [if_pos ⟨hr, hw⟩, if_neg (fun h => absurd (hphase.symm.trans h.1) (by decide))]
  · rw [State.railMv, State.fld, hu, Word.setBit, Word.field_setField_below _ 31 1 _ 0 12 (by decide) (by decide)]; rfl
  · rw [State.railWaits, State.bit, hu, Word.bit_setBit _ _ _ (by decide)]
  · refine (hregs _ (notMem_logRegs (by omega))).trans ?_
    rw [State.rd_addReg, if_pos rfl, State.rd_setBit, if_neg (by omega)]; rfl
  · exact State.logRec_log (s := t) hl hn 7 r sevContained none _
  · exact ⟨fun _ => by rw [State.stepFree_store, honly]; rfl, fun _ => by rw [State.stepFree_dram, honly]; rfl⟩

/-! Floors. -/

/-- A floor lies between 0.60 V and 0.85 V, and no higher than 0.75 V where the rated rate covers the budget (R4, R52). -/
theorem State.floorFor_bounds (s : State) (q budget period : Nat) :
    120 ≤ s.floorFor q budget period ∧ s.floorFor q budget period ≤ 170 ∧
      (1000000 * budget ≤ ratedKhz * (period - 40) → s.floorFor q budget period ≤ 150) := by
  unfold State.floorFor
  dsimp only
  have hrated (tj : Int) (h : 1000000 * budget ≤ ratedKhz * (period - 40)) :
      1000000 * budget ≤ calibrated q (120 + 30) tj * (period - 40) :=
    h.trans (Nat.mul_le_mul_right _ (by rw [calibrated, if_pos rfl]; exact Nat.le_max_left _ _))
  split
  · next i hi =>
    obtain ⟨-, hmem, hleast⟩ := List.find?_range_eq_some.mp hi
    have hi51 : i < 51 := List.mem_range.mp hmem
    refine ⟨by omega, by omega, fun h => ?_⟩
    by_contra hgt
    have := hleast 30 (by omega)
    simp [hrated _ h] at this
  · next hnone =>
    refine ⟨by decide, by decide, fun h => ?_⟩
    have := List.find?_eq_none.mp hnone 30 (by decide)
    simp [hrated _ h] at this

/-! Temperature. -/

/-- `THERM_N` is driven or released: only its bit of `PWR_STATUS` changes, and driving it low alerts (R346, R349). -/
theorem State.thermPin_only (s : State) (low : Bool) :
    let u := s.thermPin low
    u.bit Reg.PWR_STATUS 9 = low ∧ (∀ i, i ≠ 9 → u.bit Reg.PWR_STATUS i = s.bit Reg.PWR_STATUS i) ∧ RegsSameBut s u [Reg.PWR_STATUS] ∧
      (low = false → u.alertStatus = s.alertStatus) ∧
      (s.bit Reg.PWR_STATUS 9 = !low → Output.pin 0 (!low) ∈ u.out ∧ (low = true → u.alertStatus = s.alertStatus ||| 1)) ∧
      u = { s with regs := u.regs, alertStatus := u.alertStatus, out := u.out } := by
  unfold State.thermPin
  split
  · next h => exact ⟨h, fun _ _ => rfl, fun _ _ => rfl, fun _ => rfl, fun hn => by simp [h] at hn, rfl⟩
  · refine ⟨State.bit_setBit_self _ _ _ (by decide), fun i hi => ?_, fun a ha => ?_, fun h => ?_, fun _ => ⟨?_, fun h => ?_⟩, rfl⟩
    · exact State.bit_setBit_other _ _ _ (by decide) (Ne.symm hi)
    · rw [State.emit_rd, State.rd_setBit, if_neg (by simpa [eq_comm] using ha)]; rfl
    · subst h; rfl
    · exact List.mem_append_right _ (List.mem_singleton_self _)
    · subst h; rfl

/-- THERM_N_ASSERT drives the pin. -/
theorem exec_thermNAssert {s : State} (h : s.boot.por = false) :
    ∃ u, exec .thermNAssert s = .next u ∧ u.bit Reg.PWR_STATUS 9 = true ∧ BytesSame s u ∧ RegsSameBut s u [Reg.PWR_STATUS] ∧
      (s.bit Reg.PWR_STATUS 9 = false → Output.pin 0 false ∈ u.out ∧ u.alertStatus = s.alertStatus ||| 1) := by
  obtain ⟨h9, -, hregs, -, hdrive, honly⟩ := s.thermPin_only true
  refine ⟨s.thermPin true, ?_, h9, ?_, hregs, fun hn => ⟨(hdrive hn).1, (hdrive hn).2 rfl⟩⟩
  · show Host.Outcome.next (if s.boot.por then s else s.thermPin true) = _
    rw [h]; rfl
  · rw [honly]; exact ⟨fun _ => rfl, fun _ => rfl⟩

/-- THERM_N_RELEASE releases the pin but while the trip stands. -/
theorem exec_thermNRelease (s : State) :
    ∃ u, exec .thermNRelease s = .next u ∧ u.bit Reg.PWR_STATUS 9 = (s.bit Reg.PWR_STATUS 9 && s.bit Reg.PWR_STATUS 8) ∧
      BytesSame s u ∧ RegsSameBut s u [Reg.PWR_STATUS] ∧ u.alertStatus = s.alertStatus := by
  obtain ⟨h9, -, hregs, halert, -, honly⟩ := s.thermPin_only false
  have hexec : exec .thermNRelease s = .next (if s.bit Reg.PWR_STATUS 8 then s else s.thermPin false) := rfl
  cases h8 : s.bit Reg.PWR_STATUS 8 with
  | true => exact ⟨s, by rw [hexec, h8]; rfl, by simp, ⟨fun _ => rfl, fun _ => rfl⟩, fun _ _ => rfl, rfl⟩
  | false =>
    refine ⟨s.thermPin false, by rw [hexec, h8]; rfl, by simp [h9], ?_, hregs, halert rfl⟩
    rw [honly]; exact ⟨fun _ => rfl, fun _ => rfl⟩

/-- THERMAL_TRIP opens every domain, drives `THERM_N` and is logged (R346). -/
theorem exec_thermalTrip {s : State} (h8 : s.bit Reg.PWR_STATUS 8 = false) (hp : s.boot.por = false) :
    ∃ u, exec .thermalTrip s = .next u ∧ u.bit Reg.PWR_STATUS 8 = true ∧ u.bit Reg.PWR_STATUS 9 = true ∧ (∀ d, d < 176 → d ∈ u.pwr.off) ∧
      ((selfLogged 0x0905 = true ∨ s.fwLost = false) → s.log.length < 4096 →
        ∃ x, u.log = s.log ++ [x] ∧ x.code = 0x0905 ∧ x.sev = sevDevice) ∧ BytesSame s u := by
  obtain ⟨h9, hbits, -, -, -, honly⟩ := (s.setBit Reg.PWR_STATUS 8 true).thermPin_only true
  generalize hv : (s.setBit Reg.PWR_STATUS 8 true).thermPin true = v at h9 hbits honly
  let t : State := { v with pwr := { v.pwr with off := List.range 176 ++ v.pwr.off.map (fun d => d + 256) } }
  obtain ⟨hlog, -, -, -, hregs⟩ := t.logRec_only 6 1 0x0905 sevDevice none (t.openDetail 0x0905)
  obtain ⟨-, heff, -⟩ := t.logEffect_only sevDevice none
  have hstatus : (t.logRec 6 1 0x0905 sevDevice none (t.openDetail 0x0905)).rd Reg.PWR_STATUS = v.rd Reg.PWR_STATUS := by
    have := Reg.PWR_STATUS_eq
    exact (hregs _ (notMem_logRegs (by omega))).trans (heff _ (ne_MSIX_PBA (by omega)))
  refine ⟨(t.logRec 6 1 0x0905 sevDevice none (t.openDetail 0x0905)).stepFree, ?_, ?_, ?_, fun d hd => ?_, fun hl hn => ?_, ?_⟩
  · show execThermalTrip s = _
    simp only [execThermalTrip, h8, hp, Bool.or_self, Bool.false_eq_true, if_false, hv]
    rfl
  · rw [State.bit, State.stepFree_rd, hstatus]
    exact (hbits 8 (by decide)).trans (State.bit_setBit_self _ _ _ (by decide))
  · rw [State.bit, State.stepFree_rd, hstatus]; exact h9
  · rw [State.stepFree_pwr, hlog]
    exact List.mem_append_left _ (List.mem_range.mpr hd)
  · have hlogs : t.log = s.log := by show v.log = _; rw [honly]; rfl
    rw [← hlogs] at hn ⊢
    exact State.logRec_log (s := t) (.inl rfl) hn 6 1 sevDevice none _
  · have hstore : v.store = s.store := by rw [honly]; rfl
    have hdram : v.dram = s.dram := by rw [honly]; rfl
    exact ⟨fun _ => by rw [State.stepFree_store, hlog, ← hstore], fun _ => by rw [State.stepFree_dram, hlog, ← hdram]⟩

/-! Supplies and ramps. -/

/-- VBAT_LOSS loses the BBRAM key (R218). -/
theorem exec_vbatLoss (s : State) : ∃ u, exec .vbatLoss s = .next u ∧ u.fuses = { s.fuses with bbramKey := none } ∧
    u.bit Reg.CFG_KEY_STATUS 1 = false ∧ u = { s with regs := u.regs, fuses := u.fuses } := by
  refine ⟨_, rfl, rfl, ?_, rfl⟩
  rw [State.bit, State.showFuses, State.rd_wr, if_pos rfl]
  show Word.bit (BitVec.ofNat 32 (s.fuses.efuseKey.isSome.toNat + 0)) 1 = false
  cases s.fuses.efuseKey.isSome <;> rfl

/-- RAMP_COMPLETE turns a domain on, but a sector after boot (R343, R344). -/
theorem exec_rampComplete (s : State) (d : Nat) :
    (d < 144 ∨ (s.bit Reg.BOOT_STATUS 4 = false ∧ s.boot.warm = false) → ∃ u, exec (.rampComplete d) s = .next u ∧
      u.pwr = { s.pwr with off := s.pwr.off.filter (fun x => x != d) } ∧ u = { s with pwr := u.pwr }) ∧
    (144 ≤ d → s.bit Reg.BOOT_STATUS 4 = true ∨ s.boot.warm = true → exec (.rampComplete d) s = .next s) := by
  have hexec : exec (.rampComplete d) s = if d < 144 ∨ (!(s.bit Reg.BOOT_STATUS 4) ∧ !s.boot.warm) then
      .next { s with pwr := { s.pwr with off := s.pwr.off.filter (fun x => x != d) } } else .next s := rfl
  refine ⟨fun h => ⟨{ s with pwr := { s.pwr with off := s.pwr.off.filter (fun x => x != d) } }, ?_, rfl, rfl⟩, fun hd h => ?_⟩
  · rw [hexec, if_pos (by simpa using h)]
  · rw [hexec, if_neg ?_]
    rintro (hlt | ⟨hb, hw⟩)
    · omega
    · rcases h with h | h <;> simp [h] at hb hw

end Sys2Proof.Machine
end

section
/-! A short ramp (R343, R344): a domain that stays off, and the tile that is found dead. -/
namespace Sys2Proof.Machine
open Sys2Proof.Safety

/-! The partition that holds a column, after partitions changed. -/

/-- A change of partitions that keeps their columns keeps the partition of each column. -/
theorem colPartIn_map {m : SMap Part} {g : Nat → Part → Part}
    (hg : ∀ p x, (g p x).firstCol = x.firstCol ∧ (g p x).lastCol = x.lastCol) (c : Nat) :
    colPartIn (m.map (fun q => (q.1, g q.1 q.2))) c = colPartIn m c := by
  induction m with
  | nil => rfl
  | cons q r ih =>
    obtain ⟨p, x⟩ := q
    simp only [List.map_cons, colPartIn, (hg p x).1, (hg p x).2, ih]

/-- A change of the partition that holds a column, to one with its columns, leaves the column with it. -/
theorem colPartIn_set {m : SMap Part} {c p : Nat} {y : Part} (h : colPartIn m c = some p)
    (hy : ∀ x, SMap.find m p = some x → y.firstCol = x.firstCol ∧ y.lastCol = x.lastCol) :
    colPartIn (SMap.set m p y) c = some p := by
  induction m with
  | nil => cases h
  | cons q r ih =>
    obtain ⟨k, x⟩ := q
    unfold SMap.set
    by_cases hk : k = p
    · subst hk
      obtain ⟨hf, hl⟩ := hy x (by simp [SMap.find])
      simpa only [if_true, colPartIn, hf, hl] using h
    · rw [if_neg hk]
      by_cases hlt : p < k
      · rw [if_pos hlt, colPartIn]
        split
        · rfl
        · exact h
      · rw [if_neg hlt, colPartIn]
        rw [colPartIn] at h
        split
        · next hin => rwa [if_pos hin] at h
        · next hout =>
          rw [if_neg hout] at h
          exact ih h fun z hz => hy z (by rwa [SMap.find, if_neg hk])

/-- A kept cause changes the causes alone (R369). -/
theorem State.keepCause_parts (s : State) (sev : Nat) (part : Option Nat) (r : LogRec) :
    ∃ g : Nat → Part → Part, (s.keepCause sev part r).parts = s.parts.map (fun q => (q.1, g q.1 q.2)) ∧
      ∀ p x, (g p x).firstCol = x.firstCol ∧ (g p x).lastCol = x.lastCol := by
  unfold State.keepCause
  split
  · exact ⟨fun _ x => x, by simp, fun _ _ => ⟨rfl, rfl⟩⟩
  · refine ⟨fun p x => if (part = some p ∨ part = none) ∧ x.fault ∧ x.cause = none then { x with cause := some r } else x, ?_, fun p x => ?_⟩
    · refine List.map_congr_left fun q _ => ?_
      dsimp only
      split <;> rfl
    · dsimp only
      split <;> exact ⟨rfl, rfl⟩

/-- A record of the partition that holds a column leaves the column with it, and the partition in existence. -/
theorem State.logRec_colPart {s : State} {c p : Nat} {x : Part} (hc : s.colPart c = some p) (hx : s.part p = some x)
    (cls idx code : Nat) {sev : Nat} (hs : sev ≠ sevDevice) (detail : List Byte) :
    let u := s.logRec cls idx code sev (some p) detail
    u.colPart c = some p ∧ ∃ y, u.part p = some y := by
  obtain ⟨-, hparts, -⟩ := s.logRec_only cls idx code sev (some p) detail
  obtain ⟨g, hg, hcols⟩ := (s.logEffect sev (some p)).keepCause_parts sev (some p) ⟨(s.logEffect sev (some p)).now,
    (s.logEffect sev (some p)).logMs (some p), some p, sev, (s.logEffect sev (some p)).fld Reg.LOG_NEXT 16 16, 0, cls, idx, code, detail⟩
  have hraised : (s.logEffect sev (some p)).colPart c = some p ∧ ∃ y, (s.logEffect sev (some p)).part p = some y := by
    by_cases hp : sev = sevPartition
    · have he : s.logEffect sev (some p) = s.setPart p (s.faulted p x) := by
        simp only [State.logEffect, hp, if_true, State.raiseFault, State.updPart, hx]
      rw [he]
      refine ⟨colPartIn_set hc fun z hz => ?_, s.faulted p x, by simp⟩
      obtain rfl : x = z := Option.some.inj (hx.symm.trans hz)
      exact ⟨rfl, rfl⟩
    · have he : s.logEffect sev (some p) = s := by simp only [State.logEffect, hp, hs, if_false]
      rw [he]; exact ⟨hc, x, hx⟩
  obtain ⟨hcr, y, hyr⟩ := hraised
  have hu : (s.logRec cls idx code sev (some p) detail).parts = (s.logEffect sev (some p)).parts.map (fun q => (q.1, g q.1 q.2)) :=
    hparts.trans hg
  refine ⟨?_, g p y, ?_⟩
  · rw [State.colPart, hu, colPartIn_map hcols]; exact hcr
  · rw [State.part, hu, SMap.find_map, show SMap.find (s.logEffect sev (some p)).parts p = some y from hyr]; rfl

/-! A tile that is found dead. -/

/-- A tile that is found dead in a partition that is not STOPPED is noted with its recovery (R77). -/
theorem State.foundDead_noted {s : State} {c p : Nat} {x : Part} (d : Nat) (hc : s.colPart c = some p) (hx : s.part p = some x)
    (hp : s.pstate p ≠ psStopped) : ∃ y, s.foundDead c d = s.setPart p y ∧ (c, d) ∈ y.recov.dead := by
  simp only [State.foundDead, hc, if_neg hp, State.updPart, hx]
  split
  · exact ⟨_, rfl, List.mem_append_right _ (List.mem_singleton_self _)⟩
  · exact ⟨_, rfl, List.mem_append_right _ (List.mem_singleton_self _)⟩

/-! RAMP_SHORT. -/

/-- Whether a column's partition runs, will run or rests in a rung (R344). -/
def State.columnLive (s : State) (c : Nat) : Bool :=
  match s.colPart c with
  | some p => s.pstate p == psArmed || s.pstate p == psRunning || (match s.part p with | some x => x.rung != 0 | none => false)
  | none => false

/-- The severity of a short ramp in a column. -/
def State.rampSev (s : State) (c : Nat) : Nat := if s.columnLive c then sevPartition else sevContained

/-- The state in which a short ramp has left a domain off, and alerts. -/
def State.rampOff (s : State) (d : Nat) : State :=
  { s with pwr := { s.pwr with off := d :: s.pwr.off.filter (fun x => x != d) }, alertStatus := s.alertStatus ||| 0x20 }

theorem State.rampSev_ne_device (s : State) (c : Nat) : s.rampSev c ≠ sevDevice := by unfold State.rampSev; split <;> decide

/-- What the record of a short ramp leaves: the domain off, the alert, every byte, and the log with the record. -/
def RampLogged (s u : State) (d sev : Nat) : Prop :=
  d ∈ u.pwr.off ∧ u.alertStatus = s.alertStatus ||| 0x20 ∧ BytesSame s u ∧
    ((selfLogged 0x0902 = true ∨ s.fwLost = false) → s.log.length < 4096 → ∃ r, u.log = s.log ++ [r] ∧ r.code = 0x0902 ∧ r.sev = sev)

/-- The record of a short ramp, on a state that differs from that of the ramp in registers alone. -/
theorem State.rampRec_logged {s t : State} {d c : Nat} (ht : t = { s.rampOff d with regs := t.regs }) (cls idx : Nat) (part : Option Nat)
    (detail : List Byte) : RampLogged s (t.logRec cls idx 0x0902 (s.rampSev c) part detail) d (s.rampSev c) := by
  obtain ⟨honly, -⟩ := t.logRec_only cls idx 0x0902 (s.rampSev c) part detail
  obtain ⟨-, -, halert⟩ := t.logRec_below_device cls idx 0x0902 part detail (s.rampSev_ne_device c)
  have hlog : t.log = s.log := by rw [ht]; rfl
  have hlost : t.fwLost = s.fwLost := by rw [ht]; rfl
  refine ⟨?_, halert.trans (by rw [ht]; rfl), ⟨fun _ => ?_, fun _ => ?_⟩, fun hw hn => ?_⟩
  · rw [honly, ht]; exact List.mem_cons_self ..
  · rw [honly, ht]; rfl
  · rw [honly, ht]; rfl
  · rw [← hlost] at hw; rw [← hlog] at hn ⊢
    exact State.logRec_log hw hn cls idx (s.rampSev c) part detail

/-- Whether the detour map stands, after registers other than `BOOT_STATUS` changed. -/
theorem State.mapBuilt_congr {s u : State} (hr : u.rd Reg.BOOT_STATUS = s.rd Reg.BOOT_STATUS) (hb : u.boot = s.boot) :
    u.mapBuilt = s.mapBuilt := by
  unfold State.mapBuilt State.bit State.fld
  rw [hr, hb]

/-- The record of a position's short ramp, with its fault bit, and its death where the map stands. -/
theorem State.rampTile {s : State} {d c pos k : Nat} (idx : Nat) (detail : List Byte)
    (hside : s.mapBuilt = false ∨ ∃ p x, s.colPart c = some p ∧ s.part p = some x ∧ s.pstate p ≠ psStopped) :
    let t := ((s.rampOff d).setBit (Reg.TILE_FAULT k) 7 true).logRec 0 idx 0x0902 (s.rampSev c) (s.colPart c) detail
    let u := if t.mapBuilt then t.foundDead c pos else t
    RampLogged s u d (s.rampSev c) ∧ u.bit (Reg.TILE_FAULT k) 7 = true ∧
      (s.mapBuilt = true → ∀ p, s.colPart c = some p → ∃ y, u.part p = some y ∧ (c, pos) ∈ y.recov.dead) := by
  intro t u
  have hfault : Reg.TILE_FAULT k = 0x10000000 + k * 0x10000 + 0x10 := rfl
  have hlogged : RampLogged s t d (s.rampSev c) := State.rampRec_logged (t := (s.rampOff d).setBit (Reg.TILE_FAULT k) 7 true) rfl 0 idx _ _
  obtain ⟨honly, -⟩ := ((s.rampOff d).setBit (Reg.TILE_FAULT k) 7 true).logRec_only 0 idx 0x0902 (s.rampSev c) (s.colPart c) detail
  obtain ⟨hregs, -, -⟩ := ((s.rampOff d).setBit (Reg.TILE_FAULT k) 7 true).logRec_below_device 0 idx 0x0902 (s.colPart c) detail
    (s.rampSev_ne_device c)
  have hrd (a : Nat) (hl : a < 0x72000000 ∨ 0x72000010 ≤ a) : t.rd a = ((s.rampOff d).setBit (Reg.TILE_FAULT k) 7 true).rd a :=
    hregs a (notMem_logRegs hl)
  have hbit : t.bit (Reg.TILE_FAULT k) 7 = true := by
    rw [State.bit, hrd _ (by omega)]; exact State.bit_setBit_self _ _ _ (by decide)
  have hmap : t.mapBuilt = s.mapBuilt := by
    have hboot : Reg.BOOT_STATUS = 0x72002000 := rfl
    refine State.mapBuilt_congr ?_ ?_
    · rw [hrd _ (by omega), State.rd_setBit, if_neg (by omega)]; rfl
    · exact (congrArg State.boot honly).trans rfl
  by_cases hm : s.mapBuilt = true
  · obtain ⟨p, x, hc, hx, hst⟩ := hside.resolve_left (by simp [hm])
    have hcol : t.colPart c = some p ∧ ∃ y, t.part p = some y := by
      show (State.logRec _ 0 idx 0x0902 _ (s.colPart c) detail).colPart c = _ ∧ ∃ y, (State.logRec _ 0 idx 0x0902 _ (s.colPart c) detail).part p = _
      rw [hc]
      exact State.logRec_colPart (s := (s.rampOff d).setBit (Reg.TILE_FAULT k) 7 true) hc hx 0 idx 0x0902 (s.rampSev_ne_device c) detail
    obtain ⟨hcol, x', hx'⟩ := hcol
    have hstate : t.pstate p ≠ psStopped := by
      have hreg := Reg.PART_BEAT_STATUS_eq p
      rw [State.pstate, State.fld, hrd _ (by omega), State.rd_setBit, if_neg (by omega)]; exact hst
    obtain ⟨y, hy, hdead⟩ := State.foundDead_noted pos hcol hx' hstate
    have hu : u = t.setPart p y := (if_pos (hmap.trans hm)).trans hy
    rw [hu]
    refine ⟨hlogged, hbit, fun _ q hq => ⟨y, ?_, hdead⟩⟩
    obtain rfl : p = q := Option.some.inj (hc.symm.trans hq)
    simp
  · have hu : u = t := if_neg (by rw [hmap]; exact hm)
    rw [hu]
    exact ⟨hlogged, hbit, fun h => absurd h hm⟩

/-- A tile at a position of a column is one of the column's. -/
theorem State.tileAt_col {s : State} {c pos t : Nat} (h : s.tileAt c pos = some t) : t / 8 = c ∧ t < 8 * c + 8 := by
  obtain ⟨r, hr, rfl⟩ := List.mem_map.mp (List.mem_of_find?_eq_some h)
  have := List.mem_range.mp hr
  omega

/-- The severity of the model's record is that of its column. -/
theorem State.rampSev_eq (s : State) (c : Nat) :
    (if (match s.colPart c with | some p => s.pstate p == psArmed || s.pstate p == psRunning | none => false) ||
        (match s.colPart c with | some p => (match s.part p with | some x => x.rung != 0 | none => false) | none => false)
      then sevPartition else sevContained) = s.rampSev c := by
  unfold State.rampSev State.columnLive
  cases s.colPart c <;> rfl

/-- The record of a position's short ramp, and its death where the map stands. -/
def State.rampDead (s : State) (d c k idx : Nat) (detail : List Byte) : State :=
  let t := ((s.rampOff d).setBit (Reg.TILE_FAULT k) 7 true).logRec 0 idx 0x0902 (s.rampSev c) (s.colPart c) detail
  if t.mapBuilt then t.foundDead c (d % 9) else t

/-- RAMP_SHORT of a position that carries a tile. -/
theorem exec_rampShort_tile {s : State} {d k : Nat} (stage : BitVec 2) (trip : Bool) (h : d < 144) (ht : s.tileAt (d / 9) (d % 9) = some k) :
    exec (.rampShort d stage trip) s =
      .next (s.rampDead d (d / 9) k k (toBytes k 1 ++ toBytes (stage.toNat + 16 * trip.toNat) 1)) := by
  obtain ⟨hk, hk8⟩ := State.tileAt_col ht
  have hpart : s.tilePart k = s.colPart (d / 9) := by rw [State.tilePart, if_pos (by omega), hk]
  show execRampShort d stage trip s = _
  unfold execRampShort State.rampDead
  rw [← hpart, ← State.rampSev_eq]
  simp only [h, if_true]
  split
  · next t hm =>
    obtain rfl : k = t := Option.some.inj (ht.symm.trans hm)
    rfl
  · next hm => exact absurd (ht.symm.trans hm) (by simp)

/-- RAMP_SHORT of a position that carries none. -/
theorem exec_rampShort_spare {s : State} {d : Nat} (stage : BitVec 2) (trip : Bool) (h : d < 144) (ht : s.tileAt (d / 9) (d % 9) = none) :
    exec (.rampShort d stage trip) s =
      .next (s.rampDead d (d / 9) (128 + d / 9) (0x100 + d / 9 * 16 + d % 9)
        (toBytes 0x7F 1 ++ toBytes (stage.toNat + 16 * trip.toNat) 1)) := by
  show execRampShort d stage trip s = _
  unfold execRampShort State.rampDead
  rw [← State.rampSev_eq]
  simp only [h, if_true]
  split
  · next t hm => exact absurd (ht.symm.trans hm) (by simp)
  · rfl

/-- RAMP_SHORT of a sector. -/
theorem exec_rampShort_sector {s : State} {d : Nat} (stage : BitVec 2) (trip : Bool) (h : ¬ d < 144) :
    exec (.rampShort d stage trip) s =
      .next ((s.rampOff d).logRec 2 (d - 144) 0x0902 (s.rampSev ((d - 144) % 16)) (s.colPart ((d - 144) % 16))
        (toBytes (d - 144) 1 ++ toBytes (stage.toNat + 16 * trip.toNat) 1)) := by
  show execRampShort d stage trip s = _
  unfold execRampShort
  rw [← State.rampSev_eq]
  simp only [h, if_false]
  rfl

/-- RAMP_SHORT (R343, R344). -/
theorem exec_rampShort {s : State} {d : Nat} (stage : BitVec 2) (trip : Bool) (hd : d < 176) :
    let c := if d < 144 then d / 9 else (d - 144) % 16
    (144 ≤ d ∨ s.mapBuilt = false ∨ ∃ p x, s.colPart c = some p ∧ s.part p = some x ∧ s.pstate p ≠ psStopped) →
    ∃ u, exec (.rampShort d stage trip) s = .next u ∧ RampLogged s u d (s.rampSev c) ∧
      (d < 144 → ∀ t, s.tileAt c (d % 9) = some t → u.bit (Reg.TILE_FAULT t) 7 = true) ∧
      (d < 144 → s.tileAt c (d % 9) = none → u.bit (Reg.TILE_FAULT (128 + c)) 7 = true) ∧
      (d < 144 → s.mapBuilt = true → ∀ p, s.colPart c = some p → ∃ y, u.part p = some y ∧ (c, d % 9) ∈ y.recov.dead) := by
  intro c hside
  by_cases h : d < 144
  · have hc : c = d / 9 := if_pos h
    rw [hc] at hside ⊢
    cases ht : s.tileAt (d / 9) (d % 9) with
    | some k =>
      obtain ⟨hk, hk8⟩ := State.tileAt_col ht
      obtain ⟨hlogged, hbit, hdead⟩ := State.rampTile (s := s) (d := d) (c := d / 9) (pos := d % 9) (k := k) k
        (toBytes k 1 ++ toBytes (stage.toNat + 16 * trip.toNat) 1) (hside.resolve_left (by omega))
      refine ⟨_, exec_rampShort_tile stage trip h ht, hlogged, fun _ t hkt => ?_, fun _ hn => (by cases hn), fun _ => hdead⟩
      obtain rfl : k = t := Option.some.inj hkt
      exact hbit
    | none =>
      obtain ⟨hlogged, hbit, hdead⟩ := State.rampTile (s := s) (d := d) (c := d / 9) (pos := d % 9) (k := 128 + d / 9)
        (0x100 + d / 9 * 16 + d % 9) (toBytes 0x7F 1 ++ toBytes (stage.toNat + 16 * trip.toNat) 1) (hside.resolve_left (by omega))
      exact ⟨_, exec_rampShort_spare stage trip h ht, hlogged, fun _ t hkt => (by cases hkt), fun _ _ => hbit, fun _ => hdead⟩
  · have hc : c = (d - 144) % 16 := if_neg h
    rw [hc]
    exact ⟨_, exec_rampShort_sector stage trip h, State.rampRec_logged rfl _ _ _ _, fun hlt => absurd hlt h, fun hlt => absurd hlt h,
      fun hlt => absurd hlt h⟩

end Sys2Proof.Machine
end

section
/-! A quarter in a loop of the governor (R51, R346): what it changes, and what it leaves to the other quarters. -/
namespace Sys2Proof.Machine
open Sys2Proof.Safety

/-! What a loop may change of some quarters. -/

/-- The registers in which a loop shows a quarter, asks its rail and re-arms its tiles. -/
def GovReg (q a : Nat) : Prop :=
  a = Reg.PWR_CEIL q ∨ a = Reg.PWR_GOV_VOLT q ∨ a = Reg.PWR_GOV_SLACK q ∨ a = Reg.PWR_RAIL_V q ∨ ∃ t, t / 32 = q ∧ a = Reg.SEQ_BEAT_MIN_SLACK t

theorem Reg.PWR_CEIL_eq (q : Nat) : Reg.PWR_CEIL q = 0x71000018 + q * 4 := rfl
theorem Reg.PWR_GOV_SLACK_eq (q : Nat) : Reg.PWR_GOV_SLACK q = 0x71000114 + q * 4 := rfl
theorem Reg.SEQ_BEAT_MIN_SLACK_eq (t : Nat) : Reg.SEQ_BEAT_MIN_SLACK t = 0x10000000 + t * 0x10000 + 0x110C := rfl
theorem Reg.SEQ_BEAT_USED_eq (t : Nat) : Reg.SEQ_BEAT_USED t = 0x10000000 + t * 0x10000 + 0x1104 := rfl
theorem Reg.SEQ_BEAT_SLACK_eq (t : Nat) : Reg.SEQ_BEAT_SLACK t = 0x10000000 + t * 0x10000 + 0x1108 := rfl
theorem Reg.PART_VAR_BUDGET_eq (p v : Nat) : Reg.PART_VAR_BUDGET p v = 0x73008040 + p * 0x100 + v * 4 := by
  have : Reg.PART_VAR_BUDGET p v = 0x73008000 + p * 0x100 + 0x40 + v * 4 := rfl
  omega

/-- Where the registers of a quarter lie. -/
theorem GovReg.place {q a : Nat} (h : GovReg q a) : a = 0x71000018 + q * 4 ∨ a = 0x71000104 + q * 4 ∨ a = 0x71000114 + q * 4 ∨
    a = 0x71000300 + q * 8 ∨ 0x10000000 ≤ a ∧ a % 0x10000 = 0x110C ∧ (a - 0x10000000) / 0x200000 = q := by
  rcases h with h | h | h | h | ⟨t, ht, h⟩
  · have := Reg.PWR_CEIL_eq q; omega
  · have := Reg.PWR_GOV_VOLT_eq q; omega
  · have := Reg.PWR_GOV_SLACK_eq q; omega
  · have := Reg.PWR_RAIL_V_eq q; omega
  · have := Reg.SEQ_BEAT_MIN_SLACK_eq t; omega

/-- A step of a loop that changes the quarters `K` alone, with their tiles, their rails and their registers, and that may log. -/
structure State.QuartersOnly (K : Nat → Prop) (s u : State) : Prop where
  rest : u = { s with regs := u.regs, tiles := u.tiles, pwr := u.pwr, alertStatus := u.alertStatus, out := u.out, log := u.log,
                      logHigh := u.logHigh, logLast := u.logLast, notices := u.notices, free := u.free }
  pwr : u.pwr = { s.pwr with quarters := u.pwr.quarters, want := u.pwr.want }
  regs : ∀ a, a ∉ logRegs → (∀ k, k < 4 → K k → ¬ GovReg k a) → u.rd a = s.rd a
  length : u.pwr.quarters.length = s.pwr.quarters.length
  quarter : ∀ k, ¬ K k → u.quarter k = s.quarter k
  want : ∀ k, ¬ K k → SMap.get u.pwr.want 0 k = SMap.get s.pwr.want 0 k
  tile : ∀ t, ¬ K (t / 32) → u.tile t = s.tile t
  out : ∀ o ∈ s.out, o ∈ u.out

namespace State.QuartersOnly

variable {K : Nat → Prop} {s u v : State}

theorem refl (s : State) : State.QuartersOnly K s s :=
  ⟨rfl, rfl, fun _ _ _ => rfl, rfl, fun _ _ => rfl, fun _ _ => rfl, fun _ _ => rfl, fun _ h => h⟩

theorem trans (h : State.QuartersOnly K s u) (h' : State.QuartersOnly K u v) : State.QuartersOnly K s v where
  rest := by rw [h'.rest, h.rest]
  pwr := by rw [h'.pwr, h.pwr]
  regs a ha hk := (h'.regs a ha hk).trans (h.regs a ha hk)
  length := h'.length.trans h.length
  quarter k hk := (h'.quarter k hk).trans (h.quarter k hk)
  want k hk := (h'.want k hk).trans (h.want k hk)
  tile t ht := (h'.tile t ht).trans (h.tile t ht)
  out o ho := h'.out o (h.out o ho)

theorem mono {L : Nat → Prop} (h : State.QuartersOnly K s u) (hKL : ∀ k, K k → L k) : State.QuartersOnly L s u where
  rest := h.rest
  pwr := h.pwr
  regs a ha hk := h.regs a ha fun k hk4 hK => hk k hk4 (hKL k hK)
  length := h.length
  quarter k hk := h.quarter k fun hK => hk (hKL k hK)
  want k hk := h.want k fun hK => hk (hKL k hK)
  tile t ht := h.tile t fun hK => ht (hKL _ hK)
  out := h.out

end State.QuartersOnly

/-! The steps of a loop. -/

section
variable {q : Nat} (s : State)

theorem State.wr_quartersOnly {a : Nat} (hq : q < 4) (ha : GovReg q a) (v : Word) : State.QuartersOnly (· = q) s (s.wr a v) :=
  { State.QuartersOnly.refl s with
    rest := rfl
    regs := fun b _ hb => by rw [State.rd_wr, if_neg]; rintro rfl; exact hb q hq rfl ha }

theorem State.setQuarter_quartersOnly (x : QuarterSt) : State.QuartersOnly (· = q) s (s.setQuarter q x) :=
  { State.QuartersOnly.refl s with
    rest := rfl
    pwr := rfl
    length := List.length_set
    quarter := fun k hk => by
      show (s.pwr.quarters.set q x).getD k _ = s.pwr.quarters.getD k _
      rw [List.getD_eq_getElem?_getD, List.getElem?_set_ne (Ne.symm hk), List.getD_eq_getElem?_getD] }

theorem State.setTile_quartersOnly {t : Nat} (ht : t / 32 = q) (x : Tile) : State.QuartersOnly (· = q) s (s.setTile t x) :=
  { State.QuartersOnly.refl s with
    rest := rfl
    tile := fun k hk => by
      show SMap.get (SMap.set s.tiles t x) Tile.reset k = _
      rw [SMap.get_set, if_neg]
      · rfl
      · rintro rfl; exact hk ht }

theorem State.emit_quartersOnly (o : Output) : State.QuartersOnly (· = q) s (s.emit o) :=
  { State.QuartersOnly.refl s with
    rest := rfl
    out := fun _ h => List.mem_append_left _ h }

theorem State.want_quartersOnly (n : Nat) :
    State.QuartersOnly (· = q) s { s with pwr := { s.pwr with want := SMap.set s.pwr.want q n } } :=
  { State.QuartersOnly.refl s with
    rest := rfl
    pwr := rfl
    want := fun k hk => by rw [SMap.get_set, if_neg (fun h => hk h.symm)] }

end

end Sys2Proof.Machine
end

section
/-! The governor's log of an excursion (R346, R347). -/
namespace Sys2Proof.Machine
open Sys2Proof.Safety

/-- Nothing but the log, its registers, the alert, the notices and the free values differs. -/
def State.LogOnly (s u : State) : Prop :=
  u = { s with regs := u.regs, alertStatus := u.alertStatus, log := u.log, logHigh := u.logHigh, logLast := u.logLast,
               notices := u.notices, free := u.free } ∧ ∀ a, a ∉ logRegs → u.rd a = s.rd a

theorem State.LogOnly.trans {s u v : State} (h : State.LogOnly s u) (h' : State.LogOnly u v) : State.LogOnly s v :=
  ⟨by rw [h'.1, h.1], fun a ha => (h'.2 a ha).trans (h.2 a ha)⟩

theorem State.LogOnly.refl (s : State) : State.LogOnly s s := ⟨rfl, fun _ _ => rfl⟩

theorem State.stepFree_logOnly (s : State) : State.LogOnly s s.stepFree := ⟨rfl, fun _ _ => rfl⟩

theorem State.notifyAll_logOnly (s : State) (fns : List Nat) (kind : Nat) (body : List Byte) :
    State.LogOnly s (s.notifyAll fns kind body) := by
  rw [State.notifyAll_eq]; exact ⟨rfl, fun _ _ => rfl⟩

/-- A record that is contained changes no partition and nothing that leaves. -/
theorem State.logRec_logOnly (s : State) (cls idx code : Nat) (detail : List Byte) :
    State.LogOnly s (s.logRec cls idx code sevContained none detail) := by
  obtain ⟨honly, -⟩ := s.logRec_only cls idx code sevContained none detail
  obtain ⟨hrd, hout, -⟩ := s.logRec_below_device cls idx code none detail (show sevContained ≠ sevDevice by decide)
  have hparts := s.logRec_contained_parts cls idx code none detail (show sevContained < sevPartition by decide)
  rw [hparts, hout] at honly
  exact ⟨by rw [honly], hrd⟩

/-- The record that a function is told of changes the notices alone. -/
theorem State.told_logOnly (s : State) (code : Nat) (owners : List Nat) :
    State.LogOnly s (match s.logLast with
      | some r => if r.code = code then s.notifyAll owners 0 r.bytes else s
      | none => s) := by
  split
  · split
    · exact s.notifyAll_logOnly _ _ _
    · exact .refl s
  · exact .refl s

/-- A record of the governor changes the log, the alert and the notices alone (R347). -/
theorem State.throttleLog_logOnly (s : State) (code : Nat) (quarter : Option Nat) (kind floor : Nat) :
    State.LogOnly s (s.throttleLog code quarter kind floor) := by
  have halert : State.LogOnly s (State.stepFree { s with alertStatus := s.alertStatus ||| 2 }) := ⟨rfl, fun _ _ => rfl⟩
  have htold (idx : Nat) (detail : List Byte) (owners : List Nat) :=
    (halert.trans (State.logRec_logOnly _ 7 idx code detail)).trans (State.told_logOnly _ code owners)
  cases quarter with
  | none => exact htold _ _ _
  | some q => exact ((htold _ _ _).trans (State.notifyAll_logOnly _ [0] 4 _)).trans (State.stepFree_logOnly _)

/-- A record changes no quarter. -/
theorem State.LogOnly.quartersOnly {K : Nat → Prop} {s u : State} (h : State.LogOnly s u) : State.QuartersOnly K s u where
  rest := by rw [h.1]
  pwr := by rw [h.1]
  regs a ha _ := h.2 a ha
  length := by rw [h.1]
  quarter k _ := by rw [h.1]; rfl
  want k _ := by rw [h.1]
  tile t _ := by rw [h.1]; rfl
  out o ho := by rw [h.1]; exact ho

end Sys2Proof.Machine
end

section
/-! A quarter in a loop of the governor (R51, R346, R347): its ceilings, its request and the re-arm of its tiles. -/
namespace Sys2Proof.Machine
open Sys2Proof.Safety

/-! The ceilings. -/

/-- A quarter's record after one was replaced. -/
theorem State.quarter_setQuarter (s : State) (q k : Nat) (x : QuarterSt) :
    (s.setQuarter q x).quarter k = if q = k ∧ q < s.pwr.quarters.length then x else s.quarter k := by
  show (s.pwr.quarters.set q x).getD k _ = if q = k ∧ q < s.pwr.quarters.length then x else s.pwr.quarters.getD k _
  simp only [List.getD_eq_getElem?_getD, List.getElem?_set]
  by_cases h : q = k
  · subst h
    by_cases hl : q < s.pwr.quarters.length <;> simp [hl]
  · simp [h]

/-- The thermal ceiling that a loop gives a quarter (R346). -/
def State.nextCeilT (s : State) (q : Nat) : Nat :=
  if ((8 * s.fld Reg.PWR_THERM_CTRL 0 8 : Nat) : Int) ≤ (s.quarter q).tj then max 120 ((s.quarter q).ceilT - 2)
  else if (s.quarter q).tj < ((8 * s.fld Reg.PWR_THERM_CTRL 8 8 : Nat) : Int) then min 170 ((s.quarter q).ceilT + 1)
  else (s.quarter q).ceilT

theorem State.thermCeil_quarter {s : State} {q : Nat} (h : q < s.pwr.quarters.length) :
    (s.thermCeil q).quarter q = { s.quarter q with ceilT := s.nextCeilT q } := by
  have hot : (s.fld Reg.PWR_THERM_CTRL 0 8 : Int) * 8 = ((8 * s.fld Reg.PWR_THERM_CTRL 0 8 : Nat) : Int) := by push_cast; ring
  have cool : (s.fld Reg.PWR_THERM_CTRL 8 8 : Int) * 8 = ((8 * s.fld Reg.PWR_THERM_CTRL 8 8 : Nat) : Int) := by push_cast; ring
  simp only [State.thermCeil, State.nextCeilT, hot, cool]
  split
  · rw [State.quarter_setQuarter, if_pos ⟨rfl, h⟩]
  · split
    · rw [State.quarter_setQuarter, if_pos ⟨rfl, h⟩]
    · rfl

theorem State.thermCeil_only (s : State) (q : Nat) :
    s.thermCeil q = { s with pwr := { s.pwr with quarters := (s.thermCeil q).pwr.quarters } } := by
  simp only [State.thermCeil]
  split
  · rfl
  · split <;> rfl

theorem State.thermCeil_quartersOnly (s : State) (q : Nat) : State.QuartersOnly (· = q) s (s.thermCeil q) := by
  simp only [State.thermCeil]
  split
  · exact s.setQuarter_quartersOnly _
  · split
    · exact s.setQuarter_quartersOnly _
    · exact .refl s

/-- A ceiling is at most 0.85 V. -/
theorem QuarterSt.ceil_le (x : QuarterSt) : x.ceil ≤ 170 := Nat.min_le_left _ _

/-- `PWR_Qq_CEIL` shows the ceiling. -/
theorem State.showCeil_field (s : State) (q : Nat) : (s.showCeil q).fld (Reg.PWR_CEIL q) 0 8 = (s.quarter q).ceil := by
  have := (s.quarter q).ceil_le
  have h1 := (decide ((s.quarter q).ceilP < 170)).toNat_le
  have h2 := (decide ((s.quarter q).ceilT < 170)).toNat_le
  simp only [State.showCeil, State.fld, State.rd_wr, if_true, Word.field, BitVec.toNat_ofNat]
  omega

/-- An excursion is noted with the quarter, and perhaps logged. -/
theorem State.throttle_parts (s : State) (q floor : Nat) : ∃ p t,
    State.LogOnly (s.setQuarter q { s.quarter q with loggedP := p, loggedT := t }) (s.throttle q floor) := by
  have h (c : Bool) (s : State) (code kind : Nat) : State.LogOnly s (if c then s.throttleLog code (some q) kind floor else s) := by
    split
    · exact s.throttleLog_logOnly _ _ _ _
    · exact .refl s
  refine ⟨decide ((s.quarter q).ceilP < floor), decide ((s.quarter q).ceilT < floor), ?_⟩
  refine (h (decide ((s.quarter q).ceilP < floor) && !(s.quarter q).loggedP) _ 0x0904 0).trans ?_
  exact h (decide ((s.quarter q).ceilT < floor) && !(s.quarter q).loggedT) _ 0x0903 0

/-- The note of an excursion leaves the tiles, the rails and what leaves as they are. -/
theorem State.throttle_only (s : State) (q floor : Nat) : let u := s.throttle q floor
    u.tiles = s.tiles ∧ u.out = s.out ∧ u.pwr.want = s.pwr.want ∧ ∀ a, a ∉ logRegs → u.rd a = s.rd a := by
  obtain ⟨p, t, h, hrd⟩ := s.throttle_parts q floor
  generalize s.throttle q floor = u at h hrd
  refine ⟨?_, ?_, ?_, hrd⟩ <;> rw [h] <;> rfl

/-- The note of an excursion leaves a quarter's ceilings as they are. -/
theorem State.throttle_quarter {s : State} {q : Nat} (h : q < s.pwr.quarters.length) (floor : Nat) :
    ∃ p t, (s.throttle q floor).quarter q = { s.quarter q with loggedP := p, loggedT := t } := by
  obtain ⟨p, t, hl, -⟩ := s.throttle_parts q floor
  generalize s.throttle q floor = u at hl
  refine ⟨p, t, ?_⟩
  rw [hl]
  exact (State.quarter_setQuarter s q q _).trans (if_pos ⟨rfl, h⟩)

/-- The state in which a quarter's ceiling and its floor are shown. -/
def State.limited (s : State) (q : Nat) : State :=
  ((s.thermCeil q).showCeil q).setFld (Reg.PWR_GOV_VOLT q) 8 8 (s.floorDue q)

/-- The state in which a quarter's limits are shown, and an excursion is logged. -/
def State.ceiled (s : State) (q : Nat) : State := (s.limited q).throttle q (s.floorDue q)

theorem State.limited_quartersOnly (s : State) {q : Nat} (hq : q < 4) : State.QuartersOnly (· = q) s (s.limited q) :=
  ((s.thermCeil_quartersOnly q).trans (State.wr_quartersOnly _ hq (.inl rfl) (BitVec.ofNat 32 _))).trans
    (State.wr_quartersOnly _ hq (.inr (.inl rfl)) _)

/-- The limits leave the tiles, the rails and what leaves as they are. -/
theorem State.limited_only (s : State) (q : Nat) : let u := s.limited q
    u.tiles = s.tiles ∧ u.out = s.out ∧ u.pwr.want = s.pwr.want ∧
      ∀ a, a ≠ Reg.PWR_CEIL q → a ≠ Reg.PWR_GOV_VOLT q → u.rd a = s.rd a := by
  have hc := s.thermCeil_only q
  have htiles : (s.thermCeil q).tiles = s.tiles := by rw [hc]
  have hout : (s.thermCeil q).out = s.out := by rw [hc]
  have hwant : (s.thermCeil q).pwr.want = s.pwr.want := by rw [hc]
  refine ⟨htiles, hout, hwant, fun a h1 h2 => ?_⟩
  rw [State.limited, State.rd_setFld, if_neg (Ne.symm h2), State.showCeil, State.rd_wr, if_neg (Ne.symm h1), hc]
  rfl

/-- A quarter's record after its limits are shown. -/
theorem State.limited_quarter {s : State} {q : Nat} (h : q < s.pwr.quarters.length) :
    (s.limited q).quarter q = { s.quarter q with ceilT := s.nextCeilT q } := State.thermCeil_quarter h

theorem State.ceiled_quartersOnly (s : State) {q : Nat} (hq : q < 4) : State.QuartersOnly (· = q) s (s.ceiled q) := by
  obtain ⟨p, t, h⟩ := (s.limited q).throttle_parts q (s.floorDue q)
  exact ((s.limited_quartersOnly hq).trans (State.setQuarter_quartersOnly _ _)).trans h.quartersOnly

/-- The ceilings leave the tiles, the rails and what leaves as they are. -/
theorem State.ceiled_only (s : State) (q : Nat) : let u := s.ceiled q
    u.tiles = s.tiles ∧ u.out = s.out ∧ u.pwr.want = s.pwr.want ∧
      ∀ a, a ∉ logRegs → a ≠ Reg.PWR_CEIL q → a ≠ Reg.PWR_GOV_VOLT q → u.rd a = s.rd a := by
  obtain ⟨htiles, hout, hwant, hregs⟩ := s.limited_only q
  obtain ⟨htiles', hout', hwant', hregs'⟩ := (s.limited q).throttle_only q (s.floorDue q)
  exact ⟨htiles'.trans htiles, hout'.trans hout, hwant'.trans hwant, fun a ha h1 h2 => (hregs' a ha).trans (hregs a h1 h2)⟩

/-- The quarter's record after the ceilings. -/
theorem State.ceiled_quarter {s : State} {q : Nat} (hq : q < 4) (h : q < s.pwr.quarters.length) :
    ∃ p t, (s.ceiled q).quarter q = { s.quarter q with ceilT := s.nextCeilT q, loggedP := p, loggedT := t } := by
  have hlen : q < (s.limited q).pwr.quarters.length := by rw [(s.limited_quartersOnly hq).length]; exact h
  obtain ⟨p, t, hx⟩ := State.throttle_quarter hlen (s.floorDue q)
  exact ⟨p, t, by rw [State.ceiled, hx, State.limited_quarter h]⟩

/-- `PWR_Qq_CEIL` shows the ceiling of the loop. -/
theorem State.ceiled_shows {s : State} {q : Nat} (hq : q < 4) (h : q < s.pwr.quarters.length) :
    (s.ceiled q).fld (Reg.PWR_CEIL q) 0 8 = ((s.ceiled q).quarter q).ceil := by
  obtain ⟨p, t, hx⟩ := State.ceiled_quarter hq h
  have hceil := Reg.PWR_CEIL_eq q
  have hvolt := Reg.PWR_GOV_VOLT_eq q
  obtain ⟨-, -, -, hregs⟩ := (s.limited q).throttle_only q (s.floorDue q)
  have hshown : (s.ceiled q).rd (Reg.PWR_CEIL q) = ((s.thermCeil q).showCeil q).rd (Reg.PWR_CEIL q) := by
    rw [State.ceiled, hregs _ (notMem_logRegs (by omega)), State.limited, State.rd_setFld, if_neg (by omega)]
  rw [State.fld, hshown]
  refine ((s.thermCeil q).showCeil_field q).trans ?_
  rw [hx, State.thermCeil_quarter h]
  rfl

/-! The request. -/

/-- The rails of the four quarters have places of their own on the buses (R340). -/
theorem avsOut_inj {k q : Nat} {c d : AvsCmd} (hq : q < 4) (h : avsOut k c = avsOut q d) : k = q ∧ c = d := by
  obtain ⟨h1, h2, h3⟩ : _ ∧ _ ∧ c = d := by simpa [avsOut] using h
  refine ⟨?_, h3⟩
  by_cases hk : k < 5
  · interval_cases k <;> interval_cases q <;> simp_all
  · rw [List.getElem?_eq_none (by simp; omega)] at h1 h2
    interval_cases q <;> simp_all

/-- A request changes its rail's target, its rail's register and what leaves. -/
theorem State.avsRequest_quartersOnly (s : State) {q : Nat} (hq : q < 4) (mv : Nat) : State.QuartersOnly (· = q) s (s.avsRequest q mv) := by
  unfold State.avsRequest
  split
  · exact .refl s
  · exact (((s.want_quartersOnly mv).trans (State.wr_quartersOnly _ hq (.inr (.inr (.inr (.inl rfl)))) _)).trans
      (State.emit_quartersOnly _ _)).trans (State.emit_quartersOnly _ _)

theorem State.avsRequest_only (s : State) (q mv : Nat) : let u := s.avsRequest q mv
    u.pwr.quarters = s.pwr.quarters ∧ u.tiles = s.tiles ∧ ∀ a, a ≠ Reg.PWR_RAIL_V q → u.rd a = s.rd a := by
  unfold State.avsRequest
  split
  · exact ⟨rfl, rfl, fun _ _ => rfl⟩
  · refine ⟨rfl, rfl, fun a ha => ?_⟩
    simp only [State.avsWrite, State.emit_rd, State.rd_setBit, if_neg ha.symm]; rfl

/-- A request asks one rail for one voltage. -/
theorem State.avsRequest_writes {s : State} {q mv k n : Nat} (hq : q < 4) (h : avsOut k (.write n) ∈ (s.avsRequest q mv).out) :
    avsOut k (.write n) ∈ s.out ∨ k = q ∧ n = mv := by
  unfold State.avsRequest at h
  split at h
  · exact .inl h
  · simp only [State.avsWrite, State.emit, List.mem_append, List.mem_singleton] at h
    rcases h with (h | h) | h
    · exact .inl h
    · obtain ⟨hk, hc⟩ := avsOut_inj hq h
      exact .inr ⟨hk, AvsCmd.write.inj hc⟩
    · exact absurd (avsOut_inj hq h).2 (by simp)

/-- A rail without a request out is asked for a voltage, unless it holds it. -/
theorem State.avsRequest_asks {s : State} {q mv : Nat} (hw : s.railWaits q = false) : let u := s.avsRequest q mv
    (s.railMv q ≠ mv → SMap.get u.pwr.want 0 q = mv ∧ u.railWaits q = true ∧ avsOut q (.write mv) ∈ u.out) ∧
      (s.railMv q = mv → u.railWaits q = false) := by
  refine ⟨fun h => ?_, fun h => ?_⟩
  · have hu : s.avsRequest q mv = s.avsWrite q mv := if_neg (by simp [hw, h])
    rw [hu]
    refine ⟨?_, State.bit_setBit_self _ _ _ (by decide), ?_⟩
    · show SMap.get (SMap.set s.pwr.want q mv) 0 q = mv
      rw [SMap.get_set, if_pos rfl]
    · exact List.mem_append_left _ (List.mem_append_right _ (List.mem_singleton_self _))
  · have hu : s.avsRequest q mv = s := if_pos (by simp [h])
    rw [hu]; exact hw

/-! The re-arm. -/

/-- Tiles of a quarter are re-armed. -/
theorem State.rearm_quartersOnly {q : Nat} (hq : q < 4) (ts : List Nat) (s : State) (h : ∀ t ∈ ts, t / 32 = q) :
    State.QuartersOnly (· = q) s (s.rearm ts) := by
  induction ts generalizing s with
  | nil => exact .refl s
  | cons t r ih =>
    have ht := h t (List.mem_cons_self ..)
    exact ((s.wr_quartersOnly hq (.inr (.inr (.inr (.inr ⟨t, ht, rfl⟩)))) _).trans (State.setTile_quartersOnly _ ht _)).trans
      (ih _ fun k hk => h k (List.mem_cons_of_mem _ hk))

/-- A re-arm leaves the rails, the quarters, what leaves and every register but those that it re-arms as they are. -/
theorem State.rearm_only (ts : List Nat) (s : State) : let u := s.rearm ts
    u.pwr = s.pwr ∧ u.out = s.out ∧ ∀ a, (∀ t ∈ ts, a ≠ Reg.SEQ_BEAT_MIN_SLACK t) → u.rd a = s.rd a := by
  induction ts generalizing s with
  | nil => exact ⟨rfl, rfl, fun _ _ => rfl⟩
  | cons t r ih =>
    obtain ⟨hp, ho, hr⟩ := ih ((s.wr (Reg.SEQ_BEAT_MIN_SLACK t) 0xFFFFF).setTile t { s.tile t with ran := false })
    refine ⟨hp, ho, fun a ha => (hr a fun k hk => ha k (List.mem_cons_of_mem _ hk)).trans ?_⟩
    rw [State.rd, State.setTile_regs]
    exact (State.rd_wr s _ _ _).trans (if_neg (ha t (List.mem_cons_self ..)).symm)

/-- What a re-arm leaves re-armed stays so. -/
theorem State.rearm_keeps (ts : List Nat) (s : State) (t : Nat) (hr : s.rd (Reg.SEQ_BEAT_MIN_SLACK t) = 0xFFFFF)
    (hn : (s.tile t).ran = false) : (s.rearm ts).rd (Reg.SEQ_BEAT_MIN_SLACK t) = 0xFFFFF ∧ ((s.rearm ts).tile t).ran = false := by
  induction ts generalizing s with
  | nil => exact ⟨hr, hn⟩
  | cons k r ih =>
    refine ih _ ?_ ?_
    · rw [State.rd, State.setTile_regs]
      refine (State.rd_wr s _ _ _).trans ?_
      split
      · rfl
      · exact hr
    · show (SMap.get (SMap.set s.tiles k _) Tile.reset t).ran = false
      rw [SMap.get_set]
      split
      · rfl
      · exact hn

/-- The tiles of a re-arm are re-armed. -/
theorem State.rearm_rearmed (ts : List Nat) (s : State) : ∀ t ∈ ts,
    (s.rearm ts).rd (Reg.SEQ_BEAT_MIN_SLACK t) = 0xFFFFF ∧ ((s.rearm ts).tile t).ran = false := by
  induction ts generalizing s with
  | nil => exact fun t h => absurd h (List.not_mem_nil)
  | cons k r ih =>
    intro t ht
    rcases List.mem_cons.mp ht with rfl | ht
    · refine State.rearm_keeps r _ t ?_ ?_
      · rw [State.rd, State.setTile_regs]
        exact (State.rd_wr s _ _ _).trans (if_pos rfl)
      · show (SMap.get (SMap.set s.tiles t _) Tile.reset t).ran = false
        rw [SMap.get_set, if_pos rfl]
    · exact ih _ t ht

end Sys2Proof.Machine
end

section
/-! A quarter in a loop of the governor (R51): which voltage it asks for. -/
namespace Sys2Proof.Machine
open Sys2Proof.Safety

/-! The step of R51 as a function of what was read. -/

/-- The voltage that a loop asks for, before the floor, and the loops above the band (R51). -/
def wantedStep (x : QuarterSt) (v floor after target band : Nat) (idle still late : Bool) (slacks : List (Nat × Nat)) : Nat × Nat :=
  if x.ceil < v then (x.ceil, 0)
  else if idle then (if after ≤ x.above + 1 then (lowered v floor, 0) else (v, x.above + 1))
  else if still then (v, 0)
  else steer v x.ceil floor x.above after target band late slacks

/-- A voltage raised to the floor, as far as the ceiling lets it (R51, R52). -/
def floored (floor ceil w : Nat) : Nat := if w < floor then min floor ceil else w

theorem floored_le {floor ceil w : Nat} (h : w ≤ ceil) : floored floor ceil w ≤ ceil := by
  unfold floored; split <;> omega

theorem lowered_le (v floor : Nat) : lowered v floor ≤ v := by unfold lowered; omega

section
variable (v ceil floor above after target band : Nat) (slacks : List (Nat × Nat))

/-- The band is missed from below. -/
def tooTight : Bool := slacks.any (fun x => decide (x.1 * 100 + band * x.2 < target * x.2))

/-- The band is exceeded by all. -/
def allSlack : Bool := slacks.all (fun x => decide ((target + band) * x.2 < x.1 * 100))

theorem steer_late : steer v ceil floor above after target band true slacks = (min (v + 4) ceil, 0) := rfl

theorem steer_tight (h : tooTight target band slacks = true) :
    steer v ceil floor above after target band false slacks = (min (v + 2) ceil, 0) := by
  rw [tooTight] at h
  simp only [steer, h]; rfl

theorem steer_slack (h : tooTight target band slacks = false) (ha : allSlack target band slacks = true) :
    steer v ceil floor above after target band false slacks = if after ≤ above + 1 then (lowered v floor, 0) else (v, above + 1) := by
  rw [tooTight] at h
  rw [allSlack] at ha
  simp only [steer, h, ha]; rfl

theorem steer_hold (h : tooTight target band slacks = false) (ha : allSlack target band slacks = false) :
    steer v ceil floor above after target band false slacks = (v, 0) := by
  rw [tooTight] at h
  rw [allSlack] at ha
  simp only [steer, h, ha]; rfl

end

/-- A step of R51 asks for no more than the ceiling. -/
theorem steer_le {v ceil : Nat} (h : v ≤ ceil) (floor above after target band : Nat) (late : Bool) (slacks : List (Nat × Nat)) :
    (steer v ceil floor above after target band late slacks).1 ≤ ceil := by
  cases late with
  | true => rw [steer_late]; exact Nat.min_le_right _ _
  | false =>
    cases ht : tooTight target band slacks with
    | true => rw [steer_tight _ _ _ _ _ _ _ _ ht]; exact Nat.min_le_right _ _
    | false =>
      cases ha : allSlack target band slacks with
      | true =>
        rw [steer_slack _ _ _ _ _ _ _ _ ht ha]
        split
        · exact (lowered_le v floor).trans h
        · exact h
      | false => rw [steer_hold _ _ _ _ _ _ _ _ ht ha]; exact h

theorem wantedStep_le (x : QuarterSt) (v floor after target band : Nat) (idle still late : Bool) (slacks : List (Nat × Nat)) :
    (wantedStep x v floor after target band idle still late slacks).1 ≤ x.ceil := by
  have := lowered_le v floor
  unfold wantedStep
  split
  · exact le_rfl
  · next hv =>
    have hle : v ≤ x.ceil := Nat.le_of_not_lt hv
    split
    · split
      · exact this.trans hle
      · exact hle
    · split
      · exact hle
      · exact steer_le hle _ _ _ _ _ _ _

/-- The minimum slack of a quarter is shown, and the tiles that were read are re-armed, where a loop read them (R51). -/
def State.reread (t : State) (q : Nat) (rearms late : Bool) (slacks : List (Nat × Nat)) (ran : List Nat) : State :=
  if rearms then
    (t.wr (Reg.PWR_GOV_SLACK q) (BitVec.ofNat 32
      (slacks.foldl (fun m y => min m (y.1 * 1000 / max 1 y.2)) 1023 + 1024 * late.toNat))).rearm ran
  else t

/-- Whether a tile of a quarter that ran a beat was late. -/
def State.anyLate (s : State) (q : Nat) : Bool := (s.ranTiles q).any (fun t => s.bit (Reg.SEQ_BEAT_MIN_SLACK t) 20)

/-- The slacks of the tiles of a quarter that ran a beat. -/
def State.slacks (s : State) (q : Nat) : List (Nat × Nat) := (s.ranTiles q).map (fun t => s.slackOf t)

/-- What a loop asks for, and the loops above the band, in a state with the quarter's limits shown. -/
def State.steered (s : State) (q : Nat) (c : Word) (floor : Nat) : Nat × Nat :=
  wantedStep (s.quarter q) (s.railMv q / 5) floor (c.field 24 4) (c.field 8 4) (c.field 16 4) (s.liveParts q).isEmpty
    (s.ranTiles q).isEmpty (s.anyLate q) (s.slacks q)

/-- The state with the loops above the band counted, and the tiles that were read re-armed. -/
def State.counted (s : State) (q n : Nat) : State :=
  (s.setQuarter q { s.quarter q with above := n }).reread q
    (decide (s.railMv q / 5 ≤ (s.quarter q).ceil) && !(s.liveParts q).isEmpty && !(s.ranTiles q).isEmpty) (s.anyLate q) (s.slacks q)
    (s.ranTiles q)

/-- A quarter in a loop: its limits, and the request of an enabled governor. -/
theorem State.governQuarter_eq (s : State) (q : Nat) :
    s.governQuarter q = if !(s.bit Reg.PWR_GOV_CTRL 0) then s.ceiled q
      else ((s.ceiled q).counted q ((s.ceiled q).steered q (s.rd Reg.PWR_GOV_CTRL) (s.floorDue q)).2).avsRequest q
        (floored (s.floorDue q) ((s.ceiled q).quarter q).ceil ((s.ceiled q).steered q (s.rd Reg.PWR_GOV_CTRL) (s.floorDue q)).1 * 5) := rfl

/-! What a quarter's step changes. -/

/-- The tiles that ran lie in the quarter. -/
theorem State.mem_ranTiles {s : State} {q t : Nat} (h : t ∈ s.ranTiles q) : t / 32 = q := by
  obtain ⟨hm, -⟩ := List.mem_filter.mp h
  obtain ⟨i, hi, rfl⟩ := List.mem_map.mp hm
  have := List.mem_range.mp hi
  omega

theorem State.counted_quartersOnly (s : State) {q : Nat} (hq : q < 4) (n : Nat) : State.QuartersOnly (· = q) s (s.counted q n) := by
  refine (s.setQuarter_quartersOnly { s.quarter q with above := n }).trans ?_
  unfold State.counted State.reread
  split
  · exact (State.wr_quartersOnly _ hq (.inr (.inr (.inl rfl))) _).trans
      (State.rearm_quartersOnly hq _ _ fun t ht => State.mem_ranTiles ht)
  · exact .refl _

/-- The count and the re-arm leave what leaves, and the registers of the power manager but the shown slack, as they are. -/
theorem State.counted_only (s : State) {q : Nat} (hq : q < 4) (n : Nat) : let u := s.counted q n
    u.pwr = (s.setQuarter q { s.quarter q with above := n }).pwr ∧ u.out = s.out ∧
      ∀ a, 0x71000000 ≤ a → a ≠ Reg.PWR_GOV_SLACK q → u.rd a = s.rd a := by
  unfold State.counted State.reread
  split
  · obtain ⟨hp, ho, hr⟩ := State.rearm_only (s.ranTiles q) ((s.setQuarter q { s.quarter q with above := n }).wr (Reg.PWR_GOV_SLACK q)
      (BitVec.ofNat 32 ((s.slacks q).foldl (fun m y => min m (y.1 * 1000 / max 1 y.2)) 1023 + 1024 * (s.anyLate q).toNat)))
    refine ⟨hp, ho, fun a ha hn => (hr _ fun t ht => ?_).trans ?_⟩
    · have h2 := Reg.SEQ_BEAT_MIN_SLACK_eq t
      have h3 := State.mem_ranTiles ht
      omega
    · rw [State.rd_wr, if_neg (Ne.symm hn)]; rfl
  · exact ⟨rfl, rfl, fun _ _ _ => rfl⟩

/-- The quarter keeps its ceilings. -/
theorem State.counted_ceil (s : State) {q : Nat} (hq : q < 4) (n : Nat) : ((s.counted q n).quarter q).ceil = (s.quarter q).ceil := by
  obtain ⟨hp, -⟩ := s.counted_only hq n
  have : (s.counted q n).quarter q = (s.setQuarter q { s.quarter q with above := n }).quarter q := by
    rw [State.quarter, hp]; rfl
  rw [this, State.quarter_setQuarter]
  split <;> rfl

theorem State.governQuarter_quartersOnly (s : State) {q : Nat} (hq : q < 4) : State.QuartersOnly (· = q) s (s.governQuarter q) := by
  rw [State.governQuarter_eq]
  split
  · exact s.ceiled_quartersOnly hq
  · exact ((s.ceiled_quartersOnly hq).trans (State.counted_quartersOnly _ hq _)).trans (State.avsRequest_quartersOnly _ hq _)

/-- A disabled governor asks for nothing. -/
theorem State.governQuarter_disabled {s : State} (q : Nat) (hq : q < 4) (h : s.bit Reg.PWR_GOV_CTRL 0 = false) :
    (s.governQuarter q).pwr.want = s.pwr.want ∧ ∀ r < 6, (s.governQuarter q).rd (Reg.PWR_RAIL_V r) = s.rd (Reg.PWR_RAIL_V r) := by
  obtain ⟨-, -, hwant, hregs⟩ := s.ceiled_only q
  rw [State.governQuarter_eq, if_pos (by rw [h]; rfl)]
  refine ⟨hwant, fun r hr => ?_⟩
  have h1 := Reg.PWR_RAIL_V_eq r
  have h2 := Reg.PWR_CEIL_eq q
  have h3 := Reg.PWR_GOV_VOLT_eq q
  exact hregs _ (notMem_logRegs (by omega)) (by omega) (by omega)

/-- A quarter's rail alone is asked, for no more than the quarter's ceiling. -/
theorem State.governQuarter_writes {s : State} {q k n : Nat} (hq : q < 4) (h : avsOut k (.write n) ∈ (s.governQuarter q).out) :
    avsOut k (.write n) ∈ s.out ∨ k = q ∧ n ≤ 5 * ((s.governQuarter q).quarter q).ceil := by
  obtain ⟨-, hout, -⟩ := s.ceiled_only q
  rw [State.governQuarter_eq] at h ⊢
  split at h
  · rw [hout] at h; exact .inl h
  · next hen =>
    rw [if_neg hen]
    obtain ⟨-, hout', -⟩ := (s.ceiled q).counted_only hq ((s.ceiled q).steered q (s.rd Reg.PWR_GOV_CTRL) (s.floorDue q)).2
    rcases State.avsRequest_writes hq h with h | ⟨rfl, rfl⟩
    · rw [hout', hout] at h; exact .inl h
    · refine .inr ⟨rfl, ?_⟩
      have hle := floored_le (floor := s.floorDue k) (wantedStep_le ((s.ceiled k).quarter k) ((s.ceiled k).railMv k / 5) (s.floorDue k)
        ((s.rd Reg.PWR_GOV_CTRL).field 24 4) ((s.rd Reg.PWR_GOV_CTRL).field 8 4) ((s.rd Reg.PWR_GOV_CTRL).field 16 4)
        ((s.ceiled k).liveParts k).isEmpty ((s.ceiled k).ranTiles k).isEmpty ((s.ceiled k).anyLate k) ((s.ceiled k).slacks k))
      have hceil := (s.ceiled k).counted_ceil hq ((s.ceiled k).steered k (s.rd Reg.PWR_GOV_CTRL) (s.floorDue k)).2
      have hsame (mv : Nat) (t : State) : ((t.avsRequest k mv).quarter k) = t.quarter k := by
        rw [State.quarter, (t.avsRequest_only k mv).1]; rfl
      rw [hsame, hceil, Nat.mul_comm]
      exact Nat.mul_le_mul_left 5 hle

end Sys2Proof.Machine
end

section
/-! The voltages that a loop of the governor asks for (R51, R52). -/
namespace Sys2Proof.Machine
open Sys2Proof.Safety

/-! What the request reads. -/

/-- What a loop reads of the partitions is the same in two states. -/
structure State.SameLoad (s u : State) : Prop where
  mbx : u.mbx = s.mbx
  parts : u.parts = s.parts
  status : ∀ p, u.rd (Reg.PART_BEAT_STATUS p) = s.rd (Reg.PART_BEAT_STATUS p)
  budget : ∀ p v, u.rd (Reg.PART_VAR_BUDGET p v) = s.rd (Reg.PART_VAR_BUDGET p v)
  period : u.rd Reg.TIME_MS_PERIOD = s.rd Reg.TIME_MS_PERIOD

theorem State.SameLoad.trans {s u v : State} (h : State.SameLoad s u) (h' : State.SameLoad u v) : State.SameLoad s v :=
  ⟨h'.mbx.trans h.mbx, h'.parts.trans h.parts, fun p => (h'.status p).trans (h.status p), fun p v => (h'.budget p v).trans (h.budget p v),
    h'.period.trans h.period⟩

theorem State.SameLoad.calm {s u : State} (h : State.SameLoad s u) (hc : s.Calm) : u.Calm := hc.congr h.mbx h.parts h.status

theorem State.SameLoad.liveParts {s u : State} (h : State.SameLoad s u) (q : Nat) : u.liveParts q = s.liveParts q := by
  simp only [State.liveParts, State.pstate, State.fld, h.parts, h.status]

/-- The floor depends on the load and the quarter's temperature (R52). -/
theorem State.SameLoad.floorOf {s u : State} (h : State.SameLoad s u) {q : Nat} (ht : (u.quarter q).tj = (s.quarter q).tj) :
    u.floorOf q = s.floorOf q := by
  have hb (p : Nat) : u.budgetOf p = s.budgetOf p := by simp only [State.budgetOf, State.fld, h.budget]
  have hf (b : Nat) : u.floorFor q b u.periodNs = s.floorFor q b s.periodNs := by
    have hp : u.periodNs = s.periodNs := by simp only [State.periodNs, State.fld, h.period]
    unfold State.floorFor
    rw [hp, ht]
  unfold State.floorOf
  simp only [h.liveParts, hb, hf]

/-- While no raise is under way the floor that is due is the floor (R51). -/
theorem State.Calm.floorDue {s : State} (h : s.Calm) (q : Nat) : s.floorDue q = s.floorOf q := by
  refine foldl_eq_self fun f hf => ?_
  rw [h.1 f hf]

theorem State.QuartersOnly.sameLoad {K : Nat → Prop} {s u : State} (h : State.QuartersOnly K s u) : State.SameLoad s u where
  mbx := by rw [h.rest]
  parts := by rw [h.rest]
  status p := by
    have h1 := Reg.PART_BEAT_STATUS_eq p
    exact h.regs _ (notMem_logRegs (by omega)) fun k hk _ hg => by have := hg.place; omega
  budget p v := by
    have h1 := Reg.PART_VAR_BUDGET_eq p v
    exact h.regs _ (notMem_logRegs (by omega)) fun k hk _ hg => by have := hg.place; omega
  period := by
    have h1 : Reg.TIME_MS_PERIOD = 0x70000100 := rfl
    exact h.regs _ (notMem_logRegs (by omega)) fun k hk _ hg => by have := hg.place; omega

/-- What a loop reads of a quarter is the same in two states. -/
structure State.SameQuarter (q : Nat) (s u : State) : Prop where
  load : State.SameLoad s u
  ctrl : u.rd Reg.PWR_GOV_CTRL = s.rd Reg.PWR_GOV_CTRL
  rail : u.rd (Reg.PWR_RAIL_V q) = s.rd (Reg.PWR_RAIL_V q)
  tile : ∀ t, t / 32 = q → u.tile t = s.tile t
  slack : ∀ t, t / 32 = q → u.rd (Reg.SEQ_BEAT_MIN_SLACK t) = s.rd (Reg.SEQ_BEAT_MIN_SLACK t) ∧
    u.rd (Reg.SEQ_BEAT_USED t) = s.rd (Reg.SEQ_BEAT_USED t) ∧ u.rd (Reg.SEQ_BEAT_SLACK t) = s.rd (Reg.SEQ_BEAT_SLACK t)

namespace State.SameQuarter
variable {q : Nat} {s u v : State}

theorem trans (h : State.SameQuarter q s u) (h' : State.SameQuarter q u v) : State.SameQuarter q s v :=
  ⟨h.load.trans h'.load, h'.ctrl.trans h.ctrl, h'.rail.trans h.rail, fun t ht => (h'.tile t ht).trans (h.tile t ht), fun t ht =>
    ⟨(h'.slack t ht).1.trans (h.slack t ht).1, (h'.slack t ht).2.1.trans (h.slack t ht).2.1, (h'.slack t ht).2.2.trans (h.slack t ht).2.2⟩⟩

theorem railMv (h : State.SameQuarter q s u) : u.railMv q = s.railMv q := by rw [State.railMv, State.fld, h.rail]; rfl

theorem railWaits (h : State.SameQuarter q s u) : u.railWaits q = s.railWaits q := by rw [State.railWaits, State.bit, h.rail]; rfl

theorem ranTiles (h : State.SameQuarter q s u) : u.ranTiles q = s.ranTiles q := by
  refine List.filter_congr fun t ht => ?_
  obtain ⟨i, hi, rfl⟩ := List.mem_map.mp ht
  have := List.mem_range.mp hi
  rw [h.tile _ (by omega)]

theorem slackOf (h : State.SameQuarter q s u) {t : Nat} (ht : t / 32 = q) : u.slackOf t = s.slackOf t := by
  obtain ⟨h1, h2, h3⟩ := h.slack t ht
  simp only [State.slackOf, State.fld, h1, h2, h3]

theorem late (h : State.SameQuarter q s u) {t : Nat} (ht : t / 32 = q) :
    u.bit (Reg.SEQ_BEAT_MIN_SLACK t) 20 = s.bit (Reg.SEQ_BEAT_MIN_SLACK t) 20 := by
  rw [State.bit, (h.slack t ht).1]; rfl

end State.SameQuarter

/-- The ceilings of a quarter leave what its request reads as it is. -/
theorem State.ceiled_sameQuarter (s : State) {q : Nat} (hq : q < 4) : State.SameQuarter q s (s.ceiled q) := by
  obtain ⟨htiles, -, -, hregs⟩ := s.ceiled_only q
  have h1 := Reg.PWR_CEIL_eq q
  have h2 := Reg.PWR_GOV_VOLT_eq q
  refine ⟨(s.ceiled_quartersOnly hq).sameLoad, ?_, ?_, fun t _ => by rw [State.tile, htiles]; rfl, fun t ht => ?_⟩
  · have h3 : Reg.PWR_GOV_CTRL = 0x71000100 := rfl
    exact hregs _ (notMem_logRegs (by omega)) (by omega) (by omega)
  · have h3 := Reg.PWR_RAIL_V_eq q
    exact hregs _ (notMem_logRegs (by omega)) (by omega) (by omega)
  · have h3 := Reg.SEQ_BEAT_MIN_SLACK_eq t
    have h4 := Reg.SEQ_BEAT_USED_eq t
    have h5 := Reg.SEQ_BEAT_SLACK_eq t
    exact ⟨hregs _ (notMem_logRegs (by omega)) (by omega) (by omega), hregs _ (notMem_logRegs (by omega)) (by omega) (by omega),
      hregs _ (notMem_logRegs (by omega)) (by omega) (by omega)⟩

/-- The request depends on the quarter's record and what is read of the quarter. -/
theorem State.SameQuarter.steered {q : Nat} {s u : State} (h : State.SameQuarter q s u) (c : Word) (floor : Nat) :
    u.steered q c floor = wantedStep (u.quarter q) (s.railMv q / 5) floor (c.field 24 4) (c.field 8 4) (c.field 16 4)
      (s.liveParts q).isEmpty (s.ranTiles q).isEmpty (s.anyLate q) (s.slacks q) := by
  have hlate : u.anyLate q = s.anyLate q := by
    rw [State.anyLate, State.anyLate, h.ranTiles, Bool.eq_iff_iff, List.any_eq_true, List.any_eq_true]
    exact exists_congr fun t => and_congr_right fun ht => by rw [h.late (State.mem_ranTiles ht)]
  have hslacks : u.slacks q = s.slacks q := by
    rw [State.slacks, h.ranTiles]
    exact List.map_congr_left fun t ht => h.slackOf (State.mem_ranTiles ht)
  rw [State.steered, h.railMv, h.load.liveParts, h.ranTiles, hlate, hslacks]

/-! What a quarter asks for. -/

/-- A quarter's rail is asked for a voltage, raised to the floor, and holds its count of loops above the band. -/
def State.Asks (s u : State) (q w n : Nat) : Prop :=
  let w := floored (u.floorOf q) (u.quarter q).ceil w
  (u.quarter q).above = n ∧
    (s.railMv q ≠ 5 * w → SMap.get u.pwr.want 0 q = 5 * w ∧ u.railWaits q = true ∧ avsOut q (.write (5 * w)) ∈ u.out) ∧
    (s.railMv q = 5 * w → u.railWaits q = false)

/-- A quarter's record is that of the list. -/
theorem State.quarter_congr {s u : State} (h : u.pwr.quarters = s.pwr.quarters) (q : Nat) : u.quarter q = s.quarter q := by
  rw [State.quarter, h]; rfl

/-- The loops above the band leave the ceiling. -/
theorem QuarterSt.ceil_above (x : QuarterSt) (n : Nat) : ({ x with above := n } : QuarterSt).ceil = x.ceil := rfl

/-- The record that a quarter's step leaves (R51, R346). -/
theorem State.governQuarter_quarter {s : State} {q : Nat} (hq : q < 4) (h : q < s.pwr.quarters.length) :
    ∃ a p t, (s.governQuarter q).quarter q =
      { s.quarter q with above := a, ceilT := s.nextCeilT q, loggedP := p, loggedT := t } ∧
      (s.bit Reg.PWR_GOV_CTRL 0 = true → a = ((s.ceiled q).steered q (s.rd Reg.PWR_GOV_CTRL) (s.floorDue q)).2) ∧
      ((s.ceiled q).quarter q).ceil = ((s.governQuarter q).quarter q).ceil := by
  obtain ⟨p, t, hx⟩ := State.ceiled_quarter hq h
  cases hen : s.bit Reg.PWR_GOV_CTRL 0 with
  | false =>
    have hu : s.governQuarter q = s.ceiled q := (State.governQuarter_eq s q).trans (if_pos (by rw [hen]; rfl))
    rw [hu]
    exact ⟨(s.quarter q).above, p, t, hx, fun h => (by cases h), rfl⟩
  | true =>
    have hu : s.governQuarter q = _ := (State.governQuarter_eq s q).trans (if_neg (by rw [hen]; decide))
    have hlen : q < (s.ceiled q).pwr.quarters.length := by rw [(s.ceiled_quartersOnly hq).length]; exact h
    rw [hu]
    generalize (s.ceiled q).steered q (s.rd Reg.PWR_GOV_CTRL) (s.floorDue q) = r
    obtain ⟨hp, -⟩ := (s.ceiled q).counted_only hq r.2
    obtain ⟨hquarters, -⟩ := ((s.ceiled q).counted q r.2).avsRequest_only q (floored (s.floorDue q) ((s.ceiled q).quarter q).ceil r.1 * 5)
    have hrec := (State.quarter_congr hquarters q).trans ((State.quarter_congr (congrArg PwrSt.quarters hp) q).trans
      ((State.quarter_setQuarter _ q q _).trans (if_pos ⟨rfl, hlen⟩)))
    exact ⟨r.2, p, t, by rw [hrec, hx], fun _ => rfl, by rw [hrec]; exact (QuarterSt.ceil_above _ _).symm⟩

/-- `PWR_Qq_CEIL` shows the ceiling that a quarter's step leaves. -/
theorem State.governQuarter_shows {s : State} {q : Nat} (hq : q < 4) (h : q < s.pwr.quarters.length) :
    (s.governQuarter q).fld (Reg.PWR_CEIL q) 0 8 = ((s.governQuarter q).quarter q).ceil := by
  obtain ⟨-, -, -, -, -, hceil⟩ := State.governQuarter_quarter hq h
  have hshown : (s.governQuarter q).rd (Reg.PWR_CEIL q) = (s.ceiled q).rd (Reg.PWR_CEIL q) := by
    rw [State.governQuarter_eq]
    split
    · rfl
    · have h1 := Reg.PWR_CEIL_eq q
      have h2 := Reg.PWR_GOV_SLACK_eq q
      have h3 := Reg.PWR_RAIL_V_eq q
      obtain ⟨-, -, hreq⟩ := State.avsRequest_only
        ((s.ceiled q).counted q ((s.ceiled q).steered q (s.rd Reg.PWR_GOV_CTRL) (s.floorDue q)).2) q
        (floored (s.floorDue q) ((s.ceiled q).quarter q).ceil ((s.ceiled q).steered q (s.rd Reg.PWR_GOV_CTRL) (s.floorDue q)).1 * 5)
      obtain ⟨-, -, hcount⟩ := (s.ceiled q).counted_only hq ((s.ceiled q).steered q (s.rd Reg.PWR_GOV_CTRL) (s.floorDue q)).2
      exact (hreq _ (by omega)).trans (hcount _ (by omega) (by omega))
  rw [← hceil, ← State.ceiled_shows hq h, State.fld, hshown]
  rfl

/-- An enabled governor asks for what R51 says. -/
theorem State.governQuarter_asks {s : State} {q : Nat} (hq : q < 4) (h : q < s.pwr.quarters.length) (hc : s.Calm)
    (hen : s.bit Reg.PWR_GOV_CTRL 0 = true) (hw : s.railWaits q = false) :
    State.Asks s (s.governQuarter q) q ((s.ceiled q).steered q (s.rd Reg.PWR_GOV_CTRL) (s.floorDue q)).1
      ((s.ceiled q).steered q (s.rd Reg.PWR_GOV_CTRL) (s.floorDue q)).2 := by
  obtain ⟨a, p, t, hx, habove, hceil⟩ := State.governQuarter_quarter hq h
  have hfloor : s.floorDue q = (s.governQuarter q).floorOf q := by
    rw [hc.floorDue, (s.governQuarter_quartersOnly hq).sameLoad.floorOf (by rw [hx])]
  have hsame := s.ceiled_sameQuarter hq
  refine ⟨by rw [hx]; exact habove hen, ?_⟩
  rw [← hfloor, ← hceil]
  have hu : s.governQuarter q = _ := (State.governQuarter_eq s q).trans (if_neg (by rw [hen]; decide))
  rw [hu]
  generalize (s.ceiled q).steered q (s.rd Reg.PWR_GOV_CTRL) (s.floorDue q) = r
  obtain ⟨-, -, hregs⟩ := (s.ceiled q).counted_only hq r.2
  have hrail : ((s.ceiled q).counted q r.2).rd (Reg.PWR_RAIL_V q) = s.rd (Reg.PWR_RAIL_V q) := by
    have h1 := Reg.PWR_RAIL_V_eq q
    have h2 := Reg.PWR_GOV_SLACK_eq q
    exact (hregs _ (by omega) (by omega)).trans hsame.rail
  have hmv : ((s.ceiled q).counted q r.2).railMv q = s.railMv q := by rw [State.railMv, State.fld, hrail]; rfl
  have hwaits : ((s.ceiled q).counted q r.2).railWaits q = false := by rw [State.railWaits, State.bit, hrail]; exact hw
  have hask := State.avsRequest_asks (mv := 5 * floored (s.floorDue q) ((s.ceiled q).quarter q).ceil r.1) hwaits
  rw [hmv] at hask
  rw [Nat.mul_comm _ 5]
  exact hask

end Sys2Proof.Machine
end

section
/-! The cases of R51 for a quarter of an enabled governor. -/
namespace Sys2Proof.Machine
open Sys2Proof.Safety

/-- A tile's slack lies below the band of `PWR_GOV_CTRL`. -/
def State.Under (s : State) (t : Nat) : Prop :=
  (s.slackOf t).1 * 100 + s.fld Reg.PWR_GOV_CTRL 16 4 * (s.slackOf t).2 < s.fld Reg.PWR_GOV_CTRL 8 4 * (s.slackOf t).2

/-- A tile's slack lies above the band of `PWR_GOV_CTRL`. -/
def State.Above (s : State) (t : Nat) : Prop :=
  (s.fld Reg.PWR_GOV_CTRL 8 4 + s.fld Reg.PWR_GOV_CTRL 16 4) * (s.slackOf t).2 < (s.slackOf t).1 * 100

/-- What a quarter asks for by R51, and the re-arm of the tiles that were read. -/
def State.Steers (s u : State) (q : Nat) : Prop :=
  let ceil := (u.quarter q).ceil
  let floor := u.floorOf q
  let v := s.railMv q / 5
  let ran := s.ranTiles q
  let after := s.fld Reg.PWR_GOV_CTRL 24 4
  let late (t : Nat) : Prop := s.bit (Reg.SEQ_BEAT_MIN_SLACK t) 20 = true
  let x := s.quarter q
  let down := if after ≤ x.above + 1 then max (v - 1) (min v (max 120 floor)) else v
  let waits := if after ≤ x.above + 1 then 0 else x.above + 1
  (ceil < v → s.Asks u q ceil 0) ∧
  (v ≤ ceil → s.liveParts q = [] → s.Asks u q down waits) ∧
  (v ≤ ceil → s.liveParts q ≠ [] → ran = [] → s.Asks u q v 0) ∧
  (v ≤ ceil → s.liveParts q ≠ [] → ran ≠ [] →
    ((∃ t ∈ ran, late t) → s.Asks u q (min (v + 4) ceil) 0) ∧
    ((∀ t ∈ ran, ¬ late t) → (∃ t ∈ ran, s.Under t) → s.Asks u q (min (v + 2) ceil) 0) ∧
    ((∀ t ∈ ran, ¬ late t) → (∀ t ∈ ran, ¬ s.Under t) → (∀ t ∈ ran, s.Above t) → s.Asks u q down waits) ∧
    ((∀ t ∈ ran, ¬ late t) → (∀ t ∈ ran, ¬ s.Under t) → (∃ t ∈ ran, ¬ s.Above t) → s.Asks u q v 0) ∧
    ∀ t ∈ ran, u.rd (Reg.SEQ_BEAT_MIN_SLACK t) = 0xFFFFF ∧ (u.tile t).ran = false)

theorem State.anyLate_iff (s : State) (q : Nat) : s.anyLate q = true ↔ ∃ t ∈ s.ranTiles q, s.bit (Reg.SEQ_BEAT_MIN_SLACK t) 20 = true :=
  List.any_eq_true

theorem State.tooTight_iff (s : State) (q : Nat) :
    tooTight (s.fld Reg.PWR_GOV_CTRL 8 4) (s.fld Reg.PWR_GOV_CTRL 16 4) (s.slacks q) = true ↔ ∃ t ∈ s.ranTiles q, s.Under t := by
  simp [tooTight, State.slacks, State.Under]

theorem State.allSlack_iff (s : State) (q : Nat) :
    allSlack (s.fld Reg.PWR_GOV_CTRL 8 4) (s.fld Reg.PWR_GOV_CTRL 16 4) (s.slacks q) = true ↔ ∀ t ∈ s.ranTiles q, s.Above t := by
  simp [allSlack, State.slacks, State.Above]

/-- The fall of R51 by 5 mV, once enough loops were above the band. -/
theorem fall_pair (v floor after above : Nat) : (if after ≤ above + 1 then (lowered v floor, 0) else (v, above + 1)) =
    (if after ≤ above + 1 then max (v - 1) (min v (max 120 floor)) else v, if after ≤ above + 1 then 0 else above + 1) := by
  split <;> rfl

section
variable {x : QuarterSt} {v : Nat} (floor after target band : Nat) {idle still : Bool} (late : Bool) (slacks : List (Nat × Nat))

theorem wantedStep_above (h : x.ceil < v) : wantedStep x v floor after target band idle still late slacks = (x.ceil, 0) := if_pos h

theorem wantedStep_idle (h : v ≤ x.ceil) (hi : idle = true) : wantedStep x v floor after target band idle still late slacks =
    if after ≤ x.above + 1 then (lowered v floor, 0) else (v, x.above + 1) := (if_neg (Nat.not_lt.mpr h)).trans (if_pos hi)

theorem wantedStep_still (h : v ≤ x.ceil) (hi : idle = false) (hs : still = true) :
    wantedStep x v floor after target band idle still late slacks = (v, 0) :=
  (if_neg (Nat.not_lt.mpr h)).trans ((if_neg (by simp [hi])).trans (if_pos hs))

theorem wantedStep_steer (h : v ≤ x.ceil) (hi : idle = false) (hs : still = false) :
    wantedStep x v floor after target band idle still late slacks = steer v x.ceil floor x.above after target band late slacks :=
  (if_neg (Nat.not_lt.mpr h)).trans ((if_neg (by simp [hi])).trans (if_neg (by simp [hs])))

end

/-- The tiles that a loop read are re-armed. -/
theorem State.governQuarter_rearmed {s : State} {q : Nat} (hq : q < 4) (hen : s.bit Reg.PWR_GOV_CTRL 0 = true)
    (hv : s.railMv q / 5 ≤ ((s.ceiled q).quarter q).ceil) (hlive : s.liveParts q ≠ []) : ∀ t ∈ s.ranTiles q,
      (s.governQuarter q).rd (Reg.SEQ_BEAT_MIN_SLACK t) = 0xFFFFF ∧ ((s.governQuarter q).tile t).ran = false := by
  intro t ht
  have hsame := s.ceiled_sameQuarter hq
  have hu : s.governQuarter q = _ := (State.governQuarter_eq s q).trans (if_neg (by rw [hen]; decide))
  rw [hu]
  generalize (s.ceiled q).steered q (s.rd Reg.PWR_GOV_CTRL) (s.floorDue q) = r
  obtain ⟨-, htiles, hregs⟩ := ((s.ceiled q).counted q r.2).avsRequest_only q (floored (s.floorDue q) ((s.ceiled q).quarter q).ceil r.1 * 5)
  have hran : (s.ranTiles q).isEmpty = false := by rw [List.isEmpty_eq_false_iff]; exact List.ne_nil_of_mem ht
  have hre : (decide ((s.ceiled q).railMv q / 5 ≤ ((s.ceiled q).quarter q).ceil) && !((s.ceiled q).liveParts q).isEmpty &&
      !((s.ceiled q).ranTiles q).isEmpty) = true := by
    rw [hsame.railMv, hsame.load.liveParts, hsame.ranTiles, hran]
    simp [hv, hlive]
  have harm : ((s.ceiled q).counted q r.2).rd (Reg.SEQ_BEAT_MIN_SLACK t) = 0xFFFFF ∧ (((s.ceiled q).counted q r.2).tile t).ran = false := by
    unfold State.counted State.reread
    rw [if_pos hre]
    exact State.rearm_rearmed _ _ t (by rw [hsame.ranTiles]; exact ht)
  have h1 := Reg.SEQ_BEAT_MIN_SLACK_eq t
  have h2 := Reg.PWR_RAIL_V_eq q
  have h3 := State.mem_ranTiles ht
  refine ⟨(hregs _ (by omega)).trans harm.1, ?_⟩
  rw [State.tile, htiles]
  exact harm.2

/-- A quarter of an enabled governor asks for what R51 says. -/
theorem State.governQuarter_steers {s : State} {q : Nat} (hq : q < 4) (h : q < s.pwr.quarters.length) (hc : s.Calm)
    (hen : s.bit Reg.PWR_GOV_CTRL 0 = true) (hw : s.railWaits q = false) : s.Steers (s.governQuarter q) q := by
  obtain ⟨a, p, t, hx, -, hceil⟩ := State.governQuarter_quarter hq h
  obtain ⟨p', t', hx'⟩ := State.ceiled_quarter hq h
  have hasks := State.governQuarter_asks hq h hc hen hw
  have hfloor : s.floorDue q = (s.governQuarter q).floorOf q := by
    rw [hc.floorDue, (s.governQuarter_quartersOnly hq).sameLoad.floorOf (by rw [hx])]
  have harm := State.governQuarter_rearmed hq hen (s := s)
  rw [(s.ceiled_sameQuarter hq).steered, hfloor] at hasks
  have habove : ((s.ceiled q).quarter q).above = (s.quarter q).above := by rw [hx']
  generalize (s.ceiled q).quarter q = x at hasks hceil harm habove
  unfold State.Steers
  dsimp only
  rw [← hceil, ← habove]
  generalize hu : s.governQuarter q = u at *
  have hask {w n : Nat} (he : wantedStep x (s.railMv q / 5) (u.floorOf q) (s.fld Reg.PWR_GOV_CTRL 24 4)
      (s.fld Reg.PWR_GOV_CTRL 8 4) (s.fld Reg.PWR_GOV_CTRL 16 4) (s.liveParts q).isEmpty (s.ranTiles q).isEmpty (s.anyLate q)
      (s.slacks q) = (w, n)) : s.Asks u q w n := by
    obtain ⟨hw, hn⟩ := Prod.mk.inj he
    exact hw ▸ hn ▸ hasks
  refine ⟨fun hv => hask (wantedStep_above _ _ _ _ _ _ hv), fun hv hi => hask ?_, fun hv hi hs => hask ?_, fun hv hi hs => ?_⟩
  · rw [wantedStep_idle _ _ _ _ _ _ hv (by simp [hi]), fall_pair]
  · exact wantedStep_still _ _ _ _ _ _ hv (by simp [hi]) (by simp [hs])
  · have hsteer := wantedStep_steer (u.floorOf q) (s.fld Reg.PWR_GOV_CTRL 24 4) (s.fld Reg.PWR_GOV_CTRL 8 4)
      (s.fld Reg.PWR_GOV_CTRL 16 4) (s.anyLate q) (s.slacks q) hv (List.isEmpty_eq_false_iff.mpr hi) (List.isEmpty_eq_false_iff.mpr hs)
    have hprompt (hl : ∀ t ∈ s.ranTiles q, ¬ s.bit (Reg.SEQ_BEAT_MIN_SLACK t) 20 = true) : s.anyLate q = false := by
      rw [← Bool.not_eq_true, State.anyLate_iff]
      exact fun ⟨t, ht, hlt⟩ => hl t ht hlt
    have hloose (hn : ∀ t ∈ s.ranTiles q, ¬ s.Under t) :
        tooTight (s.fld Reg.PWR_GOV_CTRL 8 4) (s.fld Reg.PWR_GOV_CTRL 16 4) (s.slacks q) = false := by
      rw [← Bool.not_eq_true, State.tooTight_iff]
      exact fun ⟨t, ht, hlt⟩ => hn t ht hlt
    refine ⟨fun hl => hask (hsteer.trans ?_), fun hl ht => hask (hsteer.trans ?_), fun hl hn ha => hask (hsteer.trans ?_),
      fun hl hn ha => hask (hsteer.trans ?_), harm hv hi⟩
    · rw [(s.anyLate_iff q).mpr hl, steer_late]
    · rw [hprompt hl, steer_tight _ _ _ _ _ _ _ _ ((s.tooTight_iff q).mpr ht)]
    · rw [hprompt hl, steer_slack _ _ _ _ _ _ _ _ (hloose hn) ((s.allSlack_iff q).mpr ha), fall_pair]
    · have hsome : allSlack (s.fld Reg.PWR_GOV_CTRL 8 4) (s.fld Reg.PWR_GOV_CTRL 16 4) (s.slacks q) = false := by
        rw [← Bool.not_eq_true, State.allSlack_iff]
        exact fun hall => ha.elim fun t ht => ht.2 (hall t ht.1)
      rw [hprompt hl, steer_hold _ _ _ _ _ _ _ _ (hloose hn) hsome]

end Sys2Proof.Machine
end

section
/-! What a loop of the governor measures, and the power ceilings (R345, R346). -/
namespace Sys2Proof.Machine
open Sys2Proof.Safety

/-! A change of some quarters. -/

/-- A change of the quarters of a list changes the quarters alone, each once. -/
theorem State.changeQuarters (f : Nat → QuarterSt → QuarterSt) (qs : List Nat) (s : State) :
    let u := qs.foldl (fun s q => s.setQuarter q (f q (s.quarter q))) s
    u = { s with pwr := { s.pwr with quarters := u.pwr.quarters } } ∧ u.pwr.quarters.length = s.pwr.quarters.length ∧
      (qs.Nodup → (∀ q ∈ qs, q < s.pwr.quarters.length) → ∀ q, u.quarter q = if q ∈ qs then f q (s.quarter q) else s.quarter q) := by
  induction qs generalizing s with
  | nil => exact ⟨rfl, rfl, fun _ _ q => (if_neg List.not_mem_nil).symm⟩
  | cons k r ih =>
    obtain ⟨honly, hlen, hq⟩ := ih (s.setQuarter k (f k (s.quarter k)))
    rw [List.foldl_cons]
    generalize r.foldl (fun s q => s.setQuarter q (f q (s.quarter q))) (s.setQuarter k (f k (s.quarter k))) = u at honly hlen hq
    refine ⟨by rw [honly]; rfl, hlen.trans List.length_set, fun hn hl q => ?_⟩
    obtain ⟨hk, hr⟩ := List.nodup_cons.mp hn
    have hbound : ∀ j ∈ r, j < (s.setQuarter k (f k (s.quarter k))).pwr.quarters.length := fun j hj => by
      have : (s.setQuarter k (f k (s.quarter k))).pwr.quarters.length = s.pwr.quarters.length := List.length_set
      rw [this]; exact hl j (List.mem_cons_of_mem _ hj)
    rw [hq hr hbound q, State.quarter_setQuarter]
    have hkl := hl k (List.mem_cons_self ..)
    by_cases hqk : k = q
    · subst hqk; simp [hk, hkl]
    · simp [hqk, Ne.symm hqk]

/-! Measurements. -/

/-- The rails' currents are shown and read (R345, log entry 134). -/
theorem State.readRails (v : Nat → Word) (l : List Nat) (s : State) :
    let u := l.foldl (fun (s : State) r => ((s.emit (avsOut r .readCurrent)).emit (avsOut r .readStatus)).wr (Reg.PWR_RAIL_I r) (v r)) s
    u = { s with regs := u.regs, out := u.out } ∧ (∀ a, (∀ r ∈ l, a ≠ Reg.PWR_RAIL_I r) → u.rd a = s.rd a) ∧
      ∀ k n, avsOut k (.write n) ∈ u.out → avsOut k (.write n) ∈ s.out := by
  induction l generalizing s with
  | nil => exact ⟨rfl, fun _ _ => rfl, fun _ _ h => h⟩
  | cons r l ih =>
    obtain ⟨honly, hrd, hout⟩ := ih (((s.emit (avsOut r .readCurrent)).emit (avsOut r .readStatus)).wr (Reg.PWR_RAIL_I r) (v r))
    rw [List.foldl_cons]
    generalize l.foldl _ (((s.emit (avsOut r .readCurrent)).emit (avsOut r .readStatus)).wr (Reg.PWR_RAIL_I r) (v r)) = u at honly hrd hout
    refine ⟨by rw [honly]; rfl, fun a ha => (hrd a fun k hk => ha k (List.mem_cons_of_mem _ hk)).trans ?_, fun k n h => ?_⟩
    · rw [State.rd_wr, if_neg (ha r (List.mem_cons_self ..)).symm]; rfl
    · simpa [State.emit, avsOut] using hout k n h

/-- The partitions' power is shown, a free value (R345). -/
theorem State.showParts (l : SMap Part) (s : State) :
    let u := l.foldl (fun s p => (s.setFld (Reg.PWR_PART p.1) 16 12 (Config.freeNat s.free)).stepFree) s
    u = { s with regs := u.regs, free := u.free } ∧ ∀ a, (∀ x ∈ l, a ≠ Reg.PWR_PART x.1) → u.rd a = s.rd a := by
  induction l generalizing s with
  | nil => exact ⟨rfl, fun _ _ => rfl⟩
  | cons p l ih =>
    obtain ⟨honly, hrd⟩ := ih ((s.setFld (Reg.PWR_PART p.1) 16 12 (Config.freeNat s.free)).stepFree)
    rw [List.foldl_cons]
    generalize l.foldl _ ((s.setFld (Reg.PWR_PART p.1) 16 12 (Config.freeNat s.free)).stepFree) = u at honly hrd
    refine ⟨by rw [honly]; rfl, fun a ha => (hrd a fun x hx => ha x (List.mem_cons_of_mem _ hx)).trans ?_⟩
    rw [State.stepFree_rd, State.rd_setFld, if_neg (ha p (List.mem_cons_self ..)).symm]

/-- The device power of the last ten loops, in 0.125 W (R345). -/
def State.wattsOf (s : State) (m : GovEnv) : List Nat :=
  ((m.watts + (List.range 6).foldl (fun n r => n + m.railV.getD r 0 * m.railI.getD r 0) 0 / 1250) :: s.pwr.watts).take 10

/-- The hottest reading is one of the list, and none is higher. -/
theorem hottest_spec {l : List Int} (h : l ≠ []) (i : Nat) : (hottest l i).1 ∈ l ∧ ∀ x ∈ l, x ≤ (hottest l i).1 := by
  induction l generalizing i with
  | nil => exact absurd rfl h
  | cons t l ih =>
    cases l with
    | nil => exact ⟨List.mem_singleton_self _, fun x hx => (List.mem_singleton.mp hx).le⟩
    | cons z l =>
      obtain ⟨hmem, hmax⟩ := ih (List.cons_ne_nil _ _) (i + 1)
      have heq : hottest (t :: z :: l) i = if (hottest (z :: l) (i + 1)).1 ≤ t then (t, i) else hottest (z :: l) (i + 1) := rfl
      rw [heq]
      split
      · next hle =>
        refine ⟨List.mem_cons_self .., fun x hx => ?_⟩
        rcases List.mem_cons.mp hx with rfl | hx
        · exact le_rfl
        · exact (hmax x hx).trans hle
      · next hlt =>
        refine ⟨List.mem_cons_of_mem _ hmem, fun x hx => ?_⟩
        rcases List.mem_cons.mp hx with rfl | hx
        · exact (not_le.mp hlt).le
        · exact hmax x hx

/-- The word of `PWR_TJ` shows a temperature in its low bits, whatever its place. -/
theorem tjWord_field (t : Int) (n : Nat) :
    Word.field (((BitVec.ofInt 12 t).setWidth 32) ||| BitVec.ofNat 32 (n % 16 * 65536)) 0 12 = (BitVec.ofInt 12 t).toNat := by
  have ht := (BitVec.ofInt 12 t).isLt
  simp only [Word.field, BitVec.toNat_or, BitVec.toNat_setWidth, BitVec.toNat_ofNat, Nat.pow_zero, Nat.div_one, Nat.or_mod_two_pow]
  rw [show n % 16 * 65536 % 2 ^ 32 % 2 ^ 12 = 0 by omega, Nat.or_zero]
  omega

/-- The registers in which a loop shows what it measures. -/
def State.MeasReg (s : State) (a : Nat) : Prop :=
  a = Reg.PWR_TJ ∨ a = Reg.PWR_MEAS ∨ (∃ r < 6, a = Reg.PWR_RAIL_I r) ∨ ∃ x ∈ s.parts, a = Reg.PWR_PART x.1

/-- The state in which the temperatures are shown. -/
def State.readTj (s : State) (m : GovEnv) : State :=
  (List.range 4).foldl (fun s q => s.setQuarter q { s.quarter q with tj := m.tj.getD q 0 })
    (s.wr Reg.PWR_TJ (((BitVec.ofInt 12 (hottest m.tj 0).1).setWidth 32) ||| BitVec.ofNat 32 ((hottest m.tj 0).2 % 16 * 65536)))

/-- The state in which the rails' currents are shown, too. -/
def State.readLoop (s : State) (m : GovEnv) : State :=
  (List.range 6).foldl (fun (s : State) r => ((s.emit (avsOut r .readCurrent)).emit (avsOut r .readStatus)).wr (Reg.PWR_RAIL_I r)
    (BitVec.ofNat 32 (m.railI.getD r 0 % 65536))) (s.readTj m)

/-- The state in which the device power is shown, too. -/
def State.showPower (s : State) (m : GovEnv) : State :=
  State.wr { s with pwr := { s.pwr with watts := s.wattsOf m } } Reg.PWR_MEAS
    (BitVec.ofNat 32 (min 4095 ((s.wattsOf m).foldl (fun n x => n + x) 0 / (s.wattsOf m).length)))

/-- A loop shows the temperatures, the currents, the device power and the partitions' power, in this order. -/
theorem State.measure_eq (s : State) (m : GovEnv) : s.measure m = ((s.readLoop m).showPower m).parts.foldl
    (fun s p => (s.setFld (Reg.PWR_PART p.1) 16 12 (Config.freeNat s.free)).stepFree) ((s.readLoop m).showPower m) := rfl

theorem State.readTj_spec (s : State) (m : GovEnv) : let u := s.readTj m
    u = { s with regs := u.regs, pwr := { s.pwr with quarters := u.pwr.quarters } } ∧
      u.pwr.quarters.length = s.pwr.quarters.length ∧
      (s.pwr.quarters.length = 4 → ∀ q < 4, u.quarter q = { s.quarter q with tj := m.tj.getD q 0 }) ∧
      u.rd Reg.PWR_TJ = (((BitVec.ofInt 12 (hottest m.tj 0).1).setWidth 32) ||| BitVec.ofNat 32 ((hottest m.tj 0).2 % 16 * 65536)) ∧
      ∀ a, a ≠ Reg.PWR_TJ → u.rd a = s.rd a := by
  generalize hv : (((BitVec.ofInt 12 (hottest m.tj 0).1).setWidth 32) ||| BitVec.ofNat 32 ((hottest m.tj 0).2 % 16 * 65536)) = v
  have hu : s.readTj m = (List.range 4).foldl (fun s q => s.setQuarter q { s.quarter q with tj := m.tj.getD q 0 })
      (s.wr Reg.PWR_TJ v) := by rw [← hv]; rfl
  obtain ⟨honly, hlen, hq⟩ := (s.wr Reg.PWR_TJ v).changeQuarters (fun q x => { x with tj := m.tj.getD q 0 }) (List.range 4)
  rw [← hu] at honly hlen hq
  generalize s.readTj m = u at honly hlen hq
  have hregs (a : Nat) : u.rd a = (s.wr Reg.PWR_TJ v).rd a := by rw [honly]; rfl
  refine ⟨by rw [honly]; rfl, hlen, fun h4 q hq4 => ?_, (hregs _).trans ((State.rd_wr ..).trans (if_pos rfl)), fun a ha => ?_⟩
  · rw [hq List.nodup_range (fun k hk => by rw [State.wr_pwr, h4]; exact List.mem_range.mp hk), if_pos (List.mem_range.mpr hq4)]
    rfl
  · exact (hregs a).trans ((State.rd_wr ..).trans (if_neg ha.symm))

theorem Reg.PWR_RAIL_I_eq (r : Nat) : Reg.PWR_RAIL_I r = 0x71000304 + r * 8 := rfl
theorem Reg.PWR_PART_eq (p : Nat) : Reg.PWR_PART p = 0x71000200 + p * 4 := rfl
theorem Reg.PWR_TJ_eq : Reg.PWR_TJ = 0x71000010 := rfl
theorem Reg.PWR_MEAS_eq : Reg.PWR_MEAS = 0x7100000C := rfl

theorem State.readLoop_spec (s : State) (m : GovEnv) : let u := s.readLoop m
    u = { s with regs := u.regs, pwr := { s.pwr with quarters := u.pwr.quarters }, out := u.out } ∧
      u.pwr.quarters.length = s.pwr.quarters.length ∧
      (s.pwr.quarters.length = 4 → ∀ q < 4, u.quarter q = { s.quarter q with tj := m.tj.getD q 0 }) ∧
      u.fld Reg.PWR_TJ 0 12 = (BitVec.ofInt 12 (hottest m.tj 0).1).toNat ∧
      (∀ a, a ≠ Reg.PWR_TJ → (∀ r < 6, a ≠ Reg.PWR_RAIL_I r) → u.rd a = s.rd a) ∧
      ∀ k n, avsOut k (.write n) ∈ u.out → avsOut k (.write n) ∈ s.out := by
  obtain ⟨h1, hlen, hq, htj, hr1⟩ := s.readTj_spec m
  obtain ⟨h2, hr2, ho2⟩ := State.readRails (fun r => BitVec.ofNat 32 (m.railI.getD r 0 % 65536)) (List.range 6) (s.readTj m)
  change s.readLoop m = _ at h2
  change ∀ a, _ → (s.readLoop m).rd a = _ at hr2
  change ∀ k n, avsOut k (.write n) ∈ (s.readLoop m).out → _ at ho2
  generalize s.readLoop m = u at h2 hr2 ho2
  generalize s.readTj m = v at h1 hlen hq htj hr1 h2 hr2 ho2
  have hout : v.out = s.out := by rw [h1]
  have hpwr : u.pwr = v.pwr := by rw [h2]
  refine ⟨by rw [h2, h1], by rw [hpwr, hlen], fun h4 q hq4 => (State.quarter_congr (by rw [hpwr]) q).trans (hq h4 q hq4), ?_,
    fun a ha hr => (hr2 a fun r h => hr r (List.mem_range.mp h)).trans (hr1 a ha), fun k n h => hout ▸ ho2 k n h⟩
  have hrail := hr2 Reg.PWR_TJ fun r _ => by
    have h1 := Reg.PWR_RAIL_I_eq r
    have h2 := Reg.PWR_TJ_eq
    omega
  rw [State.fld, hrail, htj, tjWord_field]

/-- What a loop measures (R345, R346). -/
theorem State.measure_spec (s : State) (m : GovEnv) : let u := s.measure m
    u = { s with regs := u.regs, pwr := u.pwr, out := u.out, free := u.free } ∧
      u.pwr = { s.pwr with quarters := u.pwr.quarters, watts := s.wattsOf m } ∧ u.pwr.quarters.length = s.pwr.quarters.length ∧
      (s.pwr.quarters.length = 4 → ∀ q < 4, u.quarter q = { s.quarter q with tj := m.tj.getD q 0 }) ∧
      u.fld Reg.PWR_TJ 0 12 = (BitVec.ofInt 12 (hottest m.tj 0).1).toNat ∧
      u.rd Reg.PWR_MEAS = BitVec.ofNat 32 (min 4095 ((s.wattsOf m).foldl (fun n x => n + x) 0 / (s.wattsOf m).length)) ∧
      (∀ a, ¬ s.MeasReg a → u.rd a = s.rd a) ∧ ∀ k n, avsOut k (.write n) ∈ u.out → avsOut k (.write n) ∈ s.out := by
  obtain ⟨h1, hlen, hq, htj, hr1, ho1⟩ := s.readLoop_spec m
  obtain ⟨h3, hr3⟩ := State.showParts ((s.readLoop m).showPower m).parts ((s.readLoop m).showPower m)
  rw [← State.measure_eq] at h3 hr3
  generalize s.measure m = u at h3 hr3
  generalize s.readLoop m = v at h1 hlen hq htj hr1 ho1 h3 hr3
  have hparts : (v.showPower m).parts = s.parts := by rw [h1]; rfl
  have hw : v.wattsOf m = s.wattsOf m := by rw [h1]; rfl
  have hvp : v.pwr = { s.pwr with quarters := v.pwr.quarters } := by rw [h1]
  have hpwr : u.pwr = { v.pwr with watts := s.wattsOf m } := by rw [h3, ← hw]; rfl
  have hout : u.out = v.out := by rw [h3]; rfl
  have htjr := Reg.PWR_TJ_eq
  have hmeas := Reg.PWR_MEAS_eq
  have hshow (a : Nat) (ha : a ≠ Reg.PWR_MEAS) : (v.showPower m).rd a = v.rd a := (State.rd_wr ..).trans (if_neg ha.symm)
  have hlow (a : Nat) (ha : a < 0x71000200) : u.rd a = (v.showPower m).rd a := hr3 a fun x _ => by
    have := Reg.PWR_PART_eq x.1
    omega
  refine ⟨?_, ?_, ?_, fun h4 q hq4 => (State.quarter_congr (by rw [hpwr]) q).trans (hq h4 q hq4), ?_, ?_, fun a ha => ?_,
    fun k n h => ho1 k n (hout ▸ h)⟩
  · rw [h3, h1]; rfl
  · rw [hpwr, hvp]
  · rw [hpwr, hlen]
  · rw [State.fld, hlow _ (by omega), hshow _ (by omega)]; exact htj
  · rw [hlow _ (by omega), ← hw]; exact (State.rd_wr ..).trans (if_pos rfl)
  · rw [State.MeasReg, not_or, not_or, not_or] at ha
    obtain ⟨htj', hm', hi', hp'⟩ := ha
    rw [hr3 a fun x hx h => hp' ⟨x, hparts ▸ hx, h⟩, hshow a hm', hr1 a htj' fun r hr h => hi' ⟨r, hr, h⟩]

/-! The power ceilings. -/

/-- The quarters whose power ceiling falls (R345). -/
def State.cutQuarters (s : State) : List Nat := if s.overShare.isEmpty then List.range 4 else s.overShare

/-- The loops in a row 2 % below the limit (R345). -/
def State.restful (s : State) : Nat :=
  if s.fld Reg.PWR_MEAS 0 12 * 100 ≤ s.fld Reg.PWR_LIMIT 0 8 * 8 * 98 then s.pwr.below + 1 else 0

/-- The quarters that are cut are quarters, each once. -/
theorem State.cutQuarters_sound (s : State) : s.cutQuarters.Nodup ∧ ∀ q ∈ s.cutQuarters, q < 4 := by
  unfold State.cutQuarters
  split
  · exact ⟨List.nodup_range, fun q hq => List.mem_range.mp hq⟩
  · exact ⟨List.nodup_range.filter _, fun q hq => List.mem_range.mp (List.mem_filter.mp hq).1⟩

/-- What a loop does to the power ceilings changes the quarters, the counts of the limit and the log alone. -/
structure State.CeilingsOnly (s u : State) : Prop where
  rest : u = { s with regs := u.regs, pwr := u.pwr, alertStatus := u.alertStatus, log := u.log, logHigh := u.logHigh,
                      logLast := u.logLast, notices := u.notices, free := u.free }
  pwr : u.pwr = { s.pwr with quarters := u.pwr.quarters, below := u.pwr.below, unmet := u.pwr.unmet }
  length : u.pwr.quarters.length = s.pwr.quarters.length
  regs : ∀ a, a ∉ logRegs → u.rd a = s.rd a

/-- Above the limit the ceilings of some quarters fall (R345). -/
theorem State.powerCeil_above {s : State} (h : s.fld Reg.PWR_LIMIT 0 8 * 8 < s.fld Reg.PWR_MEAS 0 12) : let u := s.powerCeil
    State.CeilingsOnly s u ∧ u.pwr.below = 0 ∧ (s.pwr.quarters.length = 4 → ∀ q < 4,
      u.quarter q = if q ∈ s.cutQuarters then { s.quarter q with ceilP := max 120 ((s.quarter q).ceilP - 1) } else s.quarter q) := by
  obtain ⟨hnodup, hlt⟩ := s.cutQuarters_sound
  obtain ⟨honly, hlen, hq⟩ := s.changeQuarters (fun _ x => { x with ceilP := max 120 (x.ceilP - 1) }) s.cutQuarters
  generalize hv : s.cutQuarters.foldl (fun s q => s.setQuarter q { s.quarter q with ceilP := max 120 ((s.quarter q).ceilP - 1) }) s = v
    at honly hlen hq
  have hlog : ∃ b, State.LogOnly { v with pwr := { v.pwr with below := 0, unmet := b } } s.powerCeil := by
    unfold State.powerCeil
    simp only [if_pos h]
    rw [show (if s.overShare.isEmpty = true then List.range 4 else s.overShare) = s.cutQuarters from rfl, hv]
    split
    · exact ⟨true, State.throttleLog_logOnly _ _ _ _ _⟩
    · exact ⟨v.pwr.unmet, .refl _⟩
  obtain ⟨b, hu, hrd⟩ := hlog
  generalize s.powerCeil = u at hu hrd
  have hpwr : u.pwr = { v.pwr with below := 0, unmet := b } := by rw [hu]
  have hvp : v.pwr = { s.pwr with quarters := v.pwr.quarters } := by rw [honly]
  refine ⟨⟨by rw [hu, honly], by rw [hpwr, hvp], by rw [hpwr, hlen], fun a ha => (hrd a ha).trans ?_⟩, by rw [hpwr], fun h4 q hq4 => ?_⟩
  · show v.rd a = s.rd a
    rw [honly]; rfl
  · rw [State.quarter_congr (s := v) (by rw [hpwr]), hq hnodup (fun k hk => h4 ▸ hlt k hk)]

/-- At the limit and below it the ceilings rise after ten loops of rest (R345). -/
theorem State.powerCeil_below {s : State} (h : s.fld Reg.PWR_MEAS 0 12 ≤ s.fld Reg.PWR_LIMIT 0 8 * 8) : let u := s.powerCeil
    State.CeilingsOnly s u ∧ u.pwr.below = s.restful ∧ (s.pwr.quarters.length = 4 → ∀ q < 4,
      u.quarter q = if 10 ≤ s.restful then { s.quarter q with ceilP := min 170 ((s.quarter q).ceilP + 1) } else s.quarter q) := by
  have hu : s.powerCeil = if 10 ≤ s.restful then
      (List.range 4).foldl (fun s q => s.setQuarter q { s.quarter q with ceilP := min 170 ((s.quarter q).ceilP + 1) })
        { s with pwr := { s.pwr with below := s.restful, unmet := false } }
      else { s with pwr := { s.pwr with below := s.restful, unmet := false } } := if_neg (Nat.not_lt.mpr h)
  rw [hu]
  split
  · obtain ⟨honly, hlen, hq⟩ := State.changeQuarters (fun _ x => { x with ceilP := min 170 (x.ceilP + 1) }) (List.range 4)
      { s with pwr := { s.pwr with below := s.restful, unmet := false } }
    generalize (List.range 4).foldl _ _ = v at honly hlen hq
    refine ⟨⟨by rw [honly], by rw [honly], hlen, fun a _ => by rw [honly]; rfl⟩, by rw [honly], fun h4 q hq4 => ?_⟩
    rw [hq List.nodup_range (fun k hk => h4 ▸ List.mem_range.mp hk), if_pos (List.mem_range.mpr hq4)]
    rfl
  · exact ⟨⟨rfl, rfl, rfl, fun _ _ => rfl⟩, rfl, fun _ _ _ => rfl⟩

theorem State.powerCeil_only (s : State) : State.CeilingsOnly s s.powerCeil := by
  rcases Nat.lt_or_ge (s.fld Reg.PWR_LIMIT 0 8 * 8) (s.fld Reg.PWR_MEAS 0 12) with h | h
  · exact (State.powerCeil_above h).1
  · exact (State.powerCeil_below h).1

end Sys2Proof.Machine
end

section
/-! A loop of the governor (R51, R345, R346): the four quarters in turn, after what the loop measures. -/
namespace Sys2Proof.Machine
open Sys2Proof.Safety

/-! The quarters in turn. -/

/-- The quarters of a list in a loop of the governor, in turn. -/
def State.governAll (s : State) (l : List Nat) : State := l.foldl (fun s q => s.governQuarter q) s

theorem State.governAll_quartersOnly {K : Nat → Prop} (l : List Nat) (s : State) (hl : ∀ k ∈ l, k < 4 ∧ K k) :
    State.QuartersOnly K s (s.governAll l) := by
  induction l generalizing s with
  | nil => exact .refl s
  | cons k r ih =>
    obtain ⟨hk4, hk⟩ := hl k (List.mem_cons_self ..)
    exact ((s.governQuarter_quartersOnly hk4).mono fun j hj => hj ▸ hk).trans (ih _ fun j hj => hl j (List.mem_cons_of_mem _ hj))

/-- A quarter is governed once; the steps before and after it leave it alone. -/
theorem State.governAll_at {q : Nat} (l : List Nat) (s : State) (hl : ∀ k ∈ l, k < 4) (hn : l.Nodup) (hq : q ∈ l) :
    ∃ a, State.QuartersOnly (· ≠ q) s a ∧ State.QuartersOnly (· ≠ q) (a.governQuarter q) (s.governAll l) := by
  induction l generalizing s with
  | nil => cases hq
  | cons k r ih =>
    obtain ⟨hk, hr⟩ := List.nodup_cons.mp hn
    have hl' : ∀ j ∈ r, j < 4 := fun j hj => hl j (List.mem_cons_of_mem _ hj)
    by_cases hkq : k = q
    · subst hkq
      exact ⟨s, .refl s, State.governAll_quartersOnly r _ fun j hj => ⟨hl' j hj, fun h => hk (h ▸ hj)⟩⟩
    · obtain ⟨a, hb, ha⟩ := ih (s.governQuarter k) hl' hr ((List.mem_cons.mp hq).resolve_left (Ne.symm hkq))
      exact ⟨a, ((s.governQuarter_quartersOnly (hl k (List.mem_cons_self ..))).mono fun j hj => hj ▸ hkq).trans hb, ha⟩

/-- No quarter's rail is asked for more than that quarter's ceiling. -/
theorem State.governAll_writes (l : List Nat) (s : State) (hl : ∀ k ∈ l, k < 4) (hn : l.Nodup) {k n : Nat}
    (h : avsOut k (.write n) ∈ (s.governAll l).out) : avsOut k (.write n) ∈ s.out ∨ k < 4 ∧ n ≤ 5 * ((s.governAll l).quarter k).ceil := by
  induction l generalizing s with
  | nil => exact .inl h
  | cons j r ih =>
    obtain ⟨hj, hr⟩ := List.nodup_cons.mp hn
    have hj4 := hl j (List.mem_cons_self ..)
    have hl' : ∀ i ∈ r, i < 4 := fun i hi => hl i (List.mem_cons_of_mem _ hi)
    rcases ih (s.governQuarter j) hl' hr h with h | h
    · rcases State.governQuarter_writes hj4 h with h | ⟨rfl, h⟩
      · exact .inl h
      · have hrest : State.QuartersOnly (· ≠ k) (s.governQuarter k) (s.governAll (k :: r)) :=
          State.governAll_quartersOnly r _ fun i hi => ⟨hl' i hi, fun he => hj (he ▸ hi)⟩
        exact .inr ⟨hj4, by rw [hrest.quarter k (fun h => h rfl)]; exact h⟩
    · exact .inr h

/-- A disabled governor asks for nothing. -/
theorem State.governAll_disabled (l : List Nat) (s : State) (hl : ∀ k ∈ l, k < 4) (h : s.bit Reg.PWR_GOV_CTRL 0 = false) :
    (s.governAll l).pwr.want = s.pwr.want ∧ ∀ r < 6, (s.governAll l).rd (Reg.PWR_RAIL_V r) = s.rd (Reg.PWR_RAIL_V r) := by
  induction l generalizing s with
  | nil => exact ⟨rfl, fun _ _ => rfl⟩
  | cons k r ih =>
    have hk4 := hl k (List.mem_cons_self ..)
    obtain ⟨hw, hr⟩ := State.governQuarter_disabled k hk4 h
    have hctrl : (s.governQuarter k).rd Reg.PWR_GOV_CTRL = s.rd Reg.PWR_GOV_CTRL :=
      have h3 : Reg.PWR_GOV_CTRL = 0x71000100 := rfl
      (s.governQuarter_quartersOnly hk4).regs _ (notMem_logRegs (by omega)) fun j hj _ hg => by have := hg.place; omega
    obtain ⟨hw', hr'⟩ := ih (s.governQuarter k) (fun j hj => hl j (List.mem_cons_of_mem _ hj)) (by rw [State.bit, hctrl]; exact h)
    exact ⟨hw'.trans hw, fun i hi => (hr' i hi).trans (hr i hi)⟩

/-! What a quarter asks for, from the loop's point of view. -/

/-- The steps of the other quarters leave what is read of a quarter as it is. -/
theorem State.QuartersOnly.sameQuarter {q : Nat} (hq : q < 4) {s u : State} (h : State.QuartersOnly (· ≠ q) s u) : State.SameQuarter q s u := by
  have hreg (a : Nat) (hl : a < 0x72000000) (hn : ∀ k, k < 4 → k ≠ q → ¬ GovReg k a) : u.rd a = s.rd a :=
    h.regs a (notMem_logRegs (by omega)) hn
  refine ⟨h.sameLoad, ?_, ?_, fun t ht => h.tile t (fun hn => hn ht), fun t ht => ?_⟩
  · have h1 : Reg.PWR_GOV_CTRL = 0x71000100 := rfl
    exact hreg _ (by omega) fun k hk _ hg => by have := hg.place; omega
  · have h1 := Reg.PWR_RAIL_V_eq q
    exact hreg _ (by omega) fun k hk _ hg => by have := hg.place; omega
  · have h1 := Reg.SEQ_BEAT_MIN_SLACK_eq t
    have h2 := Reg.SEQ_BEAT_USED_eq t
    have h3 := Reg.SEQ_BEAT_SLACK_eq t
    exact ⟨hreg _ (by omega) fun k hk _ hg => (by have := hg.place; omega), hreg _ (by omega) fun k hk _ hg => (by have := hg.place; omega),
      hreg _ (by omega) fun k hk _ hg => (by have := hg.place; omega)⟩

section
variable {q : Nat} {s a b u : State}

theorem State.Asks.congr (hq : q < 4) (hs : State.SameQuarter q s a) (hu : State.QuartersOnly (· ≠ q) b u) {w n : Nat}
    (h : a.Asks b q w n) : s.Asks u q w n := by
  have hx : u.quarter q = b.quarter q := hu.quarter q (fun h => h rfl)
  have hw : SMap.get u.pwr.want 0 q = SMap.get b.pwr.want 0 q := hu.want q (fun h => h rfl)
  obtain ⟨habove, hask, hhold⟩ := h
  rw [hs.railMv] at hask hhold
  unfold State.Asks
  dsimp only
  rw [hu.sameLoad.floorOf (by rw [hx]), hx, hw, (hu.sameQuarter hq).railWaits]
  exact ⟨habove, fun hn => ⟨(hask hn).1, (hask hn).2.1, hu.out _ (hask hn).2.2⟩, hhold⟩

theorem State.SameQuarter.under (hs : State.SameQuarter q s a) {t : Nat} (ht : t ∈ s.ranTiles q) : a.Under t ↔ s.Under t := by
  simp only [State.Under, State.fld, hs.ctrl, hs.slackOf (State.mem_ranTiles ht)]

theorem State.SameQuarter.above (hs : State.SameQuarter q s a) {t : Nat} (ht : t ∈ s.ranTiles q) : a.Above t ↔ s.Above t := by
  simp only [State.Above, State.fld, hs.ctrl, hs.slackOf (State.mem_ranTiles ht)]

theorem State.SameQuarter.lateIff (hs : State.SameQuarter q s a) {t : Nat} (ht : t ∈ s.ranTiles q) :
    a.bit (Reg.SEQ_BEAT_MIN_SLACK t) 20 = true ↔ s.bit (Reg.SEQ_BEAT_MIN_SLACK t) 20 = true := by
  rw [hs.late (State.mem_ranTiles ht)]

/-- What a quarter asks for depends on what is read of it, and stays with the steps of the other quarters. -/
theorem State.Steers.congr (hq : q < 4) (hs : State.SameQuarter q s a) (habove : (a.quarter q).above = (s.quarter q).above)
    (hu : State.QuartersOnly (· ≠ q) b u) (h : a.Steers b q) : s.Steers u q := by
  have hx : u.quarter q = b.quarter q := hu.quarter q (fun h => h rfl)
  have hctrl : a.fld Reg.PWR_GOV_CTRL 24 4 = s.fld Reg.PWR_GOV_CTRL 24 4 := by rw [State.fld, hs.ctrl]; rfl
  have hask {w n : Nat} (h : a.Asks b q w n) : s.Asks u q w n := h.congr hq hs hu
  unfold State.Steers at h ⊢
  dsimp only at h ⊢
  rw [hs.railMv, hs.ranTiles, hs.load.liveParts, habove, hctrl] at h
  rw [hu.sameLoad.floorOf (by rw [hx]), hx]
  obtain ⟨hfall, hidle, hstill, hran⟩ := h
  refine ⟨fun hv => hask (hfall hv), fun hv hi => hask (hidle hv hi), fun hv hi hr => hask (hstill hv hi hr), fun hv hi hr => ?_⟩
  obtain ⟨hlate, hunder, habove, hhold, harm⟩ := hran hv hi hr
  have nolate (hl : ∀ t ∈ s.ranTiles q, ¬ s.bit (Reg.SEQ_BEAT_MIN_SLACK t) 20 = true) :
      ∀ t ∈ s.ranTiles q, ¬ a.bit (Reg.SEQ_BEAT_MIN_SLACK t) 20 = true := fun t ht h => hl t ht ((hs.lateIff ht).mp h)
  have nounder (hn : ∀ t ∈ s.ranTiles q, ¬ s.Under t) : ∀ t ∈ s.ranTiles q, ¬ a.Under t := fun t ht h => hn t ht ((hs.under ht).mp h)
  refine ⟨fun ⟨t, ht, hl⟩ => hask (hlate ⟨t, ht, (hs.lateIff ht).mpr hl⟩),
    fun hl ⟨t, ht, hn⟩ => hask (hunder (nolate hl) ⟨t, ht, (hs.under ht).mpr hn⟩),
    fun hl hn ha => hask (habove (nolate hl) (nounder hn) fun t ht => (hs.above ht).mpr (ha t ht)),
    fun hl hn ⟨t, ht, ha⟩ => hask (hhold (nolate hl) (nounder hn) ⟨t, ht, fun h => ha ((hs.above ht).mp h)⟩), fun t ht => ?_⟩
  have ht32 := State.mem_ranTiles ht
  rw [hu.tile t (fun hn => hn ht32), ((hu.sameQuarter hq).slack t ht32).1]
  exact harm t ht

end

end Sys2Proof.Machine
end

section
/-! Power (O57): a loop of the governor as a whole, and the statement's clauses. -/
namespace Sys2Proof.Machine
open Sys2Proof.Safety

/-! A loop as a whole. -/

/-- The state in which a loop has measured and set the power ceilings. -/
def State.measured (s : State) (m : GovEnv) : State := (s.measure m).powerCeil

/-- The state that a loop of the governor leaves, while no transition is under way. -/
def State.looped (s : State) (m : GovEnv) : State := (s.measured m).governAll (List.range 4)

/-- Where a loop shows what it measures. -/
theorem State.MeasReg.place {s : State} {a : Nat} (hp : ∀ x ∈ s.parts, x.1 < 16) (h : s.MeasReg a) :
    a = 0x71000010 ∨ a = 0x7100000C ∨ (0x71000200 ≤ a ∧ a < 0x71000240) ∨ (0x71000300 ≤ a ∧ a < 0x71000340 ∧ a % 8 = 4) := by
  rcases h with h | h | ⟨r, hr, h⟩ | ⟨x, hx, h⟩
  · have := Reg.PWR_TJ_eq; omega
  · have := Reg.PWR_MEAS_eq; omega
  · have := Reg.PWR_RAIL_I_eq r; omega
  · have := Reg.PWR_PART_eq x.1
    have := hp x hx
    omega

/-- What a loop measures leaves every other register as it is. -/
theorem State.measured_rd {s : State} (m : GovEnv) {a : Nat} (hl : a < 0x72000000 ∨ 0x72000010 ≤ a) (hn : ¬ s.MeasReg a) :
    (s.measured m).rd a = s.rd a := by
  obtain ⟨-, -, -, -, -, -, hregs, -⟩ := s.measure_spec m
  exact ((s.measure m).powerCeil_only.regs a (notMem_logRegs hl)).trans (hregs a hn)

/-- What a loop measures leaves everything but the registers, the power manager, the log, the alert and what leaves as it is. -/
theorem State.measured_only (s : State) (m : GovEnv) : let u := s.measured m
    u = { s with regs := u.regs, pwr := u.pwr, alertStatus := u.alertStatus, out := u.out, log := u.log, logHigh := u.logHigh,
                 logLast := u.logLast, notices := u.notices, free := u.free } ∧
      u.pwr = { s.pwr with quarters := u.pwr.quarters, watts := s.wattsOf m, below := u.pwr.below, unmet := u.pwr.unmet } ∧
      u.pwr.quarters.length = s.pwr.quarters.length ∧ ∀ k n, avsOut k (.write n) ∈ u.out → avsOut k (.write n) ∈ s.out := by
  obtain ⟨h1, hp1, hl1, -, -, -, -, ho1⟩ := s.measure_spec m
  obtain ⟨h2, hp2, hl2, -⟩ := (s.measure m).powerCeil_only
  have hout : (s.measured m).out = (s.measure m).out := by rw [State.measured, h2]
  refine ⟨?_, ?_, hl2.trans hl1, fun k n h => ho1 k n (hout ▸ h)⟩
  · rw [State.measured, h2, h1]
  · rw [State.measured, hp2, hp1]

section
variable {s : State} (m : GovEnv) (hp : ∀ x ∈ s.parts, x.1 < 16)
include hp

theorem State.measured_sameLoad : State.SameLoad s (s.measured m) := by
  obtain ⟨honly, -⟩ := s.measured_only m
  have hreg (a : Nat) (h : a < 0x71000000 ∨ 0x73000000 ≤ a) : (s.measured m).rd a = s.rd a :=
    s.measured_rd m (by omega) fun hm => by have := hm.place hp; omega
  refine ⟨by rw [honly], by rw [honly], fun p => hreg _ ?_, fun p v => hreg _ ?_, hreg _ ?_⟩
  · have := Reg.PART_BEAT_STATUS_eq p; omega
  · have := Reg.PART_VAR_BUDGET_eq p v; omega
  · have : Reg.TIME_MS_PERIOD = 0x70000100 := rfl
    omega

/-- What a loop measures leaves a register of the governor, of a rail's voltage or below the power manager as it is. -/
theorem State.measured_keeps {a : Nat} (h : a < 0x7100000C ∨ (0x71000010 < a ∧ a < 0x71000200) ∨ (0x71000300 ≤ a ∧ a < 0x71000340 ∧ a % 8 = 0)) :
    (s.measured m).rd a = s.rd a :=
  State.measured_rd m (by omega) fun hm => by have := hm.place hp; omega

theorem State.measured_sameQuarter {q : Nat} (hq : q < 4) : State.SameQuarter q s (s.measured m) := by
  obtain ⟨honly, -⟩ := s.measured_only m
  refine ⟨State.measured_sameLoad m hp, ?_, ?_, fun t _ => by rw [honly]; rfl, fun t ht => ?_⟩
  · have h1 : Reg.PWR_GOV_CTRL = 0x71000100 := rfl
    exact State.measured_keeps m hp (by omega)
  · have h1 := Reg.PWR_RAIL_V_eq q
    exact State.measured_keeps m hp (by omega)
  · have h1 := Reg.SEQ_BEAT_MIN_SLACK_eq t
    have h2 := Reg.SEQ_BEAT_USED_eq t
    have h3 := Reg.SEQ_BEAT_SLACK_eq t
    exact ⟨State.measured_keeps m hp (by omega), State.measured_keeps m hp (by omega), State.measured_keeps m hp (by omega)⟩

end

/-- The four quarters are governed after what the loop measures. -/
theorem State.looped_quartersOnly (s : State) (m : GovEnv) : State.QuartersOnly (fun _ => True) (s.measured m) (s.looped m) :=
  State.governAll_quartersOnly _ _ fun _ hk => ⟨List.mem_range.mp hk, trivial⟩

/-- One of the four quarters. -/
theorem State.looped_at (s : State) (m : GovEnv) {q : Nat} (hq : q < 4) :
    ∃ a, State.QuartersOnly (· ≠ q) (s.measured m) a ∧ State.QuartersOnly (· ≠ q) (a.governQuarter q) (s.looped m) :=
  State.governAll_at _ _ (fun _ hk => List.mem_range.mp hk) List.nodup_range (List.mem_range.mpr hq)

/-- GOVERNOR_LOOP while firmware runs and no transition is under way. -/
theorem exec_governorLoop {s : State} (m : GovEnv) (hup : s.boot.fwUp = true) (hlost : s.fwLost = false) (hphase : s.pwr.phase = 0)
    (hrung : s.devRung ≠ 4) (hp : ∀ x ∈ s.parts, x.1 < 16) (hc : s.Calm) : exec (.governorLoop m) s = .next (s.looped m) := by
  obtain ⟨-, hpwr, -⟩ := s.measured_only m
  have hcalm : (s.looped m).Calm := (s.looped_quartersOnly m).sameLoad.calm ((State.measured_sameLoad m hp).calm hc)
  have hcond : (s.measured m).pwr.phase = 0 ∧ (s.measured m).devRung ≠ 4 := by
    have h1 := Reg.PWR_STATUS_eq
    refine ⟨by rw [hpwr]; exact hphase, ?_⟩
    rw [State.devRung, State.fld, State.measured_keeps m hp (by omega)]
    exact hrung
  show execGovernorLoop m s = _
  unfold execGovernorLoop
  rw [if_neg (by simp [hup, hlost])]
  refine (if_pos hcond).trans ?_
  show Host.Outcome.next (s.looped m).raiseChecks.floorChecks = _
  rw [hcalm.raiseChecks, hcalm.floorChecks]

/-- What a loop shows of the device (R345, R346). -/
theorem State.looped_shows (s : State) (m : GovEnv) : let u := s.looped m
    u.pwr.watts = s.wattsOf m ∧
      u.rd Reg.PWR_MEAS = BitVec.ofNat 32 (min 4095 ((s.wattsOf m).foldl (fun n x => n + x) 0 / (s.wattsOf m).length)) ∧
      ∀ t, (∀ x ∈ m.tj, x ≤ t) → t ∈ m.tj → u.fld Reg.PWR_TJ 0 12 = (BitVec.ofInt 12 t).toNat := by
  obtain ⟨-, hpwr, -⟩ := s.measured_only m
  obtain ⟨-, -, -, -, htj, hmeas, -⟩ := s.measure_spec m
  have hloop := s.looped_quartersOnly m
  have h1 := Reg.PWR_TJ_eq
  have h2 := Reg.PWR_MEAS_eq
  have hreg (a : Nat) (h : 0x7100000C ≤ a ∧ a ≤ 0x71000010) : (s.looped m).rd a = (s.measure m).rd a :=
    (hloop.regs a (notMem_logRegs (by omega)) fun k hk _ hg => by have := hg.place; omega).trans
      ((s.measure m).powerCeil_only.regs a (notMem_logRegs (by omega)))
  refine ⟨by rw [hloop.pwr, hpwr], (hreg _ (by omega)).trans hmeas, fun t hmax hmem => ?_⟩
  obtain ⟨hin, hle⟩ := hottest_spec (List.ne_nil_of_mem hmem) 0
  rw [State.fld, hreg _ (by omega), ← le_antisymm (hmax _ hin) (hle t hmem)]
  exact htj

/-- A loop asks no quarter's rail for more than that quarter's ceiling (R51). -/
theorem State.looped_writes {s : State} {m : GovEnv} {q n : Nat} (h : avsOut q (.write n) ∈ (s.looped m).out) :
    avsOut q (.write n) ∈ s.out ∨ q < 4 ∧ n ≤ 5 * ((s.looped m).quarter q).ceil := by
  obtain ⟨-, -, -, hout⟩ := s.measured_only m
  rcases State.governAll_writes _ _ (fun _ hk => List.mem_range.mp hk) List.nodup_range h with h | h
  · exact .inl (hout q n h)
  · exact .inr h

/-- A disabled governor asks for nothing (R51). -/
theorem State.looped_disabled {s : State} (m : GovEnv) (hp : ∀ x ∈ s.parts, x.1 < 16) (h : s.bit Reg.PWR_GOV_CTRL 0 = false) :
    (s.looped m).pwr.want = s.pwr.want ∧ ∀ r < 6, (s.looped m).rd (Reg.PWR_RAIL_V r) = s.rd (Reg.PWR_RAIL_V r) := by
  obtain ⟨-, hpwr, -⟩ := s.measured_only m
  have hctrl : Reg.PWR_GOV_CTRL = 0x71000100 := rfl
  obtain ⟨hwant, hrail⟩ := State.governAll_disabled (List.range 4) (s.measured m) (fun _ hk => List.mem_range.mp hk)
    (by rw [State.bit, State.measured_keeps m hp (by omega)]; exact h)
  refine ⟨hwant.trans (by rw [hpwr]), fun r hr => (hrail r hr).trans ?_⟩
  have := Reg.PWR_RAIL_V_eq r
  exact State.measured_keeps m hp (by omega)

/-- The quarters that are cut: all of them, or those that hold a partition above its share (R345). -/
theorem State.mem_cutQuarters (s : State) {q : Nat} (hq : q < 4) : q ∈ s.cutQuarters ↔ s.overShare = [] ∨ q ∈ s.overShare := by
  unfold State.cutQuarters
  cases h : s.overShare with
  | nil => simp [hq]
  | cons k r => simp

/-- A loop measures a power of 12 bits. -/
theorem State.looped_meas (s : State) (m : GovEnv) : ((s.looped m).rd Reg.PWR_MEAS).toNat = (s.measure m).fld Reg.PWR_MEAS 0 12 := by
  obtain ⟨-, hmeas, -⟩ := s.looped_shows m
  obtain ⟨-, -, -, -, -, hmeas', -⟩ := s.measure_spec m
  rw [hmeas, State.fld, hmeas', Word.field, BitVec.toNat_ofNat, Nat.pow_zero, Nat.div_one]
  have hle := Nat.min_le_left 4095 ((s.wattsOf m).foldl (fun n x => n + x) 0 / (s.wattsOf m).length)
  generalize min 4095 _ = w at hle
  omega

section
variable {s : State} (m : GovEnv) {q : Nat} (hp : ∀ x ∈ s.parts, x.1 < 16) (hq : q < 4) (h4 : s.pwr.quarters.length = 4)
include hp

/-- The limit is no measurement. -/
theorem State.measure_limit : (s.measure m).fld Reg.PWR_LIMIT 0 8 = s.fld Reg.PWR_LIMIT 0 8 := by
  obtain ⟨-, -, -, -, -, -, hregs, -⟩ := s.measure_spec m
  have h : Reg.PWR_LIMIT = 0x71000008 := rfl
  rw [State.fld, hregs _ fun hm => by have := hm.place hp; omega]
  rfl

include hq h4

/-- The power ceilings of a loop above the limit (R345). -/
theorem State.measured_above (h : 8 * s.fld Reg.PWR_LIMIT 0 8 < (s.measure m).fld Reg.PWR_MEAS 0 12) :
    (s.measured m).pwr.below = 0 ∧ ((s.measured m).quarter q).ceilP =
      if (s.measure m).overShare = [] ∨ q ∈ (s.measure m).overShare then max 120 ((s.quarter q).ceilP - 1) else (s.quarter q).ceilP := by
  obtain ⟨-, -, hlen, hquarter, -⟩ := s.measure_spec m
  obtain ⟨-, hbelow, hceil⟩ := State.powerCeil_above (s := s.measure m) (by rw [State.measure_limit m hp]; omega)
  refine ⟨hbelow, ?_⟩
  rw [State.measured, hceil (hlen.trans h4) q hq, hquarter h4 q hq]
  simp only [State.mem_cutQuarters _ hq]
  split <;> rfl

/-- The power ceilings of a loop at the limit or below it (R345). -/
theorem State.measured_below (h : (s.measure m).fld Reg.PWR_MEAS 0 12 ≤ 8 * s.fld Reg.PWR_LIMIT 0 8) :
    let rests := if (s.measure m).fld Reg.PWR_MEAS 0 12 * 100 ≤ 8 * s.fld Reg.PWR_LIMIT 0 8 * 98 then s.pwr.below + 1 else 0
    (s.measured m).pwr.below = rests ∧
      ((s.measured m).quarter q).ceilP = if 10 ≤ rests then min 170 ((s.quarter q).ceilP + 1) else (s.quarter q).ceilP := by
  intro rests
  obtain ⟨-, hpwr, hlen, hquarter, -⟩ := s.measure_spec m
  obtain ⟨-, hbelow, hceil⟩ := State.powerCeil_below (s := s.measure m) (by rw [State.measure_limit m hp]; omega)
  have hrest : (s.measure m).restful = rests := by
    rw [State.restful, State.measure_limit m hp, hpwr, Nat.mul_comm (s.fld Reg.PWR_LIMIT 0 8) 8]
  refine ⟨hbelow.trans hrest, ?_⟩
  rw [State.measured, hceil (hlen.trans h4) q hq, hquarter h4 q hq, hrest]
  split <;> rfl

omit hp in
/-- What the measurements leave of a quarter. -/
theorem State.measured_quarter : ((s.measured m).quarter q).tj = m.tj.getD q 0 ∧ ((s.measured m).quarter q).ceilT = (s.quarter q).ceilT ∧
    ((s.measured m).quarter q).above = (s.quarter q).above := by
  obtain ⟨-, -, hlen, hquarter, -⟩ := s.measure_spec m
  have hx := hquarter h4 q hq
  rw [State.measured]
  rcases Nat.lt_or_ge ((s.measure m).fld Reg.PWR_LIMIT 0 8 * 8) ((s.measure m).fld Reg.PWR_MEAS 0 12) with h | h
  · obtain ⟨-, -, hceil⟩ := State.powerCeil_above h
    rw [hceil (hlen.trans h4) q hq, hx]
    split <;> exact ⟨rfl, rfl, rfl⟩
  · obtain ⟨-, -, hceil⟩ := State.powerCeil_below h
    rw [hceil (hlen.trans h4) q hq, hx]
    split <;> exact ⟨rfl, rfl, rfl⟩

/-- What a loop leaves of a quarter (R346). -/
theorem State.looped_quarter : let u := s.looped m
    let tj := m.tj.getD q 0
    (u.quarter q).tj = tj ∧ (u.quarter q).ceilT = (if ((8 * s.fld Reg.PWR_THERM_CTRL 0 8 : Nat) : Int) ≤ tj then max 120 ((s.quarter q).ceilT - 2)
      else if tj < ((8 * s.fld Reg.PWR_THERM_CTRL 8 8 : Nat) : Int) then min 170 ((s.quarter q).ceilT + 1) else (s.quarter q).ceilT) ∧
    (u.quarter q).ceilP = ((s.measured m).quarter q).ceilP ∧ u.pwr.below = (s.measured m).pwr.below ∧
    u.fld (Reg.PWR_CEIL q) 0 8 = (u.quarter q).ceil := by
  obtain ⟨a, hbefore, hafter⟩ := s.looped_at m hq
  obtain ⟨-, -, hlen, -⟩ := s.measured_only m
  obtain ⟨htj, hceilT, -⟩ := State.measured_quarter m hq h4
  have hqa : q < a.pwr.quarters.length := by rw [hbefore.length, hlen, h4]; exact hq
  obtain ⟨n, p, t, hx, -, hceil⟩ := State.governQuarter_quarter hq hqa
  have hxa : a.quarter q = (s.measured m).quarter q := hbefore.quarter q fun h => h rfl
  have hxu : (s.looped m).quarter q = (a.governQuarter q).quarter q := hafter.quarter q fun h => h rfl
  have htherm : Reg.PWR_THERM_CTRL = 0x71000014 := rfl
  have hctrl : a.rd Reg.PWR_THERM_CTRL = s.rd Reg.PWR_THERM_CTRL :=
    (hbefore.regs _ (notMem_logRegs (by omega)) fun k hk _ hg => by have := hg.place; omega).trans (State.measured_keeps m hp (by omega))
  have hfld (lo w : Nat) : a.fld Reg.PWR_THERM_CTRL lo w = s.fld Reg.PWR_THERM_CTRL lo w := by rw [State.fld, hctrl]; rfl
  have hshown : (s.looped m).fld (Reg.PWR_CEIL q) 0 8 = (a.governQuarter q).fld (Reg.PWR_CEIL q) 0 8 := by
    have := Reg.PWR_CEIL_eq q
    rw [State.fld, hafter.regs _ (notMem_logRegs (by omega)) fun k hk _ hg => by have := hg.place; omega]
    rfl
  have hshows := State.governQuarter_shows hq hqa
  dsimp only
  rw [hshown, hxu]
  refine ⟨?_, ?_, ?_, by rw [(s.looped_quartersOnly m).pwr], hshows⟩ <;> rw [hx]
  · rw [hxa, htj]
  · show a.nextCeilT q = _
    rw [State.nextCeilT, hfld, hfld, hxa, htj, hceilT]
  · rw [hxa]

/-- What a quarter of an enabled governor asks for (R51). -/
theorem State.looped_steers (hc : s.Calm) (hen : s.bit Reg.PWR_GOV_CTRL 0 = true) (hw : s.railWaits q = false) : s.Steers (s.looped m) q := by
  obtain ⟨a, hbefore, hafter⟩ := s.looped_at m hq
  obtain ⟨-, -, hlen, -⟩ := s.measured_only m
  obtain ⟨-, -, habove⟩ := State.measured_quarter m hq h4
  have hqa : q < a.pwr.quarters.length := by rw [hbefore.length, hlen, h4]; exact hq
  have hsame := (State.measured_sameQuarter m hp hq).trans (hbefore.sameQuarter hq)
  have hxa : a.quarter q = (s.measured m).quarter q := hbefore.quarter q fun h => h rfl
  refine State.Steers.congr hq hsame (by rw [hxa, habove]) hafter ?_
  exact State.governQuarter_steers hq hqa (hsame.load.calm hc) (by rw [State.bit, hsame.ctrl]; exact hen) (hsame.railWaits.trans hw)

end

/-- The clause of the governor, for every state in which a loop drives the quarters. -/
theorem exec_governorLoop_spec {s : State} (m : GovEnv) (hup : s.boot.fwUp = true) (hlost : s.fwLost = false) (hphase : s.pwr.phase = 0)
    (hrung : s.devRung ≠ 4) (hp : ∀ x ∈ s.parts, x.1 < 16) (hc : s.Calm) :
    ∃ u, exec (.governorLoop m) s = .next u ∧ BytesSame s u ∧ u.pwr.watts = s.wattsOf m ∧
      u.rd Reg.PWR_MEAS = BitVec.ofNat 32 (min 4095 ((s.wattsOf m).foldl (fun n x => n + x) 0 / (s.wattsOf m).length)) ∧
      (∀ t, (∀ x ∈ m.tj, x ≤ t) → t ∈ m.tj → u.fld Reg.PWR_TJ 0 12 = (BitVec.ofInt 12 t).toNat) ∧
      (∀ q mv, avsOut q (.write mv) ∈ u.out → avsOut q (.write mv) ∈ s.out ∨ (q < 4 ∧ mv ≤ 5 * (u.quarter q).ceil)) ∧
      (s.bit Reg.PWR_GOV_CTRL 0 = false → u.pwr.want = s.pwr.want ∧ ∀ r, r < 6 → u.rd (Reg.PWR_RAIL_V r) = s.rd (Reg.PWR_RAIL_V r)) ∧
      (s.pwr.quarters.length = 4 → ∀ q, q < 4 →
        let limit := 8 * s.fld Reg.PWR_LIMIT 0 8
        let meas := (u.rd Reg.PWR_MEAS).toNat
        let greedy := (s.measure m).overShare
        let rests := if meas * 100 ≤ limit * 98 then s.pwr.below + 1 else 0
        (u.quarter q).tj = m.tj.getD q 0 ∧
        (u.quarter q).ceilT = (if ((8 * s.fld Reg.PWR_THERM_CTRL 0 8 : Nat) : Int) ≤ m.tj.getD q 0 then max 120 ((s.quarter q).ceilT - 2)
          else if m.tj.getD q 0 < ((8 * s.fld Reg.PWR_THERM_CTRL 8 8 : Nat) : Int) then min 170 ((s.quarter q).ceilT + 1)
          else (s.quarter q).ceilT) ∧
        (limit < meas → u.pwr.below = 0 ∧
          (u.quarter q).ceilP = if greedy = [] ∨ q ∈ greedy then max 120 ((s.quarter q).ceilP - 1) else (s.quarter q).ceilP) ∧
        (meas ≤ limit → u.pwr.below = rests ∧
          (u.quarter q).ceilP = if 10 ≤ rests then min 170 ((s.quarter q).ceilP + 1) else (s.quarter q).ceilP) ∧
        u.fld (Reg.PWR_CEIL q) 0 8 = (u.quarter q).ceil ∧
        (s.bit Reg.PWR_GOV_CTRL 0 = true → s.railWaits q = false → s.Steers u q)) := by
  obtain ⟨hwatts, hmeas, htj⟩ := s.looped_shows m
  refine ⟨s.looped m, exec_governorLoop m hup hlost hphase hrung hp hc, ?_, hwatts, hmeas, htj, fun q mv h => State.looped_writes h,
    State.looped_disabled m hp, fun h4 q hq => ?_⟩
  · obtain ⟨h1, -⟩ := s.measured_only m
    have hstore : (s.looped m).store = s.store := by rw [(s.looped_quartersOnly m).rest, h1]
    have hdram : (s.looped m).dram = s.dram := by rw [(s.looped_quartersOnly m).rest, h1]
    exact ⟨fun _ => by rw [hstore], fun _ => by rw [hdram]⟩
  · obtain ⟨hqtj, hceilT, hceilP, hbelow, hshown⟩ := State.looped_quarter m hp hq h4
    dsimp only
    rw [s.looped_meas m, hbelow, hceilP]
    exact ⟨hqtj, hceilT, State.measured_above m hp hq h4, State.measured_below m hp hq h4, hshown, State.looped_steers m hp hq h4 hc⟩

/-- Settles O57, clause by clause: the governor's loop by what each quarter's step changes and asks. -/
theorem powerActs : Obligations.PowerActs := by
  intro s logged calm
  refine ⟨fun m hup hlost hphase hrung hp hc => exec_governorLoop_spec m hup hlost hphase hrung hp hc, s.floorFor_bounds,
    fun r mv hr hw hphase hc => ?_, exec_rampComplete s, fun d stage trip hd => ?_, fun h => ?_, exec_thermNAssert, exec_thermNRelease s,
    exec_thermalTrip, exec_vbatLoss s, fun h r => ?_, fun h r => ?_⟩
  · intro want hwant
    exact ⟨fun hlo hhi => exec_avsAck hr hw hphase hc hwant hlo hhi, exec_avsAck_off, exec_avsTimeout hr hw hphase⟩
  · intro c live hside
    obtain ⟨u, hu, ⟨hoff, halert, hbytes, hlog⟩, hfault, hspare, hdead⟩ := exec_rampShort stage trip hd hside
    exact ⟨u, hu, hoff, halert, hbytes, hlog, hfault, hspare, hdead⟩
  · have hassert : exec .thermNAssert s = .next (if s.boot.por then s else s.thermPin true) := rfl
    refine ⟨by rw [hassert, h]; rfl, ?_⟩
    show execThermalTrip s = _
    rw [execThermalTrip, if_pos (by rw [h, Bool.or_true])]
  · show execRailOutOfTolerance r s = _
    exact if_pos h
  · show execRailOutOfTolerance r s = _
    exact if_neg (by rw [h]; decide)

end Sys2Proof.Machine
end

section
/-! Milestones (R31): which numbers are ahead. -/
namespace Sys2Proof

/-- The modular distance of R31 is the difference of the 48-bit numbers. -/
theorem msAhead_toNat (n c : BitVec 48) :
    msAhead n.toNat c.toNat = (decide (1 ≤ (n - c).toNat) && decide ((n - c).toNat ≤ 2 ^ 47 - 1)) := by
  have hc : c.toNat % 2 ^ 48 = c.toNat := Nat.mod_eq_of_lt c.isLt
  have hsub : (n.toNat + 2 ^ 48 - c.toNat) % 2 ^ 48 = (n - c).toNat := by
    rw [BitVec.toNat_sub]
    have := c.isLt
    congr 1
    omega
  simp only [msAhead, hc, hsub]

/-- Settles O6: adding one number to both leaves the difference. -/
theorem milestoneAheadIsModular : Obligations.MilestoneAheadIsModular := by
  intro n c d
  refine ⟨?_, ?_, ?_⟩
  · rw [msAhead_toNat, Bool.and_eq_true, decide_eq_true_eq, decide_eq_true_eq]
  · rw [msAhead_toNat, BitVec.sub_self]; rfl
  · rw [msAhead_toNat, msAhead_toNat, add_sub_add_right_eq_sub]

end Sys2Proof
end

section
/-! Reads of registers after writes: fields, bits and pairs of registers. -/
namespace Sys2Proof.Machine

/-- A field of another register. -/
theorem State.fld_setFld_ne (s : State) {a b : Nat} (h : a ≠ b) (lo w v lo' w' : Nat) :
    (s.setFld a lo w v).fld b lo' w' = s.fld b lo' w' := by
  rw [State.fld, State.rd_setFld, if_neg h]; rfl

/-- The field that was written. -/
theorem State.fld_setFld_self (s : State) (a : Nat) {lo w : Nat} (v : Nat) (h : lo + w ≤ 32) :
    (s.setFld a lo w v).fld a lo w = v % 2 ^ w := by
  rw [State.fld, State.rd_setFld, if_pos rfl, Word.field_setField _ _ _ _ h]

/-- A field below the one that was written. -/
theorem State.fld_setFld_below (s : State) (a : Nat) {lo w lo' w' : Nat} (v : Nat) (h : lo + w ≤ 32) (hl : lo' + w' ≤ lo) :
    (s.setFld a lo w v).fld a lo' w' = s.fld a lo' w' := by
  rw [State.fld, State.rd_setFld, if_pos rfl, Word.field_setField_below _ _ _ _ _ _ h hl]; rfl

/-- A field above the one that was written. -/
theorem State.fld_setFld_above (s : State) (a : Nat) {lo w lo' w' : Nat} (v : Nat) (h : lo + w ≤ 32) (hl : lo + w ≤ lo') :
    (s.setFld a lo w v).fld a lo' w' = s.fld a lo' w' := by
  rw [State.fld, State.rd_setFld, if_pos rfl, Word.field_setField_above _ _ _ _ _ _ h hl]; rfl

/-- A field after another register was written. -/
theorem State.fld_of_rd {s u : State} {a : Nat} (h : u.rd a = s.rd a) (lo w : Nat) : u.fld a lo w = s.fld a lo w := by
  rw [State.fld, h]; rfl

/-- A bit after another register was written. -/
theorem State.bit_of_rd {s u : State} {a : Nat} (h : u.rd a = s.rd a) (i : Nat) : u.bit a i = s.bit a i := by
  rw [State.bit, h]; rfl

/-- A field holds no more than its width. -/
theorem Word.field_lt (x : Word) (lo w : Nat) : x.field lo w < 2 ^ w := Nat.mod_lt _ (Nat.two_pow_pos w)

/-- A field of a register holds no more than its width. -/
theorem State.fld_lt (s : State) (a lo w : Nat) : s.fld a lo w < 2 ^ w := Word.field_lt _ _ _

/-- A number that was written into two registers. -/
theorem State.rd2_wr2 (s : State) {lo hi v : Nat} (h : lo ≠ hi) (hv : v < 2 ^ 64) : (s.wr2 lo hi v).rd2 lo hi = v := by
  simp only [State.rd2, State.rd_wr2, BitVec.toNat_ofNat, if_true, if_neg h.symm]
  omega

end Sys2Proof.Machine
end

section
/-! The outcome of a beat (R35, R39, R40, R43). -/
namespace Sys2Proof.Machine
open Sys2Proof.Safety

/-- What the outcome of a beat makes of its partition's status (R39, R43). -/
def outcomeStatus (st : Word) (o : Nat) : Word :=
  let x := st.setField 4 2 o
  match o with
  | 0 => (x.setField 8 8 0).setField 16 8 0
  | 1 => (x.setField 8 8 (min 255 (st.field 8 8 + 1))).setField 16 8 (min 255 (st.field 16 8 + 1))
  | 2 => x.setField 16 8 (min 255 (st.field 16 8 + 1))
  | _ => x

/-- The fields of the status after an outcome: the state stays. -/
theorem outcomeStatus_fields (st : Word) {o : Nat} (ho : o < 4) :
    (outcomeStatus st o).field 0 3 = st.field 0 3 ∧ (outcomeStatus st o).field 4 2 = o ∧
    (outcomeStatus st o).field 8 8 = (if o = 0 then 0 else if o = 1 then min 255 (st.field 8 8 + 1) else st.field 8 8) ∧
    (outcomeStatus st o).field 16 8 = (if o = 0 then 0 else if o = 3 then st.field 16 8 else min 255 (st.field 16 8 + 1)) := by
  have below (x : Word) (lo v lo' w' : Nat) (h : lo + 8 ≤ 32) (hl : lo' + w' ≤ lo) : (x.setField lo 8 v).field lo' w' = x.field lo' w' :=
    Word.field_setField_below x lo 8 v lo' w' h hl
  have above (x : Word) (lo w v lo' w' : Nat) (h : lo + w ≤ 32) (hl : lo + w ≤ lo') : (x.setField lo w v).field lo' w' = x.field lo' w' :=
    Word.field_setField_above x lo w v lo' w' h hl
  interval_cases o <;>
    simp [outcomeStatus, below, above, Word.field_setField, Word.field_setField_below _ 4 2 _ 0 3]

/-- The places of the registers that an outcome writes, in the block of their partition. -/
theorem Reg.outcome_places (p : Nat) :
    Reg.PART_STEP_LO p = Reg.PART_BEAT_STATUS p + 4 ∧ Reg.PART_STEP_HI p = Reg.PART_BEAT_STATUS p + 8 ∧
    Reg.PART_COMMIT_COUNT p = Reg.PART_BEAT_STATUS p + 0x1C ∧ Reg.PART_SLIP_COUNT p = Reg.PART_BEAT_STATUS p + 0x20 ∧
    Reg.PART_GAP_COUNT p = Reg.PART_BEAT_STATUS p + 0x24 := ⟨rfl, rfl, rfl, rfl, rfl⟩

/-- The status after an outcome. -/
theorem State.outcomeCount_status (s : State) (p : Nat) {o : Nat} (ho : o < 4) :
    (s.outcomeCount p o).rd (Reg.PART_BEAT_STATUS p) = outcomeStatus (s.rd (Reg.PART_BEAT_STATUS p)) o := by
  obtain ⟨h1, h2, h3, h4, h5⟩ := Reg.outcome_places p
  interval_cases o <;> simp [State.outcomeCount, outcomeStatus, State.fld, State.rd_wr2, h1, h2, h3, h4, h5]

/-- The step after an outcome: a COMMIT raises it (R35). -/
theorem State.outcomeCount_step (s : State) (p : Nat) {o : Nat} (ho : o < 4) :
    (s.outcomeCount p o).step48 p = if o = 0 then (s.step48 p + 1) % 2 ^ 48 else s.step48 p := by
  obtain ⟨h1, h2, h3, h4, h5⟩ := Reg.outcome_places p
  interval_cases o
  · simp [State.outcomeCount, State.step48, State.rd2, State.rd_wr2, h1, h2, h3]
    omega
  all_goals simp [State.outcomeCount, State.step48, State.rd2, h1, h2, h4, h5]

/-- The counts after an outcome: each outcome but FAULT raises its own. -/
theorem State.outcomeCount_counts (s : State) (p : Nat) {o : Nat} (ho : o < 4) :
    let t := s.outcomeCount p o
    t.rd (Reg.PART_COMMIT_COUNT p) = s.rd (Reg.PART_COMMIT_COUNT p) + (if o = 0 then 1 else 0) ∧
    t.rd (Reg.PART_SLIP_COUNT p) = s.rd (Reg.PART_SLIP_COUNT p) + (if o = 1 then 1 else 0) ∧
    t.rd (Reg.PART_GAP_COUNT p) = s.rd (Reg.PART_GAP_COUNT p) + (if o = 2 then 1 else 0) := by
  obtain ⟨h1, h2, h3, h4, h5⟩ := Reg.outcome_places p
  interval_cases o <;> simp [State.outcomeCount, State.rd_wr2, h1, h2, h3, h4, h5]

/-- An outcome writes nothing but the status, the step and the counts. -/
theorem State.outcomeCount_regs (s : State) (p : Nat) {o : Nat} (ho : o < 4) :
    RegsSameBut s (s.outcomeCount p o) [Reg.PART_BEAT_STATUS p, Reg.PART_STEP_LO p, Reg.PART_STEP_HI p, Reg.PART_COMMIT_COUNT p,
      Reg.PART_SLIP_COUNT p, Reg.PART_GAP_COUNT p] := by
  intro a ha
  simp only [List.mem_cons, List.not_mem_nil, or_false, not_or, ← ne_eq] at ha
  obtain ⟨h1, h2, h3, h4, h5, h6⟩ := ha
  interval_cases o <;>
    simp only [State.outcomeCount, State.rd_wr2, State.rd_setFld, State.rd_addReg, h1.symm, h2.symm, h3.symm, h4.symm, h5.symm,
      h6.symm, if_false]

/-- Settles O23: the order of R39 by its definition, and the counts by what an outcome writes. -/
theorem outcomesCountAsTheyShould : Obligations.OutcomesCountAsTheyShould := by
  refine ⟨fun _ _ => rfl, fun _ => rfl, rfl, rfl, fun s p o _ ho => ?_⟩
  obtain ⟨hstate, hout, hslips, hattempt⟩ := outcomeStatus_fields (s.rd (Reg.PART_BEAT_STATUS p)) ho
  obtain ⟨hc, hs, hg⟩ := s.outcomeCount_counts p ho
  rw [← s.outcomeCount_status p ho] at hstate hout hslips hattempt
  exact ⟨hout, hstate, s.outcomeCount_step p ho, hc, hs, hg, hslips, hattempt, s.outcomeCount_regs p ho⟩

end Sys2Proof.Machine
end

section
/-! Append regions (R44). -/
namespace Sys2Proof.Machine
open Sys2Proof.Safety

/-- The registers of a region lie at different places. -/
theorem Reg.append_places (t i : Nat) :
    Reg.SEQ_APP_LIMIT t i = Reg.SEQ_APP_BASE t i + 4 ∧ Reg.SEQ_APP_PTR t i = Reg.SEQ_APP_BASE t i + 8 ∧
    Reg.SEQ_APP_CTRL t i = Reg.SEQ_APP_BASE t i + 0xC ∧ Reg.SEQ_APP_BASE t i = 0x10000000 + t * 0x10000 + 0x1800 + i * 0x10 := by
  simp only [Reg.SEQ_APP_LIMIT, Reg.SEQ_APP_PTR, Reg.SEQ_APP_CTRL, Reg.SEQ_APP_BASE, Reg.tileBase]
  exact ⟨by omega, by omega, by omega, trivial⟩

/-- A region that is not both enabled and pending stays. -/
theorem State.appendAdvance_idle (s : State) (t i : Nat)
    (h : (s.rd (Reg.SEQ_APP_CTRL t i)).bit 30 = false ∨ (s.rd (Reg.SEQ_APP_CTRL t i)).bit 31 = false) : s.appendAdvance t i = s := by
  rw [State.appendAdvance]
  exact if_neg (by rcases h with h | h <;> simp [h])

/-- Where the pointer of a region goes, and whether it passes its restart. -/
theorem State.appendAdvance_eq (s : State) (t i : Nat) (h30 : (s.rd (Reg.SEQ_APP_CTRL t i)).bit 30 = true)
    (h31 : (s.rd (Reg.SEQ_APP_CTRL t i)).bit 31 = true) :
    let q := s.fld (Reg.SEQ_APP_PTR t i) 0 23 + (s.rd (Reg.SEQ_APP_CTRL t i)).field 0 16
    let limit := s.fld (Reg.SEQ_APP_LIMIT t i) 0 23
    (q < limit → s.appendAdvance t i = s.setFld (Reg.SEQ_APP_PTR t i) 0 23 q) ∧
    (limit ≤ q → s.appendAdvance t i = (s.setFld (Reg.SEQ_APP_PTR t i) 0 23 (s.fld (Reg.SEQ_APP_BASE t i) 0 23 + (q - limit))).setBit
      (Reg.SEQ_APP_CTRL t i) 29 true) := by
  intro q limit
  have h : s.appendAdvance t i = if q < limit then _ else _ := if_pos (by rw [h30, h31]; rfl)
  exact ⟨fun hq => h.trans (if_pos hq), fun hq => h.trans (if_neg (by omega))⟩

/-- An advance writes the pointer and the control register of its region alone. -/
theorem State.appendAdvance_regs (s : State) (t i : Nat) : RegsSameBut s (s.appendAdvance t i) [Reg.SEQ_APP_PTR t i, Reg.SEQ_APP_CTRL t i] := by
  intro a ha
  obtain ⟨hp, hc⟩ : a ≠ Reg.SEQ_APP_PTR t i ∧ a ≠ Reg.SEQ_APP_CTRL t i := by simpa using ha
  simp only [State.appendAdvance]
  split_ifs
  · rw [State.rd_setFld, if_neg hp.symm]
  · rw [State.rd_setBit, if_neg hc.symm, State.rd_setFld, if_neg hp.symm]
  · rfl

/-- The pointer of a region after an advance. -/
theorem State.appendAdvance_ptr (s : State) (t i : Nat) (h30 : (s.rd (Reg.SEQ_APP_CTRL t i)).bit 30 = true)
    (h31 : (s.rd (Reg.SEQ_APP_CTRL t i)).bit 31 = true) :
    let q := s.fld (Reg.SEQ_APP_PTR t i) 0 23 + (s.rd (Reg.SEQ_APP_CTRL t i)).field 0 16
    let limit := s.fld (Reg.SEQ_APP_LIMIT t i) 0 23
    (s.appendAdvance t i).fld (Reg.SEQ_APP_PTR t i) 0 23 =
      if q < limit then q else (s.fld (Reg.SEQ_APP_BASE t i) 0 23 + (q - limit)) % 2 ^ 23 := by
  intro q limit
  obtain ⟨hin, hover⟩ := s.appendAdvance_eq t i h30 h31
  obtain ⟨-, hptr, hctrl, -⟩ := Reg.append_places t i
  split_ifs with hq
  · have := s.fld_lt (Reg.SEQ_APP_LIMIT t i) 0 23
    rw [hin hq, State.fld_setFld_self _ _ _ (by decide)]
    exact Nat.mod_eq_of_lt (by omega)
  · rw [hover (by omega), State.fld_of_rd (State.rd_setBit _ _ _ _ _ ▸ if_neg (by omega)), State.fld_setFld_self _ _ _ (by decide)]

/-- Bits 31 of some registers are cleared one by one: what a register's bits are afterwards. -/
theorem State.foldl_setBit31 (l : List (Nat × Word)) (s : State) (a b : Nat) :
    (l.foldl (fun s e => s.setBit e.1 31 false) s).bit a b = (s.bit a b && !(b == 31 && l.any (fun e => e.1 == a))) := by
  induction l generalizing s with
  | nil => simp
  | cons e r ih =>
    rw [List.foldl_cons, ih]
    by_cases he : e.1 = a
    · subst he
      by_cases hb : b = 31
      · subst hb; simp [State.bit_setBit_self]
      · rw [State.bit_setBit_other _ _ _ (by decide) (Ne.symm hb), beq_false_of_ne hb]; rfl
    · rw [State.bit_of_rd (State.rd_setBit _ _ _ _ _ ▸ if_neg he), List.any_cons, beq_false_of_ne he]; rfl

/-- The control register of a region, as a milestone's clearing looks at it. -/
theorem pendingReg_append {t i : Nat} (ht : t < 128) (hi : i < 128) {v : Word} (hv : v.bit 31 = true) :
    pendingReg (Reg.SEQ_APP_CTRL t i) v = true ∧ (Reg.SEQ_APP_CTRL t i - 0x10000000) / 0x10000 = t := by
  obtain ⟨-, -, hctrl, hbase⟩ := Reg.append_places t i
  rw [hctrl, hbase]
  refine ⟨?_, by omega⟩
  simp only [pendingReg, hv, Bool.and_eq_true, decide_eq_true_eq, beq_iff_eq]
  exact ⟨⟨⟨⟨⟨trivial, by omega⟩, by omega⟩, by omega⟩, by omega⟩, by omega⟩

/-- After reset no region is pending. -/
theorem Reg.resetOf_SEQ_APP_CTRL {t i : Nat} (ht : t < 128) (hi : i < 128) : Reg.resetOf (Reg.SEQ_APP_CTRL t i) = 0 := by
  have hr : ∀ i < 128, RegMap.tile.rowAt (0x180C + i * 0x10) = some ⟨0x180C, 128, 0x10, 0x0, 0x4000FFFF, 0x20000000, 0x80000000, 0x0, 0x0⟩ := by
    decide +kernel
  have h := Reg.resetOf_copy (b := RegMap.tile) (i := t) (by decide) (show t < 144 by omega)
    (show 0x180C + i * 0x10 < 0x10000 by omega) (hr i hi)
  refine (congrArg Reg.resetOf ?_).trans (h.trans ?_)
  · simp only [Reg.SEQ_APP_CTRL, Reg.tileBase, RegMap.tile]; omega
  · have hbase : RegMap.tile.base = 0x10000000 := rfl
    have hstride : RegMap.tile.stride = 0x10000 := rfl
    have hdelay : Reg.TIME_MS_TREE_DELAY = 0x7000012C := rfl
    rw [hbase, hstride, hdelay, if_neg (by omega), if_neg (by omega), if_neg (by omega), if_neg (by omega), if_neg (by omega),
      if_neg (by omega)]

/-- Clearing a tile's requests leaves none of its regions pending, and every other bit as it was (R44). -/
theorem State.clearPending_append (s : State) {t i : Nat} (ht : t < 128) (hi : i < 128) :
    (s.clearPending (fun k => k == t)).bit (Reg.SEQ_APP_CTRL t i) 31 = false ∧
    ∀ b, b ≠ 31 → (s.clearPending (fun k => k == t)).bit (Reg.SEQ_APP_CTRL t i) b = s.bit (Reg.SEQ_APP_CTRL t i) b := by
  simp only [State.clearPending, State.foldl_setBit31]
  refine ⟨?_, fun b hb => by simp [hb]⟩
  cases hv : s.bit (Reg.SEQ_APP_CTRL t i) 31 with
  | false => rfl
  | true =>
    cases hf : SMap.find s.regs (Reg.SEQ_APP_CTRL t i) with
    | none =>
      rw [State.bit, State.rd, SMap.get, hf, Reg.resetOf_SEQ_APP_CTRL ht hi] at hv
      cases hv
    | some v =>
      replace hv : v.bit 31 = true := by rwa [State.bit, State.rd, SMap.get, hf] at hv
      obtain ⟨hp, hk⟩ := pendingReg_append ht hi hv
      have hmem : (Reg.SEQ_APP_CTRL t i, v) ∈ s.regs.filter (fun e => pendingReg e.1 e.2 && (e.1 - 0x10000000) / 0x10000 == t) :=
        List.mem_filter.mpr ⟨SMap.mem_of_find hf, by simp [hp, hk]⟩
      rw [List.any_eq_true.mpr ⟨_, hmem, beq_self_eq_true (Reg.SEQ_APP_CTRL t i)⟩]; rfl

/-- Settles O24: by where the pointer goes, and by what the clearing does to each bit. -/
theorem appendRegionsAdvance : Obligations.AppendRegionsAdvance := by
  intro s t i ht hi c q base limit u
  obtain ⟨-, hptr, hctrl, -⟩ := Reg.append_places t i
  obtain ⟨hclear, hkeep⟩ := s.clearPending_append ht hi
  refine ⟨fun h30 h31 hq => ?_, fun h30 h31 hq hb => ?_, fun h30 h31 hstep hlow => ?_, s.appendAdvance_idle t i,
    s.appendAdvance_regs t i, hclear, fun b hb => hkeep b (by omega)⟩
  · have hin := (s.appendAdvance_eq t i h30 h31).1 hq
    exact ⟨(s.appendAdvance_ptr t i h30 h31).trans (if_pos hq), by
      rw [show u = _ from hin, State.rd_setFld, if_neg (by omega)]⟩
  · have hover := (s.appendAdvance_eq t i h30 h31).2 hq
    refine ⟨(s.appendAdvance_ptr t i h30 h31).trans ((if_neg (Nat.not_lt.mpr hq)).trans (Nat.mod_eq_of_lt hb)), ?_⟩
    rw [show u = _ from hover, State.bit_setBit_self _ _ _ (by decide)]
  · have hover (ptr step base limit : Nat) (h : step < limit - base) (hl : ptr < limit) : base + (ptr + step - limit) < limit := by omega
    rw [show u.fld (Reg.SEQ_APP_PTR t i) 0 23 = _ from s.appendAdvance_ptr t i h30 h31]
    split_ifs with hin
    · exact hin
    · exact lt_of_le_of_lt (Nat.mod_le _ _) (hover _ _ _ _ hstep hlow)

end Sys2Proof.Machine
end

section
/-! The issue of an entry on a quiet tile (R129): what the issue itself leaves, and what follows the entry's effect. -/
namespace Sys2Proof.Machine
open Sys2Proof.Safety

/-- Nothing that an advance would carry on is under way in a tile. -/
def Tile.Resting (x : Tile) : Prop :=
  x.evs = [] ∧ x.flights = [] ∧ x.mvu.ops = [] ∧ x.arr0.mmas = [] ∧ x.arr1.mmas = [] ∧ x.se.aborts = []

/-- What an advance of a resting tile leaves. -/
def State.settledAt (u : State) (t h : Nat) : State := ((u.setHs t h).veuStatus t).tileBusy t

/-- An advance of a resting tile shows the handshake and the busy bits. -/
theorem State.advanceTo_resting {u : State} {t : Nat} (h : (u.tile t).Resting) (I : Nat) : u.advanceTo t I = u.settledAt t I := by
  obtain ⟨hev, hfl, hop, h0, h1, hab⟩ := h
  exact State.advanceTo_calm u t I (State.runEvents_nil _ _ _ _ hev) hfl hop h0 h1 hab

/-- The registers that show the time of a tile. -/
theorem State.settledAt_rd (u : State) (t h : Nat) {a : Nat} (ha : a ∉ [Reg.SEQ_HS t, Reg.VEU_STATUS t, Reg.TILE_STATUS t]) :
    (u.settledAt t h).rd a = u.rd a := by
  simp only [List.mem_cons, List.not_mem_nil, or_false, not_or] at ha
  obtain ⟨hhs, hveu, htile⟩ := ha
  simp only [State.settledAt, State.tileBusy, State.veuStatus, State.setHs, State.rd_setFld, State.rd_wr, Ne.symm hhs, Ne.symm hveu,
    Ne.symm htile, if_false]

/-- The busy bits leave the handshake number alone. -/
theorem State.settledAt_rd_hs (u : State) (t h : Nat) : (u.settledAt t h).rd (Reg.SEQ_HS t) = (u.setHs t h).rd (Reg.SEQ_HS t) := by
  have hplaces : Reg.TILE_STATUS t ≠ Reg.SEQ_HS t ∧ Reg.VEU_STATUS t ≠ Reg.SEQ_HS t := by
    simp [Reg.TILE_STATUS, Reg.SEQ_HS, Reg.VEU_STATUS]
  simp only [State.settledAt, State.tileBusy, State.veuStatus, State.rd_setFld, State.rd_wr, hplaces.1, hplaces.2, if_false]

/-- The handshake that is shown. -/
theorem State.settledAt_hs (u : State) (t : Nat) {h : Nat} (hh : h < 2 ^ 20) : (u.settledAt t h).hs t = h := by
  rw [State.hs, State.fld_of_rd (u.settledAt_rd_hs t h), State.setHs, State.fld_setFld_self _ _ _ (by decide)]
  omega

/-- The state in which an entry's index is shown. -/
def State.issuing (s : State) (t : Nat) : State := (s.settledAt t (slotOf s t)).setFld (Reg.SEQ_STATUS t) 0 12 (s.tile t).nextK

/-- The registers that follow every issue are shown before the sequencer moves on. -/
theorem State.issuing_rd (s : State) (t : Nat) {a : Nat} (ha : a ∉ issueRegs t) : (s.issuing t).rd a = s.rd a := by
  simp only [issueRegs, List.mem_cons, List.not_mem_nil, or_false, not_or] at ha
  obtain ⟨hhs, hstatus, hveu, htile⟩ := ha
  rw [State.issuing, State.rd_setFld, if_neg (Ne.symm hstatus), State.settledAt_rd]
  simp [hhs, hveu, htile]

/-- Whether an entry is the last of its variant depends on the registers that name the variant. -/
theorem State.lastEntry_congr {s u : State} {t : Nat} (hb : u.rd (Reg.SEQ_BEAT_STATUS t) = s.rd (Reg.SEQ_BEAT_STATUS t))
    (hv : ∀ v < 8, u.rd (Reg.SEQ_VAR t v) = s.rd (Reg.SEQ_VAR t v)) (k : Nat) : u.lastEntry t k = s.lastEntry t k := by
  have hw : u.rd (Reg.SEQ_VAR t (s.variant t)) = s.rd (Reg.SEQ_VAR t (s.variant t)) := hv _ (s.fld_lt (Reg.SEQ_BEAT_STATUS t) 8 3)
  rw [State.lastEntry, State.variant, State.fld_of_rd hb]
  exact congrArg (fun v : Word => (k + 4096 - v.field 0 12) % 4096 == v.field 16 12) hw

/-- The registers that name the variant are not among those that an issue shows. -/
theorem notMem_issueRegs {t a : Nat} (h : a = Reg.SEQ_BEAT_STATUS t ∨ ∃ v < 8, a = Reg.SEQ_VAR t v) : a ∉ issueRegs t := by
  have hplaces : Reg.SEQ_HS t = Reg.tileBase t + 0x1004 ∧ Reg.SEQ_STATUS t = Reg.tileBase t + 0x1000 ∧
    Reg.VEU_STATUS t = Reg.tileBase t + 0x7004 ∧ Reg.TILE_STATUS t = Reg.tileBase t + 0xC ∧
    Reg.SEQ_BEAT_STATUS t = Reg.tileBase t + 0x1100 ∧
    ∀ v, Reg.SEQ_VAR t v = Reg.tileBase t + 0x1020 + v * 4 := ⟨rfl, rfl, rfl, rfl, rfl, fun _ => rfl⟩
  obtain ⟨hhs, hst, hveu, htile, hbeat, hvar⟩ := hplaces
  simp only [issueRegs, hhs, hst, hveu, htile, List.mem_cons, List.not_mem_nil, or_false, not_or]
  obtain rfl | ⟨v, hv, rfl⟩ := h
  · rw [hbeat]; exact ⟨by omega, by omega, by omega, by omega⟩
  · rw [hvar]; exact ⟨by omega, by omega, by omega, by omega⟩

/-- Whether an entry is the last of its variant does not depend on what an issue shows, nor on the record of the tile. -/
theorem State.issuing_lastEntry (s : State) (t k : Nat) (x : Tile) : ((s.issuing t).setTile t x).lastEntry t k = s.lastEntry t k := by
  refine State.lastEntry_congr ?_ (fun v hv => ?_) k
  · rw [State.setTile_rd, s.issuing_rd t (notMem_issueRegs (.inl rfl))]
  · rw [State.setTile_rd, s.issuing_rd t (notMem_issueRegs (.inr ⟨v, hv, rfl⟩))]

/-- A tile's record that is replaced twice. -/
theorem State.setTile_setTile (s : State) (t : Nat) (x y : Tile) : (s.setTile t x).setTile t y = s.setTile t y :=
  congrArg (fun m => { s with tiles := m }) (SMap.set_set _ _ _ _)

/-- How the sequencer moves on from an entry that it has shown. -/
theorem issued_eq (s : State) (t hold : Nat) :
    issued s t hold = (s.issuing t).setTile t { s.tile t with
      order := (s.tile t).order + 1, nextHs := slotOf s t + hold, nextK := ((s.tile t).nextK + 1) % 4096,
      overrunAt := if s.lastEntry t (s.tile t).nextK then some (slotOf s t + hold) else none } := by
  have hi : issued s t hold =
      ((s.issuing t).setTile t { (s.issuing t).tile t with order := ((s.issuing t).tile t).order + 1 }).seqNext t (s.tile t).nextK
        (slotOf s t + hold) := rfl
  have htile : (s.issuing t).tile t = s.tile t := rfl
  rw [hi, htile, State.seqNext, State.issuing_lastEntry, State.tile_setTile, if_pos rfl, State.setTile_setTile]

/-- The record of a quiet tile in which an entry takes its effect. -/
theorem issued_tile (s : State) (t hold : Nat) :
    (issued s t hold).tile t = { s.tile t with
      order := (s.tile t).order + 1, nextHs := slotOf s t + hold, nextK := ((s.tile t).nextK + 1) % 4096,
      overrunAt := if s.lastEntry t (s.tile t).nextK then some (slotOf s t + hold) else none } := by
  rw [issued_eq, State.tile_setTile, if_pos rfl]

/-- The issue itself changes the registers that follow every issue, and the record of the tile. -/
theorem issued_only (s : State) (t hold : Nat) : OnlyTile s (issued s t hold) t ∧ RegsSameBut s (issued s t hold) (issueRegs t) := by
  rw [issued_eq]
  refine ⟨⟨rfl, fun k hk => ?_⟩, fun a ha => s.issuing_rd t ha⟩
  rw [State.tile_setTile, if_neg (Ne.symm hk)]; rfl

/-- The issue shows the index of the entry. -/
theorem issued_index {s : State} {t : Nat} (h : (s.tile t).nextK < 4096) (hold : Nat) :
    (issued s t hold).fld (Reg.SEQ_STATUS t) 0 12 = (s.tile t).nextK := by
  have hshown := State.fld_setFld_self (s.settledAt t (slotOf s t)) (Reg.SEQ_STATUS t) (lo := 0) (w := 12) (s.tile t).nextK (by decide)
  rw [issued_eq, State.fld_of_rd (State.setTile_rd _ _ _ _), State.issuing, hshown]
  omega

/-- A quiet tile rests where an entry takes its effect. -/
theorem issued_resting {s : State} {t : Nat} (q : Quiet s t) (hold : Nat) : ((issued s t hold).tile t).Resting := by
  obtain ⟨⟨_, _, _, _, _, _, hab, _, _⟩, hev, hfl, hop, h0, h1⟩ := q
  rw [issued_tile]
  exact ⟨hev, hfl, hop, h0, h1, hab⟩

/-- The slot of an entry lies in the range of `SEQ_HS`. -/
theorem slotOf_lt {s : State} {t : Nat} (q : Quiet s t) : slotOf s t < 2 ^ 20 := by
  obtain ⟨⟨_, _, _, _, _, _, _, hnext, _⟩, _⟩ := q
  have := s.fld_lt (Reg.SEQ_HS t) 0 20
  exact max_lt hnext this

/-- What an entry of a quiet tile comes to: its effect, where the tile rests afterwards, and the time that is shown. -/
theorem State.issueEntry_resting {s : State} {t : Nat} (q : Quiet s t) (hold : Nat) {body : State → Nat → Nat → Nat → State} {u : State}
    (hu : body (issued s t hold) (slotOf s t) (s.tile t).nextK (s.tile t).order = u) (hr : (u.tile t).Resting) :
    s.issueEntry t hold body = u.settledAt t (slotOf s t) := by
  rw [State.issueEntry_quiet q, hu, State.advanceTo_resting hr]

/-- An effect that stays within the tile and some registers, seen from the state before the issue. -/
theorem issued_frame {s u : State} {t hold : Nat} {l : List Nat} (ho : OnlyTile (issued s t hold) u t)
    (hl : RegsSameBut (issued s t hold) u l) (I : Nat) :
    OnlyTile s (u.settledAt t I) t ∧ RegsSameBut s (u.settledAt t I) (issueRegs t ++ l) := by
  obtain ⟨⟨hu, htile⟩, ⟨hi, hitile⟩, hireg⟩ := And.intro ho (issued_only s t hold)
  refine ⟨⟨?_, fun k hk => (htile k hk).trans (hitile k hk)⟩, fun a ha => ?_⟩
  · rw [State.settledAt, State.tileBusy, State.veuStatus, State.setHs, hu, hi]; rfl
  · simp only [List.mem_append, not_or] at ha
    have hshown : a ∉ [Reg.SEQ_HS t, Reg.VEU_STATUS t, Reg.TILE_STATUS t] := by
      have := ha.1
      simp only [issueRegs, List.mem_cons, List.not_mem_nil, or_false, not_or] at this ⊢
      exact ⟨this.1, this.2.2.1, this.2.2.2⟩
    rw [State.settledAt_rd _ _ _ hshown, hl a ha.2, hireg a ha.1]

/-- An effect that leaves the sequencer's place has issued its entry. -/
theorem issued_of_place {s u : State} {t hold : Nat} (q : Quiet s t)
    (hs : u.rd (Reg.SEQ_STATUS t) = (issued s t hold).rd (Reg.SEQ_STATUS t))
    (hn : (u.tile t).nextHs = ((issued s t hold).tile t).nextHs) (hk : (u.tile t).nextK = ((issued s t hold).tile t).nextK)
    (ho : (u.tile t).overrunAt = ((issued s t hold).tile t).overrunAt) : Issued s (u.settledAt t (slotOf s t)) t hold := by
  have hindex : (s.tile t).nextK < 4096 := by obtain ⟨⟨_, _, _, _, _, _, _, _, hk, _⟩, _⟩ := q; exact hk
  have hst : (u.settledAt t (slotOf s t)).rd (Reg.SEQ_STATUS t) = (issued s t hold).rd (Reg.SEQ_STATUS t) :=
    (State.settledAt_rd _ _ _ (by simp [Reg.SEQ_STATUS, Reg.SEQ_HS, Reg.VEU_STATUS, Reg.TILE_STATUS])).trans hs
  rw [issued_tile] at hn hk ho
  exact ⟨State.settledAt_hs _ _ (slotOf_lt q), (State.fld_of_rd hst 0 12).trans (issued_index hindex hold), hn, hk, ho⟩

end Sys2Proof.Machine
end

section
/-! The control entries (R44, R128, R129, R132 to R134): NOP, APPADV, TCGO, TCEV and END. -/
namespace Sys2Proof.Machine
open Sys2Proof.Safety

/-- A record of a tile that is fatal to its partition at most leaves the tiles, the memories and every register outside the log. -/
theorem State.logTile_frame (s : State) (t code : Nat) {sev : Nat} (detail : List Byte) (h : sev ≠ sevDevice) :
    let u := s.logTile t code sev detail
    u.tiles = s.tiles ∧ u.store = s.store ∧ u.dram = s.dram ∧ ∀ a, a ∉ logRegs → u.rd a = s.rd a := by
  obtain ⟨honly, -⟩ := s.logRec_only 0 t code sev (s.tilePart t) detail
  obtain ⟨hrd, -⟩ := s.logRec_below_device 0 t code (s.tilePart t) detail h
  dsimp only [State.logTile]
  exact ⟨by rw [honly], by rw [honly], by rw [honly], hrd⟩

/-- The registers of a tile are not those of the log. -/
theorem notMem_logRegs_tile {t a : Nat} (ht : t < 128) (ha : a < Reg.tileBase t + 0x10000) : a ∉ logRegs := by
  have hbase : Reg.tileBase t = 0x10000000 + t * 0x10000 := rfl
  exact notMem_logRegs (by omega)

/-- The fault line of a tile's partition rises (R41). -/
def State.raiseLine (s : State) (t : Nat) : State :=
  match s.tilePart t with
  | some p => s.raiseFault p
  | none => s

/-- A fault line changes the partitions alone. -/
theorem State.raiseLine_frame (s : State) (t : Nat) :
    (s.raiseLine t).regs = s.regs ∧ (s.raiseLine t).tiles = s.tiles ∧ (s.raiseLine t).store = s.store ∧
      (s.raiseLine t).dram = s.dram := by
  unfold State.raiseLine
  split
  · unfold State.raiseFault State.updPart
    split <;> exact ⟨rfl, rfl, rfl, rfl⟩
  · exact ⟨rfl, rfl, rfl, rfl⟩

/-- The registers that a slot clash loads (R132). -/
def State.clashRegs (s : State) (t cause first second h : Nat) : State :=
  (if s.bit (Reg.SEQ_CLASH t) 0 then s
    else (s.wr (Reg.SEQ_CLASH t) (BitVec.ofNat 32 (1 + cause * 2 + h * 16))).wr
      (Reg.SEQ_CLASH_ENTRY t) (BitVec.ofNat 32 (first + second * 65536))).setBit (Reg.TILE_FAULT t) 3 true

/-- A slot clash loads its registers, raises the fault line, and is recorded once. -/
theorem State.slotClash_eq (s : State) (t cause first second h : Nat) :
    ∃ detail, s.slotClash t cause first second h =
      let v := (s.clashRegs t cause first second h).raiseLine t
      if (v.tile t).clashLogged then v else (v.setTile t { v.tile t with clashLogged := true }).logTile t 0x0101 sevPartition detail :=
  ⟨_, rfl⟩

/-- Whether a clash is recorded depends on its registers alone. -/
theorem Clashed.congr {s u s' u' : State} {t cause first second h : Nat} (hc : Clashed s u t cause first second h)
    (hs : s'.rd (Reg.SEQ_CLASH t) = s.rd (Reg.SEQ_CLASH t)) (hse : s'.rd (Reg.SEQ_CLASH_ENTRY t) = s.rd (Reg.SEQ_CLASH_ENTRY t))
    (hu : ∀ a, a = Reg.SEQ_CLASH t ∨ a = Reg.SEQ_CLASH_ENTRY t ∨ a = Reg.TILE_FAULT t → u'.rd a = u.rd a) :
    Clashed s' u' t cause first second h := by
  have h1 := hu _ (.inl rfl)
  have h2 := hu _ (.inr (.inl rfl))
  have h3 := hu _ (.inr (.inr rfl))
  simpa only [Clashed, State.bit, State.fld, hs, hse, h1, h2, h3] using hc

/-- Beside its registers, a slot clash changes the log, the partitions and the mark that it was recorded. -/
theorem State.slotClash_frame (s : State) (t cause first second h : Nat) :
    let u := s.slotClash t cause first second h
    (∀ a, a ∉ logRegs → u.rd a = (s.clashRegs t cause first second h).rd a) ∧ BytesSame s u ∧
      u.tile t = { s.tile t with clashLogged := true } := by
  obtain ⟨detail, hu⟩ := s.slotClash_eq t cause first second h
  have hkept : (s.clashRegs t cause first second h).store = s.store ∧ (s.clashRegs t cause first second h).dram = s.dram ∧
      (s.clashRegs t cause first second h).tiles = s.tiles := by
    unfold State.clashRegs; split <;> exact ⟨rfl, rfl, rfl⟩
  obtain ⟨hstore, hdram, htiles⟩ := hkept
  obtain ⟨hvregs, hvtiles, hvstore, hvdram⟩ := (s.clashRegs t cause first second h).raiseLine_frame t
  generalize (s.clashRegs t cause first second h).raiseLine t = v at hu hvregs hvtiles hvstore hvdram
  have htile : v.tile t = s.tile t := by rw [State.tile, hvtiles, htiles]; rfl
  have hrd (a : Nat) : v.rd a = (s.clashRegs t cause first second h).rd a := by rw [State.rd, hvregs]; rfl
  dsimp only at hu ⊢
  rw [htile] at hu
  rw [hu]
  split_ifs with hlogged
  · refine ⟨fun a _ => hrd a, ⟨fun a => by rw [hvstore, hstore], fun a => by rw [hvdram, hdram]⟩, ?_⟩
    rw [htile, ← hlogged]
  · obtain ⟨ht, hs, hd, hr⟩ := State.logTile_frame (v.setTile t { s.tile t with clashLogged := true }) t 0x0101 detail
      (show sevPartition ≠ sevDevice by decide)
    refine ⟨fun a ha => (hr a ha).trans (hrd a), ⟨fun a => ?_, fun a => ?_⟩, ?_⟩
    · rw [hs, ← hstore, ← hvstore]; rfl
    · rw [hd, ← hdram, ← hvdram]; rfl
    · rw [State.tile, ht]
      exact (State.tile_setTile _ t t _).trans (if_pos rfl)

/-- What the registers of a first clash show, and what those of a later one keep (R132). -/
theorem State.clashRegs_shown (s : State) (t : Nat) {cause first second h : Nat} (hc : cause < 4) (hf : first < 4096)
    (hs : second < 4096) (hh : h < 2 ^ 20) : Clashed s (s.clashRegs t cause first second h) t cause first second h := by
  have hce : Reg.SEQ_CLASH t ≠ Reg.SEQ_CLASH_ENTRY t ∧ Reg.TILE_FAULT t ≠ Reg.SEQ_CLASH t ∧ Reg.TILE_FAULT t ≠ Reg.SEQ_CLASH_ENTRY t := by
    simp [Reg.SEQ_CLASH, Reg.SEQ_CLASH_ENTRY, Reg.TILE_FAULT]
  obtain ⟨hce, hfc, hfe⟩ := hce
  refine ⟨State.bit_setBit_self _ _ _ (by decide), ?_, fun h0 => ?_, fun h1 => ?_⟩
  · cases h0 : s.bit (Reg.SEQ_CLASH t) 0 with
    | true =>
      rw [State.clashRegs, h0, if_pos rfl, State.bit_of_rd (State.rd_setBit _ _ _ _ _ ▸ if_neg hfc), h0]
    | false =>
      have hrd : (s.clashRegs t cause first second h).rd (Reg.SEQ_CLASH t) = BitVec.ofNat 32 (1 + cause * 2 + h * 16) := by
        simp [State.clashRegs, h0, State.rd_wr, hce.symm, hfc]
      rw [State.bit, hrd, Word.bit_eq_field, Word.field, BitVec.toNat_ofNat, decide_eq_true_eq]
      omega
  · have hrd : (s.clashRegs t cause first second h).rd (Reg.SEQ_CLASH t) = BitVec.ofNat 32 (1 + cause * 2 + h * 16) ∧
        (s.clashRegs t cause first second h).rd (Reg.SEQ_CLASH_ENTRY t) = BitVec.ofNat 32 (first + second * 65536) := by
      simp [State.clashRegs, h0, State.rd_wr, hce.symm, hfc, hfe]
    simp only [State.fld, hrd.1, hrd.2, Word.field, BitVec.toNat_ofNat]
    exact ⟨by omega, by omega, by omega, by omega⟩
  · simp [State.clashRegs, h1, hfc, hfe]

/-- A state differs from itself in nothing. -/
theorem OnlyTile.refl (s : State) (t : Nat) : OnlyTile s s t := ⟨rfl, fun _ _ => rfl⟩

/-- NOP holds the sequencer and has no effect of its own. -/
theorem exec_nop {s : State} {t : Nat} (q : Quiet s t) (rep : BitVec 10) :
    ∃ u, exec (.nop t rep) s = .next u ∧ Issued s u t (rep.toNat + 1) ∧ OnlyTile s u t ∧ RegsSameBut s u (issueRegs t) := by
  have h := State.issueEntry_resting q (rep.toNat + 1) (body := fun s _ _ _ => s) rfl (issued_resting q _)
  obtain ⟨honly, hregs⟩ := issued_frame (l := []) (OnlyTile.refl (issued s t (rep.toNat + 1)) t) (fun _ _ => rfl) (slotOf s t)
  rw [List.append_nil] at hregs
  exact ⟨_, congrArg Host.Outcome.next h, issued_of_place q rfl rfl rfl rfl, honly, hregs⟩

/-- The requests of APPADV are set one by one. -/
def State.setPendings (s : State) (t region n : Nat) : State :=
  (List.range n).foldl (fun s i => s.setBit (Reg.SEQ_APP_CTRL t ((region + i) % 128)) 31 true) s

/-- Setting requests changes the registers alone. -/
theorem State.setPendings_only (s : State) (t region n : Nat) :
    s.setPendings t region n = { s with regs := (s.setPendings t region n).regs } := by
  induction n with
  | zero => rfl
  | succ n ih =>
    rw [State.setPendings, List.range_succ, List.foldl_append]
    exact congrArg (fun u : State => u.setBit (Reg.SEQ_APP_CTRL t ((region + n) % 128)) 31 true) ih

/-- Setting requests changes no register of another region. -/
theorem State.setPendings_rd (s : State) (t region n : Nat) {a : Nat} (h : ∀ i < n, a ≠ Reg.SEQ_APP_CTRL t ((region + i) % 128)) :
    (s.setPendings t region n).rd a = s.rd a := by
  induction n with
  | zero => rfl
  | succ n ih =>
    rw [State.setPendings, List.range_succ, List.foldl_append, List.foldl_cons, List.foldl_nil, State.rd_setBit,
      if_neg (h n (Nat.lt_succ_self n)).symm]
    exact ih fun i hi => h i (Nat.lt_succ_of_lt hi)

/-- Setting requests changes no other bit. -/
theorem State.setPendings_bit (s : State) (t region n a : Nat) {b : Nat} (hb : b < 31) :
    (s.setPendings t region n).bit a b = s.bit a b := by
  induction n with
  | zero => rfl
  | succ n ih =>
    rw [State.setPendings, List.range_succ, List.foldl_append, List.foldl_cons, List.foldl_nil]
    by_cases h : Reg.SEQ_APP_CTRL t ((region + n) % 128) = a
    · subst h
      rw [State.bit_setBit_other _ _ _ (by decide) (by omega)]; exact ih
    · rw [State.bit_of_rd (State.rd_setBit _ _ _ _ _ ▸ if_neg h)]; exact ih

/-- Every request that is asked for is set. -/
theorem State.setPendings_set (s : State) (t region : Nat) {n i : Nat} (hi : i < n) :
    (s.setPendings t region n).bit (Reg.SEQ_APP_CTRL t ((region + i) % 128)) 31 = true := by
  induction n with
  | zero => omega
  | succ n ih =>
    rw [State.setPendings, List.range_succ, List.foldl_append, List.foldl_cons, List.foldl_nil]
    by_cases h : Reg.SEQ_APP_CTRL t ((region + n) % 128) = Reg.SEQ_APP_CTRL t ((region + i) % 128)
    · rw [h, State.bit_setBit_self _ _ _ (by decide)]
    · rw [State.bit_of_rd (State.rd_setBit _ _ _ _ _ ▸ if_neg h)]
      exact ih (by by_contra hn; exact h (by rw [show i = n by omega]))

/-- The control registers of regions are not those that follow every issue. -/
theorem append_notMem_issueRegs (t r : Nat) : Reg.SEQ_APP_CTRL t r ∉ issueRegs t ∧ Reg.SEQ_APP_CTRL t r ≠ Reg.SEQ_STATUS t := by
  have hplaces : Reg.SEQ_HS t = Reg.tileBase t + 0x1004 ∧ Reg.SEQ_STATUS t = Reg.tileBase t + 0x1000 ∧
    Reg.VEU_STATUS t = Reg.tileBase t + 0x7004 ∧ Reg.TILE_STATUS t = Reg.tileBase t + 0xC ∧
    Reg.SEQ_APP_CTRL t r = Reg.tileBase t + 0x180C + r * 0x10 := ⟨rfl, rfl, rfl, rfl, rfl⟩
  obtain ⟨hhs, hst, hveu, htile, happ⟩ := hplaces
  simp only [issueRegs, hhs, hst, hveu, htile, happ, List.mem_cons, List.not_mem_nil, or_false, not_or]
  exact ⟨⟨by omega, by omega, by omega, by omega⟩, by omega⟩

/-- Setting requests leaves every tile's record. -/
theorem State.setPendings_tile (s : State) (t region n k : Nat) : (s.setPendings t region n).tile k = s.tile k := by
  rw [State.setPendings_only]; rfl

/-- The registers of two regions differ. -/
theorem Reg.SEQ_APP_CTRL_inj {t i j : Nat} (h : Reg.SEQ_APP_CTRL t i = Reg.SEQ_APP_CTRL t j) : i = j := by
  simp only [Reg.SEQ_APP_CTRL] at h
  omega

/-- What follows every issue leaves the control registers of regions. -/
theorem State.settledAt_append (u : State) (t h r : Nat) :
    (u.settledAt t h).rd (Reg.SEQ_APP_CTRL t r) = u.rd (Reg.SEQ_APP_CTRL t r) := by
  have := (append_notMem_issueRegs t r).1
  simp only [issueRegs, List.mem_cons, List.not_mem_nil, or_false, not_or] at this
  refine State.settledAt_rd _ _ _ ?_
  simp only [List.mem_cons, List.not_mem_nil, or_false, not_or]
  exact ⟨this.1, this.2.2.1, this.2.2.2⟩

/-- APPADV comes to its requests. -/
theorem exec_appadv_eq {s : State} {t : Nat} (q : Quiet s t) (rep : BitVec 10) (region : BitVec 7) :
    exec (.appadv t rep region) s =
      .next (((issued s t 1).setPendings t region.toNat (rep.toNat + 1)).settledAt t (slotOf s t)) :=
  congrArg Host.Outcome.next (State.issueEntry_resting q 1 (body := fun s _ _ _ => s.setPendings t region.toNat (rep.toNat + 1)) rfl
    (by rw [State.setPendings_tile]; exact issued_resting q 1))

/-- APPADV sets its requests and nothing else (R44). -/
theorem exec_appadv {s : State} {t : Nat} (q : Quiet s t) (rep : BitVec 10) (region : BitVec 7) :
    ∃ u, exec (.appadv t rep region) s = .next u ∧ Issued s u t 1 ∧ OnlyTile s u t ∧
      RegsSameBut s u (issueRegs t ++ (List.range 128).map (Reg.SEQ_APP_CTRL t)) ∧
      (∀ i, i ≤ rep.toNat → u.bit (Reg.SEQ_APP_CTRL t ((region.toNat + i) % 128)) 31 = true) ∧
      (∀ r, r < 128 → (∀ i, i ≤ rep.toNat → (region.toNat + i) % 128 ≠ r) →
        u.rd (Reg.SEQ_APP_CTRL t r) = s.rd (Reg.SEQ_APP_CTRL t r)) ∧
      (∀ r b, r < 128 → b < 31 → u.bit (Reg.SEQ_APP_CTRL t r) b = s.bit (Reg.SEQ_APP_CTRL t r) b) := by
  have hbefore (r : Nat) : (issued s t 1).rd (Reg.SEQ_APP_CTRL t r) = s.rd (Reg.SEQ_APP_CTRL t r) :=
    (issued_only s t 1).2 _ (append_notMem_issueRegs t r).1
  have htile (k : Nat) := (issued s t 1).setPendings_tile t region.toNat (rep.toNat + 1) k
  obtain ⟨hframe, hregs⟩ := issued_frame (l := (List.range 128).map (Reg.SEQ_APP_CTRL t)) (hold := 1)
    ⟨by rw [State.setPendings_only (issued s t 1) t region.toNat (rep.toNat + 1)], fun k _ => htile k⟩
    (fun a ha => State.setPendings_rd _ _ _ _ fun i _ hi => ha (hi ▸ List.mem_map_of_mem (List.mem_range.mpr (Nat.mod_lt _ (by decide)))))
    (slotOf s t)
  refine ⟨_, exec_appadv_eq q rep region,
    issued_of_place q (State.setPendings_rd _ _ _ _ fun i _ => (append_notMem_issueRegs t _).2.symm) (by rw [htile])
    (by rw [htile]) (by rw [htile]), hframe, hregs, fun i hi => ?_, fun r hr hne => ?_, fun r b hr hb => ?_⟩
  · rw [State.bit_of_rd (State.settledAt_append _ _ _ _)]
    exact State.setPendings_set _ _ _ (Nat.lt_succ_of_le hi)
  · rw [State.settledAt_append, State.setPendings_rd _ _ _ _ (fun i hi h => hne i (by omega) (Reg.SEQ_APP_CTRL_inj h).symm), hbefore]
  · rw [State.bit_of_rd (State.settledAt_append _ _ _ _), State.setPendings_bit _ _ _ _ _ hb, State.bit_of_rd (hbefore r)]

/-- A change of a tile's record and of registers, seen from the state before. -/
theorem OnlyTile.of_setTile {s u : State} {t : Nat} {x : Tile} (hu : u = { s.setTile t x with regs := u.regs }) :
    OnlyTile s u t ∧ u.tile t = x := by
  have htile (k : Nat) : u.tile k = (s.setTile t x).tile k := by rw [hu]; rfl
  refine ⟨⟨by rw [hu]; rfl, fun k hk => ?_⟩, ?_⟩
  · rw [htile, State.tile_setTile, if_neg (Ne.symm hk)]
  · rw [htile, State.tile_setTile, if_pos rfl]

/-- The registers of the tile core are not those that follow every issue. -/
theorem tc_places (t : Nat) : Reg.TC_PC t = Reg.tileBase t + 0x2008 ∧ Reg.TC_STATUS t = Reg.tileBase t + 0x2004 ∧
    Reg.TC_EVENT t = Reg.tileBase t + 0x2014 ∧ Reg.SEQ_STATUS t = Reg.tileBase t + 0x1000 ∧ Reg.SEQ_HS t = Reg.tileBase t + 0x1004 ∧
    Reg.VEU_STATUS t = Reg.tileBase t + 0x7004 ∧ Reg.TILE_STATUS t = Reg.tileBase t + 0xC ∧
    Reg.SEQ_CLASH t = Reg.tileBase t + 0x1040 ∧ Reg.SEQ_CLASH_ENTRY t = Reg.tileBase t + 0x1044 ∧
    Reg.TILE_FAULT t = Reg.tileBase t + 0x10 := ⟨rfl, rfl, rfl, rfl, rfl, rfl, rfl, rfl, rfl, rfl⟩

/-- A halted tile core starts (R128). -/
theorem State.tcGo_halted {s : State} {t : Nat} (h : s.tcHalted t = true) (pc : BitVec 13) (I entry : Nat) :
    let u := s.tcGo t pc.toNat I entry
    OnlyTile s u t ∧ RegsSameBut s u [Reg.TC_PC t, Reg.TC_STATUS t] ∧ u.rd (Reg.TC_PC t) = pc.setWidth 32 ∧
      u.fld (Reg.TC_STATUS t) 0 2 = 1 ∧ u.tile t = { s.tile t with tc := { (s.tile t).tc with
        next := I + 1, waitSem := none, waitEvent := none, startEntry := entry, power := false } } := by
  obtain ⟨hpc, hst, -⟩ := tc_places t
  have hne : Reg.TC_STATUS t ≠ Reg.TC_PC t := by omega
  dsimp only
  rw [State.tcGo, if_pos h]
  obtain ⟨honly, htile⟩ := OnlyTile.of_setTile (s := s) (t := t)
    (u := ((s.setTc t { (s.tile t).tc with next := I + 1, waitSem := none, waitEvent := none, startEntry := entry, power := false }).wr
      (Reg.TC_PC t) (BitVec.ofNat 32 pc.toNat)).setTcState t 1) rfl
  refine ⟨honly, fun a ha => ?_, ?_, State.fld_setFld_self _ _ _ (by decide), htile⟩
  · simp only [List.mem_cons, List.not_mem_nil, or_false, not_or] at ha
    rw [State.setTcState, State.rd_setFld, if_neg (Ne.symm ha.2), State.rd_wr, if_neg (Ne.symm ha.1)]; rfl
  · rw [State.setTcState, State.rd_setFld, if_neg hne, State.rd_wr, if_pos rfl]
    exact BitVec.eq_of_toNat_eq (by rw [BitVec.toNat_ofNat, BitVec.toNat_setWidth])

/-- An event that nothing waits for sets its bit. -/
theorem State.tcEvent_set {s : State} {t e : Nat} (h : (s.tile t).tc.waitEvent ≠ some e) (I : Nat) :
    s.tcEvent t e I = s.setBit (Reg.TC_EVENT t) e true := if_neg h

/-- An event that the tile core waits for lets it go on (R128). -/
theorem State.tcEvent_wakes {s : State} {t e : Nat} (h : (s.tile t).tc.waitEvent = some e) (I : Nat) :
    let u := s.tcEvent t e I
    OnlyTile s u t ∧ RegsSameBut s u [Reg.TC_STATUS t] ∧ u.fld (Reg.TC_STATUS t) 0 2 = 1 ∧
      u.tile t = { s.tile t with tc := { (s.tile t).tc with waitEvent := none, next := I + 1 } } := by
  dsimp only
  rw [State.tcEvent, if_pos h]
  obtain ⟨honly, htile⟩ := OnlyTile.of_setTile (s := s) (t := t)
    (u := (s.setTc t { (s.tile t).tc with waitEvent := none, next := I + 1 }).setTcState t 1) rfl
  refine ⟨honly, fun a ha => ?_, State.fld_setFld_self _ _ _ (by decide), htile⟩
  rw [List.mem_singleton] at ha
  rw [State.setTcState, State.rd_setFld, if_neg (Ne.symm ha)]; rfl

/-- The walk of a variant is over (R133). -/
def State.walkOver (s : State) (t I : Nat) : State :=
  ((s.setTile t { s.tile t with endAt := some I, overrunAt := none }).setBit (Reg.SEQ_STATUS t) 18 true).setBit (Reg.SEQ_STATUS t) 16 false

/-- What the end of a walk changes. -/
theorem State.walkOver_frame (s : State) (t I : Nat) :
    let u := s.walkOver t I
    OnlyTile s u t ∧ RegsSameBut s u [Reg.SEQ_STATUS t] ∧ u.bit (Reg.SEQ_STATUS t) 18 = true ∧ u.bit (Reg.SEQ_STATUS t) 16 = false ∧
      u.tile t = { s.tile t with endAt := some I, overrunAt := none } := by
  obtain ⟨honly, htile⟩ := OnlyTile.of_setTile (s := s) (t := t) (u := s.walkOver t I) rfl
  refine ⟨honly, fun a ha => ?_, ?_, State.bit_setBit_self _ _ _ (by decide), htile⟩
  · rw [List.mem_singleton] at ha
    rw [State.walkOver, State.rd_setBit, if_neg (Ne.symm ha), State.rd_setBit, if_neg (Ne.symm ha)]; rfl
  · rw [State.walkOver, State.bit_setBit_other _ _ _ (by decide) (by decide)]
    exact State.bit_setBit_self _ _ _ (by decide)

/-- What an issue shows leaves every tile's record. -/
theorem State.settledAt_tile (u : State) (t h k : Nat) : (u.settledAt t h).tile k = u.tile k := rfl

/-- What an issue shows beside the sequencer's place leaves the registers of the tile core. -/
theorem State.settledAt_tc (u : State) {t a : Nat} (h : Nat)
    (ha : a = Reg.TC_PC t ∨ a = Reg.TC_STATUS t ∨ a = Reg.TC_EVENT t ∨ a = Reg.SEQ_STATUS t ∨ a = Reg.SEQ_CLASH t ∨
      a = Reg.SEQ_CLASH_ENTRY t ∨ a = Reg.TILE_FAULT t) : (u.settledAt t h).rd a = u.rd a := by
  obtain ⟨hpc, hst, hev, hseq, hhs, hveu, htile, hcl, hce, hft⟩ := tc_places t
  refine State.settledAt_rd _ _ _ ?_
  simp only [List.mem_cons, List.not_mem_nil, or_false, not_or]
  exact ⟨by omega, by omega, by omega⟩

/-- The issue leaves the registers of the tile core and of slot clashes. -/
theorem issued_tc (s : State) {t a : Nat} (hold : Nat)
    (ha : a = Reg.TC_PC t ∨ a = Reg.TC_STATUS t ∨ a = Reg.TC_EVENT t ∨ a = Reg.SEQ_CLASH t ∨ a = Reg.SEQ_CLASH_ENTRY t ∨
      a = Reg.TILE_FAULT t) : (issued s t hold).rd a = s.rd a := by
  obtain ⟨hpc, hst, hev, hseq, hhs, hveu, htile, hcl, hce, hft⟩ := tc_places t
  refine (issued_only s t hold).2 a ?_
  simp only [issueRegs, List.mem_cons, List.not_mem_nil, or_false, not_or]
  exact ⟨by omega, by omega, by omega, by omega⟩

/-- Whether the tile core has halted does not depend on an issue. -/
theorem issued_tcHalted (s : State) (t hold : Nat) : (issued s t hold).tcHalted t = s.tcHalted t := by
  rw [State.tcHalted, State.fld_of_rd (issued_tc s hold (.inr (.inl rfl)))]; rfl

/-- TCGO starts a halted tile core (R128). -/
theorem exec_tcgo_halted {s : State} {t : Nat} (q : Quiet s t) (pc : BitVec 13) (hh : s.tcHalted t = true) :
    ∃ u, exec (.tcgo t pc) s = .next u ∧ Issued s u t 1 ∧ OnlyTile s u t ∧
      RegsSameBut s u (issueRegs t ++ [Reg.TC_PC t, Reg.TC_STATUS t]) ∧ u.rd (Reg.TC_PC t) = pc.setWidth 32 ∧
      u.fld (Reg.TC_STATUS t) 0 2 = 1 ∧ (u.tile t).tc = { (s.tile t).tc with
        next := slotOf s t + 1, waitSem := none, waitEvent := none, startEntry := (s.tile t).nextK, power := false } := by
  obtain ⟨hpc, hst, hev, hseq, -⟩ := tc_places t
  obtain ⟨honly, hregs, hpcv, hstv, htile⟩ := State.tcGo_halted (s := issued s t 1) ((issued_tcHalted s t 1).trans hh) pc (slotOf s t)
    (s.tile t).nextK
  have h := State.issueEntry_resting q 1 (body := fun s I k _ => s.tcGo t pc.toNat I k) rfl (by rw [htile]; exact issued_resting q 1)
  obtain ⟨hframe, hr⟩ := issued_frame honly hregs (slotOf s t)
  refine ⟨_, congrArg Host.Outcome.next h, issued_of_place q (hregs _ ?_) (by rw [htile]) (by rw [htile]) (by rw [htile]), hframe, hr,
    (State.settledAt_tc _ _ (.inl rfl)).trans hpcv, (State.fld_of_rd (State.settledAt_tc _ _ (.inr (.inl rfl))) 0 2).trans hstv, ?_⟩
  · simp only [List.mem_cons, List.not_mem_nil, or_false, not_or]
    exact ⟨by omega, by omega⟩
  · refine (congrArg Tile.tc htile).trans ?_
    rw [issued_tile]

/-- TCEV whose event nothing waits for (R128). -/
theorem exec_tcev_set {s : State} {t : Nat} (q : Quiet s t) (e : BitVec 4) (hw : (s.tile t).tc.waitEvent ≠ some e.toNat) :
    ∃ u, exec (.tcev t e) s = .next u ∧ Issued s u t 1 ∧ OnlyTile s u t ∧
      RegsSameBut s u (issueRegs t ++ [Reg.TC_EVENT t]) ∧ u.rd (Reg.TC_EVENT t) = (s.rd (Reg.TC_EVENT t)).setBit e.toNat true ∧
      (u.tile t).tc = (s.tile t).tc := by
  obtain ⟨hpc, hst, hev, hseq, -⟩ := tc_places t
  have hu := State.tcEvent_set (s := issued s t 1) (t := t) (e := e.toNat) (by rw [issued_tile]; exact hw) (slotOf s t)
  have htile : ((issued s t 1).setBit (Reg.TC_EVENT t) e.toNat true).tile t = (issued s t 1).tile t :=
    State.setBit_tile_of _ _ _ _ _
  have h := State.issueEntry_resting q 1 (body := fun s I _ _ => s.tcEvent t e.toNat I) hu
    (by rw [htile]; exact issued_resting q 1)
  have hregs : RegsSameBut (issued s t 1) ((issued s t 1).setBit (Reg.TC_EVENT t) e.toNat true) [Reg.TC_EVENT t] := fun a ha => by
    rw [State.rd_setBit, if_neg (Ne.symm (by simpa using ha))]
  have honly (w : State) : OnlyTile w (w.setBit (Reg.TC_EVENT t) e.toNat true) t := ⟨rfl, fun _ _ => rfl⟩
  obtain ⟨hframe, hr⟩ := issued_frame (honly _) hregs (slotOf s t)
  refine ⟨_, congrArg Host.Outcome.next h, issued_of_place q (hregs _ (by rw [List.mem_singleton]; omega)) (by rw [htile])
    (by rw [htile]) (by rw [htile]), hframe, hr, ?_, ?_⟩
  · rw [State.settledAt_tc _ _ (.inr (.inr (.inl rfl))), State.rd_setBit, if_pos rfl, issued_tc s 1 (.inr (.inr (.inl rfl)))]
  · rw [State.settledAt_tile, htile, issued_tile]

/-- TCEV whose event the tile core waits for (R128). -/
theorem exec_tcev_wakes {s : State} {t : Nat} (q : Quiet s t) (e : BitVec 4) (hw : (s.tile t).tc.waitEvent = some e.toNat) :
    ∃ u, exec (.tcev t e) s = .next u ∧ Issued s u t 1 ∧ OnlyTile s u t ∧
      RegsSameBut s u (issueRegs t ++ [Reg.TC_STATUS t]) ∧ u.fld (Reg.TC_STATUS t) 0 2 = 1 ∧
      (u.tile t).tc = { (s.tile t).tc with waitEvent := none, next := slotOf s t + 1 } := by
  obtain ⟨hpc, hst, hev, hseq, -⟩ := tc_places t
  obtain ⟨honly, hregs, hstv, htile⟩ := State.tcEvent_wakes (s := issued s t 1) (t := t) (e := e.toNat) (by rw [issued_tile]; exact hw)
    (slotOf s t)
  have h := State.issueEntry_resting q 1 (body := fun s I _ _ => s.tcEvent t e.toNat I) rfl (by rw [htile]; exact issued_resting q 1)
  obtain ⟨hframe, hr⟩ := issued_frame honly hregs (slotOf s t)
  refine ⟨_, congrArg Host.Outcome.next h, issued_of_place q (hregs _ (by rw [List.mem_singleton]; omega)) (by rw [htile]) (by rw [htile])
    (by rw [htile]), hframe, hr, (State.fld_of_rd (State.settledAt_tc _ _ (.inr (.inl rfl))) 0 2).trans hstv, ?_⟩
  refine (congrArg Tile.tc htile).trans ?_
  rw [issued_tile]

/-- END ends the walk (R128, R133). -/
theorem exec_endEntry {s : State} {t : Nat} (q : Quiet s t) :
    ∃ u, exec (.endEntry t) s = .next u ∧ OnlyTile s u t ∧ RegsSameBut s u (issueRegs t) ∧ u.hs t = slotOf s t ∧
      (u.tile t).endAt = some (slotOf s t) ∧ (u.tile t).overrunAt = none ∧
      u.bit (Reg.SEQ_STATUS t) 18 = true ∧ u.bit (Reg.SEQ_STATUS t) 16 = false := by
  obtain ⟨honly, hregs, h18, h16, htile⟩ := (issued s t 1).walkOver_frame t (slotOf s t)
  have h := State.issueEntry_resting q 1 (body := fun s I _ _ => s.walkOver t I) rfl (by rw [htile]; exact issued_resting q 1)
  obtain ⟨hframe, hr⟩ := issued_frame honly hregs (slotOf s t)
  have hseq : (((issued s t 1).walkOver t (slotOf s t)).settledAt t (slotOf s t)).rd (Reg.SEQ_STATUS t) = _ :=
    State.settledAt_tc _ _ (.inr (.inr (.inr (.inl rfl))))
  refine ⟨_, congrArg Host.Outcome.next h, hframe, fun a ha => hr a ?_, State.settledAt_hs _ _ (slotOf_lt q), by rw [State.settledAt_tile, htile],
    by rw [State.settledAt_tile, htile], (State.bit_of_rd hseq 18).trans h18, (State.bit_of_rd hseq 16).trans h16⟩
  rw [List.mem_append, List.mem_singleton, not_or]
  refine ⟨ha, ?_⟩
  simp only [issueRegs, List.mem_cons, not_or] at ha
  exact ha.2.1

/-- TCGO of a tile core that has not halted is a clash (R128, R132). -/
theorem exec_tcgo_clash {s : State} {t : Nat} (q : Quiet s t) (pc : BitVec 13) (hh : s.tcHalted t = false)
    (he : (s.tile t).tc.startEntry < 4096) :
    ∃ u, exec (.tcgo t pc) s = .next u ∧ Issued s u t 1 ∧ Clashed s u t 1 (s.tile t).tc.startEntry (s.tile t).nextK (slotOf s t) ∧
      BytesSame s u ∧ (u.tile t).tc = (s.tile t).tc ∧ u.rd (Reg.TC_PC t) = s.rd (Reg.TC_PC t) ∧
      u.rd (Reg.TC_STATUS t) = s.rd (Reg.TC_STATUS t) := by
  obtain ⟨hpc, hst, hev, hseq, hhs, hveu, hts, hcl, hce, hft⟩ := tc_places t
  have ht : t < 128 := q.1.1
  have hbase : Reg.tileBase t = 0x10000000 + t * 0x10000 := rfl
  have hindex : (s.tile t).nextK < 4096 := by obtain ⟨⟨_, _, _, _, _, _, _, _, hk, _⟩, _⟩ := q; exact hk
  have htc : ((issued s t 1).tile t).tc = (s.tile t).tc := by rw [issued_tile]
  obtain ⟨hregs, hbytes, htile⟩ := (issued s t 1).slotClash_frame t 1 (s.tile t).tc.startEntry (s.tile t).nextK (slotOf s t)
  have hgo : (issued s t 1).tcGo t pc.toNat (slotOf s t) (s.tile t).nextK =
      (issued s t 1).slotClash t 1 (s.tile t).tc.startEntry (s.tile t).nextK (slotOf s t) := by
    rw [State.tcGo, if_neg (by rw [issued_tcHalted, hh]; exact Bool.false_ne_true), htc]
  have h := State.issueEntry_resting q 1 (body := fun s I k _ => s.tcGo t pc.toNat I k) hgo (by rw [htile]; exact issued_resting q 1)
  generalize (issued s t 1).slotClash t 1 (s.tile t).tc.startEntry (s.tile t).nextK (slotOf s t) = v at hregs hbytes htile h
  have hkept (a : Nat) (ha : a = Reg.TC_PC t ∨ a = Reg.TC_STATUS t ∨ a = Reg.SEQ_STATUS t) : v.rd a = (issued s t 1).rd a := by
    rw [hregs a (notMem_logRegs_tile ht (by omega))]
    unfold State.clashRegs
    split
    · rw [State.rd_setBit, if_neg (by omega)]
    · rw [State.rd_setBit, if_neg (by omega), State.rd_wr, if_neg (by omega), State.rd_wr, if_neg (by omega)]
  refine ⟨_, congrArg Host.Outcome.next h, issued_of_place q (hkept _ (.inr (.inr rfl))) (by rw [htile]) (by rw [htile]) (by rw [htile]),
    ?_, ⟨hbytes.1, hbytes.2⟩, by rw [State.settledAt_tile, htile, htc], ?_, ?_⟩
  · refine Clashed.congr ((issued s t 1).clashRegs_shown t (by decide) he hindex (slotOf_lt q))
      (issued_tc s 1 (.inr (.inr (.inr (.inl rfl))))).symm (issued_tc s 1 (.inr (.inr (.inr (.inr (.inl rfl)))))).symm fun a ha => ?_
    exact (State.settledAt_tc v _ (.inr (.inr (.inr (.inr ha))))).trans (hregs a (notMem_logRegs_tile ht (by omega)))
  · rw [State.settledAt_tc _ _ (.inl rfl), hkept _ (.inl rfl), issued_tc s 1 (.inl rfl)]
  · rw [State.settledAt_tc _ _ (.inr (.inl rfl)), hkept _ (.inr (.inl rfl)), issued_tc s 1 (.inr (.inl rfl))]

/-- Settles O28: one lemma for each entry. -/
theorem controlEntriesIssue : Obligations.ControlEntriesIssue := fun _ _ q =>
  ⟨exec_nop q, exec_appadv q, exec_tcgo_halted q, exec_tcgo_clash q, exec_tcev_set q, exec_tcev_wakes q, exec_endEntry q⟩

end Sys2Proof.Machine
end

section
/-! The registers of the partitions' beat blocks, which the operations of tiles, streams, channels and edge ports leave alone. -/
namespace Sys2Proof.Machine
open Sys2Proof.Safety

/-- A reading of a state that every step of a fold leaves, the fold leaves. -/
theorem foldl_keeps {α β γ : Type} (g : β → γ) {f : β → α → β} {l : List α} (h : ∀ b, ∀ a ∈ l, g (f b a) = g b) (b : β) :
    g (l.foldl f b) = g b := by
  induction l generalizing b with
  | nil => rfl
  | cons a r ih =>
    rw [List.foldl_cons, ih fun b x hx => h b x (List.mem_cons_of_mem a hx)]
    exact h b a (List.mem_cons_self ..)

/-- The registers of the partitions' beat blocks. -/
def Reg.ofBeats (a : Nat) : Prop := 0x73008000 ≤ a ∧ a < 0x73009000

/-- A register of a tile is none of a beat block. -/
theorem Reg.ofBeats.ne_tile {a : Nat} (h : Reg.ofBeats a) {t o : Nat} (ht : t < 128) (ho : o < 0x10000) : Reg.tileBase t + o ≠ a := by
  have hbase : Reg.tileBase t = 0x10000000 + t * 0x10000 := rfl
  have := h.1
  omega

/-- A register of a channel is none of a beat block. -/
theorem Reg.ofBeats.ne_chan {a : Nat} (h : Reg.ofBeats a) {c : Nat} (hc : c < 256) : Reg.CHN_STATUS c ≠ a := by
  have hbase : Reg.CHN_STATUS c = 0x48010000 + c * 0x20 + 0xC := rfl
  have := h.1
  omega

/-- A register of an edge port is none of a beat block. -/
theorem Reg.ofBeats.ne_edge {a : Nat} (h : Reg.ofBeats a) {e : Nat} (he : e < 48) : Reg.EDGE_STATUS e ≠ a := by
  have hbase : Reg.EDGE_STATUS e = 0x30040000 + e * 0x100 + 4 := rfl
  have := h.1
  omega

/-- The registers of the log are none of a beat block. -/
theorem Reg.ofBeats.notMem_logRegs {a : Nat} (h : Reg.ofBeats a) : a ∉ logRegs :=
  Sys2Proof.Machine.notMem_logRegs (.inr (by have := h.1; omega))

/-- The status and the armed milestones of a partition are in its beat block. -/
theorem Reg.ofBeats_part {p : Nat} (hp : p < 16) : Reg.ofBeats (Reg.PART_BEAT_STATUS p) ∧ Reg.ofBeats (Reg.PART_START_AT_HI p) ∧
    Reg.ofBeats (Reg.PART_STOP_AT_HI p) := by
  have hs : Reg.PART_BEAT_STATUS p = 0x73008000 + p * 0x100 + 4 := rfl
  have h1 : Reg.PART_START_AT_HI p = 0x73008000 + p * 0x100 + 0x14 := rfl
  have h2 : Reg.PART_STOP_AT_HI p = 0x73008000 + p * 0x100 + 0x1C := rfl
  unfold Reg.ofBeats
  exact ⟨by omega, by omega, by omega⟩

/-! Records, packets and partitions. -/

/-- A fault line changes no register. -/
theorem State.updPart_rd (s : State) (p : Nat) (f : Part → Part) (a : Nat) : (s.updPart p f).rd a = s.rd a := by
  unfold State.updPart; split <;> rfl

/-- A record of a partition writes no register of a beat block. -/
theorem State.logRec_ofBeats {a : Nat} (h : Reg.ofBeats a) (s : State) (cls idx code : Nat) {sev : Nat} (part : Option Nat)
    (detail : List Byte) (hs : sev ≠ sevDevice) : (s.logRec cls idx code sev part detail).rd a = s.rd a :=
  (s.logRec_below_device cls idx code part detail hs).1 a h.notMem_logRegs

/-- Sending a packet writes no register of a beat block. -/
theorem State.sendPkt_ofBeats {a : Nat} (h : Reg.ofBeats a) (s : State) (t : Nat) (p : Pkt) : (s.sendPkt t p).2.rd a = s.rd a := by
  unfold State.sendPkt
  dsimp only
  split_ifs
  · rfl
  · dsimp only
    split
    · exact State.updPart_rd ..
    · rfl
  · exact State.logRec_ofBeats h _ _ _ _ _ _ (by decide)

/-- Notices write no register. -/
theorem State.notifyAll_rd (s : State) (fns : List Nat) (kind : Nat) (body : List Byte) (a : Nat) :
    (s.notifyAll fns kind body).rd a = s.rd a := by rw [State.notifyAll_eq]; rfl

/-- What a partition's change of state writes. -/
theorem State.setPstate_rd (s : State) (p st a : Nat) :
    (s.setPstate p st).rd a = (s.setFld (Reg.PART_BEAT_STATUS p) 0 3 st).rd a := by
  unfold State.setPstate
  dsimp only
  split
  · rfl
  · rw [State.notifyAll_rd]
    exact foldl_keeps (fun u : State => u.rd a) (fun b e _ => by split <;> rfl) _

/-- A change of state keeps every partition's record. -/
theorem State.setPstate_parts (s : State) (p st : Nat) : (s.setPstate p st).parts = s.parts := by
  unfold State.setPstate
  dsimp only
  split
  · rfl
  · rw [State.notifyAll_eq]
    exact foldl_keeps State.parts (fun b e _ => by split <;> rfl) _

/-- The state that a partition has changed to. -/
theorem State.setPstate_pstate (s : State) (p : Nat) {st : Nat} (hst : st < 8) : (s.setPstate p st).pstate p = st := by
  rw [State.pstate, State.fld_of_rd (s.setPstate_rd p st _), State.fld_setFld_self _ _ _ (by decide)]
  omega

end Sys2Proof.Machine
end

section
/-! What opens, stops and flushes with a partition leaves the beat blocks alone (R48, R116, R164, R165, R206). -/
namespace Sys2Proof.Machine
open Sys2Proof.Safety

/-! Tiles. -/

/-- The load of a tile's semaphores. -/
theorem State.semLoad_ofBeats {a : Nat} (h : Reg.ofBeats a) (s : State) {t : Nat} (ht : t < 128) : (s.semLoad t).rd a = s.rd a := by
  have hk (k : Nat) (hk : k < 64) : Reg.SEM_CNT t k ≠ a ∧ Reg.SEM_SNAP t k ≠ a := by
    have := h.ne_tile (o := 0x3000 + k * 0x10) ht (by omega)
    have := h.ne_tile (o := 0x300C + k * 0x10) ht (by omega)
    simp only [Reg.SEM_CNT, Reg.SEM_SNAP]
    exact ⟨by omega, by omega⟩
  have hlo : Reg.SEM_BROKEN_LO t ≠ a := h.ne_tile ht (by decide)
  have hhi : Reg.SEM_BROKEN_HI t ≠ a := h.ne_tile ht (by decide)
  unfold State.semLoad
  dsimp only
  rw [State.rd_wr, if_neg hhi, State.rd_wr, if_neg hlo]
  refine foldl_keeps (fun u : State => u.rd a) (fun b k hm => ?_) s
  obtain ⟨hc, hs⟩ := hk k (List.mem_range.mp hm)
  simp only [State.rd_wr, hc, hs, if_false]

/-- The residue check of a tile. -/
theorem State.semResidue_ofBeats {a : Nat} (h : Reg.ofBeats a) (s : State) {t : Nat} (ht : t < 128) : (s.semResidue t).rd a = s.rd a := by
  have hlo : Reg.SEM_RESID_LO t ≠ a := h.ne_tile ht (by decide)
  have hhi : Reg.SEM_RESID_HI t ≠ a := h.ne_tile ht (by decide)
  unfold State.semResidue
  dsimp only
  split
  · rw [State.rd_wr, if_neg hhi, State.rd_wr, if_neg hlo]
  · rw [State.logTile, State.logRec_ofBeats h _ _ _ _ _ _ (by decide), State.rd_wr, if_neg hhi, State.rd_wr, if_neg hlo]

/-- The registers of a context are none of a beat block. -/
theorem Reg.ofBeats.ne_ctx {a : Nat} (h : Reg.ofBeats a) {t c : Nat} (ht : t < 128) (hc : c < 8) :
    Reg.SE_CTX_STATUS t c ≠ a ∧ Reg.SE_CTX_FILL t c ≠ a := by
  have := h.ne_tile (o := 0x411C + c * 0x20) ht (by omega)
  have := h.ne_tile (o := 0x4118 + c * 0x20) ht (by omega)
  simp only [Reg.SE_CTX_STATUS, Reg.SE_CTX_FILL]
  exact ⟨by omega, by omega⟩

/-- Fill and free of a context. -/
theorem State.setFillFree_ofBeats {a : Nat} (h : Reg.ofBeats a) (s : State) {t c : Nat} (ht : t < 128) (hc : c < 8) (fill free : Nat) :
    (s.setFillFree t c fill free).rd a = s.rd a := by
  have hw (v : Word) : (s.wr (Reg.SE_CTX_FILL t c) v).rd a = s.rd a := by rw [State.rd_wr, if_neg (h.ne_ctx ht hc).2]
  unfold State.setFillFree
  dsimp only
  split_ifs <;> exact hw _

/-- The opening of a context. -/
theorem State.seOpen_ofBeats {a : Nat} (h : Reg.ofBeats a) (s : State) {t c : Nat} (ht : t < 128) (hc : c < 8) :
    (s.seOpen t c).rd a = s.rd a := by
  unfold State.seOpen
  split
  · show (State.setFillFree _ t c _ _).rd a = _
    rw [State.setFillFree_ofBeats h _ ht hc, State.setCtxState, State.rd_setFld, if_neg (h.ne_ctx ht hc).1]; rfl
  · rfl

/-- The status of a stream engine. -/
theorem State.seStatus_ofBeats {a : Nat} (h : Reg.ofBeats a) (s : State) {t : Nat} (ht : t < 128) : (s.seStatus t).rd a = s.rd a := by
  have hst : Reg.SE_STATUS t ≠ a := h.ne_tile ht (by decide)
  unfold State.seStatus
  dsimp only
  refine (foldl_keeps (fun u : State => u.rd a) (fun b c hm => ?_) _).trans (by rw [State.rd_wr, if_neg hst])
  split
  · rfl
  · rw [State.rd_setFld, if_neg (h.ne_ctx ht (List.mem_range.mp hm)).1]

/-- The credit of a context. -/
theorem State.seCredit_ofBeats {a : Nat} (h : Reg.ofBeats a) (s : State) (t c : Nat) : (s.seCredit t c).rd a = s.rd a := by
  have hp (p : Pkt) : (s.sendPkt t p).2.rd a = s.rd a := s.sendPkt_ofBeats h t p
  unfold State.seCredit
  dsimp only
  split_ifs
  · rfl
  · exact hp _
  · exact hp _
  · rfl

/-! Channels and edge ports. -/

/-- What a channel shows of itself. -/
theorem State.chanShow_ofBeats {a : Nat} (h : Reg.ofBeats a) (s : State) {c : Nat} (hc : c < 256) : (s.chanShow c).rd a = s.rd a := by
  unfold State.chanShow
  dsimp only
  split_ifs
  · rw [State.rd_setFld, if_neg (h.ne_chan hc)]
  · rw [State.rd_setFld, if_neg (h.ne_chan hc), State.rd_setFld, if_neg (h.ne_chan hc)]

/-- A flit of a channel joins its port. -/
theorem State.chanFlit_frame (s : State) (c : Nat) (mk : Bool) (len : Nat) (data : List Byte) :
    s.chanFlit c mk len data = { s with ports := (s.chanFlit c mk len data).ports } := by
  unfold State.chanFlit State.portSend
  dsimp only
  split <;> rfl

/-- The credit that a discarding channel grants leaves the beat blocks and the partitions. -/
theorem State.chanHoldCredit_ofBeats {a : Nat} (h : Reg.ofBeats a) (s : State) {c : Nat} (hc : c < 256) :
    (s.chanHoldCredit c).rd a = s.rd a := by
  unfold State.chanHoldCredit
  dsimp only
  split
  · rw [State.chanShow_ofBeats h _ hc, State.chanRecord, State.chanFlit_frame]; rfl
  · rfl

/-- What a channel shows of itself leaves the partitions. -/
theorem State.chanShow_parts (s : State) (c : Nat) : (s.chanShow c).parts = s.parts := by
  unfold State.chanShow
  dsimp only
  split <;> rfl

/-- The credit that a discarding channel grants leaves the partitions. -/
theorem State.chanHoldCredit_parts (s : State) (c : Nat) : (s.chanHoldCredit c).parts = s.parts := by
  unfold State.chanHoldCredit
  dsimp only
  split
  · rw [State.chanShow_parts, State.chanRecord, State.chanFlit_frame]; rfl
  · rfl

/-- The outbound channel of a context is one of the 256. -/
theorem State.outChan_lt {s : State} {e t c k : Nat} (h : s.outChan e t c = some k) : k < 256 :=
  List.mem_range.mp (List.mem_of_find?_eq_some h)

/-- A cancelled grant. -/
theorem State.edgeUngrant_frame (s : State) (e : Nat) (g : EdgeGrant) :
    (s.edgeUngrant e g).parts = s.parts ∧ ∀ a, Reg.ofBeats a → (s.edgeUngrant e g).rd a = s.rd a := by
  unfold State.edgeUngrant
  split
  · split
    · next c hc =>
      have hlt := State.outChan_lt hc
      unfold State.chanAddCredit
      dsimp only
      refine ⟨?_, fun a h => ?_⟩
      · split <;> rfl
      · rw [State.rd_setFld, if_neg (h.ne_chan hlt)]
        split <;> rfl
    · exact ⟨rfl, fun _ _ => rfl⟩
  · exact ⟨rfl, fun _ _ => rfl⟩

/-- Cancelled grants of a port. -/
theorem State.edgeCancel_frame (s : State) (e : Nat) (f : EdgeGrant → Bool) :
    (s.edgeCancel e f).parts = s.parts ∧ ∀ a, Reg.ofBeats a → (s.edgeCancel e f).rd a = s.rd a := by
  refine ⟨?_, fun a h => ?_⟩
  · exact foldl_keeps State.parts (fun b g _ => (b.edgeUngrant_frame e g).1) s
  · exact foldl_keeps (fun u : State => u.rd a) (fun b g _ => (b.edgeUngrant_frame e g).2 a h) s

/-- A flushed port. -/
theorem State.edgeFlush_frame (s : State) {e : Nat} (he : e < 48) :
    (s.edgeFlush e).parts = s.parts ∧ ∀ a, Reg.ofBeats a → (s.edgeFlush e).rd a = s.rd a := by
  have htake (u : State) : (u.edgeTakeBack e).parts = u.parts ∧ ∀ a, (u.edgeTakeBack e).rd a = u.rd a := by
    unfold State.edgeTakeBack
    dsimp only
    split
    · exact ⟨rfl, fun _ => rfl⟩
    · split <;> exact ⟨rfl, fun _ => rfl⟩
  have hemit (u : State) (o : Output) : (u.edgeEmit e o).parts = u.parts ∧ ∀ a, (u.edgeEmit e o).rd a = u.rd a := by
    unfold State.edgeEmit
    split <;> exact ⟨rfl, fun _ => rfl⟩
  have hshow (u : State) : (u.edgeShow e).parts = u.parts ∧ ∀ a, Reg.ofBeats a → (u.edgeShow e).rd a = u.rd a := by
    have hw (v : Word) (a : Nat) (h : Reg.ofBeats a) : (u.wr (Reg.EDGE_STATUS e) v).rd a = u.rd a := by
      rw [State.rd_wr, if_neg (h.ne_edge he)]
    unfold State.edgeShow
    dsimp only
    split
    · exact ⟨rfl, fun a h => hw _ a h⟩
    · exact ⟨(hemit _ _).1, fun a h => ((hemit _ _).2 a).trans (hw _ a h)⟩
  obtain ⟨hcp, hcr⟩ := s.edgeCancel_frame e (fun g => s.grantFabric g)
  obtain ⟨htp, htr⟩ := htake (s.edgeCancel e (fun g => s.grantFabric g))
  unfold State.edgeFlush
  refine ⟨((hshow _).1.trans (hemit _ _).1).trans (htp.trans hcp), fun a h => ?_⟩
  exact (((hshow _).2 a h).trans ((hemit _ _).2 a)).trans ((htr a).trans (hcr a h))

/-- The flushed ports of a partition. -/
theorem State.flushEdges_frame (s : State) (p : Nat) :
    (s.flushEdges p).parts = s.parts ∧ ∀ a, Reg.ofBeats a → (s.flushEdges p).rd a = s.rd a := by
  have hlt (e : Nat) (he : e ∈ s.partEdges p) : e < 48 := List.mem_range.mp (List.mem_of_mem_filter he)
  exact ⟨foldl_keeps State.parts (fun b e he => (b.edgeFlush_frame (hlt e he)).1) s,
    fun a h => foldl_keeps (fun u : State => u.rd a) (fun b e he => (b.edgeFlush_frame (hlt e he)).2 a h) s⟩

end Sys2Proof.Machine
end

section
/-! START, STOP and faults at a milestone (R34, R41, R116, R164, R206, R361). -/
namespace Sys2Proof.Machine
open Sys2Proof.Safety

/-- A partition's tiles are among the 128. -/
theorem State.partTiles_lt {s : State} {p t : Nat} (h : t ∈ s.partTiles p) : t < 128 := by
  unfold State.partTiles at h
  split at h
  · exact List.mem_range.mp (List.mem_of_mem_filter h)
  · cases h

/-- A partition's channels are among the 256. -/
theorem State.partChans_lt {s : State} {p c : Nat} (h : c ∈ s.partChans p) : c < 256 := List.mem_range.mp (List.mem_of_mem_filter h)

/-- The opening of a partition's contexts and channels leaves the beat blocks. -/
theorem State.openContexts_ofBeats {a : Nat} (h : Reg.ofBeats a) (s : State) (p : Nat) : (s.openContexts p).rd a = s.rd a := by
  unfold State.openContexts
  dsimp only
  refine (foldl_keeps (fun u : State => u.rd a) (fun b t ht => ?_) _).trans
    ((foldl_keeps (fun u : State => u.rd a) (fun b c hc => ?_) _).trans (foldl_keeps (fun u : State => u.rd a) (fun b t ht => ?_) s))
  · rw [State.seStatus_ofBeats h _ (State.partTiles_lt ht)]
    exact foldl_keeps (fun u : State => u.rd a) (fun b c _ => b.seCredit_ofBeats h t c) _
  · rw [(State.edgeCancel_frame _ _ _).2 a h]
    exact State.chanShow_ofBeats h _ (State.partChans_lt (List.mem_of_mem_filter hc))
  · exact foldl_keeps (fun u : State => u.rd a) (fun b c hc => b.seOpen_ofBeats h (State.partTiles_lt ht) (List.mem_range.mp hc)) b

/-- The streams of a partition that starts leave the beat blocks. -/
theorem State.openStreams_ofBeats {a : Nat} (h : Reg.ofBeats a) (s : State) (p : Nat) : (s.openStreams p).rd a = s.rd a :=
  (State.openContexts_ofBeats h _ p).trans
    (foldl_keeps (fun u : State => u.rd a) (fun b _ ht => b.semLoad_ofBeats h (State.partTiles_lt ht)) s)

/-- A partition that starts runs, without an armed START, slips or attempts (R34). -/
theorem State.startPart_shown (s : State) {p : Nat} (hp : p < 16) :
    let u := s.startPart p
    u.pstate p = psRunning ∧ u.bit (Reg.PART_START_AT_HI p) 31 = false ∧ u.fld (Reg.PART_BEAT_STATUS p) 8 8 = 0 ∧
      u.fld (Reg.PART_BEAT_STATUS p) 16 8 = 0 := by
  obtain ⟨hst, hstart, -⟩ := Reg.ofBeats_part hp
  have hne : Reg.PART_BEAT_STATUS p ≠ Reg.PART_START_AT_HI p := by simp [Reg.PART_BEAT_STATUS, Reg.PART_START_AT_HI]
  let v := ((s.setBit (Reg.PART_START_AT_HI p) 31 false).setFld (Reg.PART_BEAT_STATUS p) 8 8 0).setFld (Reg.PART_BEAT_STATUS p) 16 8 0
  have hopen (a : Nat) (ha : Reg.ofBeats a) : (s.startPart p).rd a = (v.setFld (Reg.PART_BEAT_STATUS p) 0 3 psRunning).rd a := by
    unfold State.startPart
    rw [State.setPstate_rd, State.rd_setFld, State.rd_setFld, State.openStreams_ofBeats ha, State.openStreams_ofBeats hst,
      State.updPart_rd, State.updPart_rd]
  refine ⟨State.setPstate_pstate _ p (by decide), ?_, ?_, ?_⟩
  · rw [State.bit_of_rd (hopen _ hstart), State.bit_of_rd (State.rd_setFld _ _ _ _ _ _ ▸ if_neg hne),
      State.bit_of_rd (State.rd_setFld _ _ _ _ _ _ ▸ if_neg hne), State.bit_of_rd (State.rd_setFld _ _ _ _ _ _ ▸ if_neg hne),
      State.bit_setBit_self _ _ _ (by decide)]
  · rw [State.fld_of_rd (hopen _ hst), State.fld_setFld_above _ _ _ (by decide) (by decide),
      State.fld_setFld_below _ _ _ (by decide) (by decide), State.fld_setFld_self _ _ _ (by decide)]
    rfl
  · rw [State.fld_of_rd (hopen _ hst), State.fld_setFld_above _ _ _ (by decide) (by decide),
      State.fld_setFld_self _ _ _ (by decide)]
    rfl

/-- A partition that stops is STOPPED, without an armed STOP (R34). -/
theorem State.stopPart_shown (s : State) {p : Nat} (hp : p < 16) :
    (s.stopPart p).pstate p = psStopped ∧ (s.stopPart p).bit (Reg.PART_STOP_AT_HI p) 31 = false := by
  obtain ⟨hst, -, hstop⟩ := Reg.ofBeats_part hp
  have hne : Reg.PART_BEAT_STATUS p ≠ Reg.PART_STOP_AT_HI p := by simp [Reg.PART_BEAT_STATUS, Reg.PART_STOP_AT_HI]
  have hend (u : State) (a : Nat) (ha : Reg.ofBeats a) :
      (((u.flushEdges p).partTiles p).foldl (fun s t => s.semResidue t) (u.flushEdges p)).rd a = u.rd a :=
    (foldl_keeps (fun u : State => u.rd a) (fun b _ ht => b.semResidue_ofBeats ha (State.partTiles_lt ht)) _).trans
      ((u.flushEdges_frame p).2 a ha)
  unfold State.stopPart
  dsimp only
  refine ⟨?_, ?_⟩
  · rw [State.pstate, State.fld_of_rd (hend _ _ hst)]
    exact State.setPstate_pstate _ p (by decide)
  · rw [State.bit_of_rd (hend _ _ hstop), State.bit_of_rd (State.setPstate_rd _ p _ _),
      State.bit_of_rd (State.rd_setFld _ _ _ _ _ _ ▸ if_neg hne), State.bit_of_rd (State.updPart_rd _ _ _ _),
      State.bit_setBit_self _ _ _ (by decide)]

/-- The record of a partition after a change of it. -/
theorem State.updPart_part {s : State} {p : Nat} {q : Part} (h : s.part p = some q) (f : Part → Part) :
    (s.updPart p f).part p = some (f q) := by
  unfold State.updPart
  rw [h]
  exact (State.part_setPart s p p (f q)).trans (if_pos rfl)

/-- The record of a partition, where the partitions are the same. -/
theorem State.part_of_parts {s u : State} (h : u.parts = s.parts) (p : Nat) : u.part p = s.part p := by rw [State.part, h]; rfl

/-- A partition that freezes is FROZEN, its recovery at step 2 and its fault line low (R361). -/
theorem State.freeze_shown {s : State} {p : Nat} {q : Part} (hp : p < 16) (hq : s.part p = some q) (n variant attempt : Nat) :
    (s.freeze p n variant attempt).pstate p = psFrozen ∧
      ∃ y, (s.freeze p n variant attempt).part p = some y ∧ y.recov.step = 2 ∧ y.fault = false := by
  obtain ⟨hst, -, -⟩ := Reg.ofBeats_part hp
  have hend (u : State) : ((u.partChans p).foldl (fun s c => s.chanHoldCredit c) u).parts = u.parts ∧
      ∀ a, Reg.ofBeats a → ((u.partChans p).foldl (fun s c => s.chanHoldCredit c) u).rd a = u.rd a :=
    ⟨foldl_keeps State.parts (fun b c _ => b.chanHoldCredit_parts c) u,
      fun a ha => foldl_keeps (fun u : State => u.rd a) (fun b c hc => b.chanHoldCredit_ofBeats ha (State.partChans_lt hc)) u⟩
  unfold State.freeze
  dsimp only
  refine ⟨?_, ?_⟩
  · rw [State.pstate, State.fld_of_rd ((hend _).2 _ hst)]
    exact State.setPstate_pstate _ p (by decide)
  · refine ⟨_, (State.part_of_parts ((hend _).1.trans (State.setPstate_parts _ p _)) p).trans (State.updPart_part hq _), rfl, rfl⟩

/-- A milestone of a partition whose tiles hold no stream fault is that of its state. -/
theorem State.partMs_settled {s : State} {p : Nat} {q : Part} (hq : s.part p = some q)
    (ha : ∀ t ∈ s.partTiles p, (s.tile t).se.aborts = []) (e : MsEnv) (n : Nat) :
    (s.pstate p = psArmed → s.partMs e n p =
      if q.fault then (s.freeze p n 0 (s.attempt p)).flushEdges p
      else if s.armDue (Reg.PART_START_AT_LO p) (Reg.PART_START_AT_HI p) n then s.startPart p else s) ∧
    (s.pstate p = psRunning → q.rung = 0 → q.beatOpen = false → q.trial = none → q.fault = false → q.resetReq = none →
      s.partMs e n p = if s.armDue (Reg.PART_STOP_AT_LO p) (Reg.PART_STOP_AT_HI p) n then s.stopPart p else s) ∧
    (s.pstate p = psStopped → s.partMs e n p = s) := by
  have hsettled : (s.partTiles p).foldl (fun s t => if s.inBeat t then s else s.settleAborts t) s = s :=
    foldl_eq_self fun t ht => by rw [State.settleAborts_nil s t (ha t ht), ite_self]
  refine ⟨fun hs => ?_, fun hs hr hb ht hf hreset => ?_, fun hs => ?_⟩ <;> unfold State.partMs <;>
    simp only [hsettled, hq, hs]
  · simp only [psArmed, psRunning, show ¬ (1 = 2) by decide, false_and, if_false, if_true]
  · simp only [hr, hb, ht, hf, hreset, ne_eq, not_true, and_false, if_false, if_true, Bool.false_eq_true, Option.isSome_none]
  · simp only [psStopped, psArmed, psRunning, psFrozen, psRecovering, show ¬ (0 = 2) by decide, show ¬ (0 = 1) by decide,
      show ¬ (0 = 3 ∨ 0 = 4) by decide, false_and, if_false]

/-- Settles O25: what each state of a partition makes of a milestone. -/
theorem transitionsHappenAtMilestones : Obligations.TransitionsHappenAtMilestones := by
  intro s e n p q hp hq habort
  obtain ⟨hst, -, -⟩ := Reg.ofBeats_part hp
  obtain ⟨harmed, hrunning, hstopped⟩ := State.partMs_settled hq habort e n
  refine ⟨fun hs hf hdue => ?_, fun hs hf => ?_, fun hs hr hb ht hf hreset hdue => ?_, hstopped⟩
  · rw [harmed hs, hf, hdue, if_neg Bool.false_ne_true, if_pos rfl]
    exact s.startPart_shown hp
  · rw [harmed hs, hf, if_pos rfl]
    obtain ⟨hstate, y, hy, hstep, hfault⟩ := State.freeze_shown hp hq n 0 (s.attempt p)
    obtain ⟨hparts, hrd⟩ := (s.freeze p n 0 (s.attempt p)).flushEdges_frame p
    exact ⟨(State.fld_of_rd (hrd _ hst) 0 3).trans hstate, y, (State.part_of_parts hparts p).trans hy, hstep, hfault⟩
  · rw [hrunning hs hr hb ht hf hreset, hdue, if_pos rfl]
    exact s.stopPart_shown hp

end Sys2Proof.Machine
end

section
/-! The advance of a tile in which no event is to come (R56, R63, R70, R108): its time goes on, and what it waits for stays. -/
namespace Sys2Proof.Machine
open Sys2Proof.Safety

/-- The registers that follow the handshakes of a tile. -/
def tickRegs (t : Nat) : List Nat :=
  [Reg.SEQ_HS t, Reg.VEU_STATUS t, Reg.TILE_STATUS t, Reg.MVU_STATUS t, Reg.ARR_ACTIVE_HS t 0, Reg.ARR_GATED_LO t 0, Reg.ARR_GATED_HI t 0,
   Reg.ARR_ACTIVE_HS t 1, Reg.ARR_GATED_LO t 1, Reg.ARR_GATED_HI t 1]

/-- Nothing but a tile's counters, its writes on their way and its operations in progress differs. -/
def Ticked (s u : State) (t : Nat) : Prop :=
  u = { s with regs := u.regs, tiles := u.tiles, store := u.store, upsets := u.upsets } ∧
  ((s.tile t).flights = [] → (u.tile t).flights = [] ∧ u.store = s.store ∧ u.upsets = s.upsets) ∧
  (∀ k, k ≠ t → u.tile k = s.tile k) ∧
  (∃ fl m a0 a1, u.tile t = { s.tile t with flights := fl, mvu := m, arr0 := a0, arr1 := a1 }) ∧
  ∀ a, a ∉ tickRegs t → u.rd a = s.rd a

theorem Ticked.refl (s : State) (t : Nat) : Ticked s s t :=
  ⟨rfl, fun h => ⟨h, rfl, rfl⟩, fun _ _ => rfl, ⟨_, _, _, _, rfl⟩, fun _ _ => rfl⟩

theorem Ticked.trans {s u v : State} {t : Nat} (h : Ticked s u t) (h' : Ticked u v t) : Ticked s v t := by
  obtain ⟨hu, hfl, hk, ⟨fl, m, a0, a1, ht⟩, hr⟩ := h
  obtain ⟨hv, hfl', hk', ⟨fl', m', a0', a1', ht'⟩, hr'⟩ := h'
  refine ⟨by rw [hv, hu], fun h => ?_, fun k hne => (hk' k hne).trans (hk k hne), ⟨fl', m', a0', a1', by rw [ht', ht]⟩,
    fun a ha => (hr' a ha).trans (hr a ha)⟩
  obtain ⟨h1, h2, h3⟩ := hfl h
  obtain ⟨h1', h2', h3'⟩ := hfl' h1
  exact ⟨h1', h2'.trans h2, h3'.trans h3⟩

/-- A counter of the tile is written. -/
theorem Ticked.wr (s : State) {t a : Nat} (ha : a ∈ tickRegs t) (v : Word) : Ticked s (s.wr a v) t :=
  ⟨rfl, fun h => ⟨h, rfl, rfl⟩, fun _ _ => rfl, ⟨_, _, _, _, rfl⟩, fun b hb => by
    rw [State.rd_wr, if_neg (fun h => hb (by rw [← h]; exact ha))]⟩

/-- The tile's operations in progress are replaced. -/
theorem Ticked.setTile (s : State) (t : Nat) (m : MvuSt) (a0 a1 : ArrSt) :
    Ticked s (s.setTile t { s.tile t with mvu := m, arr0 := a0, arr1 := a1 }) t := by
  have htile := (State.tile_setTile s t t { s.tile t with mvu := m, arr0 := a0, arr1 := a1 }).trans (if_pos rfl)
  refine ⟨rfl, fun h => ⟨by rw [htile]; exact h, rfl, rfl⟩, fun k hk => ?_, ⟨_, _, _, _, htile⟩, fun _ _ => rfl⟩
  rw [State.tile_setTile, if_neg hk.symm]

/-- A fold of such steps. -/
theorem Ticked.foldl {α : Type} {t : Nat} {f : State → α → State} (h : ∀ s x, Ticked s (f s x) t) (l : List α) (s : State) :
    Ticked s (l.foldl f s) t := by
  induction l generalizing s with
  | nil => exact .refl s t
  | cons x r ih => exact (h s x).trans (ih (f s x))

/-- Writes that land leave the rest of the tile. -/
theorem State.landFlights_ticked (s : State) (t h : Nat) : Ticked s (s.landFlights t h) t := by
  unfold State.landFlights
  dsimp only
  split
  · exact .refl s t
  · next done rest hne hl =>
    have htile := (State.tile_setTile (s.land done) t t { s.tile t with flights := rest }).trans (if_pos rfl)
    refine ⟨rfl, fun hf => ?_, fun k hk => ?_, ⟨_, _, _, _, htile⟩, fun _ _ => rfl⟩
    · rw [hf] at hl
      exact (hne (congrArg Prod.fst hl).symm).elim
    · rw [State.tile_setTile, if_neg hk.symm]; rfl

/-- Operations of the MVU that end leave the rest of the tile. -/
theorem State.mvuRetire_ticked (s : State) (t h : Nat) : Ticked s (s.mvuRetire t h) t := by
  unfold State.mvuRetire
  dsimp only
  split
  · exact .refl s t
  · exact (Ticked.setTile s t _ _ _).trans (.wr _ (by simp [tickRegs]) _)

/-- An MMA that is counted leaves the rest of the tile. -/
theorem State.arrCount_ticked (s : State) {t arr : Nat} (h : Nat) (o : MmaOp) (ha : arr < 2) : Ticked s (s.arrCount t arr h o) t := by
  have hreg : Reg.ARR_ACTIVE_HS t arr ∈ tickRegs t ∧ Reg.ARR_GATED_LO t arr ∈ tickRegs t ∧ Reg.ARR_GATED_HI t arr ∈ tickRegs t := by
    interval_cases arr <;> simp [tickRegs]
  obtain ⟨hact, hlo, hhi⟩ := hreg
  have hadd (n : Nat) : Ticked s (s.addReg (Reg.ARR_ACTIVE_HS t arr) n) t := .wr s hact _
  have hgate (u : State) (v : Nat) : Ticked u (u.wr2 (Reg.ARR_GATED_LO t arr) (Reg.ARR_GATED_HI t arr) v) t :=
    (Ticked.wr u hlo _).trans (.wr _ hhi _)
  unfold State.arrCount
  dsimp only
  split_ifs
  · exact .refl s t
  · exact hadd _
  · exact hgate _ _
  · exact (hadd _).trans (hgate _ _)

/-- The counters of an array leave the rest of the tile. -/
theorem State.arrTickOne_ticked (s : State) {t arr : Nat} (h : Nat) (ha : arr < 2) : Ticked s (s.arrTickOne t arr h) t := by
  unfold State.arrTickOne
  dsimp only
  split
  · exact .refl s t
  · have hcount := Ticked.foldl (t := t) (f := fun s o => s.arrCount t arr h o) (fun s o => s.arrCount_ticked h o ha) ((s.tile t).arr arr).mmas s
    refine hcount.trans ?_
    unfold Tile.setArr
    split
    · exact Ticked.setTile _ t _ _ _
    · exact Ticked.setTile _ t _ _ _

/-- What an advance does once the stream faults are recorded, where no event is to come. -/
theorem State.carriedOn_ticked {s : State} {t : Nat} (he : (s.tile t).evs = []) (h : Nat) :
    Ticked s ((((((State.runEvents t h eventFuel s).landFlights t h).mvuRetire t h).arrTick t h).setHs t h |>.veuStatus t).tileBusy t) t := by
  rw [State.runEvents_nil s t h _ he]
  have hticks (u : State) : Ticked u (u.arrTick t h) t :=
    (u.arrTickOne_ticked h (show 0 < 2 by decide)).trans (State.arrTickOne_ticked _ h (show 1 < 2 by decide))
  refine (((s.landFlights_ticked t h).trans (State.mvuRetire_ticked _ t h)).trans (hticks _)).trans ?_
  exact (Ticked.wr _ (by simp [tickRegs]) _).trans ((Ticked.wr _ (by simp [tickRegs]) _).trans (.wr _ (by simp [tickRegs]) _))

/-- The advance of a tile without coming events and without stream faults to record. -/
theorem State.advanceTo_ticked {s : State} {t : Nat} (he : (s.tile t).evs = []) (ha : (s.tile t).se.aborts = []) (h : Nat) :
    Ticked s (s.advanceTo t h) t := by
  unfold State.advanceTo
  dsimp only
  rw [s.settleAborts_nil t ha, ite_self]
  exact State.carriedOn_ticked he h

/-- The advance of a tile without coming events to a later handshake. -/
theorem State.advanceTo_settled {s : State} {t h : Nat} (he : ((s.settleAborts t).tile t).evs = []) (hh : s.hs t < h) :
    Ticked (s.settleAborts t) (s.advanceTo t h) t := by
  unfold State.advanceTo
  dsimp only
  rw [if_pos hh]
  exact State.carriedOn_ticked he h

/-- The handshake that an advance shows. -/
theorem State.advanceTo_hs (s : State) (t : Nat) {h : Nat} (hh : h < 2 ^ 20) : (s.advanceTo t h).hs t = h :=
  State.settledAt_hs _ t hh

end Sys2Proof.Machine
end

section
/-! Events of the sequencer (R37, R130, R133, R134, R158, R167): overrun, park, done, and the wake of a waiter. -/
namespace Sys2Proof.Machine
open Sys2Proof.Safety

/-! Overrun, park and done. -/

/-- While the log has room and the firmware runs, a record of a tile joins the log as it was made. -/
theorem State.logTile_log {s : State} (hf : s.fwLost = false) (hl : s.log.length < 4096) (t code sev : Nat) (detail : List Byte) :
    ∃ r, (s.logTile t code sev detail).log = s.log ++ [r] ∧ r.code = code ∧ r.sev = sev ∧ r.cls = 0 ∧ r.idx = t ∧
      r.part = s.tilePart t := by
  obtain ⟨hb, -⟩ := s.beforeRec_only 0 t code sev (s.tilePart t) detail
  have hlog : (s.beforeRec 0 t code sev (s.tilePart t) detail).log = s.log := by rw [hb]
  have hlost : (s.beforeRec 0 t code sev (s.tilePart t) detail).fwLost = false := by rw [hb]; exact hf
  rw [State.logTile, State.logRec_eq, hlost, Bool.false_and, if_neg Bool.false_ne_true]
  generalize s.beforeRec 0 t code sev (s.tilePart t) detail = v at hlog
  have hslot : logSlot v.log sev = some (v.log.length, v.log) := if_pos (by rw [hlog]; exact hl)
  simp only [State.enterRec, hslot, State.notifyAll_eq, ← hlog]
  split
  · exact ⟨_, rfl, rfl, rfl, rfl, rfl, rfl⟩
  · exact ⟨_, rfl, rfl, rfl, rfl, rfl, rfl⟩

/-- The partition of a tile, where the partitions are the same. -/
theorem State.tilePart_of_parts {s u : State} (h : u.parts = s.parts) (t : Nat) : u.tilePart t = s.tilePart t := by
  rw [State.tilePart, State.tilePart, State.colPart, State.colPart, h]

/-- The issue of a tile stops at an overrun. -/
def State.stopOverrun (s : State) (t : Nat) : State := s.setTile t { s.tile t with stopped := true, overrunAt := none }

/-- An overrun that falls due comes to a stop and its record. -/
theorem execItinOverrun_eq {s : State} {t h : Nat} (ho : (s.tile t).overrunAt = some h) :
    ∃ detail, execItinOverrun t s =
      .next (((s.advanceTo t (max h (s.hs t))).stopOverrun t).logTile t 0x0102 sevPartition detail) := by
  unfold execItinOverrun
  rw [ho]
  exact ⟨_, rfl⟩

/-- An overrun that falls due stops the issue and is recorded (R134). -/
theorem exec_itinOverrun {s : State} {t h : Nat} (ho : (s.tile t).overrunAt = some h) :
    ∃ u, exec (.itinOverrun t) s = .next u ∧ (u.tile t).stopped = true ∧ (u.tile t).overrunAt = none ∧
      ((s.tile t).evs = [] → (s.tile t).se.aborts = [] → s.fwLost = false → s.log.length < 4096 → ∃ r, u.log = s.log ++ [r] ∧
        r.code = 0x0102 ∧ r.sev = sevPartition ∧ r.cls = 0 ∧ r.idx = t ∧ r.part = s.tilePart t) := by
  obtain ⟨detail, hexec⟩ := execItinOverrun_eq ho
  have hticked (he : (s.tile t).evs = []) (ha : (s.tile t).se.aborts = []) := State.advanceTo_ticked he ha (max h (s.hs t))
  generalize s.advanceTo t (max h (s.hs t)) = v at hexec hticked
  obtain ⟨htiles, -⟩ := (v.stopOverrun t).logTile_frame t 0x0102 detail (show sevPartition ≠ sevDevice by decide)
  have htile : ((v.stopOverrun t).logTile t 0x0102 sevPartition detail).tile t = { v.tile t with stopped := true, overrunAt := none } := by
    rw [State.tile, htiles]
    exact (State.tile_setTile v t t _).trans (if_pos rfl)
  refine ⟨_, hexec, by rw [htile], by rw [htile], fun he ha hf hl => ?_⟩
  obtain ⟨hv, -⟩ := hticked he ha
  have hlog : (v.stopOverrun t).log = s.log := by rw [State.stopOverrun, State.setTile_log, hv]
  have hlost : (v.stopOverrun t).fwLost = s.fwLost := by rw [State.stopOverrun, State.setTile_fwLost, hv]
  have hpart : (v.stopOverrun t).tilePart t = s.tilePart t := State.tilePart_of_parts (by rw [State.stopOverrun, State.setTile_parts, hv]) t
  rw [← hlog, ← hpart]
  exact State.logTile_log (hlost.trans hf) (by rw [hlog]; exact hl) t _ _ _

/-- A tile without work in progress is at the end of its work. -/
theorem State.settle_idle {s : State} {t : Nat} (h : s.tileBusyWork t = false) (n : Nat) : State.settle t n s = s := by
  cases n with
  | zero => rfl
  | succ n => rw [State.settle, h, if_neg Bool.false_ne_true]

/-- A tile without work in progress has no claimed write left. -/
theorem State.settleWrites_idle {s : State} {t : Nat} (h : s.tileBusyWork t = false) (n : Nat) : State.settleWrites t n s = s := by
  have hnone : (s.tile t).evs = [] ∧ (s.tile t).flights = [] := by
    simp only [State.tileBusyWork, Bool.or_eq_false_iff, Bool.not_eq_false', List.isEmpty_iff] at h
    obtain ⟨⟨⟨⟨⟨⟨⟨hev, -⟩, -⟩, -⟩, -⟩, -⟩, -⟩, hfl⟩ := h
    exact ⟨hev, hfl⟩
  cases n with
  | zero => rfl
  | succ n =>
    rw [State.settleWrites, hnone.1, hnone.2, if_neg (by simp)]

/-- A tile at a GATE parks (R130). -/
theorem exec_tilePark {s : State} {t : Nat} (hg : (s.tile t).gate.isSome = true) (hq : s.tcQuiet t = true) :
    ∃ u, exec (.tilePark t) s = .next u ∧ u.bit (Reg.SEQ_BEAT_STATUS t) 2 = true ∧
      (s.tileBusyWork t = false → u = s.setBit (Reg.SEQ_BEAT_STATUS t) 2 true) := by
  have hexec : exec (.tilePark t) s = execTilePark t s := rfl
  rw [hexec, execTilePark]
  cases s.bit (Reg.SEQ_BEAT_STATUS t) 0 with
  | true =>
    exact ⟨_, if_pos rfl, State.bit_setBit_self _ _ _ (by decide), fun _ => rfl⟩
  | false =>
    rw [if_neg Bool.false_ne_true, hg, hq]
    exact ⟨_, if_pos rfl, State.bit_setBit_self _ _ _ (by decide), fun hw => by rw [State.settle_idle hw]⟩

/-- A tile whose END has issued is done (R133, R163). -/
theorem exec_tileDone {s : State} {t : Nat} (he : (s.tile t).endAt.isSome = true) (hh : s.tcHalted t = true)
    (hr : (s.tile t).remoteWaits = false) :
    ∃ u, exec (.tileDone t) s = .next u ∧ u.bit (Reg.SEQ_BEAT_STATUS t) 0 = true ∧ (u.tile t).done = true ∧
      (s.tileBusyWork t = false → OnlyTile s u t ∧ RegsSameBut s u [Reg.SEQ_BEAT_STATUS t] ∧
        u.tile t = { s.tile t with done := true, doneHs := s.hs t }) := by
  let v := State.settleWrites t settleFuel s
  let u := (v.setTile t { v.tile t with done := true, doneHs := v.hs t }).setBit (Reg.SEQ_BEAT_STATUS t) 0 true
  have hexec : exec (.tileDone t) s = .next u := by
    show execTileDone t s = _
    rw [execTileDone, he, hh, hr]
    rfl
  obtain ⟨honly, htile⟩ := OnlyTile.of_setTile (s := v) (u := u) (t := t) rfl
  refine ⟨u, hexec, State.bit_setBit_self _ _ _ (by decide), by rw [htile], fun hw => ?_⟩
  have hv : v = s := State.settleWrites_idle hw _
  rw [hv] at honly htile
  refine ⟨honly, fun a ha => ?_, htile⟩
  rw [State.rd_setBit, if_neg (Ne.symm (by simpa using ha)), State.setTile_rd, hv]

/-- A tile with a remote signal that is not acknowledged is not done (R163). -/
theorem exec_tileDone_waits {s : State} {t : Nat} (hr : (s.tile t).remoteWaits = true) : exec (.tileDone t) s = .next s := by
  show execTileDone t s = _
  rw [execTileDone, hr, Bool.not_true, Bool.and_false, if_neg Bool.false_ne_true]

end Sys2Proof.Machine
end

section
/-! The wake of a waiter (R155, R158, R167). -/
namespace Sys2Proof.Machine
open Sys2Proof.Safety

/-! What a waiter looks at. -/

/-- The registers in which a waiting tile is seen: its semaphores, and the states of its contexts. -/
def Reg.ofWaits (t a : Nat) : Prop := (∃ k < 64, a = Reg.SEM_CNT t k) ∨ ∃ c < 8, a = Reg.SE_CTX_STATUS t c

/-- What a waiter looks at stays: the GATE, the tile core and the coming events of its tile, the semaphores and the contexts. -/
def SameWait (s u : State) (t : Nat) : Prop :=
  (u.tile t).gate = (s.tile t).gate ∧ (u.tile t).tc = (s.tile t).tc ∧ (u.tile t).evs = (s.tile t).evs ∧
  ∀ a, Reg.ofWaits t a → u.rd a = s.rd a

theorem SameWait.refl (s : State) (t : Nat) : SameWait s s t := ⟨rfl, rfl, rfl, fun _ _ => rfl⟩

theorem SameWait.trans {s u v : State} {t : Nat} (h : SameWait s u t) (h' : SameWait u v t) : SameWait s v t := by
  obtain ⟨hg, hc, he, hr⟩ := h
  obtain ⟨hg', hc', he', hr'⟩ := h'
  exact ⟨hg'.trans hg, hc'.trans hc, he'.trans he, fun a ha => (hr' a ha).trans (hr a ha)⟩

/-- The registers in which a waiting tile is seen are not those that follow its handshakes, nor its fault registers. -/
theorem Reg.ofWaits.places {t a : Nat} (h : Reg.ofWaits t a) :
    a ∉ tickRegs t ∧ a ≠ Reg.SE_ABORT t ∧ a ≠ Reg.SEQ_BEAT_STATUS t ∧ a ≠ Reg.SEQ_STATUS t ∧ a ≠ Reg.TC_STATUS t ∧
      a ≠ Reg.SE_STATUS t ∧ a < Reg.tileBase t + 0x10000 := by
  have hplaces : Reg.SEQ_HS t = Reg.tileBase t + 0x1004 ∧ Reg.VEU_STATUS t = Reg.tileBase t + 0x7004 ∧
      Reg.TILE_STATUS t = Reg.tileBase t + 0xC ∧ Reg.MVU_STATUS t = Reg.tileBase t + 0x6004 ∧
      Reg.ARR_ACTIVE_HS t 0 = Reg.tileBase t + 0x5014 ∧ Reg.ARR_GATED_LO t 0 = Reg.tileBase t + 0x5018 ∧
      Reg.ARR_GATED_HI t 0 = Reg.tileBase t + 0x501C ∧ Reg.ARR_ACTIVE_HS t 1 = Reg.tileBase t + 0x5814 ∧
      Reg.ARR_GATED_LO t 1 = Reg.tileBase t + 0x5818 ∧ Reg.ARR_GATED_HI t 1 = Reg.tileBase t + 0x581C ∧
      Reg.SE_ABORT t = Reg.tileBase t + 0x4008 ∧ Reg.SEQ_BEAT_STATUS t = Reg.tileBase t + 0x1100 ∧
      Reg.SEQ_STATUS t = Reg.tileBase t + 0x1000 ∧ Reg.TC_STATUS t = Reg.tileBase t + 0x2004 ∧
      Reg.SE_STATUS t = Reg.tileBase t + 0x4000 := ⟨rfl, rfl, rfl, rfl, rfl, rfl, rfl, rfl, rfl, rfl, rfl, rfl, rfl, rfl, rfl⟩
  obtain ⟨p1, p2, p3, p4, p5, p6, p7, p8, p9, p10, p11, p12, p13, p14, p15⟩ := hplaces
  have ha : (Reg.tileBase t + 0x3000 ≤ a ∧ a < Reg.tileBase t + 0x3400) ∨ (Reg.tileBase t + 0x411C ≤ a ∧ a < Reg.tileBase t + 0x4220) := by
    obtain ⟨k, hk, rfl⟩ | ⟨c, hc, rfl⟩ := h
    · exact .inl ⟨by rw [Reg.SEM_CNT]; omega, by rw [Reg.SEM_CNT]; omega⟩
    · exact .inr ⟨by rw [Reg.SE_CTX_STATUS]; omega, by rw [Reg.SE_CTX_STATUS]; omega⟩
  simp only [tickRegs, p1, p2, p3, p4, p5, p6, p7, p8, p9, p10, p11, p12, p13, p14, p15, List.mem_cons, List.not_mem_nil, or_false, not_or]
  clear p1 p2 p3 p4 p5 p6 p7 p8 p9 p10 p11 p12 p13 p14 p15 h
  generalize Reg.tileBase t = b at ha ⊢
  refine ⟨⟨?_, ?_, ?_, ?_, ?_, ?_, ?_, ?_, ?_, ?_⟩, ?_, ?_, ?_, ?_, ?_, ?_⟩ <;> omega

/-- The advance of a tile leaves what it waits for. -/
theorem Ticked.sameWait {s u : State} {t : Nat} (h : Ticked s u t) : SameWait s u t := by
  obtain ⟨-, -, -, ⟨fl, m, a0, a1, ht⟩, hr⟩ := h
  exact ⟨by rw [ht], by rw [ht], by rw [ht], fun a ha => hr a ha.places.1⟩

/-- The record of a stream fault shows it and leaves the tiles (R126). -/
theorem State.abortRecord_frame (s : State) {t : Nat} (ht : t < 128) (c cause addr : Nat) :
    (s.abortRecord t c cause addr).tiles = s.tiles ∧
      ∀ a, a < Reg.tileBase t + 0x10000 → a ≠ Reg.SE_ABORT t → (s.abortRecord t c cause addr).rd a = s.rd a := by
  unfold State.abortRecord
  dsimp only
  refine ⟨(State.logTile_frame _ t _ _ (by decide)).1, fun a hlt ha => ?_⟩
  rw [(State.logTile_frame _ t _ _ (by decide)).2.2.2 a (notMem_logRegs_tile ht hlt), State.rd_wr, if_neg ha.symm]

/-- The recording of stream faults leaves what a tile waits for, and the tile's time. -/
theorem State.settleAborts_sameWait (s : State) {t : Nat} (ht : t < 128) :
    SameWait s (s.settleAborts t) t ∧ (s.settleAborts t).hs t = s.hs t ∧
      (s.settleAborts t).rd (Reg.SEQ_BEAT_STATUS t) = s.rd (Reg.SEQ_BEAT_STATUS t) := by
  unfold State.settleAborts
  split
  · exact ⟨.refl s t, rfl, rfl⟩
  · next c cause addr _ =>
    obtain ⟨htiles, hrd⟩ := (s.updSe t (fun e => { e with aborts := [] })).abortRecord_frame ht c cause addr
    have htile : ((s.updSe t (fun e => { e with aborts := [] })).abortRecord t c cause addr).tile t =
        { s.tile t with se := { (s.tile t).se with aborts := [] } } := by
      rw [State.tile, htiles]
      exact (State.tile_setTile s t t _).trans (if_pos rfl)
    have hkept (a : Nat) (hlt : a < Reg.tileBase t + 0x10000) (ha : a ≠ Reg.SE_ABORT t) :
        ((s.updSe t (fun e => { e with aborts := [] })).abortRecord t c cause addr).rd a = s.rd a := by
      rw [hrd a hlt ha, State.updSe, State.setTile_rd]
    refine ⟨⟨by rw [htile], by rw [htile], by rw [htile], fun a ha => hkept a ha.places.2.2.2.2.2.2 ha.places.2.1⟩, ?_, ?_⟩
    · exact State.fld_of_rd (hkept _ (by simp [Reg.SEQ_HS]) (by simp [Reg.SEQ_HS, Reg.SE_ABORT])) 0 20
    · exact hkept _ (by simp [Reg.SEQ_BEAT_STATUS]) (by simp [Reg.SEQ_BEAT_STATUS, Reg.SE_ABORT])

/-- A tile that is no longer parked waits as before. -/
theorem State.unpark_sameWait (s : State) (t : Nat) : SameWait s (s.unpark t) t :=
  ⟨rfl, rfl, rfl, fun _ ha => by rw [State.unpark, State.rd_setBit, if_neg ha.places.2.2.1.symm]⟩

/-- Whether a waiter wakes depends on what it looks at. -/
theorem SameWait.wakes {s u : State} {t : Nat} (h : SameWait s u t) {k : Nat} (hk : k < 64) : u.wakes t k = s.wakes t k := by
  obtain ⟨hg, hc, -, hr⟩ := h
  have hsem := hr _ (.inl ⟨k, hk, rfl⟩)
  simp only [State.wakes, hg, hc, State.semBroken, State.semCount, State.bit, State.fld, hsem]
  rfl

/-! What a wake comes to. -/

/-- A change of registers alone leaves every tile's record. -/
theorem State.tile_of_regs {s u : State} (h : u = { s with regs := u.regs }) (j : Nat) : u.tile j = s.tile j := by
  rw [h]; rfl

/-- A change of registers alone. -/
theorem OnlyTile.of_regs {s u : State} (h : u = { s with regs := u.regs }) {t : Nat} : OnlyTile s u t := by
  refine ⟨?_, fun k _ => ?_⟩
  · rw [h]
  · rw [h]; rfl

theorem OnlyTile.trans {s u v : State} {t : Nat} (h : OnlyTile s u t) (h' : OnlyTile u v t) : OnlyTile s v t := by
  obtain ⟨hu, hk⟩ := h
  obtain ⟨hv, hk'⟩ := h'
  exact ⟨by rw [hv, hu], fun k hne => (hk' k hne).trans (hk k hne)⟩

theorem OnlyTile.setBit (s : State) (t a i : Nat) (b : Bool) : OnlyTile s (s.setBit a i b) t := ⟨rfl, fun _ _ => rfl⟩

theorem OnlyTile.setFld (s : State) (t a lo w v : Nat) : OnlyTile s (s.setFld a lo w v) t := ⟨rfl, fun _ _ => rfl⟩

/-- A tile that makes handshakes is not parked. -/
theorem State.inBeat_notParked {s : State} {t : Nat} (h : s.inBeat t = true) : s.bit (Reg.SEQ_BEAT_STATUS t) 2 = false := by
  unfold State.inBeat at h
  split at h
  · split at h
    · simp only [Bool.and_eq_true, Bool.not_eq_true'] at h
      exact h.2
    · cases h
  · cases h

/-- The first handshake after a wake has come (R158). -/
def State.woken (s : State) (t : Nat) : State :=
  if s.inBeat t then s.advanceTo t (s.hs t + 1)
  else ((s.unpark t).settleAborts t).advanceTo t (((s.unpark t).settleAborts t).hs t + 1)

/-- A waiter of a semaphore wakes and takes, or aborts. -/
theorem exec_waiterWake_eq (s : State) (t : Nat) (k : BitVec 6) :
    exec (.waiterWake t k) s =
      if (if (s.creditWake t k.toNat).inBeat t then (s.creditWake t k.toNat).advanceTo t ((s.creditWake t k.toNat).hs t + 1)
        else s.creditWake t k.toNat).wakes t k.toNat
      then .next (((((s.creditWake t k.toNat).woken t).gateWake t k.toNat).waitWake t k.toNat).semWaiters t k.toNat)
      else .next (s.creditWake t k.toNat) := by
  have hexec : exec (.waiterWake t k) s = execWaiterWake t k s := rfl
  rw [hexec, execWaiterWake, State.woken]
  dsimp only
  generalize s.creditWake t k.toNat = w
  cases w.inBeat t with
  | true => simp only [if_true]
  | false => simp only [Bool.false_eq_true, if_false]

/-- The advance of a tile to the next handshake leaves what it waits for, and whether it is parked. -/
theorem State.advanceTo_sameWait {s : State} {t : Nat} (ht : t < 128) (he : (s.tile t).evs = []) (hh : s.hs t + 1 < 2 ^ 20) :
    let u := s.advanceTo t (s.hs t + 1)
    SameWait s u t ∧ u.hs t = s.hs t + 1 ∧ u.rd (Reg.SEQ_BEAT_STATUS t) = s.rd (Reg.SEQ_BEAT_STATUS t) ∧
      ((s.tile t).se.aborts = [] → (s.tile t).flights = [] → OnlyTile s u t) := by
  obtain ⟨hwait, -, hbeat⟩ := s.settleAborts_sameWait ht
  have hticked : Ticked (s.settleAborts t) (s.advanceTo t (s.hs t + 1)) t :=
    State.advanceTo_settled (hwait.2.2.1.trans he) (Nat.lt_succ_self _)
  refine ⟨hwait.trans hticked.sameWait, s.advanceTo_hs t hh, ?_, fun ha hf => ?_⟩
  · obtain ⟨-, -, -, -, hr⟩ := hticked
    exact (hr _ (by simp [tickRegs, Reg.SEQ_BEAT_STATUS, Reg.SEQ_HS, Reg.VEU_STATUS, Reg.TILE_STATUS, Reg.MVU_STATUS, Reg.ARR_ACTIVE_HS,
      Reg.ARR_GATED_LO, Reg.ARR_GATED_HI])).trans hbeat
  · rw [s.settleAborts_nil t ha] at hticked
    obtain ⟨hu, hfl, hk, -, -⟩ := hticked
    obtain ⟨-, hstore, hups⟩ := hfl hf
    exact ⟨by rw [hu, hstore, hups], hk⟩

/-- A wake leaves what is waited for; the tile is one handshake on and not parked. -/
theorem State.woken_frame {s : State} {t : Nat} (ht : t < 128) (he : (s.tile t).evs = []) (hh : s.hs t + 1 < 2 ^ 20) :
    SameWait s (s.woken t) t ∧ (s.woken t).hs t = s.hs t + 1 ∧ (s.woken t).bit (Reg.SEQ_BEAT_STATUS t) 2 = false ∧
      ((s.tile t).se.aborts = [] → (s.tile t).flights = [] → OnlyTile s (s.woken t) t) := by
  unfold State.woken
  split
  · next hin =>
    obtain ⟨hwait, hhs, hbeat, honly⟩ := State.advanceTo_sameWait ht he hh
    exact ⟨hwait, hhs, (State.bit_of_rd hbeat 2).trans (State.inBeat_notParked hin), honly⟩
  · have hun := s.unpark_sameWait t
    have hunhs : (s.unpark t).hs t = s.hs t := by
      rw [State.hs, State.unpark, State.fld_of_rd (State.rd_setBit _ _ _ _ _ ▸ if_neg (by simp [Reg.SEQ_BEAT_STATUS, Reg.SEQ_HS]))]; rfl
    obtain ⟨hset, hseths, hsetbeat⟩ := (s.unpark t).settleAborts_sameWait ht
    obtain ⟨hwait, hhs, hbeat, honly⟩ := State.advanceTo_sameWait (s := (s.unpark t).settleAborts t) ht
      ((hun.trans hset).2.2.1.trans he) (by rw [hseths, hunhs]; exact hh)
    refine ⟨(hun.trans hset).trans hwait, hhs.trans (by rw [hseths, hunhs]), ?_, fun ha hf => ?_⟩
    · rw [State.bit_of_rd (hbeat.trans hsetbeat), State.unpark, State.bit_setBit_self _ _ _ (by decide)]
    · have hnil : (s.unpark t).settleAborts t = s.unpark t := State.settleAborts_nil _ t ha
      rw [hnil] at honly ⊢
      exact OnlyTile.trans (OnlyTile.setBit s t _ _ _) (honly ha hf)

/-! The waiters of a semaphore that takes or is Broken. -/

/-- The registration of a semaphore's waiters writes its register, and in it neither the count nor whether it is Broken (R158). -/
theorem State.semWaiters_frame (s : State) (t k : Nat) :
    let u := s.semWaiters t k
    u = { s with regs := u.regs } ∧ (∀ a, a ≠ Reg.SEM_CNT t k → u.rd a = s.rd a) ∧ u.semCount t k = s.semCount t k ∧
      ((s.tile t).gate = none → u.bit (Reg.SEM_CNT t k) 17 = false) ∧
      ((s.tile t).tc.waitSem = none → u.bit (Reg.SEM_CNT t k) 18 = false) := by
  have hbit (u : State) (n i : Nat) (hi : i < 20) : (u.setFld (Reg.SEM_CNT t k) 20 12 n).bit (Reg.SEM_CNT t k) i = u.bit (Reg.SEM_CNT t k) i := by
    rw [State.bit, State.bit, State.rd_setFld, if_pos rfl, Word.bit_eq_field, Word.bit_eq_field,
      Word.field_setField_below _ _ _ _ _ _ (by decide) (by omega)]
  unfold State.semWaiters
  refine ⟨rfl, fun a ha => ?_, ?_, fun hg => ?_, fun hw => ?_⟩
  · simp only [State.rd_setFld, State.rd_setBit, Ne.symm ha, if_false]
  · have hcnt (u : State) (i : Nat) (hi : 12 ≤ i) (hl : i < 32) (b : Bool) :
        (u.setBit (Reg.SEM_CNT t k) i b).fld (Reg.SEM_CNT t k) 0 12 = u.fld (Reg.SEM_CNT t k) 0 12 :=
      State.fld_setFld_below u _ _ (by omega) (by omega)
    rw [State.semCount, State.fld_setFld_below _ _ _ (by decide) (by decide), hcnt _ 18 (by decide) (by decide),
      hcnt _ 17 (by decide) (by decide)]; rfl
  · rw [hbit _ _ _ (by decide), State.bit_setBit_other _ _ _ (by decide) (by decide), State.bit_setBit_self _ _ _ (by decide), hg]; rfl
  · rw [hbit _ _ _ (by decide), State.bit_setBit_self _ _ _ (by decide), hw]; rfl

/-- A take of what a semaphore holds (R155). -/
theorem State.semTry_taken {s : State} {t k n : Nat} (hb : s.semBroken t k = false) (hn : n ≤ s.semCount t k) (h0 : 0 < n) :
    s.semTry t k n = (.taken, s.setSemCount t k (s.semCount t k - n)) := by
  rw [State.semTry, if_neg (by omega), hb, if_neg Bool.false_ne_true]
  exact if_pos hn

/-- A take from a Broken semaphore (R167). -/
theorem State.semTry_broken {s : State} {t k n : Nat} (hb : s.semBroken t k = true) (h0 : 0 < n) : s.semTry t k n = (.broken, s) := by
  rw [State.semTry, if_neg (by omega), hb, if_pos rfl]

/-- A count is written in its register alone. -/
theorem State.setSemCount_frame (s : State) (t k : Nat) {n : Nat} (hn : n < 4096) :
    let u := s.setSemCount t k n
    OnlyTile s u t ∧ u.tile t = s.tile t ∧ u.semCount t k = n ∧ ∀ a, a ≠ Reg.SEM_CNT t k → u.rd a = s.rd a := by
  refine ⟨OnlyTile.setFld s t _ _ _ _, State.setFld_tile_of _ _ _ _ _ _, ?_, fun a ha => ?_⟩
  · rw [State.setSemCount, State.semCount, State.fld_setFld_self _ _ _ (by decide)]
    omega
  · rw [State.setSemCount, State.rd_setFld, if_neg (Ne.symm ha)]

/-- The sequencer that goes on after a take. -/
theorem State.gateDone_frame (s : State) (t entry h : Nat) :
    let u := s.gateDone t entry h
    OnlyTile s u t ∧ (u.tile t).gate = none ∧ (u.tile t).nextHs = h + 1 ∧ (u.tile t).tc = (s.tile t).tc ∧
      u.bit (Reg.SEQ_STATUS t) 17 = false ∧ ∀ a, a ≠ Reg.SEQ_STATUS t → u.rd a = s.rd a := by
  obtain ⟨honly, htile⟩ := OnlyTile.of_setTile (s := s) (t := t) (u := s.gateDone t entry h) rfl
  refine ⟨honly, by rw [htile], by rw [htile], by rw [htile], State.bit_setBit_self _ _ _ (by decide), fun a ha => ?_⟩
  rw [State.gateDone, State.rd_setBit, if_neg (Ne.symm ha), State.setTile_rd]

/-- What the GATE's take comes to. -/
theorem State.gateWake_taken {s : State} {t k n entry : Nat} (hg : (s.tile t).gate = some (k, n, entry)) (hb : s.semBroken t k = false)
    (hn : n ≤ s.semCount t k) (h0 : 0 < n) :
    s.gateWake t k = (s.setSemCount t k (s.semCount t k - n)).gateDone t entry ((s.setSemCount t k (s.semCount t k - n)).hs t) := by
  rw [State.gateWake, hg]
  dsimp only
  rw [if_pos rfl, State.semTry_taken hb hn h0]

/-- A GATE whose semaphore covers its amount takes it (R158). -/
theorem State.gate_takes {s : State} {t k n entry : Nat} (hg : (s.tile t).gate = some (k, n, entry)) (hw : (s.tile t).tc.waitSem = none)
    (hk : k < 64) (hb : s.semBroken t k = false) (hn : n ≤ s.semCount t k) (h0 : 0 < n) :
    let u := ((s.gateWake t k).waitWake t k).semWaiters t k
    u.semCount t k = s.semCount t k - n ∧ (u.tile t).gate = none ∧ (u.tile t).nextHs = s.hs t + 1 ∧ u.hs t = s.hs t ∧
      u.rd (Reg.SEQ_BEAT_STATUS t) = s.rd (Reg.SEQ_BEAT_STATUS t) ∧ u.bit (Reg.SEQ_STATUS t) 17 = false ∧
      u.bit (Reg.SEM_CNT t k) 17 = false ∧ OnlyTile s u t := by
  have hmax := s.fld_lt (Reg.SEM_CNT t k) 0 12
  obtain ⟨-, -, hbeat, hseq, -, -, -⟩ := Reg.ofWaits.places (.inl ⟨k, hk, rfl⟩ : Reg.ofWaits t (Reg.SEM_CNT t k))
  have hsemhs : Reg.SEQ_HS t ≠ Reg.SEM_CNT t k := by
    have : Reg.SEQ_HS t = Reg.tileBase t + 0x1004 := rfl
    rw [this, Reg.SEM_CNT]; omega
  have hseqs : Reg.SEQ_HS t ≠ Reg.SEQ_STATUS t ∧ Reg.SEQ_BEAT_STATUS t ≠ Reg.SEQ_STATUS t := by
    simp [Reg.SEQ_HS, Reg.SEQ_STATUS, Reg.SEQ_BEAT_STATUS]
  obtain ⟨ho1, ht1, hc1, hr1⟩ := s.setSemCount_frame t k (n := s.semCount t k - n) (by rw [State.semCount]; omega)
  generalize hx : s.setSemCount t k (s.semCount t k - n) = x at ho1 ht1 hc1 hr1
  have hxhs : x.hs t = s.hs t := State.fld_of_rd (hr1 _ hsemhs) 0 20
  obtain ⟨ho2, hg2, hn2, htc2, hq2, hr2⟩ := x.gateDone_frame t entry (x.hs t)
  have hgate : s.gateWake t k = x.gateDone t entry (x.hs t) := by
    rw [State.gateWake_taken hg hb hn h0, hx]
  generalize x.gateDone t entry (x.hs t) = y at ho2 hg2 hn2 htc2 hq2 hr2 hgate
  have hwait : y.waitWake t k = y := by rw [State.waitWake, htc2, ht1, hw]
  obtain ⟨hu, hr3, hc3, h17, -⟩ := y.semWaiters_frame t k
  dsimp only
  rw [hgate, hwait]
  have htile := State.tile_of_regs hu
  have hcy : y.semCount t k = x.semCount t k := State.fld_of_rd (hr2 _ hseq) 0 12
  refine ⟨hc3.trans (hcy.trans hc1), by rw [htile, hg2], by rw [htile, hn2, hxhs], ?_, ?_, ?_, h17 hg2, ?_⟩
  · exact (State.fld_of_rd ((hr3 _ hsemhs).trans (hr2 _ hseqs.1)) 0 20).trans hxhs
  · exact (hr3 _ hbeat.symm).trans ((hr2 _ hseqs.2).trans (hr1 _ hbeat.symm))
  · exact (State.bit_of_rd (hr3 _ hseq.symm) 17).trans hq2
  · exact OnlyTile.trans (OnlyTile.trans ho1 ho2) (OnlyTile.of_regs hu)

/-- What the WAIT's take comes to. -/
theorem State.waitWake_taken {s : State} {t k n : Nat} (hw : (s.tile t).tc.waitSem = some (k, n)) (hb : s.semBroken t k = false)
    (hn : n ≤ s.semCount t k) (h0 : 0 < n) :
    s.waitWake t k = ((s.setSemCount t k (s.semCount t k - n)).setTc t { ((s.setSemCount t k (s.semCount t k - n)).tile t).tc with
      waitSem := none, next := (s.setSemCount t k (s.semCount t k - n)).hs t + 1 }).setTcState t 1 := by
  rw [State.waitWake, hw]
  dsimp only
  rw [if_pos rfl, State.semTry_taken hb hn h0]

/-- The tile core that goes on after a take. -/
theorem State.tcGoesOn_frame (s : State) (t : Nat) (c : TcSt) :
    let u := (s.setTc t c).setTcState t 1
    OnlyTile s u t ∧ (u.tile t).gate = (s.tile t).gate ∧ (u.tile t).tc = c ∧ u.fld (Reg.TC_STATUS t) 0 2 = 1 ∧
      ∀ a, a ≠ Reg.TC_STATUS t → u.rd a = s.rd a := by
  obtain ⟨honly, htile⟩ := OnlyTile.of_setTile (s := s) (t := t) (u := (s.setTc t c).setTcState t 1) rfl
  refine ⟨honly, by rw [htile], by rw [htile], State.fld_setFld_self _ _ _ (by decide), fun a ha => ?_⟩
  rw [State.setTcState, State.rd_setFld, if_neg (Ne.symm ha), State.setTc, State.setTile_rd]

/-- A WAIT whose semaphore covers its amount takes it (R158). -/
theorem State.wait_takes {s : State} {t k n : Nat} (hg : (s.tile t).gate = none) (hw : (s.tile t).tc.waitSem = some (k, n))
    (hk : k < 64) (hb : s.semBroken t k = false) (hn : n ≤ s.semCount t k) (h0 : 0 < n) :
    let u := ((s.gateWake t k).waitWake t k).semWaiters t k
    u.semCount t k = s.semCount t k - n ∧ (u.tile t).tc.waitSem = none ∧ (u.tile t).tc.next = s.hs t + 1 ∧ u.hs t = s.hs t ∧
      u.fld (Reg.TC_STATUS t) 0 2 = 1 ∧ u.rd (Reg.SEQ_BEAT_STATUS t) = s.rd (Reg.SEQ_BEAT_STATUS t) ∧
      u.bit (Reg.SEM_CNT t k) 18 = false ∧ OnlyTile s u t := by
  have hmax := s.fld_lt (Reg.SEM_CNT t k) 0 12
  obtain ⟨-, -, hbeat, -, htc, -, -⟩ := Reg.ofWaits.places (.inl ⟨k, hk, rfl⟩ : Reg.ofWaits t (Reg.SEM_CNT t k))
  have hsemhs : Reg.SEQ_HS t ≠ Reg.SEM_CNT t k := by
    have : Reg.SEQ_HS t = Reg.tileBase t + 0x1004 := rfl
    rw [this, Reg.SEM_CNT]; omega
  have htcs : Reg.SEQ_HS t ≠ Reg.TC_STATUS t ∧ Reg.SEQ_BEAT_STATUS t ≠ Reg.TC_STATUS t := by
    simp [Reg.SEQ_HS, Reg.TC_STATUS, Reg.SEQ_BEAT_STATUS]
  have hgate : s.gateWake t k = s := by rw [State.gateWake, hg]
  have hwait := State.waitWake_taken hw hb hn h0
  obtain ⟨ho1, ht1, hc1, hr1⟩ := s.setSemCount_frame t k (n := s.semCount t k - n) (by rw [State.semCount]; omega)
  generalize s.setSemCount t k (s.semCount t k - n) = x at ho1 ht1 hc1 hr1 hwait
  have hxhs : x.hs t = s.hs t := State.fld_of_rd (hr1 _ hsemhs) 0 20
  obtain ⟨ho2, hg2, htc2, hst2, hr2⟩ := x.tcGoesOn_frame t { (x.tile t).tc with waitSem := none, next := x.hs t + 1 }
  generalize (x.setTc t { (x.tile t).tc with waitSem := none, next := x.hs t + 1 }).setTcState t 1 = y at ho2 hg2 htc2 hst2 hr2 hwait
  obtain ⟨hu, hr3, hc3, -, h18⟩ := y.semWaiters_frame t k
  dsimp only
  rw [hgate, hwait]
  have htile := State.tile_of_regs hu
  have hcy : y.semCount t k = x.semCount t k := State.fld_of_rd (hr2 _ htc) 0 12
  refine ⟨hc3.trans (hcy.trans hc1), by rw [htile, htc2], by rw [htile, htc2, hxhs], ?_, ?_, ?_, h18 (by rw [htc2]), ?_⟩
  · exact (State.fld_of_rd ((hr3 _ hsemhs).trans (hr2 _ htcs.1)) 0 20).trans hxhs
  · exact (State.fld_of_rd (hr3 _ htc.symm) 0 2).trans hst2
  · exact (hr3 _ hbeat.symm).trans ((hr2 _ htcs.2).trans (hr1 _ hbeat.symm))
  · exact OnlyTile.trans (OnlyTile.trans ho1 ho2) (OnlyTile.of_regs hu)

end Sys2Proof.Machine
end

section
/-! What the work of a tile leaves alone: the DRAM, the channels, the other tiles, and what says whether the tile waits, has stopped, and
runs in an open beat of its partition. -/
namespace Sys2Proof.Machine
open Sys2Proof.Safety

/-! What stays. -/

/-- The beat of a partition stays as it is; a gap may still abort it. -/
def Part.Steady (x y : Part) : Prop :=
  y.beatOpen = x.beatOpen ∧ y.openMs = x.openMs ∧ y.variants = x.variants ∧ (x.gapAbort = true → y.gapAbort = true)

/-- Every partition's beat stays as it is. -/
def PartsSteady (s u : State) : Prop := ∀ p x, s.part p = some x → ∃ y, u.part p = some y ∧ Part.Steady x y

/-- A tile waits for nothing that it did not wait for, and goes on with nothing that has stopped. -/
def Tile.Keeps (x y : Tile) : Prop :=
  (x.gate = none → y.gate = none) ∧ (x.tc.waitSem = none → y.tc.waitSem = none) ∧ (x.stopped = true → y.stopped = true) ∧
    (x.tc.stopped = true → y.tc.stopped = true)

/-- Nothing but a tile's own work has been done. -/
def Works (s u : State) (t : Nat) : Prop :=
  u.dram = s.dram ∧ u.chans = s.chans ∧ (∀ k, k ≠ t → u.tile k = s.tile k) ∧ Tile.Keeps (s.tile t) (u.tile t) ∧ PartsSteady s u

theorem Part.Steady.refl (x : Part) : Part.Steady x x := ⟨rfl, rfl, rfl, id⟩

theorem Part.Steady.trans {x y z : Part} (h : Part.Steady x y) (h' : Part.Steady y z) : Part.Steady x z := by
  obtain ⟨h1, h2, h3, h4⟩ := h
  obtain ⟨h1', h2', h3', h4'⟩ := h'
  exact ⟨h1'.trans h1, h2'.trans h2, h3'.trans h3, fun h => h4' (h4 h)⟩

theorem PartsSteady.refl (s : State) : PartsSteady s s := fun _ x h => ⟨x, h, .refl x⟩

theorem PartsSteady.trans {s u v : State} (h : PartsSteady s u) (h' : PartsSteady u v) : PartsSteady s v := by
  intro p x hx
  obtain ⟨y, hy, hxy⟩ := h p x hx
  obtain ⟨z, hz, hyz⟩ := h' p y hy
  exact ⟨z, hz, hxy.trans hyz⟩

/-- States with the same partitions. -/
theorem PartsSteady.of_parts {s u : State} (h : u.parts = s.parts) : PartsSteady s u := fun p x hx =>
  ⟨x, (State.part_of_parts h p).trans hx, .refl x⟩

/-- A partition's record is changed. -/
theorem PartsSteady.updPart (s : State) (p : Nat) {f : Part → Part} (hf : ∀ x, Part.Steady x (f x)) : PartsSteady s (s.updPart p f) := by
  intro q x hx
  unfold State.updPart
  cases hp : s.part p with
  | none => exact ⟨x, hx, .refl x⟩
  | some y =>
    by_cases hpq : p = q
    · subst hpq
      rw [hp, Option.some.injEq] at hx
      subst hx
      exact ⟨_, (State.part_setPart s p p _).trans (if_pos rfl), hf y⟩
    · exact ⟨x, (State.part_setPart s p q _).trans ((if_neg hpq).trans hx), .refl x⟩

/-- Every partition's record is changed. -/
theorem PartsSteady.map {s u : State} {f : Nat → Part → Part} (h : u.parts = s.parts.map (fun px => (px.1, f px.1 px.2)))
    (hf : ∀ p x, Part.Steady x (f p x)) : PartsSteady s u := by
  intro p x hx
  refine ⟨f p x, ?_, hf p x⟩
  rw [State.part, h, SMap.find_map]
  exact congrArg (Option.map (f p)) hx

/-- What DEVICE_FATAL makes of a partition (R41, R366). -/
def State.fatalPart (s : State) (p : Nat) (x : Part) : Part :=
  if s.pstate p = psArmed ∨ s.pstate p = psRunning then { s.faulted p x with devFatal := 2 }
  else if s.pstate p = psStopped then x
  else { x with devFatal := 2 }

/-- What a severity does leaves the beats of the partitions (R41). -/
theorem State.logEffect_steady (s : State) (sev : Nat) (part : Option Nat) : PartsSteady s (s.logEffect sev part) := by
  unfold State.logEffect
  split
  · cases part with
    | none => exact .refl s
    | some p => exact .updPart s p fun x => .refl x
  · split
    · obtain ⟨hv, -⟩ := State.vector2_only { s with
        parts := s.parts.map (fun (px : Nat × Part) =>
          if s.pstate px.1 = psArmed ∨ s.pstate px.1 = psRunning then (px.1, { s.faulted px.1 px.2 with devFatal := 2 })
          else if s.pstate px.1 = psStopped then px
          else (px.1, { px.2 with devFatal := 2 })),
        alertStatus := s.alertStatus ||| 4 }
      refine .map (f := s.fatalPart) ((congrArg State.parts hv).trans ?_) fun p x => ?_
      · refine List.map_congr_left fun px _ => ?_
        unfold State.fatalPart
        split_ifs <;> rfl
      · unfold State.fatalPart
        split_ifs <;> exact .refl x
    · exact .refl s

/-- The kept cause of a fault leaves the beats of the partitions (R369). -/
theorem State.keepCause_steady (s : State) (sev : Nat) (part : Option Nat) (r : LogRec) : PartsSteady s (s.keepCause sev part r) := by
  unfold State.keepCause
  split
  · exact .refl s
  · refine .map (f := fun p x => if (part = some p ∨ part = none) ∧ x.fault ∧ x.cause = none then { x with cause := some r } else x) ?_
      fun p x => ?_
    · refine List.map_congr_left fun px _ => ?_
      split_ifs <;> rfl
    · split_ifs <;> exact .refl x

/-- A record leaves the beats of the partitions. -/
theorem State.logRec_steady (s : State) (cls idx code sev : Nat) (part : Option Nat) (detail : List Byte) :
    PartsSteady s (s.logRec cls idx code sev part detail) := by
  obtain ⟨-, hparts, -⟩ := s.logRec_only cls idx code sev part detail
  exact ((s.logEffect_steady sev part).trans (State.keepCause_steady _ _ _ _)).trans (.of_parts hparts)

/-! Steps of a tile's work. -/

theorem Tile.Keeps.refl (x : Tile) : Tile.Keeps x x := ⟨id, id, id, id⟩

theorem Tile.Keeps.trans {x y z : Tile} (h : Tile.Keeps x y) (h' : Tile.Keeps y z) : Tile.Keeps x z := by
  obtain ⟨h1, h2, h3, h4⟩ := h
  obtain ⟨h1', h2', h3', h4'⟩ := h'
  exact ⟨fun h => h1' (h1 h), fun h => h2' (h2 h), fun h => h3' (h3 h), fun h => h4' (h4 h)⟩

theorem Works.refl (s : State) (t : Nat) : Works s s t := ⟨rfl, rfl, fun _ _ => rfl, .refl _, .refl s⟩

theorem Works.trans {s u v : State} {t : Nat} (h : Works s u t) (h' : Works u v t) : Works s v t := by
  obtain ⟨h1, h2, h3, h4, h5⟩ := h
  obtain ⟨h1', h2', h3', h4', h5'⟩ := h'
  exact ⟨h1'.trans h1, h2'.trans h2, fun k hk => (h3' k hk).trans (h3 k hk), h4.trans h4', h5.trans h5'⟩

/-- A state with the same DRAM, channels, tiles and partitions. -/
theorem Works.same {s u v : State} {t : Nat} (h : Works s u t) (hd : v.dram = u.dram) (hc : v.chans = u.chans) (ht : v.tiles = u.tiles)
    (hp : v.parts = u.parts) : Works s v t := by
  refine h.trans ⟨hd, hc, fun k _ => by rw [State.tile, ht]; rfl, ?_, .of_parts hp⟩
  rw [State.tile, State.tile, ht]
  exact .refl _

theorem Works.wr {s u : State} {t : Nat} (h : Works s u t) (a : Nat) (v : Word) : Works s (u.wr a v) t := h.same rfl rfl rfl rfl

theorem Works.setFld {s u : State} {t : Nat} (h : Works s u t) (a lo w v : Nat) : Works s (u.setFld a lo w v) t := h.wr _ _

theorem Works.setBit {s u : State} {t : Nat} (h : Works s u t) (a i : Nat) (b : Bool) : Works s (u.setBit a i b) t := h.wr _ _

theorem Works.addReg {s u : State} {t : Nat} (h : Works s u t) (a n : Nat) : Works s (u.addReg a n) t := h.wr _ _

theorem Works.orReg {s u : State} {t : Nat} (h : Works s u t) (a : Nat) (v : Word) : Works s (u.orReg a v) t := h.wr _ _

theorem Works.wr2 {s u : State} {t : Nat} (h : Works s u t) (lo hi v : Nat) : Works s (u.wr2 lo hi v) t := (h.wr _ _).wr _ _

theorem Works.stepFree {s u : State} {t : Nat} (h : Works s u t) : Works s u.stepFree t := h.same rfl rfl rfl rfl

theorem Works.setRouter {s u : State} {t : Nat} (h : Works s u t) (r : Nat) (x : Router) : Works s (u.setRouter r x) t :=
  h.same rfl rfl rfl rfl

theorem Works.setTile {s u : State} {t : Nat} (h : Works s u t) {x : Tile} (hx : Tile.Keeps (u.tile t) x) : Works s (u.setTile t x) t := by
  refine h.trans ⟨rfl, rfl, fun k hk => ?_, ?_, .of_parts rfl⟩
  · rw [State.tile_setTile, if_neg hk.symm]
  · rw [State.tile_setTile, if_pos rfl]
    exact hx

theorem Works.updPart {s u : State} {t : Nat} (h : Works s u t) (p : Nat) {f : Part → Part} (hf : ∀ x, Part.Steady x (f x)) :
    Works s (u.updPart p f) t := by
  have htiles : (u.updPart p f).tiles = u.tiles ∧ (u.updPart p f).dram = u.dram ∧ (u.updPart p f).chans = u.chans := by
    unfold State.updPart
    split <;> exact ⟨rfl, rfl, rfl⟩
  obtain ⟨ht, hd, hc⟩ := htiles
  refine h.trans ⟨hd, hc, fun k _ => by rw [State.tile, ht]; rfl, ?_, .updPart u p hf⟩
  rw [State.tile, State.tile, ht]
  exact .refl _

theorem Works.logRec {s u : State} {t : Nat} (h : Works s u t) (cls idx code sev : Nat) (part : Option Nat) (detail : List Byte) :
    Works s (u.logRec cls idx code sev part detail) t := by
  obtain ⟨honly, -⟩ := u.logRec_only cls idx code sev part detail
  have htiles : (u.logRec cls idx code sev part detail).tiles = u.tiles := by rw [honly]
  refine h.trans ⟨by rw [honly], by rw [honly], fun k _ => by rw [State.tile, htiles]; rfl, ?_, State.logRec_steady u cls idx code sev part detail⟩
  rw [State.tile, State.tile, htiles]
  exact .refl _

theorem Works.logTile {s u : State} {t : Nat} (h : Works s u t) (t' code sev : Nat) (detail : List Byte) :
    Works s (u.logTile t' code sev detail) t := h.logRec ..

theorem Works.raiseFault {s u : State} {t : Nat} (h : Works s u t) (p : Nat) : Works s (u.raiseFault p) t :=
  h.updPart p fun x => .refl x

/-- The fault line of the tile's partition. -/
theorem Works.line {s u : State} {t : Nat} (h : Works s u t) (t' : Nat) :
    Works s (match u.tilePart t' with | some p => u.raiseFault p | none => u) t := by
  split
  · exact h.raiseFault _
  · exact h

theorem Works.foldl {α : Type} {s u : State} {t : Nat} (h : Works s u t) {f : State → α → State}
    (hf : ∀ v x, Works s v t → Works s (f v x) t) (l : List α) : Works s (l.foldl f u) t := by
  induction l generalizing u with
  | nil => exact h
  | cons x r ih => exact ih (hf u x h)

/-- One of two ways on. -/
theorem Works.ite {s u v : State} {t : Nat} (h : Works s u t) (h' : Works s v t) {c : Prop} [Decidable c] :
    Works s (if c then u else v) t := by
  split
  · exact h
  · exact h'

end Sys2Proof.Machine
end

section
/-! The work that the events of a tile do. -/
namespace Sys2Proof.Machine
open Sys2Proof.Safety

/-! The tile's record. -/

theorem Tile.Keeps.setArr (x : Tile) (arr : Nat) (a : ArrSt) : Tile.Keeps x (x.setArr arr a) := by
  unfold Tile.setArr
  split <;> exact ⟨id, id, id, id⟩

theorem Tile.Keeps.addEv (x : Tile) (e : TileEv) : Tile.Keeps x (x.addEv e) := by
  unfold Tile.addEv
  split
  · split
    · split <;> exact ⟨id, id, id, id⟩
    · split
      · split <;> exact ⟨id, id, id, id⟩
      · exact ⟨id, id, id, id⟩
  · exact ⟨id, id, id, id⟩

theorem Tile.Keeps.addEvs (x : Tile) (l : List TileEv) : Tile.Keeps x (x.addEvs l) := by
  unfold Tile.addEvs
  induction l generalizing x with
  | nil => exact .refl x
  | cons e r ih => exact (Tile.Keeps.addEv x e).trans (ih _)

variable {s u : State} {t : Nat}

/-! Semaphores (R158). -/

theorem Works.semFault (h : Works s u t) (k cause src amount before issuer : Nat) :
    Works s (u.semFault t k cause src amount before issuer) t := by
  unfold State.semFault
  extract_lets u1 u2 x u3
  have h1 : Works s u1 t := h.ite ((h.wr _ _).wr _ _)
  have h2 : Works s u2 t := h1.line t
  have h3 : Works s u3 t := Works.setTile h2 ⟨id, id, id, id⟩
  exact h1.ite (h2.ite (h3.logTile _ _ _ _))

theorem Works.semSignal (h : Works s u t) (k n src issuer : Nat) : Works s (u.semSignal t k n src issuer) t :=
  h.ite ((h.semFault _ _ _ _ _ _).ite (h.setFld _ _ _ _))

theorem Works.semTry (h : Works s u t) (k n : Nat) : Works s (u.semTry t k n).2 t := by
  unfold State.semTry
  dsimp only
  split_ifs
  · exact h
  · exact h
  · exact h.setFld _ _ _ _
  · exact h

theorem Works.stopSeq (h : Works s u t) : Works s (u.stopSeq t) t := h.setTile ⟨fun _ => rfl, id, fun _ => rfl, id⟩

theorem Works.semTake (h : Works s u t) (k n issuer : Nat) : Works s (u.semTake t k n issuer) t := by
  have htry := h.semTry k n
  unfold State.semTake
  split
  · next heq => rw [heq] at htry; exact htry
  · next heq => rw [heq] at htry; exact htry.semFault _ _ _ _ _ _
  · next heq => rw [heq] at htry; exact (htry.semFault _ _ _ _ _ _).stopSeq

theorem Works.semWaiters (h : Works s u t) (k : Nat) : Works s (u.semWaiters t k) t :=
  ((h.setBit _ _ _).setBit _ _ _).setFld _ _ _ _

theorem Works.semRestore (h : Works s u t) : Works s (u.semRestore t) t := h.foldl (fun _ _ hv => (hv.setFld _ _ _ _).ite hv) _

/-! The store (R108 to R113). -/

theorem Works.landFlights (h : Works s u t) (hs : Nat) : Works s (u.landFlights t hs) t := by
  unfold State.landFlights
  dsimp only
  split
  · exact h
  · next done _ _ =>
    have hland : Works s (u.land done) t := h.same rfl rfl rfl rfl
    exact hland.setTile ⟨id, id, id, id⟩

theorem Works.meetUpset (h : Works s u t) (r : StoreReader) (finder : Nat) (x : Upset) : Works s (u.meetUpset t r finder x) t := by
  unfold State.meetUpset
  extract_lets base image detail u1 y u2 v1 v2 v3
  have h1 : Works s u1 t := (h.addReg _ 1).ite (h.addReg _ 1)
  have h2 : Works s u2 t := by
    refine Works.ite (Works.setTile h1 ?_) h1
    exact ⟨id, id, id, id⟩
  have k1 : Works s v1 t := h.addReg _ 1
  have k2 : Works s v2 t := (k1.setBit _ _ _).ite ((k1.wr _ _).setBit _ _ _)
  have k3 : Works s v3 t := (k2.setBit _ _ _).ite k2
  exact (h2.logTile _ _ _ _).ite (k3.ite (k3.logTile _ _ _ _))

theorem Works.storeRead (h : Works s u t) (r : StoreReader) (finder slot a n : Nat) : Works s (u.storeRead t r finder slot a n).2.2 t :=
  h.stepFree.foldl (fun _ _ hv => hv.meetUpset _ _ _) _

theorem Works.readRow (h : Works s u t) (slot row : Nat) : Works s (u.readRow t slot row).2.2 t := h.storeRead _ _ _ _ _

theorem Works.writeRow (h : Works s u t) (slot row : Nat) (v : Row) : Works s (u.writeRow t slot row v) t := by
  have hunqueue (lo n : Nat) : Works s (u.unqueue t lo n) t := by
    unfold State.unqueue
    dsimp only
    split
    · exact h
    · exact h.setTile ⟨id, id, id, id⟩
  exact (hunqueue _ _).setTile ⟨id, id, id, id⟩

/-! Faults (R132, R147). -/

theorem Works.slotClash (h : Works s u t) (cause first second hs : Nat) : Works s (u.slotClash t cause first second hs) t := by
  unfold State.slotClash
  extract_lets u1 u2 u3 x
  have h1 : Works s u1 t := h.ite ((h.wr _ _).wr _ _)
  have h2 : Works s u2 t := h1.setBit _ _ _
  have h3 : Works s u3 t := h2.line t
  refine h3.ite (Works.logTile (Works.setTile h3 ?_) _ _ _ _)
  exact ⟨id, id, id, id⟩

theorem Works.trapRises (h : Works s u t) (code faultBit : Nat) (detail : List Byte) : Works s (u.trapRises t code faultBit detail) t := by
  unfold State.trapRises
  dsimp only
  have h1 := (h.setBit (Reg.TILE_FAULT t) faultBit true).ite (c := faultBit < 8) h
  refine Works.logTile ?_ _ _ _ _
  split
  · exact h1.updPart _ fun x => .refl x
  · exact h1

theorem Works.numTrap (h : Works s u t) (hs entry code faultBit : Nat) (detail : List Byte) :
    Works s (u.numTrap t hs entry code faultBit detail) t := (h.setTile (.addEv _ _)).stepFree

theorem Works.recordSpecial (h : Works s u t) (a : Nat) (f : SpecialFind) (pos : Nat → Nat) : Works s (u.recordSpecial a f pos) t := by
  unfold State.recordSpecial
  split
  · exact h
  · exact h.wr _ _

theorem Works.specialTrap (h : Works s u t) (hs entry : Nat) (nanEn infEn : Bool) (faultBit : Nat) (f : SpecialFind)
    (detail : Nat → List Byte) : Works s (u.specialTrap t hs entry nanEn infEn faultBit f detail) t := by
  unfold State.specialTrap
  split
  · exact h.numTrap _ _ _ _ _
  · split
    · exact h.numTrap _ _ _ _ _
    · exact h

/-! The arrays (R62 to R68). -/

theorem Works.arrStatus (h : Works s u t) (arr : Nat) : Works s (u.arrStatus t arr) t := h.wr _ _

theorem Works.setArr (h : Works s u t) (arr : Nat) (a : ArrSt) : Works s (u.setTile t ((u.tile t).setArr arr a)) t := h.setTile (.setArr _ _ _)

theorem Works.arrRead (h : Works s u t) (arr op : Nat) (isB : Bool) (j row slot : Nat) : Works s (u.arrRead t arr op isB j row slot) t :=
  (h.readRow slot row).setArr _ _

theorem Works.arrReadScale (h : Works s u t) (arr op : Nat) (isB : Bool) (pass row slot : Nat) :
    Works s (u.arrReadScale t arr op isB pass row slot) t := (h.readRow slot row).setArr _ _

theorem Works.arrCount (h : Works s u t) (arr hs : Nat) (o : MmaOp) : Works s (u.arrCount t arr hs o) t := by
  have h1 := h.ite (c := min (hs + 1 - o.issue) o.f.S = o.active)
    (h.addReg (Reg.ARR_ACTIVE_HS t arr) (min (hs + 1 - o.issue) o.f.S - o.active))
  exact h1.ite (h1.wr2 _ _ _)

theorem Works.arrTickOne (h : Works s u t) (arr hs : Nat) : Works s (u.arrTickOne t arr hs) t := by
  unfold State.arrTickOne
  dsimp only
  split
  · exact h
  · exact (h.foldl (fun _ o hv => hv.arrCount arr hs o) _).setArr _ _

theorem Works.arrTick (h : Works s u t) (hs : Nat) : Works s (u.arrTick t hs) t := (h.arrTickOne 0 hs).arrTickOne 1 hs

theorem Works.arrDone (h : Works s u t) (arr op : Nat) : Works s (u.arrDone t arr op) t := by
  unfold State.arrDone
  dsimp only
  split
  · exact h
  · exact (((h.setArr _ _).arrCount _ _ _).addReg _ _).arrStatus arr

theorem Works.drainCapture (h : Works s u t) (arr op : Nat) : Works s (u.drainCapture t arr op) t := by
  unfold State.drainCapture
  dsimp only
  split
  · exact h
  · next d _ =>
    refine Works.arrStatus ?_ arr
    have h1 := fun a => h.setArr arr a
    have h2 := fun a => (((h1 a).setBit (Reg.ARR_INT_OVF t arr) 0 true).logTile t 0x0203 sevContained
      (State.numDetail ((u.setTile t ((u.tile t).setArr arr a)).setBit (Reg.ARR_INT_OVF t arr) 0 true) t arr d.entry d.f.accSet.toNat 0xFFFF
        0xFFFF)).ite (c := ((u.tile t).arr arr).ovf d.f.accSet = true) (h1 a)
    exact (h2 _).ite (((h2 _).recordSpecial _ _ _).specialTrap _ _ _ _ _ _ _)

theorem Works.arrDrainRow (h : Works s u t) (arr op j row slot : Nat) : Works s (u.arrDrainRow t arr op j row slot) t := by
  unfold State.arrDrainRow
  dsimp only
  split
  · exact h
  · exact (((h.writeRow _ _ _).setArr _ _).arrStatus arr).ite (h.writeRow _ _ _)

theorem Works.arrCut (h : Works s u t) (arr hs : Nat) : Works s (u.arrCut t arr hs) t :=
  ((h.foldl (fun _ o hv => hv.arrCount arr hs o) ((u.tile t).arr arr).mmas).setArr _ _).arrStatus arr

/-! The MVU (R70 to R76). -/

theorem Works.mvuStatus (h : Works s u t) : Works s (u.mvuStatus t) t := h.wr _ _

theorem Works.mvuRead (h : Works s u t) (op i row slot : Nat) : Works s (u.mvuRead t op i row slot) t := by
  unfold State.mvuRead
  dsimp only
  have h1 (x : MvuSt) := (h.readRow slot row).setTile (x := { (u.readRow t slot row).2.2.tile t with mvu := x }) ⟨id, id, id, id⟩
  split
  · split
    · exact (h1 _).addReg _ _
    · exact h1 _
  · exact h1 _

theorem Works.mvuReadScale (h : Works s u t) (op row slot : Nat) : Works s (u.mvuReadScale t op row slot) t :=
  (h.readRow slot row).setTile ⟨id, id, id, id⟩

theorem Works.mvuDot (h : Works s u t) (op i b : Nat) (e : TileEv) : Works s (u.mvuDot t op i b e) t := by
  unfold State.mvuDot
  dsimp only
  split
  · exact h
  · split
    · exact h.setTile (.addEv _ _)
    · exact h

theorem Works.mvuAcc (h : Works s u t) (op : Nat) (first : Bool) (adds : List (Nat × List Word)) :
    Works s (u.mvuAcc t op first adds) t := by
  unfold State.mvuAcc
  dsimp only
  split
  · exact h
  · split
    · exact h.setTile ⟨id, id, id, id⟩
    · exact h

theorem Works.vrfRow (h : Works s u t) (op i : Nat) : Works s (u.vrfRow t op i) t := by
  unfold State.vrfRow
  dsimp only
  split
  · exact h
  · split
    · exact h.setTile ⟨id, id, id, id⟩
    · exact h

theorem Works.vrfScale (h : Works s u t) (op : Nat) : Works s (u.vrfScale t op) t := by
  unfold State.vrfScale
  dsimp only
  split
  · exact h
  · split
    · exact h.setTile ⟨id, id, id, id⟩
    · exact h

theorem Works.mvuDrainRow (h : Works s u t) (op j row slot : Nat) : Works s (u.mvuDrainRow t op j row slot) t := by
  unfold State.mvuDrainRow
  split
  · exact h
  · exact h.writeRow _ _ _

theorem Works.mvuRetire (h : Works s u t) (hs : Nat) : Works s (u.mvuRetire t hs) t := by
  unfold State.mvuRetire
  dsimp only
  split
  · exact h
  · exact Works.mvuStatus (h.setTile ⟨id, id, id, id⟩)

theorem Works.mvuCut (h : Works s u t) : Works s (u.mvuCut t) t := Works.mvuStatus (h.setTile ⟨id, id, id, id⟩)

/-! The stream engine (R114 to R127). -/

theorem Works.sendPkt (h : Works s u t) (p : Pkt) : Works s (u.sendPkt t p).2 t := by
  unfold State.sendPkt
  dsimp only
  split
  · exact h.setRouter _ _
  · split
    · exact h.line t
    · exact (h.setRouter _ _).logRec _ _ _ _ _ _

theorem Works.updSe (h : Works s u t) (f : SeSt → SeSt) : Works s (u.updSe t f) t := h.setTile ⟨id, id, id, id⟩

theorem Works.setSeCtx (h : Works s u t) (c : Nat) (v : SeCtx) : Works s (u.setSeCtx t c v) t := h.setTile ⟨id, id, id, id⟩

theorem Works.setCtxState (h : Works s u t) (c v : Nat) : Works s (u.setCtxState t c v) t := h.setFld _ _ _ _

theorem Works.setFillFree (h : Works s u t) (c fill free : Nat) : Works s (u.setFillFree t c fill free) t :=
  (h.wr _ _).ite ((h.wr _ _).updSe _)

theorem Works.seStatus (h : Works s u t) : Works s (u.seStatus t) t :=
  (h.wr _ _).foldl (fun _ _ hv => hv.ite (hv.setFld _ _ _ _)) _

theorem Works.settleAborts (h : Works s u t) : Works s (u.settleAborts t) t := by
  unfold State.settleAborts
  split
  · exact h
  · exact ((h.updSe _).wr _ _).logTile _ _ _ _

theorem Works.gapFree (h : Works s u t) (c n : Nat) : Works s (u.gapFree t c n) t := by
  unfold State.gapFree
  dsimp only
  have h1 := h.setFillFree c (u.ctxFill t c - n) (u.ctxFree t c + n)
  refine h.ite (h1.ite ?_)
  exact (((((h1.sendPkt _).setSeCtx _ _).updSe _)).seStatus).ite (h1.sendPkt _)

theorem Works.dropKept (h : Works s u t) (c lo hi : Nat) : Works s (u.dropKept t c lo hi) t := h.ite (h.updSe _)

theorem Works.seFilled (h : Works s u t) (c : Nat) : Works s (u.seFilled t c).2 t := by
  unfold State.seFilled
  dsimp only
  split
  · split
    · exact h.setSeCtx _ _
    · split
      · exact ((h.updSe _).dropKept _ _ _).gapFree _ _
      · exact h.updSe _
  · exact h

theorem Works.seWrite (h : Works s u t) (slot : Nat) (mask : BitVec 8) : Works s (u.seWrite t slot mask) t := by
  unfold State.seWrite
  dsimp only
  split
  · exact h
  · split
    · exact h
    · exact ((((h.writeRow _ _ _).updSe _).setSeCtx _ _).setFillFree _ _ _).setTile (.addEv _ _)

theorem Works.seRead (h : Works s u t) (slot : Nat) (mask : BitVec 8) : Works s (u.seRead t slot mask) t := by
  unfold State.seRead
  dsimp only
  split
  · exact h
  · have h1 (row : Nat) := h.readRow slot row
    have h2 (row : Nat) (p : Pkt) := (h1 row).sendPkt p
    have h3 (row : Nat) (p : Pkt) (c fill free : Nat) (v : SeCtx) := ((h2 row p).setSeCtx c v).setFillFree c fill free
    exact (h1 _).ite ((((h3 _ _ _ _ _ _).updSe _).ite (h3 _ _ _ _ _ _)).ite (h2 _ _))

theorem Works.seSlot (h : Works s u t) (slot : Nat) (read : Bool) (mask : BitVec 8) : Works s (u.seSlot t slot read mask) t :=
  ((h.seRead _ _).ite (h.seWrite _ _)).seStatus

theorem Works.seRestart (h : Works s u t) (openMs : Nat) : Works s (u.seRestart t openMs) t :=
  ((h.updSe _).foldl (fun _ _ hv => hv.ite (((hv.setSeCtx _ _).setCtxState _ _).setFillFree _ _ _)) _).seStatus

/-! The VEU (R80 to R85). -/

theorem Works.vstCheck (h : Works s u t) (slot entry : Nat) (f : VeuFields) (r : Row) : Works s (u.vstCheck t slot entry f r) t := by
  unfold State.vstCheck
  dsimp only
  exact ((h.setBit _ _ _).ite h).specialTrap _ _ _ _ _ _ _

theorem Works.veuApply (h : Works s u t) (op entry slot : Nat) (f : VeuFields) : Works s (u.veuApply t op entry slot f) t := by
  unfold State.veuApply
  dsimp only
  refine Works.ite ?_ (Works.ite ?_ ?_)
  · exact (h.readRow _ _).setTile ⟨id, id, id, id⟩
  · exact (h.writeRow _ _ _).vstCheck _ _ _ _
  · refine Works.orReg (Works.setTile h ?_) _ _
    exact ⟨id, id, id, id⟩

/-! Events. -/

theorem Works.mmaIssue (h : Works s u t) (arr : Nat) (f : MmaFields) (left entry order hs : Nat) :
    Works s (u.mmaIssue t arr f left entry order hs) t := by
  unfold State.mmaIssue
  dsimp only
  split
  · exact h.slotClash _ _ _ _
  · split
    · exact h.slotClash _ _ _ _
    · refine Works.arrStatus (h.setTile (Tile.Keeps.trans ?_ (.addEvs _ _))) arr
      exact Tile.Keeps.trans ⟨id, id, id, id⟩ (.setArr { u.tile t with order := (u.tile t).order + 1 } _ _)

theorem Works.performAct (h : Works s u t) (e : TileEv) : Works s (u.performAct t e) t := by
  unfold State.performAct
  dsimp only
  have h1 := (h.setTile (x := { u.tile t with lastWide := some (e.slot, e.entry) }) ⟨id, id, id, id⟩).ite (c := e.act.wide = true) h
  generalize (if e.act.wide = true then u.setTile t { u.tile t with lastWide := some (e.slot, e.entry) } else u) = v at h1
  cases e.act with
  | arrIssue arr f left => exact h1.mmaIssue ..
  | arrRow arr op isB j row => exact h1.arrRead ..
  | arrScale arr op isB pass row => exact h1.arrReadScale ..
  | arrDone arr op => exact h1.arrDone ..
  | capture arr op => exact h1.drainCapture ..
  | drainRow arr op j row => exact h1.arrDrainRow ..
  | mvuRow op i row => exact h1.mvuRead ..
  | mvuScale op row => exact h1.mvuReadScale ..
  | mvuDot op i b => exact h1.mvuDot ..
  | mvuAcc op first adds => exact h1.mvuAcc ..
  | vrfRow op i => exact h1.vrfRow ..
  | vrfScale op => exact h1.vrfScale ..
  | mdrainRow op j row => exact h1.mvuDrainRow ..
  | veu opcode f => exact h1.veuApply ..
  | seSlot read mask => exact h1.seSlot ..
  | clash first => exact h1.slotClash ..
  | semSignal k n src issuer => exact h1
  | seFilled c => exact h1
  | semTake sem n issuer => exact h1.semTake ..
  | trap code faultBit detail => exact h1.trapRises ..

theorem Works.applySignals (h : Works s u t) (l : List (Nat × Nat × Nat × Nat)) : Works s (u.applySignals t l) t :=
  h.foldl (fun _ _ hv => hv.semSignal _ _ _ _) _

theorem Works.collectSignals (h : Works s u t) (l : List TileEv) : Works s (u.collectSignals t l).2 t := by
  induction l generalizing u with
  | nil => exact h
  | cons e r ih =>
    unfold State.collectSignals
    split
    · exact ih h
    · exact ih (h.seFilled _)
    · exact ih h

theorem Works.runEvents (hs fuel : Nat) (h : Works s u t) : Works s (State.runEvents t hs fuel u) t := by
  induction fuel generalizing u with
  | zero => exact h
  | succ fuel ih =>
    unfold State.runEvents
    dsimp only
    split
    · exact h
    · refine h.ite (Works.ite ?_ ?_)
      · refine ih (Works.applySignals (Works.collectSignals (Works.setTile h ?_) _) _)
        exact ⟨id, id, id, id⟩
      · refine ih (Works.performAct (Works.landFlights (Works.setTile h ?_) _) _)
        exact ⟨id, id, id, id⟩

theorem Works.veuStatus (h : Works s u t) : Works s (u.veuStatus t) t := h.wr _ _

theorem Works.tileBusy (h : Works s u t) : Works s (u.tileBusy t) t := h.setFld _ _ _ _

theorem Works.advanceTo (h : Works s u t) (hs : Nat) : Works s (u.advanceTo t hs) t := by
  have h1 := Works.runEvents hs eventFuel (h.settleAborts.ite (c := u.hs t < hs) h)
  exact (((((h1.landFlights hs).mvuRetire hs).arrTick hs).setFld _ _ _ _).veuStatus).tileBusy

theorem Works.showWaiters (h : Works s u t) : Works s (u.showWaiters t) t := h.foldl (fun _ _ hv => (hv.semWaiters _).ite hv) _

/-- The beat of a tile is cut off (R42): its waits end, and it has stopped. -/
theorem Works.cutOff (h : Works s u t) : Works s (u.cutOff t) t := by
  unfold State.cutOff
  dsimp only
  have h1 := Works.runEvents (s := s) (t := t) eventFuel eventFuel (h.setTile (x := { u.tile t with
    evs := (u.tile t).evs.filter (fun e => decide (8 ≤ e.act.rank)) }) ⟨id, id, id, id⟩)
  have h2 := (((h1.landFlights eventFuel).arrCut 0 (u.hs t)).arrCut 1 (u.hs t)).mvuCut
  refine Works.tileBusy (Works.veuStatus (Works.showWaiters ?_))
  refine Works.setBit (Works.setBit (Works.wr (Works.setFld ?_ _ _ _ _) _ _) _ _ _) _ _ _
  have h3 := fun x hx => h2.setTile (x := x) hx
  exact ((h3 _ ⟨fun _ => rfl, fun _ => rfl, fun _ => rfl, fun _ => rfl⟩).setFld _ _ _ _).ite
    (h3 _ ⟨fun _ => rfl, fun _ => rfl, fun _ => rfl, fun _ => rfl⟩)

theorem Works.dwrRestore (h : Works s u t) (c : Nat) : Works s (u.dwrRestore t c) t := (h.setFld _ _ _ _).ite h

theorem Works.restoreTile (h : Works s u t) (openMs : Nat) : Works s (u.restoreTile openMs t) t :=
  ((h.seRestart openMs).semRestore).foldl (fun _ c hv => hv.dwrRestore c) _

end Sys2Proof.Machine
end

section
/-! Broken semaphores (R126, R167): their waiters abort, and the contexts that wait for credit on them. -/
namespace Sys2Proof.Machine
open Sys2Proof.Safety

/-! Cancelled contexts. -/

/-- Beside a tile's stream engine, a Broken semaphore and the handshake number stay. -/
def StreamOnly (s u : State) (t k : Nat) : Prop :=
  (∃ se, u.tile t = { s.tile t with se := se }) ∧ u.rd (Reg.SEM_CNT t k) = s.rd (Reg.SEM_CNT t k) ∧ u.rd (Reg.SEQ_HS t) = s.rd (Reg.SEQ_HS t)

theorem StreamOnly.refl (s : State) (t k : Nat) : StreamOnly s s t k := ⟨⟨_, rfl⟩, rfl, rfl⟩

theorem StreamOnly.trans {s u v : State} {t k : Nat} (h : StreamOnly s u t k) (h' : StreamOnly u v t k) : StreamOnly s v t k := by
  obtain ⟨⟨se, ht⟩, hk, hh⟩ := h
  obtain ⟨⟨se', ht'⟩, hk', hh'⟩ := h'
  exact ⟨⟨se', by rw [ht', ht]⟩, hk'.trans hk, hh'.trans hh⟩

/-- A semaphore that was Broken is Broken. -/
theorem StreamOnly.broken {s u : State} {t k : Nat} (h : StreamOnly s u t k) (hb : s.semBroken t k = true) : u.semBroken t k = true :=
  (State.bit_of_rd h.2.1 16).trans hb

/-- The tile's stream engine is changed. -/
theorem StreamOnly.updSe (s : State) (t k : Nat) (f : SeSt → SeSt) : StreamOnly s (s.updSe t f) t k :=
  ⟨⟨_, (State.tile_setTile s t t _).trans (if_pos rfl)⟩, State.setTile_rd _ _ _ _, State.setTile_rd _ _ _ _⟩

/-- Another register is written. -/
theorem StreamOnly.wr (s : State) {t k a : Nat} (hk : a ≠ Reg.SEM_CNT t k) (hh : a ≠ Reg.SEQ_HS t) (v : Word) :
    StreamOnly s (s.wr a v) t k :=
  ⟨⟨_, rfl⟩, by rw [State.rd_wr, if_neg hk], by rw [State.rd_wr, if_neg hh]⟩

/-- The registers of a tile's contexts and semaphores lie apart. -/
theorem Reg.ctx_places {t : Nat} (c : Nat) {k : Nat} (hk : k < 64) :
    Reg.SE_CTX_STATUS t c ≠ Reg.SEM_CNT t k ∧ Reg.SE_CTX_STATUS t c ≠ Reg.SEQ_HS t ∧ Reg.SEM_CNT t k ≠ Reg.SEQ_HS t ∧
      Reg.SE_STATUS t ≠ Reg.SEM_CNT t k ∧ Reg.SE_STATUS t ≠ Reg.SEQ_HS t ∧ Reg.SE_STATUS t ≠ Reg.SE_CTX_STATUS t c := by
  have hplaces : Reg.SE_CTX_STATUS t c = Reg.tileBase t + 0x411C + c * 0x20 ∧ Reg.SEM_CNT t k = Reg.tileBase t + 0x3000 + k * 0x10 ∧
    Reg.SEQ_HS t = Reg.tileBase t + 0x1004 ∧ Reg.SE_STATUS t = Reg.tileBase t + 0x4000 := ⟨rfl, rfl, rfl, rfl⟩
  obtain ⟨h1, h2, h3, h4⟩ := hplaces
  exact ⟨by omega, by omega, by omega, by omega, by omega, by omega⟩

/-- The states of two contexts lie in two registers. -/
theorem Reg.SE_CTX_STATUS_inj {t c j : Nat} (h : Reg.SE_CTX_STATUS t c = Reg.SE_CTX_STATUS t j) : c = j := by
  simp only [Reg.SE_CTX_STATUS] at h
  omega

/-- The credit of a cancelled outbound context returns to its semaphore, unless that is Broken (R125). -/
def State.giveBack (s : State) (t c n : Nat) : State :=
  if s.ctxOut t c && !(s.semBroken t (s.ctxSem t c)) then s.setSemCount t (s.ctxSem t c) (s.semCount t (s.ctxSem t c) + n) else s

/-- Credit returns to no Broken semaphore. -/
theorem State.giveBack_frame {s : State} {t k : Nat} (hb : s.semBroken t k = true) (c n : Nat) :
    StreamOnly s (s.giveBack t c n) t k ∧ ∀ j < 8, (s.giveBack t c n).ctxState t j = s.ctxState t j := by
  have hsem : s.ctxSem t c < 64 := s.fld_lt (Reg.SE_CTX_SEM t c) 0 6
  unfold State.giveBack
  split
  · next hcond =>
    have hne : Reg.SEM_CNT t (s.ctxSem t c) ≠ Reg.SEM_CNT t k := by
      intro heq
      have hsame : s.ctxSem t c = k := by simp only [Reg.SEM_CNT] at heq; omega
      rw [hsame, hb, Bool.not_true, Bool.and_false] at hcond
      cases hcond
    refine ⟨.wr s hne (Reg.ctx_places 0 hsem).2.2.1 _, fun j hj => ?_⟩
    exact State.fld_setFld_ne s (Reg.ctx_places j hsem).1.symm _ _ _ _ _
  · exact ⟨.refl s t k, fun _ _ => rfl⟩

/-- A cancelled context (R125): it takes its state, the other contexts keep theirs, and a Broken semaphore keeps its count. -/
theorem State.seCancel_frame {s : State} {t c k : Nat} (hk : k < 64) (hb : s.semBroken t k = true) (st : Nat) :
    StreamOnly s (s.seCancel t c st) t k ∧ (s.seCancel t c st).ctxState t c = st % 4 ∧
      ∀ j, j ≠ c → j < 8 → (s.seCancel t c st).ctxState t j = s.ctxState t j := by
  obtain ⟨hcs, hch, -⟩ := Reg.ctx_places (t := t) c hk
  obtain ⟨f, v, n, hcancel⟩ : ∃ f v n, s.seCancel t c st = ((((s.updSe t f).giveBack t c n).setSeCtx t c v).setCtxState t c st) :=
    ⟨_, _, _, rfl⟩
  have h1 : StreamOnly s (s.updSe t f) t k := .updSe s t k f
  have h1c (j : Nat) : (s.updSe t f).ctxState t j = s.ctxState t j := State.fld_of_rd (State.setTile_rd _ _ _ _) _ _
  generalize s.updSe t f = u at h1 h1c hcancel
  obtain ⟨h2, h2c⟩ := State.giveBack_frame (h1.broken hb) c n
  generalize u.giveBack t c n = w at h2 h2c hcancel
  have h3 : StreamOnly w (w.setSeCtx t c v) t k := .updSe w t k (fun e => { e with ctx := SMap.set e.ctx c v })
  have h3c (j : Nat) : (w.setSeCtx t c v).ctxState t j = w.ctxState t j := State.fld_of_rd (State.setTile_rd _ _ _ _) _ _
  generalize w.setSeCtx t c v = x at h3 h3c hcancel
  rw [hcancel]
  refine ⟨((h1.trans h2).trans h3).trans (.wr x hcs hch _), State.fld_setFld_self _ _ _ (by decide), fun j hj hj8 => ?_⟩
  exact (State.fld_setFld_ne x (fun h => hj (Reg.SE_CTX_STATUS_inj h).symm) _ _ _ _ _).trans ((h3c j).trans ((h2c j hj8).trans (h1c j)))

/-- The contexts that were live are aborted, and the others stay as they were (R126). -/
def Aborted (s u : State) (t : Nat) : Prop :=
  ∀ j < 8, (s.ctxLive t j = true → u.ctxState t j = 3) ∧ (s.ctxLive t j = false → u.ctxState t j = s.ctxState t j)

/-- Contexts that are cancelled one by one. -/
theorem State.cancelAll_frame {t k : Nat} (hk : k < 64) (l : List Nat) (hl : ∀ c ∈ l, c < 8) (s : State) (hb : s.semBroken t k = true) :
    let u := l.foldl (fun s c => if s.ctxLive t c then s.seCancel t c 3 else s) s
    StreamOnly s u t k ∧ ∀ j < 8, u.ctxState t j = if j ∈ l ∧ s.ctxLive t j = true then 3 else s.ctxState t j := by
  induction l generalizing s with
  | nil => exact ⟨.refl s t k, fun j _ => by rw [if_neg (fun h => List.not_mem_nil h.1)]; rfl⟩
  | cons c r ih =>
    have hr : ∀ x ∈ r, x < 8 := fun x hx => hl x (List.mem_cons_of_mem _ hx)
    rw [List.foldl_cons]
    cases hlive : s.ctxLive t c with
    | false =>
      rw [if_neg Bool.false_ne_true]
      obtain ⟨hs, hj⟩ := ih hr s hb
      refine ⟨hs, fun j hj8 => (hj j hj8).trans ?_⟩
      by_cases hjc : j = c
      · subst hjc; simp [hlive]
      · simp [hjc]
    | true =>
      rw [if_pos rfl]
      obtain ⟨h1, h1c, h1o⟩ := State.seCancel_frame hk hb 3
      obtain ⟨hs, hj⟩ := ih hr _ (h1.broken hb)
      refine ⟨h1.trans hs, fun j hj8 => (hj j hj8).trans ?_⟩
      by_cases hjc : j = c
      · subst hjc
        have hdead : (s.seCancel t j 3).ctxLive t j = false := by rw [State.ctxLive, h1c]; rfl
        rw [hdead, if_neg (fun h => Bool.false_ne_true h.2), h1c, if_pos ⟨List.mem_cons_self .., hlive⟩]
      · simp [hjc, State.ctxLive, h1o j hjc hj8]

/-- The status of a stream engine shows neither its contexts' states nor its semaphores. -/
theorem State.seStatus_frame (s : State) {t k : Nat} (hk : k < 64) :
    StreamOnly s (s.seStatus t) t k ∧ ∀ j < 8, (s.seStatus t).ctxState t j = s.ctxState t j := by
  have hfold (l : List Nat) (hl : ∀ c ∈ l, c < 8) (n : Nat → Nat) (u : State) :
      let v := l.foldl (fun s c => if s.fld (Reg.SE_CTX_STATUS t c) 8 5 = n c % 32 then s else s.setFld (Reg.SE_CTX_STATUS t c) 8 5 (n c)) u
      StreamOnly u v t k ∧ ∀ j < 8, v.ctxState t j = u.ctxState t j := by
    induction l generalizing u with
    | nil => exact ⟨.refl u t k, fun _ _ => rfl⟩
    | cons c r ih =>
      have hc := hl c (List.mem_cons_self ..)
      obtain ⟨hcs, hch, -⟩ := Reg.ctx_places (t := t) c hk
      rw [List.foldl_cons]
      split
      · exact ih (fun x hx => hl x (List.mem_cons_of_mem _ hx)) u
      · obtain ⟨hs, hj⟩ := ih (fun x hx => hl x (List.mem_cons_of_mem _ hx)) (u.setFld (Reg.SE_CTX_STATUS t c) 8 5 (n c))
        refine ⟨StreamOnly.trans (.wr u hcs hch _) hs, fun j hj8 => (hj j hj8).trans ?_⟩
        by_cases hjc : c = j
        · subst hjc; exact State.fld_setFld_below u _ _ (by decide) (by decide)
        · exact State.fld_setFld_ne u (fun h => hjc (Reg.SE_CTX_STATUS_inj h)) _ _ _ _ _
  obtain ⟨-, -, -, hss, hsh, -⟩ := Reg.ctx_places (t := t) 0 hk
  unfold State.seStatus
  dsimp only
  obtain ⟨hs, hj⟩ := hfold (List.range 8) (fun c hc => List.mem_range.mp hc) (fun c => ((s.tile t).se.reqs.filter (fun r => r.ctx == c)).length)
    (s.wr (Reg.SE_STATUS t) (BitVec.ofNat 32 ((s.tile t).se.reqs.length % 64 + s.landUsed t % 32 * 256)))
  refine ⟨StreamOnly.trans (.wr s hss hsh _) hs, fun j hj8 => (hj j hj8).trans ?_⟩
  exact State.fld_of_rd (State.rd_wr _ _ _ _ ▸ if_neg (Reg.ctx_places j hk).2.2.2.2.2) _ _

/-- A stream fault of a live context aborts every live context of the tile, and takes nothing from a Broken semaphore (R126). -/
theorem State.streamFault_frame {s : State} {t c k : Nat} (hk : k < 64) (hb : s.semBroken t k = true) (hlive : s.ctxLive t c = true)
    (cause addr : Nat) : StreamOnly s (s.streamFault t c cause addr) t k ∧ Aborted s (s.streamFault t c cause addr) t := by
  have hline : StreamOnly s (s.raiseLine t) t k ∧ ∀ a, (s.raiseLine t).rd a = s.rd a := by
    obtain ⟨hregs, htiles, -⟩ := s.raiseLine_frame t
    have hrd (a : Nat) : (s.raiseLine t).rd a = s.rd a := by rw [State.rd, hregs]; rfl
    exact ⟨⟨⟨_, congrArg (fun m => SMap.get m Tile.reset t) htiles⟩, hrd _, hrd _⟩, hrd⟩
  obtain ⟨f, hfault⟩ : ∃ f, s.streamFault t c cause addr = ((((List.range 8).foldl
      (fun s k => if s.ctxLive t k then s.seCancel t k 3 else s) (s.raiseLine t)).seStatus t).updSe t f) := by
    rw [State.streamFault, if_pos (by rw [State.faultable, hlive, Bool.true_or])]
    exact ⟨_, rfl⟩
  obtain ⟨h1, hrd⟩ := hline
  have hst (j : Nat) : (s.raiseLine t).ctxState t j = s.ctxState t j := State.fld_of_rd (hrd _) _ _
  generalize s.raiseLine t = u at h1 hst hfault
  obtain ⟨h2, h2j⟩ := State.cancelAll_frame hk (List.range 8) (fun c hc => List.mem_range.mp hc) u (h1.broken hb)
  generalize (List.range 8).foldl (fun s k => if s.ctxLive t k then s.seCancel t k 3 else s) u = v at h2 h2j hfault
  obtain ⟨h3, h3j⟩ := v.seStatus_frame (t := t) hk
  generalize v.seStatus t = w at h3 h3j hfault
  have h4j (j : Nat) : (w.updSe t f).ctxState t j = w.ctxState t j := State.fld_of_rd (State.setTile_rd _ _ _ _) _ _
  rw [hfault]
  refine ⟨((h1.trans h2).trans h3).trans (.updSe w t k f), fun j hj => ?_⟩
  have hlive : u.ctxLive t j = s.ctxLive t j := by simp only [State.ctxLive, hst]
  rw [h4j, h3j j hj, h2j j hj, hlive, hst]
  exact ⟨fun h => if_pos ⟨List.mem_range.mpr hj, h⟩, fun h => if_neg fun h' => by rw [h] at h'; cases h'.2⟩

/-- Whether an outbound context has a row that waits for credit of a semaphore (R167). -/
def State.waitsCredit (s : State) (t k c : Nat) : Bool :=
  s.ctxLive t c && s.ctxOut t c && s.ctxSem t c == k && decide ((s.seCtx t c).reserved + (s.seCtx t c).granted < s.ctxFill t c)

/-- The contexts of a list that wait for credit of a Broken semaphore abort (R167). -/
theorem State.creditFold_frame {t k : Nat} (hk : k < 64) (l : List Nat) (hl : ∀ c ∈ l, c < 8) (s : State) (hb : s.semBroken t k = true) :
    let u := l.foldl (fun s c => if s.waitsCredit t k c then s.streamFault t c 1 (s.ctxAddr t c) else s) s
    StreamOnly s u t k ∧ (∀ j < 8, u.ctxState t j = s.ctxState t j ∨ u.ctxState t j = 3) ∧
      ∀ c ∈ l, s.waitsCredit t k c = true → u.ctxState t c = 3 := by
  induction l generalizing s with
  | nil => exact ⟨.refl s t k, fun _ _ => .inl rfl, fun _ h => absurd h List.not_mem_nil⟩
  | cons c r ih =>
    have hr : ∀ x ∈ r, x < 8 := fun x hx => hl x (List.mem_cons_of_mem _ hx)
    rw [List.foldl_cons]
    cases hw : s.waitsCredit t k c with
    | false =>
      rw [if_neg Bool.false_ne_true]
      obtain ⟨h1, h2, h3⟩ := ih hr s hb
      refine ⟨h1, h2, fun x hx hxw => ?_⟩
      rcases List.mem_cons.mp hx with rfl | hx
      · rw [hw] at hxw; cases hxw
      · exact h3 x hx hxw
    | true =>
      rw [if_pos rfl]
      have hlive : s.ctxLive t c = true := by
        simp only [State.waitsCredit, Bool.and_eq_true] at hw
        exact hw.1.1.1
      obtain ⟨h1, habort⟩ := State.streamFault_frame hk hb hlive 1 (s.ctxAddr t c)
      obtain ⟨h2, h3, -⟩ := ih hr _ (h1.broken hb)
      refine ⟨h1.trans h2, fun j hj => ?_, fun x hx hxw => ?_⟩
      · rcases h3 j hj with h | h
        · cases hj' : s.ctxLive t j with
          | true => exact .inr (h.trans ((habort j hj).1 hj'))
          | false => exact .inl (h.trans ((habort j hj).2 hj'))
        · exact .inr h
      · have hxlive : s.ctxLive t x = true := by
          simp only [State.waitsCredit, Bool.and_eq_true] at hxw
          exact hxw.1.1.1
        have hx8 : x < 8 := hl x hx
        rcases h3 x hx8 with h | h
        · exact h.trans ((habort x hx8).1 hxlive)
        · exact h

/-- The wake of a Broken semaphore aborts every context that waits for its credit (R167). -/
theorem State.creditWake_broken {s : State} {t k : Nat} (hk : k < 64) (hb : s.semBroken t k = true) :
    StreamOnly s (s.creditWake t k) t k ∧ ∀ c < 8, s.waitsCredit t k c = true → (s.creditWake t k).ctxState t c = 3 := by
  obtain ⟨h1, -, h3⟩ := State.creditFold_frame hk (List.range 8) (fun c hc => List.mem_range.mp hc) s hb
  rw [State.creditWake, hb, if_pos rfl]
  exact ⟨h1, fun c hc => h3 c (List.mem_range.mpr hc)⟩

/-! The GATE and the WAIT on a Broken semaphore. -/

/-- The GATE that a Broken semaphore wakes takes nothing (R167). -/
theorem State.gateWake_broken {s : State} {t k : Nat} (hb : s.semBroken t k = true) :
    let u := s.gateWake t k
    (∀ a, a ≠ Reg.SEQ_STATUS t → u.rd a = s.rd a) ∧ (u.tile t).tc = (s.tile t).tc ∧
      ∀ n entry, (s.tile t).gate = some (k, n, entry) → 0 < n →
        (u.tile t).gate = none ∧ (u.tile t).stopped = true ∧ u.bit (Reg.SEQ_STATUS t) 17 = false := by
  dsimp only
  cases hg : (s.tile t).gate with
  | none =>
    have hsame : s.gateWake t k = s := by rw [State.gateWake, hg]
    rw [hsame]
    exact ⟨fun _ _ => rfl, rfl, fun _ _ h => by cases h⟩
  | some g =>
    obtain ⟨k', n, entry⟩ := g
    by_cases hkk : k' = k
    · subst hkk
      rcases Nat.eq_zero_or_pos n with h0 | hpos
      · have hdone : s.gateWake t k' = s.gateDone t entry (s.hs t) := by
          rw [State.gateWake, hg]
          dsimp only
          rw [if_pos rfl, State.semTry, if_pos h0]
        obtain ⟨-, -, -, htc, -, hrd⟩ := s.gateDone_frame t entry (s.hs t)
        rw [hdone]
        refine ⟨hrd, htc, fun m e h hm => ?_⟩
        simp only [Option.some.injEq, Prod.mk.injEq] at h
        omega
      · have hstop : s.gateWake t k' = (s.stopSeq t).setBit (Reg.SEQ_STATUS t) 17 false := by
          rw [State.gateWake, hg]
          dsimp only
          rw [if_pos rfl, State.semTry_broken hb hpos]
        have htile : ((s.stopSeq t).setBit (Reg.SEQ_STATUS t) 17 false).tile t =
            { s.tile t with stopped := true, gate := none, overrunAt := none } :=
          (OnlyTile.of_setTile (s := s) (t := t) (u := (s.stopSeq t).setBit (Reg.SEQ_STATUS t) 17 false) rfl).2
        rw [hstop, htile]
        refine ⟨fun a ha => ?_, rfl, fun _ _ _ _ => ⟨rfl, rfl, State.bit_setBit_self _ _ _ (by decide)⟩⟩
        rw [State.rd_setBit, if_neg (Ne.symm ha), State.stopSeq, State.setTile_rd]
    · have hsame : s.gateWake t k = s := by
        rw [State.gateWake, hg]
        exact if_neg hkk
      rw [hsame]
      refine ⟨fun _ _ => rfl, rfl, fun m e h _ => ?_⟩
      simp only [Option.some.injEq, Prod.mk.injEq] at h
      exact absurd h.1 hkk

/-- The WAIT that a Broken semaphore wakes takes nothing (R167). -/
theorem State.waitWake_broken {s : State} {t k : Nat} (hb : s.semBroken t k = true) :
    let u := s.waitWake t k
    (∀ a, a ≠ Reg.TC_STATUS t → u.rd a = s.rd a) ∧ (u.tile t).gate = (s.tile t).gate ∧ (u.tile t).stopped = (s.tile t).stopped ∧
      ∀ n, (s.tile t).tc.waitSem = some (k, n) → 0 < n → (u.tile t).tc.waitSem = none ∧ (u.tile t).tc.stopped = true := by
  dsimp only
  cases hw : (s.tile t).tc.waitSem with
  | none =>
    have hsame : s.waitWake t k = s := by rw [State.waitWake, hw]
    rw [hsame]
    exact ⟨fun _ _ => rfl, rfl, rfl, fun _ h => by cases h⟩
  | some g =>
    obtain ⟨k', n⟩ := g
    by_cases hkk : k' = k
    · subst hkk
      rcases Nat.eq_zero_or_pos n with h0 | hpos
      · have hgo : s.waitWake t k' = (s.setTc t { (s.tile t).tc with waitSem := none, next := s.hs t + 1 }).setTcState t 1 := by
          rw [State.waitWake, hw]
          dsimp only
          rw [if_pos rfl, State.semTry, if_pos h0]
        have htile := (OnlyTile.of_setTile (s := s) (t := t)
          (u := (s.setTc t { (s.tile t).tc with waitSem := none, next := s.hs t + 1 }).setTcState t 1) rfl).2
        rw [hgo, htile]
        refine ⟨fun a ha => ?_, rfl, rfl, fun m h hm => ?_⟩
        · rw [State.setTcState, State.rd_setFld, if_neg (Ne.symm ha), State.setTc, State.setTile_rd]
        · simp only [Option.some.injEq, Prod.mk.injEq] at h
          omega
      · have hstop : s.waitWake t k' = s.stopTc t := by
          rw [State.waitWake, hw]
          dsimp only
          rw [if_pos rfl, State.semTry_broken hb hpos]
        have htile := (OnlyTile.of_setTile (s := s) (t := t) (u := s.stopTc t) rfl).2
        rw [hstop, htile]
        exact ⟨fun a _ => State.setTile_rd _ _ _ _, rfl, rfl, fun _ _ _ => ⟨rfl, rfl⟩⟩
    · have hsame : s.waitWake t k = s := by
        rw [State.waitWake, hw]
        exact if_neg hkk
      rw [hsame]
      refine ⟨fun _ _ => rfl, rfl, rfl, fun m h _ => ?_⟩
      simp only [Option.some.injEq, Prod.mk.injEq] at h
      exact absurd h.1 hkk

/-- The waiters of a Broken semaphore abort, and its count and the contexts stay (R167). -/
theorem State.waiters_broken {s : State} {t k : Nat} (hk : k < 64) (hb : s.semBroken t k = true) :
    let u := ((s.gateWake t k).waitWake t k).semWaiters t k
    u.semCount t k = s.semCount t k ∧ (∀ c < 8, u.ctxState t c = s.ctxState t c) ∧
      (∀ n entry, (s.tile t).gate = some (k, n, entry) → 0 < n → (u.tile t).gate = none ∧ (u.tile t).stopped = true ∧
        u.bit (Reg.SEQ_STATUS t) 17 = false ∧ u.bit (Reg.SEM_CNT t k) 17 = false) ∧
      (∀ n, (s.tile t).tc.waitSem = some (k, n) → 0 < n → (u.tile t).tc.waitSem = none ∧ (u.tile t).tc.stopped = true ∧
        u.bit (Reg.SEM_CNT t k) 18 = false) := by
  have hsem := (Reg.ofWaits.places (.inl ⟨k, hk, rfl⟩ : Reg.ofWaits t (Reg.SEM_CNT t k))).2.2.2
  have hctx (c : Nat) (hc : c < 8) := (Reg.ofWaits.places (.inr ⟨c, hc, rfl⟩ : Reg.ofWaits t (Reg.SE_CTX_STATUS t c))).2.2.2
  have hst : Reg.SEQ_STATUS t ≠ Reg.TC_STATUS t := by simp [Reg.SEQ_STATUS, Reg.TC_STATUS]
  obtain ⟨hr1, htc1, hgate1⟩ := State.gateWake_broken hb
  have hb1 : (s.gateWake t k).semBroken t k = true := (State.bit_of_rd (hr1 _ hsem.1) 16).trans hb
  generalize s.gateWake t k = x at hr1 htc1 hgate1 hb1
  obtain ⟨hr2, hg2, hs2, hwait2⟩ := State.waitWake_broken hb1
  generalize x.waitWake t k = y at hr2 hg2 hs2 hwait2
  obtain ⟨hu, hr3, hc3, h17, h18⟩ := y.semWaiters_frame t k
  have htile := State.tile_of_regs hu
  dsimp only
  refine ⟨hc3.trans (State.fld_of_rd ((hr2 _ hsem.2.1).trans (hr1 _ hsem.1)) 0 12), fun c hc => ?_, fun n entry hg hn => ?_,
    fun n hw hn => ?_⟩
  · exact State.fld_of_rd ((hr3 _ (Reg.ctx_places c hk).1).trans ((hr2 _ (hctx c hc).2.1).trans (hr1 _ (hctx c hc).1))) 0 2
  · obtain ⟨hgn, hsn, hqn⟩ := hgate1 n entry hg hn
    refine ⟨by rw [htile, hg2, hgn], by rw [htile, hs2, hsn], ?_, h17 (hg2.trans hgn)⟩
    exact (State.bit_of_rd ((hr3 _ hsem.1.symm).trans (hr2 _ hst)) 17).trans hqn
  · obtain ⟨hwn, hsn⟩ := hwait2 n (by rw [htc1]; exact hw) hn
    exact ⟨by rw [htile, hwn], by rw [htile, hsn], h18 hwn⟩

/-! WAITER_WAKE. -/

/-- The wake of a semaphore that is not Broken touches no context. -/
theorem State.creditWake_whole {s : State} {t k : Nat} (hb : s.semBroken t k = false) : s.creditWake t k = s := by
  rw [State.creditWake, hb, if_neg Bool.false_ne_true]

/-- A tile that waits for a semaphore wakes where it does in the next handshake too. -/
theorem exec_waiterWake_wakes {s : State} {t : Nat} {k : BitVec 6} (ht : t < 128) (he : ((s.creditWake t k.toNat).tile t).evs = [])
    (hh : (s.creditWake t k.toNat).hs t + 1 < 2 ^ 20) :
    exec (.waiterWake t k) s = if (s.creditWake t k.toNat).wakes t k.toNat
      then .next (((((s.creditWake t k.toNat).woken t).gateWake t k.toNat).waitWake t k.toNat).semWaiters t k.toNat)
      else .next (s.creditWake t k.toNat) := by
  rw [exec_waiterWake_eq]
  generalize s.creditWake t k.toNat = w at he hh
  have hsame : (if w.inBeat t then w.advanceTo t (w.hs t + 1) else w).wakes t k.toNat = w.wakes t k.toNat := by
    split
    · exact (State.advanceTo_sameWait ht he hh).1.wakes k.isLt
    · rfl
  rw [hsame]

/-- A GATE whose semaphore covers its amount takes it at the next handshake (R158). -/
theorem exec_waiterWake_gate {s : State} {t : Nat} (ht : t < 128) (k : BitVec 6) (n entry : Nat)
    (hg : (s.tile t).gate = some (k.toNat, n, entry)) (he : (s.tile t).evs = []) (hf : (s.tile t).flights = [])
    (ha : (s.tile t).se.aborts = []) (hw : (s.tile t).tc.waitSem = none) (hh : s.hs t + 1 < 2 ^ 20)
    (hb : s.semBroken t k.toNat = false) (hn : n ≤ s.semCount t k.toNat) (h0 : 0 < n) :
    ∃ u, exec (.waiterWake t k) s = .next u ∧
      u.semCount t k.toNat = s.semCount t k.toNat - n ∧ (u.tile t).gate = none ∧ (u.tile t).nextHs = s.hs t + 2 ∧
      u.hs t = s.hs t + 1 ∧ u.bit (Reg.SEQ_BEAT_STATUS t) 2 = false ∧ u.bit (Reg.SEQ_STATUS t) 17 = false ∧
      u.bit (Reg.SEM_CNT t k.toNat) 17 = false ∧ OnlyTile s u t := by
  have hcw := State.creditWake_whole (t := t) hb
  have hexec := exec_waiterWake_wakes (s := s) (k := k) ht (by rw [hcw]; exact he) (by rw [hcw]; exact hh)
  have hwakes : s.wakes t k.toNat = true := by simp [State.wakes, hg, hn]
  rw [hcw, hwakes, if_pos rfl] at hexec
  obtain ⟨⟨hvg, hvc, -, hvr⟩, hvh, hvb, hvo⟩ := State.woken_frame ht he hh
  generalize s.woken t = v at hexec hvg hvc hvr hvh hvb hvo
  have hcnt := hvr _ (.inl ⟨k.toNat, k.isLt, rfl⟩)
  have hcount : v.semCount t k.toNat = s.semCount t k.toNat := State.fld_of_rd hcnt 0 12
  obtain ⟨h1, h2, h3, h4, h5, h6, h7, h8⟩ := State.gate_takes (hvg.trans hg) (by rw [hvc]; exact hw) k.isLt
    ((State.bit_of_rd hcnt 16).trans hb) (by rw [hcount]; exact hn) h0
  refine ⟨_, hexec, by rw [h1, hcount], h2, by rw [h3, hvh], by rw [h4, hvh], (State.bit_of_rd h5 2).trans hvb, h6, h7,
    OnlyTile.trans (hvo ha hf) h8⟩

/-- A WAIT whose semaphore covers its amount takes it at the next handshake (R158). -/
theorem exec_waiterWake_wait {s : State} {t : Nat} (ht : t < 128) (k : BitVec 6) (n : Nat)
    (hw : (s.tile t).tc.waitSem = some (k.toNat, n)) (he : (s.tile t).evs = []) (hf : (s.tile t).flights = [])
    (ha : (s.tile t).se.aborts = []) (hg : (s.tile t).gate = none) (hh : s.hs t + 1 < 2 ^ 20)
    (hb : s.semBroken t k.toNat = false) (hn : n ≤ s.semCount t k.toNat) (h0 : 0 < n) :
    ∃ u, exec (.waiterWake t k) s = .next u ∧
      u.semCount t k.toNat = s.semCount t k.toNat - n ∧ (u.tile t).tc.waitSem = none ∧ (u.tile t).tc.next = s.hs t + 2 ∧
      u.hs t = s.hs t + 1 ∧ u.fld (Reg.TC_STATUS t) 0 2 = 1 ∧ u.bit (Reg.SEQ_BEAT_STATUS t) 2 = false ∧
      u.bit (Reg.SEM_CNT t k.toNat) 18 = false ∧ OnlyTile s u t := by
  have hcw := State.creditWake_whole (t := t) hb
  have hexec := exec_waiterWake_wakes (s := s) (k := k) ht (by rw [hcw]; exact he) (by rw [hcw]; exact hh)
  have hwakes : s.wakes t k.toNat = true := by simp [State.wakes, hw, hn]
  rw [hcw, hwakes, if_pos rfl] at hexec
  obtain ⟨⟨hvg, hvc, -, hvr⟩, hvh, hvb, hvo⟩ := State.woken_frame ht he hh
  generalize s.woken t = v at hexec hvg hvc hvr hvh hvb hvo
  have hcnt := hvr _ (.inl ⟨k.toNat, k.isLt, rfl⟩)
  have hcount : v.semCount t k.toNat = s.semCount t k.toNat := State.fld_of_rd hcnt 0 12
  obtain ⟨h1, h2, h3, h4, h5, h6, h7, h8⟩ := State.wait_takes (hvg.trans hg) (by rw [hvc]; exact hw) k.isLt
    ((State.bit_of_rd hcnt 16).trans hb) (by rw [hcount]; exact hn) h0
  refine ⟨_, hexec, by rw [h1, hcount], h2, by rw [h3, hvh], by rw [h4, hvh], h5, (State.bit_of_rd h6 2).trans hvb, h7,
    OnlyTile.trans (hvo ha hf) h8⟩

/-- A GATE or a WAIT whose semaphore is Broken takes nothing, and every context that waits for its credit aborts (R167). -/
theorem exec_waiterWake_broken {s : State} {t : Nat} (ht : t < 128) (k : BitVec 6) (hb : s.semBroken t k.toNat = true)
    (he : (s.tile t).evs = []) (hh : s.hs t + 1 < 2 ^ 20) :
    ∃ u, exec (.waiterWake t k) s = .next u ∧ u.semCount t k.toNat = s.semCount t k.toNat ∧
      (∀ c, c < 8 → s.ctxLive t c = true → s.ctxOut t c = true → s.ctxSem t c = k.toNat →
        (s.seCtx t c).reserved + (s.seCtx t c).granted < s.ctxFill t c → u.ctxState t c = 3) ∧
      (∀ n entry, (s.tile t).gate = some (k.toNat, n, entry) → 0 < n → (u.tile t).gate = none ∧ (u.tile t).stopped = true ∧
        u.bit (Reg.SEQ_STATUS t) 17 = false ∧ u.bit (Reg.SEM_CNT t k.toNat) 17 = false) ∧
      (∀ n, (s.tile t).tc.waitSem = some (k.toNat, n) → 0 < n → (u.tile t).tc.waitSem = none ∧ (u.tile t).tc.stopped = true ∧
        u.bit (Reg.SEM_CNT t k.toNat) 18 = false) := by
  obtain ⟨hstream, hctx⟩ := State.creditWake_broken (t := t) k.isLt hb
  have hwb := hstream.broken hb
  obtain ⟨⟨se, hwt⟩, hwcnt, hwhs⟩ := hstream
  have hwe : ((s.creditWake t k.toNat).tile t).evs = [] := by rw [hwt]; exact he
  have hwh : (s.creditWake t k.toNat).hs t + 1 < 2 ^ 20 := by rw [State.hs, State.fld_of_rd hwhs]; exact hh
  have hexec := exec_waiterWake_wakes (s := s) (k := k) ht hwe hwh
  have hwc : ∀ c < 8, s.ctxLive t c = true → s.ctxOut t c = true → s.ctxSem t c = k.toNat →
      (s.seCtx t c).reserved + (s.seCtx t c).granted < s.ctxFill t c → (s.creditWake t k.toNat).ctxState t c = 3 := by
    intro c hc h1 h2 h3 h4
    exact hctx c hc (by simp [State.waitsCredit, h1, h2, h3, h4])
  have hcount : (s.creditWake t k.toNat).semCount t k.toNat = s.semCount t k.toNat := State.fld_of_rd hwcnt 0 12
  generalize s.creditWake t k.toNat = w at hwb hwt hwe hwh hexec hwc hcount
  cases hwakes : w.wakes t k.toNat with
  | true =>
    rw [hwakes, if_pos rfl] at hexec
    obtain ⟨⟨hvg, hvc, -, hvr⟩, -⟩ := State.woken_frame ht hwe hwh
    generalize w.woken t = v at hexec hvg hvc hvr
    have hcnt := hvr _ (.inl ⟨k.toNat, k.isLt, rfl⟩)
    obtain ⟨h1, h2, h3, h4⟩ := State.waiters_broken k.isLt ((State.bit_of_rd hcnt 16).trans hwb)
    refine ⟨_, hexec, h1.trans ((State.fld_of_rd hcnt 0 12).trans hcount), fun c hc hl ho hs hlt => ?_, fun n entry hg hn => ?_,
      fun n hw hn => ?_⟩
    · exact (h2 c hc).trans ((State.fld_of_rd (hvr _ (.inr ⟨c, hc, rfl⟩)) 0 2).trans (hwc c hc hl ho hs hlt))
    · exact h3 n entry (by rw [hvg, hwt]; exact hg) hn
    · exact h4 n (by rw [hvc, hwt]; exact hw) hn
  | false =>
    rw [hwakes, if_neg Bool.false_ne_true] at hexec
    have hnone : (∀ n entry, (s.tile t).gate ≠ some (k.toNat, n, entry)) ∧ ∀ n, (s.tile t).tc.waitSem ≠ some (k.toNat, n) := by
      refine ⟨fun n entry hg => ?_, fun n hw => ?_⟩
      · simp [State.wakes, hwt, hg, hwb] at hwakes
      · simp [State.wakes, hwt, hw, hwb] at hwakes
    exact ⟨w, hexec, hcount, hwc, fun n entry hg _ => absurd hg (hnone.1 n entry), fun n hw _ => absurd hw (hnone.2 n)⟩

/-- A tile that waits for nothing wakes for nothing. -/
theorem State.wakes_idle {s : State} {t k : Nat} (hg : (s.tile t).gate = none) (hw : (s.tile t).tc.waitSem = none) : s.wakes t k = false := by
  rw [State.wakes, hg, hw]
  rfl

/-- With no waiter of a semaphore that is not Broken nothing wakes. -/
theorem exec_waiterWake_none {s : State} {t : Nat} (k : BitVec 6) (hg : (s.tile t).gate = none) (hw : (s.tile t).tc.waitSem = none)
    (hb : s.semBroken t k.toNat = false) : exec (.waiterWake t k) s = .next s := by
  obtain ⟨-, -, -, ⟨hkg, hkw, -, -⟩, -⟩ := (Works.refl s t).advanceTo (s.hs t + 1)
  have hidle : (if s.inBeat t then s.advanceTo t (s.hs t + 1) else s).wakes t k.toNat = false := by
    split
    · exact State.wakes_idle (hkg hg) (hkw hw)
    · exact State.wakes_idle hg hw
  rw [exec_waiterWake_eq, State.creditWake_whole hb, hidle, if_neg Bool.false_ne_true]

/-- Settles O37: one lemma for each event. -/
theorem sequencerEventsTakePlace : Obligations.SequencerEventsTakePlace := by
  intro s t ht
  refine ⟨fun ho => ?_, fun h ho => exec_itinOverrun ho, exec_tilePark, exec_tileDone, exec_tileDone_waits,
    fun k n entry hg he hf _ ha hw hh hb hn h0 => exec_waiterWake_gate ht k n entry hg he hf ha hw hh hb hn h0,
    fun k n hw he hf _ ha hg hh hb hn h0 => exec_waiterWake_wait ht k n hw he hf ha hg hh hb hn h0,
    fun k hb he hh => exec_waiterWake_broken ht k hb he hh, exec_waiterWake_none⟩
  show execItinOverrun t s = _
  rw [execItinOverrun, ho]

end Sys2Proof.Machine
end

section
/-! A beat that closes with a fault, and the registers of the beat blocks (R36, R42). -/
namespace Sys2Proof.Machine
open Sys2Proof.Safety

/-! Registers outside the tiles. -/

/-- The registers that belong to a tile. -/
def Reg.inTile (a : Nat) : Prop := 0x10000000 ≤ a ∧ a < 0x10800000

theorem Reg.inTile_of {t o : Nat} (ht : t < 128) (ho : o < 0x10000) : Reg.inTile (Reg.tileBase t + o) := by
  have hbase : Reg.tileBase t = 0x10000000 + t * 0x10000 := rfl
  unfold Reg.inTile
  omega

/-- Nothing but registers of tiles and what is no partition's differs. -/
def Aside (s u : State) : Prop := u.parts = s.parts ∧ ∀ a, ¬ Reg.inTile a → u.rd a = s.rd a

theorem Aside.refl (s : State) : Aside s s := ⟨rfl, fun _ _ => rfl⟩

theorem Aside.wr {s u : State} (h : Aside s u) {a : Nat} (ha : Reg.inTile a) (v : Word) : Aside s (u.wr a v) :=
  ⟨h.1, fun b hb => by rw [State.rd_wr, if_neg fun hab : a = b => hb (hab ▸ ha), h.2 b hb]⟩

theorem Aside.setTile {s u : State} (h : Aside s u) (t : Nat) (x : Tile) : Aside s (u.setTile t x) := ⟨h.1, h.2⟩

theorem Aside.foldl {α : Type} {s u : State} (h : Aside s u) {f : State → α → State} {l : List α}
    (hf : ∀ v, ∀ x ∈ l, Aside s v → Aside s (f v x)) : Aside s (l.foldl f u) := by
  induction l generalizing u with
  | nil => exact h
  | cons x r ih => exact ih (hf u x (List.mem_cons_self ..) h) fun v y hy => hf v y (List.mem_cons_of_mem x hy)

theorem Aside.ite {s u v : State} (h : Aside s u) (h' : Aside s v) {c : Prop} [Decidable c] : Aside s (if c then u else v) := by
  split
  · exact h
  · exact h'

/-- The advance of a tile's counters. -/
theorem Aside.ticked {s u v : State} (h : Aside s u) {t : Nat} (ht : t < 128) (hv : Ticked u v t) : Aside s v := by
  obtain ⟨honly, -, -, -, hrd⟩ := hv
  refine ⟨by rw [honly]; exact h.1, fun a ha => (hrd a fun hmem => ha ?_).trans (h.2 a ha)⟩
  simp only [tickRegs, List.mem_cons, List.not_mem_nil, or_false, Reg.SEQ_HS, Reg.VEU_STATUS, Reg.TILE_STATUS, Reg.MVU_STATUS,
    Reg.ARR_ACTIVE_HS, Reg.ARR_GATED_LO, Reg.ARR_GATED_HI, Reg.tileBase] at hmem
  unfold Reg.inTile
  omega

theorem Aside.arrCut {s u : State} (h : Aside s u) {t arr : Nat} (ht : t < 128) (ha : arr < 2) (hs : Nat) : Aside s (u.arrCut t arr hs) := by
  have hst : Reg.inTile (Reg.ARR_STATUS t arr) := by
    rw [Reg.ARR_STATUS, Nat.add_assoc]
    exact Reg.inTile_of ht (by omega)
  have h1 : Aside s (((u.tile t).arr arr).mmas.foldl (fun s o => s.arrCount t arr hs o) u) :=
    h.foldl fun v o _ hv => hv.ticked ht (v.arrCount_ticked hs o ha)
  exact (h1.setTile _ _).wr hst _

theorem Aside.showWaiters {s u : State} (h : Aside s u) {t : Nat} (ht : t < 128) : Aside s (u.showWaiters t) := by
  refine h.foldl fun v k hk hv => Aside.ite ?_ hv
  have hlt := List.mem_range.mp hk
  have hsem : Reg.inTile (Reg.SEM_CNT t k) := by
    have hreg : Reg.SEM_CNT t k = Reg.tileBase t + (0x3000 + k * 0x10) := by rw [Reg.SEM_CNT, Nat.add_assoc]
    rw [hreg]
    exact Reg.inTile_of ht (by omega)
  exact ((hv.wr hsem _).wr hsem _).wr hsem _

/-- The cut-off of a tile in which no event is to come (R42). -/
theorem Aside.cutOff {s u : State} (h : Aside s u) {t : Nat} (ht : t < 128) (he : (u.tile t).evs = []) : Aside s (u.cutOff t) := by
  unfold State.cutOff
  extract_lets hs x u1 u2 u3 u4 y yv yt u5 st u6 u7 u8
  have h1 : Aside s u1 := h.setTile _ _
  have hevs : (u1.tile t).evs = [] := by
    rw [(State.tile_setTile u t t _).trans (if_pos rfl)]
    show (x.evs.filter _) = []
    rw [he, List.filter_nil]
  have h2 : Aside s u2 := by
    rw [show u2 = u1 from State.runEvents_nil u1 t _ _ hevs]
    exact h1
  have hregs : Reg.inTile (Reg.MVU_STATUS t) ∧ Reg.inTile (Reg.TC_STATUS t) ∧ Reg.inTile (Reg.TC_EVENT t) ∧ Reg.inTile (Reg.SEQ_STATUS t) ∧
      Reg.inTile (Reg.VEU_STATUS t) ∧ Reg.inTile (Reg.TILE_STATUS t) :=
    ⟨Reg.inTile_of ht (by decide), Reg.inTile_of ht (by decide), Reg.inTile_of ht (by decide), Reg.inTile_of ht (by decide),
      Reg.inTile_of ht (by decide), Reg.inTile_of ht (by decide)⟩
  obtain ⟨hmvu, htc, hev, hseq, hveu, hbusy⟩ := hregs
  have h3 : Aside s u3 := ((h2.ticked ht (u2.landFlights_ticked t eventFuel)).arrCut ht (by decide) hs).arrCut ht (by decide) hs
  have h4 : Aside s u4 := (h3.setTile _ _).wr hmvu _
  have h5 : Aside s u5 := h4.setTile _ _
  have h6 : Aside s u6 := (h5.wr htc _).ite h5
  have h7 : Aside s u7 := (h6.wr htc _).wr hev _
  have h8 : Aside s u8 := (h7.wr hseq _).wr hseq _
  exact ((h8.showWaiters ht).wr hveu _).wr hbusy _

/-- Tiles in which no event is to come are cut off one by one. -/
theorem Aside.cutOffs {s u : State} (h : Aside s u) {l : List Nat} (hl : ∀ t ∈ l, t < 128 ∧ (u.tile t).evs = []) (hn : l.Nodup) :
    Aside s (l.foldl (fun s t => s.cutOff t) u) := by
  induction l generalizing u with
  | nil => exact h
  | cons t r ih =>
    obtain ⟨ht, he⟩ := hl t (List.mem_cons_self ..)
    obtain ⟨htr, hr⟩ := List.nodup_cons.mp hn
    obtain ⟨-, -, hother, -⟩ := (Works.refl u t).cutOff
    refine ih (h.cutOff ht he) (fun k hk => ?_) hr
    rw [hother k fun hkt => htr (hkt ▸ hk)]
    exact hl k (List.mem_cons_of_mem t hk)

/-- The channels of a partition are told by registers outside the tiles. -/
theorem Aside.partChans {s u : State} (h : Aside s u) (p : Nat) : u.partChans p = s.partChans p := by
  have hoff (c : Nat) : u.rd (Reg.CHN_CTRL c) = s.rd (Reg.CHN_CTRL c) := by
    have hreg : Reg.CHN_CTRL c = 0x48010000 + c * 0x20 := rfl
    refine h.2 _ fun hin => ?_
    obtain ⟨-, hhi⟩ := hin
    omega
  unfold State.partChans
  refine List.filter_congr fun c _ => ?_
  rw [State.chanOn, State.chanOn, State.chanOwner, State.chanOwner, State.bit_of_rd (hoff c), State.fld_of_rd (hoff c)]

/-! The beat blocks and the partitions. -/

/-- The registers of the beat blocks and the partitions' records stay. -/
def BeatsKept (s u : State) : Prop := u.parts = s.parts ∧ ∀ a, Reg.ofBeats a → u.rd a = s.rd a

theorem BeatsKept.refl (s : State) : BeatsKept s s := ⟨rfl, fun _ _ => rfl⟩

theorem BeatsKept.trans {s u v : State} (h : BeatsKept s u) (h' : BeatsKept u v) : BeatsKept s v :=
  ⟨h'.1.trans h.1, fun a ha => (h'.2 a ha).trans (h.2 a ha)⟩

theorem BeatsKept.wr (s : State) {a : Nat} (ha : ∀ b, Reg.ofBeats b → a ≠ b) (v : Word) : BeatsKept s (s.wr a v) :=
  ⟨rfl, fun b hb => by rw [State.rd_wr, if_neg (ha b hb)]⟩

theorem BeatsKept.foldl {α : Type} {f : State → α → State} {l : List α} (hf : ∀ v, ∀ x ∈ l, BeatsKept v (f v x)) (s : State) :
    BeatsKept s (l.foldl f s) :=
  ⟨foldl_keeps State.parts (fun b x hx => (hf b x hx).1) s,
    fun a ha => foldl_keeps (fun u : State => u.rd a) (fun b x hx => (hf b x hx).2 a ha) s⟩

theorem Aside.beatsKept {s u : State} (h : Aside s u) : BeatsKept s u :=
  ⟨h.1, fun a ha => h.2 a fun hin => by
    obtain ⟨hlo, -⟩ := ha
    obtain ⟨-, hhi⟩ := hin
    omega⟩

/-- What an edge port shows of itself. -/
theorem State.edgeShow_kept (s : State) {e : Nat} (he : e < 48) : BeatsKept s (s.edgeShow e) := by
  unfold State.edgeShow
  extract_lets x u low
  have h1 : BeatsKept s u := .wr s (fun b hb => hb.ne_edge he) _
  split
  · exact h1
  · refine h1.trans ?_
    unfold State.edgeEmit
    split <;> exact ⟨rfl, fun _ _ => rfl⟩

/-- The grant of an edge port. -/
theorem State.edgeGrant_kept (s : State) (e : Nat) (g : EdgeGrant) : BeatsKept s (s.edgeGrant e g) := by
  unfold State.edgeGrant
  extract_lets u x
  have h1 : BeatsKept s u := by
    show BeatsKept s (if _ then _ else _)
    split
    · split
      · next c hc => exact .wr s (fun b hb => hb.ne_chan (State.outChan_lt hc)) _
      · exact .refl s
    · exact .refl s
  exact h1.trans ⟨rfl, fun _ _ => rfl⟩

theorem State.edgeGrants_kept (e n : Nat) (s : State) : BeatsKept s (s.edgeGrants e n) := by
  induction n generalizing s with
  | zero => exact .refl s
  | succ n ih =>
    unfold State.edgeGrants
    dsimp only
    split
    · next g rest _ =>
      have h1 : BeatsKept s (s.setEdge e { s.edge e with waiting := rest }) := ⟨rfl, fun _ _ => rfl⟩
      exact (h1.trans (State.edgeGrant_kept _ e g)).trans (ih _)
    · exact .refl s

/-- An edge port at the close of a beat with a fault. -/
theorem State.edgeClose_kept (s : State) {e : Nat} (he : e < 48) (openMs : Nat) : BeatsKept s (s.edgeClose e openMs 3) := by
  have hclose (x : EdgeSt) (f : EdgeGrant → Bool) : BeatsKept s (((((s.setEdge e x).edgeCancel e f).edgeShow e).edgeGrantAll e)) := by
    have h1 : BeatsKept s (s.setEdge e x) := ⟨rfl, fun _ _ => rfl⟩
    have h2 : BeatsKept (s.setEdge e x) ((s.setEdge e x).edgeCancel e f) := State.edgeCancel_frame _ e f
    exact ((h1.trans h2).trans (State.edgeShow_kept _ he)).trans (State.edgeGrants_kept e _ _)
  exact hclose _ _

/-- A request for a rung is cleared (R151). -/
theorem State.clearPower_kept (s : State) {t : Nat} (ht : t < 128) : BeatsKept s (s.clearPower t) := by
  have h1 : BeatsKept s (s.setTile t { s.tile t with tc := { (s.tile t).tc with power := false } }) := ⟨rfl, fun _ _ => rfl⟩
  unfold State.clearPower
  dsimp only
  split
  · exact h1.trans (.wr _ (fun b hb => hb.ne_tile ht (o := 0x2004) (by decide)) _)
  · exact h1

/-- A partition that freezes keeps the counts of its outcomes. -/
theorem State.freeze_commits {s : State} {p : Nat} (hp : p < 16) (n variant attempt : Nat) :
    (s.freeze p n variant attempt).rd (Reg.PART_COMMIT_COUNT p) = s.rd (Reg.PART_COMMIT_COUNT p) := by
  have hplaces : Reg.PART_COMMIT_COUNT p = 0x73008000 + p * 0x100 + 0x20 ∧ Reg.PART_BEAT_STATUS p = 0x73008000 + p * 0x100 + 4 ∧
    Reg.PART_START_AT_HI p = 0x73008000 + p * 0x100 + 0x14 := ⟨rfl, rfl, rfl⟩
  obtain ⟨hc, hs, ha⟩ := hplaces
  have hof : Reg.ofBeats (Reg.PART_COMMIT_COUNT p) := by
    unfold Reg.ofBeats
    omega
  unfold State.freeze
  dsimp only
  refine (foldl_keeps (fun u : State => u.rd (Reg.PART_COMMIT_COUNT p)) (fun b c hm => b.chanHoldCredit_ofBeats hof (State.partChans_lt hm)) _).trans ?_
  rw [State.setPstate_rd, State.rd_setFld, if_neg (by omega), State.rd_setBit, if_neg (by omega), State.updPart_rd]

end Sys2Proof.Machine
end

section
/-! A counterexample to what the milestone counts: a signal that takes place as the tiles of a beat are cut off (R42) changes a count that the
outcome of the beat has set. -/
namespace Sys2Proof.Machine
open Sys2Proof.Safety

/-! The close of a beat by a fault. -/

/-- What the outcome FAULT does to the tiles, the channels and the edge ports of a partition. -/
def State.faultClosed (s : State) (p openMs : Nat) : State :=
  let s := (s.partTiles p).foldl (fun s t => s.cutOff t) s
  let s := (s.partChans p).foldl (fun s c => s.outcomeChan openMs 3 c) s
  (s.partEdges p).foldl (fun s x => s.edgeClose x openMs 3) s

/-- The outcome FAULT is counted and shown. -/
def State.faultShown (s : State) (p : Nat) : State :=
  (s.outcomeCount p 3).updPart p (fun x => { x with beatOpen := false, gapAbort := false, shown := 3 })

/-- A beat of a partition without enabled tiles closes with a fault. -/
theorem State.closeBeat_faulted {s : State} {p : Nat} {q : Part} (hb : s.beatTiles p = []) (hq : s.part p = some q) (hf : q.fault = true)
    (ht : q.trial = none) (e : MsEnv) (n : Nat) :
    s.closeBeat e p n = ((s.faultShown p).faultClosed p q.openMs).afterBeat p n 3 (q.variants.headD 0) (s.attempt p) := by
  unfold State.closeBeat
  simp only [hb, List.foldl_nil, hq, hf, ht, outcomeOf, Option.isSome_none, Bool.false_eq_true, if_false, if_true, Bool.not_false,
    show ¬ (3 = 1) by decide, false_and]
  rfl

/-- A milestone of a RUNNING partition whose beat is open, and whose tiles hold no stream fault, closes the beat. -/
theorem State.partMs_closes {s : State} {p : Nat} {q : Part} (hq : s.part p = some q) (ha : ∀ t ∈ s.partTiles p, (s.tile t).se.aborts = [])
    (hs : s.pstate p = psRunning) (hr : q.rung = 0) (hb : q.beatOpen = true) (e : MsEnv) (n : Nat) :
    s.partMs e n p = s.closeBeat e p n := by
  have hsettled : (s.partTiles p).foldl (fun s t => if s.inBeat t then s else s.settleAborts t) s = s :=
    foldl_eq_self fun t ht => by rw [State.settleAborts_nil s t (ha t ht), ite_self]
  unfold State.partMs
  simp only [hsettled, hq, hs, hr, hb, ne_eq, not_true, and_false, if_false, and_self, if_true]

/-- After a beat with a fault the commits stay counted as they are. -/
theorem State.afterBeat_fault_commits {s : State} {p : Nat} (hp : p < 16) (n variant attempt : Nat) :
    (s.afterBeat p n 3 variant attempt).rd (Reg.PART_COMMIT_COUNT p) = s.rd (Reg.PART_COMMIT_COUNT p) := by
  have hof : Reg.ofBeats (Reg.PART_COMMIT_COUNT p) := by
    have hreg : Reg.PART_COMMIT_COUNT p = 0x73008000 + p * 0x100 + 0x20 := rfl
    unfold Reg.ofBeats
    omega
  have hafter : s.afterBeat p n 3 variant attempt =
      ((((s.partTiles p).foldl (fun s t => s.clearPower t) s).freeze p n variant attempt).flushEdges p) := rfl
  have hclear := BeatsKept.foldl (f := fun s t => s.clearPower t) (l := s.partTiles p) (fun v t ht => v.clearPower_kept (State.partTiles_lt ht)) s
  rw [hafter, (State.flushEdges_frame _ p).2 _ hof, State.freeze_commits hp, hclear.2 _ hof]

/-- Where one tile alone has events to come and the partition has no channel, the rest of the close leaves the beat blocks. -/
theorem State.faultClosed_kept {s : State} {p t : Nat} {r : List Nat} (hl : s.partTiles p = t :: r) (hn : (t :: r).Nodup)
    (hr : ∀ k ∈ r, k < 128 ∧ (s.tile k).evs = []) (hc : (s.cutOff t).partChans p = []) (openMs : Nat) :
    BeatsKept (s.cutOff t) (s.faultClosed p openMs) := by
  obtain ⟨htr, hnr⟩ := List.nodup_cons.mp hn
  obtain ⟨-, -, hother, -⟩ := (Works.refl s t).cutOff
  have hcut : Aside (s.cutOff t) (r.foldl (fun s t => s.cutOff t) (s.cutOff t)) := by
    refine (Aside.refl _).cutOffs (fun k hk => ?_) hnr
    rw [hother k fun hkt => htr (hkt ▸ hk)]
    exact hr k hk
  unfold State.faultClosed
  dsimp only
  rw [hl, List.foldl_cons, hcut.partChans, hc, List.foldl_nil]
  exact hcut.beatsKept.trans (.foldl (fun v e he => v.edgeClose_kept (List.mem_range.mp (List.mem_of_mem_filter he)) openMs) _)

/-! The counterexample. -/

/-- A tile with a signal to come, whose semaphore's number leads outside the tile's own registers. -/
def strayTile : Tile := { Tile.reset with evs := [⟨0, 0, 0, .semSignal ((Reg.PART_COMMIT_COUNT 0 - Reg.SEM_CNT 0 0) / 16) 1 0 0⟩] }

/-- The partition of that tile, in a beat with a fault. -/
def strayPart : Part := { newPart ⟨0, 0, 0, 0, 0, 0, 0, 0, 0, 0⟩ with beatOpen := true, fault := true }

/-- A running time unit with that partition alone, and none of its tiles enabled. -/
def strayState : State := { State.reset with
  timeRuns := true
  regs := [(Reg.TIME_MS_CTRL, 1), (Reg.PART_BEAT_STATUS 0, 2), (Reg.PART_SLIP_COUNT 0, 2)]
  parts := [(0, strayPart)]
  tiles := [(0, strayTile)] }

theorem strayState_tile {k : Nat} (hk : k ≠ 0) : strayState.tile k = Tile.reset := by
  simp [State.tile, strayState, SMap.get, SMap.find, Ne.symm hk]

theorem strayState_aborts (k : Nat) : (strayState.tile k).se.aborts = [] := by
  by_cases hk : k = 0
  · subst hk; rfl
  · rw [strayState_tile hk]; rfl

/-- The outcome is shown before any tile is touched. -/
theorem strayState_shown (k : Nat) : (strayState.countMs.faultShown 0).tile k = strayState.tile k :=
  congrArg (fun m => SMap.get m Tile.reset k) (show (strayState.countMs.faultShown 0).tiles = strayState.tiles from rfl)

/-- The cut-off of the stray tile counts one more commit; the partition has no channel. -/
theorem strayState_cutOff : ((strayState.countMs.faultShown 0).cutOff 0).rd (Reg.PART_COMMIT_COUNT 0) = 1 ∧
    ((strayState.countMs.faultShown 0).cutOff 0).partChans 0 = [] := by
  decide +kernel

/-- So does the milestone. -/
theorem strayState_partMs : (strayState.countMs.partMs ⟨[], []⟩ strayState.countMs.msCount 0).rd (Reg.PART_COMMIT_COUNT 0) = 1 := by
  have htile (k : Nat) : strayState.countMs.tile k = strayState.tile k :=
    congrArg (fun m => SMap.get m Tile.reset k) (show strayState.countMs.tiles = strayState.tiles from rfl)
  rw [State.partMs_closes (q := strayPart) rfl (fun t _ => by rw [htile]; exact strayState_aborts t) (by decide +kernel) rfl rfl,
    State.closeBeat_faulted (q := strayPart) (by decide +kernel) rfl rfl rfl, State.afterBeat_fault_commits (by decide)]
  obtain ⟨hcount, hchans⟩ := strayState_cutOff
  refine ((State.faultClosed_kept (t := 0) (r := [1, 2, 3, 4, 5, 6, 7]) (by decide +kernel) (by decide) (fun k hk => ?_) hchans _).2 _
    ⟨by decide, by decide⟩).trans hcount
  have hrange : k < 128 ∧ k ≠ 0 := by
    simp only [List.mem_cons, List.not_mem_nil, or_false] at hk
    omega
  obtain ⟨hk, h0⟩ := hrange
  exact ⟨hk, by rw [strayState_shown, strayState_tile h0]; rfl⟩

/-- Refutes O21: the outcome FAULT changes no count of its partition (R40), and yet the tile's signal, which takes place when the tile is cut
off after the outcome is counted, raises the count of commits. -/
theorem not_milestoneCountsAndAdopts : ¬ Obligations.MilestoneCountsAndAdopts := by
  intro h
  obtain ⟨t, -, -, hpart⟩ := h strayState ⟨[], []⟩ rfl (by decide) rfl strayState_aborts
  obtain ⟨hshown, hclosed⟩ := hpart 0 strayPart (by decide) rfl (by decide) (.inr (by decide))
    (fun r hr hr0 => absurd (List.mem_singleton.mp hr) hr0)
  obtain ⟨-, -, -, hmade, -⟩ := hshown
  obtain ⟨-, -, -, -, -, hcounted, -⟩ := hclosed (by decide) rfl rfl rfl
  exact absurd (strayState_partMs.symm.trans (hmade.symm.trans hcounted)) (by decide +kernel)

end Sys2Proof.Machine
end

section
/-! The channels of a partition whose beat opens (R46, R48): its beat stays as it opened. -/
namespace Sys2Proof.Machine
open Sys2Proof.Safety

/-! The stream engine of an inbound channel. -/

section
variable {s u : State} {t : Nat}

theorem Works.signalIn (h : Works s u t) (k n src : Nat) : Works s (u.signalIn t k n src) t :=
  h.ite (Works.ite (Works.setTile h (.addEv _ _)) (h.semSignal _ _ _ _))

theorem Works.seItem (h : Works s u t) (c n : Nat) : Works s (u.seItem t c n) t := by
  unfold State.seItem
  extract_lets v m w
  have h1 : Works s w t := h.setSeCtx _ _
  exact (h1.signalIn _ _ _).ite (h1.updSe _)

theorem Works.seGap (h : Works s u t) (c n : Nat) : Works s (u.seGap t c n) t := by
  unfold State.seGap
  extract_lets v m lo w1 w2 w3
  have h1 : Works s w1 t := (h.setSeCtx _ _).dropKept _ _ _
  have h2 : Works s w2 t := h1.updSe _
  have h3 : Works s w3 t := h2.ite (h2.updSe _)
  exact h3.gapFree _ _

end

/-! The beats of the partitions. -/

theorem PartsSteady.then {s u v : State} (h : PartsSteady s u) (hv : v.parts = u.parts) : PartsSteady s v := h.trans (.of_parts hv)

theorem PartsSteady.foldl {α : Type} {f : State → α → State} (hf : ∀ s x, PartsSteady s (f s x)) (l : List α) (s : State) :
    PartsSteady s (l.foldl f s) := by
  induction l generalizing s with
  | nil => exact .refl s
  | cons x r ih => exact (hf s x).trans (ih (f s x))

/-- A tile's own work. -/
theorem Works.steady {s u : State} {t : Nat} (h : Works s u t) : PartsSteady s u := h.2.2.2.2

/-- The credit that a channel's room gives. -/
theorem State.chanGiveCredit_parts (s : State) (c : Nat) : (s.chanGiveCredit c).parts = s.parts := by
  unfold State.chanGiveCredit
  dsimp only
  split
  · rfl
  · rw [State.chanShow_parts, State.chanRecord, State.chanFlit_frame]; rfl

/-- A gap that retires. -/
theorem State.chanRetireGap_steady (s : State) (c : Nat) (again : Bool) : PartsSteady s (s.chanRetireGap c again) := by
  unfold State.chanRetireGap
  dsimp only
  split
  · exact .refl s
  · have hset (x : Chan) : PartsSteady s (s.setChan c x) := .of_parts rfl
    exact ((hset _).trans ((Works.refl _ _).seGap _ _).steady).then (State.chanGiveCredit_parts _ c)

/-- Stale gaps that are dropped. -/
theorem State.dropStale_steady (c e n : Nat) (s : State) : PartsSteady s (s.dropStale c e n) := by
  induction n generalizing s with
  | zero => exact .refl s
  | succ n ih =>
    unfold State.dropStale
    dsimp only
    split
    · split
      · refine PartsSteady.trans ?_ (ih _)
        exact (s.chanRetireGap_steady c false).then rfl
      · exact .refl s
    · exact .refl s

/-- Requests that are cleared. -/
theorem State.clearPending_parts (s : State) (f : Nat → Bool) : (s.clearPending f).parts = s.parts :=
  foldl_keeps State.parts (f := fun (s : State) (e : Nat × Word) => s.setBit e.1 31 false) (fun _ _ _ => rfl) s

/-- A gap that aborts a beat leaves the beat open. -/
theorem State.gapAbort_steady (s : State) (p openMs : Nat) : PartsSteady s (s.gapAbort p openMs) := by
  unfold State.gapAbort
  dsimp only
  have habort : PartsSteady s (s.updPart p fun x => { x with gapAbort := true }) := .updPart s p fun x => ⟨rfl, rfl, rfl, fun _ => rfl⟩
  refine PartsSteady.then (habort.trans (.foldl (fun v t => ?_) _ _)) (State.clearPending_parts _ _)
  exact (((Works.refl v t).cutOff.restoreTile openMs).steady).then rfl

/-- A channel that resolves leaves the beat open. -/
theorem State.chanResolve_steady (s : State) (c : Nat) : PartsSteady s (s.chanResolve c) := by
  unfold State.chanResolve
  dsimp only
  split
  · exact .refl s
  · next q _ =>
    split
    · have hstale := State.dropStale_steady c ((q.openMs + 2 ^ 48 - 1) % 2 ^ 48) ((s.chan c).items.length + 1) s
      generalize s.dropStale c ((q.openMs + 2 ^ 48 - 1) % 2 ^ 48) ((s.chan c).items.length + 1) = u at hstale
      split
      · exact hstale.then (State.chanShow_parts u c)
      · have hset (x : Chan) : PartsSteady s (u.setChan c x) := hstale.then rfl
        split
        · exact ((hset _).trans ((Works.refl _ _).seItem _ _).steady).then (State.chanShow_parts _ c)
        · split
          · exact ((hset _).trans (State.gapAbort_steady _ _ _)).then (State.chanShow_parts _ c)
          · exact hstale.then (State.chanShow_parts u c)
    · exact .of_parts (State.chanShow_parts s c)

end Sys2Proof.Machine
end

section
/-! The opening of a beat (R35, R36, R129, R131): each enabled tile stands at handshake 0 of its partition's variant. -/
namespace Sys2Proof.Machine
open Sys2Proof.Safety

/-! A tile. -/

/-- The registers that the opening of a beat writes in a tile. -/
def openRegs (t : Nat) : List Nat :=
  [Reg.TC_STATUS t, Reg.SEQ_HS t, Reg.SEQ_BEAT_STATUS t, Reg.SEQ_STATUS t, Reg.SEQ_BEAT_MS_LO t, Reg.SEQ_BEAT_MS_HI t, Reg.SEQ_STEP_LO t,
   Reg.SEQ_STEP_HI t, Reg.SEQ_ATTEMPT t]

/-- Registers of tiles are numbered by tile. -/
theorem openRegs_place {t a : Nat} (h : a ∈ openRegs t) : Reg.tileBase t ≤ a ∧ a < Reg.tileBase t + 0x10000 := by
  simp only [openRegs, List.mem_cons, List.not_mem_nil, or_false, Reg.TC_STATUS, Reg.SEQ_HS, Reg.SEQ_BEAT_STATUS, Reg.SEQ_STATUS,
    Reg.SEQ_BEAT_MS_LO, Reg.SEQ_BEAT_MS_HI, Reg.SEQ_STEP_LO, Reg.SEQ_STEP_HI, Reg.SEQ_ATTEMPT] at h
  omega

/-- What a tile shows of the beat that has opened. -/
def BeatShown (s u : State) (p n v t : Nat) : Prop :=
  (u.tile t).nextHs = 0 ∧ (u.tile t).stopped = false ∧ (u.tile t).done = false ∧ (u.tile t).nextK = s.fld (Reg.SEQ_VAR t v) 0 12 ∧
    u.hs t = 0 ∧ u.rd2 (Reg.SEQ_BEAT_MS_LO t) (Reg.SEQ_BEAT_MS_HI t) = n ∧ u.rd2 (Reg.SEQ_STEP_LO t) (Reg.SEQ_STEP_HI t) = s.step48 p ∧
    u.rd (Reg.SEQ_ATTEMPT t) = BitVec.ofNat 32 (s.attempt p)

/-- Only one tile's record, and the registers that the opening of a beat writes in it, differ. -/
def OpensTile (s u : State) (t : Nat) : Prop :=
  u.parts = s.parts ∧ (∀ k, k ≠ t → u.tile k = s.tile k) ∧ ∀ a, a ∉ openRegs t → u.rd a = s.rd a

theorem OpensTile.wr {s u : State} {t a : Nat} (h : OpensTile s u t) (ha : a ∈ openRegs t) (v : Word) : OpensTile s (u.wr a v) t := by
  obtain ⟨h1, h2, h3⟩ := h
  exact ⟨h1, h2, fun b hb => by rw [State.rd_wr, if_neg fun hab : a = b => hb (hab ▸ ha), h3 b hb]⟩

theorem OpensTile.setTile {s u : State} {t : Nat} (h : OpensTile s u t) (x : Tile) : OpensTile s (u.setTile t x) t := by
  obtain ⟨h1, h2, h3⟩ := h
  exact ⟨h1, fun k hk => by rw [State.tile_setTile, if_neg hk.symm, h2 k hk], h3⟩

/-- A register of a partition's beat block is none that the opening writes. -/
theorem OpensTile.ofBeats {s u : State} {t : Nat} (h : OpensTile s u t) (ht : t < 128) {a : Nat} (ha : Reg.ofBeats a) : u.rd a = s.rd a := by
  refine h.2.2 a fun hm => ?_
  obtain ⟨hlo, hhi⟩ := openRegs_place hm
  obtain ⟨hb, -⟩ := ha
  simp only [Reg.tileBase] at hlo hhi
  omega

/-- The registers that show the step and the attempt of a partition. -/
theorem Reg.ofBeats_step {p : Nat} (hp : p < 16) : Reg.ofBeats (Reg.PART_STEP_LO p) ∧ Reg.ofBeats (Reg.PART_STEP_HI p) := by
  have h1 : Reg.PART_STEP_LO p = 0x73008000 + p * 0x100 + 8 := rfl
  have h2 : Reg.PART_STEP_HI p = 0x73008000 + p * 0x100 + 0xC := rfl
  unfold Reg.ofBeats
  exact ⟨by omega, by omega⟩

/-- The step and the attempt of a partition stay where its beat block does. -/
theorem State.step48_of_rd {s u : State} {p : Nat} (hp : p < 16) (h : ∀ a, Reg.ofBeats a → u.rd a = s.rd a) :
    u.step48 p = s.step48 p ∧ u.attempt p = s.attempt p := by
  obtain ⟨hlo, hhi⟩ := Reg.ofBeats_step hp
  refine ⟨?_, State.fld_of_rd (h _ (Reg.ofBeats_part hp).1) 16 8⟩
  rw [State.step48, State.rd2, h _ hlo, h _ hhi]
  rfl

/-- The opening of a beat in a tile. -/
theorem State.openTile_opens (s : State) {p n t : Nat} (v : Nat) (hp : p < 16) (ht : t < 128) (hn : n < 2 ^ 48) :
    let u := s.openTile p n v t
    OpensTile s u t ∧ u.hs t = 0 ∧ u.rd2 (Reg.SEQ_BEAT_MS_LO t) (Reg.SEQ_BEAT_MS_HI t) = n ∧
      u.rd2 (Reg.SEQ_STEP_LO t) (Reg.SEQ_STEP_HI t) = s.step48 p ∧ u.rd (Reg.SEQ_ATTEMPT t) = BitVec.ofNat 32 (s.attempt p) := by
  dsimp only
  unfold State.openTile
  extract_lets x xt u1 u2 u3 b u4 u5 u6 u7
  have h1 : OpensTile s u1 t := OpensTile.setTile ⟨rfl, fun _ _ => rfl, fun _ _ => rfl⟩ _
  have h2 : OpensTile s u2 t := by
    refine OpensTile.wr ?_ (by simp [openRegs]) _
    unfold State.clearPower
    dsimp only
    split
    · exact (h1.setTile _).wr (by simp [openRegs]) _
    · exact h1.setTile _
  have h3 : OpensTile s u3 t := h2.wr (by simp [openRegs]) _
  have h4 : OpensTile s u4 t := h3.wr (by simp [openRegs]) _
  have h5 : OpensTile s u5 t := h4.wr (by simp [openRegs]) _
  have h6 : OpensTile s u6 t := (h5.wr (by simp [openRegs]) _).wr (by simp [openRegs]) _
  have h7 : OpensTile s u7 t := (h6.wr (by simp [openRegs]) _).wr (by simp [openRegs]) _
  have hstep : u6.step48 p = s.step48 p := (State.step48_of_rd hp fun a ha => h6.ofBeats ht ha).1
  have hattempt : u7.attempt p = s.attempt p := (State.step48_of_rd hp fun a ha => h7.ofBeats ht ha).2
  have hlt : s.step48 p < 2 ^ 64 := Nat.lt_trans (Nat.mod_lt _ (by decide)) (by decide)
  refine ⟨h7.wr (by simp [openRegs]) _, ?_, ?_, ?_, ?_⟩
  · have hhs : u3.hs t = 0 := State.fld_setFld_self u2 _ 0 (by decide)
    refine (State.fld_of_rd ?_ 0 20).trans hhs
    simp [u7, u6, u5, u4, State.rd_wr2, Reg.SEQ_HS, Reg.SEQ_ATTEMPT, Reg.SEQ_STEP_LO, Reg.SEQ_STEP_HI, Reg.SEQ_BEAT_MS_LO, Reg.SEQ_BEAT_MS_HI,
      Reg.SEQ_STATUS, Reg.SEQ_BEAT_STATUS]
  · have hms : u6.rd2 (Reg.SEQ_BEAT_MS_LO t) (Reg.SEQ_BEAT_MS_HI t) = n :=
      State.rd2_wr2 u5 (by simp [Reg.SEQ_BEAT_MS_LO, Reg.SEQ_BEAT_MS_HI]) (Nat.lt_trans hn (by decide))
    refine Eq.trans ?_ hms
    simp [State.rd2, State.rd_wr2, u7, Reg.SEQ_ATTEMPT, Reg.SEQ_STEP_LO, Reg.SEQ_STEP_HI, Reg.SEQ_BEAT_MS_LO, Reg.SEQ_BEAT_MS_HI]
  · have hst : u7.rd2 (Reg.SEQ_STEP_LO t) (Reg.SEQ_STEP_HI t) = s.step48 p := by
      rw [← hstep] at hlt ⊢
      exact State.rd2_wr2 u6 (by simp [Reg.SEQ_STEP_LO, Reg.SEQ_STEP_HI]) hlt
    refine Eq.trans ?_ hst
    simp [State.rd2, Reg.SEQ_ATTEMPT, Reg.SEQ_STEP_LO, Reg.SEQ_STEP_HI]
  · rw [State.rd_wr, if_pos rfl, ← hattempt]
    rfl

/-- What the opening of a beat does to a tile's record. -/
theorem State.openTile_tile (s : State) (p n v t : Nat) :
    ((s.openTile p n v t).tile t).nextHs = 0 ∧ ((s.openTile p n v t).tile t).stopped = false ∧
      ((s.openTile p n v t).tile t).done = false ∧ ((s.openTile p n v t).tile t).nextK = s.fld (Reg.SEQ_VAR t v) 0 12 := by
  have hclear (u : State) : ∃ tc, (u.clearPower t).tile t = { u.tile t with tc := tc } := by
    unfold State.clearPower
    dsimp only
    refine ⟨{ (u.tile t).tc with power := false }, ?_⟩
    split
    · exact (State.tile_setTile u t t _).trans (if_pos rfl)
    · exact (State.tile_setTile u t t _).trans (if_pos rfl)
  unfold State.openTile
  extract_lets x xt u1 u2 u3 b u4 u5 u6 u7
  have h1 := (State.tile_setTile s t t { x with
    nextHs := 0, nextK := s.fld (Reg.SEQ_VAR t v) 0 12, stopped := false, overrunAt := none, gate := none, endAt := none
    order := 0, evs := [], lastWide := none, done := false
    tc := { x.tc with stopped := false, power := false, access := (0, 0) } }).trans (if_pos rfl)
  obtain ⟨tc, h2⟩ := hclear u1
  have h3 : (u7.wr (Reg.SEQ_ATTEMPT t) (BitVec.ofNat 32 (u7.fld (Reg.PART_BEAT_STATUS p) 16 8))).tile t = { u1.tile t with tc := tc } := h2
  rw [h3, h1]
  exact ⟨rfl, rfl, rfl, rfl⟩

/-- What the opening of a beat shows in a tile. -/
theorem State.openTile_shown (s : State) {p n t : Nat} (v : Nat) (hp : p < 16) (ht : t < 128) (hn : n < 2 ^ 48) :
    BeatShown s (s.openTile p n v t) p n v t := by
  obtain ⟨h1, h2, h3, h4⟩ := s.openTile_tile p n v t
  obtain ⟨-, hregs⟩ := s.openTile_opens v hp ht hn
  exact ⟨h1, h2, h3, h4, hregs⟩

/-! The tiles of a partition. -/

/-- A tile's record and the registers that the opening of a beat writes in it stay. -/
def TileSame (s u : State) (k : Nat) : Prop := u.tile k = s.tile k ∧ ∀ a ∈ openRegs k, u.rd a = s.rd a

theorem TileSame.trans {s u v : State} {k : Nat} (h : TileSame s u k) (h' : TileSame u v k) : TileSame s v k :=
  ⟨h'.1.trans h.1, fun a ha => (h'.2 a ha).trans (h.2 a ha)⟩

/-- Another tile opens. -/
theorem OpensTile.other {s u : State} {t k : Nat} (h : OpensTile s u t) (hk : k ≠ t) : TileSame s u k := by
  refine ⟨h.2.1 k hk, fun a ha => h.2.2 a fun hat => ?_⟩
  obtain ⟨h1, h2⟩ := openRegs_place ha
  obtain ⟨h3, h4⟩ := openRegs_place hat
  simp only [Reg.tileBase] at h1 h2 h3 h4
  omega

/-- The opening of a beat in a tile touches nothing outside the tiles. -/
theorem OpensTile.aside {s u v : State} {t : Nat} (h : OpensTile s u t) (ht : t < 128) (hv : Aside u v) : Aside s v := by
  refine ⟨hv.1.trans h.1, fun a ha => (hv.2 a ha).trans (h.2.2 a fun hm => ha ?_)⟩
  obtain ⟨hlo, hhi⟩ := openRegs_place hm
  simp only [Reg.tileBase] at hlo hhi
  unfold Reg.inTile
  omega

/-- What a tile shows stays where its record and those registers do. -/
theorem BeatShown.of_same {s u w : State} {p n v k : Nat} (h : BeatShown s u p n v k) (hw : TileSame u w k) : BeatShown s w p n v k := by
  obtain ⟨htile, hrd⟩ := hw
  have hin : Reg.SEQ_HS k ∈ openRegs k ∧ Reg.SEQ_BEAT_MS_LO k ∈ openRegs k ∧ Reg.SEQ_BEAT_MS_HI k ∈ openRegs k ∧
      Reg.SEQ_STEP_LO k ∈ openRegs k ∧ Reg.SEQ_STEP_HI k ∈ openRegs k ∧ Reg.SEQ_ATTEMPT k ∈ openRegs k := by simp [openRegs]
  obtain ⟨hhs, hml, hmh, hsl, hsh, hat⟩ := hin
  obtain ⟨h1, h2, h3, h4, h5, h6, h7, h8⟩ := h
  refine ⟨by rw [htile, h1], by rw [htile, h2], by rw [htile, h3], by rw [htile, h4], (State.fld_of_rd (hrd _ hhs) 0 20).trans h5, ?_, ?_,
    (hrd _ hat).trans h8⟩
  · rw [State.rd2, hrd _ hml, hrd _ hmh]; exact h6
  · rw [State.rd2, hrd _ hsl, hrd _ hsh]; exact h7

/-- A tile opens with what its partition showed before a lower tile opened. -/
theorem BeatShown.of_lower {s u w : State} {p n v t k : Nat} (hu : OpensTile s u t) (htk : t < k) (hk : k < 128) (hp : p < 16)
    (h : BeatShown u w p n v k) : BeatShown s w p n v k := by
  have hvar : u.fld (Reg.SEQ_VAR k v) 0 12 = s.fld (Reg.SEQ_VAR k v) 0 12 := by
    refine State.fld_of_rd (hu.2.2 _ fun hm => ?_) 0 12
    obtain ⟨-, hhi⟩ := openRegs_place hm
    simp only [Reg.SEQ_VAR, Reg.tileBase] at hhi
    omega
  obtain ⟨hstep, hattempt⟩ := State.step48_of_rd hp fun a ha => hu.ofBeats (Nat.lt_trans htk hk) ha
  obtain ⟨h1, h2, h3, h4, h5, h6, h7, h8⟩ := h
  exact ⟨h1, h2, h3, h4.trans hvar, h5, h6, h7.trans hstep, by rw [h8, hattempt]⟩

/-- The tiles open one by one, ascending. -/
theorem State.openTiles_shown {p n : Nat} (v : Nat) (hp : p < 16) (hn : n < 2 ^ 48) {l : List Nat} (hl : l.Pairwise (· < ·))
    (ht : ∀ t ∈ l, t < 128) (s : State) :
    let u := l.foldl (fun s t => s.openTile p n v t) s
    Aside s u ∧ (∀ k, k ∉ l → TileSame s u k) ∧ ∀ k ∈ l, BeatShown s u p n v k := by
  induction l generalizing s with
  | nil => exact ⟨.refl s, fun _ _ => ⟨rfl, fun _ _ => rfl⟩, fun _ h => absurd h List.not_mem_nil⟩
  | cons t r ih =>
    obtain ⟨htr, hr⟩ := List.pairwise_cons.mp hl
    have ht128 := ht t (List.mem_cons_self ..)
    obtain ⟨hopen, -⟩ := s.openTile_opens v hp ht128 hn
    obtain ⟨haside, hsame, hshown⟩ := ih hr (fun k hk => ht k (List.mem_cons_of_mem t hk)) (s.openTile p n v t)
    have hnot : t ∉ r := fun h => Nat.lt_irrefl t (htr t h)
    rw [List.foldl_cons]
    refine ⟨hopen.aside ht128 haside, fun k hk => ?_, fun k hk => ?_⟩
    · rw [List.mem_cons, not_or] at hk
      exact (hopen.other hk.1).trans (hsame k hk.2)
    · rcases List.mem_cons.mp hk with rfl | hk'
      · exact (s.openTile_shown v hp ht128 hn).of_same (hsame k hnot)
      · exact .of_lower hopen (htr k hk') (ht k hk) hp (hshown k hk')

/-! The partition. -/

/-- The tiles of a partition's beat ascend. -/
theorem State.beatTiles_ascend (s : State) (p : Nat) : (s.beatTiles p).Pairwise (· < ·) ∧ ∀ t ∈ s.beatTiles p, t < 128 := by
  refine ⟨?_, fun t ht => State.partTiles_lt (List.mem_of_mem_filter ht)⟩
  unfold State.beatTiles State.partTiles
  refine List.Pairwise.filter _ ?_
  split
  · exact List.Pairwise.filter _ List.pairwise_lt_range
  · exact .nil

/-- A partition's tiles, enabled tiles and channels are told by its record and the registers. -/
theorem State.beatTiles_updPart (s : State) (p : Nat) {q : Part} (hq : s.part p = some q) {f : Part → Part} (hf : (f q).tiles = q.tiles) :
    (s.updPart p f).beatTiles p = s.beatTiles p ∧ (s.updPart p f).partChans p = s.partChans p := by
  have hrd := s.updPart_rd p f
  refine ⟨?_, List.filter_congr fun c _ => ?_⟩
  · have htiles : (s.updPart p f).partTiles p = s.partTiles p := by
      rw [State.partTiles, State.partTiles, State.updPart_part hq, hq]
      exact hf
    unfold State.beatTiles
    rw [htiles]
    exact List.filter_congr fun t _ => State.bit_of_rd (hrd _) 0
  · rw [State.chanOn, State.chanOn, State.chanOwner, State.chanOwner, State.bit_of_rd (hrd _), State.fld_of_rd (hrd _)]

/-- A beat opens with what the registers showed before the partition's record was changed. -/
theorem BeatShown.of_rd {s u w : State} {p n v k : Nat} (h : BeatShown u w p n v k) (hrd : ∀ a, u.rd a = s.rd a) : BeatShown s w p n v k := by
  obtain ⟨h1, h2, h3, h4, h5, h6, h7, h8⟩ := h
  refine ⟨h1, h2, h3, h4.trans (State.fld_of_rd (hrd _) 0 12), h5, h6, h7.trans ?_, h8.trans (congrArg (BitVec.ofNat 32) ?_)⟩
  · rw [State.step48, State.rd2, hrd, hrd]; rfl
  · exact State.fld_of_rd (hrd _) 16 8

/-- The record of a partition whose beat opens. -/
def Part.opened (x : Part) (n v : Nat) : Part :=
  { x with beatOpen := true, openMs := n, gapAbort := false, variants := (v :: x.variants).take 16 }

/-- The channels of a partition resolve one by one. -/
def State.resolveChans (s : State) (p : Nat) : State := (s.partChans p).foldl (fun s c => s.chanResolve c) s

/-- What BEAT_START makes of a partition and of its tiles. -/
theorem State.openBeat_shown {s : State} {p : Nat} {q : Part} (hp : p < 16) (hq : s.part p = some q) :
    ∃ y, (s.openBeat p).part p = some y ∧ y.beatOpen = true ∧ y.openMs = s.msCount ∧ y.variants.head? = some (s.partVariant p) ∧
      (s.partChans p = [] → ∀ k ∈ s.beatTiles p, BeatShown s (s.openBeat p) p s.msCount (s.partVariant p) k) := by
  have hn : s.msCount < 2 ^ 48 := Nat.mod_lt _ (by decide)
  have hopen : s.openBeat p = ((((s.updPart p (Part.opened · s.msCount (s.partVariant p))).beatTiles p).foldl
      (fun s' t => s'.openTile p s.msCount (s.partVariant p) t) (s.updPart p (Part.opened · s.msCount (s.partVariant p))))).resolveChans p := rfl
  have hpart := State.updPart_part hq (Part.opened · s.msCount (s.partVariant p))
  obtain ⟨htiles, hchans⟩ := s.beatTiles_updPart p hq (f := (Part.opened · s.msCount (s.partVariant p))) rfl
  have hrd := s.updPart_rd p (Part.opened · s.msCount (s.partVariant p))
  generalize s.updPart p (Part.opened · s.msCount (s.partVariant p)) = u at hopen hpart htiles hchans hrd
  obtain ⟨hasc, hlt⟩ := s.beatTiles_ascend p
  rw [htiles] at hopen
  obtain ⟨haside, -, hshown⟩ := u.openTiles_shown (s.partVariant p) hp hn hasc hlt
  generalize (s.beatTiles p).foldl (fun s' t => s'.openTile p s.msCount (s.partVariant p) t) u = w at hopen haside hshown
  have hsteady : PartsSteady w (w.resolveChans p) := .foldl State.chanResolve_steady _ w
  obtain ⟨y, hy, hbeat, hms, hvars, -⟩ := hsteady p _ ((State.part_of_parts haside.1 p).trans hpart)
  rw [hopen]
  refine ⟨y, hy, hbeat, hms, by rw [hvars]; rfl, fun hnone k hk => ?_⟩
  have hsame : w.resolveChans p = w := by
    rw [State.resolveChans, haside.partChans, hchans, hnone]
    rfl
  rw [hsame]
  exact (hshown k hk).of_rd hrd

/-- Route time that goes on changes nothing else. -/
theorem State.timeTo_only (s : State) (x : Nat) : ∃ n, s.timeTo x = { s with time := n } := by
  unfold State.timeTo
  split
  · exact ⟨_, rfl⟩
  · exact ⟨s.time, rfl⟩

/-- Settles O22: BEAT_START reaches its Route time, and the beat opens. -/
theorem beatOpensAtHandshakeZero : Obligations.BeatOpensAtHandshakeZero := by
  intro s p q hp hq hs hr hb
  have hexec : exec (.beatStart p) s = .next ((s.timeTo ((s.msTime s.msCount + 40) * 2 ^ 16)).openBeat p) := by
    show execBeatStart p s = _
    rw [execBeatStart, hq]
    simp only [hs, hr, hb, Bool.not_false, and_self, if_true]
  obtain ⟨n, htime⟩ := s.timeTo_only ((s.msTime s.msCount + 40) * 2 ^ 16)
  rw [htime] at hexec
  obtain ⟨y, hy, hopen⟩ := State.openBeat_shown (s := { s with time := n }) hp hq
  exact ⟨_, y, hexec, hy, hopen⟩

end Sys2Proof.Machine
end

section
/-! The raises of a START or a SET_PERIOD (R53): what they leave alone, and whether a rail still waits once they have begun. -/
namespace Sys2Proof.Machine
open Sys2Proof.Safety

/-- Nothing but rails' requests, shown floors and the governor's log differs: the rails hold what they held, a rail that waits goes on
waiting, and every ceiling stays. -/
structure Raises (s u : State) : Prop where
  rest : u = { s with regs := u.regs, pwr := u.pwr, alertStatus := u.alertStatus, out := u.out, log := u.log, logHigh := u.logHigh,
                      logLast := u.logLast, notices := u.notices, free := u.free }
  regs : ∀ a, a ∉ logRegs → (∀ q < 4, a ≠ Reg.PWR_GOV_VOLT q ∧ a ≠ Reg.PWR_RAIL_V q) → u.rd a = s.rd a
  ceil : ∀ q, (u.quarter q).ceil = (s.quarter q).ceil
  volt : ∀ q < 4, u.railMv q = s.railMv q
  waits : ∀ q < 4, s.railWaits q = true → u.railWaits q = true

namespace Raises

variable {s u v : State}

theorem refl (s : State) : Raises s s := ⟨rfl, fun _ _ _ => rfl, fun _ => rfl, fun _ _ => rfl, fun _ _ h => h⟩

theorem trans (h : Raises s u) (h' : Raises u v) : Raises s v where
  rest := by rw [h'.rest, h.rest]
  regs a ha hq := (h'.regs a ha hq).trans (h.regs a ha hq)
  ceil q := (h'.ceil q).trans (h.ceil q)
  volt q hq := (h'.volt q hq).trans (h.volt q hq)
  waits q hq hw := h'.waits q hq (h.waits q hq hw)

/-- What a rail is raised to stays. -/
theorem raiseMv (h : Raises s u) (x : Nat × Nat) : u.raiseMv x = s.raiseMv x := by rw [State.raiseMv, h.ceil, State.raiseMv]

end Raises

/-- A rail lies apart from the shown floors and from the log. -/
theorem Reg.PWR_RAIL_V_place {q : Nat} (hq : q < 4) : Reg.PWR_RAIL_V q ∉ logRegs ∧ ∀ k < 4, Reg.PWR_GOV_VOLT k ≠ Reg.PWR_RAIL_V q := by
  have hrail : Reg.PWR_RAIL_V q = 0x71000300 + q * 8 := rfl
  refine ⟨notMem_logRegs (.inl (by omega)), fun k hk => ?_⟩
  have hvolt : Reg.PWR_GOV_VOLT k = 0x71000104 + k * 4 := rfl
  omega

/-! Requests. -/

/-- A voltage is written to a rail: the rail waits. -/
theorem State.avsWrite_raises (s : State) {q : Nat} (hq : q < 4) (mv : Nat) :
    Raises s (s.avsWrite q mv) ∧ (s.avsWrite q mv).railWaits q = true := by
  have hrd (a : Nat) : (s.avsWrite q mv).rd a = (s.setBit (Reg.PWR_RAIL_V q) 31 true).rd a := rfl
  have hwait (k : Nat) (h : s.railWaits k = true ∨ k = q) : (s.avsWrite q mv).railWaits k = true := by
    rw [State.railWaits, State.bit_of_rd (hrd _)]
    by_cases hkq : Reg.PWR_RAIL_V q = Reg.PWR_RAIL_V k
    · rw [← hkq]
      exact State.bit_setBit_self s _ true (by decide)
    · rw [State.bit, State.rd_setBit, if_neg hkq]
      exact h.resolve_right fun h => hkq (congrArg Reg.PWR_RAIL_V h.symm)
  refine ⟨⟨rfl, fun a _ ha => ?_, fun _ => rfl, fun k _ => ?_, fun k _ hk => hwait k (.inl hk)⟩, hwait q (.inr rfl)⟩
  · rw [hrd, State.rd_setBit, if_neg (ha q hq).2.symm]
  · rw [State.railMv, State.fld_of_rd (hrd _), State.railMv]
    by_cases hkq : Reg.PWR_RAIL_V q = Reg.PWR_RAIL_V k
    · rw [← hkq]
      exact State.fld_setFld_below s _ _ (by decide) (by decide)
    · exact State.fld_setFld_ne s hkq _ _ _ _ _

/-- A voltage is requested: its rail waits, unless it holds it. -/
theorem State.avsRequest_raises (s : State) {q : Nat} (hq : q < 4) (mv : Nat) :
    Raises s (s.avsRequest q mv) ∧ (s.railMv q < mv → (s.avsRequest q mv).railWaits q = true) := by
  unfold State.avsRequest
  split
  · next hc =>
    refine ⟨.refl s, fun hlt => ?_⟩
    simp only [Bool.or_eq_true, beq_iff_eq] at hc
    exact hc.resolve_right (by omega)
  · obtain ⟨h, hw⟩ := s.avsWrite_raises hq mv
    exact ⟨h, fun _ => hw⟩

/-- One raise of a list is requested where it is due. -/
def State.askRaise (s : State) (x : Nat × Nat) : State := if s.railMv x.1 < s.raiseMv x then s.avsRequest x.1 (s.raiseMv x) else s

theorem State.askRaise_raises (s : State) {x : Nat × Nat} (hx : x.1 < 4) :
    Raises s (s.askRaise x) ∧ (s.railMv x.1 < s.raiseMv x → (s.askRaise x).railWaits x.1 = true) := by
  unfold State.askRaise
  split
  · next hlt =>
    obtain ⟨h, hw⟩ := s.avsRequest_raises hx (s.raiseMv x)
    exact ⟨h, fun _ => hw hlt⟩
  · next hge => exact ⟨.refl s, fun h => absurd h hge⟩

/-- The raises of a list that are due are requested. -/
theorem State.askRaises_raises (l : List (Nat × Nat)) (hl : ∀ x ∈ l, x.1 < 4) (s : State) :
    Raises s (s.askRaises l) ∧ ∀ x ∈ l, s.railMv x.1 < s.raiseMv x → (s.askRaises l).railWaits x.1 = true := by
  induction l generalizing s with
  | nil => exact ⟨.refl s, fun _ h => absurd h List.not_mem_nil⟩
  | cons y r ih =>
    have hask : s.askRaises (y :: r) = (s.askRaise y).askRaises r := rfl
    obtain ⟨h1, hw1⟩ := s.askRaise_raises (hl y (List.mem_cons_self ..))
    obtain ⟨h2, hw2⟩ := ih (fun x hx => hl x (List.mem_cons_of_mem y hx)) (s.askRaise y)
    rw [hask]
    refine ⟨h1.trans h2, fun x hx hlt => ?_⟩
    rcases List.mem_cons.mp hx with rfl | hr
    · exact h2.waits _ (hl x hx) (hw1 hlt)
    · exact hw2 x hr (by rw [h1.volt _ (hl x hx), h1.raiseMv]; exact hlt)

/-- Where every raise of a list is at hand none is requested. -/
theorem State.askRaises_raised {s : State} {l : List (Nat × Nat)} (h : s.raised l = true) : s.askRaises l = s := by
  refine foldl_eq_self fun x hx => if_neg ?_
  have hall := List.all_eq_true.mp h x hx
  simp only [Bool.and_eq_true, decide_eq_true_eq] at hall
  omega

/-! The floors. -/

/-- A floor is shown, and a ceiling below it is logged. -/
theorem State.showFloor_raises (s : State) {x : Nat × Nat} (hx : x.1 < 4) :
    let u := (s.setFld (Reg.PWR_GOV_VOLT x.1) 8 8 x.2).throttle x.1 x.2
    Raises s u ∧ ∀ q < 4, u.rd (Reg.PWR_RAIL_V q) = s.rd (Reg.PWR_RAIL_V q) := by
  dsimp only
  obtain ⟨p, t, hlog, -⟩ := (s.setFld (Reg.PWR_GOV_VOLT x.1) 8 8 x.2).throttle_parts x.1 x.2
  obtain ⟨-, -, -, hrd⟩ := (s.setFld (Reg.PWR_GOV_VOLT x.1) 8 8 x.2).throttle_only x.1 x.2
  generalize (s.setFld (Reg.PWR_GOV_VOLT x.1) 8 8 x.2).throttle x.1 x.2 = u at hlog hrd
  have hregs (a : Nat) (ha : a ∉ logRegs) (hv : Reg.PWR_GOV_VOLT x.1 ≠ a) : u.rd a = s.rd a :=
    (hrd a ha).trans (by rw [State.rd_setFld, if_neg hv])
  have hrail (q : Nat) (hq : q < 4) : u.rd (Reg.PWR_RAIL_V q) = s.rd (Reg.PWR_RAIL_V q) := by
    obtain ⟨hlogs, hvolt⟩ := Reg.PWR_RAIL_V_place hq
    exact hregs _ hlogs (hvolt x.1 hx)
  refine ⟨⟨by rw [hlog]; rfl, fun a ha hq => hregs a ha (hq x.1 hx).1.symm, fun q => ?_, fun q hq => State.fld_of_rd (hrail q hq) 0 12,
    fun q hq hw => (State.bit_of_rd (hrail q hq) 31).trans hw⟩, hrail⟩
  have hquarter : u.quarter q = ((s.setFld (Reg.PWR_GOV_VOLT x.1) 8 8 x.2).setQuarter x.1
      { (s.setFld (Reg.PWR_GOV_VOLT x.1) 8 8 x.2).quarter x.1 with loggedP := p, loggedT := t }).quarter q := by rw [hlog]; rfl
  rw [hquarter, State.quarter_setQuarter]
  split
  · next hc =>
    obtain ⟨rfl, -⟩ := hc
    rfl
  · rfl

/-- The floors of a list are shown. -/
theorem State.showFloors_raises (l : List (Nat × Nat)) (hl : ∀ x ∈ l, x.1 < 4) (s : State) :
    let u := l.foldl (fun s x => (s.setFld (Reg.PWR_GOV_VOLT x.1) 8 8 x.2).throttle x.1 x.2) s
    Raises s u ∧ ∀ q < 4, u.rd (Reg.PWR_RAIL_V q) = s.rd (Reg.PWR_RAIL_V q) := by
  induction l generalizing s with
  | nil => exact ⟨.refl s, fun _ _ => rfl⟩
  | cons y r ih =>
    obtain ⟨h1, hr1⟩ := s.showFloor_raises (hl y (List.mem_cons_self ..))
    obtain ⟨h2, hr2⟩ := ih (fun x hx => hl x (List.mem_cons_of_mem y hx)) ((s.setFld (Reg.PWR_GOV_VOLT y.1) 8 8 y.2).throttle y.1 y.2)
    exact ⟨h1.trans h2, fun q hq => (hr2 q hq).trans (hr1 q hq)⟩

/-! The raises of a list. -/

/-- The raises of a list begin, and where one of them was not at hand one is not at hand (R53). -/
theorem State.startRaises_raises {l : List (Nat × Nat)} (hl : ∀ x ∈ l, x.1 < 4) (s : State) :
    Raises s (s.startRaises l) ∧ (s.startRaises l).raised l = s.raised l := by
  obtain ⟨h1, hw1⟩ := s.askRaises_raises l hl
  obtain ⟨h2, hr2⟩ := (s.askRaises l).showFloors_raises l hl
  have hstart : s.startRaises l = l.foldl (fun s x => (s.setFld (Reg.PWR_GOV_VOLT x.1) 8 8 x.2).throttle x.1 x.2) (s.askRaises l) := rfl
  rw [← hstart] at h2 hr2
  have h := h1.trans h2
  refine ⟨h, ?_⟩
  cases hr : s.raised l with
  | true =>
    rw [State.askRaises_raised hr] at hr2
    refine List.all_eq_true.mpr fun x hx => ?_
    rw [h.raiseMv, h.volt _ (hl x hx), State.railWaits, State.bit_of_rd (hr2 _ (hl x hx))]
    exact List.all_eq_true.mp hr x hx
  | false =>
    obtain ⟨x, hx, hnot⟩ := List.all_eq_false.mp hr
    refine List.all_eq_false.mpr ⟨x, hx, ?_⟩
    have hwaits : (s.startRaises l).railWaits x.1 = true := by
      cases hw : s.railWaits x.1 with
      | true => exact h.waits _ (hl x hx) hw
      | false =>
        rw [hw, Bool.not_false, Bool.true_and, decide_eq_true_eq, Nat.not_le] at hnot
        exact h2.waits _ (hl x hx) (hw1 x hx hnot)
    rw [hwaits]
    exact Bool.false_ne_true

/-- The floors of a partition and of a period are those of the four quarters. -/
theorem State.floorsFor_lt (s : State) (p : Nat) : ∀ x ∈ s.floorsFor p, x.1 < 4 := by
  intro x hx
  unfold State.floorsFor at hx
  split at hx
  · cases hx
  · obtain ⟨q, hq, rfl⟩ := List.mem_map.mp (List.mem_of_mem_filter hx)
    exact List.mem_range.mp (List.mem_of_mem_filter hq)

theorem State.floorsAt_lt (s : State) (period : Nat) : ∀ x ∈ s.floorsAt period, x.1 < 4 := by
  intro x hx
  obtain ⟨q, hq, rfl⟩ := List.mem_map.mp (List.mem_of_mem_filter hx)
  exact List.mem_range.mp hq

end Sys2Proof.Machine
end

section
/-! Requests that act (R309): a command that keeps the mailboxes answers its request or waits, whatever else it did. -/
namespace Sys2Proof.Machine
open Sys2Proof.Safety

/-- A command has kept the mailboxes, the firmware and the place of a function's completion ring since its request began. -/
structure Acting (s w : State) (r : Req) (op : Nat) : Prop where
  mbx : w.mbx = (begun s r op).mbx
  alive : w.fwLost = s.fwLost
  ring : w.rd (Reg.MBX_CPL_BASE_LO r.fn) = s.rd (Reg.MBX_CPL_BASE_LO r.fn) ∧ w.rd (Reg.MBX_CPL_BASE_HI r.fn) = s.rd (Reg.MBX_CPL_BASE_HI r.fn)

/-- The registers of the mailboxes lie above all others. -/
abbrev Reg.belowMbx (a : Nat) : Prop := a < 0x100000000

theorem Reg.belowMbx.notMem_cplRegs {a : Nat} (h : Reg.belowMbx a) (fn : Nat) : a ∉ cplRegs fn := by
  have h1 : Reg.MBX_COUNTS fn = 0x100000000 + fn * 0x4000 + 0x4C := rfl
  have h2 : Reg.MSIX_PBA fn 0 = 0x100000000 + fn * 0x4000 + 0x1800 + 0 * 4 := rfl
  unfold Reg.belowMbx at h
  simp only [cplRegs, List.mem_cons, List.not_mem_nil, or_false]
  omega

namespace Acting

variable {s w v : State} {r : Req} {op : Nat}

theorem start (s : State) (r : Req) (op : Nat) : Acting s (begun s r op) r op := ⟨rfl, rfl, rfl, rfl⟩

/-- More was done. -/
theorem step (h : Acting s w r op) (hm : v.mbx = w.mbx) (hf : v.fwLost = w.fwLost) (hr : ∀ a, ¬ Reg.belowMbx a → v.rd a = w.rd a) :
    Acting s v r op := by
  obtain ⟨h1, h2, h3, h4⟩ := h
  have hlo : ¬ Reg.belowMbx (Reg.MBX_CPL_BASE_LO r.fn) := by
    have : Reg.MBX_CPL_BASE_LO r.fn = 0x100000000 + r.fn * 0x4000 + 0x18 := rfl
    unfold Reg.belowMbx
    omega
  have hhi : ¬ Reg.belowMbx (Reg.MBX_CPL_BASE_HI r.fn) := by
    have : Reg.MBX_CPL_BASE_HI r.fn = 0x100000000 + r.fn * 0x4000 + 0x1C := rfl
    unfold Reg.belowMbx
    omega
  exact ⟨hm.trans h1, hf.trans h2, (hr _ hlo).trans h3, (hr _ hhi).trans h4⟩

theorem wr (h : Acting s w r op) {a : Nat} (ha : Reg.belowMbx a) (x : Word) : Acting s (w.wr a x) r op :=
  h.step rfl rfl fun b hb => by rw [State.rd_wr, if_neg fun hab : a = b => hb (hab ▸ ha)]

theorem wr2 (h : Acting s w r op) {lo hi : Nat} (hlo : Reg.belowMbx lo) (hhi : Reg.belowMbx hi) (x : Nat) : Acting s (w.wr2 lo hi x) r op :=
  (h.wr hlo _).wr hhi _

theorem updPart (h : Acting s w r op) (p : Nat) (f : Part → Part) : Acting s (w.updPart p f) r op :=
  h.step (by unfold State.updPart; split <;> rfl) (by unfold State.updPart; split <;> rfl) fun a _ => State.updPart_rd w p f a

/-- The completion answers the request, and changes nothing but the mailbox, its counts, the pending vectors and what leaves. -/
theorem answers (hreq : Requested s r op) (h : Acting s w r op) (st : Nat) (res : List Byte) :
    let t := w.complete r.fn st res
    Answered s t r op st res ∧ OnlyMailbox w t ∧ RegsSameBut w t (cplRegs r.fn) ∧ ∀ a, Reg.belowMbx a → t.rd a = w.rd a := by
  obtain ⟨hm, hf, hlo, hhi⟩ := h
  obtain ⟨hans, honly, hregs⟩ := State.complete_answers_after (u := { w with mbx := s.mbx }) (st := st) (res := res) hreq rfl hf hlo hhi
  have hw : begun { w with mbx := s.mbx } r op = w := by
    show ({ w with mbx := (begun s r op).mbx } : State) = w
    rw [← hm]
  rw [hw] at hans honly hregs
  exact ⟨hans, honly, hregs, fun a ha => hregs a (ha.notMem_cplRegs r.fn)⟩

/-- The request waits. -/
theorem waits (h : Acting s w r op) (c : CmdWait) : Waits s (w.waits r c) r c := by
  have hm : w.fnMbx r.fn = (begun s r op).fnMbx r.fn := by rw [State.fnMbx, h.mbx]; rfl
  unfold Waits State.waitOf State.waits
  simp [hm, begun]

/-- The raises of a command keep the mailboxes. -/
theorem raises (h : Acting s w r op) (hv : Raises w v) : Acting s v r op := by
  refine h.step (by rw [hv.rest]) (by rw [hv.rest]) fun a ha => hv.regs a (notMem_logRegs (.inr ?_)) fun q _ => ?_
  · unfold Reg.belowMbx at ha
    omega
  · have h1 : Reg.PWR_GOV_VOLT q = 0x71000104 + q * 4 := rfl
    have h2 : Reg.PWR_RAIL_V q = 0x71000300 + q * 8 := rfl
    unfold Reg.belowMbx at ha
    omega

/-- A partition's change of state keeps the mailboxes. -/
theorem setPstate (h : Acting s w r op) {p : Nat} (hp : p < 16) (st : Nat) : Acting s (w.setPstate p st) r op := by
  have hkept : (w.setPstate p st).mbx = w.mbx ∧ (w.setPstate p st).fwLost = w.fwLost := by
    unfold State.setPstate
    dsimp only
    split
    · exact ⟨rfl, rfl⟩
    · rw [State.notifyAll_eq]
      exact ⟨foldl_keeps State.mbx (fun b e _ => by split <;> rfl) _, foldl_keeps State.fwLost (fun b e _ => by split <;> rfl) _⟩
  refine h.step hkept.1 hkept.2 fun a ha => ?_
  have hreg : Reg.PART_BEAT_STATUS p = 0x73008000 + p * 0x100 + 4 := rfl
  unfold Reg.belowMbx at ha
  rw [State.setPstate_rd, State.rd_setFld, if_neg (by omega)]

end Acting

end Sys2Proof.Machine
end

section
/-! START, STOP, SET_PERIOD and ROUTE_EPOCH arm their milestones (R32, R34, R53, R265, R268, R318). -/
namespace Sys2Proof.Machine
open Sys2Proof.Safety

/-! Places. -/

/-- Where the registers of a partition's beat block lie. -/
theorem Reg.beat_places (p : Nat) : Reg.PART_BEAT_STATUS p = 0x73008000 + p * 0x100 + 4 ∧ Reg.PART_STEP_LO p = 0x73008000 + p * 0x100 + 8 ∧
    Reg.PART_STEP_HI p = 0x73008000 + p * 0x100 + 0xC ∧ Reg.PART_START_AT_LO p = 0x73008000 + p * 0x100 + 0x10 ∧
    Reg.PART_START_AT_HI p = 0x73008000 + p * 0x100 + 0x14 ∧ Reg.PART_STOP_AT_LO p = 0x73008000 + p * 0x100 + 0x18 ∧
    Reg.PART_STOP_AT_HI p = 0x73008000 + p * 0x100 + 0x1C := ⟨rfl, rfl, rfl, rfl, rfl, rfl, rfl⟩

/-- A milestone that is armed, as its pair of registers holds it. -/
theorem armedMs_lt (ms : BitVec 48) : ms.toNat % 2 ^ 48 + 2 ^ 63 = ms.toNat + 2 ^ 63 ∧ ms.toNat + 2 ^ 63 < 2 ^ 64 := by
  have := ms.isLt
  omega

/-! START (R34, R53). -/

/-- The tiles of a partition are enabled. -/
theorem State.enableTiles_kept (s : State) (p : Nat) : Aside s (s.enableTiles p) ∧ (s.enableTiles p).mbx = s.mbx ∧
    (s.enableTiles p).fwLost = s.fwLost := by
  refine ⟨(Aside.refl s).foldl fun v t ht hv => hv.wr (Reg.inTile_of (State.partTiles_lt ht) (o := 8) (by decide)) _, ?_, ?_⟩
  · exact foldl_keeps State.mbx (f := fun (s : State) t => s.setBit (Reg.TILE_CTRL t) 0 true) (fun _ _ _ => rfl) s
  · exact foldl_keeps State.fwLost (f := fun (s : State) t => s.setBit (Reg.TILE_CTRL t) 0 true) (fun _ _ _ => rfl) s

/-- A START that is armed: the partition is ARMED for its milestone, with its step. -/
theorem State.armStart_shown (s : State) {p : Nat} (hp : p < 16) (ms step : BitVec 48) :
    let u := s.armStart p ms.toNat step.toNat
    u.pstate p = psArmed ∧ u.step48 p = step.toNat ∧ u.rd2 (Reg.PART_START_AT_LO p) (Reg.PART_START_AT_HI p) = ms.toNat + 2 ^ 63 := by
  obtain ⟨hst, hsl, hsh, hal, hah, -⟩ := Reg.beat_places p
  obtain ⟨hms, hlt⟩ := armedMs_lt ms
  have hstep : step.toNat % 2 ^ 48 = step.toNat := Nat.mod_eq_of_lt step.isLt
  unfold State.armStart
  extract_lets u1 u2
  obtain ⟨⟨-, hrd⟩, -⟩ := u2.enableTiles_kept p
  have hbeat (a : Nat) (ha : 0x73008000 ≤ a) (hne : a ≠ Reg.PART_BEAT_STATUS p) :
      (((u2.enableTiles p).updPart p fun x => { x with hushStart := [], hushStop := [] }).setPstate p psArmed).rd a = u2.rd a := by
    rw [State.setPstate_rd, State.rd_setFld, if_neg hne.symm, State.updPart_rd, hrd]
    unfold Reg.inTile
    omega
  refine ⟨State.setPstate_pstate _ p (by decide), ?_, ?_⟩
  · have hu : u2.rd2 (Reg.PART_STEP_LO p) (Reg.PART_STEP_HI p) = step.toNat := by
      have h1 : u1.rd2 (Reg.PART_STEP_LO p) (Reg.PART_STEP_HI p) = step.toNat % 2 ^ 48 :=
        State.rd2_wr2 s (by omega) (by omega)
      have hkeep (a : Nat) (ha : a < Reg.PART_START_AT_LO p) : u2.rd a = u1.rd a := by
        simp only [u2, State.rd_wr2]
        rw [if_neg (by omega), if_neg (by omega)]
      rw [State.rd2, hkeep _ (by omega), hkeep _ (by omega)]
      exact h1.trans hstep
    rw [State.step48, State.rd2, hbeat _ (by omega) (by omega), hbeat _ (by omega) (by omega)]
    exact (congrArg (· % 2 ^ 48) hu).trans hstep
  · have hu : u2.rd2 (Reg.PART_START_AT_LO p) (Reg.PART_START_AT_HI p) = ms.toNat % 2 ^ 48 + 2 ^ 63 :=
      State.rd2_wr2 u1 (by omega) (by omega)
    rw [State.rd2, hbeat _ (by omega) (by omega), hbeat _ (by omega) (by omega)]
    exact hu.trans hms

/-- A START that is armed keeps the mailboxes. -/
theorem Acting.armStart {s w : State} {r : Req} {op : Nat} (h : Acting s w r op) {p : Nat} (hp : p < 16) (ms step : Nat) :
    Acting s (w.armStart p ms step) r op := by
  obtain ⟨hst, hsl, hsh, hal, hah, -⟩ := Reg.beat_places p
  unfold State.armStart
  extract_lets u1 u2
  have h1 : Acting s u1 r op := h.wr2 (by unfold Reg.belowMbx; omega) (by unfold Reg.belowMbx; omega) _
  have h2 : Acting s u2 r op := h1.wr2 (by unfold Reg.belowMbx; omega) (by unfold Reg.belowMbx; omega) _
  obtain ⟨⟨-, hrd⟩, hm, hf⟩ := u2.enableTiles_kept p
  have h3 : Acting s (u2.enableTiles p) r op := h2.step hm hf fun a ha => hrd a (by unfold Reg.inTile Reg.belowMbx at *; omega)
  exact (h3.updPart _ _).setPstate hp _

/-- An entry of a map after one was replaced or entered. -/
theorem SMap.mem_set {α : Type} {m : SMap α} {k : Nat} {v : α} {x : Nat × α} (h : x ∈ SMap.set m k v) : x = (k, v) ∨ x ∈ m := by
  induction m with
  | nil => exact .inl (List.mem_singleton.mp h)
  | cons y r ih =>
    obtain ⟨j, w⟩ := y
    unfold SMap.set at h
    split at h
    · exact (List.mem_cons.mp h).imp_right (List.mem_cons_of_mem _)
    · split at h
      · exact List.mem_cons.mp h
      · rcases List.mem_cons.mp h with rfl | hr
        · exact .inr (List.mem_cons_self ..)
        · exact (ih hr).imp_right (List.mem_cons_of_mem _)

/-- A request that begins waits for no exit. -/
theorem State.startWaits_begun {s : State} {p : Nat} (h : s.startWaits p = false) (r : Req) (op : Nat) : (begun s r op).startWaits p = false := by
  unfold State.startWaits at h ⊢
  refine List.any_eq_false.mpr fun x hx => ?_
  rcases SMap.mem_set (show x ∈ SMap.set s.mbx r.fn _ from hx) with rfl | hx
  · exact Bool.false_ne_true
  · exact List.any_eq_false.mp h x hx

/-- The beginning of a request changes no floor. -/
theorem State.floorFor_begun (s : State) (r : Req) (op q b period : Nat) : (begun s r op).floorFor q b period = s.floorFor q b period := by
  have hquarter : (begun s r op).quarter q = s.quarter q := rfl
  unfold State.floorFor
  rw [hquarter]

theorem State.floorOf_begun (s : State) (r : Req) (op q : Nat) : (begun s r op).floorOf q = s.floorOf q := by
  have hbudget (p : Nat) : (begun s r op).budgetOf p = s.budgetOf p := rfl
  have hlive : (begun s r op).liveParts q = s.liveParts q := rfl
  have hperiod : (begun s r op).periodNs = s.periodNs := rfl
  unfold State.floorOf
  simp only [hbudget, hlive, hperiod, State.floorFor_begun]

theorem State.floorsFor_begun (s : State) (r : Req) (op p : Nat) : (begun s r op).floorsFor p = s.floorsFor p := by
  have hbudget : (begun s r op).budgetOf p = s.budgetOf p := rfl
  have hpart : (begun s r op).part p = s.part p := rfl
  have hperiod : (begun s r op).periodNs = s.periodNs := rfl
  unfold State.floorsFor
  simp only [hbudget, hpart, hperiod, State.floorFor_begun, State.floorOf_begun]

theorem State.floorsAt_begun (s : State) (r : Req) (op period : Nat) : (begun s r op).floorsAt period = s.floorsAt period := by
  have hbudget (p : Nat) : (begun s r op).budgetOf p = s.budgetOf p := rfl
  have hlive (q : Nat) : (begun s r op).liveParts q = s.liveParts q := rfl
  unfold State.floorsAt
  simp only [hbudget, hlive, State.floorFor_begun, State.floorOf_begun]

theorem State.capped_begun (s : State) (r : Req) (op : Nat) (l : List (Nat × Nat)) : (begun s r op).capped l = s.capped l := by
  have hwaits (q : Nat) : (begun s r op).railWaits q = s.railWaits q := rfl
  have hvolt (q : Nat) : (begun s r op).railMv q = s.railMv q := rfl
  have hquarter (q : Nat) : (begun s r op).quarter q = s.quarter q := rfl
  unfold State.capped State.raiseMv
  simp only [hwaits, hvolt, hquarter]

theorem State.raised_begun (s : State) (r : Req) (op : Nat) (l : List (Nat × Nat)) : (begun s r op).raised l = s.raised l := by
  have hwaits (q : Nat) : (begun s r op).railWaits q = s.railWaits q := rfl
  have hvolt (q : Nat) : (begun s r op).railMv q = s.railMv q := rfl
  have hquarter (q : Nat) : (begun s r op).quarter q = s.quarter q := rfl
  unfold State.raised State.raiseMv
  simp only [hwaits, hvolt, hquarter]

/-- The raises of a request that has begun. -/
theorem Acting.startRaises (s : State) (r : Req) (op : Nat) {l : List (Nat × Nat)} (hl : ∀ x ∈ l, x.1 < 4) :
    Acting s ((begun s r op).startRaises l) r op ∧ ((begun s r op).startRaises l).raised l = s.raised l ∧
      ∀ a, a < 0x71000000 ∨ 0x72000010 ≤ a → ((begun s r op).startRaises l).rd a = s.rd a := by
  obtain ⟨h, hraised⟩ := (begun s r op).startRaises_raises hl
  refine ⟨(Acting.start s r op).raises h, hraised.trans (s.raised_begun r op l), fun a ha => ?_⟩
  refine (h.regs a (notMem_logRegs (by omega)) fun q hq => ?_).trans rfl
  have h1 : Reg.PWR_GOV_VOLT q = 0x71000104 + q * 4 := rfl
  have h2 : Reg.PWR_RAIL_V q = 0x71000300 + q * 8 := rfl
  omega

/-- A command whose milestone lies more than one ahead waits for its raises. -/
theorem State.waitRaises_waits {w : State} {ms : Nat} (h : msAhead ms ((w.msCount + 1) % 2 ^ 48) = true) (r : Req) (c : CmdWait) :
    w.waitRaises r ms c = .next (w.waits r c) := by
  show Host.Outcome.next (if msAhead ms ((w.msCount + 1) % 2 ^ 48) then w.waits r c else (w.waits r c).complete r.fn stTimeout []) = _
  rw [if_pos h]

/-- The milestone counter is told by its registers. -/
theorem State.msCount_of_rd {s u : State} (h : ∀ a, a < 0x71000000 → u.rd a = s.rd a) : u.msCount = s.msCount := by
  rw [State.msCount, State.rd2, h _ (by decide), h _ (by decide)]
  rfl

/-- What follows the raises of a START. -/
def State.startGoesOn (s : State) (r : Req) (x : Part) (floors : List (Nat × Nat)) (ms step : Nat) (held : List (Nat × Nat)) :
    Host.Outcome State Fault Refusal :=
  if x.rung = 0 ∧ s.raised floors then (s.armStart r.partition ms step).reply r stOk (toBytes ms 6)
  else (s.wake r.partition).waitRaises r ms (.exit ms step held)

/-- A START that no check refuses: its raises begin, and it is armed or waits. -/
theorem exec_start_begins {s : State} {r : Req} {x : Part} {ms : BitVec 48} (step : BitVec 48) (hs : Serves s) (h : Requested s r 0x30)
    (hx : s.part r.partition = some x) (hst : s.pstate r.partition = psStopped) (hms : msAhead ms.toNat s.msCount = true)
    (hstop : s.bit (Reg.PART_STOP_AT_HI r.partition) 31 = false) (hfar : s.timeFar = false) (hw : s.startWaits r.partition = false)
    (hr : s.devRung = 0) (hph : s.pwr.phase = 0) (htrip : s.bit Reg.PWR_STATUS 8 = false) (hlost : s.lostColumn x = false)
    (hue : s.ueSectors x.sectors = false) (hoff : s.sectorOff x = false) :
    exec (.start r ms step) s = ((begun s r 0x30).startRaises (s.floorsFor r.partition)).startGoesOn r x (s.floorsFor r.partition) ms.toNat
      step.toNat (s.capped (s.floorsFor r.partition)) := by
  have hb : (begun s r 0x30).part r.partition = some x := hx
  have hchecks : (!((begun s r 0x30).isStopped r.partition) || !(msAhead ms.toNat (begun s r 0x30).msCount) ||
      (begun s r 0x30).bit (Reg.PART_STOP_AT_HI r.partition) 31 || (begun s r 0x30).timeFar || (begun s r 0x30).startWaits r.partition ||
      (begun s r 0x30).devRung != 0 || (begun s r 0x30).pwr.phase != 0 || (begun s r 0x30).bit Reg.PWR_STATUS 8) = false := by
    have hstopped : (begun s r 0x30).isStopped r.partition = true := by
      show (s.pstate r.partition == psStopped) = true
      rw [hst]; rfl
    rw [hstopped, show msAhead ms.toNat (begun s r 0x30).msCount = true from hms,
      show (begun s r 0x30).bit (Reg.PART_STOP_AT_HI r.partition) 31 = false from hstop, show (begun s r 0x30).timeFar = false from hfar,
      State.startWaits_begun hw, show (begun s r 0x30).devRung = 0 from hr, show (begun s r 0x30).pwr.phase = 0 from hph,
      show (begun s r 0x30).bit Reg.PWR_STATUS 8 = false from htrip]
    rfl
  have hfaults : ((begun s r 0x30).ueSectors x.sectors || (begun s r 0x30).sectorOff x) = false := by
    rw [show (begun s r 0x30).ueSectors x.sectors = false from hue, show (begun s r 0x30).sectorOff x = false from hoff]
    rfl
  show State.runCmd s r 0x30 _ _ _ _ = _
  rw [State.runCmd_acts h (by decide) hs _ _ _ (by rw [State.mayIssue, hx]; rfl) rfl]
  simp only [hb, hchecks, hfaults, State.floorsFor_begun, State.capped_begun, State.startGoesOn, show (begun s r 0x30).lostColumn x = false from hlost, Bool.false_eq_true, if_false]

/-- Where the floors are at hand a START is armed and answered. -/
theorem State.startGoesOn_arms {s w : State} {r : Req} {x : Part} {l held : List (Nat × Nat)} (ms step : BitVec 48) (h : Requested s r 0x30)
    (hact : Acting s w r 0x30) (hp : r.partition < 16) (hrung : x.rung = 0) (hraised : w.raised l = true) :
    ∃ t, w.startGoesOn r x l ms.toNat step.toNat held = .next t ∧ Answered s t r 0x30 stOk (toBytes ms.toNat 6) ∧
      t.pstate r.partition = psArmed ∧ t.step48 r.partition = step.toNat ∧
      t.rd2 (Reg.PART_START_AT_LO r.partition) (Reg.PART_START_AT_HI r.partition) = ms.toNat + 2 ^ 63 := by
  obtain ⟨hst, hsl, hsh, hal, hah, -⟩ := Reg.beat_places r.partition
  obtain ⟨h1, h2, h3⟩ := w.armStart_shown hp ms step
  obtain ⟨hans, -, -, hrd⟩ := (hact.armStart hp ms.toNat step.toNat).answers h stOk (toBytes ms.toNat 6)
  refine ⟨_, if_pos ⟨hrung, hraised⟩, hans, (State.fld_of_rd (hrd _ (by unfold Reg.belowMbx; omega)) 0 3).trans h1, ?_, ?_⟩
  · rw [State.step48, State.rd2, hrd _ (by unfold Reg.belowMbx; omega), hrd _ (by unfold Reg.belowMbx; omega)]
    exact h2
  · rw [State.rd2, hrd _ (by unfold Reg.belowMbx; omega), hrd _ (by unfold Reg.belowMbx; omega)]
    exact h3

/-- Where they are not, or the partition rests, it waits. -/
theorem State.startGoesOn_waits {s w : State} {r : Req} {x : Part} {l held : List (Nat × Nat)} {ms : Nat} (step : Nat)
    (hact : Acting s w r 0x30) (hwait : x.rung ≠ 0 ∨ w.raised l = false) (hms : msAhead ms ((w.msCount + 1) % 2 ^ 48) = true) :
    ∃ t, w.startGoesOn r x l ms step held = .next t ∧ Waits s t r (.exit ms step held) ∧ t.pstate r.partition = w.pstate r.partition := by
  have hnot : ¬ (x.rung = 0 ∧ w.raised l = true) := by
    rintro ⟨h0, h1⟩
    rcases hwait with h | h
    · exact h h0
    · rw [h] at h1; cases h1
  have hwoken (a : Nat) : (w.wake r.partition).rd a = w.rd a := State.updPart_rd ..
  have hmsw : msAhead ms (((w.wake r.partition).msCount + 1) % 2 ^ 48) = true := by
    rw [State.msCount_of_rd fun a _ => hwoken a]
    exact hms
  refine ⟨_, (if_neg hnot).trans (State.waitRaises_waits hmsw r _), (hact.updPart _ _).waits _, ?_⟩
  exact State.fld_of_rd (hwoken _) 0 3

/-! STOP (R34). -/

/-- A STOP that passes R309 acts. -/
theorem exec_stop_acts {s : State} {r : Req} (ms : BitVec 48) (next : Bool) (hs : Serves s) (h : Requested s r 0x31)
    (hx : s.part r.partition ≠ none) :
    (s.pstate r.partition = psStopped → exec (.stop r ms next) s = (begun s r 0x31).reply r stOk (toBytes s.msCount 6)) ∧
    (s.pstate r.partition = psArmed → exec (.stop r ms next) s =
      ((begun s r 0x31).clearStart r.partition).reply r stOk (toBytes s.msCount 6)) ∧
    (s.pstate r.partition = psRunning → next = false → msAhead ms.toNat s.msCount = true →
      s.bit (Reg.PART_STOP_AT_HI r.partition) 31 = false → exec (.stop r ms next) s =
      (((begun s r 0x31).wr2 (Reg.PART_STOP_AT_LO r.partition) (Reg.PART_STOP_AT_HI r.partition) (ms.toNat + 2 ^ 63)).updPart r.partition
        (fun x => { x with hushStop := [] })).reply r stOk (toBytes ms.toNat 6)) := by
  have hrun := State.runCmd_acts h (by decide) hs .own true false
    (by rw [State.mayIssue]; exact Option.isSome_iff_ne_none.mpr hx) rfl
  have hst : (begun s r 0x31).pstate r.partition = s.pstate r.partition := rfl
  have hms : (begun s r 0x31).msCount = s.msCount := rfl
  have hbit : (begun s r 0x31).bit (Reg.PART_STOP_AT_HI r.partition) 31 = s.bit (Reg.PART_STOP_AT_HI r.partition) 31 := rfl
  refine ⟨fun h0 => ?_, fun h1 => ?_, fun h2 hn hahead hno => ?_⟩
  · exact (hrun _).trans (by simp only [hst, h0, if_true, hms])
  · refine (hrun _).trans ?_
    simp only [hst, h1, hms, psArmed, psStopped, show ¬ (1 = 0) by decide, if_false, if_true]
  · refine (hrun _).trans ?_
    simp only [hst, h2, hms, hn, hahead, hbit, hno, psArmed, psStopped, psRunning, show ¬ (2 = 0) by decide, show ¬ (2 = 1) by decide, if_false,
      if_true, Bool.not_true, Bool.or_self, Bool.false_and, Bool.false_eq_true]

end Sys2Proof.Machine
end

section
/-! The other commands that arm a milestone (R32, R265, R268), and all of them. -/
namespace Sys2Proof.Machine
open Sys2Proof.Safety

/-! STOP (R34). -/

/-- A STOP is armed in a partition's registers. -/
def State.armStop (s : State) (p n : Nat) : State :=
  (s.wr2 (Reg.PART_STOP_AT_LO p) (Reg.PART_STOP_AT_HI p) n).updPart p (fun x => { x with hushStop := [] })

theorem State.armStop_shown {s : State} {p n : Nat} {x : Part} (hx : s.part p = some x) (hn : n < 2 ^ 64) :
    (s.armStop p n).part p = some { x with hushStop := [] } ∧
      (s.armStop p n).rd2 (Reg.PART_STOP_AT_LO p) (Reg.PART_STOP_AT_HI p) = n ∧
      (∀ a, a ∉ [Reg.PART_STOP_AT_LO p, Reg.PART_STOP_AT_HI p] → (s.armStop p n).rd a = s.rd a) ∧
      s.armStop p n = { s with regs := (s.armStop p n).regs, parts := (s.armStop p n).parts } := by
  obtain ⟨-, -, -, -, -, hlo, hhi⟩ := Reg.beat_places p
  have hrd (a : Nat) : (s.armStop p n).rd a = (s.wr2 (Reg.PART_STOP_AT_LO p) (Reg.PART_STOP_AT_HI p) n).rd a := State.updPart_rd ..
  refine ⟨State.updPart_part (s := s.wr2 _ _ n) hx _, ?_, fun a ha => ?_, ?_⟩
  · rw [State.rd2, hrd, hrd]
    exact State.rd2_wr2 s (by omega) hn
  · simp only [List.mem_cons, List.not_mem_nil, or_false, not_or] at ha
    rw [hrd, State.rd_wr2, if_neg (Ne.symm ha.2), if_neg (Ne.symm ha.1)]
  · unfold State.armStop State.updPart
    split <;> rfl

/-- A STOP of a RUNNING partition is armed. -/
theorem exec_stop_arms {s : State} {r : Req} {x : Part} {ms : BitVec 48} (hs : Serves s) (h : Requested s r 0x31)
    (hx : s.part r.partition = some x) (hp : r.partition < 16) (hrun : s.pstate r.partition = psRunning)
    (hms : msAhead ms.toNat s.msCount = true) (hno : s.bit (Reg.PART_STOP_AT_HI r.partition) 31 = false) :
    ∃ t, exec (.stop r ms false) s = .next t ∧ Answered s t r 0x31 stOk (toBytes ms.toNat 6) ∧ OnlyMailbox s { t with parts := s.parts } ∧
      t.part r.partition = some { x with hushStop := [] } ∧
      t.rd2 (Reg.PART_STOP_AT_LO r.partition) (Reg.PART_STOP_AT_HI r.partition) = ms.toNat + 2 ^ 63 ∧
      RegsSameBut s t (cplRegs r.fn ++ [Reg.PART_STOP_AT_LO r.partition, Reg.PART_STOP_AT_HI r.partition]) := by
  obtain ⟨-, -, -, -, -, hlo, hhi⟩ := Reg.beat_places r.partition
  obtain ⟨-, -, hstop⟩ := exec_stop_acts ms false hs h (by rw [hx]; exact Option.some_ne_none x)
  obtain ⟨-, hlt⟩ := armedMs_lt ms
  have hexec : exec (.stop r ms false) s = ((begun s r 0x31).armStop r.partition (ms.toNat + 2 ^ 63)).reply r stOk (toBytes ms.toNat 6) :=
    hstop hrun rfl hms hno
  generalize ms.toNat + 2 ^ 63 = n at hexec hlt
  obtain ⟨hpart, harm, hrd, honly⟩ := State.armStop_shown (s := begun s r 0x31) (p := r.partition) (x := x) hx hlt
  have hact : Acting s ((begun s r 0x31).armStop r.partition n) r 0x31 :=
    ((Acting.start s r 0x31).wr2 (by unfold Reg.belowMbx; omega) (by unfold Reg.belowMbx; omega) n).updPart _ _
  generalize (begun s r 0x31).armStop r.partition n = w at hexec hpart harm hrd honly hact
  obtain ⟨hans, hmbx, hregs, hbelow⟩ := hact.answers h stOk (toBytes ms.toNat 6)
  refine ⟨_, hexec, hans, ?_, ?_, ?_, fun a ha => ?_⟩
  · unfold OnlyMailbox at hmbx ⊢
    rw [hmbx, honly]
    rfl
  · rw [hmbx]; exact hpart
  · rw [State.rd2, hbelow _ (by unfold Reg.belowMbx; omega), hbelow _ (by unfold Reg.belowMbx; omega)]
    exact harm
  · rw [List.mem_append, not_or] at ha
    exact (hregs a ha.1).trans (hrd a ha.2)

/-- A STOP of an ARMED partition stops it. -/
theorem exec_stop_clears {s : State} {r : Req} (ms : BitVec 48) (next : Bool) (hs : Serves s) (h : Requested s r 0x31)
    (hx : s.part r.partition ≠ none) (hp : r.partition < 16) (hst : s.pstate r.partition = psArmed) :
    ∃ t, exec (.stop r ms next) s = .next t ∧ Answered s t r 0x31 stOk (toBytes s.msCount 6) ∧ t.pstate r.partition = psStopped ∧
      t.bit (Reg.PART_START_AT_HI r.partition) 31 = false := by
  obtain ⟨hbs, -, -, -, hah, -, hhi⟩ := Reg.beat_places r.partition
  obtain ⟨-, harmed, -⟩ := exec_stop_acts ms next hs h hx
  have hexec := harmed hst
  unfold State.clearStart at hexec
  have hact := (Acting.start s r 0x31).wr (a := Reg.PART_START_AT_HI r.partition) (by unfold Reg.belowMbx; omega)
    (((begun s r 0x31).rd (Reg.PART_START_AT_HI r.partition)).setBit 31 false)
  have hcleared : ((begun s r 0x31).setBit (Reg.PART_START_AT_HI r.partition) 31 false).bit (Reg.PART_START_AT_HI r.partition) 31 = false :=
    State.bit_setBit_self _ _ false (by decide)
  have hact : Acting s ((begun s r 0x31).setBit (Reg.PART_START_AT_HI r.partition) 31 false) r 0x31 := hact
  generalize (begun s r 0x31).setBit (Reg.PART_START_AT_HI r.partition) 31 false = w at hexec hcleared hact
  have hact2 : Acting s ((w.setBit (Reg.PART_STOP_AT_HI r.partition) 31 false).setPstate r.partition psStopped) r 0x31 :=
    (hact.wr (by unfold Reg.belowMbx; omega) _).setPstate hp _
  have hstate := State.setPstate_pstate (w.setBit (Reg.PART_STOP_AT_HI r.partition) 31 false) r.partition (st := psStopped) (by decide)
  have hrd : ((w.setBit (Reg.PART_STOP_AT_HI r.partition) 31 false).setPstate r.partition psStopped).rd (Reg.PART_START_AT_HI r.partition) =
      w.rd (Reg.PART_START_AT_HI r.partition) := by
    rw [State.setPstate_rd, State.rd_setFld, if_neg (by omega), State.rd_setBit, if_neg (by omega)]
  obtain ⟨hans, -, -, hbelow⟩ := hact2.answers h stOk (toBytes s.msCount 6)
  exact ⟨_, hexec, hans, (State.fld_of_rd (hbelow _ (by unfold Reg.belowMbx; omega)) 0 3).trans hstate,
    (State.bit_of_rd ((hbelow _ (by unfold Reg.belowMbx; omega)).trans hrd) 31).trans hcleared⟩

/-! SET_PERIOD (R32, R53). -/

/-- A milestone two ahead lies ahead of the next one too. -/
theorem State.twoAhead_next {s : State} {n : Nat} (h : s.twoAhead n = true) : msAhead n ((s.msCount + 1) % 2 ^ 48) = true := by
  have hc : s.msCount < 2 ^ 48 := Nat.mod_lt _ (by decide)
  unfold State.twoAhead State.msDistance at h
  generalize s.msCount = c at h hc
  simp only [msAhead, Bool.and_eq_true, decide_eq_true_eq] at h ⊢
  omega

/-- What a function is owed shows in no register and in no mailbox. -/
theorem State.owe_rd (s : State) (r : Req) (period : Bool) (a : Nat) : (s.owe r period).rd a = s.rd a := rfl

theorem Acting.owe {s w : State} {r : Req} {op : Nat} (h : Acting s w r op) (period : Bool) : Acting s (w.owe r period) r op :=
  h.step rfl rfl fun _ _ => rfl

/-- A change of the period is armed. -/
theorem State.armPeriod_shown (s : State) (r : Req) (ms : BitVec 48) {units : Nat} (hu : units < 2 ^ 13) :
    let u := s.armPeriod r ms.toNat units
    u.fld Reg.TIME_MS_PERIOD_NEXT 0 13 = units ∧ u.rd2 Reg.TIME_MS_CHANGE_LO Reg.TIME_MS_CHANGE_HI = ms.toNat + 2 ^ 63 ∧
      u.rd Reg.TIME_MS_PERIOD = s.rd Reg.TIME_MS_PERIOD := by
  obtain ⟨hms, hlt⟩ := armedMs_lt ms
  have hrd (a : Nat) : (s.armPeriod r ms.toNat units).rd a = ((s.setFld Reg.TIME_MS_PERIOD_NEXT 0 13 units).wr2 Reg.TIME_MS_CHANGE_LO
      Reg.TIME_MS_CHANGE_HI (ms.toNat + 2 ^ 63)).rd a := by
    unfold State.armPeriod
    rw [State.owe_rd, hms]
  dsimp only
  generalize s.armPeriod r ms.toNat units = u at hrd
  generalize ms.toNat + 2 ^ 63 = n at hrd hlt
  refine ⟨?_, ?_, ?_⟩
  · rw [State.fld, hrd, State.rd_wr2, if_neg (by decide), if_neg (by decide)]
    exact (State.fld_setFld_self s _ units (by decide)).trans (Nat.mod_eq_of_lt hu)
  · rw [State.rd2, hrd, hrd]
    exact State.rd2_wr2 _ (by decide) hlt
  · rw [hrd, State.rd_wr2, if_neg (by decide), if_neg (by decide), State.rd_setFld, if_neg (by decide)]

/-- What follows the raises of a SET_PERIOD. -/
def State.periodGoesOn (s : State) (r : Req) (floors : List (Nat × Nat)) (ms units : Nat) (held : List (Nat × Nat)) :
    Host.Outcome State Fault Refusal :=
  if s.raised floors then (s.armPeriod r ms units).reply r stOk (periodResult ms) else s.waitRaises r ms (.period ms units held)

/-- A SET_PERIOD of PF0, two milestones ahead: its raises begin, and it is armed or waits. -/
theorem exec_setPeriod_begins {s : State} {r : Req} {ms : BitVec 48} (period : BitVec 16) (hs : Serves s) (h : Requested s r 0x32)
    (h0 : r.fn = 0) (h2 : s.twoAhead ms.toNat = true) :
    exec (.setPeriod r period ms) s = ((begun s r 0x32).startRaises (s.floorsAt (8 * max 63 (min 8000 period.toNat)))).periodGoesOn r
      (s.floorsAt (8 * max 63 (min 8000 period.toNat))) ms.toNat (max 63 (min 8000 period.toNat))
      (s.capped (s.floorsAt (8 * max 63 (min 8000 period.toNat)))) := by
  have htwo : (begun s r 0x32).twoAhead ms.toNat = true := h2
  show State.runCmd s r 0x32 _ _ _ _ = _
  rw [State.runCmd_acts h (by decide) hs _ _ _ (by simp [State.mayIssue, h0]) rfl]
  simp only [htwo, Bool.not_true, Bool.false_eq_true, if_false, State.floorsAt_begun, State.capped_begun, State.periodGoesOn]

/-- Where the floors are at hand a change of the period is armed and answered. -/
theorem State.periodGoesOn_arms {s w : State} {r : Req} {l held : List (Nat × Nat)} (ms : BitVec 48) {units : Nat} (hu : units < 2 ^ 13)
    (h : Requested s r 0x32) (hact : Acting s w r 0x32) (hraised : w.raised l = true) :
    ∃ t, w.periodGoesOn r l ms.toNat units held = .next t ∧ Answered s t r 0x32 stOk ([0, 0] ++ toBytes ms.toNat 6) ∧
      t.fld Reg.TIME_MS_PERIOD_NEXT 0 13 = units ∧ t.rd2 Reg.TIME_MS_CHANGE_LO Reg.TIME_MS_CHANGE_HI = ms.toNat + 2 ^ 63 ∧
      t.rd Reg.TIME_MS_PERIOD = w.rd Reg.TIME_MS_PERIOD := by
  obtain ⟨h1, h2, h3⟩ := w.armPeriod_shown r ms hu
  have hact2 : Acting s (w.armPeriod r ms.toNat units) r 0x32 := by
    unfold State.armPeriod
    exact ((hact.wr (by decide) _).wr2 (by decide) (by decide) _).owe true
  have hgo : w.periodGoesOn r l ms.toNat units held = (w.armPeriod r ms.toNat units).reply r stOk (periodResult ms.toNat) := if_pos hraised
  generalize w.armPeriod r ms.toNat units = v at h1 h2 h3 hact2 hgo
  obtain ⟨hans, -, -, hrd⟩ := hact2.answers h stOk (periodResult ms.toNat)
  refine ⟨_, hgo, hans, (State.fld_of_rd (hrd _ (by decide)) 0 13).trans h1, ?_, (hrd _ (by decide)).trans h3⟩
  rw [State.rd2, hrd _ (by decide), hrd _ (by decide)]
  exact h2

/-- Where they are not it waits. -/
theorem State.periodGoesOn_waits {s w : State} {r : Req} {l held : List (Nat × Nat)} {ms units : Nat} (hact : Acting s w r 0x32)
    (hwait : w.raised l = false) (hms : msAhead ms ((w.msCount + 1) % 2 ^ 48) = true) :
    ∃ t, w.periodGoesOn r l ms units held = .next t ∧ Waits s t r (.period ms units held) ∧
      t.rd Reg.TIME_MS_PERIOD_NEXT = w.rd Reg.TIME_MS_PERIOD_NEXT :=
  ⟨_, (if_neg (by rw [hwait]; exact Bool.false_ne_true)).trans (State.waitRaises_waits hms r _), hact.waits _, rfl⟩

/-! ROUTE_EPOCH (R265, R268). -/

/-- An epoch that is armed writes three registers, and keeps the mailboxes. -/
theorem State.armEpoch_frame (s : State) (e n : Nat) (rejoin : Bool) :
    (∀ a, (s.armEpoch e n rejoin).rd a = ((s.wr2 Reg.TPL_EPOCH_AT_LO Reg.TPL_EPOCH_AT_HI n).wr Reg.TPL_EPOCH_NEXT
      (BitVec.ofNat 32 (e + 2 ^ 31))).rd a) ∧ (s.armEpoch e n rejoin).rejoin = rejoin ∧ (s.armEpoch e n rejoin).mbx = s.mbx ∧
      (s.armEpoch e n rejoin).fwLost = s.fwLost := by
  have hregs : (s.armEpoch e n rejoin).regs = ((s.wr2 Reg.TPL_EPOCH_AT_LO Reg.TPL_EPOCH_AT_HI n).wr Reg.TPL_EPOCH_NEXT
      (BitVec.ofNat 32 (e + 2 ^ 31))).regs := rfl
  exact ⟨fun a => by rw [State.rd, hregs]; rfl, rfl, rfl, rfl⟩

/-- An epoch that is armed, for a function that is owed a notice of it. -/
theorem State.armEpoch_shown (s : State) (r : Req) (e : BitVec 16) (ms : BitVec 48) (rejoin : Bool) :
    let u := (s.armEpoch e.toNat ms.toNat rejoin).owe r false
    u.rejoin = rejoin ∧ u.rd Reg.TPL_EPOCH_NEXT = BitVec.ofNat 32 (e.toNat + 2 ^ 31) ∧
      u.rd2 Reg.TPL_EPOCH_AT_LO Reg.TPL_EPOCH_AT_HI = ms.toNat ∧ u.rd Reg.TPL_EPOCH = s.rd Reg.TPL_EPOCH := by
  have hlt : ms.toNat < 2 ^ 64 := Nat.lt_trans ms.isLt (by decide)
  obtain ⟨hrd, hrejoin, -, -⟩ := s.armEpoch_frame e.toNat ms.toNat rejoin
  generalize s.armEpoch e.toNat ms.toNat rejoin = u at hrd hrejoin
  generalize BitVec.ofNat 32 (e.toNat + 2 ^ 31) = v at hrd
  generalize ms.toNat = n at hrd hlt
  have hrd (a : Nat) := (u.owe_rd r false a).trans (hrd a)
  refine ⟨hrejoin, by rw [hrd, State.rd_wr, if_pos rfl], ?_, ?_⟩
  · rw [State.rd2, hrd, hrd, State.rd_wr, if_neg (by decide), State.rd_wr, if_neg (by decide)]
    exact State.rd2_wr2 s (by decide) hlt
  · rw [hrd, State.rd_wr, if_neg (by decide), State.rd_wr2, if_neg (by decide), if_neg (by decide)]

/-- A request that arms an epoch is answered. -/
theorem Acting.armEpoch {s : State} {r : Req} (h : Requested s r 0x42) (e : BitVec 16) (ms : BitVec 48) (rejoin : Bool) :
    ∃ t, (((begun s r 0x42).armEpoch e.toNat ms.toNat rejoin).owe r false).reply r stOk (toBytes e.toNat 2) = .next t ∧
      Answered s t r 0x42 stOk (toBytes e.toNat 2) ∧ t.rejoin = rejoin ∧ t.rd Reg.TPL_EPOCH_NEXT = BitVec.ofNat 32 (e.toNat + 2 ^ 31) ∧
      t.rd2 Reg.TPL_EPOCH_AT_LO Reg.TPL_EPOCH_AT_HI = ms.toNat ∧ t.rd Reg.TPL_EPOCH = s.rd Reg.TPL_EPOCH := by
  obtain ⟨h1, h2, h3, h4⟩ := (begun s r 0x42).armEpoch_shown r e ms rejoin
  have hact : Acting s (((begun s r 0x42).armEpoch e.toNat ms.toNat rejoin).owe r false) r 0x42 := by
    have hregs := ((Acting.start s r 0x42).wr2 (lo := Reg.TPL_EPOCH_AT_LO) (hi := Reg.TPL_EPOCH_AT_HI) (by decide) (by decide) ms.toNat).wr
      (a := Reg.TPL_EPOCH_NEXT) (by decide) (BitVec.ofNat 32 (e.toNat + 2 ^ 31))
    obtain ⟨hrd, -, hmbx, hlost⟩ := (begun s r 0x42).armEpoch_frame e.toNat ms.toNat rejoin
    exact Acting.owe (hregs.step hmbx hlost fun a _ => hrd a) false
  generalize ((begun s r 0x42).armEpoch e.toNat ms.toNat rejoin).owe r false = w at h1 h2 h3 h4 hact
  obtain ⟨hans, hmbx, -, hrd⟩ := hact.answers h stOk (toBytes e.toNat 2)
  refine ⟨_, rfl, hans, by rw [hmbx]; exact h1, (hrd _ (by decide)).trans h2, ?_, (hrd _ (by decide)).trans h4⟩
  rw [State.rd2, hrd _ (by decide), hrd _ (by decide)]
  exact h3

/-- A ROUTE_EPOCH of PF0 with a greater epoch, two milestones ahead. -/
theorem exec_routeEpoch_arms {s : State} {r : Req} {e : BitVec 16} {ms : BitVec 48} (hr : s.ready = true) (h : Requested s r 0x42) (h0 : r.fn = 0)
    (he : s.fld Reg.TPL_EPOCH 0 16 < e.toNat) (h2 : s.twoAhead ms.toNat = true) :
    exec (.routeEpoch r e ms) s = (((begun s r 0x42).armEpoch e.toNat ms.toNat false).owe r false).reply r stOk (toBytes e.toNat 2) := by
  have hnot : ¬ (e.toNat ≤ (begun s r 0x42).fld Reg.TPL_EPOCH 0 16 ∨ (!((begun s r 0x42).twoAhead ms.toNat)) = true) := by
    have htwo : (begun s r 0x42).twoAhead ms.toNat = true := h2
    have hfld : (begun s r 0x42).fld Reg.TPL_EPOCH 0 16 = s.fld Reg.TPL_EPOCH 0 16 := rfl
    rw [htwo, hfld, Bool.not_true]
    rintro (h | h)
    · omega
    · cases h
  show State.runCmd s r 0x42 _ _ _ _ = _
  rw [State.runCmd_taken h (by decide), if_neg (by rw [hr]; exact Bool.false_ne_true), if_neg (by simp [State.mayIssue, h0]), if_neg (by simp)]
  exact if_neg hnot

/-- A ROUTE_EPOCH with rejoin of PF0, on a fenced device whose partitions are STOPPED and reset. -/
theorem exec_routeEpochRejoin_arms {s : State} {r : Req} {e : BitVec 16} {ms : BitVec 48} (hr : s.ready = true) (h : Requested s r 0x42)
    (h0 : r.fn = 0) (hf : s.fenced = true) (hp : ∀ p ∈ s.parts, s.pstate p.1 = psStopped ∧ p.2.fenceReset = true)
    (he : s.fld Reg.TPL_FENCE 16 16 ≤ e.toNat) (h2 : s.twoAhead ms.toNat = true) :
    exec (.routeEpochRejoin r e ms) s =
      (((begun s r 0x42).armEpoch e.toNat ms.toNat true).owe r false).reply r stOk (toBytes e.toNat 2) := by
  have hparts : (begun s r 0x42).parts.any (fun p => !((begun s r 0x42).isStopped p.1) || !p.2.fenceReset) = false := by
    refine List.any_eq_false.mpr fun x hx => ?_
    obtain ⟨hst, hreset⟩ := hp x hx
    have hstopped : (begun s r 0x42).isStopped x.1 = true := by
      show (s.pstate x.1 == psStopped) = true
      rw [hst]; rfl
    rw [hstopped, hreset]
    exact Bool.false_ne_true
  have htwo : (begun s r 0x42).twoAhead ms.toNat = true := h2
  have hfenced : (begun s r 0x42).fenced = true := hf
  have hfld : decide (e.toNat < (begun s r 0x42).fld Reg.TPL_FENCE 16 16) = false := decide_eq_false (Nat.not_lt.mpr he)
  show State.runCmd s r 0x42 _ _ _ _ = _
  rw [State.runCmd_taken h (by decide), if_neg (by rw [hr]; exact Bool.false_ne_true), if_neg (by simp [State.mayIssue, h0]), if_neg (by simp)]
  refine if_neg ?_
  rw [hfenced, hparts, hfld, htwo]
  exact Bool.false_ne_true

/-! All of them. -/

/-- Settles O15: each command by its checks, its raises and what it arms. -/
theorem milestoneCommandsArm : Obligations.MilestoneCommandsArm := by
  intro s r ms
  refine ⟨fun x step hs h hx hp hst hms hstop hfar hw hr hph htrip hlost hue hoff => ?_, fun x hs h hx hp hrun hms hno => ?_,
    fun next hs h hx hp hst => exec_stop_clears ms next hs h hx hp hst, fun next hs h hx hst => ?_, fun period hs h h0 h2 => ?_,
    fun e hr h h0 he h2 => ?_, fun e hr h h0 hf hp he h2 => ?_⟩
  · obtain ⟨hact, hraised, hkept⟩ := Acting.startRaises s r 0x30 (s.floorsFor_lt r.partition)
    have hexec := exec_start_begins step hs h hx hst hms hstop hfar hw hr hph htrip hlost hue hoff
    rw [hexec]
    refine ⟨fun hrung hall => State.startGoesOn_arms ms step h hact hp hrung (hraised.trans hall), fun hwait hnext => ?_⟩
    rw [← hraised] at hwait
    obtain ⟨t, ht, hwaits, hpst⟩ := State.startGoesOn_waits (ms := ms.toNat) step.toNat hact hwait
      (held := s.capped (s.floorsFor r.partition)) (by rw [State.msCount_of_rd fun a ha => hkept a (.inl ha)]; exact hnext)
    have hreg : Reg.PART_BEAT_STATUS r.partition = 0x73008000 + r.partition * 0x100 + 4 := rfl
    exact ⟨t, ht, hwaits, hpst.trans ((State.fld_of_rd (hkept _ (.inr (by omega))) 0 3).trans hst)⟩
  · exact exec_stop_arms hs h hx hp hrun hms hno
  · obtain ⟨hstopped, -, -⟩ := exec_stop_acts ms next hs h hx
    obtain ⟨hans, honly, hregs⟩ := State.complete_answers (st := stOk) (res := toBytes s.msCount 6) h
    exact ⟨_, hstopped hst, hans, honly, hregs⟩
  · have hexec := exec_setPeriod_begins (ms := ms) period hs h h0 h2
    have hu : max 63 (min 8000 period.toNat) < 2 ^ 13 := by omega
    obtain ⟨hact, hraised, hkept⟩ := Acting.startRaises s r 0x32 (s.floorsAt_lt (8 * max 63 (min 8000 period.toNat)))
    dsimp only
    rw [hexec]
    refine ⟨fun hall => ?_, fun hwait => ?_⟩
    · obtain ⟨t, ht, hans, h1, h2, h3⟩ := State.periodGoesOn_arms (held := s.capped (s.floorsAt (8 * max 63 (min 8000 period.toNat)))) ms hu h
        hact (hraised.trans hall)
      exact ⟨t, ht, hans, h1, h2, h3.trans (hkept _ (.inl (by decide)))⟩
    · obtain ⟨t, ht, hwaits, hnext⟩ := State.periodGoesOn_waits (ms := ms.toNat) (units := max 63 (min 8000 period.toNat)) hact
        (held := s.capped (s.floorsAt (8 * max 63 (min 8000 period.toNat)))) (hraised.trans hwait)
        (by rw [State.msCount_of_rd fun a ha => hkept a (.inl ha)]; exact State.twoAhead_next h2)
      exact ⟨t, ht, hwaits, hnext.trans (hkept _ (.inl (by decide)))⟩
  · obtain ⟨t, ht, hans, hrejoin, hnext, hat, hnow⟩ := Acting.armEpoch h e ms false
    exact ⟨t, (exec_routeEpoch_arms hr h h0 he h2).trans ht, hans, hrejoin, hnext, hat, hnow⟩
  · obtain ⟨t, ht, hans, hrejoin, hnext, hat, -⟩ := Acting.armEpoch h e ms true
    exact ⟨t, (exec_routeEpochRejoin_arms hr h h0 hf hp he h2).trans ht, hans, hrejoin, hnext, hat⟩

end Sys2Proof.Machine
end

section
/-! A counterexample to what a channel's data item does when it is consumed: in a tile that makes handshakes the signal of the filled
semaphore is one of the signals of the next handshake (R155), and no count changes before. -/
namespace Sys2Proof.Machine
open Sys2Proof.Safety

/-- The partition of column 0, in an open beat. -/
def feedPart : Part := { newPart ⟨0, 0, 0, 0, 0, 0, 0, 0, 0, 0⟩ with beatOpen := true }

/-- A tile whose inbound context holds one row that no item has accounted for. -/
def feedTile : Tile := { Tile.reset with se := { SeSt.reset with ctx := [(0, { SeCtx.reset with early := 1 })] } }

/-- A channel that holds one data item of one row. -/
def feedChan : Chan := { Chan.reset with items := [⟨false, 0, 1, false⟩] }

/-- The partition runs; channel 0 is its beat input, bound, open and owned by it, and leads to context 0 of tile 0, whose filled semaphore
has room. -/
def feedState : State := { State.reset with
  regs := [(Reg.CHN_CTRL 0, 1), (Reg.CHN_STATUS 0, 1), (Reg.PART_BEAT_IN 0 0, 1), (Reg.PART_BEAT_STATUS 0, 2), (Reg.SEM_CFG 0 0, 1)]
  parts := [(0, feedPart)]
  tiles := [(0, feedTile)]
  chans := [(0, feedChan)] }

/-- Once the item is consumed, the count of the filled semaphore is what it was. -/
theorem feedState_semCount : (feedState.chanResolve 0).semCount 0 0 = 0 := by decide +kernel

/-- Refutes O55: the rows of the item at the head of channel 0 are all in the ring of tile 0, which makes handshakes; its filled semaphore is
signalled at the next handshake (R155), so the item's consumption itself does not raise the count. -/
theorem not_channelsCarryRows : ¬ Obligations.ChannelsCarryRows := by
  intro h
  obtain ⟨-, -, hchan, -⟩ := h feedState
  obtain ⟨-, -, -, hconsume⟩ := hchan 0 0 0 (by decide)
  obtain ⟨hdata, -⟩ := hconsume feedPart ⟨false, 0, 1, false⟩ [] rfl (by decide +kernel) rfl (by decide +kernel) (by decide +kernel)
    (by decide +kernel) (by decide +kernel) rfl rfl
  obtain ⟨u, hu, -, -, -, -, hsignal⟩ := hdata rfl
  obtain ⟨hcount, -⟩ := hsignal (by decide +kernel) (by decide +kernel) (by decide +kernel)
  obtain rfl : feedState.chanResolve 0 = u := Host.Outcome.next.inj hu
  exact absurd (feedState_semCount.symm.trans hcount) (by decide +kernel)

end Sys2Proof.Machine
end

section
/-! Itinerary entries and their words (R62, R72, R74, R118, R127, R128): decoding undoes encoding. -/
namespace Sys2Proof
open Sys2Proof.Safety

/-! Fields and bits of a concatenation, whatever sum its width is written as. -/

/-- A field above the lower part. -/
@[simp] theorem extract_append_high {v w lo n : Nat} (a : BitVec v) (b : BitVec w) (h : w ≤ lo) :
    BitVec.extractLsb' lo n (HAppend.hAppend (γ := no_index (BitVec (v + w))) a b) = a.extractLsb' (lo - w) n :=
  BitVec.extractLsb'_append_eq_of_le h

/-- A field within the lower part. -/
@[simp] theorem extract_append_low {v w lo n : Nat} (a : BitVec v) (b : BitVec w) (h : lo + n ≤ w) :
    BitVec.extractLsb' lo n (HAppend.hAppend (γ := no_index (BitVec (v + w))) a b) = b.extractLsb' lo n :=
  BitVec.extractLsb'_append_eq_of_add_le h

/-- A flag above the lower part. -/
@[simp] theorem flag_append_high {v w i : Nat} (a : BitVec v) (b : BitVec w) (h : w ≤ i) :
    flagAt (HAppend.hAppend (γ := no_index (BitVec (v + w))) a b) i = flagAt a (i - w) :=
  BitVec.getLsbD_append.trans (if_neg (Nat.not_lt.mpr h))

/-- A flag within the lower part. -/
@[simp] theorem flag_append_low {v w i : Nat} (a : BitVec v) (b : BitVec w) (h : i < w) :
    flagAt (HAppend.hAppend (γ := no_index (BitVec (v + w))) a b) i = flagAt b i := BitVec.getLsbD_append.trans (if_pos h)

/-- A flag is a part of one bit. -/
@[simp] theorem flag_ofBool (b : Bool) : flagAt (BitVec.ofBool b) 0 = b := by cases b <;> rfl

@[simp] theorem flag_one : flagAt 1#1 0 = true := rfl

@[simp] theorem flag_zero (w i : Nat) : flagAt 0#w i = false := BitVec.getLsbD_zero

/-! The fields of an entry (R127). -/

variable (e : BitVec 4) (op : BitVec 8) (rep : BitVec 10) (x : BitVec 106)

@[simp] theorem entryWord_engine : (entryWord e op rep x).extractLsb' 124 4 = e := by
  simp (disch := decide) only [entryWord, extract_append_high, Nat.reduceSub, BitVec.extractLsb'_eq_self]

@[simp] theorem entryWord_opcode : (entryWord e op rep x).extractLsb' 116 8 = op := by
  simp (disch := decide) only [entryWord, extract_append_high, extract_append_low, Nat.reduceSub, BitVec.extractLsb'_eq_self]

@[simp] theorem entryWord_repeat : (entryWord e op rep x).extractLsb' 106 10 = rep := by
  simp (disch := decide) only [entryWord, extract_append_high, extract_append_low, Nat.reduceSub, BitVec.extractLsb'_eq_self]

/-- A field of the operands. -/
@[simp] theorem entryWord_operand {lo n : Nat} (h : lo + n ≤ 106) : (entryWord e op rep x).extractLsb' lo n = x.extractLsb' lo n :=
  extract_append_low (e ++ op ++ rep) x h

/-- A flag among the operands. -/
@[simp] theorem entryWord_flag {i : Nat} (h : i < 106) : flagAt (entryWord e op rep x) i = flagAt x i := flag_append_low (e ++ op ++ rep) x h

/-- An entry is refused where one of its reserved bits is set. -/
@[simp] theorem reserved_entryWord {n : Nat} (h : n ≤ 106) (i : Instr) :
    reserved (entryWord e op rep x) n i = if x.extractLsb' 0 n = 0 then some i else none := by
  rw [reserved, entryWord_operand e op rep x (by omega)]

/-! The operands of each unit (R62, R72, R74). -/

@[simp] theorem decodeMma_encodeMma (f : MmaFields) : decodeMma (entryWord e op rep (encodeMma f)) = f := by
  simp [decodeMma, encodeMma]

@[simp] theorem decodeDrain_encodeDrain (f : DrainFields) : decodeDrain (entryWord e op rep (encodeDrain f)) = f := by
  simp [decodeDrain, encodeDrain]

@[simp] theorem decodeMvm_encodeMvm (f : MvmFields) : decodeMvm (entryWord e op rep (encodeMvm f)) = f := by
  simp [decodeMvm, encodeMvm]

@[simp] theorem decodeVload_encodeVload (f : VloadFields) : decodeVload (entryWord e op rep (encodeVload f)) = f := by
  simp [decodeVload, encodeVload]

@[simp] theorem decodeMdrain_encodeMdrain (f : MdrainFields) : decodeMdrain (entryWord e op rep (encodeMdrain f)) = f := by
  simp [decodeMdrain, encodeMdrain]

@[simp] theorem decodeVeu_encodeVeu (f : VeuFields) : decodeVeu (entryWord e op rep (encodeVeu f)) = f := by
  simp [decodeVeu, encodeVeu]

/-- The reserved bits of each unit's operands are 0. -/
@[simp] theorem encode_reserved :
    (∀ f, (encodeMma f).extractLsb' 0 5 = 0) ∧ (∀ f, (encodeDrain f).extractLsb' 0 5 = 0) ∧ (∀ f, (encodeMvm f).extractLsb' 0 20 = 0) ∧
    (∀ f, (encodeVload f).extractLsb' 0 20 = 0) ∧ (∀ f, (encodeMdrain f).extractLsb' 0 6 = 0) ∧
    ∀ f, (encodeVeu f).extractLsb' 0 38 = 0 := by
  simp [encodeMma, encodeDrain, encodeMvm, encodeVload, encodeMdrain, encodeVeu]

/-! The units (R127). -/

@[simp] theorem decodeEntry_array (t : Nat) (arr : BitVec 1) :
    decodeEntry t (entryWord (arr.setWidth 4) op rep x) = decodeArray t (entryWord (arr.setWidth 4) op rep x) arr := by
  rw [decodeEntry, entryWord_engine]
  obtain rfl | rfl : arr = 0 ∨ arr = 1 := by revert arr; decide
  · rfl
  · rfl

@[simp] theorem decodeEntry_mvu (t : Nat) : decodeEntry t (entryWord 2#4 op rep x) = decodeMvu t (entryWord 2#4 op rep x) := by
  rw [decodeEntry, entryWord_engine]; rfl

@[simp] theorem decodeEntry_vector (t : Nat) : decodeEntry t (entryWord 3#4 op rep x) = decodeVector t (entryWord 3#4 op rep x) := by
  rw [decodeEntry, entryWord_engine]; rfl

@[simp] theorem decodeEntry_stream (t : Nat) : decodeEntry t (entryWord 4#4 op rep x) = decodeStream t (entryWord 4#4 op rep x) := by
  rw [decodeEntry, entryWord_engine]; rfl

@[simp] theorem decodeEntry_control (t : Nat) (h : 4 < e.toNat) :
    decodeEntry t (entryWord e op rep x) = decodeControl t e.toNat (entryWord e op rep x) := by
  rw [decodeEntry, entryWord_engine]
  split
  case h_6 => rfl
  all_goals omega

/-- Settles O26: each unit's entries by its fields. -/
theorem entryDecodeOfEncode : Obligations.EntryDecodeOfEncode := by
  refine fun i => ⟨by cases i <;> rfl, fun w h => ?_⟩
  unfold encodeEntry at h
  split at h
  all_goals cases h
  · next t arr rep f => exact ⟨t, by simp [decodeArray, bare]⟩
  iterate 2
    next t arr f => exact ⟨t, by simp [decodeArray, bare]⟩
  · next t f soft => exact ⟨t, by simp [decodeMvu, bare]⟩
  iterate 2
    next t f => exact ⟨t, by simp [decodeMvu, bare]⟩
  · next t rep f soft => exact ⟨t, by simp [decodeVector, bare]⟩
  iterate 21
    next t rep f => exact ⟨t, by simp [decodeVector, bare]⟩
  iterate 4
    next t f => exact ⟨t, by simp [decodeStream, bare]⟩
  iterate 2
    next t ctx rows => exact ⟨t, by simp [decodeStream, bare]⟩
  iterate 2
    next t f => exact ⟨t, by simp [decodeControl, bare]⟩
  · next t sem count => exact ⟨t, by simp [decodeControl, bare]⟩
  · next t sem count target => exact ⟨t, by simp [decodeControl, bare]⟩
  iterate 2
    next t sem count => exact ⟨t, by simp [decodeControl, bare]⟩
  · next t => exact ⟨t, by simp [decodeControl, bare]⟩
  · next t rep => exact ⟨t, by simp [decodeControl, bare]⟩
  · next t rep region => exact ⟨t, by simp [decodeControl, bare]⟩

end Sys2Proof
end

section
/-! Operand values without an effect (R62, R72, R74, R118): the entry stops under its rule's number, in every state. -/
namespace Sys2Proof.Machine
open Sys2Proof.Safety

theorem exec_mma_illegal (s : State) (t : Nat) (a : BitVec 1) (rep : BitVec 10) {f : MmaFields}
    (h : (f.legal && f.inStore rep.toNat) = false) : exec (.mma t a rep f) s = .fault (.unpredictableInPartition 62) :=
  if_neg (Bool.eq_false_iff.mp h)

/-- What R62, R64 and R101 leave out of an MMA's operand values. -/
theorem mmaIllegal_of (f : MmaFields) (h : f.scale = 3 ∨ f.passes = 0 ∨ f.outFmt = 5 ∨ f.outFmt = 6 ∨ f.fmtA = 6 ∨ f.fmtA = 7 ∨
    (f.fmtA = 0 ∧ f.fmtB = 3) ∨ (f.fmtA = 5 ∧ f.scale = 0) ∨ (f.fmtA = 0 ∧ f.passes ≠ 1)) : f.legal = false := by
  rcases h with h | h | h | h | h | h | ⟨h, h'⟩ | ⟨h, h'⟩ | ⟨h, h'⟩
  iterate 6
    · simp [MmaFields.legal, h]
  iterate 2
    · simp +contextual [MmaFields.legal, h, h']
  · have hpass : ¬ f.passes = 1#2 := h'
    simp +contextual [MmaFields.legal, h, hpass]

theorem exec_drain_illegal (s : State) (t : Nat) (a : BitVec 1) {f : DrainFields}
    (h : f.outFmt = 5 ∨ f.outFmt = 6 ∨ 8192 < f.cRow.toNat + drainRows f.outFmt) :
    exec (.drain t a f) s = .fault (.unpredictableInPartition 62) := by
  refine if_neg fun hlegal => ?_
  simp only [Bool.and_eq_true, bne_iff_ne, decide_eq_true_eq] at hlegal
  obtain ⟨⟨h5, h6⟩, hrows⟩ := hlegal
  rcases h with h | h | h
  · exact h5 h
  · exact h6 h
  · omega

theorem exec_mvm_illegal (s : State) (t : Nat) {f : MvmFields} (soft : List SoftErr) (h : f.legal = false) :
    exec (.mvm t f soft) s = .fault (.unpredictableInPartition 72) := if_neg (Bool.eq_false_iff.mp h)

/-- What R71 and R72 leave out of an MVM's operand values. -/
theorem mvmIllegal_of (f : MvmFields)
    (h : f.wFmt = 5 ∨ f.vFmt = 2 ∨ f.vFmt = 4 ∨ f.scale = 3 ∨ (f.batch ≠ 0 ∧ 128 ≤ f.vOff.toNat)) : f.legal = false := by
  rcases h with h | h | h | h | ⟨h, h'⟩
  · simp [MvmFields.legal, h]
  · simp [MvmFields.legal, h]
  · simp [MvmFields.legal, h]
  · simp [MvmFields.legal, h]
  · have hbatch : f.nb ≠ 1 := by
      have : f.batch.toNat ≠ 0 := fun h0 => h (BitVec.eq_of_toNat_eq h0)
      unfold MvmFields.nb
      omega
    have hoff : ¬ f.vOff.toNat < 128 := by omega
    simp [MvmFields.legal, hbatch, hoff]

theorem exec_vload_illegal (s : State) (t : Nat) {f : VloadFields}
    (h : f.scale = 3 ∨ 16384 < f.vOff.toNat * 32 + (f.rows.toNat + 1) * 1024) :
    exec (.vload t f) s = .fault (.unpredictableInPartition 72) := by
  refine if_neg fun hlegal => ?_
  simp only [VloadFields.legal, Bool.and_eq_true, bne_iff_ne, decide_eq_true_eq] at hlegal
  obtain ⟨⟨hscale, hfits⟩, -⟩ := hlegal
  rcases h with h | h
  · exact hscale h
  · omega

theorem exec_mdrain_illegal (s : State) (t : Nat) {f : MdrainFields}
    (h : 1024 < f.accBase.toNat + (f.rows.toNat + 1) * (if f.bf16 then 512 else 256)) :
    exec (.mdrain t f) s = .fault (.unpredictableInPartition 72) := by
  refine if_neg fun hlegal => ?_
  obtain ⟨hfits, -⟩ := Bool.and_eq_true_iff.mp hlegal
  exact absurd (of_decide_eq_true hfits) (Nat.not_le.mpr h)

/-- A computing entry of the VEU is the entry of its opcode. -/
theorem exec_veuOp {t : Nat} {rep : BitVec 10} {f : VeuFields} {op : Nat} {c : Instr} (h : (op, c) ∈ veuOps t rep f) (s : State) :
    exec c s = veuEntry op t rep.toNat f s ∧ op ∈ List.range' 3 20 := by
  simp only [veuOps, List.mem_cons, List.not_mem_nil, or_false, Prod.mk.injEq] at h
  rcases h with ⟨rfl, rfl⟩ | ⟨rfl, rfl⟩ | ⟨rfl, rfl⟩ | ⟨rfl, rfl⟩ | ⟨rfl, rfl⟩ | ⟨rfl, rfl⟩ | ⟨rfl, rfl⟩ | ⟨rfl, rfl⟩ | ⟨rfl, rfl⟩ | ⟨rfl, rfl⟩ |
    ⟨rfl, rfl⟩ | ⟨rfl, rfl⟩ | ⟨rfl, rfl⟩ | ⟨rfl, rfl⟩ | ⟨rfl, rfl⟩ | ⟨rfl, rfl⟩ | ⟨rfl, rfl⟩ | ⟨rfl, rfl⟩ | ⟨rfl, rfl⟩ | ⟨rfl, rfl⟩
  all_goals exact ⟨rfl, by decide⟩

/-- What R74 leaves out of a computing entry's element formats. -/
theorem veuLegal_format {op : Nat} {f : VeuFields} (h : veuLegal op f = true) :
    if op = 0x14 ∨ op = 0x15 then f.fmt.toNat ≤ 4 ∧ f.mode.toNat ≤ 1 else f.fmt.toNat ≤ 2 := by
  unfold veuLegal veQnt veDqnt veCvt veCmp at h
  dsimp only at h
  split_ifs at h ⊢ <;> simp at h ⊢ <;> omega

theorem exec_veuOp_illegal (s : State) {t : Nat} {rep : BitVec 10} {f : VeuFields} {op : Nat} {c : Instr} (h : (op, c) ∈ veuOps t rep f)
    (hf : if op = 0x14 ∨ op = 0x15 then 4 < f.fmt.toNat ∨ 1 < f.mode.toNat else 2 < f.fmt.toNat) :
    exec c s = .fault (.unpredictableInPartition 74) := by
  rw [(exec_veuOp h s).1]
  refine if_neg fun hlegal => ?_
  have hformat := veuLegal_format (Bool.and_eq_true_iff.mp hlegal).1
  split_ifs at hf hformat <;> omega

/-- Settles O36: one lemma for each unit. -/
theorem impossibleOperandsStop : Obligations.ImpossibleOperandsStop := fun s t =>
  ⟨fun a rep _ h => exec_mma_illegal s t a rep h, fun f h => mmaIllegal_of f h, fun a _ h => exec_drain_illegal s t a h,
    fun _ soft h => exec_mvm_illegal s t soft h, fun f h => mvmIllegal_of f h, fun _ h => exec_vload_illegal s t h,
    fun _ h => exec_mdrain_illegal s t h, fun _ _ _ _ h hf => exec_veuOp_illegal s h hf, fun _ h => if_pos h⟩

end Sys2Proof.Machine
end

section
/-! What the operations of the VEU put into each element (R74, R75). -/
namespace Sys2Proof.Machine
open Sys2Proof.Safety

/-! Elements of a row. -/

/-- The number that elements in base `B` spell, the first one lowest. -/
def packNat (B : Nat) (l : List Nat) : Nat := l.foldr (fun x acc => x % B + B * acc) 0

theorem packNat_digit {B : Nat} (hB : 0 < B) (l : List Nat) (i : Nat) : packNat B l / B ^ i % B = l.getD i 0 % B := by
  induction l generalizing i with
  | nil => simp [packNat]
  | cons x r ih =>
    have hcons : packNat B (x :: r) = x % B + B * packNat B r := rfl
    rw [hcons]
    cases i with
    | zero => simp [Nat.add_mul_mod_self_left]
    | succ i =>
      rw [Nat.pow_succ', ← Nat.div_div_eq_div_mul, Nat.add_mul_div_left _ _ hB, Nat.div_eq_of_lt (Nat.mod_lt _ hB), Nat.zero_add, ih]
      rfl

/-- A field of the low bits of a number. -/
theorem mod_pow_field {K a b : Nat} (h : a + b ≤ K) (x : Nat) : x % 2 ^ K / 2 ^ a % 2 ^ b = x / 2 ^ a % 2 ^ b := by
  obtain ⟨c, rfl⟩ := Nat.exists_eq_add_of_le h
  rw [Nat.add_assoc, Nat.pow_add, Nat.mod_mul_right_div_self, Nat.pow_add, Nat.mod_mul_right_mod]

@[simp] theorem Row.length_elems (r : Row) (w n : Nat) : (Row.elems r w n).length = n := by simp [Row.elems]

theorem Row.getD_elems (r : Row) {w n i : Nat} (h : i < n) : (Row.elems r w n).getD i 0 = r.toNat / 2 ^ (8 * w * i) % 2 ^ (8 * w) := by
  simp [Row.elems, h, Nat.shiftRight_eq_div_pow]

/-- An element of a row that is packed from a list. -/
theorem Row.getD_elems_packRow (l : List Nat) {w n i : Nat} (hi : i < n) (hw : 8 * w * n ≤ 8192) :
    (Row.elems (packRow w l) w n).getD i 0 = l.getD i 0 % 2 ^ (8 * w) := by
  have hfits : 8 * w * i + 8 * w ≤ 8192 := calc
    8 * w * i + 8 * w = 8 * w * (i + 1) := by ring
    _ ≤ 8 * w * n := Nat.mul_le_mul_left _ hi
    _ ≤ 8192 := hw
  have hrow : (packRow w l).toNat = packNat (2 ^ (8 * w)) l % 2 ^ 8192 := BitVec.toNat_ofNat _ _
  rw [Row.getD_elems _ hi, hrow, mod_pow_field hfits, Nat.pow_mul 2 (8 * w) i, packNat_digit (by positivity)]

/-! The registers that an operation writes (R74). -/

/-- What an operation comes to that puts one result into each element of `vd`. -/
def veuFull (f : VeuFields) (l : List FRes) : List (Nat × Row) × Nat :=
  ([(f.vd.toNat, packRow (veuW f.fmt.toNat) (l.map FRes.code))], (joinRes l).2)

/-- The elements of a register. -/
def veuElems (f : VeuFields) (v : SMap Row) (r : BitVec 4) : List Nat :=
  Row.elems (SMap.get v 0 r.toNat) (veuW f.fmt.toNat) (veuN f.fmt.toNat)

/-- Element `i` of the register that an operation writes first. -/
def veuElem (f : VeuFields) (r : List (Nat × Row) × Nat) (i : Nat) : Nat :=
  (r.1.map (fun p => (Row.elems p.2 (veuW f.fmt.toNat) (veuN f.fmt.toNat)).getD i 0)).getD 0 0

theorem veuResult_add (f : VeuFields) (v : SMap Row) : let F := veuFmt f.fmt.toNat
    veuResult veAdd f v = veuFull f (((veuElems f v f.va).zip (veuElems f v f.vb)).map (fun p => F.addV (F.decode p.1) (F.decode p.2))) := rfl

theorem veuResult_mul (f : VeuFields) (v : SMap Row) : let F := veuFmt f.fmt.toNat
    veuResult veMul f v = veuFull f (((veuElems f v f.va).zip (veuElems f v f.vb)).map (fun p => F.mulV (F.decode p.1) (F.decode p.2))) := rfl

theorem veuResult_fma (f : VeuFields) (v : SMap Row) : let F := veuFmt f.fmt.toNat
    veuResult veFma f v = veuFull f ((((veuElems f v f.va).zip (veuElems f v f.vb)).zip (veuElems f v f.vc)).map (fun p =>
      F.fmaV (F.decode p.1.1) (F.decode p.1.2) (F.decode p.2))) := rfl

theorem veuResult_cmp (f : VeuFields) (v : SMap Row) : let F := veuFmt f.fmt.toNat
    veuResult veCmp f v = veuFull f (((veuElems f v f.va).zip (veuElems f v f.vb)).map (fun p =>
      plainRes (if veuCmp F f.mode.toNat p.1 p.2 then F.bias * 2 ^ F.mb else 0))) := rfl

theorem veuResult_sel (f : VeuFields) (v : SMap Row) : let F := veuFmt f.fmt.toNat
    veuResult veSel f v = veuFull f ((((veuElems f v f.va).zip (veuElems f v f.vb)).zip (veuElems f v f.vc)).map (fun p =>
      plainRes (if (F.decode p.2).isZero then p.1.2 else p.1.1))) := rfl

theorem veuResult_bcast (f : VeuFields) (v : SMap Row) : veuResult veBcast f v =
    ([(f.vd.toNat, packRow (veuW f.fmt.toNat) (List.replicate (veuN f.fmt.toNat)
      ((veuFmt f.fmt.toNat).ofV false (Fmt.fp32.decode f.imm.toNat)).code))], 0) := rfl

/-- The elements of a register fill it. -/
theorem veuElems_fill (f : VeuFields) : 8 * veuW f.fmt.toNat * veuN f.fmt.toNat ≤ 8192 := by
  unfold veuW veuN
  split <;> decide

/-- An element of what is packed into `vd`. -/
theorem veuElem_packed {f : VeuFields} (l : List Nat) (d flags : Nat) {i : Nat} (hi : i < veuN f.fmt.toNat) :
    veuElem f ([(d, packRow (veuW f.fmt.toNat) l)], flags) i = l.getD i 0 % 2 ^ (8 * veuW f.fmt.toNat) :=
  Row.getD_elems_packRow l hi (veuElems_fill f)

/-- An operation on two registers, element by element. -/
theorem veuElem_two {f : VeuFields} (v : SMap Row) {i : Nat} (hi : i < veuN f.fmt.toNat)
    (g : Nat × Nat → FRes) :
    veuElem f (veuFull f (((veuElems f v f.va).zip (veuElems f v f.vb)).map g)) i =
      (g ((veuElems f v f.va).getD i 0, (veuElems f v f.vb).getD i 0)).code % 2 ^ (8 * veuW f.fmt.toNat) := by
  rw [veuFull, veuElem_packed _ _ _ hi]
  simp [veuElems, hi]

/-- An operation on three registers, element by element. -/
theorem veuElem_three {f : VeuFields} (v : SMap Row) {i : Nat} (hi : i < veuN f.fmt.toNat)
    (g : (Nat × Nat) × Nat → FRes) :
    veuElem f (veuFull f ((((veuElems f v f.va).zip (veuElems f v f.vb)).zip (veuElems f v f.vc)).map g)) i =
      (g (((veuElems f v f.va).getD i 0, (veuElems f v f.vb).getD i 0), (veuElems f v f.vc).getD i 0)).code %
        2 ^ (8 * veuW f.fmt.toNat) := by
  rw [veuFull, veuElem_packed _ _ _ hi]
  simp [veuElems, hi]

/-- A register's elements are codes of their width. -/
theorem veuElems_mod {f : VeuFields} (v : SMap Row) {i : Nat} (hi : i < veuN f.fmt.toNat) (r : BitVec 4) :
    (veuElems f v r).getD i 0 % 2 ^ (8 * veuW f.fmt.toNat) = (veuElems f v r).getD i 0 := by
  rw [veuElems, Row.getD_elems _ hi, Nat.mod_mod]

/-- The element of va, or that of vb where the element of vc is zero. -/
theorem veuElem_sel {f : VeuFields} (v : SMap Row) {i : Nat} (hi : i < veuN f.fmt.toNat) :
    veuElem f (veuResult veSel f v) i =
    if ((veuFmt f.fmt.toNat).decode ((veuElems f v f.vc).getD i 0)).isZero then (veuElems f v f.vb).getD i 0
    else (veuElems f v f.va).getD i 0 := by
  rw [veuResult_sel, veuElem_three v hi]
  dsimp only [plainRes]
  split <;> exact veuElems_mod v hi _

/-- The converted immediate. -/
theorem veuElem_bcast {f : VeuFields} (v : SMap Row) {i : Nat} (hi : i < veuN f.fmt.toNat) :
    veuElem f (veuResult veBcast f v) i =
    ((veuFmt f.fmt.toNat).ofV false (Fmt.fp32.decode f.imm.toNat)).code % 2 ^ (8 * veuW f.fmt.toNat) := by
  rw [veuResult_bcast, veuElem_packed _ _ _ hi]
  simp [hi]

/-- Results without a flag raise none. -/
theorem joinRes_plain {l : List FRes} (h : ∀ r ∈ l, ∃ c, r = plainRes c) : (joinRes l).2 = 0 := by
  have hfold : ∀ a, l.foldl (fun a r => a ||| r.veuFlags) a = a := by
    induction l with
    | nil => exact fun _ => rfl
    | cons r l ih =>
      obtain ⟨c, rfl⟩ := h r (List.mem_cons_self ..)
      exact fun a => (ih (fun x hx => h x (List.mem_cons_of_mem _ hx)) _).trans (Nat.or_zero a)
  exact hfold 0

/-- Settles O35: each operation's elements by those of its registers. -/
theorem veuResultsByElement : Obligations.VeuResultsByElement := by
  intro f v _
  dsimp only
  refine ⟨fun op hop => ?_, fun i hi => ⟨?_, ?_, ?_, ?_, ?_, ?_⟩, ?_, ?_, rfl⟩
  · simp only [List.mem_cons, List.not_mem_nil, or_false] at hop
    rcases hop with rfl | rfl | rfl | rfl | rfl | rfl <;> rfl
  · exact veuElem_two v hi _
  · exact veuElem_two v hi _
  · exact veuElem_three v hi _
  · exact veuElem_sel v hi
  · exact veuElem_two v hi _
  · exact veuElem_bcast v hi
  · rw [veuResult_sel]
    exact joinRes_plain fun r hr => by obtain ⟨p, -, rfl⟩ := List.mem_map.mp hr; exact ⟨_, rfl⟩
  · rw [veuResult_cmp]
    exact joinRes_plain fun r hr => by obtain ⟨p, -, rfl⟩ := List.mem_map.mp hr; exact ⟨_, rfl⟩

end Sys2Proof.Machine
end

section
/-! What a tile's reads and records leave (R56, R108, R112, R132): a relation for the events that read the store or record something, and
what follows a handshake's events. -/
namespace Sys2Proof.Machine
open Sys2Proof.Safety

/-! Steps that leave the memories. -/

/-- The memories and every register outside a list stay, and the tile's record changes as a relation says. -/
def Leaves (R : Tile → Tile → Prop) (l : List Nat) (s u : State) (t : Nat) : Prop :=
  u.store = s.store ∧ u.dram = s.dram ∧ R (s.tile t) (u.tile t) ∧ RegsSameBut s u l

section
variable {R : Tile → Tile → Prop} {l : List Nat} {t : Nat}

theorem Leaves.refl (hr : ∀ x, R x x) (s : State) : Leaves R l s s t := ⟨rfl, rfl, hr _, fun _ _ => rfl⟩

theorem Leaves.trans (hr : ∀ {x y z}, R x y → R y z → R x z) {s u v : State} (h : Leaves R l s u t) (h' : Leaves R l u v t) :
    Leaves R l s v t := by
  obtain ⟨hs, hd, ht, hreg⟩ := h
  obtain ⟨hs', hd', ht', hreg'⟩ := h'
  exact ⟨hs'.trans hs, hd'.trans hd, hr ht ht', fun a ha => (hreg' a ha).trans (hreg a ha)⟩

/-- A weaker relation and a longer list. -/
theorem Leaves.mono {R' : Tile → Tile → Prop} {l' : List Nat} {s u : State} (h : Leaves R l s u t) (hr : ∀ {x y}, R x y → R' x y)
    (hl : ∀ a ∈ l, a ∈ l') : Leaves R' l' s u t := by
  obtain ⟨hs, hd, ht, hreg⟩ := h
  exact ⟨hs, hd, hr ht, fun a ha => hreg a fun hm => ha (hl a hm)⟩

/-- A register of the list is written. -/
theorem Leaves.wr (hr : ∀ x, R x x) (s : State) {a : Nat} (ha : a ∈ l) (v : Word) : Leaves R l s (s.wr a v) t :=
  ⟨rfl, rfl, hr _, fun b hb => by rw [State.rd_wr, if_neg fun h : a = b => hb (h ▸ ha)]⟩

/-- The tile's record is replaced. -/
theorem Leaves.setTile (s : State) {x : Tile} (h : R (s.tile t) x) : Leaves R l s (s.setTile t x) t :=
  ⟨rfl, rfl, by rw [State.tile_setTile, if_pos rfl]; exact h, fun _ _ => rfl⟩

/-- A state with the same memories, tiles and registers outside the list. -/
theorem Leaves.of_eq (hr : ∀ x, R x x) {s u : State} (hs : u.store = s.store) (hd : u.dram = s.dram) (ht : u.tiles = s.tiles)
    (hreg : RegsSameBut s u l) : Leaves R l s u t :=
  ⟨hs, hd, by rw [State.tile, State.tile, ht]; exact hr _, hreg⟩

end

/-! Records. -/

/-- A tile's record but for its coming events, its last wide access, its queue of corrections and its mark of a clash. -/
def Tile.Recorded (x y : Tile) : Prop :=
  ∃ ev lw ce c, y = { x with evs := ev, lastWide := lw, ceQueue := ce, clashLogged := c }

theorem Tile.Recorded.refl (x : Tile) : Tile.Recorded x x := ⟨_, _, _, _, rfl⟩

theorem Tile.Recorded.trans {x y z : Tile} (h : Tile.Recorded x y) (h' : Tile.Recorded y z) : Tile.Recorded x z := by
  obtain ⟨ev, lw, ce, c, rfl⟩ := h
  obtain ⟨ev', lw', ce', c', rfl⟩ := h'
  exact ⟨ev', lw', ce', c', rfl⟩

/-- The registers that reads and records write. -/
def recordRegs (t : Nat) : List Nat :=
  logRegs ++ [Reg.SEQ_CLASH t, Reg.SEQ_CLASH_ENTRY t, Reg.TILE_FAULT t, Reg.ST_CE_COUNT t, Reg.ST_CE_CHECK_COUNT t, Reg.ST_UE_COUNT t,
    Reg.ST_UE_ADDR t, Reg.ST_UE_STATUS t]

/-- What reads and records leave of a tile whose coming events stay. -/
def Notes (s u : State) (t : Nat) : Prop :=
  Leaves Tile.Recorded (recordRegs t) s u t ∧ (u.tile t).evs = (s.tile t).evs

theorem Notes.refl (s : State) (t : Nat) : Notes s s t := ⟨.refl .refl s, rfl⟩

theorem Notes.trans {s u v : State} {t : Nat} (h : Notes s u t) (h' : Notes u v t) : Notes s v t :=
  ⟨h.1.trans .trans h'.1, h'.2.trans h.2⟩

theorem Notes.wr (s : State) {t a : Nat} (ha : a ∈ recordRegs t) (v : Word) : Notes s (s.wr a v) t := ⟨.wr .refl s ha v, rfl⟩

theorem Notes.of_eq {s u : State} {t : Nat} (hs : u.store = s.store) (hd : u.dram = s.dram) (ht : u.tiles = s.tiles)
    (hreg : RegsSameBut s u (recordRegs t)) : Notes s u t := ⟨.of_eq .refl hs hd ht hreg, by rw [State.tile, ht]; rfl⟩

theorem Notes.setTile (s : State) (t : Nat) {x : Tile} (h : Tile.Recorded (s.tile t) x) (hev : x.evs = (s.tile t).evs) :
    Notes s (s.setTile t x) t :=
  ⟨.setTile s h, by rw [State.tile_setTile, if_pos rfl, hev]⟩

/-- One of two ways on. -/
theorem Notes.ite {s u v : State} {t : Nat} {c : Prop} [Decidable c] (h : Notes s u t) (h' : Notes s v t) :
    Notes s (if c then u else v) t := by
  split
  · exact h
  · exact h'

theorem Notes.foldl {α : Type} {t : Nat} {f : State → α → State} (h : ∀ s x, Notes s (f s x) t) (l : List α) (s : State) :
    Notes s (l.foldl f s) t := by
  induction l generalizing s with
  | nil => exact .refl s t
  | cons x r ih => exact (h s x).trans (ih _)

/-- A record that is not fatal to the device. -/
theorem State.logTile_notes (s : State) (t code : Nat) {sev : Nat} (detail : List Byte) (h : sev ≠ sevDevice) :
    Notes s (s.logTile t code sev detail) t := by
  obtain ⟨htiles, hstore, hdram, hrd⟩ := s.logTile_frame t code detail h
  exact .of_eq hstore hdram htiles fun a ha => hrd a fun hl => ha (List.mem_append_left _ hl)

theorem State.raiseLine_notes (s : State) (t : Nat) : Notes s (s.raiseLine t) t := by
  obtain ⟨hregs, htiles, hstore, hdram⟩ := s.raiseLine_frame t
  exact .of_eq hstore hdram htiles fun a _ => by rw [State.rd, hregs]; rfl

/-- The severities that are fatal to a partition at most. -/
theorem sev_below_device : sevPartition ≠ sevDevice ∧ sevContained ≠ sevDevice ∧ sevCorrected ≠ sevDevice := by decide

/-- A slot clash (R132). -/
theorem State.slotClash_notes (s : State) (t cause first second h : Nat) : Notes s (s.slotClash t cause first second h) t := by
  obtain ⟨detail, hu⟩ := s.slotClash_eq t cause first second h
  have hregs : Notes s (s.clashRegs t cause first second h) t := by
    refine (Notes.ite (.refl s t) ?_).trans (.wr _ (by simp [recordRegs]) _)
    exact (Notes.wr s (by simp [recordRegs]) _).trans (.wr _ (by simp [recordRegs]) _)
  have hline := hregs.trans (State.raiseLine_notes _ t)
  rw [hu]
  refine Notes.ite hline (Notes.trans ?_ (State.logTile_notes _ t _ _ sev_below_device.1))
  refine hline.trans (Notes.setTile _ t ?_ rfl)
  exact ⟨_, _, _, _, rfl⟩

/-- A numeric trap rises (R103). -/
theorem State.trapRises_notes (s : State) (t code faultBit : Nat) (detail : List Byte) : Notes s (s.trapRises t code faultBit detail) t := by
  have hupd (u : State) (p : Nat) (f : Part → Part) : Notes u (u.updPart p f) t := by
    unfold State.updPart
    split
    · exact .of_eq rfl rfl rfl fun _ _ => rfl
    · exact .refl u t
  unfold State.trapRises
  dsimp only
  have hbit : Notes s (if faultBit < 8 then s.setBit (Reg.TILE_FAULT t) faultBit true else s) t :=
    .ite (.wr s (by simp [recordRegs]) _) (.refl s t)
  refine Notes.trans ?_ (State.logTile_notes _ t _ _ sev_below_device.1)
  split
  · exact hbit.trans (hupd _ _ _)
  · exact hbit

/-- An upset word that a read meets (R112, R113). -/
theorem State.meetUpset_notes (s : State) (t : Nat) (r : StoreReader) (finder : Nat) (x : Upset) : Notes s (s.meetUpset t r finder x) t := by
  have hmem : Reg.ST_CE_COUNT t ∈ recordRegs t ∧ Reg.ST_CE_CHECK_COUNT t ∈ recordRegs t ∧ Reg.ST_UE_COUNT t ∈ recordRegs t ∧
      Reg.ST_UE_ADDR t ∈ recordRegs t ∧ Reg.ST_UE_STATUS t ∈ recordRegs t ∧ Reg.TILE_FAULT t ∈ recordRegs t := by simp [recordRegs]
  obtain ⟨hce, hcheck, hue, haddr, hstatus, hfault⟩ := hmem
  have hsev (u : State) : u.ueSeverity t r ≠ sevDevice := by
    unfold State.ueSeverity
    cases r <;> dsimp only
    · split <;> decide
    · split <;> decide
    · decide
    · decide
  unfold State.meetUpset
  extract_lets base image detail u1 y u2 v1 v2 v3
  have h1 : Notes s u1 t := (Notes.wr s hce _).ite (.wr s hcheck _)
  have h2 : Notes s u2 t := by
    refine Notes.ite (h1.trans (.setTile u1 t ?_ rfl)) h1
    exact ⟨_, _, _, _, rfl⟩
  have k1 : Notes s v1 t := .wr s hue _
  have k2 : Notes s v2 t := (k1.trans (.wr _ hstatus _)).ite ((k1.trans (.wr _ haddr _)).trans (.wr _ hstatus _))
  have k3 : Notes s v3 t := (k2.trans (.wr _ hfault _)).ite k2
  refine Notes.ite (h2.trans (State.logTile_notes _ t _ _ sev_below_device.2.2)) (k3.ite (k3.trans (State.logTile_notes _ t _ _ (hsev _))))

/-- A wide read (R107, R108). -/
theorem State.readRow_notes (s : State) (t slot row : Nat) : Notes s (s.readRow t slot row).2.2 t := by
  have hfree : Notes s s.stepFree t := .of_eq rfl rfl rfl fun _ _ => rfl
  exact hfree.trans (.foldl (fun u x => u.meetUpset_notes t _ _ x) _ _)

/-! The events of a handshake. -/

/-- Events that take place and bring no further one: what each leaves, the run leaves, and what is due later stays to come. -/
theorem State.runEvents_served {R : State → State → Prop} {G : TileAct → Prop} {t h : Nat} (hrefl : ∀ s, R s s)
    (htrans : ∀ {s u v}, R s u → R u v → R s v) (hpop : ∀ s l, (∀ e ∈ l, e ∈ (s.tile t).evs) → R s (s.setTile t { s.tile t with evs := l }))
    (hact : ∀ s (e : TileEv), G e.act → R s (s.performAct t e) ∧ ((s.performAct t e).tile t).evs = (s.tile t).evs ∧
      ((s.performAct t e).tile t).flights = (s.tile t).flights) (hrank : ∀ a, G a → a.rank ≠ 8) (n : Nat) (s : State)
    (hdue : ∀ e ∈ (s.tile t).evs, e.slot ≤ h → G e.act ∧ ∀ f ∈ (s.tile t).flights, e.slot < f.slot + f.lat) :
    R s (State.runEvents t h n s) ∧ (∀ e ∈ (s.tile t).evs, h < e.slot → e ∈ ((State.runEvents t h n s).tile t).evs) ∧
      ((State.runEvents t h n s).tile t).flights = (s.tile t).flights := by
  induction n generalizing s with
  | zero => exact ⟨hrefl s, fun e he _ => he, rfl⟩
  | succ n ih =>
    cases hev : (s.tile t).evs with
    | nil =>
      rw [State.runEvents_nil _ _ _ _ hev]
      exact ⟨hrefl s, fun e he => absurd he List.not_mem_nil, rfl⟩
    | cons e r =>
      by_cases hlater : h < e.slot
      · rw [State.runEvents_later _ _ _ _ e r hev hlater]
        exact ⟨hrefl s, fun e' he _ => by rw [hev]; exact he, rfl⟩
      · obtain ⟨hG, hfl⟩ := hdue e (by rw [hev]; exact List.mem_cons_self ..) (Nat.not_lt.mp hlater)
        have hpoptile : (s.setTile t { s.tile t with evs := r }).tile t = { s.tile t with evs := r } :=
          (State.tile_setTile s t t _).trans (if_pos rfl)
        have hland : (s.setTile t { s.tile t with evs := r }).landFlights t e.slot = s.setTile t { s.tile t with evs := r } := by
          unfold State.landFlights
          rw [hpoptile]
          simp only [landed_later hfl]
        have hrun : State.runEvents t h (n + 1) s =
            State.runEvents t h n ((s.setTile t { s.tile t with evs := r }).performAct t e) := by
          simp only [State.runEvents, hev, hlater, hrank _ hG, if_false, hland]
        obtain ⟨hR, hevs, hflights⟩ := hact (s.setTile t { s.tile t with evs := r }) e hG
        rw [hpoptile] at hevs hflights
        obtain ⟨hRn, hkept, hfln⟩ := ih _ (fun e' he' hs => by
          rw [hevs] at he'
          rw [hflights]
          exact hdue e' (by rw [hev]; exact List.mem_cons_of_mem _ he') hs)
        rw [hrun]
        refine ⟨htrans (hpop s r fun e' he' => by rw [hev]; exact List.mem_cons_of_mem _ he') (htrans hR hRn), fun e' he' hs => hkept e' ?_ hs, hfln.trans hflights⟩
        rw [hevs]
        rcases List.mem_cons.mp he' with rfl | hmem
        · exact absurd hs hlater
        · exact hmem

/-- The event at the front takes place. -/
theorem State.runEvents_first {s : State} {t h n : Nat} {e : TileEv} {r : List TileEv} (hev : (s.tile t).evs = e :: r)
    (hdue : e.slot ≤ h) (hrank : e.act.rank ≠ 8) (hfl : (s.tile t).flights = []) :
    State.runEvents t h (n + 1) s = State.runEvents t h n ((s.setTile t { s.tile t with evs := r }).performAct t e) := by
  have hpoptile : (s.setTile t { s.tile t with evs := r }).tile t = { s.tile t with evs := r } :=
    (State.tile_setTile s t t _).trans (if_pos rfl)
  have hland : (s.setTile t { s.tile t with evs := r }).landFlights t e.slot = s.setTile t { s.tile t with evs := r } := by
    unfold State.landFlights
    rw [hpoptile]
    simp only [hfl, landed]
  simp only [State.runEvents, hev, Nat.not_lt.mpr hdue, hrank, if_false, hland]

/-! What follows a handshake's events. -/

/-- What follows the events of a handshake: writes land, operations that are over leave, counters and busy bits follow (R56, R129). -/
def State.carried (s : State) (t h : Nat) : State :=
  (((((s.landFlights t h).mvuRetire t h).arrTick t h).setHs t h).veuStatus t).tileBusy t

/-- An advance without stream faults to record. -/
theorem State.advanceTo_carried {s : State} {t : Nat} (ha : (s.tile t).se.aborts = []) (h : Nat) :
    s.advanceTo t h = (State.runEvents t h eventFuel s).carried t h := by
  unfold State.advanceTo
  dsimp only
  rw [s.settleAborts_nil t ha, ite_self]
  rfl

theorem ArrSt.ticked_nil {a : ArrSt} (h : a.mmas = []) (hs : Nat) : a.ticked hs = a := by
  cases a
  subst h
  rfl

/-- The counters of one array of a tile. -/
theorem State.arrTickOne_tile (s : State) {t arr : Nat} (h : Nat) :
    (s.arrTickOne t arr h).tile t = (s.tile t).setArr arr (((s.tile t).arr arr).ticked h) := by
  have hcount (l : List MmaOp) (u : State) : (l.foldl (fun s o => s.arrCount t arr h o) u).tile t = u.tile t := by
    have hone (v : State) (o : MmaOp) : (v.arrCount t arr h o).tile t = v.tile t := by
      unfold State.arrCount
      dsimp only
      split_ifs <;> rfl
    induction l generalizing u with
    | nil => rfl
    | cons o r ih => exact (ih _).trans (hone u o)
  unfold State.arrTickOne
  dsimp only
  split
  · next hnil =>
    rw [ArrSt.ticked_nil hnil]
    unfold Tile.setArr Tile.arr
    split <;> rfl
  · rw [State.tile_setTile, if_pos rfl, hcount]

/-- The counters of both arrays of a tile. -/
theorem State.arrTick_tile (s : State) (t h : Nat) :
    (s.arrTick t h).tile t = { s.tile t with arr0 := (s.tile t).arr0.ticked h, arr1 := (s.tile t).arr1.ticked h } := by
  rw [State.arrTick, State.arrTickOne_tile, State.arrTickOne_tile]
  rfl

/-- Operations of the MVU that are over leave. -/
theorem State.mvuRetire_tile (s : State) (t h : Nat) : (s.mvuRetire t h).tile t =
    { s.tile t with mvu := { (s.tile t).mvu with ops := (s.tile t).mvu.ops.filter (fun o => decide (h < o.done)) } } := by
  unfold State.mvuRetire
  dsimp only
  split
  · next hnil => rw [hnil]; exact congrArg (fun l => { s.tile t with mvu := { (s.tile t).mvu with ops := l } }) hnil
  · exact (State.tile_setTile s t t _).trans (if_pos rfl)

/-- The record of a tile once its handshake's events have taken place, where no write lands by then. -/
def Tile.carriedAt (x : Tile) (h : Nat) : Tile :=
  { x with mvu := { x.mvu with ops := x.mvu.ops.filter (fun o => decide (h < o.done)) }, arr0 := x.arr0.ticked h, arr1 := x.arr1.ticked h }

theorem State.carried_tile {s : State} {t h : Nat} (hfl : ∀ f ∈ (s.tile t).flights, h < f.slot + f.lat) :
    (s.carried t h).tile t = (s.tile t).carriedAt h := by
  have hland : s.landFlights t h = s := by
    unfold State.landFlights
    simp only [landed_later hfl]
  have hshown : (s.carried t h).tile t = (((s.landFlights t h).mvuRetire t h).arrTick t h).tile t := rfl
  rw [hshown, hland, State.arrTick_tile, State.mvuRetire_tile]
  rfl

theorem State.landFlights_later {s : State} {t h : Nat} (hfl : ∀ f ∈ (s.tile t).flights, h < f.slot + f.lat) : s.landFlights t h = s := by
  unfold State.landFlights
  simp only [landed_later hfl]

/-- What follows the events of a handshake leaves the rest of the tile. -/
theorem State.carried_ticked (s : State) (t h : Nat) : Ticked s (s.carried t h) t := by
  have hticks (u : State) : Ticked u (u.arrTick t h) t :=
    (u.arrTickOne_ticked h (show 0 < 2 by decide)).trans (State.arrTickOne_ticked _ h (show 1 < 2 by decide))
  refine (((s.landFlights_ticked t h).trans (State.mvuRetire_ticked _ t h)).trans (hticks _)).trans ?_
  exact (Ticked.wr _ (by simp [tickRegs]) _).trans ((Ticked.wr _ (by simp [tickRegs]) _).trans (.wr _ (by simp [tickRegs]) _))

/-- What follows the events of a handshake writes the store no more than the writes that land do. -/
theorem State.carried_store (s : State) (t h : Nat) : (s.carried t h).store = (s.landFlights t h).store := by
  have hcount (arr : Nat) (l : List MmaOp) (u : State) : (l.foldl (fun s o => s.arrCount t arr h o) u).store = u.store := by
    induction l generalizing u with
    | nil => rfl
    | cons o r ih =>
      refine (ih _).trans ?_
      unfold State.arrCount
      dsimp only
      split_ifs <;> rfl
  have hone (arr : Nat) (u : State) : (u.arrTickOne t arr h).store = u.store := by
    unfold State.arrTickOne
    dsimp only
    split
    · rfl
    · exact hcount arr _ u
  have hret (u : State) : (u.mvuRetire t h).store = u.store := by
    unfold State.mvuRetire
    dsimp only
    split <;> rfl
  have hshown : (s.carried t h).store = (((s.landFlights t h).mvuRetire t h).arrTick t h).store := rfl
  rw [hshown, State.arrTick, hone, hone, hret]

/-- The memories, where no write lands. -/
theorem State.carried_bytes {s : State} {t h : Nat} (hfl : ∀ f ∈ (s.tile t).flights, h < f.slot + f.lat) :
    (s.carried t h).store = s.store ∧ (s.carried t h).dram = s.dram ∧ RegsSameBut s (s.carried t h) (tickRegs t) := by
  obtain ⟨hrec, -, -, -, hregs⟩ := s.carried_ticked t h
  exact ⟨by rw [State.carried_store, State.landFlights_later hfl], by rw [hrec], fun a ha => hregs a ha⟩

theorem State.carried_hs (s : State) (t : Nat) {h : Nat} (hh : h < 2 ^ 20) : (s.carried t h).hs t = h := State.settledAt_hs _ t hh

end Sys2Proof.Machine
end

section
/-! The coming events of a tile (R107, R132): what entering some leaves of them. -/
namespace Sys2Proof.Machine

theorem mem_insertEv {e y : TileEv} {l : List TileEv} : y ∈ insertEv e l ↔ y = e ∨ y ∈ l := by
  induction l with
  | nil => simp [insertEv]
  | cons x r ih =>
    unfold insertEv
    split
    · simp
    · simp only [List.mem_cons, ih]
      tauto

/-- An event that falls due after all others comes last. -/
theorem insertEv_last {e : TileEv} {l : List TileEv} (h : ∀ y ∈ l, y.slot < e.slot) : insertEv e l = l ++ [e] := by
  induction l with
  | nil => rfl
  | cons x r ih =>
    have hx := h x (List.mem_cons_self ..)
    have hbefore : e.before x = false := by
      simp only [TileEv.before, Bool.or_eq_false_iff, decide_eq_false_iff_not, Bool.and_eq_false_iff, beq_eq_false_iff_ne]
      omega
    simp only [insertEv, hbefore, Bool.false_eq_true, if_false, List.cons_append, ih fun y hy => h y (List.mem_cons_of_mem _ hy)]

/-- A slot is claimed by a coming event. -/
theorem claimAt_mem {slot : Nat} {l : List TileEv} {y : TileEv} (h : claimAt slot l = some y) : y ∈ l := by
  induction l with
  | nil => cases h
  | cons x r ih =>
    unfold claimAt at h
    split at h
    · exact Option.some.inj h ▸ List.mem_cons_self ..
    · exact List.mem_cons_of_mem _ (ih h)

theorem claimAt_none {slot : Nat} {l : List TileEv} (h : ∀ y ∈ l, y.act.wide = true → y.slot ≠ slot) : claimAt slot l = none := by
  induction l with
  | nil => rfl
  | cons x r ih =>
    have hx : ¬ (x.slot = slot ∧ x.act.wide = true) := fun hx => h x (List.mem_cons_self ..) hx.2 hx.1
    rw [claimAt, if_neg hx]
    exact ih fun y hy => h y (List.mem_cons_of_mem _ hy)

/-- What a list of coming events becomes: each one stays or turns into a clash, and those that claim no slot stay. -/
def EvsFrom (l ev : List TileEv) : Prop :=
  (∀ y ∈ ev, ∃ z ∈ l, y.slot = z.slot ∧ (y = z ∨ ∃ n, y.act = .clash n)) ∧ ∀ z ∈ l, z.act.wide = false → z ∈ ev

theorem EvsFrom.refl (l : List TileEv) : EvsFrom l l := ⟨fun y hy => ⟨y, hy, rfl, .inl rfl⟩, fun _ hz _ => hz⟩

theorem EvsFrom.trans {l m n : List TileEv} (h : EvsFrom l m) (h' : EvsFrom m n) : EvsFrom l n := by
  refine ⟨fun y hy => ?_, fun z hz hw => h'.2 z (h.2 z hz hw) hw⟩
  obtain ⟨z, hz, hslot, hyz⟩ := h'.1 y hy
  obtain ⟨w, hw, hslot', hzw⟩ := h.1 z hz
  refine ⟨w, hw, hslot.trans hslot', ?_⟩
  rcases hyz with rfl | hclash
  · exact hzw
  · exact .inr hclash

theorem EvsFrom.append {l m : List TileEv} (h : EvsFrom l m) (r : List TileEv) : EvsFrom (l ++ r) (m ++ r) := by
  refine ⟨fun y hy => ?_, fun z hz hw => ?_⟩
  · rcases List.mem_append.mp hy with hy | hy
    · obtain ⟨z, hz, hyz⟩ := h.1 y hy
      exact ⟨z, List.mem_append_left _ hz, hyz⟩
    · exact ⟨y, List.mem_append_right _ hy, rfl, .inl rfl⟩
  · rcases List.mem_append.mp hz with hz | hz
    · exact List.mem_append_left _ (h.2 z hz hw)
    · exact List.mem_append_right _ hz

/-- An event is entered as it is. -/
theorem EvsFrom.insert (e : TileEv) (l : List TileEv) : EvsFrom (l ++ [e]) (insertEv e l) := by
  refine ⟨fun y hy => ⟨y, ?_, rfl, .inl rfl⟩, fun z hz _ => mem_insertEv.mpr ?_⟩
  · rcases mem_insertEv.mp hy with rfl | hy
    · exact List.mem_append_right _ (List.mem_singleton_self _)
    · exact List.mem_append_left _ hy
  · rcases List.mem_append.mp hz with hz | hz
    · exact .inr hz
    · exact .inl (List.mem_singleton.mp hz)

/-- An event of a list is entered as a clash. -/
theorem EvsFrom.clash {e : TileEv} {l m : List TileEv} (he : e ∈ l) (n : Nat)
    (hm : ∀ y ∈ m, y ∈ l) (hl : ∀ z ∈ l, z.act.wide = false → z ∈ m) : EvsFrom l (insertEv { e with act := .clash n } m) := by
  refine ⟨fun y hy => ?_, fun z hz hz' => mem_insertEv.mpr (.inr (hl z hz hz'))⟩
  rcases mem_insertEv.mp hy with rfl | hy
  · exact ⟨e, he, rfl, .inr ⟨n, rfl⟩⟩
  · exact ⟨y, hm y hy, rfl, .inl rfl⟩

/-- A coming event is entered (R132). -/
theorem Tile.addEv_evsFrom (x : Tile) (e : TileEv) : ∃ ev, x.addEv e = { x with evs := ev } ∧ EvsFrom (x.evs ++ [e]) ev := by
  have hself (n : Nat) (hw : e.act.wide = true) : EvsFrom (x.evs ++ [e]) (insertEv { e with act := .clash n } x.evs) := by
    refine .clash (by simp) n (fun y hy => List.mem_append_left _ hy) fun z hz hz' => ?_
    rcases List.mem_append.mp hz with hz | hz
    · exact hz
    · rw [List.mem_singleton.mp hz, hw] at hz'
      cases hz'
  unfold Tile.addEv
  split
  · next hw =>
    split
    · next y hy =>
      split
      · exact ⟨_, rfl, hself _ hw⟩
      · refine ⟨_, rfl, ?_⟩
        refine .clash (List.mem_append_left _ (claimAt_mem hy)) _ (fun z hz => ?_) fun z hz hz' => mem_insertEv.mpr ?_
        · rcases mem_insertEv.mp hz with rfl | hz
          · simp
          · exact List.mem_append_left _ (List.mem_of_mem_filter hz)
        · rcases List.mem_append.mp hz with hz | hz
          · exact .inr (List.mem_filter.mpr ⟨hz, by simp [hz']⟩)
          · exact .inl (List.mem_singleton.mp hz)
    · split
      · split
        · exact ⟨_, rfl, hself _ hw⟩
        · exact ⟨_, rfl, .insert e x.evs⟩
      · exact ⟨_, rfl, .insert e x.evs⟩
  · exact ⟨_, rfl, .insert e x.evs⟩

/-- Coming events are entered in turn. -/
theorem Tile.addEvs_evsFrom (x : Tile) (l : List TileEv) : ∃ ev, x.addEvs l = { x with evs := ev } ∧ EvsFrom (x.evs ++ l) ev := by
  induction l generalizing x with
  | nil => exact ⟨x.evs, rfl, by rw [List.append_nil]; exact .refl _⟩
  | cons e r ih =>
    obtain ⟨ev, hev, hfrom⟩ := x.addEv_evsFrom e
    obtain ⟨ev', hev', hfrom'⟩ := ih (x.addEv e)
    refine ⟨ev', (show x.addEvs (e :: r) = (x.addEv e).addEvs r from rfl).trans (hev'.trans (by rw [hev])), ?_⟩
    rw [hev] at hfrom'
    have := (hfrom.append r).trans hfrom'
    rwa [List.append_assoc] at this

/-- An event whose slot is free, where it claims one, is entered as it is. -/
theorem Tile.addEv_free {x : Tile} {e : TileEv} (h : e.act.wide = true → claimAt e.slot x.evs = none ∧ ∀ w, x.lastWide = some w → w.1 ≠ e.slot) :
    x.addEv e = { x with evs := insertEv e x.evs } := by
  unfold Tile.addEv
  split
  · next hw =>
    obtain ⟨hclaim, hlast⟩ := h hw
    rw [hclaim]
    dsimp only
    split
    · next sl en hl => rw [if_neg (hlast (sl, en) hl)]
    · rfl
  · rfl

/-- Events of different slots, free where they claim them, are entered as they are. -/
theorem Tile.addEvs_free {x : Tile} {l : List TileEv} (hl : l.Pairwise (fun a b => a.slot ≠ b.slot))
    (hfree : ∀ e ∈ l, e.act.wide = true → (∀ y ∈ x.evs, y.act.wide = true → y.slot ≠ e.slot) ∧ ∀ w, x.lastWide = some w → w.1 ≠ e.slot) :
    ∃ ev, x.addEvs l = { x with evs := ev } ∧ ∀ y, y ∈ ev ↔ y ∈ x.evs ∨ y ∈ l := by
  induction l generalizing x with
  | nil => exact ⟨x.evs, rfl, by simp⟩
  | cons e r ih =>
    obtain ⟨hne, hr⟩ := List.pairwise_cons.mp hl
    have hadd : x.addEv e = { x with evs := insertEv e x.evs } := Tile.addEv_free fun hw =>
      ⟨claimAt_none (hfree e (List.mem_cons_self ..) hw).1, (hfree e (List.mem_cons_self ..) hw).2⟩
    obtain ⟨ev, hev, hmem⟩ := ih (x := { x with evs := insertEv e x.evs }) hr fun e' he' hw => by
      obtain ⟨hy, hlast⟩ := hfree e' (List.mem_cons_of_mem _ he') hw
      refine ⟨fun y hmem hyw => ?_, hlast⟩
      rcases mem_insertEv.mp hmem with rfl | hmem
      · exact hne e' he'
      · exact hy y hmem hyw
    refine ⟨ev, (show x.addEvs (e :: r) = (x.addEv e).addEvs r from rfl).trans (by rw [hadd, hev]), fun y => ?_⟩
    rw [hmem, mem_insertEv, List.mem_cons]
    tauto

/-- Events of rising slots that lie behind all others, free where they claim them, come last. -/
theorem Tile.addEvs_rising {x : Tile} {l : List TileEv} (hl : l.Pairwise (fun a b => a.slot < b.slot))
    (hlater : ∀ y ∈ x.evs, ∀ e ∈ l, y.slot < e.slot) (hlast : ∀ e ∈ l, e.act.wide = true → ∀ w, x.lastWide = some w → w.1 ≠ e.slot) :
    x.addEvs l = { x with evs := x.evs ++ l } := by
  induction l generalizing x with
  | nil => rw [List.append_nil]; rfl
  | cons e r ih =>
    obtain ⟨hlt, hr⟩ := List.pairwise_cons.mp hl
    have hadd : x.addEv e = { x with evs := x.evs ++ [e] } := by
      rw [Tile.addEv_free fun hw => ⟨claimAt_none fun y hy _ => (hlater y hy e (List.mem_cons_self ..)).ne, hlast e (List.mem_cons_self ..) hw⟩,
        insertEv_last fun y hy => hlater y hy e (List.mem_cons_self ..)]
    have hrest := ih (x := { x with evs := x.evs ++ [e] }) hr (fun y hy e' he' => by
      rcases List.mem_append.mp hy with hy | hy
      · exact hlater y hy e' (List.mem_cons_of_mem _ he')
      · rw [List.mem_singleton.mp hy]; exact hlt e' he') fun e' he' => hlast e' (List.mem_cons_of_mem _ he')
    rw [show x.addEvs (e :: r) = (x.addEv e).addEvs r from rfl, hadd, hrest]
    simp

end Sys2Proof.Machine
end

section
/-! The advance of a tile in which reads, clashes and traps are due (R56, R66, R72, R103, R132). -/
namespace Sys2Proof.Machine
open Sys2Proof.Safety

/-! Reads. -/

/-- An operation of an array keeps what it was issued with. -/
def MmaKept (g : MmaOp → MmaOp) : Prop := ∀ o, (g o).id = o.id ∧ (g o).f = o.f ∧ (g o).entry = o.entry ∧ (g o).issue = o.issue

/-- An operation of the MVU keeps what it was issued with. -/
def MvuKept (g : MvuOp → MvuOp) : Prop := ∀ o, (g o).id = o.id ∧ (g o).kind = o.kind ∧ (g o).entry = o.entry ∧ (g o).done = o.done

/-- A tile's record but for what reads bring: rows for the operations in progress, and registers of the VEU. -/
def Tile.Read (x y : Tile) : Prop :=
  ∃ g0 g1 gm v, MmaKept g0 ∧ MmaKept g1 ∧ MvuKept gm ∧ Tile.Recorded { x with
    arr0 := { x.arr0 with mmas := x.arr0.mmas.map g0 }, arr1 := { x.arr1 with mmas := x.arr1.mmas.map g1 }
    mvu := { x.mvu with ops := x.mvu.ops.map gm }, veu := { x.veu with v := v } } y

theorem MmaKept.refl : MmaKept (fun o => o) := fun _ => ⟨rfl, rfl, rfl, rfl⟩

theorem MvuKept.refl : MvuKept (fun o => o) := fun _ => ⟨rfl, rfl, rfl, rfl⟩

theorem MmaKept.comp {g g' : MmaOp → MmaOp} (h : MmaKept g) (h' : MmaKept g') : MmaKept (g' ∘ g) := fun o => by
  obtain ⟨h1, h2, h3, h4⟩ := h o
  obtain ⟨h1', h2', h3', h4'⟩ := h' (g o)
  exact ⟨h1'.trans h1, h2'.trans h2, h3'.trans h3, h4'.trans h4⟩

theorem MvuKept.comp {g g' : MvuOp → MvuOp} (h : MvuKept g) (h' : MvuKept g') : MvuKept (g' ∘ g) := fun o => by
  obtain ⟨h1, h2, h3, h4⟩ := h o
  obtain ⟨h1', h2', h3', h4'⟩ := h' (g o)
  exact ⟨h1'.trans h1, h2'.trans h2, h3'.trans h3, h4'.trans h4⟩

theorem Tile.Recorded.read {x y : Tile} (h : Tile.Recorded x y) : Tile.Read x y := by
  refine ⟨_, _, _, x.veu.v, .refl, .refl, .refl, ?_⟩
  simpa only [List.map_id'] using h

theorem Tile.Read.refl (x : Tile) : Tile.Read x x := (Tile.Recorded.refl x).read

theorem Tile.Read.trans {x y z : Tile} (h : Tile.Read x y) (h' : Tile.Read y z) : Tile.Read x z := by
  obtain ⟨g0, g1, gm, v, h0, h1, hm, ev, lw, ce, c, rfl⟩ := h
  obtain ⟨g0', g1', gm', v', h0', h1', hm', ev', lw', ce', c', rfl⟩ := h'
  refine ⟨_, _, _, v', h0.comp h0', h1.comp h1', hm.comp hm', ev', lw', ce', c', ?_⟩
  simp only [List.map_map]

/-- The registers that reads and records write. -/
def readRegs (t : Nat) : List Nat := Reg.MVU_ROW_COUNT t :: recordRegs t

/-- What reads and records leave of a tile whose coming events stay. -/
def Reads (s u : State) (t : Nat) : Prop := Leaves Tile.Read (readRegs t) s u t ∧ (u.tile t).evs = (s.tile t).evs

theorem Reads.trans {s u v : State} {t : Nat} (h : Reads s u t) (h' : Reads u v t) : Reads s v t :=
  ⟨h.1.trans .trans h'.1, h'.2.trans h.2⟩

theorem Notes.reads {s u : State} {t : Nat} (h : Notes s u t) : Reads s u t :=
  ⟨h.1.mono Tile.Recorded.read fun _ ha => List.mem_cons_of_mem _ ha, h.2⟩

/-- A read brings rows to operations in progress. -/
theorem Reads.setTile (s : State) {t : Nat} {x : Tile} (h : Tile.Read (s.tile t) x) (hev : x.evs = (s.tile t).evs) :
    Reads s (s.setTile t x) t := ⟨.setTile s h, by rw [State.tile_setTile, if_pos rfl, hev]⟩

theorem Tile.setArr_evs (x : Tile) (arr : Nat) (a : ArrSt) : (x.setArr arr a).evs = x.evs := by
  unfold Tile.setArr
  split <;> rfl

/-- Operations of an array that keep what they were issued with. -/
theorem Tile.Read.setArr (x : Tile) (arr : Nat) {g : MmaOp → MmaOp} (h : MmaKept g) :
    Tile.Read x (x.setArr arr { x.arr arr with mmas := (x.arr arr).mmas.map g }) := by
  unfold Tile.setArr Tile.arr
  split
  · exact ⟨g, _, _, x.veu.v, h, .refl, .refl, by simpa only [List.map_id'] using Tile.Recorded.refl _⟩
  · exact ⟨_, g, _, x.veu.v, .refl, h, .refl, by simpa only [List.map_id'] using Tile.Recorded.refl _⟩

/-- Operations of the MVU that keep what they were issued with. -/
theorem Tile.Read.setOps (x : Tile) {g : MvuOp → MvuOp} (h : MvuKept g) :
    Tile.Read x { x with mvu := { x.mvu with ops := x.mvu.ops.map g } } :=
  ⟨_, _, g, x.veu.v, .refl, .refl, h, by simpa only [List.map_id'] using Tile.Recorded.refl _⟩

/-- A register of the VEU is loaded. -/
theorem Tile.Read.setVeu (x : Tile) (v : SMap Row) : Tile.Read x { x with veu := { x.veu with v := v } } :=
  ⟨_, _, _, v, .refl, .refl, .refl, by simpa only [List.map_id'] using Tile.Recorded.refl _⟩

theorem State.arrRead_reads (s : State) (t arr op : Nat) (isB : Bool) (j row slot : Nat) : Reads s (s.arrRead t arr op isB j row slot) t := by
  refine (s.readRow_notes t slot row).reads.trans (.setTile _ (.setArr _ arr fun o => ?_) (Tile.setArr_evs ..))
  split_ifs <;> exact ⟨rfl, rfl, rfl, rfl⟩

theorem State.mvuRead_reads (s : State) (t op i row slot : Nat) : Reads s (s.mvuRead t op i row slot) t := by
  have hkept : MvuKept fun o => if o.id = op then { o with rows := SMap.set o.rows i (s.readRow t slot row).1 } else o := fun o => by
    dsimp only
    split_ifs <;> exact ⟨rfl, rfl, rfl, rfl⟩
  have hset := (s.readRow_notes t slot row).reads.trans (.setTile _ (.setOps _ hkept) rfl)
  have hcount (u : State) : Reads u (u.addReg (Reg.MVU_ROW_COUNT t) 1) t := ⟨.wr .refl u (List.mem_cons_self ..) _, rfl⟩
  unfold State.mvuRead
  dsimp only
  split
  · split
    · exact hset.trans (hcount _)
    · exact hset
  · exact hset

theorem State.vld_reads (s : State) (t entry slot : Nat) (f : VeuFields) : Reads s (s.veuApply t veVld entry slot f) t :=
  (s.readRow_notes t slot f.row.toNat).reads.trans (.setTile _ (.setVeu _ _) rfl)

/-! The events that take place. -/

/-- A clash or a trap. -/
def TileAct.notes : TileAct → Bool
  | .clash _ | .trap .. => true
  | _ => false

/-- A read of a data row, a load of the VEU, a clash or a trap. -/
def TileAct.reads : TileAct → Bool
  | .arrRow .. | .mvuRow .. => true
  | .veu op _ => op == veVld
  | a => a.notes

/-- The last wide access is remembered (R107). -/
theorem State.lastWide_notes (s : State) (t : Nat) (e : TileEv) :
    Notes s (if e.act.wide = true then s.setTile t { s.tile t with lastWide := some (e.slot, e.entry) } else s) t := by
  refine Notes.ite (.setTile s t ?_ rfl) (.refl s t)
  exact ⟨_, _, _, _, rfl⟩

theorem State.performAct_notes (s : State) (t : Nat) {e : TileEv} (h : e.act.notes = true) : Notes s (s.performAct t e) t := by
  have hwide := s.lastWide_notes t e
  unfold State.performAct
  dsimp only
  generalize (if e.act.wide = true then s.setTile t { s.tile t with lastWide := some (e.slot, e.entry) } else s) = u at hwide
  cases hact : e.act with
  | clash first => exact hwide.trans (u.slotClash_notes ..)
  | trap code faultBit detail => exact hwide.trans (u.trapRises_notes ..)
  | _ => rw [hact] at h; cases h

theorem State.performAct_reads (s : State) (t : Nat) {e : TileEv} (h : e.act.reads = true) : Reads s (s.performAct t e) t := by
  by_cases hn : e.act.notes = true
  · exact (s.performAct_notes t hn).reads
  have hwide := (s.lastWide_notes t e).reads
  unfold State.performAct
  dsimp only
  generalize (if e.act.wide = true then s.setTile t { s.tile t with lastWide := some (e.slot, e.entry) } else s) = u at hwide
  cases hact : e.act with
  | arrRow arr op isB j row => exact hwide.trans (u.arrRead_reads ..)
  | mvuRow op i row => exact hwide.trans (u.mvuRead_reads ..)
  | veu op f =>
    rw [hact] at h
    obtain rfl : op = veVld := beq_iff_eq.mp h
    exact hwide.trans (u.vld_reads ..)
  | _ => rw [hact] at h hn; exact absurd h hn

theorem TileAct.reads_rank {a : TileAct} (h : a.reads = true) : a.rank ≠ 8 := by
  cases a <;> simp [TileAct.reads, TileAct.notes, TileAct.rank] at h ⊢

theorem TileAct.notes_rank {a : TileAct} (h : a.notes = true) : a.rank ≠ 8 := by
  cases a <;> simp [TileAct.notes, TileAct.rank] at h ⊢

theorem Tile.Read.flights {x y : Tile} (h : Tile.Read x y) : y.flights = x.flights := by
  obtain ⟨g0, g1, gm, v, -, -, -, ev, lw, ce, c, rfl⟩ := h
  rfl

theorem Tile.Recorded.flights {x y : Tile} (h : Tile.Recorded x y) : y.flights = x.flights := h.read.flights

/-- Where reads, clashes and traps are due, nothing else takes place. -/
theorem State.runEvents_reads {s : State} {t h : Nat} (n : Nat)
    (hdue : ∀ e ∈ (s.tile t).evs, e.slot ≤ h → e.act.reads = true ∧ ∀ f ∈ (s.tile t).flights, e.slot < f.slot + f.lat) :
    Leaves Tile.Read (readRegs t) s (State.runEvents t h n s) t ∧
      ∀ e ∈ (s.tile t).evs, h < e.slot → e ∈ ((State.runEvents t h n s).tile t).evs := by
  obtain ⟨hleaves, hlater, -⟩ := State.runEvents_served (R := fun s u => Leaves Tile.Read (readRegs t) s u t)
    (G := fun a => a.reads = true) (.refl .refl) (.trans .trans)
    (fun s l _ => .setTile s (Tile.Recorded.read ⟨l, _, _, _, rfl⟩))
    (fun s e hG => ⟨(s.performAct_reads t hG).1, (s.performAct_reads t hG).2, (s.performAct_reads t hG).1.2.2.1.flights⟩)
    (fun a => TileAct.reads_rank) n s hdue
  exact ⟨hleaves, hlater⟩

/-- Where clashes and traps are due, nothing else takes place. -/
theorem State.runEvents_notes {s : State} {t h : Nat} (n : Nat)
    (hdue : ∀ e ∈ (s.tile t).evs, e.slot ≤ h → e.act.notes = true ∧ ∀ f ∈ (s.tile t).flights, e.slot < f.slot + f.lat) :
    (Leaves Tile.Recorded (recordRegs t) s (State.runEvents t h n s) t ∧
      ∀ e ∈ (s.tile t).evs, h < e.slot → e ∈ ((State.runEvents t h n s).tile t).evs) ∧
      ∀ e ∈ ((State.runEvents t h n s).tile t).evs, e ∈ (s.tile t).evs := by
  obtain ⟨⟨hleaves, hfrom⟩, hlater, -⟩ := State.runEvents_served
    (R := fun s u => Leaves Tile.Recorded (recordRegs t) s u t ∧ ∀ e ∈ (u.tile t).evs, e ∈ (s.tile t).evs)
    (G := fun a => a.notes = true) (fun s => ⟨.refl .refl s, fun _ he => he⟩)
    (fun h h' => ⟨h.1.trans .trans h'.1, fun e he => h.2 e (h'.2 e he)⟩)
    (fun s l hl => ⟨.setTile s ⟨l, _, _, _, rfl⟩, fun e he => hl e (by rwa [State.tile_setTile, if_pos rfl] at he)⟩)
    (fun s e hG => by
      obtain ⟨hleaves, hevs⟩ := s.performAct_notes t hG
      exact ⟨⟨hleaves, fun e he => by rwa [hevs] at he⟩, hevs, hleaves.2.2.1.flights⟩)
    (fun a => TileAct.notes_rank) n s hdue
  exact ⟨⟨hleaves, hlater⟩, hfrom⟩

end Sys2Proof.Machine
end

section
/-! The issue of an entry whose effect brings events (R129, R132): on a quiet tile, and on a calm one where it clashes. -/
namespace Sys2Proof.Machine
open Sys2Proof.Safety

/-! On a quiet tile. -/

/-- The memories, the sequencer's place, the writes on their way and the stream engine are as they were. -/
def Placed (s v : State) (t : Nat) : Prop :=
  v.store = s.store ∧ v.dram = s.dram ∧ v.rd (Reg.SEQ_STATUS t) = s.rd (Reg.SEQ_STATUS t) ∧
  (v.tile t).nextHs = (s.tile t).nextHs ∧ (v.tile t).nextK = (s.tile t).nextK ∧ (v.tile t).overrunAt = (s.tile t).overrunAt ∧
  (v.tile t).flights = (s.tile t).flights ∧ (v.tile t).se = (s.tile t).se

theorem Placed.trans {s v w : State} {t : Nat} (h : Placed s v t) (h' : Placed v w t) : Placed s w t := by
  obtain ⟨h1, h2, h3, h4, h5, h6, h7, h8⟩ := h
  obtain ⟨k1, k2, k3, k4, k5, k6, k7, k8⟩ := h'
  exact ⟨k1.trans h1, k2.trans h2, k3.trans h3, k4.trans h4, k5.trans h5, k6.trans h6, k7.trans h7, k8.trans h8⟩

/-- A register beside the sequencer's. -/
theorem Placed.wr {s v : State} {t : Nat} (h : Placed s v t) {a : Nat} (ha : a ≠ Reg.SEQ_STATUS t) (w : Word) : Placed s (v.wr a w) t :=
  h.trans ⟨rfl, rfl, by rw [State.rd_wr, if_neg ha], rfl, rfl, rfl, rfl, rfl⟩

/-- The tile's record, its place beside. -/
theorem Placed.setTile {s v : State} {t : Nat} (h : Placed s v t) {x : Tile} (hx : x.nextHs = (v.tile t).nextHs ∧ x.nextK = (v.tile t).nextK ∧
    x.overrunAt = (v.tile t).overrunAt ∧ x.flights = (v.tile t).flights ∧ x.se = (v.tile t).se) : Placed s (v.setTile t x) t := by
  have htile : (v.setTile t x).tile t = x := (State.tile_setTile v t t x).trans (if_pos rfl)
  obtain ⟨h1, h2, h3, h4, h5⟩ := hx
  exact h.trans ⟨rfl, rfl, rfl, by rw [htile, h1], by rw [htile, h2], by rw [htile, h3], by rw [htile, h4], by rw [htile, h5]⟩

/-- The sequencer's register is none of those that reads and records write. -/
theorem SEQ_STATUS_notMem {t : Nat} (ht : t < 128) : Reg.SEQ_STATUS t ∉ readRegs t ∧ Reg.SEQ_STATUS t ∉ tickRegs t := by
  have hlog : Reg.SEQ_STATUS t ∉ logRegs := notMem_logRegs_tile ht (by simp [Reg.SEQ_STATUS])
  refine ⟨?_, ?_⟩
  · simpa [readRegs, recordRegs, Reg.SEQ_STATUS, Reg.MVU_ROW_COUNT, Reg.SEQ_CLASH, Reg.SEQ_CLASH_ENTRY, Reg.TILE_FAULT,
      Reg.ST_CE_COUNT, Reg.ST_CE_CHECK_COUNT, Reg.ST_UE_COUNT, Reg.ST_UE_ADDR, Reg.ST_UE_STATUS] using hlog
  · simp [tickRegs, Reg.SEQ_STATUS, Reg.SEQ_HS, Reg.VEU_STATUS, Reg.TILE_STATUS, Reg.MVU_STATUS, Reg.ARR_ACTIVE_HS, Reg.ARR_GATED_LO,
      Reg.ARR_GATED_HI]

/-- Reads and records leave the sequencer's place. -/
theorem Placed.read {s v w : State} {t : Nat} (h : Placed s v t) (ht : t < 128) (hr : Leaves Tile.Read (readRegs t) v w t) : Placed s w t := by
  obtain ⟨hs, hd, ⟨g0, g1, gm, vv, -, -, -, ev, lw, ce, c, htile⟩, hregs⟩ := hr
  exact h.trans ⟨hs, hd, hregs _ (SEQ_STATUS_notMem ht).1, by rw [htile], by rw [htile], by rw [htile], by rw [htile], by rw [htile]⟩

/-- Records leave the sequencer's place. -/
theorem Placed.recorded {s v w : State} {t : Nat} (h : Placed s v t) (ht : t < 128) (hr : Leaves Tile.Recorded (recordRegs t) v w t) :
    Placed s w t := h.read ht (hr.mono Tile.Recorded.read fun _ ha => List.mem_cons_of_mem _ ha)

/-- The issue itself leaves the memories. -/
theorem issued_bytes (s : State) (t hold : Nat) : (issued s t hold).store = s.store ∧ (issued s t hold).dram = s.dram := by
  obtain ⟨⟨hu, -⟩, -⟩ := issued_only s t hold
  exact ⟨by rw [hu], by rw [hu]⟩

/-- An entry of a quiet tile has issued once its handshake is carried on, where its place is shown and no write lands. -/
theorem issued_landing {s w : State} {t hold : Nat} (q : Quiet s t) (hlater : ∀ f ∈ (w.tile t).flights, slotOf s t < f.slot + f.lat)
    (hstore : w.store = (issued s t hold).store) (hdram : w.dram = (issued s t hold).dram)
    (hstatus : w.rd (Reg.SEQ_STATUS t) = (issued s t hold).rd (Reg.SEQ_STATUS t))
    (hhs : (w.tile t).nextHs = ((issued s t hold).tile t).nextHs) (hk : (w.tile t).nextK = ((issued s t hold).tile t).nextK)
    (hover : (w.tile t).overrunAt = ((issued s t hold).tile t).overrunAt) :
    Issued s (w.carried t (slotOf s t)) t hold ∧ BytesSame s (w.carried t (slotOf s t)) ∧
      (w.carried t (slotOf s t)).tile t = (w.tile t).carriedAt (slotOf s t) ∧ RegsSameBut w (w.carried t (slotOf s t)) (tickRegs t) := by
  obtain ⟨hcs, hcd, hcr⟩ := State.carried_bytes hlater
  have htile := State.carried_tile hlater
  have hI := slotOf_lt q
  obtain ⟨⟨ht, -, -, -, -, -, -, -, hindex, -⟩, -⟩ := q
  have hst := (hcr _ (SEQ_STATUS_notMem ht).2).trans hstatus
  rw [issued_tile] at hhs hk hover
  refine ⟨⟨State.carried_hs w t hI, (State.fld_of_rd hst 0 12).trans (issued_index hindex hold), ?_, ?_, ?_⟩,
    ⟨fun a => ?_, fun a => ?_⟩, htile, hcr⟩
  · rw [htile]; exact hhs
  · rw [htile]; exact hk
  · rw [htile]; exact hover
  · rw [hcs, hstore, (issued_bytes s t hold).1]
  · rw [hcd, hdram, (issued_bytes s t hold).2]

/-- An entry of a quiet tile has issued once its handshake is carried on, where its events leave the sequencer's place. -/
theorem issued_carried {s w : State} {t hold : Nat} (q : Quiet s t) (hp : Placed (issued s t hold) w t) :
    Issued s (w.carried t (slotOf s t)) t hold ∧ BytesSame s (w.carried t (slotOf s t)) ∧
      (w.carried t (slotOf s t)).tile t = (w.tile t).carriedAt (slotOf s t) ∧ RegsSameBut w (w.carried t (slotOf s t)) (tickRegs t) := by
  obtain ⟨hstore, hdram, hstatus, hhs, hk, hover, hfl, -⟩ := hp
  obtain ⟨-, hnone, -⟩ := issued_resting q hold
  refine issued_landing q ?_ hstore hdram hstatus hhs hk hover
  rw [hfl, hnone]
  exact fun f hf => absurd hf List.not_mem_nil

/-- What an entry of a quiet tile comes to: its effect, the events that are due, and what follows them. -/
theorem State.issueEntry_carried {s : State} {t : Nat} (q : Quiet s t) (hold : Nat) {body : State → Nat → Nat → Nat → State} {v : State}
    (hv : body (issued s t hold) (slotOf s t) (s.tile t).nextK (s.tile t).order = v) (hp : Placed (issued s t hold) v t) :
    s.issueEntry t hold body = (State.runEvents t (slotOf s t) eventFuel v).carried t (slotOf s t) := by
  obtain ⟨-, -, -, -, -, -, -, hse⟩ := hp
  obtain ⟨-, -, -, -, -, hab⟩ := issued_resting q hold
  rw [State.issueEntry_quiet q, hv, State.advanceTo_carried (by rw [hse]; exact hab)]

/-! On a calm tile. -/

/-- The sequencer shows an entry's index, counts it and moves on (R129). -/
def State.seqEnter (w : State) (t k next : Nat) : State :=
  ((w.setFld (Reg.SEQ_STATUS t) 0 12 k).setTile t { w.tile t with order := (w.tile t).order + 1 }).seqNext t k next

/-- The record of a tile whose sequencer moves on. -/
theorem State.seqEnter_tile (w : State) (t k next : Nat) : (w.seqEnter t k next).tile t = { w.tile t with
    order := (w.tile t).order + 1, nextHs := next, nextK := (k + 1) % 4096
    overrunAt := if w.lastEntry t k then some next else none } := by
  have hlast : ((w.setFld (Reg.SEQ_STATUS t) 0 12 k).setTile t { w.tile t with order := (w.tile t).order + 1 }).lastEntry t k =
      w.lastEntry t k := by
    have hrd {a : Nat} (hne : Reg.SEQ_STATUS t ≠ a) :
        ((w.setFld (Reg.SEQ_STATUS t) 0 12 k).setTile t { w.tile t with order := (w.tile t).order + 1 }).rd a = w.rd a := by
      rw [State.setTile_rd, State.rd_setFld, if_neg hne]
    refine State.lastEntry_congr (hrd ?_) (fun v hv => hrd ?_) _
    all_goals simp [Reg.SEQ_BEAT_STATUS, Reg.SEQ_VAR, Reg.SEQ_STATUS]
    all_goals omega
  rw [State.seqEnter]
  simp only [State.seqNext, hlast, State.tile_setTile, if_pos]

/-- What the sequencer leaves as it moves on, beside the index that it shows. -/
theorem State.seqEnter_frame (w : State) (t : Nat) {k : Nat} (next : Nat) (hk : k < 4096) : (w.seqEnter t k next).store = w.store ∧
    (w.seqEnter t k next).dram = w.dram ∧ RegsSameBut w (w.seqEnter t k next) [Reg.SEQ_STATUS t] ∧
    (w.seqEnter t k next).fld (Reg.SEQ_STATUS t) 0 12 = k := by
  have hrd (a : Nat) : (w.seqEnter t k next).rd a = (w.setFld (Reg.SEQ_STATUS t) 0 12 k).rd a := rfl
  refine ⟨rfl, rfl, fun a ha => ?_, ?_⟩
  · rw [hrd, State.rd_setFld, if_neg fun h : Reg.SEQ_STATUS t = a => ha (h ▸ List.mem_cons_self ..)]
  · rw [State.fld_of_rd (hrd _), State.fld_setFld_self _ _ _ (by decide)]
    exact Nat.mod_eq_of_lt hk

/-- Where every event is to come later, none takes place. -/
theorem State.runEvents_quiet {s : State} {t h : Nat} (n : Nat) (hl : ∀ e ∈ (s.tile t).evs, h < e.slot) : State.runEvents t h n s = s := by
  cases hev : (s.tile t).evs with
  | nil => exact State.runEvents_nil _ _ _ _ hev
  | cons e r => exact State.runEvents_later _ _ _ _ e r hev (hl e (by rw [hev]; exact List.mem_cons_self ..))

/-- An advance of a tile whose events are all to come later. -/
theorem State.advanceTo_quiet {s : State} {t h : Nat} (ha : (s.tile t).se.aborts = []) (hl : ∀ e ∈ (s.tile t).evs, h < e.slot) :
    s.advanceTo t h = s.carried t h := by
  rw [State.advanceTo_carried ha, State.runEvents_quiet _ hl]

/-- The issue of an entry, given the state at its handshake. -/
theorem State.issueEntry_advanced {s w : State} {t : Nat} (hready : s.seqReady t = true) (hold : Nat)
    (body : State → Nat → Nat → Nat → State) (hadv : s.advanceTo t (slotOf s t) = w) (hups : (w.tile t).memUpsets = []) :
    s.issueEntry t hold body = (body (w.seqEnter t (s.tile t).nextK (slotOf s t + hold)) (slotOf s t) (s.tile t).nextK
      (w.tile t).order).advanceTo t (slotOf s t) := by
  have hfetch : w.fetchCheck t 1 (2 * (s.tile t).nextK) 2 = (false, w) := by
    simp only [State.fetchCheck, hups, List.filter_nil, List.any_nil, List.foldl_nil]
  have hI : max (s.tile t).nextHs (s.hs t) = slotOf s t := rfl
  simp only [State.issueEntry, hready, if_true, hI, hadv, hfetch, Bool.false_eq_true, if_false, State.setFld_tile_of, State.seqEnter]

/-- The state in which an entry of a calm tile takes its effect. -/
def entered (s : State) (t hold : Nat) : State := (s.carried t (slotOf s t)).seqEnter t (s.tile t).nextK (slotOf s t + hold)

/-- What the issue of an entry of a calm tile is (R129). -/
theorem State.issueEntry_calm {s : State} {t : Nat} (c : Safety.Calm s t) (hold : Nat) (body : State → Nat → Nat → Nat → State) :
    s.issueEntry t hold body =
      (body (entered s t hold) (slotOf s t) (s.tile t).nextK (s.tile t).order).advanceTo t (slotOf s t) := by
  obtain ⟨-, hready, hev, hfl, -, hups, hab, -, -, -⟩ := c
  have htile := State.carried_tile hfl
  rw [State.issueEntry_advanced hready hold body (State.advanceTo_quiet hab hev) (by rw [htile]; exact hups), htile]
  rfl

/-- A calm tile's operations of the MVU stay. -/
theorem carriedAt_calm {s : State} {t : Nat} (c : Calm s t) : (s.tile t).carriedAt (slotOf s t) =
    { s.tile t with arr0 := (s.tile t).arr0.ticked (slotOf s t), arr1 := (s.tile t).arr1.ticked (slotOf s t) } := by
  obtain ⟨-, -, -, -, hops, -⟩ := c
  rw [Tile.carriedAt, List.filter_eq_self.mpr fun o ho => decide_eq_true (hops o ho)]

/-- The record of a calm tile in which an entry takes its effect. -/
theorem entered_tile {s : State} {t : Nat} (c : Calm s t) (hold : Nat) :
    (entered s t hold).tile t = { s.tile t with
      order := (s.tile t).order + 1, nextHs := slotOf s t + hold, nextK := ((s.tile t).nextK + 1) % 4096
      overrunAt := if s.lastEntry t (s.tile t).nextK then some (slotOf s t + hold) else none
      arr0 := (s.tile t).arr0.ticked (slotOf s t), arr1 := (s.tile t).arr1.ticked (slotOf s t) } := by
  have hcarried := carriedAt_calm c
  obtain ⟨-, -, -, hfl, -⟩ := c
  obtain ⟨-, -, hregs⟩ := State.carried_bytes hfl
  have hlast : (s.carried t (slotOf s t)).lastEntry t (s.tile t).nextK = s.lastEntry t (s.tile t).nextK := by
    refine State.lastEntry_congr (hregs _ ?_) (fun v hv => hregs _ ?_) _
    all_goals simp [tickRegs, Reg.SEQ_BEAT_STATUS, Reg.SEQ_VAR, Reg.SEQ_HS, Reg.VEU_STATUS, Reg.TILE_STATUS, Reg.MVU_STATUS,
      Reg.ARR_ACTIVE_HS, Reg.ARR_GATED_LO, Reg.ARR_GATED_HI]
    all_goals omega
  rw [entered, State.seqEnter_tile, hlast, State.carried_tile hfl, hcarried]

/-- The registers in which an entry of a calm tile takes its effect. -/
theorem entered_regs {s : State} {t : Nat} (c : Calm s t) (hold : Nat) : (entered s t hold).store = s.store ∧
    (entered s t hold).dram = s.dram ∧ RegsSameBut s (entered s t hold) (Reg.SEQ_STATUS t :: tickRegs t) ∧
    (entered s t hold).fld (Reg.SEQ_STATUS t) 0 12 = (s.tile t).nextK := by
  obtain ⟨-, -, -, hfl, -, -, -, -, hk, -⟩ := c
  obtain ⟨hs, hd, hregs⟩ := State.carried_bytes hfl
  obtain ⟨hes, hed, heregs, hindex⟩ := (s.carried t (slotOf s t)).seqEnter_frame t (slotOf s t + hold) hk
  exact ⟨hes.trans hs, hed.trans hd,
    fun a ha => (heregs a fun h => ha (List.mem_cons.mpr (.inl (List.mem_singleton.mp h)))).trans
      (hregs a fun h => ha (List.mem_cons_of_mem _ h)), hindex⟩

theorem ArrSt.ticked_ticked (a : ArrSt) (h : Nat) : (a.ticked h).ticked h = a.ticked h := by
  simp only [ArrSt.ticked, List.map_map]
  rfl

/-- The registers of a clash are neither the sequencer's nor the log's. -/
theorem clashRegs_notMem {t a : Nat} (ht : t < 128) (ha : a = Reg.SEQ_CLASH t ∨ a = Reg.SEQ_CLASH_ENTRY t ∨ a = Reg.TILE_FAULT t) :
    a ∉ Reg.SEQ_STATUS t :: tickRegs t ∧ a ∉ logRegs := by
  refine ⟨?_, notMem_logRegs_tile ht ?_⟩
  · rcases ha with rfl | rfl | rfl <;>
      simp [tickRegs, Reg.SEQ_CLASH, Reg.SEQ_CLASH_ENTRY, Reg.TILE_FAULT, Reg.SEQ_STATUS, Reg.SEQ_HS, Reg.VEU_STATUS, Reg.TILE_STATUS,
        Reg.MVU_STATUS, Reg.ARR_ACTIVE_HS, Reg.ARR_GATED_LO, Reg.ARR_GATED_HI]
  · rcases ha with rfl | rfl | rfl <;> simp [Reg.SEQ_CLASH, Reg.SEQ_CLASH_ENTRY, Reg.TILE_FAULT]

/-- A slot clash leaves the sequencer's register. -/
theorem State.slotClash_status (s : State) {t : Nat} (ht : t < 128) (cause first second h : Nat) :
    (s.slotClash t cause first second h).rd (Reg.SEQ_STATUS t) = s.rd (Reg.SEQ_STATUS t) := by
  obtain ⟨hregs, -⟩ := s.slotClash_frame t cause first second h
  rw [hregs _ (notMem_logRegs_tile ht (by simp [Reg.SEQ_STATUS])), State.clashRegs, State.rd_setBit,
    if_neg (by simp [Reg.TILE_FAULT, Reg.SEQ_STATUS])]
  split
  · rfl
  · rw [State.rd_wr, if_neg (by simp [Reg.SEQ_CLASH_ENTRY, Reg.SEQ_STATUS]), State.rd_wr, if_neg (by simp [Reg.SEQ_CLASH, Reg.SEQ_STATUS])]

/-- An entry of a calm tile that clashes (R132): it issues, the clash is recorded, and the units go on. -/
theorem State.issueEntry_clash {s : State} {t : Nat} (c : Safety.Calm s t) {cause first : Nat} (hc : cause < 4) (hf : first < 4096)
    {body : State → Nat → Nat → Nat → State}
    (hb : body (entered s t 1) (slotOf s t) (s.tile t).nextK (s.tile t).order =
      (entered s t 1).slotClash t cause first (s.tile t).nextK (slotOf s t)) :
    let u := s.issueEntry t 1 body
    Issued s u t 1 ∧ BytesSame s u ∧ Clashed s u t cause first (s.tile t).nextK (slotOf s t) ∧
      (u.tile t).arr0 = (s.tile t).arr0.ticked (slotOf s t) ∧ (u.tile t).arr1 = (s.tile t).arr1.ticked (slotOf s t) ∧
      (u.tile t).mvu = (s.tile t).mvu ∧ (u.tile t).veu = (s.tile t).veu := by
  have hetile := entered_tile c 1
  obtain ⟨hstore, hdram, hentered, hindex⟩ := entered_regs c 1
  rw [State.issueEntry_calm c, hb]
  generalize entered s t 1 = w at hetile hstore hdram hentered hindex
  obtain ⟨ht, -, hev, hfl, hops, -, hab, hn, hk, -⟩ := c
  generalize hIs : slotOf s t = I at *
  have hI : I < 2 ^ 20 := hIs ▸ max_lt hn (s.fld_lt (Reg.SEQ_HS t) 0 20)
  obtain ⟨hregs, hbytes, htile⟩ := w.slotClash_frame t cause first (s.tile t).nextK I
  have hstatus := w.slotClash_status ht cause first (s.tile t).nextK I
  have hshown := w.clashRegs_shown t hc hf hk hI
  generalize w.slotClash t cause first (s.tile t).nextK I = v at hregs hbytes htile hstatus
  rw [hetile] at htile
  have hvfl : ∀ f ∈ (v.tile t).flights, I < f.slot + f.lat := by rw [htile]; exact hfl
  rw [State.advanceTo_quiet (by rw [htile]; exact hab) (by rw [htile]; exact hev)]
  obtain ⟨hcs, hcd, hcr⟩ := State.carried_bytes hvfl
  have hutile : (v.carried t I).tile t = v.tile t := by
    rw [State.carried_tile hvfl, htile, Tile.carriedAt]
    dsimp only
    rw [List.filter_eq_self.mpr fun o ho => decide_eq_true (hops o ho), ArrSt.ticked_ticked, ArrSt.ticked_ticked]
  have hhs := State.carried_hs v t hI
  generalize v.carried t I = u at hcs hcd hcr hutile hhs
  rw [htile] at hutile
  have hust := (hcr _ (SEQ_STATUS_notMem ht).2).trans hstatus
  refine ⟨⟨hhs.trans hIs.symm, (State.fld_of_rd hust 0 12).trans hindex, ?_, ?_, ?_⟩, ⟨fun a => ?_, fun a => ?_⟩, ?_, ?_, ?_, ?_, ?_⟩
  · rw [hutile, hIs]
  · rw [hutile]
  · rw [hutile, hIs]
  · rw [hcs, hbytes.1, hstore]
  · rw [hcd, hbytes.2, hdram]
  · refine Clashed.congr hshown (hentered _ (clashRegs_notMem ht (.inl rfl)).1).symm (hentered _ (clashRegs_notMem ht (.inr (.inl rfl))).1).symm
      fun a ha => ?_
    obtain ⟨hnot, hlog⟩ := clashRegs_notMem ht ha
    rw [hcr a fun h => hnot (List.mem_cons_of_mem _ h), hregs a hlog]
  · rw [hutile]
  · rw [hutile]
  · rw [hutile]
  · rw [hutile]

end Sys2Proof.Machine
end

section
/-! Entries of a quiet tile whose events take place in the handshake of the issue (R66, R67, R129). -/
namespace Sys2Proof.Machine
open Sys2Proof.Safety

/-! The arrays of a tile. -/

@[simp] theorem Tile.setArr_arr (x : Tile) (arr : Nat) (a : ArrSt) : (x.setArr arr a).arr arr = a := by
  unfold Tile.setArr Tile.arr
  split <;> rfl

/-- An array whose counters follow the handshake. -/
theorem Tile.arr_ticked {x y : Tile} {h : Nat} (h0 : y.arr0 = x.arr0.ticked h) (h1 : y.arr1 = x.arr1.ticked h) (arr : Nat) :
    y.arr arr = (x.arr arr).ticked h := by
  unfold Tile.arr
  split
  · exact h0
  · exact h1

/-- An array after reads: its operations in progress keep what they were issued with, and the rest stays. -/
theorem Tile.Read.arr {x y : Tile} (h : Tile.Read x y) (arr : Nat) :
    ∃ g, MmaKept g ∧ y.arr arr = { x.arr arr with mmas := (x.arr arr).mmas.map g } := by
  obtain ⟨g0, g1, gm, v, h0, h1, -, ev, lw, ce, c, rfl⟩ := h
  unfold Tile.arr
  split
  · exact ⟨g0, h0, rfl⟩
  · exact ⟨g1, h1, rfl⟩

/-- An array after records. -/
theorem Tile.Recorded.arr {x y : Tile} (h : Tile.Recorded x y) (arr : Nat) : y.arr arr = x.arr arr := by
  obtain ⟨ev, lw, ce, c, rfl⟩ := h
  rfl

/-- An array once its handshake's events have taken place. -/
theorem Tile.carriedAt_arr (x : Tile) (h arr : Nat) : (x.carriedAt h).arr arr = (x.arr arr).ticked h := Tile.arr_ticked rfl rfl arr

/-- The replacement of an array leaves the tile's place. -/
theorem Tile.setArr_place (x : Tile) (arr : Nat) (a : ArrSt) : (x.setArr arr a).nextHs = x.nextHs ∧ (x.setArr arr a).nextK = x.nextK ∧
    (x.setArr arr a).overrunAt = x.overrunAt ∧ (x.setArr arr a).flights = x.flights ∧ (x.setArr arr a).se = x.se := by
  unfold Tile.setArr
  split <;> exact ⟨rfl, rfl, rfl, rfl, rfl⟩

/-- The replacement of an array leaves the last wide access. -/
theorem Tile.setArr_lastWide (x : Tile) (arr : Nat) (a : ArrSt) : (x.setArr arr a).lastWide = x.lastWide := by
  unfold Tile.setArr
  split <;> rfl

/-! The issue. -/

/-- The replacement of a tile's record. -/
theorem OnlyTile.setTile (s : State) (t : Nat) (x : Tile) : OnlyTile s (s.setTile t x) t :=
  ⟨rfl, fun k hk => by rw [State.tile_setTile, if_neg (Ne.symm hk)]⟩

/-- The number of an operation is given (R66). -/
def Tile.numbered (x : Tile) : Tile := { x with order := x.order + 1 }

/-- Where a clash has taken an event's place, no claim but it is due. -/
theorem EvsFrom.due {l ev : List TileEv} (h : EvsFrom l ev) {I : Nat} (hl : ∀ e ∈ l, e.act.reads = true ∨ I < e.slot) {e : TileEv}
    (he : e ∈ ev) (hs : e.slot ≤ I) : e.act.reads = true := by
  obtain ⟨z, hz, hslot, rfl | ⟨n, hn⟩⟩ := h.1 e he
  · exact (hl _ hz).resolve_right (Nat.not_lt.mpr hs)
  · rw [hn]; rfl

theorem Placed.refl (s : State) (t : Nat) : Placed s s t := ⟨rfl, rfl, rfl, rfl, rfl, rfl, rfl, rfl⟩

/-- An entry of a quiet tile, given the state that its effect and the events that are due come to. -/
theorem State.issueEntry_run {s : State} {t : Nat} (q : Quiet s t) (hold : Nat) {body : State → Nat → Nat → Nat → State} {v w : State}
    (hv : body (issued s t hold) (slotOf s t) (s.tile t).nextK (s.tile t).order = v) (hp : Placed (issued s t hold) v t)
    (hw : State.runEvents t (slotOf s t) eventFuel v = w) (hpw : Placed (issued s t hold) w t) :
    let u := s.issueEntry t hold body
    Issued s u t hold ∧ BytesSame s u ∧ u.tile t = (w.tile t).carriedAt (slotOf s t) ∧ RegsSameBut w u (tickRegs t) := by
  rw [State.issueEntry_carried q hold hv hp, hw]
  exact issued_carried q hpw

/-- An entry of a quiet tile, of whose events those that are due leave what a relation says. -/
theorem State.issueEntry_left {R : Tile → Tile → Prop} {s : State} {t : Nat} (q : Quiet s t) (hold : Nat)
    {body : State → Nat → Nat → Nat → State} {v : State}
    (hv : body (issued s t hold) (slotOf s t) (s.tile t).nextK (s.tile t).order = v) (hp : Placed (issued s t hold) v t)
    (hR : ∀ {x y}, R x y → Tile.Read x y)
    (hrun : Leaves R (readRegs t) v (State.runEvents t (slotOf s t) eventFuel v) t ∧
      ∀ e ∈ (v.tile t).evs, slotOf s t < e.slot → e ∈ ((State.runEvents t (slotOf s t) eventFuel v).tile t).evs) :
    let u := s.issueEntry t hold body
    ∃ w : State, Issued s u t hold ∧ BytesSame s u ∧ R (v.tile t) (w.tile t) ∧ u = w.carried t (slotOf s t) ∧
      u.tile t = (w.tile t).carriedAt (slotOf s t) ∧ (∀ e ∈ (v.tile t).evs, slotOf s t < e.slot → e ∈ (u.tile t).evs) ∧
      RegsSameBut v u (readRegs t ++ tickRegs t) := by
  have ht : t < 128 := by obtain ⟨⟨ht, -⟩, -⟩ := q; exact ht
  obtain ⟨hleaves, hlater⟩ := hrun
  obtain ⟨hissued, hbytes, htile, hregs⟩ := State.issueEntry_run q hold hv hp rfl (hp.read ht (hleaves.mono hR fun _ ha => ha))
  obtain ⟨-, -, hread, hreg⟩ := hleaves
  refine ⟨_, hissued, hbytes, hread, State.issueEntry_carried q hold hv hp, htile, fun e he hs => ?_, fun a ha => ?_⟩
  · rw [htile]
    exact hlater e he hs
  · rw [List.mem_append, not_or] at ha
    exact (hregs a ha.2).trans (hreg a ha.1)

/-- No write is on its way once an entry of a quiet tile has taken its effect. -/
theorem Placed.no_flights {s v : State} {t hold : Nat} (q : Quiet s t) (hp : Placed (issued s t hold) v t) : (v.tile t).flights = [] := by
  obtain ⟨-, -, -, -, -, -, hfl, -⟩ := hp
  obtain ⟨-, hnone, -⟩ := issued_resting q hold
  exact hfl.trans hnone

/-- An entry of a quiet tile whose effect brings nothing but reads and clashes in its own handshake. -/
theorem State.issueEntry_reads {s : State} {t : Nat} (q : Quiet s t) (hold : Nat) {body : State → Nat → Nat → Nat → State} {v : State}
    (hv : body (issued s t hold) (slotOf s t) (s.tile t).nextK (s.tile t).order = v) (hp : Placed (issued s t hold) v t)
    (hdue : ∀ e ∈ (v.tile t).evs, e.slot ≤ slotOf s t → e.act.reads = true) :
    let u := s.issueEntry t hold body
    ∃ w : State, Issued s u t hold ∧ BytesSame s u ∧ Tile.Read (v.tile t) (w.tile t) ∧ u = w.carried t (slotOf s t) ∧
      u.tile t = (w.tile t).carriedAt (slotOf s t) ∧ (∀ e ∈ (v.tile t).evs, slotOf s t < e.slot → e ∈ (u.tile t).evs) ∧
      RegsSameBut v u (readRegs t ++ tickRegs t) :=
  State.issueEntry_left q hold hv hp id (State.runEvents_reads _ fun e he hs =>
    ⟨hdue e he hs, fun f hf => by rw [hp.no_flights q] at hf; exact absurd hf List.not_mem_nil⟩)

/-- An entry of a quiet tile whose effect brings nothing but clashes and traps in its own handshake. -/
theorem State.issueEntry_notes {s : State} {t : Nat} (q : Quiet s t) (hold : Nat) {body : State → Nat → Nat → Nat → State} {v : State}
    (hv : body (issued s t hold) (slotOf s t) (s.tile t).nextK (s.tile t).order = v) (hp : Placed (issued s t hold) v t)
    (hdue : ∀ e ∈ (v.tile t).evs, e.slot ≤ slotOf s t → e.act.notes = true) :
    let u := s.issueEntry t hold body
    ∃ w : State, Issued s u t hold ∧ BytesSame s u ∧ Tile.Recorded (v.tile t) (w.tile t) ∧ u = w.carried t (slotOf s t) ∧
      u.tile t = (w.tile t).carriedAt (slotOf s t) ∧ (∀ e ∈ (v.tile t).evs, slotOf s t < e.slot → e ∈ (u.tile t).evs) ∧
      RegsSameBut v u (readRegs t ++ tickRegs t) := by
  obtain ⟨⟨hleaves, hlater⟩, -⟩ := State.runEvents_notes (s := v) (t := t) (h := slotOf s t) eventFuel fun e he hs =>
    ⟨hdue e he hs, fun f hf => by rw [hp.no_flights q] at hf; exact absurd hf List.not_mem_nil⟩
  exact State.issueEntry_left q hold hv hp Tile.Recorded.read ⟨hleaves.mono id fun _ ha => List.mem_cons_of_mem _ ha, hlater⟩

/-- What an array's status register shows: bit 0 while an MMA or a drain is under way (R56). -/
theorem State.arrStatus_busy (s : State) (t arr : Nat) (h : ((s.tile t).arr arr).mmas ≠ []) :
    (s.arrStatus t arr).bit (Reg.ARR_STATUS t arr) 0 = true := by
  have hbusy : ((s.tile t).arr arr).mmas.isEmpty = false := by rwa [List.isEmpty_eq_false_iff]
  rw [State.arrStatus, State.bit, State.rd_wr, if_pos rfl, Word.bit_eq_field, Word.field, BitVec.toNat_ofNat, decide_eq_true_eq, hbusy]
  simp only [Bool.not_false, Bool.true_or, Bool.toNat_true]
  omega

/-- The status registers of the arrays are none of those that reads, records and time write. -/
theorem ARR_STATUS_notMem {t arr : Nat} (ht : t < 128) (ha : arr < 2) :
    Reg.ARR_STATUS t arr ∉ readRegs t ++ tickRegs t ∧ Reg.SEQ_STATUS t ≠ Reg.ARR_STATUS t arr := by
  have hlog : Reg.ARR_STATUS t arr ∉ logRegs := notMem_logRegs_tile ht (by simp [Reg.ARR_STATUS]; omega)
  refine ⟨?_, ?_⟩
  · simp only [List.mem_append, readRegs, recordRegs, tickRegs, List.mem_cons, hlog, List.not_mem_nil, or_false, false_or]
    simp [Reg.ARR_STATUS, Reg.MVU_ROW_COUNT, Reg.SEQ_CLASH, Reg.SEQ_CLASH_ENTRY, Reg.TILE_FAULT,
      Reg.ST_CE_COUNT, Reg.ST_CE_CHECK_COUNT, Reg.ST_UE_COUNT, Reg.ST_UE_ADDR, Reg.ST_UE_STATUS, Reg.SEQ_HS, Reg.VEU_STATUS,
      Reg.TILE_STATUS, Reg.MVU_STATUS, Reg.ARR_ACTIVE_HS, Reg.ARR_GATED_LO, Reg.ARR_GATED_HI]
    omega
  · simp [Reg.ARR_STATUS, Reg.SEQ_STATUS]
    omega

end Sys2Proof.Machine
end

section
/-! Traps that fall due (R103), and the capture of a drain (R67). -/
namespace Sys2Proof.Machine
open Sys2Proof.Safety

/-- A tile's record but for traps that are to come, each before a handshake. -/
def Tile.Trapped (b : Nat) (x y : Tile) : Prop :=
  ∃ ev, y = { x with evs := ev } ∧ (∀ e ∈ ev, e ∈ x.evs ∨ e.act.notes = true ∧ e.slot < b) ∧ ∀ e ∈ x.evs, e ∈ ev

theorem Tile.Trapped.refl {b : Nat} (x : Tile) : Tile.Trapped b x x := ⟨_, rfl, fun _ he => .inl he, fun _ he => he⟩

theorem Tile.Trapped.trans {b : Nat} {x y z : Tile} (h : Tile.Trapped b x y) (h' : Tile.Trapped b y z) : Tile.Trapped b x z := by
  obtain ⟨ev, rfl, hfrom, hkept⟩ := h
  obtain ⟨ev', rfl, hfrom', hkept'⟩ := h'
  refine ⟨ev', rfl, fun e he => ?_, fun e he => hkept' e (hkept e he)⟩
  rcases hfrom' e he with he | hn
  · exact hfrom e he
  · exact .inr hn

/-- Traps leave the rest of the record. -/
theorem Tile.Trapped.recorded {b : Nat} {x y : Tile} (h : Tile.Trapped b x y) : Tile.Recorded x y := by
  obtain ⟨ev, rfl, -⟩ := h
  exact ⟨_, _, _, _, rfl⟩

/-- A trap is to come. -/
theorem State.numTrap_trapped (s : State) (t h entry code faultBit : Nat) (detail : List Byte) (l : List Nat) :
    Leaves (Tile.Trapped (h + 5)) l s (s.numTrap t h entry code faultBit detail) t := by
  refine ⟨rfl, rfl, ?_, fun _ _ => rfl⟩
  have htile : (s.numTrap t h entry code faultBit detail).tile t = (s.tile t).addEv
      ⟨h + Config.freeNat s.free % 5, (s.tile t).order, entry, .trap code faultBit detail⟩ := (State.tile_setTile s t t _).trans (if_pos rfl)
  have hfree := Tile.addEv_free (x := s.tile t) (e := ⟨h + Config.freeNat s.free % 5, (s.tile t).order, entry, .trap code faultBit detail⟩)
    fun hw => absurd hw Bool.false_ne_true
  rw [htile, hfree]
  refine ⟨_, rfl, fun e he => ?_, fun e he => mem_insertEv.mpr (.inr he)⟩
  rcases mem_insertEv.mp he with rfl | he
  · exact .inr ⟨rfl, Nat.add_lt_add_left (Nat.mod_lt _ (by decide)) h⟩
  · exact .inl he

/-- A check that raises a trap or none (R103). -/
theorem State.specialTrap_trapped (s : State) (t h entry : Nat) (nanEn infEn : Bool) (faultBit : Nat) (f : SpecialFind)
    (detail : Nat → List Byte) (l : List Nat) : Leaves (Tile.Trapped (h + 5)) l s (s.specialTrap t h entry nanEn infEn faultBit f detail) t := by
  unfold State.specialTrap
  split
  · exact s.numTrap_trapped ..
  · split
    · exact s.numTrap_trapped ..
    · exact .refl .refl s

/-- The register of special values (R102). -/
theorem State.recordSpecial_trapped (s : State) (t a : Nat) (f : SpecialFind) (pos : Nat → Nat) {l : List Nat} (ha : a ∈ l) {b : Nat} :
    Leaves (Tile.Trapped b) l s (s.recordSpecial a f pos) t := by
  unfold State.recordSpecial
  split
  · exact .refl .refl s
  · exact .wr .refl s ha _

/-- One of two ways on. -/
theorem Leaves.ite {R : Tile → Tile → Prop} {l : List Nat} {s u v : State} {t : Nat} {c : Prop} [Decidable c] (h : Leaves R l s u t)
    (h' : Leaves R l s v t) : Leaves R l s (if c then u else v) t := by
  split
  · exact h
  · exact h'

/-- A record that is not fatal to the device. -/
theorem State.logTile_trapped (s : State) (t code : Nat) {sev : Nat} (detail : List Byte) (h : sev ≠ sevDevice) {l : List Nat}
    (hl : ∀ a ∈ logRegs, a ∈ l) {b : Nat} : Leaves (Tile.Trapped b) l s (s.logTile t code sev detail) t := by
  obtain ⟨htiles, hstore, hdram, hrd⟩ := s.logTile_frame t code detail h
  exact .of_eq .refl hstore hdram htiles fun a ha => hrd a fun hm => ha (hl a hm)

/-! The capture of a drain. -/

/-- The drains of an array after the capture of one (R67). -/
def ArrSt.captured (a : ArrSt) (op : Nat) (d : DrainOp) : ArrSt :=
  { a with drains :=
      if drainRows d.f.outFmt = 0 then a.drains.filter (fun q => q.id != op)
      else a.drains.map (fun q => if q.id = op then { q with rows := drainContents d.f (a.int d.f.accSet) (a.acc d.f.accSet) } else q) }

/-- The capture leaves the accumulators. -/
theorem ArrSt.captured_acc (a : ArrSt) (op : Nat) (d : DrainOp) (h : Nat) (set : Bool) : ((a.captured op d).ticked h).acc set = a.acc set := by
  cases set <;> rfl

/-- The registers that a capture writes. -/
def captureRegs (t arr : Nat) : List Nat := Reg.ARR_STATUS t arr :: Reg.ARR_INT_OVF t arr :: Reg.ARR_SPECIAL t arr :: logRegs

/-- The record of an overflow, the register of special values and the trap of a capture (R92, R102, R103). -/
def State.captureChecks (w : State) (t arr : Nat) (a : ArrSt) (d : DrainOp) : State :=
  let v := if a.ovf d.f.accSet then
      (w.setBit (Reg.ARR_INT_OVF t arr) 0 true).logTile t 0x0203 sevContained
        ((w.setBit (Reg.ARR_INT_OVF t arr) 0 true).numDetail t arr d.entry d.f.accSet.toNat 0xFFFF 0xFFFF)
    else w
  if a.int d.f.accSet then v
  else
    let f := findSpecial ((List.range 1024).map (fun i => ((a.acc d.f.accSet).getD i 0).toNat))
    let u := v.recordSpecial (Reg.ARR_SPECIAL t arr) f (fun i => i / 32 * 2 ^ 8 + i % 32 * 2 ^ 16 + d.f.accSet.toNat * 2 ^ 24)
    u.specialTrap t d.at_ d.entry (u.bit (Reg.ARR_CTRL t arr) 0) (u.bit (Reg.ARR_CTRL t arr) 1) 4 f
      (fun i => u.numDetail t arr d.entry d.f.accSet.toNat (i / 32) (i % 32))

theorem State.drainCapture_eq {s : State} {t arr op : Nat} {d : DrainOp} (h : ((s.tile t).arr arr).findDrain op = some d) :
    s.drainCapture t arr op = ((s.setTile t ((s.tile t).setArr arr (((s.tile t).arr arr).captured op d))).captureChecks t arr
      ((s.tile t).arr arr) d).arrStatus t arr := by
  unfold State.drainCapture
  dsimp only
  rw [h]
  rfl

theorem State.captureChecks_trapped (w : State) (t arr : Nat) (a : ArrSt) (d : DrainOp) :
    Leaves (Tile.Trapped (d.at_ + 5)) (captureRegs t arr) w (w.captureChecks t arr a d) t := by
  have hlog : ∀ r ∈ logRegs, r ∈ captureRegs t arr := fun r hr => by simp [captureRegs, hr]
  have hovf : Leaves (Tile.Trapped (d.at_ + 5)) (captureRegs t arr) w (w.setBit (Reg.ARR_INT_OVF t arr) 0 true) t :=
    .wr .refl w (by simp [captureRegs]) _
  have hrec := (hovf.trans .trans (State.logTile_trapped _ t 0x0203
    ((w.setBit (Reg.ARR_INT_OVF t arr) 0 true).numDetail t arr d.entry d.f.accSet.toNat 0xFFFF 0xFFFF) sev_below_device.2.1 hlog)).ite
    (c := a.ovf d.f.accSet = true) (.refl .refl w)
  refine Leaves.ite hrec (hrec.trans .trans ?_)
  exact (State.recordSpecial_trapped _ t _ _ _ (by simp [captureRegs])).trans .trans (State.specialTrap_trapped ..)

/-- What a capture leaves: the drain's rows, traps to come, and what the registers show (R67, R102, R103). -/
theorem State.drainCapture_leaves {s : State} {t arr op : Nat} {d : DrainOp} (h : ((s.tile t).arr arr).findDrain op = some d) :
    (s.drainCapture t arr op).store = s.store ∧ (s.drainCapture t arr op).dram = s.dram ∧
      Tile.Trapped (d.at_ + 5) ((s.tile t).setArr arr (((s.tile t).arr arr).captured op d)) ((s.drainCapture t arr op).tile t) ∧
      RegsSameBut s (s.drainCapture t arr op) (captureRegs t arr) := by
  rw [State.drainCapture_eq h]
  generalize hw : s.setTile t ((s.tile t).setArr arr (((s.tile t).arr arr).captured op d)) = w
  obtain ⟨hstore, hdram, htile, hregs⟩ := w.captureChecks_trapped t arr ((s.tile t).arr arr) d
  generalize w.captureChecks t arr ((s.tile t).arr arr) d = v at hstore hdram htile hregs
  have hwtile : w.tile t = (s.tile t).setArr arr (((s.tile t).arr arr).captured op d) := by rw [← hw, State.tile_setTile, if_pos rfl]
  rw [hwtile] at htile
  subst hw
  refine ⟨hstore, hdram, htile, fun a ha => ?_⟩
  rw [State.arrStatus, State.rd_wr, if_neg fun h : _ = a => ha (h ▸ by simp [captureRegs]), hregs a ha, State.setTile_rd]

/-- There is fuel for an event. -/
theorem eventFuel_succ : ∃ n, eventFuel = n + 1 := ⟨2 ^ 40 - 1, rfl⟩

/-- The handshake of a capture in which nothing else is due (R67). -/
theorem State.runEvents_capture {v : State} {t arr op h order entry : Nat} {d : DrainOp} {rest : List TileEv}
    (hev : (v.tile t).evs = ⟨h, order, entry, .capture arr op⟩ :: rest) (hlater : ∀ e ∈ rest, h < e.slot)
    (hfl : (v.tile t).flights = []) (hfind : ((v.tile t).arr arr).findDrain op = some d) :
    let w := State.runEvents t h eventFuel v
    w.store = v.store ∧ w.dram = v.dram ∧
      Tile.Recorded ((v.tile t).setArr arr (((v.tile t).arr arr).captured op d)) (w.tile t) ∧ (∀ e ∈ rest, e ∈ (w.tile t).evs) ∧
      RegsSameBut v w (captureRegs t arr ++ recordRegs t) := by
  obtain ⟨n, hn⟩ := eventFuel_succ
  have hperf (u : State) : u.performAct t ⟨h, order, entry, .capture arr op⟩ = u.drainCapture t arr op := rfl
  dsimp only
  rw [hn, State.runEvents_first hev le_rfl (show (2 : Nat) ≠ 8 by decide) hfl, hperf]
  generalize hp : v.setTile t { v.tile t with evs := rest } = p
  have hptile : p.tile t = { v.tile t with evs := rest } := by rw [← hp, State.tile_setTile, if_pos rfl]
  have hparr : (p.tile t).arr arr = (v.tile t).arr arr := by rw [hptile]; rfl
  obtain ⟨hstore, hdram, htile, hregs⟩ := State.drainCapture_leaves (s := p) (t := t) (arr := arr) (op := op) (d := d) (by rw [hparr]; exact hfind)
  generalize p.drainCapture t arr op = c at hstore hdram htile hregs
  rw [hparr] at htile
  have hrec : Tile.Recorded ((v.tile t).setArr arr (((v.tile t).arr arr).captured op d)) ((p.tile t).setArr arr (((v.tile t).arr arr).captured op d)) := by
    rw [hptile]
    unfold Tile.setArr
    split <;> exact ⟨_, _, _, _, rfl⟩
  have hrest : ((p.tile t).setArr arr (((v.tile t).arr arr).captured op d)).evs = rest := by rw [Tile.setArr_evs, hptile]
  have hcrec := hrec.trans htile.recorded
  have hcfl : (c.tile t).flights = [] := by
    obtain ⟨-, -, -, hflights, -⟩ := Tile.setArr_place (v.tile t) arr (((v.tile t).arr arr).captured op d)
    exact hcrec.flights.trans (hflights.trans hfl)
  obtain ⟨ev, hc, hfrom, hkept⟩ := htile
  have hcevs : (c.tile t).evs = ev := by rw [hc]
  obtain ⟨⟨⟨hs, hd, ht, hr⟩, hl⟩, -⟩ := State.runEvents_notes (s := c) (t := t) (h := h) n fun e he hs => by
    rw [hcevs] at he
    refine ⟨((hfrom e he).resolve_left fun hr => ?_).1, fun f hf => ?_⟩
    · rw [hrest] at hr
      exact absurd hs (Nat.not_le.mpr (hlater e hr))
    · rw [hcfl] at hf
      exact absurd hf List.not_mem_nil
  subst hp
  refine ⟨hs.trans hstore, hd.trans hdram, hcrec.trans ht, fun e he => hl e ?_ (hlater e he), fun a ha => ?_⟩
  · rw [hcevs]
    exact hkept e (by rw [hrest]; exact he)
  · rw [List.mem_append, not_or] at ha
    rw [hr a ha.2, hregs a ha.1, State.setTile_rd]

end Sys2Proof.Machine
end

section
/-! The array entries (R62, R63, R66 to R68, R132): MMA, DRAIN and CLEAR. -/
namespace Sys2Proof.Machine
open Sys2Proof.Safety

/-! MMA. -/

/-- The operation that an MMA starts (R66). -/
def mmaOp (id : Nat) (f : MmaFields) (entry I : Nat) : MmaOp := ⟨id, f, entry, I, [], [], [], [], 0, 0⟩

/-- An array in which an MMA has started. -/
def ArrSt.mmaStarted (a : ArrSt) (f : MmaFields) (id entry I : Nat) : ArrSt :=
  { a with
    mmas := a.mmas ++ [mmaOp id f entry I]
    drains := if f.drain then a.drains ++ [(⟨id, drainOf f, entry, I, I + f.S + 72, []⟩ : DrainOp)] else a.drains
    accept := I + f.S }

/-- The events that an MMA brings (R66): its reads, its end, the repetition that follows it and its drain. -/
def mmaEvents (arr id : Nat) (f : MmaFields) (left entry order I : Nat) : List TileEv :=
  (mmaReads arr id I f).map (fun e => (⟨e.1, order, entry, e.2⟩ : TileEv)) ++ [⟨I + f.S + 72, order, entry, .arrDone arr id⟩] ++
    (if left = 0 then [] else [(⟨I + f.S, order, entry, .arrIssue arr f.next (left - 1)⟩ : TileEv)]) ++
    (if f.drain then drainEvents arr id (I + f.S + 72) order entry (drainOf f) else [])

/-- An MMA starts on an array that accepts it, into a set that no drain holds. -/
theorem State.mmaIssue_starts {s : State} {t arr I : Nat} {f : MmaFields} (hacc : ((s.tile t).arr arr).accept ≤ I)
    (hholder : ((s.tile t).arr arr).holder f.accSet (I + 73) = none) (left entry order : Nat) :
    s.mmaIssue t arr f left entry order I = (s.setTile t (((s.tile t).numbered.setArr arr
      (((s.tile t).arr arr).mmaStarted f (s.tile t).order entry I)).addEvs (mmaEvents arr (s.tile t).order f left entry order I))).arrStatus t arr := by
  unfold State.mmaIssue
  dsimp only
  rw [if_neg (Nat.not_lt.mpr hacc), hholder]
  rfl

/-- A legal MMA takes a pass of a panel at least. -/
theorem MmaFields.S_pos {f : MmaFields} (h : f.legal = true) : 0 < f.S := by
  have hpasses : f.passes ≠ 0 := by
    simp only [MmaFields.legal, Bool.and_eq_true, bne_iff_ne] at h
    exact h.1.1.1.1.2
  have hnp : 0 < f.passes.toNat := Nat.pos_of_ne_zero fun h0 => hpasses (BitVec.eq_of_toNat_eq h0)
  have hm : 0 < f.kLen.toNat + 1 := Nat.succ_pos _
  exact Nat.mul_pos (Nat.mul_pos hnp hm) (by decide)

/-- The reads of an MMA take place from its issue on, those of scale rows after it (R66). -/
theorem mmaReads_slots {arr op I : Nat} {f : MmaFields} {p : Nat × TileAct} (h : p ∈ mmaReads arr op I f) :
    p.2.reads = true ∨ I < p.1 := by
  simp only [mmaReads, List.mem_flatMap, List.mem_append, List.mem_cons, List.not_mem_nil, or_false] at h
  obtain ⟨q, -, j, -, ((rfl | rfl) | hsa) | hsb⟩ := h
  · exact .inl rfl
  · exact .inl rfl
  all_goals
    right
    split at *
    · contradiction
    · obtain ⟨i, -, rfl⟩ := List.mem_mapIdx.mp ‹_›
      dsimp only
      omega

/-- The events of an MMA that fall due with its issue are reads. -/
theorem mmaEvents_slots {arr id left entry order I : Nat} {f : MmaFields} (hS : 0 < f.S) {e : TileEv}
    (h : e ∈ mmaEvents arr id f left entry order I) : e.act.reads = true ∨ I < e.slot := by
  simp only [mmaEvents, List.mem_append, List.mem_map, List.mem_singleton] at h
  rcases h with ((⟨p, hp, rfl⟩ | rfl) | hmore) | hdrain
  · exact mmaReads_slots hp
  · right; dsimp only; omega
  · split at hmore
    · exact absurd hmore List.not_mem_nil
    · right; rw [List.mem_singleton.mp hmore]; dsimp only; omega
  · split at hdrain
    · simp only [drainEvents, List.mem_cons, List.mem_map] at hdrain
      rcases hdrain with rfl | ⟨j, -, rfl⟩
      · right; dsimp only; omega
      · right; dsimp only; omega
    · exact absurd hdrain List.not_mem_nil

/-- What the start of an MMA leaves in a tile without coming events, and what it brings (R66). -/
theorem State.mmaIssue_started {s : State} {t arr I : Nat} {f : MmaFields} (ht : t < 128) (harr : arr < 2) (hl : f.legal = true)
    (hnil : (s.tile t).evs = []) (hacc : ((s.tile t).arr arr).accept ≤ I) (hholder : ((s.tile t).arr arr).holder f.accSet (I + 73) = none)
    (left entry order : Nat) :
    let v := s.mmaIssue t arr f left entry order I
    Placed s v t ∧ (v.tile t).arr arr = ((s.tile t).arr arr).mmaStarted f (s.tile t).order entry I ∧
      (∀ e ∈ (v.tile t).evs, e.slot ≤ I → e.act.reads = true) ∧
      (∀ e ∈ mmaEvents arr (s.tile t).order f left entry order I, e.act.wide = false → e ∈ (v.tile t).evs) ∧
      v.bit (Reg.ARR_STATUS t arr) 0 = true := by
  have hplace := Tile.setArr_place (s.tile t).numbered arr (((s.tile t).arr arr).mmaStarted f (s.tile t).order entry I)
  have hevs := (Tile.setArr_evs (s.tile t).numbered arr (((s.tile t).arr arr).mmaStarted f (s.tile t).order entry I)).trans hnil
  have harray := Tile.setArr_arr (s.tile t).numbered arr (((s.tile t).arr arr).mmaStarted f (s.tile t).order entry I)
  have hstart := s.mmaIssue_starts hacc hholder left entry order
  generalize (s.tile t).numbered.setArr arr (((s.tile t).arr arr).mmaStarted f (s.tile t).order entry I) = x
    at hstart hplace hevs harray
  obtain ⟨ev, hev, hfrom⟩ := x.addEvs_evsFrom (mmaEvents arr (s.tile t).order f left entry order I)
  rw [hevs, List.nil_append] at hfrom
  rw [hev] at hstart
  have htile : ((s.setTile t { x with evs := ev }).arrStatus t arr).tile t = { x with evs := ev } :=
    (State.tile_setTile s t t _).trans (if_pos rfl)
  have hmmas : (((s.setTile t { x with evs := ev }).tile t).arr arr).mmas ≠ [] := by
    rw [State.tile_setTile, if_pos rfl, show Tile.arr { x with evs := ev } arr = x.arr arr from rfl, harray]
    exact List.append_ne_nil_of_right_ne_nil _ (List.cons_ne_nil _ _)
  dsimp only
  rw [hstart, htile]
  refine ⟨((Placed.refl s t).setTile (x := { x with evs := ev }) hplace).wr (ARR_STATUS_notMem ht harr).2.symm _, harray,
    fun e he hs => hfrom.due (fun e he => mmaEvents_slots (MmaFields.S_pos hl) he) he hs, hfrom.2, State.arrStatus_busy _ t arr hmmas⟩

/-- A legal MMA on an array that accepts it (R66). -/
theorem mma_starts {s : State} {t : Nat} (q : Quiet s t) {arr : Nat} (harr : arr < 2) (rep : Nat) {f : MmaFields} (hl : f.legal = true)
    (hacc : ((s.tile t).arr arr).accept ≤ slotOf s t) (hholder : ((s.tile t).arr arr).holder f.accSet (slotOf s t + 73) = none) :
    let I := slotOf s t
    let u := s.issueEntry t 1 (fun s I k order => s.mmaIssue t arr f rep k order I)
    Issued s u t 1 ∧ BytesSame s u ∧
      (∃ o ∈ ((u.tile t).arr arr).mmas, o.f = f ∧ o.issue = I ∧ o.entry = (s.tile t).nextK ∧ o.id = (s.tile t).order + 1) ∧
      ((u.tile t).arr arr).accept = I + f.S ∧
      (∀ e ∈ mmaEvents arr ((s.tile t).order + 1) f rep (s.tile t).nextK (s.tile t).order I, e.act.wide = false → I < e.slot →
        e ∈ (u.tile t).evs) ∧ u.bit (Reg.ARR_STATUS t arr) 0 = true := by
  have ht : t < 128 := by obtain ⟨⟨ht, -⟩, -⟩ := q; exact ht
  have harrs : ((issued s t 1).tile t).arr arr = (s.tile t).arr arr := by rw [issued_tile]; rfl
  obtain ⟨hplaced, harray, hdue, hevents, hbit⟩ := (issued s t 1).mmaIssue_started (I := slotOf s t) ht harr hl (issued_resting q 1).1
    (by rw [harrs]; exact hacc) (by rw [harrs]; exact hholder) rep (s.tile t).nextK (s.tile t).order
  rw [harrs, show ((issued s t 1).tile t).order = (s.tile t).order + 1 by rw [issued_tile]] at harray
  rw [show ((issued s t 1).tile t).order = (s.tile t).order + 1 by rw [issued_tile]] at hevents
  obtain ⟨w, hissued, hbytes, hread, -, htile, hlater, hregs⟩ := State.issueEntry_reads q 1 (body := fun s I k order =>
    s.mmaIssue t arr f rep k order I) rfl hplaced hdue
  obtain ⟨g, hg, hy⟩ := hread.arr arr
  rw [harray] at hy
  have harru := Tile.carriedAt_arr (w.tile t) (slotOf s t) arr
  rw [← htile, hy] at harru
  obtain ⟨hid, hf, hentry, hissue⟩ := hg (mmaOp ((s.tile t).order + 1) f (s.tile t).nextK (slotOf s t))
  refine ⟨hissued, hbytes, ?_, ?_, fun e he hw hs => hlater e (hevents e he hw) hs,
    (State.bit_of_rd (hregs _ (ARR_STATUS_notMem ht harr).1) 0).trans hbit⟩
  · rw [harru]
    refine ⟨_, List.mem_map.mpr ⟨_, List.mem_map.mpr ⟨_, List.mem_append_right _ (List.mem_singleton_self _), rfl⟩, rfl⟩, ?_⟩
    exact ⟨hf, hissue, hentry, hid⟩
  · rw [harru]; rfl

/-- An MMA before the array accepts clashes with the one in progress (R132). -/
theorem mma_clashes {s : State} {t : Nat} (c : Calm s t) {arr : Nat} (rep : Nat) (f : MmaFields) {o : MmaOp}
    (hacc : slotOf s t < ((s.tile t).arr arr).accept) (hlast : ((s.tile t).arr arr).mmas.getLast? = some o) (ho : o.entry < 4096) :
    let u := s.issueEntry t 1 (fun s I k order => s.mmaIssue t arr f rep k order I)
    Issued s u t 1 ∧ BytesSame s u ∧ Clashed s u t 1 o.entry (s.tile t).nextK (slotOf s t) ∧
      (u.tile t).arr arr = ((s.tile t).arr arr).ticked (slotOf s t) := by
  have harray : ((entered s t 1).tile t).arr arr = ((s.tile t).arr arr).ticked (slotOf s t) := by
    rw [entered_tile c]
    exact Tile.arr_ticked rfl rfl arr
  obtain ⟨hissued, hbytes, hclash, h0, h1, -⟩ := State.issueEntry_clash c (cause := 1) (first := o.entry) (by decide) ho
    (body := fun s I k order => s.mmaIssue t arr f rep k order I) (by
      unfold State.mmaIssue
      dsimp only
      rw [harray, if_pos (show slotOf s t < (((s.tile t).arr arr).ticked (slotOf s t)).accept from hacc), ArrSt.ticked,
        List.getLast?_map, hlast]
      rfl)
  exact ⟨hissued, hbytes, hclash, Tile.arr_ticked h0 h1 arr⟩

/-! CLEAR. -/

/-- A CLEAR of a set that a drain holds clashes with it (R132). -/
theorem clear_clashes {s : State} {t : Nat} (c : Calm s t) {arr : Nat} {set : Bool} {d : DrainOp}
    (hholder : ((s.tile t).arr arr).holder set (slotOf s t) = some d) (hd : d.entry < 4096) :
    let u := s.issueEntry t 1 (fun s I k _ => s.clearIssue t arr set I k)
    Issued s u t 1 ∧ BytesSame s u ∧ Clashed s u t 2 d.entry (s.tile t).nextK (slotOf s t) ∧
      (u.tile t).arr arr = ((s.tile t).arr arr).ticked (slotOf s t) := by
  have harray : ((entered s t 1).tile t).arr arr = ((s.tile t).arr arr).ticked (slotOf s t) := by
    rw [entered_tile c]
    exact Tile.arr_ticked rfl rfl arr
  obtain ⟨hissued, hbytes, hclash, h0, h1, -⟩ := State.issueEntry_clash c (cause := 2) (first := d.entry) (by decide) hd
    (body := fun s I k _ => s.clearIssue t arr set I k) (by
      unfold State.clearIssue
      dsimp only
      rw [harray, show (((s.tile t).arr arr).ticked (slotOf s t)).holder set (slotOf s t) = some d from hholder])
  exact ⟨hissued, hbytes, hclash, Tile.arr_ticked h0 h1 arr⟩

/-- A set that is cleared. -/
theorem ArrSt.setAcc_zero (a : ArrSt) (set : Bool) : ((a.setAcc set [] false false).acc set = [] ∧
    (a.setAcc set [] false false).ovf set = false) ∧ (a.setAcc set [] false false).acc (!set) = a.acc (!set) := by
  cases set <;> exact ⟨⟨rfl, rfl⟩, rfl⟩

theorem ArrSt.setAcc_mmas (a : ArrSt) (set : Bool) (l : List Word) (ovf int : Bool) : (a.setAcc set l ovf int).mmas = a.mmas := by
  unfold ArrSt.setAcc
  split <;> rfl

/-- The replacement of an array leaves a resting tile at rest, where no MMA is under way in it. -/
theorem Tile.Resting.setArr {x : Tile} (h : x.Resting) (arr : Nat) {a : ArrSt} (ha : a.mmas = []) : (x.setArr arr a).Resting := by
  obtain ⟨hev, hfl, hop, h0, h1, hab⟩ := h
  unfold Tile.setArr
  split
  · exact ⟨hev, hfl, hop, ha, h1, hab⟩
  · exact ⟨hev, hfl, hop, h0, ha, hab⟩

/-- An entry of a quiet tile that replaces the record of the tile, its place aside. -/
theorem State.issueEntry_record {s : State} {t : Nat} (q : Quiet s t) (hold : Nat) {body : State → Nat → Nat → Nat → State} {x : Tile}
    (hbody : body (issued s t hold) (slotOf s t) (s.tile t).nextK (s.tile t).order = (issued s t hold).setTile t x) (hrest : x.Resting)
    (hn : x.nextHs = ((issued s t hold).tile t).nextHs) (hk : x.nextK = ((issued s t hold).tile t).nextK)
    (hover : x.overrunAt = ((issued s t hold).tile t).overrunAt) :
    Issued s (s.issueEntry t hold body) t hold ∧ OnlyTile s (s.issueEntry t hold body) t ∧
      RegsSameBut s (s.issueEntry t hold body) (issueRegs t) ∧ (s.issueEntry t hold body).tile t = x := by
  have htile : ((issued s t hold).setTile t x).tile t = x := (State.tile_setTile _ t t _).trans (if_pos rfl)
  rw [State.issueEntry_resting q hold hbody (by rw [htile]; exact hrest)]
  have honly := OnlyTile.setTile (issued s t hold) t x
  obtain ⟨honly, hregs⟩ := issued_frame (l := []) honly (fun a _ => State.setTile_rd _ _ _ _) (slotOf s t)
  rw [List.append_nil] at hregs
  exact ⟨issued_of_place q (State.setTile_rd _ _ _ _) (by rw [htile, hn]) (by rw [htile, hk]) (by rw [htile, hover]), honly, hregs,
    (State.settledAt_tile _ t _ t).trans htile⟩

/-- No MMA is under way in an array of a quiet tile. -/
theorem Safety.Quiet.mmas {s : State} {t : Nat} (q : Quiet s t) (arr : Nat) : ((s.tile t).arr arr).mmas = [] := by
  obtain ⟨-, -, -, -, h0, h1⟩ := q
  unfold Tile.arr
  split
  · exact h0
  · exact h1

/-- A CLEAR of a set that no drain holds (R68). -/
theorem clear_clears {s : State} {t : Nat} (q : Quiet s t) {arr : Nat} {set : Bool}
    (hholder : ((s.tile t).arr arr).holder set (slotOf s t) = none) :
    let u := s.issueEntry t 1 (fun s I k _ => s.clearIssue t arr set I k)
    Issued s u t 1 ∧ OnlyTile s u t ∧ RegsSameBut s u (issueRegs t) ∧
      (u.tile t).arr arr = ((s.tile t).arr arr).setAcc set [] false false := by
  have harrs : ((issued s t 1).tile t).arr arr = (s.tile t).arr arr := by rw [issued_tile]; rfl
  have hbody : (issued s t 1).clearIssue t arr set (slotOf s t) (s.tile t).nextK = (issued s t 1).setTile t
      (((issued s t 1).tile t).setArr arr (((s.tile t).arr arr).setAcc set [] false false)) := by
    unfold State.clearIssue
    dsimp only
    rw [harrs, hholder, Safety.Quiet.mmas q arr]
    rfl
  obtain ⟨hnext, hk, hover, -⟩ := Tile.setArr_place ((issued s t 1).tile t) arr (((s.tile t).arr arr).setAcc set [] false false)
  obtain ⟨hissued, honly, hregs, htile⟩ := State.issueEntry_record q 1 (body := fun s I k _ => s.clearIssue t arr set I k) hbody
    ((issued_resting q 1).setArr arr ((ArrSt.setAcc_mmas _ set [] false false).trans (Safety.Quiet.mmas q arr))) hnext hk hover
  exact ⟨hissued, honly, hregs, by rw [htile, Tile.setArr_arr]⟩

/-! DRAIN. -/

/-- The operation that a DRAIN starts (R67). -/
def drainOp (id : Nat) (f : DrainFields) (entry I D : Nat) : DrainOp := ⟨id, f, entry, I, D, []⟩

/-- The events of a drain after its capture (R67). -/
def drainRowEvents (arr op D order entry : Nat) (f : DrainFields) : List TileEv :=
  (List.range (drainRows f.outFmt)).map (fun j =>
    ⟨D + drainFirst f.outFmt + j, order, entry, .drainRow arr op j (f.cRow.toNat + j)⟩)

/-- The rows of a drain are due one after the other, after its capture. -/
theorem drainRowEvents_later {arr op D order entry : Nat} {f : DrainFields} :
    (∀ e ∈ drainRowEvents arr op D order entry f, D < e.slot) ∧
      (drainRowEvents arr op D order entry f).Pairwise (fun a b => a.slot < b.slot) := by
  have hfirst : 0 < drainFirst f.outFmt := by unfold drainFirst; split <;> decide
  refine ⟨fun e he => ?_, List.pairwise_map.mpr (List.pairwise_lt_range.imp fun {i j} hij => ?_)⟩
  · obtain ⟨j, -, rfl⟩ := List.mem_map.mp he
    dsimp only
    omega
  · dsimp only
    omega

/-- An array in which a drain has started. -/
def ArrSt.draining (a : ArrSt) (d : DrainOp) : ArrSt := { a with drains := a.drains ++ [d] }

/-- A DRAIN of a set that no drain holds, in a tile without coming events in which no MMA is under way (R67). -/
theorem State.drainIssue_starts {s : State} {t arr I : Nat} {f : DrainFields} (ht : t < 128) (harr : arr < 2)
    (hnil : (s.tile t).evs = []) (hmmas : ((s.tile t).arr arr).mmas = []) (hholder : ((s.tile t).arr arr).holder f.accSet I = none)
    (hlast : ∀ w, (s.tile t).lastWide = some w → w.1 ≤ I) (entry order : Nat) :
    let v := s.drainIssue t arr f I entry order
    Placed s v t ∧ (v.tile t).arr arr = ((s.tile t).arr arr).draining (drainOp (s.tile t).order f entry I I) ∧
      (v.tile t).evs = ⟨I, order, entry, .capture arr (s.tile t).order⟩ :: drainRowEvents arr (s.tile t).order I order entry f := by
  have hplace := Tile.setArr_place (s.tile t).numbered arr (((s.tile t).arr arr).draining (drainOp (s.tile t).order f entry I I))
  have hevs := (Tile.setArr_evs (s.tile t).numbered arr (((s.tile t).arr arr).draining (drainOp (s.tile t).order f entry I I))).trans hnil
  have hwide := Tile.setArr_lastWide (s.tile t).numbered arr (((s.tile t).arr arr).draining (drainOp (s.tile t).order f entry I I))
  have harray := Tile.setArr_arr (s.tile t).numbered arr (((s.tile t).arr arr).draining (drainOp (s.tile t).order f entry I I))
  have hstart : s.drainIssue t arr f I entry order = (s.setTile t (((s.tile t).numbered.setArr arr
      (((s.tile t).arr arr).draining (drainOp (s.tile t).order f entry I I))).addEvs
        (drainEvents arr (s.tile t).order I order entry f))).arrStatus t arr := by
    have hD : ((s.tile t).arr arr).mmas.foldl (fun d o => if o.f.accSet = f.accSet then max d (o.issue + o.f.S + 72) else d) I = I := by
      rw [hmmas]
      rfl
    unfold State.drainIssue
    dsimp only
    rw [hholder, hD]
    rfl
  generalize (s.tile t).numbered.setArr arr (((s.tile t).arr arr).draining (drainOp (s.tile t).order f entry I I)) = x
    at hstart hplace hevs harray hwide
  obtain ⟨hlater, hrising⟩ := @drainRowEvents_later arr (s.tile t).order I order entry f
  have hadd := Tile.addEvs_rising (x := x) (l := drainEvents arr (s.tile t).order I order entry f)
    (List.pairwise_cons.mpr ⟨hlater, hrising⟩) (by rw [hevs]; exact fun y hy => absurd hy List.not_mem_nil) fun e he hw w hx => by
      rcases List.mem_cons.mp he with rfl | he
      · exact absurd hw Bool.false_ne_true
      · have hbefore : w.1 ≤ I := hlast w (hwide.symm.trans hx)
        exact (Nat.lt_of_le_of_lt hbefore (hlater e he)).ne
  rw [hadd, hevs] at hstart
  have htile : (s.drainIssue t arr f I entry order).tile t = { x with evs := drainEvents arr (s.tile t).order I order entry f } := by
    rw [hstart]
    exact (State.tile_setTile s t t _).trans (if_pos rfl)
  refine ⟨?_, ?_, ?_⟩
  · rw [hstart]
    exact ((Placed.refl s t).setTile (x := { x with evs := [] ++ drainEvents arr (s.tile t).order I order entry f }) hplace).wr
      (ARR_STATUS_notMem ht harr).2.symm _
  · rw [htile]
    exact harray
  · rw [htile]
    rfl

/-- A DRAIN of a set that no drain holds (R67). -/
theorem drain_captures {s : State} {t : Nat} (q : Quiet s t) {arr : Nat} (harr : arr < 2) {f : DrainFields}
    (hholder : ((s.tile t).arr arr).holder f.accSet (slotOf s t) = none) :
    let I := slotOf s t
    let u := s.issueEntry t 1 (fun s I k order => s.drainIssue t arr f I k order)
    let a := ((s.tile t).arr arr).draining (drainOp ((s.tile t).order + 1) f (s.tile t).nextK I I)
    Issued s u t 1 ∧ BytesSame s u ∧ (∃ d, a.findDrain ((s.tile t).order + 1) = some d ∧
      (u.tile t).arr arr = (a.captured ((s.tile t).order + 1) d).ticked I) ∧
      ∀ e ∈ drainRowEvents arr ((s.tile t).order + 1) I (s.tile t).order (s.tile t).nextK f, e ∈ (u.tile t).evs := by
  obtain ⟨ht, hwide⟩ : t < 128 ∧ ∀ w, ((issued s t 1).tile t).lastWide = some w → w.1 ≤ slotOf s t := by
    obtain ⟨⟨ht, -, -, -, -, -, -, -, -, hw⟩, -⟩ := q
    rw [issued_tile]
    exact ⟨ht, hw⟩
  have harrs : ((issued s t 1).tile t).arr arr = (s.tile t).arr arr := by rw [issued_tile]; rfl
  have horder : ((issued s t 1).tile t).order = (s.tile t).order + 1 := by rw [issued_tile]
  obtain ⟨hev, hfl, -⟩ := issued_resting q 1
  obtain ⟨hplaced, harray, hevs⟩ := (issued s t 1).drainIssue_starts (I := slotOf s t) (f := f) ht harr hev
    (by rw [harrs]; exact Safety.Quiet.mmas q arr) (by rw [harrs]; exact hholder) hwide (s.tile t).nextK (s.tile t).order
  generalize hv : (issued s t 1).drainIssue t arr f (slotOf s t) (s.tile t).nextK (s.tile t).order = v at hplaced harray hevs
  rw [harrs, horder] at harray
  rw [horder] at hevs
  dsimp only
  rw [← harray]
  obtain ⟨d, hd⟩ : ∃ d, ((v.tile t).arr arr).findDrain ((s.tile t).order + 1) = some d := by
    rw [← Option.isSome_iff_exists, harray, ArrSt.findDrain, List.find?_isSome]
    exact ⟨_, List.mem_append_right _ (List.mem_singleton_self _), beq_self_eq_true _⟩
  obtain ⟨hlater, -⟩ := @drainRowEvents_later arr ((s.tile t).order + 1) (slotOf s t) (s.tile t).order (s.tile t).nextK f
  have hvfl : (v.tile t).flights = [] := by
    obtain ⟨-, -, -, -, -, -, hvfl, -⟩ := hplaced
    exact hvfl.trans hfl
  obtain ⟨hstore, hdram, hrec, hrows, hregs⟩ := State.runEvents_capture hevs hlater hvfl hd
  generalize hw : State.runEvents t (slotOf s t) eventFuel v = w at hstore hdram hrec hrows hregs
  have hstatus : Reg.SEQ_STATUS t ∉ captureRegs t arr ++ recordRegs t := by
    rw [List.mem_append, not_or]
    refine ⟨?_, fun h => (SEQ_STATUS_notMem ht).1 (List.mem_cons_of_mem _ h)⟩
    have hlog : Reg.SEQ_STATUS t ∉ logRegs := notMem_logRegs_tile ht (by simp [Reg.SEQ_STATUS])
    simp only [captureRegs, List.mem_cons, not_or]
    refine ⟨(ARR_STATUS_notMem ht harr).2, ?_, ?_, hlog⟩
    all_goals
      simp [Reg.SEQ_STATUS, Reg.ARR_INT_OVF, Reg.ARR_SPECIAL]
      omega
  have hpw : Placed v w t := by
    obtain ⟨ev, lw, ce, c, htile⟩ := hrec
    obtain ⟨h1, h2, h3, h4, h5⟩ := Tile.setArr_place (v.tile t) arr (((v.tile t).arr arr).captured ((s.tile t).order + 1) d)
    exact ⟨hstore, hdram, hregs _ hstatus, by rw [htile]; exact h1, by rw [htile]; exact h2, by rw [htile]; exact h3,
      by rw [htile]; exact h4, by rw [htile]; exact h5⟩
  obtain ⟨hissued, hbytes, htile, -⟩ := State.issueEntry_run q 1 (body := fun s I k order => s.drainIssue t arr f I k order) hv hplaced hw
    (hplaced.trans hpw)
  refine ⟨hissued, hbytes, ⟨d, hd, ?_⟩, fun e he => ?_⟩
  · rw [htile, Tile.carriedAt_arr, hrec.arr, Tile.setArr_arr]
  · rw [htile]
    exact hrows e he

/-- A drain that holds the rows of its set (R67). -/
def DrainOp.filled (d : DrainOp) (a : ArrSt) : DrainOp := { d with rows := drainContents d.f (a.int d.f.accSet) (a.acc d.f.accSet) }

/-- The capture of a drain that writes rows brings it the rows of its set (R67). -/
theorem ArrSt.mem_captured {a : ArrSt} {op : Nat} {d : DrainOp} (hd : d ∈ a.drains) (hop : d.id = op) (hrows : drainRows d.f.outFmt ≠ 0) :
    d.filled a ∈ (a.captured op d).drains := by
  rw [ArrSt.captured, if_neg hrows]
  exact List.mem_map.mpr ⟨d, hd, if_pos hop⟩

theorem drainRows_ne_zero {o : BitVec 3} (h : o ≠ 7) : drainRows o ≠ 0 := by
  unfold drainRows
  rw [if_neg h]
  split <;> decide

/-- The drain that an array finds by a number that no earlier one has. -/
theorem ArrSt.findDrain_draining {a : ArrSt} {d : DrainOp} (h : ∀ q ∈ a.drains, q.id ≠ d.id) : (a.draining d).findDrain d.id = some d := by
  have hnone : a.drains.find? (fun o => o.id == d.id) = none := List.find?_eq_none.mpr fun q hq => by simpa using h q hq
  rw [ArrSt.findDrain, ArrSt.draining, List.find?_append, hnone, List.find?_singleton, if_pos (beq_self_eq_true _)]
  rfl

/-! The three entries. -/

/-- Settles O31: each entry's case is the lemma above. -/
theorem arrayEntriesIssue : Obligations.ArrayEntriesIssue := by
  unfold Obligations.ArrayEntriesIssue
  intro s t a
  have harr : a.toNat < 2 := a.isLt
  dsimp only
  have hmma {rep : BitVec 10} {f : MmaFields} (hl : f.legal = true) (hin : f.inStore rep.toNat = true) : exec (.mma t a rep f) s =
      .next (s.issueEntry t 1 (fun s I k order => s.mmaIssue t a.toNat f rep.toNat k order I)) := by
    change execMma t a rep f s = _
    rw [execMma, hl, hin]
    rfl
  refine ⟨fun rep f q hl hin hacc hholder => ?_, fun rep f o c hl hin hacc hlast ho => ⟨_, hmma hl hin, mma_clashes c rep.toNat f hacc hlast ho⟩,
    fun f q h5 h6 hrow hholder _ => ?_, fun set q hholder _ => ?_, fun set d c hholder hd => ?_⟩
  · obtain ⟨hissued, hbytes, ⟨o, ho, hf, hissue, hentry, hid⟩, haccept, hevents, hbit⟩ := mma_starts q harr rep.toNat hl hacc hholder
    have hS := MmaFields.S_pos hl
    refine ⟨_, o, hmma hl hin, hissued, hbytes, ho, hf, hissue, hentry, haccept, rfl, ?_, fun hdrain => ?_, fun hrep => ?_, hbit⟩
    · rw [hid]
      exact hevents _ (by simp [mmaEvents]) rfl (by dsimp only; omega)
    · rw [hid]
      exact hevents _ (by simp [mmaEvents, hdrain, drainEvents]) rfl (by dsimp only; omega)
    · exact hevents _ (by simp [mmaEvents, Nat.ne_of_gt hrep]) rfl (by dsimp only; omega)
  · obtain ⟨hissued, hbytes, ⟨d, hd, harray⟩, hrows⟩ := drain_captures q harr (f := f) hholder
    refine ⟨_, ?_, hissued, hbytes, ?_, fun h7 hnew => ?_⟩
    · change execDrain t a f s = _
      have hlegal : (f.outFmt != 5 && f.outFmt != 6 && decide (f.cRow.toNat + drainRows f.outFmt ≤ 8192)) = true := by
        rw [bne_iff_ne.mpr h5, bne_iff_ne.mpr h6, decide_eq_true hrow]
        rfl
      rw [execDrain, if_pos hlegal]
    · rw [harray, ArrSt.captured_acc]
      cases f.accSet <;> rfl
    · have hfind := ArrSt.findDrain_draining (d := drainOp ((s.tile t).order + 1) f (s.tile t).nextK (slotOf s t) (slotOf s t)) hnew
      obtain rfl : _ = d := Option.some.inj (hfind.symm.trans hd)
      have hmem := ArrSt.mem_captured (a := ((s.tile t).arr a.toNat).draining
        (drainOp ((s.tile t).order + 1) f (s.tile t).nextK (slotOf s t) (slotOf s t))) (op := (s.tile t).order + 1)
        (List.mem_append_right _ (List.mem_singleton_self _)) rfl (drainRows_ne_zero h7)
      refine ⟨(drainOp ((s.tile t).order + 1) f (s.tile t).nextK (slotOf s t) (slotOf s t)).filled _, by rw [harray]; exact hmem, rfl, rfl, ?_, fun j hj => hrows _ (List.mem_map.mpr ⟨j, List.mem_range.mpr hj, rfl⟩)⟩
      · cases hset : f.accSet <;> simp [DrainOp.filled, drainOp, hset, ArrSt.draining, ArrSt.int, ArrSt.acc]
  · obtain ⟨hissued, honly, hregs, harray⟩ := clear_clears q hholder
    obtain ⟨⟨hacc, hovf⟩, hother⟩ := ((s.tile t).arr a.toNat).setAcc_zero set
    refine ⟨_, rfl, hissued, honly, hregs, fun i => ?_, ?_, ?_⟩
    · rw [harray, hacc]; rfl
    · rw [harray, hovf]
    · rw [harray, hother]
  · obtain ⟨hissued, hbytes, hclash, harray⟩ := clear_clashes c hholder hd
    exact ⟨_, rfl, hissued, hclash, harray, hbytes⟩

end Sys2Proof.Machine
end

section
/-! The events of the arrays (R66, R67, R70, R91, R92): the end of an MMA, and the capture of a drain. -/
namespace Sys2Proof.Machine
open Sys2Proof.Safety

/-! The advance to an event. -/

/-- The advance to the first coming event, where a test picks it. -/
theorem State.runTo_first {s : State} {t : Nat} {p : TileAct → Bool} {e : TileEv} {rest : List TileEv} (hev : (s.tile t).evs = e :: rest)
    (hp : p e.act = true) (hhs : s.hs t ≤ e.slot) : s.runTo t p = s.advanceTo t e.slot := by
  rw [State.runTo, Tile.firstEvent, hev, List.find?_cons_of_pos (p := fun e : TileEv => p e.act) hp]
  exact congrArg (s.advanceTo t) (max_eq_left hhs)

/-- Without coming events nothing happens. -/
theorem State.runTo_nil {s : State} {t : Nat} (p : TileAct → Bool) (hev : (s.tile t).evs = []) : s.runTo t p = s := by
  rw [State.runTo, Tile.firstEvent, hev]
  rfl

/-! The end of an MMA. -/

/-- An array once an MMA's accumulation is complete (R66). -/
def ArrSt.completed (a : ArrSt) (op : Nat) (o : MmaOp) : ArrSt :=
  { a.accumulate o o.f.S with mmas := (a.accumulate o o.f.S).mmas.filter (fun q => q.id != op) }

theorem State.arrCount_regs (s : State) (t arr h : Nat) (o : MmaOp) : s.arrCount t arr h o = { s with regs := (s.arrCount t arr h o).regs } := by
  unfold State.arrCount
  dsimp only
  split_ifs <;> rfl

/-- The count of completed operations is none of those that follow the handshakes. -/
theorem ARR_OP_COUNT_notMem (t arr : Nat) :
    Reg.ARR_OP_COUNT t arr ∉ tickRegs t ∧ Reg.ARR_STATUS t arr ≠ Reg.ARR_OP_COUNT t arr := by
  simp [tickRegs, Reg.ARR_OP_COUNT, Reg.ARR_STATUS, Reg.SEQ_HS, Reg.VEU_STATUS, Reg.TILE_STATUS, Reg.MVU_STATUS, Reg.ARR_ACTIVE_HS,
    Reg.ARR_GATED_LO, Reg.ARR_GATED_HI]
  omega

/-- The accumulation of an MMA is complete (R66). -/
theorem State.arrDone_completes {s : State} {t arr op : Nat} {o : MmaOp} (ha : arr < 2) (h : ((s.tile t).arr arr).findMma op = some o) :
    OnlyTile s (s.arrDone t arr op) t ∧ (s.arrDone t arr op).tile t = (s.tile t).setArr arr (((s.tile t).arr arr).completed op o) ∧
      (s.arrDone t arr op).rd (Reg.ARR_OP_COUNT t arr) = s.rd (Reg.ARR_OP_COUNT t arr) + 1 := by
  have hdone : s.arrDone t arr op = (((s.setTile t ((s.tile t).setArr arr (((s.tile t).arr arr).completed op o))).arrCount t arr
      (o.issue + o.f.S + 72) o).addReg (Reg.ARR_OP_COUNT t arr) 1).arrStatus t arr := by
    unfold State.arrDone
    dsimp only
    rw [h]
    rfl
  generalize (s.tile t).setArr arr (((s.tile t).arr arr).completed op o) = x at hdone ⊢
  have hcount := (s.setTile t x).arrCount_regs t arr (o.issue + o.f.S + 72) o
  obtain ⟨-, -, -, -, hregs⟩ := (s.setTile t x).arrCount_ticked (h := o.issue + o.f.S + 72) (o := o) (t := t) ha
  generalize (s.setTile t x).arrCount t arr (o.issue + o.f.S + 72) o = c at hdone hcount hregs
  obtain ⟨honly, htile⟩ := OnlyTile.of_setTile (s := s) (u := s.arrDone t arr op) (t := t) (x := x) (by rw [hdone, hcount]; rfl)
  refine ⟨honly, htile, ?_⟩
  obtain ⟨hcnt, hst⟩ := ARR_OP_COUNT_notMem t arr
  rw [hdone, State.arrStatus, State.rd_wr, if_neg hst, State.addReg, State.rd_wr, if_pos rfl, hregs _ hcnt, State.setTile_rd]
  rfl

theorem ArrSt.completed_acc (a : ArrSt) (op : Nat) (o : MmaOp) (h : Nat) (set : Bool) :
    ((a.completed op o).ticked h).acc set = (a.accumulate o o.f.S).acc set := rfl

/-- An MMA that is complete is no longer in progress. -/
theorem ArrSt.completed_findMma (a : ArrSt) (op : Nat) (o : MmaOp) (h : Nat) : ((a.completed op o).ticked h).findMma op = none := by
  refine List.find?_eq_none.mpr fun q hq => ?_
  obtain ⟨r, hr, rfl⟩ := List.mem_map.mp hq
  obtain ⟨-, hne⟩ := List.mem_filter.mp hr
  simpa using hne

/-- What follows the events of a handshake stays within the tile, where no write is on its way. -/
theorem State.carried_only {s : State} {t : Nat} (hfl : (s.tile t).flights = []) (h : Nat) : OnlyTile s (s.carried t h) t := by
  obtain ⟨hrec, hkept, hother, -⟩ := s.carried_ticked t h
  obtain ⟨-, hstore, hups⟩ := hkept hfl
  refine ⟨?_, hother⟩
  rw [hstore, hups] at hrec
  exact hrec

/-- The handshake in which an MMA's accumulation ends and nothing else is due (R66). -/
theorem mma_completes {s : State} {t arr h ord k op : Nat} {rest : List TileEv} {o : MmaOp} (ha : arr < 2)
    (hev : (s.tile t).evs = ⟨h, ord, k, .arrDone arr op⟩ :: rest) (hlater : ∀ e ∈ rest, h < e.slot) (hh : h < 2 ^ 20)
    (hfl : (s.tile t).flights = []) (hab : (s.tile t).se.aborts = []) (hfind : ((s.tile t).arr arr).findMma op = some o) :
    let u := s.advanceTo t h
    u.hs t = h ∧ (u.tile t).arr arr = (((s.tile t).arr arr).completed op o).ticked h ∧
      u.rd (Reg.ARR_OP_COUNT t arr) = s.rd (Reg.ARR_OP_COUNT t arr) + 1 ∧ OnlyTile s u t := by
  obtain ⟨n, hn⟩ := eventFuel_succ
  have hperf (u : State) : u.performAct t ⟨h, ord, k, .arrDone arr op⟩ = u.arrDone t arr op := rfl
  dsimp only
  rw [State.advanceTo_carried hab, hn, State.runEvents_first hev le_rfl (show (1 : Nat) ≠ 8 by decide) hfl, hperf]
  have hponly := OnlyTile.setTile s t { s.tile t with evs := rest }
  have hptile : (s.setTile t { s.tile t with evs := rest }).tile t = { s.tile t with evs := rest } := (State.tile_setTile s t t _).trans (if_pos rfl)
  have hprd := State.setTile_rd s t { s.tile t with evs := rest } (Reg.ARR_OP_COUNT t arr)
  generalize s.setTile t { s.tile t with evs := rest } = p at hponly hptile hprd
  have hparr : (p.tile t).arr arr = (s.tile t).arr arr := by rw [hptile]; rfl
  obtain ⟨honly, htile, hcount⟩ := State.arrDone_completes (s := p) (t := t) (op := op) (o := o) ha (by rw [hparr]; exact hfind)
  generalize p.arrDone t arr op = c at honly htile hcount
  rw [hparr] at htile
  obtain ⟨-, -, -, hcfl, -⟩ := Tile.setArr_place (p.tile t) arr (((s.tile t).arr arr).completed op o)
  have hcevs := Tile.setArr_evs (p.tile t) arr (((s.tile t).arr arr).completed op o)
  have hcarr := Tile.setArr_arr (p.tile t) arr (((s.tile t).arr arr).completed op o)
  rw [← htile, hptile] at hcfl hcevs
  rw [← htile] at hcarr
  rw [State.runEvents_quiet n (by rw [hcevs]; exact hlater)]
  have hnone : (c.tile t).flights = [] := hcfl.trans hfl
  have hno : ∀ f ∈ (c.tile t).flights, h < f.slot + f.lat := by rw [hnone]; exact fun f hf => absurd hf List.not_mem_nil
  obtain ⟨-, -, hregs⟩ := State.carried_bytes (h := h) hno
  refine ⟨State.carried_hs c t hh, ?_, ?_, OnlyTile.trans (OnlyTile.trans hponly honly) (State.carried_only hnone h)⟩
  · rw [State.carried_tile hno, Tile.carriedAt_arr, hcarr]
  · rw [hregs _ (ARR_OP_COUNT_notMem t arr).1, hcount, hprd]

/-! The capture of a drain. -/

/-- The drain that an array finds after the capture of one that writes rows (R67). -/
theorem ArrSt.captured_findDrain {a : ArrSt} {op : Nat} {d : DrainOp} (hd : a.findDrain op = some d) (hrows : drainRows d.f.outFmt ≠ 0) (h : Nat) :
    ((a.captured op d).ticked h).findDrain op = some { d with rows := drainContents d.f (a.int d.f.accSet) (a.acc d.f.accSet) } := by
  have hid : d.id = op := by simpa using List.find?_some hd
  have hsame : ((fun o : DrainOp => o.id == op) ∘ fun q : DrainOp =>
      if q.id = op then { q with rows := drainContents d.f (a.int d.f.accSet) (a.acc d.f.accSet) } else q) = fun o => o.id == op := by
    funext q
    simp only [Function.comp_apply]
    split <;> rfl
  have hdrains : ((a.captured op d).ticked h).drains = a.drains.map (fun q : DrainOp =>
      if q.id = op then { q with rows := drainContents d.f (a.int d.f.accSet) (a.acc d.f.accSet) } else q) := if_neg hrows
  rw [ArrSt.findDrain, hdrains, List.find?_map, hsame, show a.drains.find? (fun o => o.id == op) = some d from hd, Option.map_some,
    if_pos hid]

/-- The handshake of a capture in which nothing else is due (R67). -/
theorem drain_captured {s : State} {t arr h ord k op : Nat} {rest : List TileEv} {d : DrainOp}
    (hev : (s.tile t).evs = ⟨h, ord, k, .capture arr op⟩ :: rest) (hlater : ∀ e ∈ rest, h < e.slot) (hh : h < 2 ^ 20)
    (hfl : (s.tile t).flights = []) (hab : (s.tile t).se.aborts = []) (hfind : ((s.tile t).arr arr).findDrain op = some d) :
    let u := s.advanceTo t h
    u.hs t = h ∧ (u.tile t).arr arr = (((s.tile t).arr arr).captured op d).ticked h ∧ BytesSame s u := by
  obtain ⟨hstore, hdram, hrec, -, -⟩ := State.runEvents_capture hev hlater hfl hfind
  dsimp only
  rw [State.advanceTo_carried hab]
  generalize State.runEvents t h eventFuel s = w at hstore hdram hrec
  obtain ⟨-, -, -, hwfl, -⟩ := Tile.setArr_place (s.tile t) arr (((s.tile t).arr arr).captured op d)
  have hnone : (w.tile t).flights = [] := hrec.flights.trans (hwfl.trans hfl)
  have hno : ∀ f ∈ (w.tile t).flights, h < f.slot + f.lat := by rw [hnone]; exact fun f hf => absurd hf List.not_mem_nil
  obtain ⟨hcs, hcd, -⟩ := State.carried_bytes (h := h) hno
  refine ⟨State.carried_hs w t hh, ?_, fun a => by rw [hcs, hstore], fun a => by rw [hcd, hdram]⟩
  rw [State.carried_tile hno, Tile.carriedAt_arr, hrec.arr, Tile.setArr_arr]

/-- Settles O32: the advance to the event, and then the handshake of the event. -/
theorem arrayEventsTakePlace : Obligations.ArrayEventsTakePlace := by
  unfold Obligations.ArrayEventsTakePlace
  intro s t a ht
  have harr : a.toNat < 2 := a.isLt
  refine ⟨fun h ord k op rest o hev hlater hhs hh hfl _ hab hfind => ?_, fun h ord k op rest d hev hlater hhs hh hfl _ hab hfind hrows => ?_,
    fun hev => ⟨congrArg Host.Outcome.next (State.runTo_nil _ hev), congrArg Host.Outcome.next (State.runTo_nil _ hev)⟩⟩
  · obtain ⟨hshown, harray, hcount, honly⟩ := mma_completes harr hev hlater hh hfl hab hfind
    refine ⟨_, congrArg Host.Outcome.next (State.runTo_first hev (beq_self_eq_true _) hhs), hshown, ?_, ?_, hcount, honly⟩
    · rw [harray, ArrSt.completed_findMma]
    · rw [harray, ArrSt.completed_acc]
  · obtain ⟨hshown, harray, hbytes⟩ := drain_captured hev hlater hh hfl hab hfind
    refine ⟨_, _, congrArg Host.Outcome.next (State.runTo_first hev (beq_self_eq_true _) hhs), hshown, ?_, rfl, fun set => ?_, hbytes⟩
    · rw [harray, ArrSt.captured_findDrain hfind hrows]
    · rw [harray, ArrSt.captured_acc]

end Sys2Proof.Machine
end

section
/-! The MVU entries (R71, R72, R92, R132): MVM, VLOAD and MDRAIN. -/
namespace Sys2Proof.Machine
open Sys2Proof.Safety

/-! The status register. -/

/-- What the MVU's status register shows of its operations (R56). -/
def mvuWord (l : List MvuOp) : Word :=
  BitVec.ofNat 32 ((!l.isEmpty).toNat + 2 * (l.any (fun o => match o.kind with | .mdrain _ => true | _ => false)).toNat)

theorem State.mvuStatus_rd (s : State) (t : Nat) : (s.mvuStatus t).rd (Reg.MVU_STATUS t) = mvuWord (s.tile t).mvu.ops := by
  have h : s.mvuStatus t = s.wr (Reg.MVU_STATUS t) (mvuWord (s.tile t).mvu.ops) := rfl
  rw [h, State.rd_wr, if_pos rfl]

/-- The counters of the arrays leave the status of the MVU. -/
theorem State.arrTick_rd_mvu (s : State) (t h : Nat) : (s.arrTick t h).rd (Reg.MVU_STATUS t) = s.rd (Reg.MVU_STATUS t) := by
  have hplaces (arr : Nat) : Reg.ARR_ACTIVE_HS t arr ≠ Reg.MVU_STATUS t ∧ Reg.ARR_GATED_LO t arr ≠ Reg.MVU_STATUS t ∧
      Reg.ARR_GATED_HI t arr ≠ Reg.MVU_STATUS t := by
    simp [Reg.ARR_ACTIVE_HS, Reg.ARR_GATED_LO, Reg.ARR_GATED_HI, Reg.MVU_STATUS]
    omega
  have hone (arr : Nat) (u : State) (o : MmaOp) : (u.arrCount t arr h o).rd (Reg.MVU_STATUS t) = u.rd (Reg.MVU_STATUS t) := by
    obtain ⟨hact, hlo, hhi⟩ := hplaces arr
    unfold State.arrCount
    dsimp only
    split_ifs <;> simp only [State.wr2, State.addReg, State.rd_wr, hact, hlo, hhi, if_false]
  have hfold (arr : Nat) (l : List MmaOp) (u : State) :
      (l.foldl (fun s o => s.arrCount t arr h o) u).rd (Reg.MVU_STATUS t) = u.rd (Reg.MVU_STATUS t) := by
    induction l generalizing u with
    | nil => rfl
    | cons o r ih => exact (ih _).trans (hone arr u o)
  have harr (arr : Nat) (u : State) : (u.arrTickOne t arr h).rd (Reg.MVU_STATUS t) = u.rd (Reg.MVU_STATUS t) := by
    unfold State.arrTickOne
    dsimp only
    split
    · rfl
    · rw [State.setTile_rd, hfold]
  rw [State.arrTick, harr, harr]

/-- What the status register shows once a handshake's events have taken place. -/
theorem State.carried_rd_mvu {s : State} {t h : Nat} (hfl : (s.tile t).flights = []) (hops : (s.tile t).mvu.ops ≠ []) :
    (s.carried t h).rd (Reg.MVU_STATUS t) = mvuWord ((s.tile t).mvu.ops.filter (fun o => decide (h < o.done))) := by
  have hplaces : Reg.TILE_STATUS t ≠ Reg.MVU_STATUS t ∧ Reg.VEU_STATUS t ≠ Reg.MVU_STATUS t ∧ Reg.SEQ_HS t ≠ Reg.MVU_STATUS t := by
    simp [Reg.TILE_STATUS, Reg.MVU_STATUS, Reg.VEU_STATUS, Reg.SEQ_HS]
  obtain ⟨htile, hveu, hhs⟩ := hplaces
  have hland : s.landFlights t h = s := State.landFlights_later (by rw [hfl]; exact fun f hf => absurd hf List.not_mem_nil)
  have hshown (u : State) : (((u.setHs t h).veuStatus t).tileBusy t).rd (Reg.MVU_STATUS t) = u.rd (Reg.MVU_STATUS t) := by
    simp only [State.tileBusy, State.veuStatus, State.setHs, State.rd_setFld, State.rd_wr, htile, hveu, hhs, if_false]
  have hret : s.mvuRetire t h = (s.setTile t { s.tile t with mvu := { (s.tile t).mvu with
      ops := (s.tile t).mvu.ops.filter (fun o => decide (h < o.done)) } }).mvuStatus t := by
    unfold State.mvuRetire
    dsimp only
    split
    · exact absurd ‹_› hops
    · rfl
  rw [State.carried, hland, hshown, State.arrTick_rd_mvu, hret, State.mvuStatus_rd, State.tile_setTile, if_pos rfl]

/-- The register shows that an operation is in progress. -/
theorem mvuWord_busy {l : List MvuOp} (h : l ≠ []) : Word.bit (mvuWord l) 0 = true := by
  have hbusy : l.isEmpty = false := by rwa [List.isEmpty_eq_false_iff]
  rw [Word.bit_eq_field, mvuWord, Word.field, BitVec.toNat_ofNat, decide_eq_true_eq, hbusy]
  simp only [Bool.not_false, Bool.toNat_true]
  omega

/-! An operation starts. -/

/-- The MVU accepts an entry (R72). -/
theorem State.mvuIssue_accepts {s : State} {t I : Nat} (h : (s.tile t).mvu.accept ≤ I) (entry : Nat) (body : State → Nat → State) :
    s.mvuIssue t I entry body = (body (s.setTile t (s.tile t).numbered) (s.tile t).order).mvuStatus t := by
  unfold State.mvuIssue
  dsimp only
  rw [if_neg (Nat.not_lt.mpr h)]
  rfl

/-- The MVU before it accepts: the entry clashes with the one that streams (R132). -/
theorem State.mvuIssue_clashes {s : State} {t I : Nat} (h : I < (s.tile t).mvu.accept) {o : MvuOp} (ho : (s.tile t).mvu.ops.getLast? = some o)
    (entry : Nat) (body : State → Nat → State) : s.mvuIssue t I entry body = s.slotClash t 1 o.entry entry I := by
  unfold State.mvuIssue
  dsimp only
  rw [if_pos h, ho]

/-- A tile in which an operation of the MVU starts, its coming events aside. -/
def Tile.mvuStarted (x : Tile) (o : MvuOp) (accept : Nat) : Tile :=
  { x with order := x.order + 1, mvu := { x.mvu with ops := x.mvu.ops ++ [o], accept := accept } }

/-- What the start of an operation leaves in a tile without coming events, and what it brings (R72). -/
theorem State.mvuIssue_started {s : State} {t I : Nat} (hnil : (s.tile t).evs = []) (hacc : (s.tile t).mvu.accept ≤ I)
    (entry : Nat) (op : Nat → MvuOp) (accept : Nat → Nat) (l : Nat → List TileEv) :
    let v := s.mvuIssue t I entry (fun s id => (s.mvuStart t (op id) (accept id)).addEvs t (l id))
    Placed s v t ∧ ∃ ev, EvsFrom (l (s.tile t).order) ev ∧
      v.tile t = { (s.tile t).mvuStarted (op (s.tile t).order) (accept (s.tile t).order) with evs := ev } := by
  obtain ⟨ev, hev, hfrom⟩ := ((s.tile t).mvuStarted (op (s.tile t).order) (accept (s.tile t).order)).addEvs_evsFrom (l (s.tile t).order)
  have hevs : ((s.tile t).mvuStarted (op (s.tile t).order) (accept (s.tile t).order)).evs = [] := hnil
  rw [hevs, List.nil_append] at hfrom
  have hbody : (((s.setTile t (s.tile t).numbered).mvuStart t (op (s.tile t).order) (accept (s.tile t).order)).addEvs t (l (s.tile t).order)) =
      s.setTile t { (s.tile t).mvuStarted (op (s.tile t).order) (accept (s.tile t).order) with evs := ev } := by
    have hstart : (s.setTile t (s.tile t).numbered).mvuStart t (op (s.tile t).order) (accept (s.tile t).order) =
        s.setTile t ((s.tile t).mvuStarted (op (s.tile t).order) (accept (s.tile t).order)) := by
      rw [State.mvuStart, State.tile_setTile, if_pos rfl, State.setTile_setTile]
      rfl
    rw [hstart, State.addEvs, State.tile_setTile, if_pos rfl, hev, State.setTile_setTile]
  dsimp only
  rw [State.mvuIssue_accepts hacc, hbody]
  refine ⟨((Placed.refl s t).setTile (x := { (s.tile t).mvuStarted (op (s.tile t).order) (accept (s.tile t).order) with evs := ev })
    ⟨rfl, rfl, rfl, rfl, rfl⟩).wr (by simp [Reg.MVU_STATUS, Reg.SEQ_STATUS]) _, ev, hfrom, ?_⟩
  exact (State.tile_setTile s t t _).trans (if_pos rfl)

/-- The record of the MVU after reads. -/
theorem Tile.Read.mvu {x y : Tile} (h : Tile.Read x y) :
    ∃ g, MvuKept g ∧ y.mvu = { x.mvu with ops := x.mvu.ops.map g } := by
  obtain ⟨g0, g1, gm, v, -, -, hm, ev, lw, ce, c, rfl⟩ := h
  exact ⟨gm, hm, rfl⟩

/-- An entry of a quiet tile that starts an operation of the MVU, of which no more than reads are due with the issue. -/
theorem mvu_starts {s : State} {t : Nat} (q : Quiet s t) (hacc : (s.tile t).mvu.accept ≤ slotOf s t) {op : Nat → MvuOp} {accept : Nat → Nat}
    {l : Nat → List TileEv} {body : State → Nat → Nat → Nat → State}
    (hbody : body (issued s t 1) (slotOf s t) (s.tile t).nextK (s.tile t).order = (issued s t 1).mvuIssue t (slotOf s t) (s.tile t).nextK
      (fun s id => (s.mvuStart t (op id) (accept id)).addEvs t (l id)))
    (hl : ∀ id, ∀ e ∈ l id, e.act.reads = true ∨ slotOf s t < e.slot) (hdone : ∀ id, slotOf s t < (op id).done) :
    let u := s.issueEntry t 1 body
    ∃ id o, Issued s u t 1 ∧ BytesSame s u ∧ o ∈ (u.tile t).mvu.ops ∧ o.kind = (op id).kind ∧ o.entry = (op id).entry ∧
      o.done = (op id).done ∧ (u.tile t).mvu.accept = accept id ∧ (u.tile t).mvu.acc = (s.tile t).mvu.acc ∧
      (u.tile t).mvu.vrf = (s.tile t).mvu.vrf ∧ u.bit (Reg.MVU_STATUS t) 0 = true := by
  obtain ⟨hnil, -, hops, -⟩ := issued_resting q 1
  have hmvu : ((issued s t 1).tile t).mvu = (s.tile t).mvu := by rw [issued_tile]
  obtain ⟨hplaced, ev, hfrom, hvtile⟩ := (issued s t 1).mvuIssue_started (I := slotOf s t) hnil (by rw [hmvu]; exact hacc) (s.tile t).nextK op accept l
  rw [← hbody] at hplaced hvtile
  generalize hv : body (issued s t 1) (slotOf s t) (s.tile t).nextK (s.tile t).order = v at hplaced hvtile
  generalize hid : ((issued s t 1).tile t).order = id at hvtile hfrom
  have hvevs : (v.tile t).evs = ev := by rw [hvtile]
  have hvmvu : (v.tile t).mvu = { (s.tile t).mvu with ops := [op id], accept := accept id } := by
    rw [hvtile, Tile.mvuStarted, hmvu, show (s.tile t).mvu.ops = [] by rw [← hmvu]; exact hops]
    rfl
  obtain ⟨w, hissued, hbytes, hread, hu, htile, -, -⟩ := State.issueEntry_reads q 1 hv hplaced fun e he hs => by
    rw [hvevs] at he
    exact hfrom.due (hl id) he hs
  obtain ⟨g, hg, hw⟩ := hread.mvu
  rw [hvmvu] at hw
  have hwops : (w.tile t).mvu.ops = [g (op id)] := by rw [hw]; rfl
  obtain ⟨-, hkind, hentry, hdone'⟩ := hg (op id)
  have hkept : (w.tile t).mvu.ops.filter (fun o => decide (slotOf s t < o.done)) = [g (op id)] := by
    rw [hwops, List.filter_singleton, hdone', decide_eq_true (hdone id)]
    rfl
  have humvu : ((s.issueEntry t 1 body).tile t).mvu = { (w.tile t).mvu with ops := [g (op id)] } := by
    rw [htile, Tile.carriedAt, hkept]
  have hwfl : (w.tile t).flights = [] := hread.flights.trans (hplaced.no_flights q)
  refine ⟨id, g (op id), hissued, hbytes, ?_, hkind, hentry, hdone', ?_, ?_, ?_, ?_⟩
  · rw [humvu]
    exact List.mem_singleton_self _
  · rw [humvu, hw]
  · rw [humvu, hw]
  · rw [humvu, hw]
  · rw [State.bit, hu, State.carried_rd_mvu hwfl (by rw [hwops]; exact List.cons_ne_nil _ _), hkept]
    exact mvuWord_busy (List.cons_ne_nil _ _)

/-! MVM and VLOAD. -/

/-- The reads of an MVM take place from its issue on, and the other events after it; its stream ends with its last row (R72). -/
theorem mvmPlan_slots {op I : Nat} {f : MvmFields} (n i : Nat) {slot : Nat} (hs : I ≤ slot) :
    (∀ e ∈ (mvmPlan op f n i slot).1, e.2.reads = true ∨ I < e.1) ∧
      ∃ extra, (mvmPlan op f n i slot).2 = slot + n * f.nb + extra ∧ (f.scale = 0 → extra = 0) := by
  induction n generalizing i slot with
  | zero => exact ⟨fun e he => absurd he List.not_mem_nil, 0, by simp [mvmPlan], fun _ => rfl⟩
  | succ n ih =>
    generalize hsc : (if f.scale = 0 then [] else scaleEnters (f.ws.toNat * 32) f.rowScales i) = scales
    obtain ⟨hevs, extra, hend, hnone⟩ := ih (i + 1) (slot := slot + f.nb + scales.length) (by omega)
    refine ⟨fun e he => ?_, extra + scales.length, ?_, fun h0 => ?_⟩
    · simp only [mvmPlan, hsc, List.mem_append, List.mem_singleton, List.mem_map] at he
      rcases he with ((rfl | hscale) | ⟨b, -, rfl⟩) | hrest
      · exact .inl rfl
      · obtain ⟨j, -, rfl⟩ := List.mem_mapIdx.mp hscale
        right; dsimp only; omega
      · right; dsimp only; omega
      · exact hevs e hrest
    · simp only [mvmPlan, hsc]
      rw [hend, Nat.succ_mul]
      omega
    · rw [if_pos h0] at hsc
      rw [hnone h0, ← hsc]
      rfl

/-- The events of a VLOAD whose issue, number, place and entry are given (R72). -/
def vloadEvents (f : VloadFields) (I entry order id : Nat) : List TileEv :=
  (List.range (f.rows.toNat + 1)).flatMap (fun i =>
      [(⟨I + i, order, entry, .mvuRow id i (f.wRow.toNat + i)⟩ : TileEv), ⟨I + i + 8, order, entry, .vrfRow id i⟩]) ++
    (vloadScaleRows f).mapIdx (fun i r => (⟨I + (f.rows.toNat + 1) + i, order, entry, .mvuScale id r⟩ : TileEv)) ++
    (if f.scale = 0 then [] else [(⟨I + (f.rows.toNat + 1) + (vloadScaleRows f).length + 7, order, entry, .vrfScale id⟩ : TileEv)])

/-- The reads of a VLOAD take place from its issue on, and the other events after it. -/
theorem vloadEvents_slots {f : VloadFields} {I entry order id : Nat} {e : TileEv} (h : e ∈ vloadEvents f I entry order id) :
    e.act.reads = true ∨ I < e.slot := by
  simp only [vloadEvents, List.mem_append, List.mem_flatMap, List.mem_cons, List.not_mem_nil, or_false] at h
  rcases h with (⟨i, -, rfl | rfl⟩ | hscale) | hdone
  · exact .inl rfl
  · right; dsimp only; omega
  · obtain ⟨j, -, rfl⟩ := List.mem_mapIdx.mp hscale
    right; dsimp only; omega
  · split at hdone
    · exact absurd hdone List.not_mem_nil
    · right; rw [List.mem_singleton.mp hdone]; dsimp only; omega

/-! MDRAIN. -/

/-- The registers that the check of an MDRAIN writes. -/
def mdrainRegs (t : Nat) : List Nat := Reg.MVU_INT_OVF t :: Reg.MVU_SPECIAL t :: logRegs

/-- The check of an MDRAIN (R92, R102, R103). -/
theorem State.mdrainCheck_trapped (s : State) (t I entry : Nat) (f : MdrainFields) :
    Leaves (Tile.Trapped (I + 5)) (mdrainRegs t) s (s.mdrainCheck t I entry f) t := by
  have hlog : ∀ r ∈ logRegs, r ∈ mdrainRegs t := fun r hr => by simp [mdrainRegs, hr]
  have hovf : Leaves (Tile.Trapped (I + 5)) (mdrainRegs t) s (s.setBit (Reg.MVU_INT_OVF t) 0 true) t := .wr .refl s (by simp [mdrainRegs]) _
  have hrec := (hovf.trans .trans (State.logTile_trapped _ t 0x0203
    ((s.setBit (Reg.MVU_INT_OVF t) 0 true).numDetail t 2 entry 0xFF 0xFFFF 0xFFFF) sev_below_device.2.1 hlog)).ite
    (c := (s.tile t).mvu.ovf = true) (.refl .refl s)
  exact (hrec.trans .trans (State.recordSpecial_trapped _ t _ _ _ (by simp [mdrainRegs]))).trans .trans (State.specialTrap_trapped ..)

/-- The operation that an MDRAIN starts (R72). -/
def mdrainOp (id : Nat) (f : MdrainFields) (entry I : Nat) (m : MvuSt) : MvuOp :=
  ⟨id, .mdrain f, entry, I + 2 + (f.rows.toNat + 1), (mdrainContents f m).mapIdx (fun j r => (j, r)), []⟩

/-- The slots of an MDRAIN's rows (R72). -/
def mdrainRowEvents (f : MdrainFields) (I entry order id : Nat) : List TileEv :=
  (List.range (f.rows.toNat + 1)).map (fun j => ⟨I + 2 + j, order, entry, .mdrainRow id j (f.cRow.toNat + j)⟩)

/-- The rows of an MDRAIN are due one after the other, after its issue. -/
theorem mdrainRowEvents_slots {f : MdrainFields} {I entry order id : Nat} : (∀ e ∈ mdrainRowEvents f I entry order id, I < e.slot) ∧
    (mdrainRowEvents f I entry order id).Pairwise (fun a b => a.slot ≠ b.slot) := by
  refine ⟨fun e he => ?_, List.pairwise_map.mpr (List.pairwise_lt_range.imp fun {i j} hij => ?_)⟩
  · obtain ⟨j, -, rfl⟩ := List.mem_map.mp he
    dsimp only
    omega
  · dsimp only
    omega

/-- Clashes and traps claim no slot. -/
theorem TileAct.notes_wide {a : TileAct} (h : a.notes = true) : a.wide = false := by
  cases a <;> simp [TileAct.notes, TileAct.wide] at h ⊢

/-- What an MDRAIN does at its issue (R72). -/
def State.mdrainIssue (s : State) (t : Nat) (f : MdrainFields) (I entry order : Nat) : State :=
  s.mvuIssue t I entry (fun s id => ((s.mdrainCheck t I entry f).mvuStart t (mdrainOp id f entry I (s.tile t).mvu)
    (I + 2 + (f.rows.toNat + 1))).addEvs t (mdrainRowEvents f I entry order id))

/-- What the issue of an MDRAIN leaves in a tile without coming events, and what it brings (R72, R103). -/
theorem State.mdrainIssue_started {s : State} {t I : Nat} (ht : t < 128) {f : MdrainFields} (hnil : (s.tile t).evs = [])
    (hops : (s.tile t).mvu.ops = []) (hacc : (s.tile t).mvu.accept ≤ I) (hlast : ∀ w, (s.tile t).lastWide = some w → w.1 ≤ I) (entry order : Nat) :
    let v := s.mdrainIssue t f I entry order
    Placed s v t ∧ (v.tile t).mvu = { (s.tile t).mvu with
      ops := [mdrainOp (s.tile t).order f entry I (s.tile t).mvu], accept := I + 2 + (f.rows.toNat + 1) } ∧
      (∀ e ∈ (v.tile t).evs, e.slot ≤ I → e.act.notes = true) ∧
      ∀ e ∈ mdrainRowEvents f I entry order (s.tile t).order, e ∈ (v.tile t).evs := by
  have hptile : (s.setTile t (s.tile t).numbered).tile t = (s.tile t).numbered := (State.tile_setTile s t t _).trans (if_pos rfl)
  have hpplaced : Placed s (s.setTile t (s.tile t).numbered) t := (Placed.refl s t).setTile ⟨rfl, rfl, rfl, rfl, rfl⟩
  dsimp only
  rw [State.mdrainIssue, State.mvuIssue_accepts hacc]
  generalize s.setTile t (s.tile t).numbered = p at hptile hpplaced
  obtain ⟨hstore, hdram, htrapped, hregs⟩ := p.mdrainCheck_trapped t I entry f
  generalize p.mdrainCheck t I entry f = c at hstore hdram htrapped hregs
  rw [hptile] at htrapped ⊢
  obtain ⟨ev, hc, hfrom, -⟩ := htrapped
  have hnone : ∀ e ∈ ev, e.act.notes = true := fun e he => And.left <| (hfrom e he).resolve_left fun h => by
    rw [show (s.tile t).numbered.evs = [] from hnil] at h
    exact absurd h List.not_mem_nil
  generalize ho : mdrainOp (s.tile t).order f entry I (s.tile t).numbered.mvu = o
  have hstart : (c.mvuStart t o (I + 2 + (f.rows.toNat + 1))).addEvs t (mdrainRowEvents f I entry order (s.tile t).order) =
      c.setTile t (Tile.addEvs { (s.tile t).mvuStarted o (I + 2 + (f.rows.toNat + 1)) with evs := ev }
        (mdrainRowEvents f I entry order (s.tile t).order)) := by
    rw [State.mvuStart, hc, State.addEvs, State.tile_setTile, if_pos rfl, State.setTile_setTile]
    rfl
  obtain ⟨hlater, hpair⟩ := @mdrainRowEvents_slots f I entry order (s.tile t).order
  obtain ⟨ev', hadd, hmem⟩ := Tile.addEvs_free (x := { (s.tile t).mvuStarted o (I + 2 + (f.rows.toNat + 1)) with evs := ev }) hpair
    fun e he _ => ⟨fun y hy hw => absurd hw (by rw [TileAct.notes_wide (hnone y hy)]; exact Bool.false_ne_true),
      fun w hw => (Nat.lt_of_le_of_lt (hlast w hw) (hlater e he)).ne⟩
  have hstatus : Reg.SEQ_STATUS t ∉ mdrainRegs t := by
    have hlog : Reg.SEQ_STATUS t ∉ logRegs := notMem_logRegs_tile ht (by simp [Reg.SEQ_STATUS])
    simp only [mdrainRegs, List.mem_cons, not_or]
    exact ⟨by simp [Reg.SEQ_STATUS, Reg.MVU_INT_OVF], by simp [Reg.SEQ_STATUS, Reg.MVU_SPECIAL], hlog⟩
  have hplace : Placed s c t := hpplaced.trans ⟨hstore, hdram, hregs _ hstatus, by rw [hc, hptile], by rw [hc, hptile], by rw [hc, hptile],
    by rw [hc, hptile], by rw [hc, hptile]⟩
  have htile : ((c.mvuStart t o (I + 2 + (f.rows.toNat + 1))).addEvs t (mdrainRowEvents f I entry order (s.tile t).order)).tile t =
      { (s.tile t).mvuStarted o (I + 2 + (f.rows.toNat + 1)) with evs := ev' } := by
    rw [hstart, State.tile_setTile, if_pos rfl, hadd]
  have hv : ((((c.mvuStart t o (I + 2 + (f.rows.toNat + 1))).addEvs t (mdrainRowEvents f I entry order (s.tile t).order))).mvuStatus t).tile t =
      { (s.tile t).mvuStarted o (I + 2 + (f.rows.toNat + 1)) with evs := ev' } := htile
  rw [hv]
  refine ⟨?_, ?_, fun e he hs => ?_, fun e he => (hmem e).mpr (.inr he)⟩
  · refine Placed.wr ?_ (by simp [Reg.MVU_STATUS, Reg.SEQ_STATUS]) _
    rw [hstart, hadd]
    obtain ⟨-, -, -, h1, h2, h3, h4, h5⟩ := id hplace
    exact hplace.setTile ⟨h1.symm, h2.symm, h3.symm, h4.symm, h5.symm⟩
  · rw [← ho, Tile.mvuStarted, hops]
    rfl
  · rcases (hmem e).mp he with he | he
    · exact hnone e he
    · exact absurd hs (Nat.not_le.mpr (hlater e he))

/-- The map of a list's indices, counted from a number on. -/
theorem SMap.find_mapIdx {α : Type} (l : List α) (n j : Nat) : SMap.find (l.mapIdx (fun i r => (n + i, r))) (n + j) = l[j]? := by
  induction l generalizing n j with
  | nil => rfl
  | cons x r ih =>
    rw [List.mapIdx_cons, SMap.find]
    cases j with
    | zero => exact if_pos rfl
    | succ j =>
      have hshift : (fun i (r : α) => (n + (i + 1), r)) = fun i r => (n + 1 + i, r) := by
        funext i r
        rw [Nat.add_assoc, Nat.add_comm 1 i]
      rw [if_neg (by omega), hshift, show n + (j + 1) = n + 1 + j by omega, ih, List.getElem?_cons_succ]

/-- What the map of a list's indices has at an index. -/
theorem SMap.get_mapIdx {α : Type} (l : List α) (d : α) (j : Nat) : SMap.get (l.mapIdx (fun i r => (i, r))) d j = l.getD j d := by
  have h := SMap.find_mapIdx l 0 j
  simp only [Nat.zero_add] at h
  rw [SMap.get, h, List.getD_eq_getElem?_getD]

/-- What the register shows of an MDRAIN (R56). -/
theorem mvuWord_mdrain {o : MvuOp} {f : MdrainFields} (h : o.kind = .mdrain f) : (mvuWord [o]).field 0 2 = 3 := by
  have hword : mvuWord [o] = 3 := by simp [mvuWord, h]
  rw [hword]
  rfl

/-- An MDRAIN of a quiet tile whose MVU accepts it (R72). -/
theorem mdrain_captures {s : State} {t : Nat} (q : Quiet s t) (hacc : (s.tile t).mvu.accept ≤ slotOf s t) (f : MdrainFields) :
    let u := s.issueEntry t 1 (fun s I k order => s.mdrainIssue t f I k order)
    let o := mdrainOp ((s.tile t).order + 1) f (s.tile t).nextK (slotOf s t) (s.tile t).mvu
    Issued s u t 1 ∧ BytesSame s u ∧ (u.tile t).mvu.ops = [o] ∧ (u.tile t).mvu.acc = (s.tile t).mvu.acc ∧
      (∀ e ∈ mdrainRowEvents f (slotOf s t) (s.tile t).nextK (s.tile t).order ((s.tile t).order + 1), e ∈ (u.tile t).evs) ∧
      u.fld (Reg.MVU_STATUS t) 0 2 = 3 := by
  obtain ⟨ht, hwide⟩ : t < 128 ∧ ∀ w, ((issued s t 1).tile t).lastWide = some w → w.1 ≤ slotOf s t := by
    obtain ⟨⟨ht, -, -, -, -, -, -, -, -, hw⟩, -⟩ := q
    rw [issued_tile]
    exact ⟨ht, hw⟩
  obtain ⟨hnil, -, hops, -⟩ := issued_resting q 1
  have hmvu : ((issued s t 1).tile t).mvu = (s.tile t).mvu := by rw [issued_tile]
  have horder : ((issued s t 1).tile t).order = (s.tile t).order + 1 := by rw [issued_tile]
  obtain ⟨hplaced, hvmvu, hdue, hrows⟩ := (issued s t 1).mdrainIssue_started (I := slotOf s t) ht (f := f) hnil hops (by rw [hmvu]; exact hacc)
    hwide (s.tile t).nextK (s.tile t).order
  rw [hmvu, horder] at hvmvu
  rw [horder] at hrows
  generalize hv : (issued s t 1).mdrainIssue t f (slotOf s t) (s.tile t).nextK (s.tile t).order = v at hplaced hvmvu hdue hrows
  obtain ⟨w, hissued, hbytes, hrec, hu, htile, hkeep, -⟩ := State.issueEntry_notes q 1
    (body := fun s I k order => s.mdrainIssue t f I k order) hv hplaced hdue
  have hwmvu : (w.tile t).mvu = (v.tile t).mvu := by
    obtain ⟨ev, lw, ce, c, hw⟩ := hrec
    rw [hw]
  generalize ho : mdrainOp ((s.tile t).order + 1) f (s.tile t).nextK (slotOf s t) (s.tile t).mvu = o at hvmvu
  have hdone : slotOf s t < o.done := by
    rw [← ho]
    exact show slotOf s t < slotOf s t + 2 + (f.rows.toNat + 1) by omega
  have hwops : (w.tile t).mvu.ops = [o] := by rw [hwmvu, hvmvu]
  have hkept : (w.tile t).mvu.ops.filter (fun o => decide (slotOf s t < o.done)) = [o] := by
    rw [hwops, List.filter_singleton, decide_eq_true hdone]
    rfl
  have hkind : o.kind = .mdrain f := by rw [← ho]; rfl
  obtain ⟨hlater, -⟩ := @mdrainRowEvents_slots f (slotOf s t) (s.tile t).nextK (s.tile t).order ((s.tile t).order + 1)
  refine ⟨hissued, hbytes, ?_, ?_, fun e he => hkeep e (hrows e he) (hlater e he), ?_⟩
  · rw [htile, Tile.carriedAt, hkept]
  · rw [htile, Tile.carriedAt, hwmvu, hvmvu]
  · rw [State.fld, hu, State.carried_rd_mvu (hrec.flights.trans (hplaced.no_flights q)) (by rw [hwops]; exact List.cons_ne_nil _ _), hkept]
    exact mvuWord_mdrain hkind

/-! Clashes. -/

/-- An MVU entry before the MVU accepts clashes with the one that streams (R132). -/
theorem mvu_clashes {s : State} {t : Nat} (c : Calm s t) (hacc : slotOf s t < (s.tile t).mvu.accept) {o : MvuOp}
    (ho : (s.tile t).mvu.ops.getLast? = some o) (hentry : o.entry < 4096) {body : State → Nat → Nat → Nat → State}
    {start : State → Nat → State} (hbody : body (entered s t 1) (slotOf s t) (s.tile t).nextK (s.tile t).order =
      (entered s t 1).mvuIssue t (slotOf s t) (s.tile t).nextK start) :
    let u := s.issueEntry t 1 body
    Issued s u t 1 ∧ BytesSame s u ∧ Clashed s u t 1 o.entry (s.tile t).nextK (slotOf s t) ∧ (u.tile t).mvu = (s.tile t).mvu := by
  have hmvu : ((entered s t 1).tile t).mvu = (s.tile t).mvu := by rw [entered_tile c]
  rw [State.mvuIssue_clashes (by rw [hmvu]; exact hacc) (by rw [hmvu]; exact ho)] at hbody
  obtain ⟨hissued, hbytes, hclash, -, -, hmvu', -⟩ := State.issueEntry_clash c (cause := 1) (by decide) hentry hbody
  exact ⟨hissued, hbytes, hclash, hmvu'⟩

/-! The three entries. -/

/-- The operation that an MVM starts (R72). -/
def mvmOp (f : MvmFields) (I entry id : Nat) : MvuOp := ⟨id, .mvm f, entry, (mvmPlan id f f.n 0 I).2 + 12, [], []⟩

/-- The events of an MVM (R72). -/
def mvmEvents (f : MvmFields) (I entry order id : Nat) : List TileEv :=
  (mvmPlan id f f.n 0 I).1.map (fun e => (⟨e.1, order, entry, e.2⟩ : TileEv))

/-- What an MVM does at its issue (R72). -/
def mvmIssue (t : Nat) (f : MvmFields) (s : State) (I k order : Nat) : State :=
  s.mvuIssue t I k (fun s id => (s.mvuStart t (mvmOp f I k id) (mvmPlan id f f.n 0 I).2).addEvs t (mvmEvents f I k order id))

/-- The upsets that an MVM's reads meet leave the tiles, the memories and the registers. -/
theorem State.addSoft_same (s : State) (t : Nat) (soft : List SoftErr) : (s.addSoft t soft).tiles = s.tiles ∧
    (s.addSoft t soft).regs = s.regs ∧ (s.addSoft t soft).store = s.store ∧ (s.addSoft t soft).dram = s.dram := ⟨rfl, rfl, rfl, rfl⟩

/-- What two states agree on that have the same tiles, registers and memories. -/
theorem safety_congr {s s' : State} (h : s'.tiles = s.tiles ∧ s'.regs = s.regs ∧ s'.store = s.store ∧ s'.dram = s.dram) (u : State) (t : Nat) :
    s'.tile t = s.tile t ∧ slotOf s' t = slotOf s t ∧ (Calm s t → Calm s' t) ∧ (Issued s' u t 1 → Issued s u t 1) ∧
      (BytesSame s' u → BytesSame s u) ∧
      ∀ {cause first second h}, Clashed s' u t cause first second h → Clashed s u t cause first second h := by
  obtain ⟨htiles, hregs, hstore, hdram⟩ := h
  have htile : s'.tile t = s.tile t := by rw [State.tile, State.tile, htiles]
  have hrd (a : Nat) : s'.rd a = s.rd a := by rw [State.rd, State.rd, hregs]
  have hslot : slotOf s' t = slotOf s t := by rw [slotOf, slotOf, htile, State.hs, State.hs, State.fld, State.fld, hrd]
  have hready : s'.seqReady t = s.seqReady t := by simp only [State.seqReady, State.bit, hrd, htile]
  have hlast (k : Nat) : s'.lastEntry t k = s.lastEntry t k := State.lastEntry_congr (hrd _) (fun v _ => hrd _) k
  refine ⟨htile, hslot, fun h => ?_, fun h => ?_, fun h => ?_, fun h => Clashed.congr h (hrd _).symm (hrd _).symm fun _ _ => rfl⟩
  · simpa only [Safety.Calm, htile, hslot, hready] using h
  · simpa only [Issued, htile, hslot, hlast] using h
  · simpa only [BytesSame, hstore, hdram] using h

theorem exec_mvm {f : MvmFields} (hl : f.legal = true) (t : Nat) (soft : List SoftErr) (s : State) :
    exec (.mvm t f soft) s = .next ((s.addSoft t soft).issueEntry t 1 (mvmIssue t f)) := by
  change execMvm t f soft s = _
  rw [execMvm, if_pos hl]
  rfl

theorem exec_vload {f : VloadFields} (hl : f.legal = true) (t : Nat) (s : State) : exec (.vload t f) s =
    .next (s.issueEntry t 1 (fun s I k order => s.mvuIssue t I k (fun s id =>
      (s.mvuStart t ⟨id, .vload f, k, I + (f.rows.toNat + 1) + (vloadScaleRows f).length + 7, [], []⟩
        (I + (f.rows.toNat + 1) + (vloadScaleRows f).length)).addEvs t (vloadEvents f I k order id)))) := by
  change execVload t f s = _
  rw [execVload, if_pos hl]
  rfl

theorem exec_mdrain {f : MdrainFields} (hl : f.legal = true) (t : Nat) (s : State) : exec (.mdrain t f) s =
    .next (s.issueEntry t 1 (fun s I k order => s.mdrainIssue t f I k order)) := by
  change execMdrain t f s = _
  rw [execMdrain, if_pos hl]
  rfl

/-- An MVM of a quiet tile whose MVU accepts it (R72). -/
theorem mvm_streams {s : State} {t : Nat} (q : Quiet s t) (hacc : (s.tile t).mvu.accept ≤ slotOf s t) (f : MvmFields) :
    let u := s.issueEntry t 1 (mvmIssue t f)
    ∃ o extra, Issued s u t 1 ∧ BytesSame s u ∧ o ∈ (u.tile t).mvu.ops ∧ o.kind = .mvm f ∧ o.entry = (s.tile t).nextK ∧
      (u.tile t).mvu.accept = slotOf s t + (f.rows.toNat + 1) * (f.batch.toNat + 1) + extra ∧ (f.scale = 0 → extra = 0) ∧
      o.done = (u.tile t).mvu.accept + 12 ∧ (u.tile t).mvu.acc = (s.tile t).mvu.acc ∧ u.bit (Reg.MVU_STATUS t) 0 = true := by
  have hslots (id : Nat) := mvmPlan_slots (op := id) (f := f) f.n 0 (le_refl (slotOf s t))
  obtain ⟨id, o, hissued, hbytes, hmem, hkind, hentry, hdone, haccept, hmacc, -, hbit⟩ := mvu_starts q hacc
    (op := mvmOp f (slotOf s t) (s.tile t).nextK) (accept := fun id => (mvmPlan id f f.n 0 (slotOf s t)).2)
    (l := mvmEvents f (slotOf s t) (s.tile t).nextK (s.tile t).order) (body := mvmIssue t f) rfl
    (fun id e he => by
      obtain ⟨p, hp, rfl⟩ := List.mem_map.mp he
      exact (hslots id).1 p hp)
    (fun id => by
      obtain ⟨-, extra, hend, -⟩ := hslots id
      rw [mvmOp, hend]
      exact show slotOf s t < slotOf s t + f.n * f.nb + extra + 12 by omega)
  obtain ⟨-, extra, hend, hnone⟩ := hslots id
  exact ⟨o, extra, hissued, hbytes, hmem, hkind, hentry, haccept.trans hend, hnone, hdone.trans (by rw [haccept]; rfl), hmacc, hbit⟩

/-- A VLOAD of a quiet tile whose MVU accepts it (R72). -/
theorem vload_loads {s : State} {t : Nat} (q : Quiet s t) (hacc : (s.tile t).mvu.accept ≤ slotOf s t) {f : VloadFields} (hl : f.legal = true) :
    ∃ u o extra, exec (.vload t f) s = .next u ∧ Issued s u t 1 ∧ BytesSame s u ∧ o ∈ (u.tile t).mvu.ops ∧
      o.kind = .vload f ∧ o.entry = (s.tile t).nextK ∧
      (u.tile t).mvu.accept = slotOf s t + (f.rows.toNat + 1) + extra ∧ (f.scale = 0 → extra = 0) ∧
      o.done = (u.tile t).mvu.accept + 7 ∧ (u.tile t).mvu.vrf = (s.tile t).mvu.vrf ∧ u.bit (Reg.MVU_STATUS t) 0 = true := by
  obtain ⟨id, o, hissued, hbytes, hmem, hkind, hentry, hdone, haccept, -, hvrf, hbit⟩ := mvu_starts q hacc
    (op := fun id => ⟨id, .vload f, (s.tile t).nextK, slotOf s t + (f.rows.toNat + 1) + (vloadScaleRows f).length + 7, [], []⟩)
    (accept := fun id => slotOf s t + (f.rows.toNat + 1) + (vloadScaleRows f).length)
    (l := fun id => vloadEvents f (slotOf s t) (s.tile t).nextK (s.tile t).order id)
    (body := fun s I k order => s.mvuIssue t I k (fun s id =>
      (s.mvuStart t ⟨id, .vload f, k, I + (f.rows.toNat + 1) + (vloadScaleRows f).length + 7, [], []⟩
        (I + (f.rows.toNat + 1) + (vloadScaleRows f).length)).addEvs t (vloadEvents f I k order id))) rfl
    (fun id e he => vloadEvents_slots he) (fun id => by dsimp only; omega)
  refine ⟨_, o, _, exec_vload hl t s, hissued, hbytes, hmem, hkind, hentry, haccept, fun h0 => ?_, hdone.trans (by rw [haccept]), hvrf, hbit⟩
  rw [vloadScaleRows, if_pos h0]
  rfl

/-- Settles O33: each entry's case is the lemma above. -/
theorem mvuEntriesIssue : Obligations.MvuEntriesIssue := by
  unfold Obligations.MvuEntriesIssue
  intro s t
  dsimp only
  refine ⟨fun q hacc => ⟨fun f soft hl => ?_, fun f hl => ?_, fun f hl => ?_⟩, fun c hacc i o ho hentry hi => ?_⟩
  · have hsame := s.addSoft_same t soft
    have hx := exec_mvm hl t soft s
    generalize s.addSoft t soft = s' at hsame hx
    obtain ⟨htile, hslot, hcalm, hissue, hbyte, -⟩ := safety_congr hsame (s'.issueEntry t 1 (mvmIssue t f)) t
    have q' : Quiet s' t := by
      obtain ⟨c, hq⟩ := q
      exact ⟨hcalm c, by rw [htile]; exact hq⟩
    obtain ⟨o, extra, hissued, hbytes, hrest⟩ := mvm_streams q' (by rw [htile, hslot]; exact hacc) f
    rw [htile, hslot] at hrest
    exact ⟨_, o, extra, hx, hissue hissued, hbyte hbytes, hrest⟩
  · exact vload_loads q hacc hl
  · obtain ⟨hissued, hbytes, hops, hmacc, hrows, hstatus⟩ := mdrain_captures q hacc f
    refine ⟨_, _, exec_mdrain hl t s, hissued, hbytes, hops, rfl, hmacc, fun j hj => ⟨?_, hrows _ ?_⟩, hstatus⟩
    · exact SMap.get_mapIdx _ _ _
    · exact List.mem_map.mpr ⟨j, List.mem_range.mpr (by omega), rfl⟩
  · rcases hi with ⟨f, soft, rfl, hl⟩ | ⟨f, rfl, hl⟩ | ⟨f, rfl, hl⟩
    · have hsame := s.addSoft_same t soft
      have hx := exec_mvm hl t soft s
      generalize s.addSoft t soft = s' at hsame hx
      obtain ⟨htile, hslot, hcalm, hissue, hbyte, hclashed⟩ := safety_congr hsame (s'.issueEntry t 1 (mvmIssue t f)) t
      obtain ⟨hissued, hbytes, hclash, hmvu⟩ := mvu_clashes (hcalm c) (by rw [htile, hslot]; exact hacc) (by rw [htile]; exact ho) hentry
        (body := mvmIssue t f) rfl
      rw [htile, hslot] at hclash
      exact ⟨_, hx, hissue hissued, hbyte hbytes, hclashed hclash, hmvu.trans (by rw [htile])⟩
    · exact ⟨_, exec_vload hl t s, mvu_clashes c hacc ho hentry rfl⟩
    · exact ⟨_, exec_mdrain hl t s, mvu_clashes c hacc ho hentry rfl⟩

end Sys2Proof.Machine
end

section
/-! Rows of the store as bytes (R14, R106), and the issue of a VEU entry (R74). -/
namespace Sys2Proof.Machine
open Sys2Proof.Safety

/-! Rows as bytes. -/

/-- A byte of the number that a list of bytes holds. -/
theorem ofBytes_digit (bs : List Byte) (i : Nat) : ofBytes bs / 256 ^ i % 256 = (bs.getD i 0).toNat := by
  induction bs generalizing i with
  | nil => simp [ofBytes]
  | cons b r ih =>
    have hb : b.toNat < 256 := b.isLt
    cases i with
    | zero => rw [ofBytes, pow_zero, Nat.div_one, Nat.add_mul_mod_self_left, Nat.mod_eq_of_lt hb, List.getD_cons_zero]
    | succ i =>
      rw [ofBytes, pow_succ', ← Nat.div_div_eq_div_mul, Nat.add_mul_div_left _ _ (by decide), Nat.div_eq_of_lt hb, Nat.zero_add, ih,
        List.getD_cons_succ]

/-- A byte of a number written as bytes. -/
theorem toBytes_getD (v n : Nat) {i : Nat} (h : i < n) (d : Byte) : ((toBytes v n).getD i d).toNat = v / 256 ^ i % 256 := by
  induction n generalizing v i with
  | zero => exact absurd h (Nat.not_lt_zero i)
  | succ n ih =>
    cases i with
    | zero => rw [toBytes, List.getD_cons_zero, BitVec.toNat_ofNat, pow_zero, Nat.div_one]
    | succ i => rw [toBytes, List.getD_cons_succ, ih _ (Nat.lt_of_succ_lt_succ h), pow_succ', Nat.div_div_eq_div_mul]

/-- A byte of a row, as a digit. -/
theorem Row.byte_eq (r : Row) (i : Nat) : Row.byte r i = r.toNat / 256 ^ i % 256 := by
  rw [Row.byte, Nat.shiftRight_eq_div_pow, pow_mul, show (2 : Nat) ^ 8 = 256 from rfl]

/-- A byte of a row that a list of bytes holds. -/
theorem Row.byte_ofBytes (bs : List Byte) {i : Nat} (h : i < 1024) : Row.byte (BitVec.ofNat 8192 (ofBytes bs)) i = (bs.getD i 0).toNat := by
  rw [Row.byte_eq, BitVec.toNat_ofNat, ← ofBytes_digit, show (256 : Nat) = 2 ^ 8 from rfl, ← pow_mul, mod_pow_field (by omega)]

/-- A byte of a run that is read. -/
theorem Memory.readList_getD (m : Memory) (a n : Nat) {i : Nat} (h : i < n) (d : Byte) : (m.readList a n).getD i d = m.read (a + i) := by
  have hread := Memory.read_filter m (fun k => decide (a ≤ k) && decide (k < a + n)) (a + i)
  rw [if_pos (by simp [h])] at hread
  rw [← hread, List.getD_eq_getElem?_getD, Memory.readList, List.getElem?_map, List.getElem?_range h]
  rfl

/-! The place of a tile's store. -/

/-- The store's place follows the detour of its column. -/
theorem State.storeBase_congr {s u : State} {t : Nat} (h : u.rd (Reg.TNOC_DETOUR (t / 8)) = s.rd (Reg.TNOC_DETOUR (t / 8))) :
    u.storeBase t = s.storeBase t := by
  rw [State.storeBase, State.storeBase, State.position, State.position, State.fld_of_rd h]

/-- The detour of a column is none of the registers that follow the issue of an entry. -/
theorem TNOC_DETOUR_notMem {t : Nat} (ht : t < 128) : Reg.TNOC_DETOUR (t / 8) ∉ issueRegs t := by
  have hbase : Reg.tileBase t < 0x10800000 := by unfold Reg.tileBase; omega
  have hdetour : 0x2000F000 ≤ Reg.TNOC_DETOUR (t / 8) := by unfold Reg.TNOC_DETOUR Reg.detourBase; omega
  have hplaces : Reg.SEQ_HS t = Reg.tileBase t + 0x1004 ∧ Reg.SEQ_STATUS t = Reg.tileBase t + 0x1000 ∧
    Reg.VEU_STATUS t = Reg.tileBase t + 0x7004 ∧ Reg.TILE_STATUS t = Reg.tileBase t + 0xC := ⟨rfl, rfl, rfl, rfl⟩
  obtain ⟨hhs, hst, hveu, htile⟩ := hplaces
  simp only [issueRegs, List.mem_cons, List.not_mem_nil, or_false, hhs, hst, hveu, htile]
  omega

/-- The issue of an entry leaves the place of the store. -/
theorem issued_storeBase (s : State) {t : Nat} (ht : t < 128) (hold : Nat) : (issued s t hold).storeBase t = s.storeBase t := by
  obtain ⟨-, hregs⟩ := issued_only s t hold
  exact State.storeBase_congr (hregs _ (TNOC_DETOUR_notMem ht))

/-! The issue. -/

/-- A tile in which a VEU entry has issued, its coming events aside (R74). -/
def Tile.veuStarted (x : Tile) (rep I entry : Nat) : Tile := { x with veu := { x.veu with accept := I + 4 * (rep + 1), entry := entry } }

/-- The re-issues of a VEU entry, each 4 handshakes after the one before (R74). -/
def veuRest (op rep : Nat) (f : VeuFields) (I entry order : Nat) : List TileEv :=
  (List.range rep).map (fun i => (⟨I + 4 * (i + 1), order, entry, .veu op { f with row := f.row + BitVec.ofNat 13 (i + 1) }⟩ : TileEv))

/-- The re-issues come after the issue, one after the other. -/
theorem veuRest_slots {op rep : Nat} {f : VeuFields} {I entry order : Nat} : (∀ e ∈ veuRest op rep f I entry order, I < e.slot) ∧
    (veuRest op rep f I entry order).Pairwise (fun a b => a.slot < b.slot) := by
  refine ⟨fun e he => ?_, List.pairwise_map.mpr (List.pairwise_lt_range.imp fun {i j} hij => ?_)⟩
  · obtain ⟨j, -, rfl⟩ := List.mem_map.mp he
    dsimp only
    omega
  · dsimp only
    omega

/-- A re-issue of a VEU entry is to come. -/
theorem mem_veuRest {op rep : Nat} {f : VeuFields} {I entry order i : Nat} (h0 : 0 < i) (hi : i ≤ rep) :
    (⟨I + 4 * i, order, entry, .veu op { f with row := f.row + BitVec.ofNat 13 i }⟩ : TileEv) ∈ veuRest op rep f I entry order := by
  obtain ⟨j, rfl⟩ := Nat.exists_eq_succ_of_ne_zero (Nat.ne_of_gt h0)
  exact List.mem_map.mpr ⟨j, List.mem_range.mpr hi, rfl⟩

/-- The events of a VEU entry: its operation, and the re-issues. -/
theorem veuEvents_eq (op rep : Nat) (f : VeuFields) (I entry order : Nat) :
    (List.range (rep + 1)).map (fun i => (⟨I + 4 * i, order, entry, .veu op { f with row := f.row + BitVec.ofNat 13 i }⟩ : TileEv)) =
      ⟨I, order, entry, .veu op f⟩ :: veuRest op rep f I entry order := by
  have hfirst : f.row + BitVec.ofNat 13 0 = f.row := BitVec.add_zero _
  rw [List.range_succ_eq_map, List.map_cons, List.map_map, hfirst]
  rfl

/-- A VEU entry on a tile without coming events whose VEU accepts it: its operation takes place with the issue, unless a wide access has
taken the slot (R74, R107, R132). -/
theorem State.veuIssue_starts {s : State} {t I : Nat} (hnil : (s.tile t).evs = []) (hacc : (s.tile t).veu.accept ≤ I)
    (hlast : ∀ w, (s.tile t).lastWide = some w → w.1 ≤ I) (op rep : Nat) (f : VeuFields) (entry order : Nat) :
    ∃ a, s.veuIssue t op rep f I entry order = s.setTile t { (s.tile t).veuStarted rep I entry with
        evs := ⟨I, order, entry, a⟩ :: veuRest op rep f I entry order } ∧
      ((TileAct.veu op f).wide = false ∨ (∀ e, (s.tile t).lastWide ≠ some (I, e)) → a = .veu op f) ∧
      (¬ ((TileAct.veu op f).wide = false ∨ ∀ e, (s.tile t).lastWide ≠ some (I, e)) → ∃ n, a = .clash n) := by
  have hissue : s.veuIssue t op rep f I entry order = s.setTile t (((s.tile t).veuStarted rep I entry).addEvs
      (⟨I, order, entry, .veu op f⟩ :: veuRest op rep f I entry order)) := by
    unfold State.veuIssue
    dsimp only
    rw [if_neg (Nat.not_lt.mpr hacc), State.addEvs, State.tile_setTile, if_pos rfl, State.setTile_setTile, veuEvents_eq]
    rfl
  obtain ⟨hlater, hrising⟩ := @veuRest_slots op rep f I entry order
  have hx : ((s.tile t).veuStarted rep I entry).evs = [] := hnil
  have hxlast : ((s.tile t).veuStarted rep I entry).lastWide = (s.tile t).lastWide := rfl
  generalize (s.tile t).veuStarted rep I entry = x at hissue hx hxlast ⊢
  have hrest (a : TileAct) : Tile.addEvs { x with evs := [⟨I, order, entry, a⟩] } (veuRest op rep f I entry order) =
      { x with evs := ⟨I, order, entry, a⟩ :: veuRest op rep f I entry order } :=
    Tile.addEvs_rising hrising (fun y hy e he => by rw [List.mem_singleton.mp hy]; exact hlater e he)
      fun e he _ w hw => (Nat.lt_of_le_of_lt (hlast w (hxlast.symm.trans hw)) (hlater e he)).ne
  have hcons (y : Tile) : y.addEvs (⟨I, order, entry, .veu op f⟩ :: veuRest op rep f I entry order) =
    (y.addEv ⟨I, order, entry, .veu op f⟩).addEvs (veuRest op rep f I entry order) := rfl
  by_cases hfree : (TileAct.veu op f).wide = false ∨ ∀ e, (s.tile t).lastWide ≠ some (I, e)
  · have hadd : x.addEv ⟨I, order, entry, .veu op f⟩ = { x with evs := [⟨I, order, entry, .veu op f⟩] } := by
      rw [Tile.addEv_free, hx]
      · rfl
      · refine fun hw => ⟨by rw [hx]; rfl, fun w hxw hslot => ?_⟩
        rcases hfree with hnot | hnone
        · exact absurd (hnot.symm.trans hw) Bool.false_ne_true
        · have hI : w.1 = I := hslot
          exact hnone w.2 (by rw [← hxlast, hxw, ← hI])
    exact ⟨_, by rw [hissue, hcons, hadd, hrest], fun _ => rfl, fun h => absurd hfree h⟩
  · obtain ⟨hw, hsome⟩ := not_or.mp hfree
    obtain ⟨n, hn⟩ := not_forall_not.mp hsome
    have hadd : x.addEv ⟨I, order, entry, .veu op f⟩ = { x with evs := [⟨I, order, entry, .clash n⟩] } := by
      unfold Tile.addEv
      rw [if_pos (Bool.not_eq_false _ ▸ hw : (TileAct.veu op f).wide = true), hx, hxlast, hn]
      exact if_pos rfl
    exact ⟨_, by rw [hissue, hcons, hadd, hrest], fun h => absurd h hfree, fun _ => ⟨n, rfl⟩⟩

end Sys2Proof.Machine
end

section
/-! The VEU entries (R74, R75, R106 to R108, R132). -/
namespace Sys2Proof.Machine
open Sys2Proof.Safety

/-! A resting tile. -/

/-- What follows the events of a handshake in a tile in which nothing is under way. -/
theorem State.carried_settled {s : State} {t : Nat} (h : Nat) (hfl : (s.tile t).flights = []) (hops : (s.tile t).mvu.ops = [])
    (h0 : (s.tile t).arr0.mmas = []) (h1 : (s.tile t).arr1.mmas = []) : s.carried t h = s.settledAt t h := by
  have hland : s.landFlights t h = s := State.landFlights_later (by rw [hfl]; exact fun f hf => absurd hf List.not_mem_nil)
  have hret : s.mvuRetire t h = s := by
    unfold State.mvuRetire
    dsimp only
    rw [hops]
  rw [State.carried, hland, hret, State.arrTick_nil s t h h0 h1]
  rfl

/-- The VEU is busy until it accepts (R56). -/
theorem State.settledAt_veu (u : State) {t h : Nat} (hh : h < 2 ^ 20) (hacc : h < (u.tile t).veu.accept) :
    (u.settledAt t h).rd (Reg.VEU_STATUS t) = 1 := by
  have hhs : (u.setHs t h).hs t = h := by
    rw [State.hs, State.setHs, State.fld_setFld_self _ _ _ (by decide)]
    omega
  have hbusy : decide ((u.setHs t h).hs t < ((u.setHs t h).tile t).veu.accept) = true := by
    rw [hhs]
    exact decide_eq_true hacc
  rw [State.settledAt, State.tileBusy, State.rd_setFld, if_neg (by simp [Reg.TILE_STATUS, Reg.VEU_STATUS]), State.veuStatus, State.rd_wr,
    if_pos rfl, hbusy]
  rfl

/-! Operations that compute. -/

/-- The registers of the VEU after an operation that computes (R74). -/
def veuComputed (op : Nat) (f : VeuFields) (v : SMap Row) : SMap Row :=
  (veuResult op f v).1.foldl (fun (m : SMap Row) p => SMap.set m p.1 p.2) v

/-- An operation that computes makes no wide access. -/
theorem veuOp_wide {op : Nat} (f : VeuFields) (hop : op ≠ veVld ∧ op ≠ veVst) : (TileAct.veu op f).wide = false := by
  obtain ⟨h1, h2⟩ := hop
  simp only [TileAct.wide, Bool.or_eq_false_iff, beq_eq_false_iff_ne]
  exact ⟨h1, h2⟩

/-- An operation that computes takes place. -/
theorem State.performAct_veu (s : State) (t : Nat) {op : Nat} (hop : op ≠ veVld ∧ op ≠ veVst) (slot order entry : Nat) (f : VeuFields) :
    s.performAct t ⟨slot, order, entry, .veu op f⟩ =
      (s.setTile t { s.tile t with veu := { (s.tile t).veu with v := veuComputed op f (s.tile t).veu.v } }).orReg (Reg.VEU_FLAGS t)
        (BitVec.ofNat 32 (veuResult op f (s.tile t).veu.v).2) := by
  have hwide := veuOp_wide f hop
  have hperf : s.performAct t ⟨slot, order, entry, .veu op f⟩ = s.veuApply t op entry slot f := by
    unfold State.performAct
    dsimp only
    rw [hwide]
    rfl
  rw [hperf, State.veuApply, if_neg hop.1, if_neg hop.2]
  rfl

/-- A tile's record is replaced, and bits of a register are set. -/
theorem State.setTile_orReg (s : State) (t : Nat) (x : Tile) (a : Nat) (v : Word) : OnlyTile s ((s.setTile t x).orReg a v) t ∧
    ((s.setTile t x).orReg a v).tile t = x ∧ ∀ b, ((s.setTile t x).orReg a v).rd b = if a = b then s.rd a ||| v else s.rd b :=
  ⟨(OnlyTile.of_setTile (s := s) (u := (s.setTile t x).orReg a v) (t := t) (x := x) rfl).1, (State.tile_setTile s t t x).trans (if_pos rfl), fun b => by
    rw [State.orReg, State.rd_wr, State.setTile_rd, State.setTile_rd]⟩

/-- The issue of a VEU entry leaves the tile's place. -/
theorem State.veuIssue_placed {s : State} {t I : Nat} (hnil : (s.tile t).evs = []) (hacc : (s.tile t).veu.accept ≤ I)
    (hlast : ∀ w, (s.tile t).lastWide = some w → w.1 ≤ I) (op rep : Nat) (f : VeuFields) (entry order : Nat) :
    Placed s (s.veuIssue t op rep f I entry order) t := by
  obtain ⟨a, hissue, -, -⟩ := State.veuIssue_starts hnil hacc hlast op rep f entry order
  rw [hissue]
  exact (Placed.refl s t).setTile ⟨rfl, rfl, rfl, rfl, rfl⟩

/-- A tile in which a VEU entry has issued, with its re-issues to come (R74). -/
def Tile.veuUnderWay (x : Tile) (op rep : Nat) (f : VeuFields) (I entry order : Nat) : Tile :=
  { x.veuStarted rep I entry with evs := veuRest op rep f I entry order }

/-- The handshake of a VEU entry whose operation takes place: first the operation itself (R74). -/
theorem State.veuIssue_runs {s : State} {t I : Nat} (hnil : (s.tile t).evs = []) (hfl : (s.tile t).flights = [])
    (hacc : (s.tile t).veu.accept ≤ I) (hlast : ∀ w, (s.tile t).lastWide = some w → w.1 ≤ I) {op rep : Nat} {f : VeuFields}
    (hfree : (TileAct.veu op f).wide = false ∨ ∀ e, (s.tile t).lastWide ≠ some (I, e)) (entry order : Nat) :
    ∃ n, State.runEvents t I eventFuel (s.veuIssue t op rep f I entry order) =
      State.runEvents t I n ((s.setTile t ((s.tile t).veuUnderWay op rep f I entry order)).performAct t ⟨I, order, entry, .veu op f⟩) := by
  obtain ⟨a, hissue, hact, -⟩ := State.veuIssue_starts hnil hacc hlast op rep f entry order
  obtain rfl := hact hfree
  obtain ⟨n, hn⟩ := eventFuel_succ
  rw [hissue, hn]
  generalize hx : { (s.tile t).veuStarted rep I entry with
    evs := (⟨I, order, entry, .veu op f⟩ : TileEv) :: veuRest op rep f I entry order } = x
  have htile : (s.setTile t x).tile t = x := (State.tile_setTile s t t x).trans (if_pos rfl)
  have hpop : { x with evs := veuRest op rep f I entry order } = (s.tile t).veuUnderWay op rep f I entry order := by rw [← hx]; rfl
  refine ⟨n, (State.runEvents_first (e := ⟨I, order, entry, .veu op f⟩) (r := veuRest op rep f I entry order) (by rw [htile, ← hx]) le_rfl
    (show (5 : Nat) ≠ 8 by decide) (by rw [htile, ← hx]; exact hfl)).trans ?_⟩
  rw [htile, hpop, State.setTile_setTile]

/-- The tile of a computing entry once its operation has taken place. -/
def Tile.veuDone (x : Tile) (op rep : Nat) (f : VeuFields) (I entry order : Nat) : Tile :=
  { x with
    veu := { v := veuComputed op f x.veu.v, accept := I + 4 * (rep + 1), entry := entry }
    evs := veuRest op rep f I entry order }

/-- A computing entry on a tile without coming events: its operation takes place with the issue, and nothing else (R74). -/
theorem State.veuIssue_computes {s : State} {t I : Nat} (hnil : (s.tile t).evs = []) (hfl : (s.tile t).flights = [])
    (hacc : (s.tile t).veu.accept ≤ I) (hlast : ∀ w, (s.tile t).lastWide = some w → w.1 ≤ I) {op : Nat} (hop : op ≠ veVld ∧ op ≠ veVst)
    (rep : Nat) (f : VeuFields) (entry order : Nat) :
    State.runEvents t I eventFuel (s.veuIssue t op rep f I entry order) =
      (s.setTile t ((s.tile t).veuDone op rep f I entry order)).orReg (Reg.VEU_FLAGS t) (BitVec.ofNat 32 (veuResult op f (s.tile t).veu.v).2) := by
  obtain ⟨n, hrun⟩ := State.veuIssue_runs hnil hfl hacc hlast (rep := rep) (.inl (veuOp_wide f hop)) entry order
  obtain ⟨hlater, -⟩ := @veuRest_slots op rep f I entry order
  have htile (x : Tile) : (s.setTile t x).tile t = x := (State.tile_setTile s t t x).trans (if_pos rfl)
  have hev : (((s.setTile t ((s.tile t).veuDone op rep f I entry order)).orReg (Reg.VEU_FLAGS t)
      (BitVec.ofNat 32 (veuResult op f (s.tile t).veu.v).2)).tile t).evs = veuRest op rep f I entry order := congrArg Tile.evs (htile _)
  have hperf : (s.setTile t ((s.tile t).veuUnderWay op rep f I entry order)).performAct t ⟨I, order, entry, .veu op f⟩ =
      (s.setTile t ((s.tile t).veuDone op rep f I entry order)).orReg (Reg.VEU_FLAGS t)
        (BitVec.ofNat 32 (veuResult op f (s.tile t).veu.v).2) := by
    rw [State.performAct_veu _ _ hop, htile, State.setTile_setTile]
    rfl
  rw [hrun, hperf, State.runEvents_quiet n fun e he => hlater e (by rwa [hev] at he)]

/-- A computing entry of a quiet tile whose VEU accepts it (R74). -/
theorem veu_computes {s : State} {t : Nat} (q : Quiet s t) (hacc : (s.tile t).veu.accept ≤ slotOf s t) {op : Nat}
    (hop : op ≠ veVld ∧ op ≠ veVst) (rep : Nat) (f : VeuFields) :
    let u := s.issueEntry t 1 (fun s I k order => s.veuIssue t op rep f I k order)
    Issued s u t 1 ∧ OnlyTile s u t ∧ RegsSameBut s u (issueRegs t ++ [Reg.VEU_FLAGS t]) ∧
      u.tile t = ((issued s t 1).tile t).veuDone op rep f (slotOf s t) (s.tile t).nextK (s.tile t).order ∧
      u.rd (Reg.VEU_FLAGS t) = s.rd (Reg.VEU_FLAGS t) ||| BitVec.ofNat 32 (veuResult op f (s.tile t).veu.v).2 ∧
      u.rd (Reg.VEU_STATUS t) = 1 := by
  obtain ⟨hnil, hfl, hops, h0, h1, -⟩ := issued_resting q 1
  have hveu : ((issued s t 1).tile t).veu = (s.tile t).veu := by rw [issued_tile]
  have hwide : ∀ w, ((issued s t 1).tile t).lastWide = some w → w.1 ≤ slotOf s t := by
    obtain ⟨⟨-, -, -, -, -, -, -, -, -, hw⟩, -⟩ := q
    rw [issued_tile]
    exact hw
  have hI := slotOf_lt q
  have hplaced := State.veuIssue_placed (s := issued s t 1) (t := t) (I := slotOf s t) hnil (by rw [hveu]; exact hacc) hwide op rep f
    (s.tile t).nextK (s.tile t).order
  have hrun := State.veuIssue_computes (s := issued s t 1) (I := slotOf s t) hnil hfl (by rw [hveu]; exact hacc) hwide hop rep f
    (s.tile t).nextK (s.tile t).order
  rw [hveu] at hrun
  have hcarried := State.issueEntry_carried q 1 (body := fun s I k order => s.veuIssue t op rep f I k order) rfl hplaced
  rw [hrun] at hcarried
  dsimp only
  rw [hcarried]
  generalize hxdef : ((issued s t 1).tile t).veuDone op rep f (slotOf s t) (s.tile t).nextK (s.tile t).order = x
  obtain ⟨honly, htile, hregs⟩ := (issued s t 1).setTile_orReg t x (Reg.VEU_FLAGS t) (BitVec.ofNat 32 (veuResult op f (s.tile t).veu.v).2)
  generalize ((issued s t 1).setTile t x).orReg (Reg.VEU_FLAGS t) (BitVec.ofNat 32 (veuResult op f (s.tile t).veu.v).2) = w
    at honly htile hregs
  have hplace : Reg.VEU_FLAGS t ∉ issueRegs t ∧ Reg.SEQ_STATUS t ≠ Reg.VEU_FLAGS t := by
    simp [issueRegs, Reg.VEU_FLAGS, Reg.SEQ_HS, Reg.SEQ_STATUS, Reg.VEU_STATUS, Reg.TILE_STATUS]
  obtain ⟨hflags, hstatus⟩ := hplace
  rw [State.carried_settled (s := w) (slotOf s t) (by rw [htile, ← hxdef]; exact hfl) (by rw [htile, ← hxdef]; exact hops)
    (by rw [htile, ← hxdef]; exact h0) (by rw [htile, ← hxdef]; exact h1)]
  obtain ⟨honly', hregs'⟩ := issued_frame (l := [Reg.VEU_FLAGS t]) honly
    (fun a ha => (hregs a).trans (if_neg fun h : Reg.VEU_FLAGS t = a => ha (List.mem_singleton.mpr h.symm))) (slotOf s t)
  refine ⟨issued_of_place q ((hregs _).trans (if_neg hstatus.symm)) (by rw [htile, ← hxdef]; rfl) (by rw [htile, ← hxdef]; rfl)
    (by rw [htile, ← hxdef]; rfl), honly', hregs', (State.settledAt_tile _ t _ t).trans htile, ?_, State.settledAt_veu w hI ?_⟩
  · obtain ⟨-, hissued⟩ := issued_only s t 1
    have hshown : Reg.VEU_FLAGS t ∉ [Reg.SEQ_HS t, Reg.VEU_STATUS t, Reg.TILE_STATUS t] := fun h => hflags (by
      simp only [issueRegs, List.mem_cons] at h ⊢
      tauto)
    rw [State.settledAt_rd _ _ _ hshown, hregs, if_pos rfl, hissued _ hflags]
  · rw [htile, ← hxdef]
    exact show slotOf s t < slotOf s t + 4 * (rep + 1) by omega

/-! VLD. -/

/-- The last wide access of a quiet tile is not after the slot of its next entry. -/
theorem issued_lastWide {s : State} {t : Nat} (q : Quiet s t) (hold : Nat) :
    ∀ w, ((issued s t hold).tile t).lastWide = some w → w.1 ≤ slotOf s t := by
  obtain ⟨⟨-, -, -, -, -, -, -, -, -, hw⟩, -⟩ := q
  rw [issued_tile]
  exact hw

/-- A VLD of a quiet tile whose VEU accepts it (R74). -/
theorem vld_issues {s : State} {t : Nat} (q : Quiet s t) (hacc : (s.tile t).veu.accept ≤ slotOf s t) (rep : Nat) (f : VeuFields) :
    let u := s.issueEntry t 1 (fun s I k order => s.veuIssue t veVld rep f I k order)
    Issued s u t 1 ∧ BytesSame s u ∧ (u.tile t).veu.accept = slotOf s t + 4 * (rep + 1) := by
  have hnil := (issued_resting q 1).1
  have hveu : ((issued s t 1).tile t).veu = (s.tile t).veu := by rw [issued_tile]
  have hwide := issued_lastWide q 1
  have hacc' : ((issued s t 1).tile t).veu.accept ≤ slotOf s t := by rw [hveu]; exact hacc
  have hplaced := State.veuIssue_placed (s := issued s t 1) hnil hacc' hwide veVld rep f (s.tile t).nextK (s.tile t).order
  obtain ⟨a, hissue, hexec, hclash⟩ := State.veuIssue_starts (s := issued s t 1) hnil hacc' hwide veVld rep f (s.tile t).nextK (s.tile t).order
  generalize hv : (issued s t 1).veuIssue t veVld rep f (slotOf s t) (s.tile t).nextK (s.tile t).order = v at hplaced hissue
  have hvtile : v.tile t = { ((issued s t 1).tile t).veuStarted rep (slotOf s t) (s.tile t).nextK with
      evs := ⟨slotOf s t, (s.tile t).order, (s.tile t).nextK, a⟩ :: veuRest veVld rep f (slotOf s t) (s.tile t).nextK (s.tile t).order } := by
    rw [hissue, State.tile_setTile, if_pos rfl]
  obtain ⟨hlater, -⟩ := @veuRest_slots veVld rep f (slotOf s t) (s.tile t).nextK (s.tile t).order
  obtain ⟨w, hissued, hbytes, hread, -, htile, -⟩ := State.issueEntry_reads q 1
    (body := fun s I k order => s.veuIssue t veVld rep f I k order) hv hplaced fun e he hs => by
      rw [hvtile] at he
      rcases List.mem_cons.mp he with rfl | he
      · by_cases hfree : (TileAct.veu veVld f).wide = false ∨ ∀ e, ((issued s t 1).tile t).lastWide ≠ some (slotOf s t, e)
        · rw [hexec hfree]
          rfl
        · obtain ⟨n, rfl⟩ := hclash hfree
          rfl
      · exact absurd hs (Nat.not_le.mpr (hlater e he))
  have haccept : (w.tile t).veu.accept = (v.tile t).veu.accept := by
    obtain ⟨g0, g1, gm, r, -, -, -, ev, lw, ce, c, hw⟩ := hread
    rw [hw]
  exact ⟨hissued, hbytes, by rw [htile]; exact haccept.trans (by rw [hvtile]; rfl)⟩

/-- A step of the free choices leaves the tiles. -/
theorem State.stepFree_tile (s : State) (t : Nat) : s.stepFree.tile t = s.tile t := rfl

theorem State.stepFree_setTile (s : State) (t : Nat) (x : Tile) : s.stepFree.setTile t x = (s.setTile t x).stepFree := rfl

/-- A wide read of a store without upsets, with no write on its way (R107). -/
theorem State.readRow_clear {s : State} {t : Nat} (hups : s.upsets = []) (hfl : (s.tile t).flights = []) (slot row : Nat) :
    s.readRow t slot row =
      (BitVec.ofNat 8192 (ofBytes (s.store.readList (s.storeBase t + row % 8192 * 1024) 1024)), false, s.stepFree) := by
  simp only [State.readRow, State.storeRead, State.upsetsAt, hups, hfl, seeBytes, applyFlips, List.filter_nil, List.any_nil, List.foldl_nil]

/-- The tile of a VLD once its row has been read. -/
def Tile.vldDone (x : Tile) (rep : Nat) (f : VeuFields) (I entry order : Nat) (r : Row) : Tile :=
  { x with
    veu := { v := SMap.set x.veu.v f.vd.toNat r, accept := I + 4 * (rep + 1), entry := entry }
    evs := veuRest veVld rep f I entry order
    lastWide := some (I, entry) }

/-- A VLD on a tile without coming events whose slot is free: the row is in the register (R74, R107). -/
theorem State.veuIssue_loads {s : State} {t I : Nat} (hnil : (s.tile t).evs = []) (hfl : (s.tile t).flights = []) (hups : s.upsets = [])
    (hacc : (s.tile t).veu.accept ≤ I) (hlast : ∀ w, (s.tile t).lastWide = some w → w.1 ≤ I) (hfree : ∀ e, (s.tile t).lastWide ≠ some (I, e))
    (rep : Nat) (f : VeuFields) (entry order : Nat) :
    State.runEvents t I eventFuel (s.veuIssue t veVld rep f I entry order) = (s.setTile t ((s.tile t).vldDone rep f I entry order
      (BitVec.ofNat 8192 (ofBytes (s.store.readList (s.storeBase t + f.row.toNat % 8192 * 1024) 1024))))).stepFree := by
  obtain ⟨n, hrun⟩ := State.veuIssue_runs hnil hfl hacc hlast (op := veVld) (rep := rep) (f := f) (.inr hfree) entry order
  obtain ⟨hlater, -⟩ := @veuRest_slots veVld rep f I entry order
  have hperf : (s.setTile t ((s.tile t).veuUnderWay veVld rep f I entry order)).performAct t ⟨I, order, entry, .veu veVld f⟩ =
      (s.setTile t ((s.tile t).vldDone rep f I entry order
        (BitVec.ofNat 8192 (ofBytes (s.store.readList (s.storeBase t + f.row.toNat % 8192 * 1024) 1024))))).stepFree := by
    generalize hx : (s.tile t).veuUnderWay veVld rep f I entry order = x
    have htile (y : Tile) : (s.setTile t y).tile t = y := (State.tile_setTile s t t y).trans (if_pos rfl)
    have hact : (s.setTile t x).performAct t ⟨I, order, entry, .veu veVld f⟩ =
        (s.setTile t { x with lastWide := some (I, entry) }).veuApply t veVld entry I f := by
      unfold State.performAct
      dsimp only
      rw [if_pos (show (TileAct.veu veVld f).wide = true from rfl), htile, State.setTile_setTile]
    have hread := State.readRow_clear (s := s.setTile t { x with lastWide := some (I, entry) }) (t := t) hups
      (by rw [htile, ← hx]; exact hfl) I f.row.toNat
    have hbase : (s.setTile t { x with lastWide := some (I, entry) }).storeBase t = s.storeBase t := State.storeBase_congr (State.setTile_rd ..)
    have hstore : (s.setTile t { x with lastWide := some (I, entry) }).store = s.store := rfl
    rw [hbase, hstore] at hread
    rw [hact, State.veuApply, if_pos rfl, hread]
    generalize BitVec.ofNat 8192 (ofBytes (s.store.readList (s.storeBase t + f.row.toNat % 8192 * 1024) 1024)) = r
    dsimp only
    rw [State.stepFree_setTile, State.stepFree_tile, htile, State.setTile_setTile, ← hx]
    rfl
  rw [hrun, hperf]
  generalize hx : (s.tile t).vldDone rep f I entry order _ = x
  have hev : (((s.setTile t x).stepFree).tile t).evs = veuRest veVld rep f I entry order := by
    refine (congrArg Tile.evs ((State.tile_setTile s t t x).trans (if_pos rfl))).trans ?_
    rw [← hx]
    rfl
  exact State.runEvents_quiet n fun e he => hlater e (by rwa [hev] at he)

/-- A state but for the free choices that it has taken. -/
theorem State.settledAt_stepFree (w : State) (t h n : Nat) : { w.stepFree.settledAt t h with free := n } = { w.settledAt t h with free := n } ∧
    (∀ a, (w.stepFree.settledAt t h).rd a = (w.settledAt t h).rd a) ∧ ∀ k, (w.stepFree.settledAt t h).tile k = (w.settledAt t h).tile k :=
  ⟨rfl, fun _ => rfl, fun _ => rfl⟩

theorem State.free_same {w : State} {n : Nat} (h : n = w.free) : { w with free := n } = w := by rw [h]

/-- A VLD of a quiet tile whose VEU accepts it and whose slot is free, where no word of a store is upset (R74, R107). -/
theorem vld_loads {s : State} {t : Nat} (q : Quiet s t) (hacc : (s.tile t).veu.accept ≤ slotOf s t) (hups : s.upsets = [])
    (hfree : ∀ e, (s.tile t).lastWide ≠ some (slotOf s t, e)) (rep : Nat) (f : VeuFields) :
    let u := s.issueEntry t 1 (fun s I k order => s.veuIssue t veVld rep f I k order)
    OnlyTile s { u with free := s.free } t ∧ RegsSameBut s u (issueRegs t) ∧
      (u.tile t).veu.v = SMap.set (s.tile t).veu.v f.vd.toNat
        (BitVec.ofNat 8192 (ofBytes (s.store.readList (s.storeBase t + f.row.toNat % 8192 * 1024) 1024))) := by
  obtain ⟨hnil, hfl, hops, h0, h1, -⟩ := issued_resting q 1
  have ht : t < 128 := by obtain ⟨⟨ht, -⟩, -⟩ := q; exact ht
  have hveu : ((issued s t 1).tile t).veu = (s.tile t).veu := by rw [issued_tile]
  have hlw : ((issued s t 1).tile t).lastWide = (s.tile t).lastWide := by rw [issued_tile]
  have hwide := issued_lastWide q 1
  have hacc' : ((issued s t 1).tile t).veu.accept ≤ slotOf s t := by rw [hveu]; exact hacc
  have hbase := issued_storeBase s ht 1
  obtain ⟨⟨honly, -⟩, -⟩ := issued_only s t 1
  have hplaced := State.veuIssue_placed (s := issued s t 1) hnil hacc' hwide veVld rep f (s.tile t).nextK (s.tile t).order
  have hrun := State.veuIssue_loads (s := issued s t 1) hnil hfl (by rw [honly]; exact hups) hacc' hwide (by rw [hlw]; exact hfree) rep f
    (s.tile t).nextK (s.tile t).order
  have hcarried := State.issueEntry_carried q 1 (body := fun s I k order => s.veuIssue t veVld rep f I k order) rfl hplaced
  rw [hrun, hbase, show (issued s t 1).store = s.store by rw [honly]] at hcarried
  dsimp only
  rw [hcarried]
  generalize BitVec.ofNat 8192 (ofBytes (s.store.readList (s.storeBase t + f.row.toNat % 8192 * 1024) 1024)) = r
  have hxveu : (((issued s t 1).tile t).vldDone rep f (slotOf s t) (s.tile t).nextK (s.tile t).order r).veu.v =
      SMap.set (s.tile t).veu.v f.vd.toNat r := by rw [← hveu]; rfl
  have hxfl : (((issued s t 1).tile t).vldDone rep f (slotOf s t) (s.tile t).nextK (s.tile t).order r).flights = [] := hfl
  have hxops : (((issued s t 1).tile t).vldDone rep f (slotOf s t) (s.tile t).nextK (s.tile t).order r).mvu.ops = [] := hops
  have hx0 : (((issued s t 1).tile t).vldDone rep f (slotOf s t) (s.tile t).nextK (s.tile t).order r).arr0.mmas = [] := h0
  have hx1 : (((issued s t 1).tile t).vldDone rep f (slotOf s t) (s.tile t).nextK (s.tile t).order r).arr1.mmas = [] := h1
  generalize ((issued s t 1).tile t).vldDone rep f (slotOf s t) (s.tile t).nextK (s.tile t).order r = x at *
  have htile : ((issued s t 1).setTile t x).tile t = x := (State.tile_setTile _ t t x).trans (if_pos rfl)
  have hwonly := OnlyTile.setTile (issued s t 1) t x
  obtain ⟨honly', hregs'⟩ := issued_frame (l := []) hwonly (fun a _ => State.setTile_rd _ _ _ _) (slotOf s t)
  generalize (issued s t 1).setTile t x = w at *
  rw [List.append_nil] at hregs'
  rw [State.carried_settled (s := w.stepFree) (slotOf s t) (by rw [State.stepFree_tile, htile, hxfl]) (by rw [State.stepFree_tile, htile, hxops])
    (by rw [State.stepFree_tile, htile, hx0]) (by rw [State.stepFree_tile, htile, hx1])]
  obtain ⟨hrec, hrd, htl⟩ := w.settledAt_stepFree t (slotOf s t) s.free
  refine ⟨?_, fun a ha => (hrd a).trans (hregs' a ha), ?_⟩
  · rw [hrec]
    have hsfree : { w.settledAt t (slotOf s t) with free := s.free } = w.settledAt t (slotOf s t) := by
      have hkept : s.free = (w.settledAt t (slotOf s t)).free := by rw [honly'.1]
      exact State.free_same hkept
    rw [hsfree]
    exact honly'
  · rw [htl, State.settledAt_tile, htile, hxveu]

/-! VST. -/

/-- A wide write leaves for the store (R107, R108). -/
theorem State.writeRow_leaves (s : State) (t slot row : Nat) (v : Row) : (s.writeRow t slot row v).store = s.store ∧
    (s.writeRow t slot row v).dram = s.dram ∧ (∃ ce wd, (s.writeRow t slot row v).tile t = { s.tile t with
      ceQueue := ce, writesDone := wd
      flights := (s.tile t).flights ++ [⟨slot, 7, s.storeBase t + row % 8192 * 1024, toBytes v.toNat 1024⟩] }) ∧
    ∀ a, (s.writeRow t slot row v).rd a = s.rd a := by
  have hqueue : ∃ ce, (s.unqueue t ((s.storeBase t + row % 8192 * 1024) / 8) 128).tile t = { s.tile t with ceQueue := ce } ∧
      (s.unqueue t ((s.storeBase t + row % 8192 * 1024) / 8) 128).store = s.store ∧
      (s.unqueue t ((s.storeBase t + row % 8192 * 1024) / 8) 128).dram = s.dram ∧
      ∀ a, (s.unqueue t ((s.storeBase t + row % 8192 * 1024) / 8) 128).rd a = s.rd a := by
    unfold State.unqueue
    dsimp only
    split
    · exact ⟨_, rfl, rfl, rfl, fun _ => rfl⟩
    · exact ⟨_, (State.tile_setTile s t t _).trans (if_pos rfl), rfl, rfl, fun _ => rfl⟩
  rw [State.writeRow]
  dsimp only
  generalize s.unqueue t ((s.storeBase t + row % 8192 * 1024) / 8) 128 = q at hqueue
  obtain ⟨ce, htile, hstore, hdram, hrd⟩ := hqueue
  have hbase : q.storeBase t = s.storeBase t := State.storeBase_congr (hrd _)
  refine ⟨hstore, hdram, ⟨ce, max (s.tile t).writesDone (slot + 7), ?_⟩, hrd⟩
  rw [State.issueWrite, State.tile_setTile, if_pos rfl, htile, hbase]

/-- The check of a row that VST writes (R102, R103). -/
theorem State.vstCheck_trapped (s : State) (t slot entry : Nat) (f : VeuFields) (r : Row) :
    Leaves (Tile.Trapped (slot + 5)) [Reg.VEU_FLAGS t] s (s.vstCheck t slot entry f r) t := by
  unfold State.vstCheck
  dsimp only
  exact (Leaves.ite (.wr .refl s (List.mem_singleton_self _) _) (.refl .refl s)).trans .trans (State.specialTrap_trapped ..)

/-- The write of a VST (R74, R108). -/
def vstFlight (base : Nat) (f : VeuFields) (v : SMap Row) (I : Nat) : Flight :=
  ⟨I, 7, base + f.row.toNat % 8192 * 1024, toBytes (SMap.get v 0 f.va.toNat).toNat 1024⟩

/-- What a VST on a tile without coming events whose slot is free comes to in its handshake: the write on its way, and traps to come (R74,
R103, R107). -/
theorem State.veuIssue_stores {s : State} {t I : Nat} (hnil : (s.tile t).evs = []) (hfl : (s.tile t).flights = [])
    (hacc : (s.tile t).veu.accept ≤ I) (hlast : ∀ w, (s.tile t).lastWide = some w → w.1 ≤ I) (hfree : ∀ e, (s.tile t).lastWide ≠ some (I, e))
    (rep : Nat) (f : VeuFields) (entry order : Nat) :
    let w := State.runEvents t I eventFuel (s.veuIssue t veVst rep f I entry order)
    w.store = s.store ∧ w.dram = s.dram ∧
      (∃ ev lw ce c wd, w.tile t = { s.tile t with
        veu := { v := (s.tile t).veu.v, accept := I + 4 * (rep + 1), entry := entry }
        evs := ev, lastWide := lw, ceQueue := ce, clashLogged := c, writesDone := wd
        flights := [vstFlight (s.storeBase t) f (s.tile t).veu.v I] } ∧
        ∀ e ∈ ev, e ∈ veuRest veVst rep f I entry order ∨ e.act.notes = true ∧ e.slot < I + 5) ∧
      RegsSameBut s w (Reg.VEU_FLAGS t :: recordRegs t) := by
  obtain ⟨n, hrun⟩ := State.veuIssue_runs hnil hfl hacc hlast (op := veVst) (rep := rep) (f := f) (.inr hfree) entry order
  obtain ⟨hlater, -⟩ := @veuRest_slots veVst rep f I entry order
  dsimp only
  rw [hrun]
  generalize hx : (s.tile t).veuUnderWay veVst rep f I entry order = x
  have hact : (s.setTile t x).performAct t ⟨I, order, entry, .veu veVst f⟩ =
      ((s.setTile t { x with lastWide := some (I, entry) }).writeRow t I f.row.toNat (SMap.get x.veu.v 0 f.va.toNat)).vstCheck t I entry f
        (SMap.get x.veu.v 0 f.va.toNat) := by
    have htile (y : Tile) : (s.setTile t y).tile t = y := (State.tile_setTile s t t y).trans (if_pos rfl)
    unfold State.performAct
    dsimp only
    rw [if_pos (show (TileAct.veu veVst f).wide = true from rfl), htile, State.setTile_setTile, State.veuApply,
      if_neg (show veVst ≠ veVld by decide), if_pos rfl, htile]
  rw [hact]
  have hytile : (s.setTile t { x with lastWide := some (I, entry) }).tile t = { x with lastWide := some (I, entry) } :=
    (State.tile_setTile s t t _).trans (if_pos rfl)
  have hybase : (s.setTile t { x with lastWide := some (I, entry) }).storeBase t = s.storeBase t := State.storeBase_congr (State.setTile_rd ..)
  have hyrd (a : Nat) := State.setTile_rd s t { x with lastWide := some (I, entry) } a
  have hys : (s.setTile t { x with lastWide := some (I, entry) }).store = s.store ∧
    (s.setTile t { x with lastWide := some (I, entry) }).dram = s.dram := ⟨rfl, rfl⟩
  generalize s.setTile t { x with lastWide := some (I, entry) } = y at hytile hybase hyrd hys
  obtain ⟨hws, hwd, ⟨ce, wd, hwtile⟩, hwrd⟩ := y.writeRow_leaves t I f.row.toNat (SMap.get x.veu.v 0 f.va.toNat)
  generalize y.writeRow t I f.row.toNat (SMap.get x.veu.v 0 f.va.toNat) = z at hws hwd hwtile hwrd
  obtain ⟨hcs, hcd, ⟨ev, hctile, hfrom, -⟩, hcregs⟩ := z.vstCheck_trapped t I entry f (SMap.get x.veu.v 0 f.va.toNat)
  generalize z.vstCheck t I entry f (SMap.get x.veu.v 0 f.va.toNat) = c at hcs hcd hctile hcregs
  have hxv : x.veu.v = (s.tile t).veu.v := by rw [← hx]; rfl
  have hzevs : (z.tile t).evs = veuRest veVst rep f I entry order := by rw [hwtile, hytile, ← hx]; rfl
  rw [hzevs] at hfrom
  have hcfl : (c.tile t).flights = [vstFlight (s.storeBase t) f (s.tile t).veu.v I] := by
    rw [hctile, hwtile, hytile, hybase, hxv, ← hx]
    exact congrArg (· ++ [vstFlight (s.storeBase t) f (s.tile t).veu.v I]) hfl
  have hcevs : (c.tile t).evs = ev := by rw [hctile]
  obtain ⟨⟨⟨hrs, hrd, ⟨ev', lw, ce', cl, hrtile⟩, hrregs⟩, -⟩, hsub⟩ := State.runEvents_notes (s := c) (t := t) (h := I) n fun e he hs => by
    rw [hcevs] at he
    rw [hcfl]
    refine ⟨((hfrom e he).resolve_left fun h => absurd hs (Nat.not_le.mpr (hlater e h))).1, fun g hg => ?_⟩
    rw [List.mem_singleton.mp hg]
    exact show e.slot < I + 7 by omega
  have hrevs : ((State.runEvents t I n c).tile t).evs = ev' := by rw [hrtile]
  refine ⟨hrs.trans (hcs.trans (hws.trans hys.1)), hrd.trans (hcd.trans (hwd.trans hys.2)), ⟨ev', lw, ce', cl, wd, ?_, fun e he => ?_⟩,
    fun a ha => ?_⟩
  · have hflat : (c.tile t) = { c.tile t with flights := [vstFlight (s.storeBase t) f (s.tile t).veu.v I] } := by rw [← hcfl]
    rw [hrtile, hflat, hctile, hwtile, hytile, ← hx]
    rfl
  · have hin := hsub e (by rw [hrevs]; exact he)
    rw [hcevs] at hin
    exact hfrom e hin
  · rw [List.mem_cons, not_or] at ha
    rw [hrregs a ha.2, hcregs a fun h => ha.1 (List.mem_singleton.mp h), hwrd, hyrd]

/-- A VST of a quiet tile whose VEU accepts it (R74, R107, R108). -/
theorem vst_issues {s : State} {t : Nat} (q : Quiet s t) (hacc : (s.tile t).veu.accept ≤ slotOf s t) (rep : Nat) (f : VeuFields) :
    let u := s.issueEntry t 1 (fun s I k order => s.veuIssue t veVst rep f I k order)
    Issued s u t 1 ∧ BytesSame s u ∧ (u.tile t).veu.v = (s.tile t).veu.v ∧ (u.tile t).veu.accept = slotOf s t + 4 * (rep + 1) ∧
      ((∀ e, (s.tile t).lastWide ≠ some (slotOf s t, e)) →
        (u.tile t).flights = [vstFlight (s.storeBase t) f (s.tile t).veu.v (slotOf s t)] ∧ (u.tile t).se.aborts = [] ∧
        ∀ e ∈ (u.tile t).evs, e ∈ veuRest veVst rep f (slotOf s t) (s.tile t).nextK (s.tile t).order ∨
          e.act.notes = true ∧ e.slot < slotOf s t + 5) := by
  obtain ⟨hnil, hfl, -, -, -, hab⟩ := issued_resting q 1
  have ht : t < 128 := by obtain ⟨⟨ht, -⟩, -⟩ := q; exact ht
  have hveu : ((issued s t 1).tile t).veu = (s.tile t).veu := by rw [issued_tile]
  have hlw : ((issued s t 1).tile t).lastWide = (s.tile t).lastWide := by rw [issued_tile]
  have hwide := issued_lastWide q 1
  have hacc' : ((issued s t 1).tile t).veu.accept ≤ slotOf s t := by rw [hveu]; exact hacc
  have hplaced := State.veuIssue_placed (s := issued s t 1) hnil hacc' hwide veVst rep f (s.tile t).nextK (s.tile t).order
  obtain ⟨hlater, -⟩ := @veuRest_slots veVst rep f (slotOf s t) (s.tile t).nextK (s.tile t).order
  by_cases hfree : ∀ e, (s.tile t).lastWide ≠ some (slotOf s t, e)
  · have hbase := issued_storeBase s ht 1
    obtain ⟨hrs, hrd, ⟨ev, lw, ce, c, wd, hrtile, hfrom⟩, hrregs⟩ := State.veuIssue_stores (s := issued s t 1) hnil hfl hacc' hwide
      (by rw [hlw]; exact hfree) rep f (s.tile t).nextK (s.tile t).order
    have hcarried := State.issueEntry_carried q 1 (body := fun s I k order => s.veuIssue t veVst rep f I k order) rfl hplaced
    dsimp only
    rw [hcarried]
    generalize State.runEvents t (slotOf s t) eventFuel _ = w at hrs hrd hrtile hrregs
    rw [hveu, hbase] at hrtile
    have hstatus : Reg.SEQ_STATUS t ∉ Reg.VEU_FLAGS t :: recordRegs t := fun h => by
      rcases List.mem_cons.mp h with h | h
      · simp [Reg.SEQ_STATUS, Reg.VEU_FLAGS] at h
      · exact (SEQ_STATUS_notMem ht).1 (List.mem_cons_of_mem _ h)
    obtain ⟨hissued, hbytes, htile, -⟩ := issued_landing (w := w) q (fun g hg => by
      rw [hrtile] at hg
      rw [List.mem_singleton.mp hg]
      exact show slotOf s t < slotOf s t + 7 by omega) hrs hrd (hrregs _ hstatus) (by rw [hrtile]) (by rw [hrtile]) (by rw [hrtile])
    refine ⟨hissued, hbytes, ?_, ?_, fun _ => ⟨?_, ?_, fun e he => ?_⟩⟩
    · rw [htile, Tile.carriedAt, hrtile]
    · rw [htile, Tile.carriedAt, hrtile]
    · rw [htile, Tile.carriedAt, hrtile]
    · rw [htile, Tile.carriedAt, hrtile]
      exact hab
    · rw [htile, Tile.carriedAt, hrtile] at he
      exact hfrom e he
  · obtain ⟨a, hissue, -, hclash⟩ := State.veuIssue_starts (s := issued s t 1) hnil hacc' hwide veVst rep f (s.tile t).nextK (s.tile t).order
    obtain ⟨n, rfl⟩ := hclash fun h => h.elim (fun h => absurd h.symm Bool.false_ne_true) fun h => hfree (by rw [hlw] at h; exact h)
    generalize hv : (issued s t 1).veuIssue t veVst rep f (slotOf s t) (s.tile t).nextK (s.tile t).order = v at hplaced hissue
    have hvtile : v.tile t = { ((issued s t 1).tile t).veuStarted rep (slotOf s t) (s.tile t).nextK with
        evs := ⟨slotOf s t, (s.tile t).order, (s.tile t).nextK, .clash n⟩ ::
          veuRest veVst rep f (slotOf s t) (s.tile t).nextK (s.tile t).order } := by
      rw [hissue, State.tile_setTile, if_pos rfl]
    obtain ⟨w, hissued, hbytes, ⟨ev, lw, ce, c, hwt⟩, -, htile, -⟩ := State.issueEntry_notes q 1
      (body := fun s I k order => s.veuIssue t veVst rep f I k order) hv hplaced fun e he hs => by
        rw [hvtile] at he
        rcases List.mem_cons.mp he with rfl | he
        · rfl
        · exact absurd hs (Nat.not_le.mpr (hlater e he))
    refine ⟨hissued, hbytes, ?_, ?_, fun h => absurd h hfree⟩
    · rw [htile, Tile.carriedAt, hwt, hvtile, ← hveu]
      rfl
    · rw [htile, Tile.carriedAt, hwt, hvtile]
      rfl

/-- The one write on its way lands. -/
theorem State.landFlights_one {s : State} {t h : Nat} {g : Flight} (hfl : (s.tile t).flights = [g]) (hdue : g.slot + g.lat ≤ h) :
    (s.landFlights t h).store = s.store.write g.addr g.bytes := by
  have hlanded : landed h (s.tile t).flights = ([g], []) := by
    rw [hfl, landed, if_pos hdue]
    rfl
  unfold State.landFlights
  dsimp only
  rw [hlanded]
  rfl

/-- The write of a VST is in the store 7 handshakes after its slot, where nothing but traps falls due in between (R108). -/
theorem vst_lands {u : State} {t I base : Nat} {f : VeuFields} {v : SMap Row} (hfl : (u.tile t).flights = [vstFlight base f v I])
    (hab : (u.tile t).se.aborts = []) (hevs : ∀ e ∈ (u.tile t).evs, e.act.notes = true ∧ e.slot < I + 5) (b : Nat) :
    (u.advanceTo t (I + 7)).store.read b =
      (u.store.write (base + f.row.toNat % 8192 * 1024) (toBytes (SMap.get v 0 f.va.toNat).toNat 1024)).read b := by
  obtain ⟨⟨⟨hstore, -, hrec, -⟩, -⟩, -⟩ := State.runEvents_notes (s := u) (t := t) (h := I + 7) eventFuel fun e he _ => by
    obtain ⟨hnotes, hslot⟩ := hevs e he
    refine ⟨hnotes, fun g hg => ?_⟩
    rw [hfl] at hg
    rw [List.mem_singleton.mp hg]
    exact show e.slot < I + 7 by omega
  rw [State.advanceTo_carried hab, State.carried_store]
  generalize State.runEvents t (I + 7) eventFuel u = w at hstore hrec
  rw [State.landFlights_one (hrec.flights.trans hfl) (le_refl (I + 7)), hstore]
  rfl

/-! Clashes. -/

/-- A VEU entry before the VEU accepts clashes with the one in progress (R132). -/
theorem veu_clashes {s : State} {t : Nat} (c : Calm s t) (hacc : slotOf s t < (s.tile t).veu.accept) (hentry : (s.tile t).veu.entry < 4096)
    (op rep : Nat) (f : VeuFields) :
    let u := s.issueEntry t 1 (fun s I k order => s.veuIssue t op rep f I k order)
    Issued s u t 1 ∧ BytesSame s u ∧ Clashed s u t 1 (s.tile t).veu.entry (s.tile t).nextK (slotOf s t) ∧ (u.tile t).veu = (s.tile t).veu := by
  have hveu : ((entered s t 1).tile t).veu = (s.tile t).veu := by rw [entered_tile c]
  have hbody : (entered s t 1).veuIssue t op rep f (slotOf s t) (s.tile t).nextK (s.tile t).order =
      (entered s t 1).slotClash t 1 (s.tile t).veu.entry (s.tile t).nextK (slotOf s t) := by
    unfold State.veuIssue
    dsimp only
    rw [hveu, if_pos hacc]
  obtain ⟨hissued, hbytes, hclash, -, -, -, hveu'⟩ := State.issueEntry_clash c (cause := 1) (by decide) hentry
    (body := fun s I k order => s.veuIssue t op rep f I k order) hbody
  exact ⟨hissued, hbytes, hclash, hveu'⟩

/-! The entries. -/

/-- A VEU entry whose operand values R74 admits issues. -/
theorem veuEntry_issues {op rep : Nat} {f : VeuFields} (hl : veuLegal op f = true) (hin : veuInStore op f rep = true) (t : Nat) (s : State) :
    veuEntry op t rep f s = .next (s.issueEntry t 1 (fun s I k order => s.veuIssue t op rep f I k order)) := by
  rw [veuEntry, hl, hin]
  rfl

/-- A computing entry names no row of the store. -/
theorem veuOp_inStore {op : Nat} (hop : op ≠ veVld ∧ op ≠ veVst) (f : VeuFields) (rep : Nat) : veuInStore op f rep = true := by
  obtain ⟨h1, h2⟩ := hop
  rw [veuInStore, beq_eq_false_iff_ne.mpr h1, beq_eq_false_iff_ne.mpr h2]
  rfl

/-- The operand values of loads and stores that R74 admits. -/
theorem veuMemory_legal {f : VeuFields} {rep : Nat} (hfmt : f.fmt.toNat ≤ 2) (hrow : f.row.toNat + rep < 8192) :
    (veuLegal veVld f = true ∧ veuInStore veVld f rep = true) ∧ veuLegal veVst f = true ∧ veuInStore veVst f rep = true := by
  have hin (op : Nat) : veuInStore op f rep = true := by
    rw [veuInStore, decide_eq_true hrow, Bool.or_true]
  exact ⟨⟨decide_eq_true hfmt, hin _⟩, decide_eq_true hfmt, hin _⟩

theorem exec_vld {f : VeuFields} {rep : BitVec 10} (hfmt : f.fmt.toNat ≤ 2) (hrow : f.row.toNat + rep.toNat < 8192) (t : Nat)
    (soft : List SoftErr) (s : State) : exec (.vld t rep f soft) s =
      .next ((s.addSoft t soft).issueEntry t 1 (fun s I k order => s.veuIssue t veVld rep.toNat f I k order)) := by
  obtain ⟨⟨hl, hin⟩, -⟩ := veuMemory_legal hfmt hrow
  exact veuEntry_issues hl hin t _

theorem exec_vst {f : VeuFields} {rep : BitVec 10} (hfmt : f.fmt.toNat ≤ 2) (hrow : f.row.toNat + rep.toNat < 8192) (t : Nat) (s : State) :
    exec (.vst t rep f) s = .next (s.issueEntry t 1 (fun s I k order => s.veuIssue t veVst rep.toNat f I k order)) := by
  obtain ⟨-, hl, hin⟩ := veuMemory_legal hfmt hrow
  exact veuEntry_issues hl hin t s

/-- A computing entry is neither a load nor a store. -/
theorem veuOps_computes {t : Nat} {rep : BitVec 10} {f : VeuFields} {op : Nat} {c : Instr} (h : (op, c) ∈ veuOps t rep f) (s : State) :
    exec c s = veuEntry op t rep.toNat f s ∧ op ≠ veVld ∧ op ≠ veVst := by
  obtain ⟨hexec, hop⟩ := exec_veuOp h s
  obtain ⟨hlow, -⟩ := List.mem_range'_1.mp hop
  exact ⟨hexec, Nat.ne_of_gt (Nat.lt_of_lt_of_le (by decide) hlow), Nat.ne_of_gt (Nat.lt_of_lt_of_le (by decide) hlow)⟩

/-- Settles O34: each entry's case is a lemma above. -/
theorem veuEntriesIssue : Obligations.VeuEntriesIssue := by
  unfold Obligations.VeuEntriesIssue
  intro s t rep f
  have hrow : f.row.toNat % 8192 = f.row.toNat := Nat.mod_eq_of_lt f.row.isLt
  dsimp only
  refine ⟨fun q hacc op c hc hl => ?_, fun q hacc hfmt hin => ⟨fun soft => ?_, ?_⟩, fun c hacc hentry i hi => ?_⟩
  · obtain ⟨hexec, hop⟩ := veuOps_computes hc s
    obtain ⟨hissued, honly, hregs, htile, hflags, hstatus⟩ := veu_computes q hacc hop rep.toNat f
    have hveu : ((issued s t 1).tile t).veu = (s.tile t).veu := by rw [issued_tile]
    refine ⟨_, hexec.trans (veuEntry_issues hl (veuOp_inStore hop f rep.toNat) t s), hissued, honly, hregs, ?_, hflags, ?_, hstatus,
      fun i h0 hi => ?_⟩
    · rw [htile, Tile.veuDone, hveu]
      rfl
    · rw [htile]
      rfl
    · rw [htile]
      exact mem_veuRest h0 hi
  · have hsame := s.addSoft_same t soft
    have hexec := exec_vld hfmt hin t soft s
    have hnone : soft = [] → s.addSoft t soft = s := fun h => by rw [h]; rfl
    generalize s.addSoft t soft = s' at hsame hexec hnone
    obtain ⟨htile, hslot, hcalm, hissue, hbyte, -⟩ := safety_congr hsame
      (s'.issueEntry t 1 (fun s I k order => s.veuIssue t veVld rep.toNat f I k order)) t
    have q' : Quiet s' t := by
      obtain ⟨c, hq⟩ := q
      exact ⟨hcalm c, by rw [htile]; exact hq⟩
    obtain ⟨hissued, hbytes, haccept⟩ := vld_issues q' (by rw [htile, hslot]; exact hacc) rep.toNat f
    rw [hslot] at haccept
    refine ⟨_, hexec, hissue hissued, hbyte hbytes, haccept, fun h0 hups hfree => ?_⟩
    obtain rfl := hnone h0
    obtain ⟨honly, hregs, hv⟩ := vld_loads q hacc hups hfree rep.toNat f
    refine ⟨honly, hregs, fun i hi => ?_, fun r hr => ?_⟩
    · rw [hv, SMap.get_set, if_pos rfl, Row.byte_ofBytes _ hi, Memory.readList_getD _ _ _ hi, hrow]
    · rw [hv, SMap.get_set, if_neg (Ne.symm hr)]
  · obtain ⟨hissued, hbytes, hv, haccept, hflight⟩ := vst_issues q hacc rep.toNat f
    refine ⟨_, exec_vst hfmt hin t s, hissued, hbytes, hv, haccept, fun h0 hfree => ?_⟩
    obtain ⟨hfl, hab, hevs⟩ := hflight hfree
    obtain ⟨hstore, -⟩ := hbytes
    have hread := vst_lands hfl hab fun e he => (hevs e he).resolve_left fun h => by
      rw [h0] at h
      exact absurd h List.not_mem_nil
    simp only [Memory.read_write, length_toBytes, hstore, hrow] at hread
    refine ⟨fun i hi => ?_, fun b hb => ?_⟩
    · rw [hread, if_pos (by omega), Nat.add_sub_cancel_left, toBytes_getD _ _ hi, Row.byte_eq]
    · rw [hread, if_neg (by omega)]
  · rcases hi with ⟨op, hc, hl⟩ | ⟨hfmt, hin, ⟨soft, rfl⟩ | rfl⟩
    · obtain ⟨hexec, hop⟩ := veuOps_computes hc s
      exact ⟨_, hexec.trans (veuEntry_issues hl (veuOp_inStore hop f rep.toNat) t s), veu_clashes c hacc hentry op rep.toNat f⟩
    · have hsame := s.addSoft_same t soft
      have hexec := exec_vld hfmt hin t soft s
      generalize s.addSoft t soft = s' at hsame hexec
      obtain ⟨htile, hslot, hcalm, hissue, hbyte, hclashed⟩ := safety_congr hsame
        (s'.issueEntry t 1 (fun s I k order => s.veuIssue t veVld rep.toNat f I k order)) t
      obtain ⟨hissued, hbytes, hclash, hveu⟩ := veu_clashes (hcalm c) (by rw [htile, hslot]; exact hacc) (by rw [htile]; exact hentry) veVld
        rep.toNat f
      rw [htile, hslot] at hclash
      exact ⟨_, hexec, hissue hissued, hbyte hbytes, hclashed hclash, hveu.trans (by rw [htile])⟩
    · exact ⟨_, exec_vst hfmt hin t s, veu_clashes c hacc hentry veVst rep.toNat f⟩

end Sys2Proof.Machine
end

section
/-! A counterexample to what a warm reset leaves of the partitions (R359): the last thing it writes is each partition's share of the power
budget, into the register that the partition's number names (R345), and the statement speaks of every state, so a partition may have a number
whose `PWR_PART` is the `PART_BEAT_STATUS` of another. -/
namespace Sys2Proof.Machine
open Sys2Proof.Safety

/-- A number whose `PWR_PART` is the `PART_BEAT_STATUS` of partition 0. -/
def aliasNo : Nat := 0x801F81

theorem aliasNo_reg : Reg.PWR_PART aliasNo = Reg.PART_BEAT_STATUS 0 := by decide

/-- Partition 0 and the partition of that number, the latter with a share of 1. -/
def State.HoldsShare (s : State) : Prop := ∃ x y, s.parts = [(0, x), (aliasNo, y)] ∧ y.share = 1

/-! What a warm reset does before it writes the shares leaves the two partitions. -/

theorem State.HoldsShare.of_parts {s u : State} (h : s.HoldsShare) (hp : u.parts = s.parts) : u.HoldsShare := by
  obtain ⟨x, y, hs, hy⟩ := h
  exact ⟨x, y, hp.trans hs, hy⟩

theorem State.HoldsShare.map {s u : State} (h : s.HoldsShare) {f : Nat → Part → Part}
    (hp : u.parts = s.parts.map (fun q => (q.1, f q.1 q.2))) (hf : ∀ p x, (f p x).share = x.share) : u.HoldsShare := by
  obtain ⟨x, y, hs, hy⟩ := h
  exact ⟨f 0 x, f aliasNo y, by rw [hp, hs]; rfl, (hf _ _).trans hy⟩

theorem State.HoldsShare.updPart {s : State} (h : s.HoldsShare) (p : Nat) {f : Part → Part} (hf : ∀ x, (f x).share = x.share) :
    (s.updPart p f).HoldsShare := by
  obtain ⟨x, y, hs, hy⟩ := h
  have hpart : s.part p = if 0 = p then some x else if aliasNo = p then some y else none := by
    rw [State.part, hs]; rfl
  unfold State.updPart
  rw [hpart]
  by_cases h0 : 0 = p
  · subst h0
    exact ⟨f x, y, by simp only [if_pos, State.setPart, hs, SMap.set], hy⟩
  · by_cases h1 : aliasNo = p
    · subst h1
      exact ⟨x, f y, by simp [State.setPart, hs, SMap.set, aliasNo], (hf y).trans hy⟩
    · rw [if_neg h0, if_neg h1]
      exact ⟨x, y, hs, hy⟩

theorem State.HoldsShare.foldl {α : Type} {s : State} (h : s.HoldsShare) {f : State → α → State} {l : List α}
    (hf : ∀ v x, v.HoldsShare → (f v x).HoldsShare) : (l.foldl f s).HoldsShare := by
  induction l generalizing s with
  | nil => exact h
  | cons x r ih => exact ih (hf s x h)

theorem State.HoldsShare.ite {c : Prop} [Decidable c] {s u : State} (h : s.HoldsShare) (h' : u.HoldsShare) :
    (if c then s else u).HoldsShare := by
  split
  · exact h
  · exact h'

theorem State.HoldsShare.wr {s : State} (h : s.HoldsShare) (a : Nat) (v : Word) : (s.wr a v).HoldsShare := h.of_parts rfl

theorem State.HoldsShare.setFld {s : State} (h : s.HoldsShare) (a lo w v : Nat) : (s.setFld a lo w v).HoldsShare := h.of_parts rfl

theorem State.HoldsShare.setBit {s : State} (h : s.HoldsShare) (a i : Nat) (b : Bool) : (s.setBit a i b).HoldsShare := h.of_parts rfl

theorem State.HoldsShare.setTile {s : State} (h : s.HoldsShare) (t : Nat) (x : Tile) : (s.setTile t x).HoldsShare := h.of_parts rfl

theorem State.HoldsShare.toReset {s : State} (h : s.HoldsShare) (l : List Nat) : (s.toReset l).HoldsShare :=
  h.foldl fun _ a hv => hv.wr a _

/-- What a severity does (R41, R366). -/
theorem State.HoldsShare.logEffect {s : State} (h : s.HoldsShare) (sev : Nat) (part : Option Nat) : (s.logEffect sev part).HoldsShare := by
  unfold State.logEffect
  split
  · cases part with
    | none => exact h
    | some p => exact h.updPart p fun _ => rfl
  · split
    · refine h.map (f := s.fatalPart) ((congrArg State.parts (State.vector2_only _).1).trans ?_) fun p x => ?_
      · refine List.map_congr_left fun px _ => ?_
        unfold State.fatalPart
        split_ifs <;> rfl
      · unfold State.fatalPart
        split_ifs <;> rfl
    · exact h

/-- A kept cause (R369). -/
theorem State.HoldsShare.keepCause {s : State} (h : s.HoldsShare) (sev : Nat) (part : Option Nat) (r : LogRec) :
    (s.keepCause sev part r).HoldsShare := by
  unfold State.keepCause
  split
  · exact h
  · refine h.map (f := fun p x => if (part = some p ∨ part = none) ∧ x.fault ∧ x.cause = none then { x with cause := some r } else x) ?_
      fun p x => ?_
    · refine List.map_congr_left fun px _ => ?_
      split_ifs <;> rfl
    · split_ifs <;> rfl

theorem State.HoldsShare.logRec {s : State} (h : s.HoldsShare) (cls idx code sev : Nat) (part : Option Nat) (detail : List Byte) :
    (s.logRec cls idx code sev part detail).HoldsShare := by
  obtain ⟨-, hparts, -⟩ := s.logRec_only cls idx code sev part detail
  exact ((h.logEffect sev part).keepCause sev part _).of_parts hparts

/-! Partitions, ports, lanes and channels. -/

theorem State.HoldsShare.partWarm {s : State} (h : s.HoldsShare) (p : Nat) : (s.partWarm p).HoldsShare := by
  have hsect (x : Part) (u : State) (hu : u.HoldsShare) : (u.setRelease x false false).HoldsShare :=
    hu.foldl fun _ _ hv => hv.foldl fun _ _ hw => hw
  have hgpio (b : BitVec 4) (u : State) (hu : u.HoldsShare) : (u.gpioSet b false).HoldsShare :=
    hu.foldl fun _ _ hv => State.HoldsShare.ite hv hv
  unfold State.partWarm
  extract_lets r s1 s2 s3
  have h2 : s2.HoldsShare := State.HoldsShare.of_parts (s := s1) (h.updPart p fun _ => rfl) rfl
  have h3 : s3.HoldsShare := by
    unfold s3
    split
    · exact hsect _ _ (hgpio _ _ h2)
    · exact h2
  exact h3.of_parts rfl

theorem State.HoldsShare.loseTime {s : State} (h : s.HoldsShare) (cause port : Nat) : (s.loseTime cause port).HoldsShare := by
  have hu : State.HoldsShare { s with timeUnit := { s.timeUnit with good := 0, lost := 0 } } := h.of_parts rfl
  unfold State.loseTime
  dsimp only
  split
  · exact (((hu.wr _ _).of_parts (State.stepFree_parts _)).setFld _ _ _ _).logRec ..
  · exact .ite hu (hu.setFld _ _ _ _)

theorem State.HoldsShare.portWarm {s : State} (h : s.HoldsShare) (p : Nat) : (s.portWarm p).HoldsShare := by
  unfold State.portWarm
  split
  · extract_lets s1 x s2 s3
    have h2 : s2.HoldsShare := h.of_parts rfl
    have h3 : s3.HoldsShare := h2.foldl fun _ _ hv => .ite (hv.of_parts rfl) hv
    exact .ite (h3.loseTime _ _) h3
  · exact h

theorem State.HoldsShare.ddrWarm {s : State} (h : s.HoldsShare) (ch : Nat) : (s.ddrWarm ch).HoldsShare := by
  unfold State.ddrWarm
  extract_lets s1 x r s2
  have h2 : s2.HoldsShare := State.HoldsShare.of_parts (s := s1) (h.toReset _) rfl
  exact .ite ((h2.setBit _ _ _).setFld _ _ _ _) h2

theorem State.HoldsShare.dumpWarm {s : State} (h : s.HoldsShare) : s.dumpWarm.HoldsShare := h.foldl fun _ _ hv => .ite hv hv

/-! Tiles and routers. -/

theorem State.HoldsShare.logTile {s : State} (h : s.HoldsShare) (t code sev : Nat) (detail : List Byte) :
    (s.logTile t code sev detail).HoldsShare := h.logRec ..

theorem State.HoldsShare.semFault_broken {s : State} (h : s.HoldsShare) (t k src amount before issuer : Nat) :
    (s.semFault t k 2 src amount before issuer).HoldsShare := State.HoldsShare.ite (c := s.bit (Reg.SEM_FAULT t) 0) h h

theorem State.HoldsShare.semBreak {s : State} (h : s.HoldsShare) (t : Nat) (ks : List Nat) (cause peer : Nat) :
    (s.semBreak t ks cause peer).HoldsShare := by
  unfold State.semBreak
  dsimp only
  split
  · exact h
  next k0 r _ =>
    have hbroken (l : List Nat) : (l.foldl (fun (s : State) k =>
        let s := s.setBit (Reg.SEM_CNT t k) 16 true
        if k < 32 then s.setBit (Reg.SEM_BROKEN_LO t) k true else s.setBit (Reg.SEM_BROKEN_HI t) (k - 32) true) s).HoldsShare :=
      h.foldl fun _ _ hv => .ite ((hv.setBit _ _ _).setBit _ _ _) ((hv.setBit _ _ _).setBit _ _ _)
    exact ((hbroken _).semFault_broken ..).logTile ..

theorem State.HoldsShare.breakPeers {s : State} (h : s.HoldsShare) (ts : List Nat) (cause : Nat) : (s.breakPeers ts cause).HoldsShare := by
  refine h.foldl fun v t hv => ?_
  dsimp only
  split
  · exact hv
  · exact hv.semBreak ..

theorem State.HoldsShare.seStatus {s : State} (h : s.HoldsShare) (t : Nat) : (s.seStatus t).HoldsShare :=
  State.HoldsShare.foldl (s := s.wr (Reg.SE_STATUS t) _) h fun _ _ hv => .ite hv hv

theorem State.HoldsShare.seTileReset {s : State} (h : s.HoldsShare) (t : Nat) : (s.seTileReset t).HoldsShare := by
  have hcancel (v : State) (c : Nat) (hv : v.HoldsShare) : (v.seCancel t c 0).HoldsShare := by
    unfold State.seCancel
    extract_lets x v1 v2
    exact State.HoldsShare.of_parts (s := v2) (.ite hv hv) rfl
  have hfill (v : State) (c : Nat) (hv : v.HoldsShare) : (v.setFillFree t c 0 0).HoldsShare := .ite hv hv
  have habort (v : State) (hv : v.HoldsShare) : (v.settleAborts t).HoldsShare := by
    unfold State.settleAborts
    split
    · exact hv
    · unfold State.abortRecord
      exact State.HoldsShare.logTile ((hv.setTile t _).wr _ _) ..
  unfold State.seTileReset
  extract_lets s1
  have h1 : s1.HoldsShare := h.foldl fun v c hv => (hfill _ c (hcancel v c hv)).of_parts rfl
  exact ((habort s1 h1).of_parts rfl : State.HoldsShare (State.updSe _ t _)).seStatus t

theorem State.releaseWorm_parts (a key fuel : Nat) (s : State) : (State.releaseWorm a key fuel s).parts = s.parts := by
  induction fuel generalizing a key s with
  | zero => rfl
  | succ n ih =>
    rw [State.releaseWorm]
    dsimp only
    split
    · rfl
    · split
      · rfl
      · exact ih _ _ _

theorem State.dropWorm_parts (s : State) (p : Pkt) : (s.dropWorm p).parts = s.parts :=
  foldl_keeps State.parts (fun b h _ => State.releaseWorm_parts h.1 h.2 24 b) s

theorem State.dropHalf_parts (s : State) (edge : Bool) (d : Nat) : (s.dropHalf edge d).parts = s.parts :=
  foldl_keeps State.parts (fun b p _ => b.dropWorm_parts p) s

theorem State.routerReset_parts (s : State) (a : Nat) : (s.routerReset a).parts = s.parts := by
  have hworms : ((s.routerPkts a).foldl (fun s p => s.dropWorm p) s).parts = s.parts :=
    foldl_keeps State.parts (fun b p _ => b.dropWorm_parts p) s
  unfold State.routerReset
  extract_lets s1 r s2
  have h1 : s1.parts = s.parts := (State.dropHalf_parts _ false a).trans hworms
  exact h1

theorem State.HoldsShare.tileResetOne {s : State} (h : s.HoldsShare) (t : Nat) : (s.tileResetOne t).HoldsShare := by
  unfold State.tileResetOne
  have hland : (s.landAll t).HoldsShare := h.of_parts rfl
  have hload (v : State) (hv : v.HoldsShare) : (v.semLoad t).HoldsShare :=
    ((hv.foldl fun _ _ hw => (hw.wr _ _).wr _ _).wr _ _).wr _ _
  extract_lets s1 x y s2 s3 s4
  have h2 : s2.HoldsShare := (hland.seTileReset t).setTile t _
  have h3 : s3.HoldsShare := hload _ ((h2.of_parts (s2.routerReset_parts t)).toReset _)
  have h4 : s4.HoldsShare := ((h3.setFld _ _ _ _).setBit _ _ _).setBit _ _ _
  exact h4.foldl fun _ _ hv => .ite (hv.setBit _ _ _) hv

theorem colEdges_lt {c e : Nat} (hc : c < 16) (he : e ∈ colEdges c) : e < 48 := by
  simp only [colEdges, List.mem_append, List.mem_cons, List.not_mem_nil, or_false] at he
  rcases he with (he | he) | he
  · omega
  · split at he
    · obtain ⟨r, hr, rfl⟩ := List.mem_map.mp he
      have := List.mem_range.mp hr
      omega
    · exact absurd he List.not_mem_nil
  · split at he
    · obtain ⟨r, hr, rfl⟩ := List.mem_map.mp he
      have := List.mem_range.mp hr
      omega
    · exact absurd he List.not_mem_nil

theorem State.HoldsShare.tileResets {s : State} (h : s.HoldsShare) (ts : List Nat) : (s.tileResets ts).HoldsShare := by
  unfold State.tileResets
  extract_lets s1 s2 s3
  have h1 : s1.HoldsShare := h.foldl fun v t hv => hv.tileResetOne t
  have h3 : s3.HoldsShare := State.HoldsShare.breakPeers (s := s2) (h1.of_parts rfl) ts 0
  refine h3.of_parts (foldl_keeps State.parts (fun v c hc => ?_) s3)
  have hc : c < 16 := List.mem_range.mp (List.mem_of_mem_filter hc)
  exact foldl_keeps State.parts (fun b e he => (b.edgeFlush_frame (colEdges_lt hc he)).1) v

/-! The whole warm reset. -/

/-- The share of the partition of that number is written into `PART_BEAT_STATUS` of partition 0 (R345). -/
theorem State.HoldsShare.writeShares {s : State} (h : s.HoldsShare) :
    (s.parts.foldl (fun s p => s.wr (Reg.PWR_PART p.1) (BitVec.ofNat 32 p.2.share)) s).rd (Reg.PART_BEAT_STATUS 0) = 1 := by
  obtain ⟨x, y, hs, hy⟩ := h
  rw [hs]
  simp only [List.foldl_cons, List.foldl_nil, State.rd_wr, aliasNo_reg, if_true, hy]
  rfl

theorem State.thermPin_rd {s : State} {a : Nat} (ha : Reg.PWR_STATUS ≠ a) (low : Bool) : (s.thermPin low).rd a = s.rd a := by
  unfold State.thermPin
  split
  · rfl
  · exact (State.rd_setBit _ _ _ _ _).trans (if_neg ha)

theorem State.HoldsShare.pwrWarm {s : State} (h : s.HoldsShare) : s.pwrWarm.rd (Reg.PART_BEAT_STATUS 0) = 1 := by
  have hoff : Reg.PWR_STATUS ≠ Reg.PART_BEAT_STATUS 0 := by decide
  unfold State.pwrWarm
  extract_lets trip hot low off r c u v w
  have hr : r.HoldsShare := h.toReset pwrRegs
  have hu : u.HoldsShare := by
    clear_value r c
    exact hr.of_parts rfl
  have hw : w.rd (Reg.PART_BEAT_STATUS 0) = 1 := by
    unfold w
    rw [State.rd_setBit, if_neg hoff, State.rd_setBit, if_neg hoff]
    exact hu.writeShares
  split
  · rw [State.thermPin_rd hoff, hw]
  · exact hw

theorem State.HoldsShare.nothingDelivered {s : State} (h : s.HoldsShare) : State.HoldsShare { s with delivered := [] } := h.of_parts rfl

theorem State.HoldsShare.setLoad {s : State} (h : s.HoldsShare) (l : Option LoadSt) : (s.setLoad l).HoldsShare := h.of_parts rfl

/-- `BOOT_STATUS` and the record of the boot are not the state of partition 0. -/
theorem State.rd_bootCleared {s : State} {b : BootSt} (h : s.rd (Reg.PART_BEAT_STATUS 0) = 1) :
    State.rd { s.wr Reg.BOOT_STATUS 0 with boot := b } (Reg.PART_BEAT_STATUS 0) = 1 :=
  (State.rd_wr s Reg.BOOT_STATUS (Reg.PART_BEAT_STATUS 0) 0).trans ((if_neg (by decide)).trans h)

/-- From the reset of the mailboxes on: the parts of a warm reset in their order (R358, R359). -/
theorem State.HoldsShare.warmReset {s : State} (h : ((s.devOkPin false).cfgDonePin false).mbxWarm.HoldsShare) :
    s.warmReset.rd (Reg.PART_BEAT_STATUS 0) = 1 := by
  have hlane (v : State) (n : Nat) (hv : v.HoldsShare) : (v.laneWarm n).HoldsShare := hv.of_parts rfl
  unfold State.warmReset
  extract_lets s1 s2 s3 c s4 s5 s6 s7 s8 s9 s10 s11 s12 s13 b
  have h3 : s3.HoldsShare := State.HoldsShare.toReset h _
  have h4 : s4.HoldsShare := by
    clear_value s3
    exact h3.of_parts rfl
  have h5 : s5.HoldsShare := h4.foldl fun v p hv => hv.partWarm p
  have h6 : s6.HoldsShare := h5.foldl fun v p hv => hv.portWarm p
  have h7 : s7.HoldsShare := h6.foldl hlane
  have h8 : s8.HoldsShare := h7.dumpWarm.foldl fun v ch hv => hv.ddrWarm ch
  have h9 : s9.HoldsShare := h8.tileResets _
  have h10 : s10.HoldsShare := h9.foldl fun v c hv => hv.of_parts (v.routerReset_parts _)
  have h11 : (s11.setLoad none).HoldsShare := h10.nothingDelivered.setLoad none
  have h12 : s12.rd (Reg.PART_BEAT_STATUS 0) = 1 := (h11.wr Reg.CFG_STATUS 0).pwrWarm
  exact State.rd_bootCleared h12

/-- Partition 0 and the other one, in a state in which the reset pins are high. -/
def aliasState : State := { State.reset with
  parts := [(0, newPart ⟨0, 0, 0, 0, 0, 0, 0, 0, 0, 0⟩), (aliasNo, { newPart ⟨0, 0, 0, 0, 0, 0, 0, 0, 0, 0⟩ with share := 1 })]
  boot := { State.reset.boot with por := false, sysRst := false, dead := false } }

theorem aliasState_mbxWarm : ((aliasState.devOkPin false).cfgDonePin false).mbxWarm.HoldsShare := by
  have hshares : ((aliasState.devOkPin false).cfgDonePin false).mbxWarm.parts.map (fun q => (q.1, q.2.share)) = [(0, 0), (aliasNo, 1)] := by
    decide +kernel
  obtain ⟨⟨i, x⟩, l, hparts, hx, hl⟩ := List.map_eq_cons_iff.mp hshares
  obtain ⟨⟨j, y⟩, m, rfl, hy, hm⟩ := List.map_eq_cons_iff.mp hl
  obtain rfl := List.map_eq_nil_iff.mp hm
  obtain ⟨rfl, -⟩ := Prod.mk.inj hx
  obtain ⟨rfl, hshare⟩ := Prod.mk.inj hy
  exact ⟨x, y, hparts, hshare⟩

/-- After the warm reset partition 0 is not STOPPED. -/
theorem aliasState_warmReset : aliasState.warmReset.pstate 0 = 1 := by
  rw [State.pstate, State.fld, aliasState_mbxWarm.warmReset]
  rfl

theorem State.pstate_boot (s : State) (b : BootSt) (p : Nat) : State.pstate { s with boot := b } p = s.pstate p := rfl

/-- Refutes O59: a partition may have a number whose `PWR_PART` is the `PART_BEAT_STATUS` of partition 0; its share, which the warm reset writes
last, is then the state in which `SYS_RST_N` leaves partition 0. -/
theorem not_bootAndRecoveryRun : ¬ Obligations.BootAndRecoveryRun := by
  intro h
  obtain ⟨-, -, hsys, -⟩ := h aliasState
  obtain ⟨u, hu, -, -, -, -, -, -, -, hstopped, -⟩ := hsys rfl rfl rfl
  obtain rfl : { aliasState.warmReset with boot := { aliasState.warmReset.boot with sysRst := true } } = u := Host.Outcome.next.inj hu
  have hstate := hstopped 0 (newPart ⟨0, 0, 0, 0, 0, 0, 0, 0, 0, 0⟩) (by decide) rfl
  rw [State.pstate_boot, aliasState_warmReset] at hstate
  exact absurd hstate (by decide)

end Sys2Proof.Machine
end
